-- ==== Sys2Proof/Word.lean ====
section
/-!
DEFINITION. The word types of the Bolsor and the unit of time.

Every clock domain of R40 divides one unit: 1/768 ns. A SAMPLE period is 15 625 units (20.345 ns), a LINK period 7680, a
CORE cycle 960, a KEEP period 23 437 500.
-/

namespace Sys2Proof

/-- A word is 16 bits (R5). -/
abbrev Word := BitVec 16

/-- One byte. -/
abbrev Byte := BitVec 8

/-- An instant or a duration in units of 1/768 ns. -/
abbrev Time := Nat

/-- A basket, 0 to 3; basket 0 is the supervisor (R715). -/
abbrev Basket := Fin 4

/-- A model handle, 0 to 15 (R434). -/
abbrev Handle := Fin 16

end Sys2Proof
end

