-- ==== Sys2Proof/Syntax.lean ====
section
/-!
DEFINITION. The commands and events of the Bolsor: one constructor for each row of spec/opcode_table.json.

The first operand t of every constructor (or the field t of its first operand) is the instant at which the row comes about, in 1/768 ns (Word.lean). A host
command names the basket through whose chip select CMD_CODE is written; its arguments stand in CMD_ARG0 to CMD_ARG7 of
that basket's page (R774). The further operands of an event are the unit it concerns and what is physically read there.
-/

namespace Sys2Proof

/-- The supplies whose monitor begins a reset (R843). -/
inductive Supply where
  | vddc | vdda | vddio
  deriving DecidableEq, Repr

/-- The wake sources of R876. -/
inductive WakeSource where
  | thimble | alarm | verdict
  deriving DecidableEq, Repr

/-- The units that accept Spool tags (Table 10-2). -/
inductive UnitId where
  | gatherer
  | tile (i : Fin 48)
  | path (i : Fin 48)
  | engine (i : Fin 4)
  | press (i : Fin 8)
  | store
  deriving DecidableEq, Repr

/-- One TEDS memory as one scan reads it (R71 to R76). -/
structure TedsRead where
  identity : BitVec 64
  idCrcOk : Bool
  readOk : Bool
  checksumOk : Bool
  templateOk : Bool
  deriving DecidableEq, Repr

/-- One index code as the optical head sees it (R107, R108): the START rising edge, and the later changes of level from the falling edge of START
on, in order. -/
structure IndexRead where
  start : Time
  transitions : List Time
  deriving DecidableEq, Repr

/-- The level at a channel's input: differential and common mode, in nV (R70, R950). -/
structure InputLevel where
  diff : Int
  common : Int
  deriving DecidableEq, Repr

/-- One conversion (R64, R70): the raw code and the level that it was taken at. -/
structure SampleRead where
  raw : Int
  level : InputLevel
  deriving DecidableEq, Repr

/-- The level at the input of a channel position. -/
structure ChannelLevel where
  pos : Fin 24
  level : InputLevel
  deriving DecidableEq, Repr

/-- A transition at a tach input that is judged as an edge (R113, R116): the input and the instant of the transition. -/
structure TachMark where
  tach : Fin 4
  edge : Time
  deriving DecidableEq, Repr

/-- The end of a flood (R111): the input of the pair, TIDX or TACH, and the instant since which its level is below the threshold. -/
structure FloodFall where
  onIndex : Bool
  below : Time
  deriving DecidableEq, Repr

/-- A violation that the guardian sees (R691, R941): its instant and the guardian's oscillator counts since the cycle start. -/
structure GuardSight where
  t : Time
  count : Nat
  deriving DecidableEq, Repr

/-- The level of one cell of a row after a row press, in 1/256 level (R290). -/
structure CellRead where
  column : Nat
  level : Int
  deriving DecidableEq, Repr

/-- The level to which one cell of one tile has drifted, in 1/256 level. Rows 512 to 527 are the reference rows. -/
structure CellDrift where
  tile : Fin 48
  row : Nat
  column : Nat
  level : Int
  deriving DecidableEq, Repr

/-- VDDP leaves its range (R395): the instant, and the levels of the cells that rows in progress have pulsed, after their current iteration. -/
structure SupplyDrop where
  t : Time
  pulsed : List CellDrift
  deriving DecidableEq, Repr

/-- What one port receives from a start of packet to its end: header, payload and trailer bytes, whether every code group
was valid, the instant of the start of packet and the measured reference point (R644), both in 1/768 ns. -/
structure Reception where
  bytes : List (BitVec 8)
  codeOk : Bool
  sop : Time
  ref : Time
  deriving DecidableEq, Repr

/-- What the debug access port can do while the hem fuse is intact (R894). -/
inductive DebugAccess where
  | readRegister (b : Basket) (off : BitVec 8)
  | writeRegister (b : Basket) (off : BitVec 8) (val : BitVec 16)
  | readSram (addr : BitVec 25)
  | writeSram (addr : BitVec 25) (val : BitVec 8)
  | readTileConfig (tile : Fin 48) (index : Nat)
  | writeTileConfig (tile : Fin 48) (index : Nat) (val : BitVec 8)
  | haltIslands
  | resumeIslands
  | requestReset
  deriving DecidableEq, Repr

/-- One constructor per row of the opcode table. -/
inductive Instr where
  /-- SYS_SYNC (R265) Command that captures a SYNC at the next SAMPLE edge, resetting the decimation phase and, in time mode, ending the current
  frame. -/
  | sysSync (t : Time) (b : Basket)
  /-- SYS_SET_POWER (R871) Command that requests WATCH or, from WATCH, wakes the device to ACTIVE. -/
  | sysSetPower (t : Time) (b : Basket)
  /-- SYS_SET_WAKE (R903) Command that sets the wake source mask. -/
  | sysSetWake (t : Time) (b : Basket)
  /-- SYS_BOOT_RECORD (R863) Command that executes a boot record held in SRAM and completes when execution ends. -/
  | sysBootRecord (t : Time) (b : Basket)
  /-- FE_SET_CHANNEL (R101) Command that stages gain and coupling and sets settle time, calibration limit and sensitivity at once. -/
  | feSetChannel (t : Time) (b : Basket)
  /-- FE_CAL_OFFSET (R90) Command that starts a 64 ms offset calibration window on a channel. -/
  | feCalOffset (t : Time) (b : Basket)
  /-- FE_CAL_GAIN (R90) Command that starts a 64 ms gain calibration window on a channel. -/
  | feCalGain (t : Time) (b : Basket)
  /-- FE_SET_COEF (R67) Command that sets a channel's offset and gain coefficients from the next sample. -/
  | feSetCoef (t : Time) (b : Basket)
  /-- FE_RESTART_SENSOR (R98) Command that restarts a channel's settle timer. -/
  | feRestartSensor (t : Time) (b : Basket)
  /-- FE_STATUS (R802) Command that returns a channel's status, its overload counter and its live gain and coupling. -/
  | feStatus (t : Time) (b : Basket)
  /-- TEDS_SET_SCAN (R71) Command that sets the TEDS scan period or turns scanning off. -/
  | tedsSetScan (t : Time) (b : Basket)
  /-- TEDS_BIND (R103) Command that binds a TEDS memory identity to a channel, or empties a binding entry. -/
  | tedsBind (t : Time) (b : Basket)
  /-- TEDS_LOG (R77) Command that writes the TEDS log of a line as a report block. -/
  | tedsLog (t : Time) (b : Basket)
  /-- TACH_SET (R137) Command that stages a tach input's mode, PPR, RES, freewheel limit and rate limits. -/
  | tachSet (t : Time) (b : Basket)
  /-- TACH_SET_LOOP (R137) Command that stages a tach input's loop bandwidth, AMAX, ETOL, hysteresis, flood threshold and fallback length. -/
  | tachSetLoop (t : Time) (b : Basket)
  /-- TACH_SET_INDEX (R119) Command that stages a tach input's index code enable and expected identity. -/
  | tachSetIndex (t : Time) (b : Basket)
  /-- TACH_STATUS (R131) Command that reports a tach input's lock state, flags, rate, angle word and counters. -/
  | tachStatus (t : Time) (b : Basket)
  /-- WR_SET_PLAN (R170) Command that stages one band or the plan-wide fields of a band plan. -/
  | wrSetPlan (t : Time) (b : Basket)
  /-- WR_SET_CHANNEL (R172) Command that stages a VIB channel's plan select and readout mode. -/
  | wrSetChannel (t : Time) (b : Basket)
  /-- WR_SET_FRAME (R50) Command that stages the frame source and frame length. -/
  | wrSetFrame (t : Time) (b : Basket)
  /-- WR_COMMIT (R174) Command that judges and captures the staged Wringer group of the masked channels and the device part, or reverts them. -/
  | wrCommit (t : Time) (b : Basket)
  /-- WR_STATUS (R169) Command that reports a VIB channel's Wringer settings and clip counter. -/
  | wrStatus (t : Time) (b : Basket)
  /-- THM_SET (R233) Command that configures a Thimble comparator. -/
  | thmSet (t : Time) (b : Basket)
  /-- THM_SET_TRIP (R206) Command that sets a Needle output's trip mask. -/
  | thmSetTrip (t : Time) (b : Basket)
  /-- THM_STATUS (R191) Command that returns a comparator's state, latch and latch counter. -/
  | thmStatus (t : Time) (b : Basket)
  /-- NDL_SET (R236) Command that configures a Needle output's mode and levels. -/
  | ndlSet (t : Time) (b : Basket)
  /-- NDL_SYNTH_SET (R212) Command that sets the burst synthesiser frequency and starts calibration or lock. -/
  | ndlSynthSet (t : Time) (b : Basket)
  /-- NDL_FIRE (R217) Command that schedules a burst or one-shot on the named outputs, held until lock or refused at its deadline. -/
  | ndlFire (t : Time) (b : Basket)
  /-- NDL_ARM (R230) Command that arms the named outputs or releases their trip. -/
  | ndlArm (t : Time) (b : Basket)
  /-- NDL_TRIP (R223) Command that trips the named outputs with reason SOFTWARE. -/
  | ndlTrip (t : Time) (b : Basket)
  /-- NDL_FEED (R211) Command that feeds the heartbeat timeout of the named outputs. -/
  | ndlFeed (t : Time) (b : Basket)
  /-- NDL_STATUS (R225) Command that returns an output's mode, trip state, trip counter and synthesiser state. -/
  | ndlStatus (t : Time) (b : Basket)
  /-- RN_SET_CHANNEL (R276) Command that stages DEC_RATIO and banks and sets DC blocker and swap-at-SYNC settings of a chain. -/
  | rnSetChannel (t : Time) (b : Basket)
  /-- RN_SET_COEF (R278) Command that writes FIR coefficients and length to an inactive bank. -/
  | rnSetCoef (t : Time) (b : Basket)
  /-- RN_COMMIT (R280) Command that judges and captures a chain's staged DEC_RATIO and banks, or reverts them. -/
  | rnCommit (t : Time) (b : Basket)
  /-- RN_SWAP (R280) Command that requests a toggle of both FIR active banks at the next output boundary. -/
  | rnSwap (t : Time) (b : Basket)
  /-- RN_ENABLE (R271) Command that enables or disables a chain. -/
  | rnEnable (t : Time) (b : Basket)
  /-- RN_DC_FREEZE (R251) Command that freezes or releases a chain's DC blocker estimate. -/
  | rnDcFreeze (t : Time) (b : Basket)
  /-- RN_SET_DETECTOR (R256) Command that enables and configures a chain's detectors. -/
  | rnSetDetector (t : Time) (b : Basket)
  /-- RN_DET_READ (R256) Command that returns a detector's live value and flag union. -/
  | rnDetRead (t : Time) (b : Basket)
  /-- RN_DET_RESET (R256) Command that sets detector values to 0 and restarts the RMS block. -/
  | rnDetReset (t : Time) (b : Basket)
  /-- RN_RING_SET (R261) Command that configures the basket's ring tap on a chain. -/
  | rnRingSet (t : Time) (b : Basket)
  /-- RN_RING_START (R263) Command that starts or rearms the basket's ring. -/
  | rnRingStart (t : Time) (b : Basket)
  /-- RN_RING_STOP (R286) Command that stops the basket's ring. -/
  | rnRingStop (t : Time) (b : Basket)
  /-- RN_TRIGGER (R262) Command that triggers a running TRIGGERED ring. -/
  | rnTrigger (t : Time) (b : Basket)
  /-- RN_STATUS (R274) Command that reports ring state, chain ledger and chain settings. -/
  | rnStatus (t : Time) (b : Basket)
  /-- RN_SET_SYNC (R270) Command that sets the device-wide SYNC source. -/
  | rnSetSync (t : Time) (b : Basket)
  /-- PR_FORM (R399) Command that queues a FORM of a BLANK tile. -/
  | prForm (t : Time) (b : Basket)
  /-- PR_PRESS (R358) Command that queues a PRESS of named rows of a tile from SRAM row records. -/
  | prPress (t : Time) (b : Basket)
  /-- PR_INSPECT (R373) Command that makes an inspection of a tile due at once. -/
  | prInspect (t : Time) (b : Basket)
  /-- PR_CALIBRATE (R384) Command that queues a converter calibration of a tile. -/
  | prCalibrate (t : Time) (b : Basket)
  /-- PR_SET_UPKEEP (R396) Command that sets the inspection interval, commit step and automatic inspection. -/
  | prSetUpkeep (t : Time) (b : Basket)
  /-- PR_STATUS (R357) Command that reports a tile's endurance, drift age and upkeep state. -/
  | prStatus (t : Time) (b : Basket)
  /-- TILE_STATUS (R332) Command that reports a tile's state, remap table and counts. -/
  | tileStatus (t : Time) (b : Basket)
  /-- MD_LOAD (R434) Command that runs the fitting check on an image and, if it passes, reserves resources and queues the LOADs. -/
  | mdLoad (t : Time) (b : Basket)
  /-- MD_CHECK (R440) Command that runs the fitting check without reserving anything. -/
  | mdCheck (t : Time) (b : Basket)
  /-- MD_UNLOAD (R441) Command that requests unloading of a model at its next inference boundary. -/
  | mdUnload (t : Time) (b : Basket)
  /-- MD_STATUS (R440) Command that reports a model's state, reservation and fitting figures. -/
  | mdStatus (t : Time) (b : Basket)
  /-- MD_SET_HORIZON (R448) Command that sets a basket's service horizon and projection temperature. -/
  | mdSetHorizon (t : Time) (b : Basket)
  /-- MEM_STATUS (R461) Command that returns the basket's UNINIT_READ counter and written granule count. -/
  | memStatus (t : Time) (b : Basket)
  /-- MEM_CLEAR (R460) Command that clears the written bits of named units. -/
  | memClear (t : Time) (b : Basket)
  /-- SP_LEDGER (R476) Command that reports the tag ledger at a single instant. -/
  | spLedger (t : Time) (b : Basket)
  /-- SP_SET_AGEING (R503) Command that sets the Spool ageing interval. -/
  | spSetAgeing (t : Time) (b : Basket)
  /-- VE_STATUS (R497) Command that reports a vector engine's activity and counts. -/
  | veStatus (t : Time) (b : Basket)
  /-- LN_STATUS (R569) Command that reports a model's learning state and counts. -/
  | lnStatus (t : Time) (b : Basket)
  /-- LN_ACK (R528) Command that moves a FROZEN model to ADOPTING or clears COMMISSION_DOUBT. -/
  | lnAck (t : Time) (b : Basket)
  /-- LN_PATCH (R539) Command that makes a patch due at once. -/
  | lnPatch (t : Time) (b : Basket)
  /-- LN_RECOMMISSION (R537) Command that resets baseline and soft head and restarts commissioning at the next run. -/
  | lnRecommission (t : Time) (b : Basket)
  /-- LN_FORGET (R554) Command that removes a patch store entry in the next record. -/
  | lnForget (t : Time) (b : Basket)
  /-- PS_SET (R567) Command that sets the checkpoint interval and hold-up time. -/
  | psSet (t : Time) (b : Basket)
  /-- PS_STATUS (R570) Command that reports the patch store state. -/
  | psStatus (t : Time) (b : Basket)
  /-- PS_LOG (R551) Command that reports a model entry's patch log. -/
  | psLog (t : Time) (b : Basket)
  /-- PS_PUT (R555) Command that replaces the basket's blob in the next record. -/
  | psPut (t : Time) (b : Basket)
  /-- PS_GET (R555) Command that copies the basket's blob back into SRAM. -/
  | psGet (t : Time) (b : Basket)
  /-- PS_CHECKPOINT (R559) Command that triggers a patch store record write and completes with its outcome. -/
  | psCheckpoint (t : Time) (b : Basket)
  /-- LK_SET (R832) Command that stages one Ixward setting. -/
  | lkSet (t : Time) (b : Basket)
  /-- LK_SET_ENTRY (R589) Command that stages or deletes one schedule entry and its transmit source. -/
  | lkSetEntry (t : Time) (b : Basket)
  /-- LK_COMMIT (R598) Command that judges and captures the Ixward group for the first cycle 0 after AT, or reverts it. -/
  | lkCommit (t : Time) (b : Basket)
  /-- LK_STATUS (R710) Command that reports the link state, time figures and Ixward settings. -/
  | lkStatus (t : Time) (b : Basket)
  /-- LK_PARTNERS (R631) Command that reports a partner table entry. -/
  | lkPartners (t : Time) (b : Basket)
  /-- LK_SEND (R606) Command that fills a BUFFER source for its next window. -/
  | lkSend (t : Time) (b : Basket)
  /-- LK_CLAIM (R632) Command that starts a claim on a SPARE entry. -/
  | lkClaim (t : Time) (b : Basket)
  /-- LK_RELEASE (R638) Command that stops transmission in a claimed entry. -/
  | lkRelease (t : Time) (b : Basket)
  /-- LK_MAIL_SEND (R833) Command that queues a MAILBOX message. -/
  | lkMailSend (t : Time) (b : Basket)
  /-- LK_MAIL_READ (R619) Command that takes the oldest message from the basket's mailbox. -/
  | lkMailRead (t : Time) (b : Basket)
  /-- LK_REARM (R707) Command that takes a node out of FENCED with reason GUARD. -/
  | lkRearm (t : Time) (b : Basket)
  /-- LK_LOG (R710) Command that reports the link event log and kind counters. -/
  | lkLog (t : Time) (b : Basket)
  /-- CAL_SET (R888) Command that sets the calendar and VALID at its apply edge. -/
  | calSet (t : Time) (b : Basket)
  /-- CAL_GET (R886) Command that returns the calendar date and time. -/
  | calGet (t : Time) (b : Basket)
  /-- CAL_ALARM (R891) Command that sets or disables the calendar alarm. -/
  | calAlarm (t : Time) (b : Basket)
  /-- BK_GRANT (R724) Command that grants a resource or quota to a basket. -/
  | bkGrant (t : Time) (b : Basket)
  /-- BK_REVOKE (R726) Command that revokes a resource or quota from a basket. -/
  | bkRevoke (t : Time) (b : Basket)
  /-- BK_STATUS (R735) Command that reports a basket's violation and conflict counters and holdings. -/
  | bkStatus (t : Time) (b : Basket)
  /-- FUSE_ARM (R895) Command that arms the hem fuse and opens the 1 s confirm window. -/
  | fuseArm (t : Time) (b : Basket)
  /-- FUSE_CONFIRM (R897) Command that checks the unique identity and starts blowing the hem fuse. -/
  | fuseConfirm (t : Time) (b : Basket)
  /-- UNKNOWN_COMMAND (R810) A CMD_CODE that no table lists is refused with E_NO_SUCH. -/
  | unknownCommand (t : Time) (b : Basket) (code : BitVec 16)
  /-- COMMAND_IGNORED (R775) A CMD_CODE write while BUSY or not READY is ignored and IGNORED increases. -/
  | commandIgnored (t : Time) (b : Basket) (code : BitVec 16)
  /-- COMMAND_COMPLETE (R777) A long command completes at one edge, setting error, results, DONE and CMD_COUNT. -/
  | commandComplete (t : Time) (b : Basket)
  /-- REGISTER_WRITE (R761) Write to a register field without a row of its own, taking effect at its apply edge. -/
  | registerWrite (t : Time) (b : Basket) (off : BitVec 8) (val : BitVec 16)
  /-- IRQ_PENDING_CLEAR (R767) W1C write to IRQ_PENDING clearing bits, with set-wins at the apply edge. -/
  | irqPendingClear (t : Time) (b : Basket) (val : BitVec 16)
  /-- IRQ_ENABLE_WRITE (R773) Write to IRQ_ENABLE that may pull nIRQn low at once. -/
  | irqEnableWrite (t : Time) (b : Basket) (val : BitVec 16)
  /-- TRIP_STATUS_CLEAR (R228) W1C write to TRIP_STATUS, which stays set while the trip input is active. -/
  | tripStatusClear (t : Time) (b : Basket) (val : BitVec 16)
  /-- THIMBLE_LATCH_CLEAR (R197) W1C write clearing comparator latches. -/
  | thimbleLatchClear (t : Time) (b : Basket) (word : Fin 2) (val : BitVec 16)
  /-- OVERLOAD_STATUS_CLEAR (R802) W1C write clearing the basket's own copy of channel overload flags. -/
  | overloadStatusClear (t : Time) (b : Basket) (word : Fin 2) (val : BitVec 16)
  /-- RESET_CAUSE_CLEAR (R805) W1C write clearing reset cause bits held in KEEP. -/
  | resetCauseClear (t : Time) (b : Basket) (val : BitVec 16)
  /-- BASKET_ENABLE_WRITE (R720) Write enabling or disabling baskets 1 to 3. -/
  | basketEnableWrite (t : Time) (b : Basket) (val : BitVec 16)
  /-- DEVICE_RESET (R844) SUP_CTRL write with DEVICE_RESET and KEY 0x5A that resets the device. -/
  | deviceReset (t : Time) (b : Basket) (val : BitVec 16)
  /-- WINDOW_DATA_READ (R780) Read of WINn_DATA returning the SRAM word and advancing the address. -/
  | windowDataRead (t : Time) (b : Basket) (win : Fin 2)
  /-- WINDOW_DATA_WRITE (R782) Write of WINn_DATA posted to the window buffer, advancing the address. -/
  | windowDataWrite (t : Time) (b : Basket) (win : Fin 2) (val : BitVec 16)
  /-- POSTED_WRITE_DRAIN (R782) A posted window write reaches SRAM, in order. -/
  | postedWriteDrain (t : Time) (b : Basket) (win : Fin 2)
  /-- WINDOW_START (R787) WINn_CTRL START bit starting a counted transfer. -/
  | windowStart (t : Time) (b : Basket) (win : Fin 2) (val : BitVec 16)
  /-- WINDOW_ABORT (R790) WINn_CTRL ABORT bit ending an active transfer. -/
  | windowAbort (t : Time) (b : Basket) (win : Fin 2) (val : BitVec 16)
  /-- EVT_FIFO_READ (R764) Read of EVT_FIFO word 0 moving the oldest record to the shadow and removing it. -/
  | evtFifoRead (t : Time) (b : Basket)
  /-- VIOLATION_LOG_READ (R736) Read of VIOLATION_LOG word 0 taking the oldest entry. -/
  | violationLogRead (t : Time) (b : Basket)
  /-- MULTIWORD_SNAPSHOT_READ (R763) Read of word 0 of a multi-word register snapshotting all words. -/
  | multiwordSnapshotRead (t : Time) (b : Basket) (off : BitVec 8)
  /-- BUS_CONFLICT (R753) An access with several chip selects or both strobes low is ignored and counted. -/
  | busConflict (t : Time) (selects : BitVec 4) (bothStrobes : Bool)
  /-- RESET_PIN (R843) nRESET falls and the device enters RESET. -/
  | resetPin (t : Time)
  /-- SUPPLY_MONITOR_RESET (R843) VDDC, VDDA or VDDIO falls below its monitor threshold and a reset begins. -/
  | supplyMonitorReset (t : Time) (supply : Supply)
  /-- TAP_RESET (R893) The TAP instruction leaves EXTEST, HIGHZ or CLAMP and the device restarts. -/
  | tapReset (t : Time) (instruction : BitVec 5)
  /-- KEEP_POWER_UP (R846) VDDK returns and the KEEP domain powers up with the calendar invalid. -/
  | keepPowerUp (t : Time)
  /-- RESET_END (R849) Reset ends and the boot sequence begins. -/
  | resetEnd (t : Time) (bootsel vddioHigh : Bool)
  /-- TILE_RESTORE (R850) Restore of all tiles with boot self-checks ends. -/
  | tileRestore (t : Time)
  /-- STORE_SELECTION (R556) Selection of the newest valid patch store record ends and its counters and drift ages are applied. -/
  | storeSelection (t : Time)
  /-- BOOT_ENTRY (R854) A boot record entry is executed as a command of its basket. -/
  | bootEntry (t : Time)
  /-- BOOT_RECORD_END (R860) Boot record execution ends, placing its outcome and setting READY. -/
  | bootRecordEnd (t : Time)
  /-- FRAME_1_BEGINS (R857) Frame 1 begins once restore, selection and boot conditions hold; ACTIVE. -/
  | frame1Begins (t : Time)
  /-- PFAIL_ASSERT (R878) PFAIL is asserted and the device enters HOLD. -/
  | pfailAssert (t : Time)
  /-- HOLD_EXIT (R881) PFAIL has stayed deasserted for 1 ms and the store action has ended; HOLD ends. -/
  | holdExit (t : Time)
  /-- VDDP_OUT_OF_RANGE (R395) VDDP leaves its range and row presses pause. -/
  | vddpOutOfRange (drop : SupplyDrop)
  /-- VDDP_IN_RANGE (R395) VDDP returns and paused rows are pressed again. -/
  | vddpInRange (t : Time)
  /-- THERMAL_FAULT (R882) DIE_TEMP has read 150 °C or more for 1 ms and the device enters FAULT. -/
  | thermalFault (t : Time)
  /-- CLOCK_FAULT (R882) A clock failure is detected and the device enters FAULT on the backup oscillator. -/
  | clockFault (t : Time)
  /-- THERMAL_CLEAR (R884) DIE_TEMP has read below 130 °C for 1 s and FAULT clears. -/
  | thermalClear (t : Time)
  /-- WATCH_ENTRY (R871) A pending WATCH request completes once no work is in progress. -/
  | watchEntry (t : Time)
  /-- WAKE (R876) An enabled wake source returns the device from WATCH to ACTIVE. -/
  | wake (t : Time) (source : WakeSource)
  /-- CALENDAR_SECOND (R886) A calendar second boundary advances the calendar. -/
  | calendarSecond (t : Time)
  /-- KEEP_OSCILLATOR_STOP (R889) The KEEP oscillator stops for 1 ms and VALID clears. -/
  | keepOscillatorStop (t : Time)
  /-- FUSE_WINDOW_END (R896) The confirm window ends and an ARMED fuse returns to INTACT. -/
  | fuseWindowEnd (t : Time)
  /-- FUSE_BLOW_DONE (R901) The fuse blow completes and the debug port is disabled or the blow fails. -/
  | fuseBlowDone (t : Time) (blown0 blown1 : Bool)
  /-- SYNC_PIN_EDGE (R265) A SYNC pin edge is captured, resetting the phase counter. -/
  | syncPinEdge (t : Time)
  /-- FRAME_BOUNDARY (R24) A frame boundary ends frame k and starts frame k+1 with a capacitor swap. -/
  | frameBoundary (t : Time) (means : List (Nat × Nat))
  /-- WRINGER_COMMIT_APPLY (R822) Captured Wringer settings become live at a frame boundary; EV_COMMIT_APPLIED. -/
  | wringerCommitApply (t : Time)
  /-- HANDOFF (R30) The drive window opens and each direct-mode band discharges into tile rows and the TDC. -/
  | handoff (t : Time)
  /-- COUNT_MODE_READOUT (R165) Count-mode band words are formed and written to SRAM. -/
  | countModeReadout (t : Time)
  /-- FEATURE_FRAME_WRITTEN (R465) The frame number is written after all band records of the frame. -/
  | featureFrameWritten (t : Time)
  /-- RUN_START (R480) A run of a model starts at a frame boundary and allocates its gather tags. -/
  | runStart (t : Time) (h : Handle)
  /-- GATHER (R469) The binding gatherer fills the model's input vector and binding buffer. -/
  | gather (t : Time) (h : Handle)
  /-- LAYER_START (R337) A layer starts, evaluating its busy policy and allocating its tags. -/
  | layerStart (t : Time) (h : Handle)
  /-- TAG_DISPATCH (R488) A unit accepts the highest-ranked READY tag. -/
  | tagDispatch (t : Time) (u : UnitId)
  /-- TAG_AGEING (R489) A READY tag's effective priority rises after a full ageing interval. -/
  | tagAgeing (t : Time) (tag : Fin 4096)
  /-- TILE_PHASE (R302) A T-mode or D-mode phase completes its drive and conversion. -/
  | tilePhase (t : Time) (tile : Fin 48)
  /-- LAYER_OUTPUT_READY (R318) Replica accumulations are combined with the bias into the layer output. -/
  | layerOutputReady (t : Time) (h : Handle)
  /-- DESCRIPTOR_COMPLETE (R422) A vector descriptor completes on its engine. -/
  | descriptorComplete (t : Time) (engine : Fin 4)
  /-- CACHE_REQUEST (R498) The directory serves a GetS or GetM request for a line. -/
  | cacheRequest (t : Time) (engine : Fin 4) (line : Fin 393216) (own : Bool)
  /-- CACHE_WRITEBACK (R500) A line write-back completes and waiting requests are arbitrated. -/
  | cacheWriteback (t : Time) (line : Fin 393216)
  /-- RUN_END (R487) A run ends, updating VERDICT, NOVELTY and the run status record; EV_RUN_END. -/
  | runEnd (t : Time) (h : Handle)
  /-- RUN_DEADLINE (R484) A run reaches its absolute deadline without a verdict and ends. -/
  | runDeadline (t : Time) (h : Handle)
  /-- RELOAD_BLOCK_READ (R432) A QSPI reload block is read and CRC-checked before pressing. -/
  | reloadBlockRead (t : Time) (h : Handle)
  /-- UNLOAD_TAKES_EFFECT (R441) An unload releases the model's reservations at its inference boundary. -/
  | unloadTakesEffect (t : Time) (h : Handle)
  /-- PRESS_OP_START (R387) A pressing operation or inspection takes its tile at an inference boundary. -/
  | pressOpStart (t : Time) (tile : Fin 48)
  /-- UPKEEP_PRECEDENCE (R388) Upkeep that has waited 1 s takes precedence over runs. -/
  | upkeepPrecedence (t : Time) (tile : Fin 48)
  /-- ROW_PRESS (R348) A row press of up to 12 verify-and-pulse iterations completes. -/
  | rowPress (t : Time) (tile : Fin 48) (iters : Nat) (after : List CellRead)
  /-- PRESS_OP_CLOSE (R389) An operation's closing step runs the self-check and the tile leaves PRESSING or INSPECTING. -/
  | pressOpClose (t : Time) (tile : Fin 48)
  /-- INSPECTION_DUE (R369) A tile's drift age reaches the base interval and an inspection becomes due. -/
  | inspectionDue (t : Time) (tile : Fin 48)
  /-- STORE_WRITE_START (R561) A patch store record write starts into the next bank. -/
  | storeWriteStart (t : Time)
  /-- STORE_WRITE_DONE (R563) A record write and verify completes, is repeated, or fails. -/
  | storeWriteDone (t : Time) (verified : Bool)
  /-- CHECKPOINT_DUE (R559) The checkpoint interval elapses and a record write is triggered. -/
  | checkpointDue (t : Time)
  /-- SAMPLE (R66) A converter delivers a sample word, which feeds the Rinse chain and Wringer. -/
  | sample (t : Time) (pos : Fin 24) (read : SampleRead)
  /-- RINSE_COMMIT_APPLY (R280) A pending RN_COMMIT or RN_SWAP takes effect at an output boundary. -/
  | rinseCommitApply (t : Time) (chain : Fin 24)
  /-- OVERLOAD_START (R89) A sample finds its channel in overload; an episode opens. -/
  | overloadStart (t : Time) (pos : Fin 24) (level : InputLevel)
  /-- OVERLOAD_END (R84) The first sample back in range ends the overload episode. -/
  | overloadEnd (t : Time) (input : ChannelLevel)
  /-- CAL_WINDOW_END (R92) A calibration window ends and the coefficient is applied or refused. -/
  | calWindowEnd (t : Time) (pos : Fin 24)
  /-- SETTLE_END (R97) A channel's settle window ends. -/
  | settleEnd (t : Time) (pos : Fin 24)
  /-- TEDS_SCAN (R71) A TEDS scan period expires and a line is scanned. -/
  | tedsScan (t : Time) (line : Fin 4) (found : List TedsRead)
  /-- TACH_EDGE (R116) An accepted or rejected tach edge updates the angle PLL. -/
  | tachEdge (t : Time) (mark : TachMark)
  /-- INDEX_CODE (R108) An index code is decoded and accepted or rejected. -/
  | indexCode (t : Time) (tach : Fin 4) (read : IndexRead)
  /-- FLOOD_START (R110) The level stays above the flood threshold for 2 µs. -/
  | floodStart (t : Time) (tach : Fin 4) (onIndex : Bool) (crossed : Time)
  /-- FLOOD_END (R111) The level stays below threshold for 100 µs. -/
  | floodEnd (t : Time) (tach : Fin 4) (fall : FloodFall)
  /-- FREEWHEEL (R117) No edge within 1.5 Tpred; the PLL freewheels. -/
  | freewheel (t : Time) (tach : Fin 4)
  /-- FREEWHEEL_LIMIT (R126) The freewheel window ends without resumption; ANGLE_LOST. -/
  | freewheelLimit (t : Time) (tach : Fin 4)
  /-- UNDERSPEED (R127) The rate estimate falls below the minimum rate; ANGLE_LOST. -/
  | underspeed (t : Time) (tach : Fin 4)
  /-- THIMBLE_CROSSING (R195) A continuous comparator crosses a threshold and may set its latch. -/
  | thimbleCrossing (t : Time) (comp : Fin 32) (level : Int)
  /-- THIMBLE_TICK (R193) A comparator evaluation tick decides its state and latch. -/
  | thimbleTick (t : Time) (comp : Fin 32) (level : Int)
  /-- WARM_UP_END (R201) The warm-up window ends and a present condition sets the latch. -/
  | warmUpEnd (t : Time) (comp : Fin 32) (level : Int)
  /-- GAIN_HOLD_END (R205) The 12 µs comparator hold after a gain change ends. -/
  | gainHoldEnd (t : Time) (comp : Fin 32) (level : Int)
  /-- PWM_PERIOD_START (R209) A PWM period starts and applies pending P and H. -/
  | pwmPeriodStart (t : Time) (out : Fin 8)
  /-- HEARTBEAT_TOGGLE (R210) A heartbeat half-period ends and the output toggles. -/
  | heartbeatToggle (t : Time) (out : Fin 8)
  /-- FEED_TIMEOUT (R211) A heartbeat is not fed within its timeout and trips with reason FEED. -/
  | feedTimeout (t : Time) (out : Fin 8)
  /-- SYNTH_LOCK (R213) The synthesiser locks; EV_SYNTH_LOCK. -/
  | synthLock (t : Time)
  /-- FIRE_START (R217) A held fire begins on all named outputs. -/
  | fireStart (t : Time) (b : Basket)
  /-- FIRE_DEADLINE (R218) A held burst fire's deadline passes without lock; E_SYNTH_BUSY. -/
  | fireDeadline (t : Time) (b : Basket)
  /-- FIRE_DONE (R222) A burst or one-shot ends; EV_FIRE_DONE. -/
  | fireDone (t : Time) (out : Fin 8)
  /-- CYCLE_START (R647) An Ixward cycle starts and the cycle counter and network time advance. -/
  | cycleStart (t : Time)
  /-- IXWARD_COMMIT_APPLY (R598) A captured Ixward commit takes effect at cycle 0. -/
  | ixwardCommitApply (t : Time)
  /-- STATIC_TRANSMIT (R594) At an owned window's action point the node sends DATA, REF, STARTUP, NULL or nothing. -/
  | staticTransmit (t : Time) (entry : Fin 512)
  /-- DYNAMIC_TRANSMIT (R614) In its dynamic slot the node sends its one pending dynamic packet. -/
  | dynamicTransmit (t : Time) (minislot : Nat)
  /-- ANNOUNCE_DUE (R627) The ANNOUNCE period elapses and an ANNOUNCE is queued. -/
  | announceDue (t : Time)
  /-- PACKET_RECEIVE (R620) A received packet is checked and delivered or discarded. -/
  | packetReceive (t : Time) (port : Fin 4) (rx : Reception)
  /-- NIT_CORRECTION (R656) In the NIT the node applies its offset and rate correction. -/
  | nitCorrection (t : Time)
  /-- DELAY_REQUEST (R660) At the dynamic segment start of every eighth cycle a DELAY_REQ is sent. -/
  | delayRequest (t : Time)
  /-- LISTEN_TIMEOUT (R681) The listen timeout expires and a coldstart node enters COLDSTART. -/
  | listenTimeout (t : Time)
  /-- SYNC_LOSS (R670) A JOINED node loses sync and returns to INTEGRATE. -/
  | syncLoss (t : Time)
  /-- ROOT_TAKEOVER (R667) A coldstart ring node's wait ends with no STARTUP and it becomes root. -/
  | rootTakeover (t : Time)
  /-- PARTNER_SILENT (R630) A partner has sent nothing for the silence threshold. -/
  | partnerSilent (t : Time) (node : Fin 64)
  /-- PARTNER_GONE (R630) A partner has sent nothing for the gone threshold. -/
  | partnerGone (t : Time) (node : Fin 64)
  /-- CLAIM_TAKES_EFFECT (R635) A claim takes effect at cycle 0 after two unopposed cycles. -/
  | claimTakesEffect (t : Time) (entry : Fin 512)
  /-- CLAIM_REVERT (R637) A silent claimed entry reverts to SPARE. -/
  | claimRevert (t : Time) (entry : Fin 512)
  /-- GUARD_DRIFT (R689) The guardian's oscillator deviates beyond 0.5 % and blocks transmission. -/
  | guardDrift (t : Time) (count : Nat)
  /-- GUARD_RELEASE (R689) 64 cycles within 0.5 % release the guardian block. -/
  | guardRelease (t : Time) (count : Nat)
  /-- GUARD_VIOLATION (R691) TXEN high while the gate is closed is counted and may fence the node. -/
  | guardViolation (seen : GuardSight)
  /-- BRANCH_CUT (R695) A hub branch blocked in 3 cycles is cut. -/
  | branchCut (t : Time) (branch : Fin 4)
  /-- BRANCH_READMIT (R695) A cut branch is readmitted when its cut ends. -/
  | branchReadmit (t : Time) (branch : Fin 4)
  /-- RING_BREAK (R699) A ring node detects a break and folds the ring. -/
  | ringBreak (t : Time) (port : Fin 4)
  /-- BREAK_STOP (R700) After 64 cycles of valid idle the node stops sending BREAK. -/
  | breakStop (t : Time) (port : Fin 4)
  /-- RING_REPAIR (R701) A node beside a break unfolds at cycle 0. -/
  | ringRepair (t : Time) (port : Fin 4)
  /-- PFAIL_DEASSERT (R881) The PFAIL pin is deasserted, starting the 1 ms interval after which HOLD may end. -/
  | pfailDeassert (t : Time)
  /-- DIE_TEMP_UPDATE (R925) DIE_TEMP takes a new junction temperature reading every 1 ms. -/
  | dieTempUpdate (t : Time) (reading : BitVec 16)
  /-- DRIFT_AGE_ADVANCE (R368) Each second the drift age of every formed, non-retired tile advances by the multiplier for that second's temperature.
  -/
  | driftAgeAdvance (t : Time) (moved : List CellDrift)
  /-- SYNTH_CALIBRATION_END (R212) After a range change the synthesiser ends its calibration and its status moves from CALIBRATING to SETTLING. -/
  | synthCalibrationEnd (t : Time)
  /-- OWNERSHIP_HOLD_END (R499) An engine's 16-cycle ownership hold of a line ends and the owner writes the line back for a waiting request. -/
  | ownershipHoldEnd (t : Time) (line : Fin 393216)
  /-- DEBUG_PORT_ACCESS (R894) While the hem fuse is intact the debug access port reads or writes registers, SRAM or tile configuration, halts
  islands, or requests a reset with cause TAP. -/
  | debugPortAccess (t : Time) (access : DebugAccess)
  /-- TAP_EXTEST_ENTRY (R892) The TAP instruction register selects EXTEST, HIGHZ or CLAMP and the device is held in RESET. -/
  | tapExtestEntry (t : Time) (instruction : BitVec 5)
  deriving DecidableEq, Repr

end Sys2Proof
end

