-- ==== Sys2Proof/Decode.lean ====
section
/-!
DEFINITION. The commands that table words spell: no row of the opcode table gives bits, so no word spells a command.
-/

namespace Sys2Proof

/-- The command that a word spells by the table's bits (log entry 6). -/
def decodeTableWord (nbits w : Nat) : Option Instr :=
  match nbits, w with
  | _, _ => none

end Sys2Proof
end

