-- ==== Sys2Proof/Machine/TypesHost.lean ====
section
/-!
DEFINITION. Identity, fuse, clock, power, pins, calendar, host pages and grants: the state that chapters 00, 14, 15 and 17
give the device. Plain data only.
-/

namespace Sys2Proof.Machine

/-- What is fixed at the factory and never changes: grade (R2), unique identity (Table 15-3), per-basket image keys (R407),
and the factory coefficients of the 24 channel positions (R68). -/
structure Chip where
  gradeX : Bool
  uniqueId : BitVec 64
  keys : Vector (Option (BitVec 256)) 4
  factoryOffset : Vector Int 24
  factoryGain : Vector Nat 24
  deriving DecidableEq, Repr

/-- The two elements of the hem fuse (R898): true is blown. -/
structure Fuse where
  element0 : Bool
  element1 : Bool
  deriving DecidableEq, Repr

/-- What FUSE_STATUS adds to the elements (R895 to R899): the ARMED condition with the end of its confirm window,
LAST_FAILED, and the basket whose FUSE_CONFIRM is blowing the elements. -/
structure FusePort where
  armed : Bool
  windowEnd : Time
  lastFailed : Bool
  blowing : Option Basket
  deriving DecidableEq, Repr

/-- The two time bases (R15, R672): `now` is the instant of the last command and `origin` the end of reset; `net` is the
network time in ns of the instant `netAt` once the base has switched; `slew` is the instant by which, and the count to which, an offset
correction in the NIT takes the count (R657), `rate` the rate correction at which the network count runs on (R656, R671), `hold` the count
below which the timestamp may not fall (R673), and `frozen` the instant at which a CLOCK fault stopped the count (R41). Of the SAMPLE clock,
edge number `edgeNo` (edge 0 is the end of reset) falls at `edgeAt`, and `edgeRate` is the rate correction that its PLL follows (R676).
Rate corrections are in 0.001 ppm. -/
structure Clock where
  now : Time
  origin : Time
  net : Option Nat
  netAt : Time
  slew : Option (Time × Nat)
  rate : Int
  hold : Nat
  frozen : Option Time
  edgeAt : Time
  edgeNo : Nat
  edgeRate : Int
  deriving DecidableEq, Repr

/-- Table 17-6. -/
inductive Power where
  | off | reset | boot | active | watch | hold | fault
  deriving DecidableEq, Repr

/-- The two conditions of R882. -/
inductive FaultCause where
  | thermal | clock
  deriving DecidableEq, Repr

/-- The causes of a reset (R843, Table 15-9). -/
inductive ResetCause where
  | supply | pin | software | tap
  deriving DecidableEq, Repr

/-- One read command as the QSPI master sends it (R864, R865, R952): opcode, first flash address, data bytes, the byte that it drives in the two
mode clocks where the command has them, dummy clocks, and QSPI_CLOCK in MHz. -/
structure QspiRead where
  opcode : BitVec 8
  address : Nat
  bytes : Nat
  mode : Option (BitVec 8)
  dummy : Nat
  clock : Nat
  deriving DecidableEq, Repr

/-- Where the entries of a boot record come from (R853, R863). -/
inductive BootSource where
  | flash
  | sram (basket : Basket)
  deriving DecidableEq, Repr

/-- Execution of a boot record (R854 to R863). -/
structure BootExec where
  source : BootSource
  base : Nat
  count : Nat
  index : Nat
  executed : Nat
  refused : Nat
  firstRefused : Option (Nat × BitVec 16)
  stopped : Bool
  badHeader : Bool
  deriving DecidableEq, Repr

/-- A calendar date and time (R886). -/
structure Date where
  year : Nat
  month : Nat
  day : Nat
  hour : Nat
  minute : Nat
  second : Nat
  deriving DecidableEq, Repr

/-- The KEEP domain: calendar and alarm (R886 to R891), PFAIL_STATUS and RESET_CAUSE (R805). `lastSecond` is the last
calendar second boundary. -/
structure Keep where
  date : Date
  valid : Bool
  lastSecond : Time
  alarm : Date
  alarmOn : Bool
  pfailValid : Bool
  pfailWrite : BitVec 2
  pfailClean : Bool
  resetCause : BitVec 5
  deriving DecidableEq, Repr

/-- Power state, boot and pins (chapter 17). `wakes` are the enabled wake sources that have occurred in WATCH or since a request for it;
`pfailSince` and `pfailLowSince` are the instants of the last assertion and deassertion of PFAIL, `resetUntil` the earliest end of an internal reset
(R845), `driftAt` the last second at which the drift ages advanced (R368), `restored`, `selected` and `outcomePlaced` say that tile restore, store
selection and the boot have ended; `halted` and `tapOut` are what the debug access port has done: islands halted, the value last read out. -/
structure Pwr where
  state : Power
  ready : Bool
  frame1 : Bool
  watchRequest : Bool
  watchAt : Time
  wakeMask : BitVec 3
  wakes : BitVec 3
  fault : Option FaultCause
  pfail : Bool
  pfailSince : Time
  pfailLowSince : Time
  vddpOk : Bool
  vddioHigh : Bool
  bootFlash : Bool
  restored : Bool
  selected : Bool
  outcomePlaced : Bool
  resetUntil : Time
  exec : Option BootExec
  qspiOpcode : BitVec 8
  qspiClock : Nat
  qspiDummy : Nat
  dieTemp : BitVec 16
  driftAt : Time
  hotSince : Option Time
  coolSince : Option Time
  tapInstruction : BitVec 5
  halted : Bool
  tapOut : Option (BitVec 16)
  deriving DecidableEq, Repr

/-- One event record (Table 15-10). -/
structure Record where
  code : BitVec 8
  seq : BitVec 8
  subject : BitVec 8
  tag : BitVec 8
  stamp : BitVec 64
  data0 : BitVec 16
  data1 : BitVec 16
  deriving DecidableEq, Repr

/-- The outcome of a command: its error code and CMD_RESULT0 to CMD_RESULT3 (R777). -/
structure CmdOutcome where
  error : BitVec 16
  results : Vector (BitVec 16) 4
  deriving DecidableEq, Repr

/-- A command that is BUSY: its code, the arguments and tag copied at its apply edge (R774), the instant of acceptance, and
its outcome once its action has ended (R813). -/
structure Running where
  code : BitVec 16
  args : Vector (BitVec 16) 8
  tag : BitVec 8
  since : Time
  outcome : Option CmdOutcome
  deriving DecidableEq, Repr

/-- CMD_STATUS.STATE (Table 15-6). -/
inductive CmdState where
  | idle | busy | done
  deriving DecidableEq, Repr

/-- One SRAM window (Table 15-7, R779 to R792). `addr` is the byte address; `posted` the buffer of posted writes, oldest
first; `line` the number of the 64-byte line of which the window holds a copy, with the copy; `activeLen` and `count` are the transfer in progress. -/
structure Window where
  addr : BitVec 25
  dirWrite : Bool
  inc : Bool
  active : Bool
  len : BitVec 16
  activeLen : Nat
  count : Nat
  posted : List (Nat × BitVec 16)
  line : Option Nat
  deriving DecidableEq, Repr

/-- The shadows of the multi-word registers of one page (R763). -/
structure Shadows where
  unique : List (BitVec 16)
  thimble : List (BitVec 16)
  overload : List (BitVec 16)
  evtFifo : List (BitVec 16)
  ledger : List (BitVec 16)
  frameCount : List (BitVec 16)
  time : List (BitVec 16)
  violationCount : List (BitVec 16)
  violationLog : List (BitVec 16)
  deriving DecidableEq, Repr

/-- One basket's page and the counters behind it (Tables 15-4 to 15-8). `irqSetAt` is the instant at which each bit was last
set by an event, `overloadSetAt` the same for the copy of OVERLOAD_STATUS, for set-wins (R768). -/
structure Page where
  irqPending : Vector Bool 13
  irqSetAt : Vector Time 13
  irqEnable : BitVec 13
  cmdState : CmdState
  ignored : BitVec 8
  cmdError : BitVec 16
  cmdTag : BitVec 8
  cmdCount : BitVec 16
  args : Vector (BitVec 16) 8
  results : Vector (BitVec 16) 4
  running : Option Running
  overload : Vector Bool 24
  overloadSetAt : Vector Time 24
  windows : Vector Window 2
  fifo : List Record
  posted : BitVec 32
  read : BitVec 32
  lost : BitVec 32
  shadows : Shadows
  uninitRead : BitVec 32
  busConflicts : BitVec 32
  violations : BitVec 32
  deriving DecidableEq, Repr

/-- One entry of the violation log (Table 14-3). `last` is the last address merged into it (R737). -/
structure Violation where
  stamp : BitVec 64
  basket : Basket
  kind : BitVec 4
  address : BitVec 32
  count : Nat
  last : Nat
  deriving DecidableEq, Repr

/-- The host side of the device. `dataOut` is what the device last drove on D15 to D0 (R751). -/
structure HostSide where
  pages : Vector Page 4
  enable : Vector Bool 4
  violLog : List Violation
  violOverwrites : BitVec 32
  dataOut : Option (BitVec 16)
  deriving DecidableEq, Repr

/-- What one basket has been granted (Table 14-1). -/
structure Grants where
  tiles : Vector Bool 48
  units : Vector Bool 384
  tagQuota : Nat
  patchQuota : Nat
  outputs : Vector Bool 8
  comparators : Vector Bool 32
  synth : Bool
  channels : Vector Bool 24
  features : Vector Bool 512
  tachs : Vector Bool 4
  slots : Vector Bool 255
  deriving DecidableEq, Repr

end Sys2Proof.Machine
end

