-- ==== Sys2Proof/Machine/TypesFront.lean ====
section
/-!
DEFINITION. Front end, TEDS, tach inputs, Wringer, frame clock, Thimble and Needle: the state that chapters 01 to 05 give
the device. Plain data only.
-/

namespace Sys2Proof.Machine

/-- A time window [start, stop), open-ended while `stop` is none (R46). -/
structure Win where
  start : Time
  stop : Option Time
  deriving DecidableEq, Repr

/-- A calibration in progress (R90 to R95): its kind, window, the basket whose command started it, and the sums over the raw
codes of its one (offset) or two (gain) measuring segments: count, sum, sum of squares. -/
structure Calibration where
  gain : Bool
  start : Time
  stop : Time
  basket : Basket
  n1 : Nat
  sum1 : Int
  sq1 : Int
  n2 : Nat
  sum2 : Int
  sq2 : Int
  dirty : Bool
  deriving DecidableEq, Repr

/-- One channel position (Tables 02-2 to 02-6). Gain and coupling stand in the Wringer group (R101). `episodes` are the overload
episodes not yet forgotten, from overload start to overload end; `taints` are the own-channel taint windows of R94 and R102 not yet
forgotten; `settle` are the settle windows not yet forgotten, the last one first. -/
structure Channel where
  offset : Int
  gain : Nat
  settleMs : Nat
  calLimit : Nat
  sensitivity : BitVec 16
  settle : List Win
  episodes : List Win
  taints : List Win
  overloads : BitVec 32
  cal : Option Calibration
  sample : BitVec 32
  deriving DecidableEq, Repr

/-- A TEDS memory known on a line: present in the last scan, scans missed in a row, failed reads in a row, whether its TEDS has
been read, whether it is treated as bad, and whether it has departed since its last arrival (R79). -/
structure TedsMemory where
  identity : BitVec 64
  present : Bool
  missed : Nat
  failedReads : Nat
  isRead : Bool
  bad : Bool
  departed : Bool
  deriving DecidableEq, Repr

/-- One TEDS log entry (Table 16-3). -/
structure TedsEntry where
  identity : BitVec 64
  line : Nat
  reason : Nat
  stamp : BitVec 64
  deriving DecidableEq, Repr

/-- One TEDS line: the memories, the log of 16 entries and its overwrite counter (R77), and the next scan. -/
structure TedsLine where
  memories : List TedsMemory
  log : List TedsEntry
  overwrites : BitVec 32
  nextScan : Time
  deriving DecidableEq, Repr

/-- TEDS discovery: scan period in 0.1 s (0 is OFF), the binding table of 32 entries, the four lines. -/
structure Teds where
  period : Nat
  bindings : Vector (Option (BitVec 64 × Fin 24)) 32
  lines : Vector TedsLine 4
  deriving DecidableEq, Repr

/-- Table 03-1. -/
inductive TachMode where
  | off | digital | analogue | optical
  deriving DecidableEq, Repr

/-- The tach settings of Table 03-6 in their steps: rates in 0.01 Hz, bandwidth 0.1 Hz, acceleration 0.1 Hz/s, ETOL 0.5 %,
hysteresis 10 mV, fallback length in us; `expected` none is ANY. -/
structure TachSet where
  mode : TachMode
  ppr : Nat
  logRes : Nat
  maxRate : Nat
  minRate : Nat
  bw : Nat
  amax : Nat
  etol : Nat
  freewheelLimit : Nat
  hysteresis : Nat
  floodThreshold : Nat
  indexOn : Bool
  expected : Option (BitVec 8)
  fallback : Nat
  deriving DecidableEq, Repr

/-- The states of an angle PLL (R118 to R126). -/
inductive PllState where
  | lost | locked | freewheel
  deriving DecidableEq, Repr

/-- The loop of one tach input. Phase is counted in accepted edges since acquisition began, in units of 2^-32 edge: `edges` whole edges at the
instant `lastEdge`, interpolated with `tpred`, the edge interval the loop predicts; `zero` is the phase of absolute zero, and `lag` how far the
loop's angle lies behind the edges (R115; log entry 11). `acq` counts the intervals of an acquisition; `resume` the edges of a resumption, the last
of them `resumeK` predicted intervals after `lastEdge`. `code` is the last valid code with the phase of its START edge, `paired` says that it agreed
with the one before it (R119); `shift` is the last SHIFT code (R122). `lostWins` and `freeWins` are the loss and freewheel windows not yet
forgotten. -/
structure TachLoop where
  state : PllState
  abs : Bool
  edges : Nat
  zero : Int
  lag : Int
  lastEdge : Option Time
  lastInterval : Option Time
  tpred : Time
  acq : Nat
  resume : Nat
  resumeK : Nat
  code : Option (BitVec 8 × Int)
  paired : Bool
  shift : Option (BitVec 8 × Int)
  freeStart : Time
  lostWins : List Win
  freeWins : List Win
  rejectedEdges : BitVec 32
  heldWord : BitVec 32
  deriving DecidableEq, Repr

/-- One tach input: its loop, the last two flood windows on TACHn and on TIDXn, and what TACH_STATUS adds (R131). -/
structure Tach where
  loop : TachLoop
  floodTach : List Win
  floodIndex : List Win
  rejectedCodes : BitVec 32
  lastId : BitVec 8
  deriving DecidableEq, Repr

/-- One band of a plan (Table 04-3): HZ or ORDER with a tach, centre in 1/256 Hz or 1/256 order, Q in 0.25, law, SCALE. -/
structure Band where
  order : Bool
  tach : Fin 4
  centre : Nat
  q : Nat
  square : Bool
  scale : Nat
  deriving DecidableEq, Repr

/-- A band plan (Tables 04-2 and 04-3): carrier centre in 1/256 Hz, carrier Q in 0.25, envelope corner in Hz. -/
structure Plan where
  spectral : Nat
  envelope : Nat
  carrier : Nat
  carrierQ : Nat
  corner : Nat
  bands : Vector Band 32
  deriving DecidableEq, Repr

/-- The channel part of the Wringer group (Table 16-2): gain code, AC coupling, plan select, COUNT readout. -/
structure VibSet where
  gain : Nat
  ac : Bool
  plan : Fin 8
  count : Bool
  deriving DecidableEq, Repr

/-- R25. -/
inductive FrameSource where
  | time | angle | network
  deriving DecidableEq, Repr

/-- The frame clock settings (Table 01-4): lengths in us, revolutions and cycles. -/
structure FrameSet where
  source : FrameSource
  tach : Fin 4
  timeLen : Nat
  angleLen : Nat
  netLen : Nat
  deriving DecidableEq, Repr

/-- One copy of the Wringer commit group: live, staged or captured (R820, R822). -/
structure WringerSet where
  plans : Vector Plan 8
  vibs : Vector VibSet 16
  frame : FrameSet
  tachs : Vector TachSet 4
  deriving DecidableEq, Repr

/-- A WR_COMMIT accepted and not yet applied (R174, R175): its mask, what it captured, and the instant from which a frame
boundary applies it. -/
structure WringerCommit where
  mask : BitVec 16
  captured : WringerSet
  from_ : Time
  deriving DecidableEq, Repr

/-- The clock and the prefilter of one band or carrier (R149, R150, R153, R154): INC per SAMPLE edge or per angle tick, the accumulator at
the edge or tick number `from_` from which it counts on, the step n of the prefilter corner 5 Hz × 2^n, and the instant at which the filter
state was last cleared (R178, R182). -/
structure BandClock where
  inc : Nat
  acc : Nat
  from_ : Int
  step : Nat
  cleared : Time
  deriving DecidableEq, Repr

/-- One band value of an ended frame: the integral of the rectified signal over the time in which the integrator was connected, in
2^-32 of a unit of time, its flags as in Table 04-1 [4:0], and the settings it was integrated under. -/
structure BandValue where
  enabled : Bool
  area : Nat
  flags : BitVec 5
  count : Bool
  scale : Nat
  deriving DecidableEq, Repr

/-- A frame that has ended: its number, boundaries, T_ref (R147), marks, whether it ended at an exit of HOLD or FAULT (R879), its
512 band values, the pulse widths of its handoff in 2^-32 of tau, and how far its readout has come. -/
structure EndedFrame where
  num : Nat
  start : Time
  stop : Time
  startStamp : BitVec 64
  stopStamp : BitVec 64
  tref : Time
  truncated : Bool
  blanked : Bool
  values : List BandValue
  handedOff : Bool
  counted : Bool
  written : Bool
  deriving DecidableEq, Repr

/-- A frame boundary that an event has made due at an instant (R55, R56, R648), and whether it cuts the frame short. -/
structure Due where
  at_ : Time
  cut : Bool
  deriving DecidableEq, Repr

/-- The Wringer and the frame clock. `truncate` says that the frame in progress carries TRUNCATED; `gridOrigin` and `gridCount`
place the next time-mode boundary (R948) and the end of a fallback frame (R136); `revEnd` is the revolution that ends an
angle-mode frame, `prevLen` the duration of the previous frame, `afterLock` marks the first frame after lock (R147), and
`relock` that a fallback frame ends at the next revolution boundary (R136). `clocks` are those of the 512 bands, by feature, and of the
16 carriers. -/
structure Wringer where
  live : WringerSet
  staged : WringerSet
  pending : Option WringerCommit
  num : Nat
  start : Time
  startStamp : BitVec 64
  running : Bool
  truncate : Bool
  due : Option Due
  gridOrigin : Time
  gridCount : Nat
  revEnd : Int
  prevLen : Time
  afterLock : Bool
  fallback : Bool
  relock : Bool
  bridge : Bool
  ended : Option EndedFrame
  bandSettle : List (Nat × Win)
  clocks : Vector BandClock 528
  clips : Vector (BitVec 32) 16
  deriving DecidableEq, Repr

/-- Table 05-1. -/
inductive CompSource where
  | channel | band | envelope
  deriving DecidableEq, Repr

/-- Table 05-2; the numbers are those of THM_STATUS. -/
inductive CompState where
  | inside | above | below
  deriving DecidableEq, Repr

/-- The comparator settings of Table 05-6. -/
structure CompSet where
  enabled : Bool
  source : CompSource
  vib : Fin 16
  band : Fin 32
  low : Nat
  high : Nat
  hyst : Nat
  sampled : Bool
  tickKeep : Bool
  divider : Nat
  maskAbove : Bool
  maskBelow : Bool
  nextPeriod : Bool
  wake : Bool
  deriving DecidableEq, Repr

/-- One comparator: settings in force, settings waiting for the next tick (R203), state, whether it has been evaluated since
enabling, latch with the instants of its last setting from clear and of the last instant its condition set it (R199), latch
counter, the warm-up window with the tick that ends it, the end of the 12 us gain hold, and the integral at which a watched band stands while its tach
is in ANGLE_LOST (R181). -/
structure Comparator where
  set : CompSet
  waiting : Option CompSet
  state : CompState
  evaluated : Bool
  latch : Bool
  latchFrom : Time
  latchSetAt : Time
  latches : BitVec 32
  warmUp : Bool
  warmUpTick : Option Time
  holdUntil : Time
  stood : Option Int
  deriving DecidableEq, Repr

/-- Table 05-4. -/
inductive NeedleMode where
  | off | pwm | burst | heartbeat | oneshot
  deriving DecidableEq, Repr

/-- Safe levels of Table 05-7. -/
inductive SafeLevel where
  | low | high | highz
  deriving DecidableEq, Repr

/-- The level driven on an NDL pin. -/
inductive PinLevel where
  | low | high | highz
  deriving DecidableEq, Repr

/-- Why an output tripped (R223); the numbers are those of EV_TRIP. -/
inductive TripReason where
  | none | thimble | software | feed | power
  deriving DecidableEq, Repr

/-- The Needle settings of one output (Table 05-7): P, H and W in SAMPLE periods, T_h in us, feed timeout in ms (0 is OFF). -/
structure NeedleSet where
  mode : NeedleMode
  activeLow : Bool
  safe : SafeLevel
  period : Nat
  active : Nat
  burst : Nat
  halfUs : Nat
  feedMs : Nat
  width : Nat
  deriving DecidableEq, Repr

/-- A burst or one-shot in progress (R217 to R226): [start, stop), the timestamp of its start (R222, R839), the tag of its NDL_FIRE, and the C
cycles of a burst. -/
structure Firing where
  start : Time
  stamp : BitVec 64
  stop : Time
  tag : BitVec 8
  cycles : Nat
  deriving DecidableEq, Repr

/-- One Needle output. `waiting` holds an NDL_SET made while tripped (R238), `nextPH` a PWM change for the next period (R209);
`mark` is the start of the period or half-period in progress, `phase` says that the half-period is at the active level. -/
structure Needle where
  set : NeedleSet
  waiting : Option NeedleSet
  nextPH : Option (Nat × Nat)
  configured : Bool
  armed : Bool
  tripped : Bool
  tripStatus : Bool
  tripSetAt : Time
  reason : TripReason
  trips : BitVec 32
  phase : Bool
  mark : Time
  lastFeed : Time
  firing : Option Firing
  deriving DecidableEq, Repr

/-- Synthesiser states of NDL_STATUS. -/
inductive SynthState where
  | locked | settling | calibrating
  deriving DecidableEq, Repr

/-- The burst synthesiser (R212 to R216): the frequency in force, a frequency waiting for the end of a burst (R214), the
state and the instant its present step began. -/
structure Synth where
  freq : Nat
  waiting : Option Nat
  state : SynthState
  since : Time
  deriving DecidableEq, Repr

/-- An NDL_FIRE that has been accepted and has not begun (R217 to R219): its start as a timestamp, none for as soon as possible. -/
structure HeldFire where
  mask : Nat
  start : Option Nat
  deadline : Time
  tag : BitVec 8
  deriving DecidableEq, Repr

/-- Thimble and Needle together. -/
structure Guard where
  comps : Vector Comparator 32
  tripMasks : Vector (BitVec 32) 8
  outs : Vector Needle 8
  synth : Synth
  held : Vector (Option HeldFire) 4
  deriving DecidableEq, Repr

end Sys2Proof.Machine
end

