-- ==== Sys2Proof/Machine/TypesRinse.lean ====
section
/-!
DEFINITION. The Rinse chains, their detectors, rings and ledgers (chapter 06). Plain data only.
-/

namespace Sys2Proof.Machine

/-- R270. -/
inductive SyncSource where
  | pin | everyCycle | cycle0
  deriving DecidableEq, Repr

/-- Table 06-6. -/
inductive RingMode where
  | continuous | once | triggered
  deriving DecidableEq, Repr

/-- The running states of a ring tap: stopped, running, writing its POST outputs. -/
inductive RingState where
  | stopped | running | post
  deriving DecidableEq, Repr

/-- One ring tap (R259 to R264): base address, length in entries, entry format with its tach, mode, trigger comparator
(none when 0xFF), POST count, the tag of its RN_RING_START; then where it stands. `trigAt` is the trigger instant waiting for its trigger output. -/
structure Ring where
  base : Nat
  length : Nat
  mode : RingMode
  withAngle : Bool
  tach : Fin 4
  comp : Option (Fin 32)
  post : Nat
  tag : BitVec 8
  state : RingState
  next : Nat
  total : BitVec 32
  newest : BitVec 64
  trigAt : Option Time
  trigIndex : Option Nat
  postLeft : Nat
  deriving DecidableEq, Repr

/-- The detector settings of one chain (Table 06-8). -/
structure DetSet where
  peakOn : Bool
  rmsOn : Bool
  envOn : Bool
  hitsOn : Bool
  decay : Nat
  n : Nat
  eshift : Nat
  threshold : Nat
  dead : Nat
  deriving DecidableEq, Repr

/-- The detector values (Table 06-5). `peak` and `env` carry 24 fractional bits. `flags` is the union of the output flags that
entered each detector since the last frame boundary (R258). -/
structure DetState where
  peak : Nat
  rmsSum : Nat
  rmsCount : Nat
  rms : Nat
  env : Nat
  hits : BitVec 32
  hitPeak : Nat
  hitStamp : BitVec 64
  hitAt : Option Time
  flags : Vector (BitVec 8) 4
  deriving DecidableEq, Repr

/-- One copy of the Rinse commit group of a chain: DEC_RATIO and the active bank of each FIR (true: bank B). -/
structure ChainSet where
  dec : Nat
  bank1 : Bool
  bank2 : Bool
  deriving DecidableEq, Repr

/-- A commit or swap accepted and not yet applied (R280). -/
structure ChainCommit where
  swap : Bool
  target : ChainSet
  from_ : Time
  deriving DecidableEq, Repr

/-- One chain. `waiting` says that it is enabled and waits for the start of its next epoch (R271); `lines` hold the newest
value first, with 24 fractional bits; `seen` is the index, among all inputs accepted since reset, of the last input that
carried TAINTED, SETTLING, OVERLOAD, CAL_ACTIVE in this order (R254); `breakAt` the index at which the last epoch that
breaks the chain began; `firstOut` says that the next output is the first of its epoch (R275); `detBefore` are the detectors as the last output found
them (R258). -/
structure Chain where
  enabled : Bool
  waiting : Bool
  live : ChainSet
  staged : ChainSet
  pending : Option ChainCommit
  swapArmed : Bool
  comp : Vector (List Int) 2
  second : Vector (List Int) 2
  dcOn : Bool
  autoFreeze : Bool
  shift : Nat
  dcFreeze : Bool
  integ : Vector (BitVec 84) 5
  comb : Vector (BitVec 84) 5
  line1 : List Int
  line2 : List Int
  dcEst : Int
  epochIn : BitVec 64
  epochOut : BitVec 64
  totalIn : BitVec 64
  totalOut : BitVec 64
  skipped : BitVec 64
  inIndex : Nat
  seen : Vector (Option Nat) 4
  breakAt : Nat
  firstOut : Bool
  saturations : BitVec 32
  output : BitVec 32
  outputAt : Time
  detSet : DetSet
  det : DetState
  detBefore : DetState
  rings : Vector (Option Ring) 4
  deriving DecidableEq, Repr

/-- The Rinse: the number of the SAMPLE edge at which a SYNC or the end of reset last set the phase counter G to 0 (R265) and what G was there
before (R266), the SYNC source, the 24 chains. `lastPinEdge` is the
last SYNC pin edge taken (Table 18-11, t_sper), `syncStamp` the timestamp of the last SYNC. -/
structure Rinse where
  zeroEdge : Nat
  oldPhase : Nat
  source : SyncSource
  chains : Vector Chain 24
  lastPinEdge : Option Time
  syncStamp : BitVec 64
  deriving DecidableEq, Repr

end Sys2Proof.Machine
end

