-- ==== Sys2Proof/Machine/TypesModel.lean ====
section
/-!
DEFINITION. Tiles, pressing, images, models, learning, Spool, caches, SRAM and patch store: the state that chapters 07 to 11
give the device. Plain data only.
-/

namespace Sys2Proof.Machine

/-- The SRAM (R452 to R457): bytes in canonical form, addresses strictly rising, no listed byte equal to zero, which is what an
unlisted address reads as; and the granules whose written bit is set, rising. -/
structure Sram where
  cells : List Host.Cell
  written : List Nat
  deriving DecidableEq, Repr

/-- Table 07-4. -/
inductive TileState where
  | blank | spare | ready | pressing | inspecting | suspect | retired
  deriving DecidableEq, Repr

/-- Table 08-1, with the converter calibration of R384. -/
inductive PressKind where
  | form | load | patch | reload | press | inspect | calibrate
  deriving DecidableEq, Repr

/-- Where the targets of an operation come from (Table 08-1). -/
inductive PressSource where
  | zero
  | block (h : Handle) (index : Nat)
  | records (addr : Nat) (first : Nat)
  | codes (h : Handle)
  | nearest
  deriving DecidableEq, Repr

/-- The steps of an operation: waiting for an inference boundary, pressing rows, darning, ready for its closing step. -/
inductive PressStep where
  | queued | rows | darn | closing
  deriving DecidableEq, Repr

/-- The targets of one row as a row record gives them (Table 09-7): codes of the data pairs, seam weights, row remainders. -/
structure RowTarget where
  row : Nat
  codes : List Int
  seams : List Int
  rems : List Int
  deriving DecidableEq, Repr

/-- A row press in flight: the row, its Spool tag, the instant it started, and the cells that its first verify read found out of tolerance. -/
structure RowFlight where
  row : Nat
  tag : Fin 4096
  start : Time
  outs : List Nat
  deriving DecidableEq, Repr

/-- A pressing operation, inspection or calibration (R346, R400). `since` is the instant it fell due; `rows` are the rows still to press with their
`targets`; `darned` are the entries (darning pair, pair) made in this operation, `darnQueue` the darning pairs whose DARN has not ended (R352);
`written` the rows finished; `inFlight` the row being pressed with its Spool tag; `serving` says that a self-check may yet serve the LOAD (R420).
`freed` are the darning pairs that have failed, `newTrims` the trims and `newRems` the row remainders found in this operation: with `darned` and the
remainders of `written` they take effect at its end (R389); `stopped` says that endurance has stopped it. `report` holds the rows, units and failed
pairs of an operation whose self-check has failed once, while the inspection that follows is made (R378, R400). -/
structure PressOp where
  kind : PressKind
  basket : Basket
  tag : BitVec 8
  handle : Option Handle
  source : PressSource
  since : Time
  step : PressStep
  rows : List Nat
  targets : List RowTarget
  darned : List (Nat × Nat)
  darnQueue : List Nat
  pressed : Nat
  units : Nat
  pairsFailed : Nat
  repressed : Nat
  inconsistent : List Nat
  written : List Nat
  inFlight : Option RowFlight
  selfFails : Nat
  calibrated : Bool
  calDirty : Bool
  serving : Bool
  freed : List Nat
  newTrims : Option (List (Nat × Nat))
  newRems : Option (List (Nat × Int))
  stopped : Bool
  report : Option (Nat × Nat × Nat)
  deriving DecidableEq, Repr

/-- A tile's content tag: the image and the patch last pressed into it (R385). -/
structure ContentTag where
  modelId : BitVec 32
  crc : BitVec 32
  patch : Nat
  deriving DecidableEq, Repr

/-- A cell whose level is not 0, in 1/256 level. -/
structure Cell where
  row : Nat
  column : Nat
  level : Int
  deriving DecidableEq, Repr

/-- One tile: the configuration area that survives reset (R340: state, remap table, trims other than 128, row remainders other than 0, content tag),
its cells, and the counts of R332. `recorded` is the operation recorded while PRESSING or INSPECTING; `counter` the live endurance counter and
`saved` the counter in the newest record; `age` the drift age in 0.5 s; `due` says that an inspection is due since `dueSince`, with the tag of the
PR_INSPECT that asked for it (R800), and `precedence` that upkeep of the tile takes precedence over runs (R388); `bootChecked` that its boot
self-check has passed and serves R420, `bootBarred` that it has failed and bars it (R851, R852). `lastMode` is the mode of the last phase that drove
its rows (true: D-mode) and `phaseEnd` the end of that phase (R310); `clipsRun` and `uncheckedRun` are the counts of the last run (R332). -/
structure Tile where
  state : TileState
  remap : Vector (Option Nat) 8
  darnBad : Vector Bool 8
  trims : List (Nat × Nat)
  remainders : List (Nat × Int)
  cells : List Cell
  content : Option ContentTag
  needsPress : Bool
  badRows : List Nat
  failedPairs : Nat
  recorded : Option PressKind
  counter : Nat
  saved : Nat
  armed : Bool
  age : Nat
  due : Bool
  dueSince : Time
  dueTag : BitVec 8
  precedence : Bool
  lastResult : Nat
  bootChecked : Bool
  bootBarred : Bool
  lastMode : Option Bool
  phaseEnd : Time
  clipsRun : BitVec 32
  uncheckedRun : BitVec 32
  clipped : BitVec 32
  compared : BitVec 32
  seamFailures : BitVec 32
  queue : List PressOp
  op : Option PressOp
  deriving DecidableEq, Repr

/-- The upkeep settings of Table 08-7: base interval in h, commit step in FTE, automatic inspection. -/
structure Upkeep where
  baseHours : Nat
  commitFte : Nat
  auto : Bool
  deriving DecidableEq, Repr

/-- A layer entry (Table 09-4). -/
structure Layer where
  vector : Bool
  pass : Nat
  inFormat : Nat
  weightFormat : Nat
  inCount : Nat
  outCount : Nat
  firstSlice : Nat
  sliceCount : Nat
  descFirst : Nat
  descCount : Nat
  biasOffset : Nat
  outBytes : Nat
  input : Nat
  softHead : Bool
  deriving DecidableEq, Repr

/-- A slice entry (Table 09-5). `tiles` are the logical tiles of the replicas in order. -/
structure Slice where
  layer : Nat
  dMode : Bool
  replicas : Nat
  tiles : List Nat
  rowFirst : Nat
  rowCount : Nat
  outFirst : Nat
  outCount : Nat
  inFirst : Nat
  outBase : Nat
  budget : Nat
  shift : Nat
  seamTol : Nat
  busy : Nat
  deriving DecidableEq, Repr

/-- A weight block header (Table 09-6). -/
structure Block where
  rowFirst : Nat
  rowCount : Nat
  darnReserve : Nat
  dataOffset : Nat
  dataCrc : BitVec 32
  deriving DecidableEq, Repr

/-- A descriptor (Table 09-8). -/
structure Desc where
  op : Nat
  inFormat : Nat
  outFormat : Nat
  engine : Nat
  count : Nat
  src : Nat
  src2 : Nat
  dst : Nat
  param : Nat
  deriving DecidableEq, Repr

/-- A binding entry (Table 09-11). -/
structure Binding where
  kind : Nat
  source : Nat
  frame : Nat
  missing : Nat
  first : Nat
  count : Nat
  target : Nat
  node : Nat
  slot : Nat
  detector : Nat
  deriving DecidableEq, Repr

/-- A reload plan: SOURCE and, per pass, the logical tile and block of each entry. -/
structure Reload where
  qspi : Bool
  passes : List (List (Nat × Nat))
  deriving DecidableEq, Repr

/-- The learning specification (Table 09-12). Times are in seconds with 0 replaced by the default. -/
structure LearnSpec where
  softLayer : Nat
  recon : Bool
  update : Nat
  forget : Nat
  interval : Option Nat
  freezeHold : Nat
  releaseTime : Nat
  commission : Nat
  freezeLevel : BitVec 16
  releaseLevel : BitVec 16
  doubtLevel : BitVec 16
  rate : BitVec 16
  baseFirst : Nat
  baseCount : Nat
  deriving DecidableEq, Repr

/-- An Asketh image as the fitting check reads it. `weights` is the offset of the weights section in the image, `biases` the biases of
each layer. -/
structure Image where
  basket : Nat
  length : Nat
  modelId : BitVec 32
  crc : BitVec 32
  auth : Bool
  fixed : Bool
  divider : Nat
  priority : Nat
  logicalTiles : Nat
  deadlineUs : Nat
  layers : List Layer
  slices : List Slice
  blocks : List Block
  weights : Nat
  workspaces : List Nat
  descs : List Desc
  bindings : List Binding
  reload : Option Reload
  learn : Option LearnSpec
  biases : List (List Int)
  deriving DecidableEq, Repr

/-- Table 11-1. -/
inductive LearnState where
  | commissioning | learning | frozen | adopting
  deriving DecidableEq, Repr

/-- A patch log entry (Table 11-6). -/
structure PatchLog where
  number : Nat
  minutes : Nat
  units : Nat
  rows : Nat
  cause : Nat
  result : Nat
  deriving DecidableEq, Repr

/-- Where a patch stands (Table 11-3): waiting for the record of step 2, pressing, waiting for the record of step 4. -/
inductive PatchStep where
  | record2 | pressing | record4
  deriving DecidableEq, Repr

/-- The learning side of a loaded model. The window is measured in t_r, in ns: `winStart`, `winLen`; episodes hold the t_r of their first run.
`codes` are the stored codes, `newCodes` those of a patch under way, `imageCodes` those of the image, all row-major; the FP16 soft head and the
baseline lie in the model's SRAM buffers; `base` is the baseline of an image without STATS, which has no such buffer. -/
structure Learn where
  state : LearnState
  winStart : Option Nat
  winLen : Nat
  doubt : Bool
  pendingPatch : Bool
  runs : Nat
  doubtful : Nat
  n : Nat
  committed : BitVec 32
  discarded : BitVec 32
  noChange : BitVec 32
  badLabels : BitVec 32
  seqDone : BitVec 32
  freezeFrom : Option Nat
  releaseFrom : Option Nat
  elapsed : Nat
  lastTr : Option Nat
  patchDue : Option Nat
  patchNumber : Nat
  patchStep : Option PatchStep
  codes : List Int
  newCodes : List Int
  imageCodes : List Int
  recommission : Bool
  base : List Byte
  log : List PatchLog
  deriving DecidableEq, Repr

/-- One planned phase of a slice on one tile (R311): the rows it drives with the pulse width in 2^-32 of tau and the input code, the
part (true: negative) and the bit plane. -/
structure Phase where
  drives : List (Nat × Nat × Nat)
  negative : Bool
  plane : Option Nat
  deriving DecidableEq, Repr

/-- What one phase yields on a tile: its contributions to the slice's tile results, the clipped conversions among them (R300), and its seam
comparisons made, failed and not made (R321, R322). -/
structure PhaseYield where
  sums : List Int
  clips : Nat
  made : Nat
  failed : Nat
  unmade : Nat
  deriving DecidableEq, Repr

/-- A PULSE slice's phase that a tile has taken at the handoff: when its drive window opened, what it drove and what it yields (R30, R302). -/
structure Handed where
  tile : Fin 48
  slice : Nat
  opened : Time
  phase : Phase
  yields : PhaseYield
  deriving DecidableEq, Repr

/-- What the phases of a run have counted on a tile: clipped conversions and comparisons not made (R300, R322). -/
structure TileCount where
  tile : Fin 48
  clips : Nat
  unchecked : Nat
  deriving DecidableEq, Repr

/-- The phases left for one PHASES tag, accepted at an instant; `handed` is what its tile has taken at the handoff. -/
structure Planned where
  tag : Fin 4096
  accepted : Time
  handed : Option Handed
  tile : Fin 48
  slice : Nat
  replica : Nat
  phases : List Phase
  deriving DecidableEq, Repr

/-- What one replica tile of a slice has accumulated for the layer in progress (R315), one sum per tile result. -/
structure Accum where
  slice : Nat
  replica : Nat
  sums : List Int
  deriving DecidableEq, Repr

/-- A run in flight (R480 to R487). `flags` are those of Table 10-4 [6:0]. `waitFor` says that the layer waits for a tile under WAIT (R333).
`usable` are the replicas of the layer in progress that compute, `seamFailed` the tiles that failed a comparison with their numbers, `handed` the
phases of the handoff, `passTaken` the passes of the reload plan after which the run has taken the states of the tiles anew, `counts` the counts of
its tiles, `reloadQueue` the entries of the pass in progress still to be read from QSPI, `label` the pending label taken at the start (SEQ, CLASS).
-/
structure Run where
  frame : Nat
  start : BitVec 64
  tr : Nat
  deadline : Time
  layer : Nat
  layerOn : Bool
  waitFor : Bool
  gathered : Bool
  finished : Bool
  flags : BitVec 7
  clips : Nat
  saturations : Nat
  unchecked : Nat
  replicas : List Nat
  usable : List Nat
  planned : List Planned
  accums : List Accum
  seamFailed : List (Fin 48 × Nat)
  handed : List Handed
  counts : List TileCount
  tagsPeak : Nat
  states : List (Fin 48 × TileState)
  passDone : Nat
  passTaken : Nat
  reloadQueue : List (Nat × Nat)
  verdict : Option (BitVec 16)
  verdictTop : Option Nat
  novelty : Option (BitVec 16)
  baseShadow : Option (List Byte)
  headShadow : Option (List Byte)
  label : Option (BitVec 32 × Nat)
  deriving DecidableEq, Repr

/-- MD_STATUS states. -/
inductive ModelState where
  | loading | loaded | unloading
  deriving DecidableEq, Repr

/-- One model: what its fitting check reserved (R437) and its record since load (Table 10-4). `place` maps logical tile n to its tile; `toPress` are
the tiles whose LOAD has not ended; `imageAddr` and `qspi` say where the image lies; `leaving` are the phases that tiles finish for runs that have
ended early (R482); `firstFrame` is the frames to its next run (R438), `lastRun` the frame whose end started its last run. -/
structure Model where
  basket : Basket
  image : Image
  state : ModelState
  imageAddr : Nat
  qspi : Bool
  firstUnit : Nat
  unitCount : Nat
  wUs : Nat
  wUnits : Nat
  tags : Nat
  margin : Nat
  projection : List (Fin 48 × Nat)
  place : List (Fin 48)
  toPress : List (Fin 48)
  loadFail : Option (BitVec 16)
  loadTag : BitVec 8
  firstFrame : Nat
  lastRun : Nat
  runsDone : BitVec 32
  runsEarly : BitVec 32
  runsMissed : BitVec 32
  update : BitVec 32
  lastResult : BitVec 16
  verdict : BitVec 16
  novelty : BitVec 16
  learn : Option Learn
  run : Option Run
  leaving : List Planned
  deriving DecidableEq, Repr

/-- Table 10-2. -/
inductive TagKind where
  | gather | phases | move | vector | press | learn
  deriving DecidableEq, Repr

/-- Table 10-3; a FREE tag is not listed, and COMPLETED and ABORTED retire in the same cycle. -/
inductive TagStatus where
  | allocated | ready | issued
  deriving DecidableEq, Repr

/-- A tag in flight (R473). `index` is the binding, slice or descriptor; `level` the effective priority (R489),
`allocAt` and `readyAt` the instants of allocation and of becoming READY; `aborting` says that its run has ended and its unit finishes
the current step (R482). -/
structure Tag where
  id : Fin 4096
  kind : TagKind
  basket : Basket
  handle : Option Handle
  tile : Option (Fin 48)
  index : Nat
  replica : Nat
  engine : Option (Fin 4)
  status : TagStatus
  deps : List (Fin 4096)
  priority : Nat
  level : Nat
  deadline : Option Time
  allocAt : Time
  readyAt : Time
  aborting : Bool
  deriving DecidableEq, Repr

/-- Tag counters, device-wide or of one basket (R474). -/
structure Ledger where
  allocated : BitVec 64
  completed : BitVec 64
  aborted : BitVec 64
  deriving DecidableEq, Repr

/-- The directory's view of one line of the operand caches (R498). A line not listed is UNCACHED. -/
inductive LineState where
  | uncached
  | shared (by_ : List (Fin 4))
  | owned (by_ : Fin 4) (since : Time)
  deriving DecidableEq, Repr

/-- One line: its directory state, whether a write-back is under way, since when, and whether the owner then keeps a shared copy, whether a
write by an agent without a cache waits for the hold to end, and the requests that wait for the line in order of arrival (true: GetM). -/
structure Line where
  line : Nat
  state : LineState
  writeback : Bool
  writeFrom : Time
  keepShared : Bool
  purge : Bool
  waiting : List (Fin 4 × Bool)
  deriving DecidableEq, Repr

/-- One vector engine (R496, R497): the model, descriptor and tag in progress and the instant it began, and its counts. -/
structure Engine where
  busy : Option (Handle × Nat × Fin 4096 × Time)
  descriptors : BitVec 64
  cycles : BitVec 64
  deriving DecidableEq, Repr

/-- The Spool, the engines and the directory. `ageing` is in 0.1 ms, none is OFF. -/
structure Spool where
  tags : List Tag
  device : Ledger
  baskets : Vector Ledger 4
  ageing : Option Nat
  engines : Vector Engine 4
  lines : List Line
  pointer : Fin 4
  deriving DecidableEq, Repr

/-- One model entry of a basket area (Table 11-5), as the next record will hold it. -/
structure Entry where
  modelId : BitVec 32
  state : LearnState
  doubt : Bool
  pending : Bool
  baseCount : Nat
  headRows : Nat
  headOutputs : Nat
  stateTime : Nat
  elapsed : Nat
  number : Nat
  labelSeq : BitVec 32
  runs : Nat
  doubtful : Nat
  n : Nat
  baseline : List Byte
  codes : List Int
  log : List PatchLog
  deriving DecidableEq, Repr

/-- A record write in progress (R561 to R563). `patches` are the models whose patch waits for it (Table 11-3), `atPfail` says that it was in
progress at the last PFAIL (R566), `arms` are the tiles it arms with the counters it holds. -/
structure StoreWrite where
  bank : Fin 2
  seq : Nat
  bytes : List Byte
  clean : Bool
  started : Time
  ends : Time
  again : Bool
  step : Nat
  atPfail : Bool
  arms : List (Bool × Nat)
  patches : List Handle
  deriving DecidableEq, Repr

/-- The patch store: the bytes of both banks, the newest valid record (bank, SEQUENCE, LENGTH), the target of the next write,
what the next record will hold for each basket (present once written), triggers waiting (R560), and the baskets whose
PS_CHECKPOINT waits for the next write or the one in progress. -/
structure Store where
  banks : Vector (List Byte) 2
  writes : Vector Nat 2
  newest : Option (Fin 2 × Nat × Nat)
  newestClean : Bool
  stepInForce : Nat
  nextBank : Fin 2
  nextSeq : Nat
  empty : Bool
  anomaly : Bool
  areas : Vector (Option (List Entry × List Byte)) 4
  writing : Option StoreWrite
  trigger : Bool
  lastAt : Time
  checkpointHours : Nat
  holdUp : Nat
  waiting : Vector Bool 4
  serving : Vector Bool 4
  pfailAt : Option Time
  actionDone : Bool
  deriving DecidableEq, Repr

end Sys2Proof.Machine
end

