-- ==== Sys2Proof/Machine/TypesLink.lean ====
section
/-!
DEFINITION. The Ixward node: the state that chapters 12 and 13 give the device. Plain data only.
-/

namespace Sys2Proof.Machine

/-- Table 12-1. -/
inductive Topology where
  | off | bus | star | ring
  deriving DecidableEq, Repr

/-- Table 13-3; the numbers are those of LINK_STATUS.STATE. -/
inductive LinkState where
  | off | listen | coldstart | integrate | joined | fenced
  deriving DecidableEq, Repr

/-- LINK_STATUS.FENCE. -/
inductive Fence where
  | none | guard | duplicate
  deriving DecidableEq, Repr

/-- The settings of Tables 12-7 and 13-7 in their steps. -/
structure LinkSet where
  topology : Topology
  node : Nat
  cycleUs : Nat
  slots : Nat
  slotUs : Nat
  minislots : Nat
  miniUs : Nat
  apoUs : Nat
  maxDyn : Nat
  hub : Nat
  ringSize : Nat
  silence : Nat
  gone : Nat
  announce : Nat
  revert : Nat
  scheduleId : BitVec 32
  coldstart : Option Nat
  pd : Vector Nat 4
  offsetLimit : Nat
  syncLoss : Nat
  margin : Nat
  branchOf : Vector (Option (Fin 4)) 64
  cutCycles : Nat
  syncOut : Bool
  discipline : Bool
  deriving DecidableEq, Repr

/-- Transmit sources (R601, R606). -/
inductive TxSource where
  | none
  | features (first count : Nat)
  | buffer
  deriving DecidableEq, Repr

/-- A schedule entry (Table 12-4) with its transmit source. -/
structure SlotEntry where
  slot : Nat
  owner : Nat
  basket : Fin 4
  kind : Nat
  use : Nat
  silent : Bool
  base : Nat
  repExp : Nat
  span : Nat
  maxLen : Nat
  rank : Nat
  source : TxSource
  deriving DecidableEq, Repr

/-- One copy of the Ixward commit group. Entries are listed by entry number, rising. -/
structure LinkCopy where
  set : LinkSet
  entries : List (Nat × SlotEntry)
  deriving DecidableEq, Repr

/-- A captured LK_COMMIT (R598). -/
structure LinkCommit where
  copy : LinkCopy
  from_ : Time
  at_ : Nat
  deriving DecidableEq, Repr

/-- One port: its ledger (R621: received, delivered, and discarded under each reason of Table 12-5), the accepted hop-delay measurements
of an UP port in 1/768 ns, newest first (R661), its DELAY_REQ that waits for an answer with its reference point, and its break (R698 to
R701): detected on this port, BREAK still sent towards that neighbour, cycles without a sign of it, and cycle starts until averaging
restarts. -/
structure Port where
  received : BitVec 64
  delivered : BitVec 64
  discards : Vector (BitVec 64) 11
  hopDelays : List Int
  pendingReq : Option (Nat × Time)
  broken : Bool
  sendingBreak : Bool
  breakFree : Nat
  refold : Nat
  deriving DecidableEq, Repr

/-- R629: partner states; the numbers are those of EV_PARTNER. -/
inductive PartnerState where
  | gone | silent | present
  deriving DecidableEq, Repr

/-- One partner entry (R629 to R631): the payload of its last ANNOUNCE, the CYCLE of its last valid packet, the cycle starts since it, and the
packets delivered from it. -/
structure Partner where
  state : PartnerState
  announce : List (BitVec 16)
  lastCycle : Nat
  quiet : Nat
  delivered : BitVec 32
  deriving DecidableEq, Repr

/-- A claim by any node on a SPARE entry (R632 to R638). `seen` and `opposed` describe this cycle, `unopposed` counts consecutive unopposed
cycles; `inForce` says that the entry is treated as owned, `released` that this node has released it; `heard` says that its owner has sent a
valid packet in it this cycle, `silentFor` counts the instances without one. -/
structure Claim where
  entry : Nat
  node : Nat
  basket : Fin 4
  seen : Bool
  opposed : Bool
  unopposed : Nat
  inForce : Bool
  released : Bool
  silentFor : Nat
  heard : Bool
  deriving DecidableEq, Repr

/-- A NOTICE waiting to be sent (R588, R704). -/
structure Notice where
  reason : Nat
  slot : Nat
  cycle : Nat
  type : Nat
  node : Nat
  deriving DecidableEq, Repr

/-- One link event log entry (R708). -/
structure LinkLog where
  stamp : BitVec 64
  port : Nat
  kind : Nat
  node : Nat
  slot : Nat
  cycle : Nat
  noticed : Bool
  deriving DecidableEq, Repr

/-- One received mailbox message (R619). -/
structure Mail where
  node : Nat
  basket : Fin 4
  words : List (BitVec 16)
  deriving DecidableEq, Repr

/-- A packet sent: the port set it goes out on and its bytes from header to trailer. -/
structure Sent where
  ports : List (Fin 4)
  bytes : List Byte
  deriving DecidableEq, Repr

/-- A packet heard in this cycle, for DUPLICATE (Table 12-5 check 10). -/
structure Heard where
  bytes : List Byte
  port : Fin 4
  deriving DecidableEq, Repr

/-- The dynamic segment of one channel in this cycle (R611 to R616): the minislot at which dynamic slot `idx` begins, and whether this node
has sent its packet. -/
structure DynChannel where
  next : Nat
  idx : Nat
  sent : Bool
  deriving DecidableEq, Repr

/-- The Ixward node. `cycleAt` and `nextCycle` are the local starts of this cycle and the next, `cst` and `cycleIndex` the network time in ns
and the index of this one; `everSynced` says that the node has run cycles since reset, `fullCycle` that it has followed this cycle from its
start, `adopting` that the first valid time packet sets the cycle (R685). `rho` is in 0.001 ppm, `rate` is the one that acts on the microticks of this
cycle (R656), offsets are in 1/768 ns; `cycleE` is the best
time packet of this cycle: its rank, or on RING twice its HOPS plus 1 on channel B, and its offset, and `corrected` says that it has been
applied. `missCycles`, `offCycles`, `clampCycles`, `coldCycles`, `noStartup` and `joinedFor` count cycles for R670, Table 13-3, R667 and R706;
`timeNow` and `timeLast` are the slots in which valid time packets came in this cycle and the last. `emptyCounts` and `nullCounts` are by
slot and channel (R609, R610), `gotSlots` the slots and channels in which a valid packet came this cycle. `buffers` are the payloads of
LK_SEND by entry with their acceptance (R606). `guardCount` is the guardian's oscillator count over the previous cycle and `guardExpected` the
count that LINK led it to expect (R689, R941). `heard` and `sent` are the packets delivered and sent this cycle. -/
structure Link where
  live : LinkCopy
  staged : LinkCopy
  pending : Option LinkCommit
  state : LinkState
  stateAt : Time
  source : Nat
  root : Nat
  fence : Fence
  everSynced : Bool
  cycleAt : Time
  nextCycle : Time
  cst : Nat
  cycleIndex : Nat
  fullCycle : Bool
  adopting : Bool
  rho : Int
  rate : Int
  lastE : Int
  cycleE : Option (Nat × Int)
  corrected : Bool
  badPacket : Bool
  missCycles : Nat
  offCycles : Nat
  clampCycles : Nat
  coldCycles : Nat
  noStartup : Nat
  joinedFor : Nat
  timeNow : List Nat
  timeLast : List Nat
  ports : Vector Port 4
  emptyCounts : List (Nat × Nat × BitVec 32)
  nullCounts : List (Nat × Nat × BitVec 32)
  gotSlots : List (Nat × Nat)
  dyn : Vector DynChannel 2
  dynPacket : Option (Nat × List (BitVec 16))
  partners : Vector Partner 64
  claims : List Claim
  buffers : List (Nat × List (BitVec 16) × Time)
  mailOut : Vector (Option (List (BitVec 16))) 4
  mailIn : Vector (List Mail) 4
  announceDue : Bool
  announceAt : Nat
  notices : List Notice
  noticed : List (Nat × Nat × Nat)
  noticesDropped : BitVec 32
  log : List LinkLog
  logOverwrites : BitVec 32
  kinds : Vector (BitVec 32) 128
  guardBlocked : Bool
  guardGood : Nat
  guardCount : Nat
  guardExpected : Nat
  guardViolations : Nat
  sentThisCycle : Bool
  violatedThisCycle : Bool
  branchBlocked : Vector Nat 4
  branchBlockedNow : Vector Bool 4
  branchCut : Vector (Option Nat) 4
  branchLast : Vector (Nat × Nat × Nat) 4
  reqSeq : BitVec 16
  heard : List Heard
  sent : List Sent
  deriving DecidableEq, Repr

end Sys2Proof.Machine
end

