-- ==== Sys2Proof/Machine/Reset.lean ====
section
/-!
DEFINITION. The value of every block right after the end of a reset: the "After reset" columns of the settings tables, each
named with its table. Where the spec gives none, the value is the one of log entry 2, 3 or 4.
-/

namespace Sys2Proof.Machine

/-- A vector whose entry i is f i. -/
def vec {α : Type} (n : Nat) (f : Nat → α) : Vector α n := ⟨⟨(List.range n).map f⟩, by simp⟩

/-- Table 15-3 and log entry 2: the device that State.reset is. -/
def Chip.standard : Chip :=
  { gradeX := false, uniqueId := 0, keys := Vector.replicate 4 none, factoryOffset := Vector.replicate 24 0,
    factoryGain := Vector.replicate 24 0x400000 }

def FusePort.reset : FusePort := { armed := false, windowEnd := 0, lastFailed := false, blowing := none }

/-- R15: a timestamp reads 0 at the end of reset. -/
def Clock.reset (now : Time) : Clock :=
  { now := now, origin := now, net := none, netAt := 0, slew := none, rate := 0, hold := 0, frozen := none, edgeAt := now, edgeNo := 0,
    edgeRate := 0 }

/-- The first second of the calendar (R889). -/
def Date.first : Date := { year := 2000, month := 1, day := 1, hour := 0, minute := 0, second := 0 }

/-- R846, R889, R805: the KEEP domain after its power-up. -/
def Keep.powerUp (now : Time) : Keep :=
  { date := Date.first, valid := false, lastSecond := now, alarm := Date.first, alarmOn := false, pfailValid := false,
    pfailWrite := 0, pfailClean := false, resetCause := 1 }

/-- Table 17-2 step 1, R868, R903. -/
def Pwr.reset (now : Time) : Pwr :=
  { state := .boot, ready := false, frame1 := false, watchRequest := false, watchAt := 0, wakeMask := 7, wakes := 0, fault := none,
    pfail := false, pfailSince := 0, pfailLowSince := now, vddpOk := true, vddioHigh := true, bootFlash := false, restored := false,
    selected := false, outcomePlaced := false, resetUntil := now, exec := none, qspiOpcode := 0x03, qspiClock := 10,
    qspiDummy := 0, dieTemp := 0, driftAt := now, hotSince := none, coolSince := none, tapInstruction := 0x01, halted := false,
    tapOut := none }

/-- Table 15-7. -/
def Window.reset : Window :=
  { addr := 0, dirWrite := false, inc := true, active := false, len := 0, activeLen := 0, count := 0, posted := [], line := none }

/-- R763: until word 0 has first been read after reset, a shadow reads as 0. -/
def Shadows.reset : Shadows :=
  { unique := [], thimble := [], overload := [], evtFifo := [], ledger := [], frameCount := [], time := [],
    violationCount := [], violationLog := [] }

/-- Tables 15-3 to 15-8. -/
def Page.reset : Page :=
  { irqPending := Vector.replicate 13 false, irqSetAt := Vector.replicate 13 0, irqEnable := 0, cmdState := .idle, ignored := 0,
    cmdError := 0, cmdTag := 0, cmdCount := 0, args := Vector.replicate 8 0, results := Vector.replicate 4 0, running := none,
    overload := Vector.replicate 24 false, overloadSetAt := Vector.replicate 24 0, windows := Vector.replicate 2 Window.reset,
    fifo := [], posted := 0, read := 0, lost := 0, shadows := Shadows.reset, uninitRead := 0, busConflicts := 0, violations := 0 }

/-- Table 14-6 (BASKET_ENABLE), R748. -/
def HostSide.reset : HostSide :=
  { pages := Vector.replicate 4 Page.reset, enable := vec 4 (· == 0), violLog := [], violOverwrites := 0, dataOut := none }

/-- Table 14-6. -/
def Grants.supervisor : Grants :=
  { tiles := Vector.replicate 48 true, units := vec 384 (decide <| 8 ≤ ·), tagQuota := 4096, patchQuota := 65536,
    outputs := Vector.replicate 8 true, comparators := Vector.replicate 32 true, synth := true,
    channels := Vector.replicate 24 true, features := Vector.replicate 512 true, tachs := Vector.replicate 4 true,
    slots := Vector.replicate 255 true }

/-- Table 14-6. -/
def Grants.none : Grants :=
  { tiles := Vector.replicate 48 false, units := Vector.replicate 384 false, tagQuota := 0, patchQuota := 65536,
    outputs := Vector.replicate 8 false, comparators := Vector.replicate 32 false, synth := false,
    channels := Vector.replicate 24 false, features := Vector.replicate 512 false, tachs := Vector.replicate 4 false,
    slots := Vector.replicate 255 false }

/-- Table 02-6 and R68, R97: settle windows open at reset release for the 3 s after reset. -/
def Channel.reset (chip : Chip) (now : Time) (pos : Nat) : Channel :=
  { offset := chip.factoryOffset.toList.getD pos 0, gain := chip.factoryGain.toList.getD pos 0x400000, settleMs := 3000,
    calLimit := if pos < 16 then 128 else 4, sensitivity := 0x3C00,
    settle := [{ start := now, stop := some (now + 2304000000000) }], episodes := [], taints := [],
    overloads := 0, cal := Option.none, sample := 2 }

/-- Table 02-6. -/
def Teds.reset : Teds :=
  { period := 0, bindings := Vector.replicate 32 none,
    lines := Vector.replicate 4 { memories := [], log := [], overwrites := 0, nextScan := 0 } }

/-- Table 03-6. -/
def TachSet.reset : TachSet :=
  { mode := .off, ppr := 1, logRes := 12, maxRate := 10000, minRate := 10, bw := 20, amax := 500, etol := 10,
    freewheelLimit := 8, hysteresis := 5, floodThreshold := 90, indexOn := false, expected := none, fallback := 1000000 }

/-- The angle PLL before its first acquisition (R118, Table 03-5): in ANGLE_LOST from the end of reset. -/
def TachLoop.reset (now : Time) : TachLoop :=
  { state := .lost, abs := false, edges := 0, zero := 0, lag := 0, lastEdge := none, lastInterval := none, tpred := 0, acq := 0, resume := 0,
    resumeK := 0, code := none, paired := false, shift := none, freeStart := 0, lostWins := [{ start := now, stop := none }],
    freeWins := [], rejectedEdges := 0, heldWord := 2 }

def Tach.reset (now : Time) : Tach :=
  { loop := TachLoop.reset now, floodTach := [], floodIndex := [], rejectedCodes := 0, lastId := 0 }

/-- Table 04-3. -/
def Band.reset : Band := { order := false, tach := 0, centre := 256000, q := 16, square := false, scale := 0 }

/-- Table 04-2. -/
def Plan.reset : Plan :=
  { spectral := 0, envelope := 0, carrier := 2560000, carrierQ := 8, corner := 1000, bands := Vector.replicate 32 Band.reset }

/-- R172, Table 02-6, Table 01-4. -/
def WringerSet.reset : WringerSet :=
  { plans := Vector.replicate 8 Plan.reset, vibs := Vector.replicate 16 { gain := 0, ac := true, plan := 0, count := false },
    frame := { source := .time, tach := 0, timeLen := 1000000, angleLen := 32, netLen := 1000 },
    tachs := Vector.replicate 4 TachSet.reset }

/-- The clock of a band in Hz mode at its after-reset centre of 1000 Hz, and of a carrier at 10 kHz (R149, R153, Tables 04-2 and 04-3). -/
def BandClock.reset (now : Time) (carrier : Bool) : BandClock :=
  { inc := if carrier then 55924053 else 5592405, acc := 0, from_ := 0, step := if carrier then 14 else 11, cleared := now }

/-- R26, R821. -/
def Wringer.reset (now : Time) : Wringer :=
  { live := WringerSet.reset, staged := WringerSet.reset, pending := none, num := 0, start := 0, startStamp := 0, running := false,
    truncate := false, due := none, gridOrigin := 0, gridCount := 0, revEnd := 0, prevLen := 0, afterLock := false,
    fallback := false, relock := false, bridge := false, ended := none, bandSettle := [],
    clocks := vec 528 (fun i => BandClock.reset now (decide (512 ≤ i))), clips := Vector.replicate 16 0 }

/-- Table 05-6. -/
def CompSet.reset (i : Nat) : CompSet :=
  { enabled := false, source := if i < 24 then .channel else .band, vib := 0, band := 0, low := 0, high := 1023, hyst := 4,
    sampled := true, tickKeep := true, divider := 32, maskAbove := true, maskBelow := true, nextPeriod := false, wake := false }

/-- R235. -/
def Comparator.reset (i : Nat) : Comparator :=
  { set := CompSet.reset i, waiting := none, state := .inside, evaluated := false, latch := false, latchFrom := 0, latchSetAt := 0, latches := 0,
    warmUp := false, warmUpTick := none, holdUntil := 0, stood := none }

/-- Table 05-7. -/
def NeedleSet.reset : NeedleSet :=
  { mode := .off, activeLow := false, safe := .low, period := 49152, active := 0, burst := 1, halfUs := 10000, feedMs := 0, width := 1 }

/-- R232. -/
def Needle.reset : Needle :=
  { set := NeedleSet.reset, waiting := none, nextPH := none, configured := false, armed := false, tripped := false,
    tripStatus := false, tripSetAt := 0, reason := .none, trips := 0, phase := false, mark := 0, lastFeed := 0, firing := none }

/-- R235, Tables 05-6 and 05-7. -/
def Guard.reset (now : Time) : Guard :=
  { comps := vec 32 Comparator.reset, tripMasks := Vector.replicate 8 0, outs := Vector.replicate 8 Needle.reset,
    synth := { freq := 100000, waiting := none, state := .settling, since := now }, held := Vector.replicate 4 none }

/-- Table 06-8. -/
def DetSet.reset : DetSet :=
  { peakOn := false, rmsOn := false, envOn := false, hitsOn := false, decay := 12, n := 1024, eshift := 8, threshold := 8388607, dead := 64 }

def DetState.reset : DetState :=
  { peak := 0, rmsSum := 0, rmsCount := 0, rms := 0, env := 0, hits := 0, hitPeak := 0, hitStamp := 0, hitAt := none,
    flags := Vector.replicate 4 0 }

/-- Table 06-8, Table 06-4. -/
def Chain.reset : Chain :=
  { enabled := false, waiting := false, live := { dec := 1, bank1 := false, bank2 := false },
    staged := { dec := 1, bank1 := false, bank2 := false }, pending := none, swapArmed := false,
    comp := Vector.replicate 2 [], second := Vector.replicate 2 [], dcOn := false, autoFreeze := true, shift := 16,
    dcFreeze := false, integ := Vector.replicate 5 0, comb := Vector.replicate 5 0, line1 := [], line2 := [], dcEst := 0,
    epochIn := 0, epochOut := 0, totalIn := 0, totalOut := 0, skipped := 0, inIndex := 0, seen := Vector.replicate 4 none,
    breakAt := 0, firstOut := false, saturations := 0, output := 0, outputAt := 0, detSet := DetSet.reset, det := DetState.reset, detBefore := DetState.reset,
    rings := Vector.replicate 4 none }

/-- R265, R270. -/
def Rinse.reset : Rinse :=
  { zeroEdge := 0, oldPhase := 0, source := .pin, chains := Vector.replicate 24 Chain.reset, lastPinEdge := none, syncStamp := 0 }

/-- A tile as it leaves the factory: BLANK, never pressed (Table 07-4, log entry 4). -/
def Tile.blank : Tile :=
  { state := .blank, remap := Vector.replicate 8 none, darnBad := Vector.replicate 8 false, trims := [], remainders := [], cells := [],
    content := none, needsPress := false, badRows := [], failedPairs := 0, recorded := none, counter := 0, saved := 0, armed := false,
    age := 0, due := false, dueSince := 0, dueTag := 0, precedence := false, lastResult := 0, bootChecked := false, bootBarred := false,
    lastMode := none, phaseEnd := 0, clipsRun := 0, uncheckedRun := 0, clipped := 0, compared := 0, seamFailures := 0, queue := [], op := none }

/-- Table 08-7. -/
def Upkeep.reset : Upkeep := { baseHours := 24, commitFte := 100, auto := true }

def Ledger.zero : Ledger := { allocated := 0, completed := 0, aborted := 0 }

/-- R506, Table 10-7, R497, R501. -/
def Spool.reset : Spool :=
  { tags := [], device := Ledger.zero, baskets := Vector.replicate 4 Ledger.zero, ageing := some 10,
    engines := Vector.replicate 4 { busy := none, descriptors := 0, cycles := 0 }, lines := [], pointer := 0 }

/-- Both banks never written (log entry 4); Table 11-8. -/
def Store.fresh (now : Time) : Store :=
  { banks := Vector.replicate 2 [], writes := Vector.replicate 2 0, newest := none, newestClean := false, stepInForce := 100,
    nextBank := 0, nextSeq := 1, empty := false, anomaly := false, areas := Vector.replicate 4 none, writing := none,
    trigger := false, lastAt := now, checkpointHours := 6, holdUp := 20, waiting := Vector.replicate 4 false,
    serving := Vector.replicate 4 false, pfailAt := none, actionDone := true }

/-- Tables 12-7 and 13-7. -/
def LinkSet.reset : LinkSet :=
  { topology := .off, node := 1, cycleUs := 1000, slots := 16, slotUs := 50, minislots := 150, miniUs := 1, apoUs := 2, maxDyn := 16,
    hub := 0, ringSize := 3, silence := 8, gone := 256, announce := 64, revert := 64, scheduleId := 0, coldstart := none,
    pd := Vector.replicate 4 50, offsetLimit := 20, syncLoss := 8, margin := 10, branchOf := Vector.replicate 64 none, cutCycles := 64,
    syncOut := false, discipline := true }

def LinkCopy.reset : LinkCopy := { set := LinkSet.reset, entries := [] }

def Port.reset : Port :=
  { received := 0, delivered := 0, discards := Vector.replicate 11 0, hopDelays := [], pendingReq := none, broken := false,
    sendingBreak := false, breakFree := 0, refold := 0 }

def DynChannel.reset : DynChannel := { next := 0, idx := 0, sent := false }

/-- Ixward after reset: OFF, every partner GONE (R629). -/
def Link.reset (now : Time) : Link :=
  { live := LinkCopy.reset, staged := LinkCopy.reset, pending := none, state := .off, stateAt := now, source := 0, root := 0,
    fence := .none, everSynced := false, cycleAt := now, nextCycle := now, cst := 0, cycleIndex := 0, fullCycle := false,
    adopting := true, rho := 0, rate := 0, lastE := 0, cycleE := none, corrected := false, badPacket := false, missCycles := 0, offCycles := 0,
    clampCycles := 0, coldCycles := 0, noStartup := 0, joinedFor := 0, timeNow := [], timeLast := [],
    ports := Vector.replicate 4 Port.reset, emptyCounts := [], nullCounts := [], gotSlots := [],
    dyn := Vector.replicate 2 DynChannel.reset, dynPacket := none,
    partners := Vector.replicate 64 { state := .gone, announce := [], lastCycle := 0, quiet := 0, delivered := 0 },
    claims := [], buffers := [], mailOut := Vector.replicate 4 none, mailIn := Vector.replicate 4 [], announceDue := false,
    announceAt := 0, notices := [], noticed := [], noticesDropped := 0, log := [], logOverwrites := 0,
    kinds := Vector.replicate 128 0, guardBlocked := false, guardGood := 0, guardCount := 1, guardExpected := 1, guardViolations := 0, sentThisCycle := false,
    violatedThisCycle := false, branchBlocked := Vector.replicate 4 0, branchBlockedNow := Vector.replicate 4 false,
    branchCut := Vector.replicate 4 none, branchLast := Vector.replicate 4 (0, 0, 0), reqSeq := 0, heard := [], sent := [] }

end Sys2Proof.Machine
end

