-- ==== Sys2Proof/Machine/State.lean ====
section
/-!
DEFINITION. The state of the Bolsor, its value right after reset, and the reasons a step can stop.
-/

namespace Sys2Proof.Machine

/-- Everything the Bolsor holds but its identity and the elements of its hem fuse. `horizons` are the service horizon in days and the projection
temperature of each basket (Table 09-14), `flash` the external QSPI flash (an unlisted byte reads 0xFF), `qspi` the read commands that the QSPI
master has sent for the last row that made it read, the first one first. `free` is the MODEL's own field: the counter from which free values are
drawn (log entry 1). -/
structure Dev where
  clk : Clock
  pwr : Pwr
  keep : Keep
  fuse : FusePort
  host : HostSide
  grants : Vector Grants 4
  fe : Vector Channel 24
  teds : Teds
  tachs : Vector Tach 4
  wr : Wringer
  guard : Guard
  rinse : Rinse
  tiles : Vector Tile 48
  upkeep : Upkeep
  horizons : Vector (Nat × Nat) 4
  models : Vector (Option Model) 16
  spool : Spool
  sram : Sram
  store : Store
  link : Link
  flash : List Host.Cell
  qspi : List QspiRead
  free : Nat
  deriving DecidableEq, Repr

/-- The state: the identity, the hem fuse, the device, and the commands that wait, first in, first out. -/
structure State where
  chip : Chip
  fuse : Fuse
  dev : Dev
  pending : List Instr
  deriving DecidableEq, Repr

/-- Why a step stops with a fault. No rule of the spec stops the Bolsor: wrong accesses read zero, refused commands return a
code, and supply, clock and temperature faults are power states. -/
inductive Fault where
  /-- Raised by nothing. Safe: it would stop a run, never invent an effect. -/
  | none
  deriving DecidableEq, Repr

/-- Why a step is refused. -/
inductive Refusal where
  /-- The row has no meaning yet. Raised only by Machine/Dispatch.lean. Safe: nothing can be proved of a run past it. -/
  | notModelled (mnemonic : String)
  deriving DecidableEq, Repr

/-- The record of EV_POWER_STATE that step 1 of Table 17-2 posts (R870): the first of basket 0's FIFO, with timestamp 0 (R15). -/
def bootRecord : Record := { code := 0x60, seq := 1, subject := 0, tag := 0, stamp := 0, data0 := 1, data1 := 0 }

/-- The host side at the end of a reset: the FIFO of basket 0, the one enabled, holds the record of the transition to BOOT. -/
def HostSide.booted : HostSide :=
  { HostSide.reset with pages := HostSide.reset.pages.set 0 { Page.reset with fifo := [bootRecord], posted := 1 } }

/-- The device after a reset that ends at `now`, over what Table 17-1 keeps. -/
def Dev.restart (chip : Chip) (now : Time) (keep : Keep) (tiles : Vector Tile 48) (store : Store) (sram : Sram)
    (flash : List Host.Cell) (free : Nat) : Dev :=
  { clk := Clock.reset now, pwr := Pwr.reset now, keep := keep, fuse := FusePort.reset, host := HostSide.booted,
    grants := ⟨#[Grants.supervisor, Grants.none, Grants.none, Grants.none], rfl⟩,
    fe := vec 24 (Channel.reset chip now), teds := Teds.reset, tachs := Vector.replicate 4 (Tach.reset now), wr := Wringer.reset now,
    guard := Guard.reset now, rinse := Rinse.reset, tiles := tiles, upkeep := Upkeep.reset,
    horizons := Vector.replicate 4 (7305, if chip.gradeX then 140 else 105), models := Vector.replicate 16 none,
    spool := Spool.reset, sram := sram, store := store, link := Link.reset now, flash := flash, qspi := [], free := free }

/-- The machine right after reset: step 1 of Table 17-2 has been taken, with BOOTSEL low, after a first power-up by which KEEP
powered up and the cause PIN was recorded (log entry 3). -/
def State.reset : State :=
  { chip := Chip.standard, fuse := { element0 := false, element1 := false },
    dev := Dev.restart Chip.standard 0 { Keep.powerUp 0 with resetCause := 5 } (Vector.replicate 48 Tile.blank) (Store.fresh 0)
      { cells := [], written := [] } [] 0,
    pending := [] }

end Sys2Proof.Machine
end

