-- ==== Sys2Proof/Machine/Basic.lean ====
section
/-!
DEFINITION. Small operations on vectors, words and bytes, and the lift of a change of the device to an outcome.
-/

namespace Sys2Proof.Machine

/-- Apply f to entry i. -/
def upd {α : Type} {n : Nat} (v : Vector α n) (i : Fin n) (f : α → α) : Vector α n := v.set i (f v[i])

/-- Apply f to every entry, with its number. -/
def vmap {α β : Type} {n : Nat} (v : Vector α n) (f : Nat → α → β) : Vector β n :=
  ⟨⟨v.toList.mapIdx f⟩, by simp⟩

/-- Entry i of a vector, or a default outside it. -/
def at? {α : Type} {n : Nat} (v : Vector α n) (i : Nat) (dflt : α) : α :=
  if h : i < n then v[i] else dflt

/-- Change entry i of a vector, when it exists. -/
def updAt {α : Type} {n : Nat} (v : Vector α n) (i : Nat) (f : α → α) : Vector α n :=
  if h : i < n then upd v ⟨i, h⟩ f else v

/-- The numbers of the entries that satisfy p. -/
def whichIdx {α : Type} {n : Nat} (v : Vector α n) (p : α → Bool) : List Nat :=
  (v.toList.zipIdx.filter (fun x => p x.1)).map (·.2)

/-- Bit i of a natural number. -/
def bit (x i : Nat) : Bool := x / 2 ^ i % 2 == 1

/-- Bits hi down to lo of a natural number (R6). -/
def bits (x hi lo : Nat) : Nat := x / 2 ^ lo % 2 ^ (hi - lo + 1)

/-- The value whose bit i is the i-th entry. -/
def packBits : List Bool → Nat
  | [] => 0
  | b :: bs => (if b then 1 else 0) + 2 * packBits bs

/-- Little-endian bytes of a value (R8). -/
def leBytes : Nat → Nat → List Byte
  | 0, _ => []
  | n + 1, v => BitVec.ofNat 8 v :: leBytes n (v / 256)

/-- The value of little-endian bytes (R8). -/
def leValue : List Byte → Nat
  | [] => 0
  | b :: bs => b.toNat + 256 * leValue bs

/-- Words of a value, least significant first (R7). -/
def leWords : Nat → Nat → List Word
  | 0, _ => []
  | n + 1, v => BitVec.ofNat 16 v :: leWords n (v / 65536)

/-- The value of words, least significant first (R7). -/
def leWordsValue : List Word → Nat
  | [] => 0
  | w :: ws => w.toNat + 65536 * leWordsValue ws

/-- Bytes of words, each little-endian. -/
def wordBytes (ws : List Word) : List Byte := ws.flatMap (fun w => leBytes 2 w.toNat)

/-- A 32-bit report item (R818). -/
def w32 (v : Nat) : List Byte := leBytes 4 v

/-- A 64-bit report item (R818). -/
def w64 (v : Nat) : List Byte := leBytes 8 v

/-- A signed value as an n-byte two's complement number. -/
def leInt (n : Nat) (v : Int) : List Byte := leBytes n (v % (2 ^ (8 * n) : Nat)).toNat

/-- The signed value of an n-bit number. -/
def signed (n : Nat) (v : Nat) : Int := if bit v (n - 1) then (v : Int) - (2 ^ n : Nat) else v

/-- Clamp into an interval. -/
def clampInt (lo hi x : Int) : Int := if x < lo then lo else if x > hi then hi else x

/-- Rounded to nearest, ties away from zero, of num ÷ den with den positive. -/
def divRoundAway (num : Int) (den : Nat) : Int :=
  if num < 0 then -(((2 * num.natAbs + den) / (2 * den) : Nat) : Int) else (((2 * num.natAbs + den) / (2 * den) : Nat) : Int)

/-- A report bitmap over a resource (R818). -/
def bitmap (words : Nat) (held : List Bool) : List Byte :=
  leBytes (4 * words) (packBits held)

/-- Insert into a rising list of numbers, without repeats. -/
def insertNat (x : Nat) : List Nat → List Nat
  | [] => [x]
  | y :: ys => if x < y then x :: y :: ys else if x = y then y :: ys else y :: insertNat x ys

/-- Replace or add the value of a key in an association list kept in rising order of keys. -/
def assocSet {α : Type} (k : Nat) (v : α) : List (Nat × α) → List (Nat × α)
  | [] => [(k, v)]
  | (j, w) :: r => if k < j then (k, v) :: (j, w) :: r else if k = j then (k, v) :: r else (j, w) :: assocSet k v r

def assocGet? {α : Type} (k : Nat) (l : List (Nat × α)) : Option α := (l.find? (·.1 == k)).map (·.2)

def assocErase {α : Type} (k : Nat) (l : List (Nat × α)) : List (Nat × α) := l.filter (·.1 != k)

/-! ## Changes of one block of the device -/

def Dev.onClk (d : Dev) (f : Clock → Clock) : Dev := { d with clk := f d.clk }
def Dev.onPwr (d : Dev) (f : Pwr → Pwr) : Dev := { d with pwr := f d.pwr }
def Dev.onKeep (d : Dev) (f : Keep → Keep) : Dev := { d with keep := f d.keep }
def Dev.onFuse (d : Dev) (f : FusePort → FusePort) : Dev := { d with fuse := f d.fuse }
def Dev.onHost (d : Dev) (f : HostSide → HostSide) : Dev := { d with host := f d.host }
def Dev.onGrants (d : Dev) (f : Vector Grants 4 → Vector Grants 4) : Dev := { d with grants := f d.grants }
def Dev.onFe (d : Dev) (f : Vector Channel 24 → Vector Channel 24) : Dev := { d with fe := f d.fe }
def Dev.onTeds (d : Dev) (f : Teds → Teds) : Dev := { d with teds := f d.teds }
def Dev.onTachs (d : Dev) (f : Vector Tach 4 → Vector Tach 4) : Dev := { d with tachs := f d.tachs }
def Dev.onWr (d : Dev) (f : Wringer → Wringer) : Dev := { d with wr := f d.wr }
def Dev.onGuard (d : Dev) (f : Guard → Guard) : Dev := { d with guard := f d.guard }
def Dev.onRinse (d : Dev) (f : Rinse → Rinse) : Dev := { d with rinse := f d.rinse }
def Dev.onTiles (d : Dev) (f : Vector Tile 48 → Vector Tile 48) : Dev := { d with tiles := f d.tiles }
def Dev.onUpkeep (d : Dev) (f : Upkeep → Upkeep) : Dev := { d with upkeep := f d.upkeep }
def Dev.onHorizons (d : Dev) (f : Vector (Nat × Nat) 4 → Vector (Nat × Nat) 4) : Dev := { d with horizons := f d.horizons }
def Dev.onModels (d : Dev) (f : Vector (Option Model) 16 → Vector (Option Model) 16) : Dev := { d with models := f d.models }
def Dev.onSpool (d : Dev) (f : Spool → Spool) : Dev := { d with spool := f d.spool }
def Dev.onSram (d : Dev) (f : Sram → Sram) : Dev := { d with sram := f d.sram }
def Dev.onStore (d : Dev) (f : Store → Store) : Dev := { d with store := f d.store }
def Dev.onLink (d : Dev) (f : Link → Link) : Dev := { d with link := f d.link }
def Dev.onQspi (d : Dev) (f : List QspiRead → List QspiRead) : Dev := { d with qspi := f d.qspi }
def Dev.onFree (d : Dev) (f : Nat → Nat) : Dev := { d with free := f d.free }

/-- The instant of a step: commands arrive in order, so an operand before the last instant is read as that instant (log entry 5). -/
def Dev.tick (d : Dev) (t : Time) : Dev := { d with clk := { d.clk with now := max d.clk.now t } }

/-- A step that changes only the device. -/
def onDev (s : State) (t : Time) (f : Dev → Dev) : Host.Outcome State Fault Refusal :=
  .next { s with dev := f (s.dev.tick t) }

/-- Draw the number under which the next free value is asked for. -/
def Dev.draw (d : Dev) : Nat × Dev := (d.free, d.onFree (· + 1))

/-- Draw n numbers, of which this is the first. -/
def Dev.drawMany (d : Dev) (n : Nat) : Nat × Dev := (d.free, d.onFree (· + n))

end Sys2Proof.Machine
end

