-- ==== Sys2Proof/Machine/Fp16.lean ====
section
/-!
DEFINITION. FP16 (R18, R19): decoding, rounding to nearest with ties to even, and the functions of Table 09-10 computed to more than
100 bits before their one rounding. Finite values are whole numbers of 2^-24.
-/

namespace Sys2Proof.Machine

/-- A binary16 value; a finite one in units of 2^-24. -/
inductive Fp where
  | nan
  | inf (neg : Bool)
  | fin (v : Int)
  deriving DecidableEq, Repr

/-- Decode a binary16 word. -/
def fpOf (w : Nat) : Fp :=
  let e := w / 1024 % 32
  let m := w % 1024
  let neg := bit w 15
  if e = 31 then (if m = 0 then .inf neg else .nan)
  else
    let a : Nat := if e = 0 then m else (1024 + m) * 2 ^ (e - 1)
    .fin (if neg then -(a : Int) else a)

/-- Round a ratio of natural numbers to nearest, ties to even. -/
def divEven (num den : Nat) : Nat :=
  let q := num / max 1 den
  let r := num % max 1 den
  if 2 * r < den ∨ (2 * r = den ∧ q % 2 = 0) then q else q + 1

/-- The binary16 word nearest to num ÷ den, in units of 2^-24, ties to even; overflow gives infinity (R18, R19). -/
def fpRound (num : Int) (den : Nat) : Nat :=
  let a := num.natAbs
  let k := Nat.log2 (a / max 1 den) - 10
  let m := divEven a (den * 2 ^ k)
  min 0x7C00 (1024 * k + m) + if num < 0 then 0x8000 else 0

/-- The word of a value. -/
def fpWord : Fp → Nat
  | .nan => 0x7E00
  | .inf neg => if neg then 0xFC00 else 0x7C00
  | .fin v => fpRound v 1

/-- 65 504 in units of 2^-24. -/
def fpMax : Int := 65504 * 16777216

/-- Round, with infinity replaced by the largest finite value (saturating operations). -/
def fpRoundSat (num : Int) (den : Nat) : Nat :=
  let w := fpRound num den
  if w % 0x8000 = 0x7C00 then w / 0x8000 * 0x8000 + 0x7BFF else w

/-- An ordering key: larger means greater; NaN lies below everything. -/
def fpKey : Fp → Int
  | .nan => -2 ^ 60
  | .inf neg => if neg then -2 ^ 59 else 2 ^ 59
  | .fin v => v

/-! ## Functions -/

/-- ln 2 in units of 2^-160. -/
def ln2Fixed : Nat := 1013035739299659071135698605846798551586536899366

/-- The Taylor series of e^r for 0 ≤ r < 1, r in units of 2^-160: n further terms, `term` the last one. -/
def expSeries (r : Nat) : Nat → Nat → Nat → Nat → Nat
  | 0, _, _, sum => sum
  | n + 1, i, term, sum => let t := term * r / (2 ^ 160 * i); expSeries r n (i + 1) t (sum + t)

/-- e^x for x = num ÷ den, as a number of units of 2^-160 times 2^k. -/
def expFixed (num : Int) (den : Nat) : Nat × Int :=
  let x : Int := num * 2 ^ 160 / ((max 1 den : Nat) : Int)
  let k : Int := x / (ln2Fixed : Int)
  let r := (x % (ln2Fixed : Int)).toNat
  (expSeries r 40 1 (2 ^ 160) (2 ^ 160), k)

/-- e^x as a ratio numerator over 2^400; zero far below the smallest subnormal, and x is at most 64. -/
def expScaled (num : Int) (den : Nat) : Nat :=
  let e := expFixed num den
  if e.2 < -240 then 0 else e.1 * 2 ^ (240 + e.2).toNat

/-- 1 in the units of expScaled. -/
def expOne : Nat := 2 ^ 400

/-- Clamp the argument of a saturating function to ±40 in units of 2^-24. -/
def clampArg (v : Int) : Int := clampInt (-671088640) 671088640 v

/-- The value of an argument for SIGMOID and TANH; infinities act as their limits. -/
def fpArg : Fp → Int
  | .nan => 0
  | .inf neg => if neg then -671088640 else 671088640
  | .fin v => clampArg v

/-- SIGMOID: 1 ÷ (1 + e^−x). -/
def fpSigmoid (w : Nat) : Nat :=
  match fpOf w with
  | .nan => 0x7E00
  | f =>
    let e := expScaled (-(fpArg f)) 16777216
    fpRound ((expOne * 16777216 : Nat) : Int) (expOne + e)

/-- TANH: (1 − e^−2x) ÷ (1 + e^−2x). -/
def fpTanh (w : Nat) : Nat :=
  match fpOf w with
  | .nan => 0x7E00
  | f =>
    let v := clampInt (-335544320) 335544320 (fpArg f)
    let e := expScaled (-2 * v) 16777216
    fpRound (((expOne : Int) - e) * 16777216) (expOne + e)

/-- The largest value of a list of finite values. -/
def maxOf : List Int → Int
  | [] => 0
  | [x] => x
  | x :: xs => max x (maxOf xs)

/-- SOFTMAX of finite values in units of 2^-24: each exponential over their sum, rounded once. -/
def softmaxOf (vs : List Int) : List Nat :=
  let m := maxOf vs
  let es := vs.map (fun v => expScaled (v - m) 16777216)
  let sum := es.foldl (· + ·) 0
  es.map (fun e => fpRound ((e * 16777216 : Nat) : Int) sum)

/-- The integer square root, with n bits of the root. -/
def sqrtBits (x : Nat) : Nat → Nat → Nat
  | 0, r => r
  | n + 1, r => if (r + 2 ^ n) ^ 2 ≤ x then sqrtBits x n (r + 2 ^ n) else sqrtBits x n r

/-- num ÷ sqrt(vnum ÷ vden), where num is in units of 2^-24, rounded once to FP16. The root is taken to 160 bits. -/
def divSqrt (num : Int) (vnum vden : Nat) : Nat :=
  let root := sqrtBits (vnum * 2 ^ 240 / max 1 vden) 200 0
  fpRound (num * 2 ^ 120) (max 1 root)

/-- The FP16 value of a ratio of whole numbers. -/
def fpOfRatio (num : Int) (den : Nat) : Nat := fpRound (num * 16777216) den

end Sys2Proof.Machine
end

