-- ==== Sys2Proof/Machine/Crypto.lean ====
section
/-!
DEFINITION. The two CRCs of Table 00-6 and HMAC-SHA-256 (R20, R21, R407, Table 00-5).
-/

namespace Sys2Proof.Machine

/-! ## CRC -/

/-- Eight shifts of a reflected CRC register. -/
def crcShift (poly : BitVec 32) : Nat → BitVec 32 → BitVec 32
  | 0, r => r
  | n + 1, r => crcShift poly n (if r.getLsbD 0 then (r >>> 1) ^^^ poly else r >>> 1)

/-- A reflected CRC over bytes; the polynomial is given bit-reversed. -/
def crc (poly : BitVec 32) (bytes : List Byte) : BitVec 32 :=
  ~~~(bytes.foldl (fun r b => crcShift poly 8 (r ^^^ b.setWidth 32)) 0xFFFFFFFF)

/-- CRC-32 (Table 00-6). -/
def crc32 : List Byte → BitVec 32 := crc 0xEDB88320

/-- CRC-32C (Table 00-6). -/
def crc32c : List Byte → BitVec 32 := crc 0x82F63B78

/-! ## SHA-256 -/

/-- The 64 round constants. -/
def shaK : List (BitVec 32) :=
  [0x428a2f98, 0x71374491, 0xb5c0fbcf, 0xe9b5dba5, 0x3956c25b, 0x59f111f1, 0x923f82a4, 0xab1c5ed5] ++
  [0xd807aa98, 0x12835b01, 0x243185be, 0x550c7dc3, 0x72be5d74, 0x80deb1fe, 0x9bdc06a7, 0xc19bf174] ++
  [0xe49b69c1, 0xefbe4786, 0x0fc19dc6, 0x240ca1cc, 0x2de92c6f, 0x4a7484aa, 0x5cb0a9dc, 0x76f988da] ++
  [0x983e5152, 0xa831c66d, 0xb00327c8, 0xbf597fc7, 0xc6e00bf3, 0xd5a79147, 0x06ca6351, 0x14292967] ++
  [0x27b70a85, 0x2e1b2138, 0x4d2c6dfc, 0x53380d13, 0x650a7354, 0x766a0abb, 0x81c2c92e, 0x92722c85] ++
  [0xa2bfe8a1, 0xa81a664b, 0xc24b8b70, 0xc76c51a3, 0xd192e819, 0xd6990624, 0xf40e3585, 0x106aa070] ++
  [0x19a4c116, 0x1e376c08, 0x2748774c, 0x34b0bcb5, 0x391c0cb3, 0x4ed8aa4a, 0x5b9cca4f, 0x682e6ff3] ++
  [0x748f82ee, 0x78a5636f, 0x84c87814, 0x8cc70208, 0x90befffa, 0xa4506ceb, 0xbef9a3f7, 0xc67178f2]

/-- The initial hash value. -/
def shaInit : List (BitVec 32) :=
  [0x6a09e667, 0xbb67ae85, 0x3c6ef372, 0xa54ff53a, 0x510e527f, 0x9b05688c, 0x1f83d9ab, 0x5be0cd19]

/-- Big-endian bytes of a 32-bit word. -/
def beBytes (w : BitVec 32) : List Byte := (leBytes 4 w.toNat).reverse

/-- The big-endian words of a byte string. -/
def beWords : List Byte → List (BitVec 32)
  | a :: b :: c :: d :: r => BitVec.ofNat 32 (leValue [d, c, b, a]) :: beWords r
  | _ => []

/-- Extend the message schedule; the list holds the newest word first. -/
def shaExtend : Nat → List (BitVec 32) → List (BitVec 32)
  | 0, w => w
  | n + 1, w =>
    let x := w.getD 14 0
    let y := w.getD 1 0
    let s0 := x.rotateRight 7 ^^^ x.rotateRight 18 ^^^ x >>> 3
    let s1 := y.rotateRight 17 ^^^ y.rotateRight 19 ^^^ y >>> 10
    shaExtend n ((w.getD 15 0 + s0 + w.getD 6 0 + s1) :: w)

/-- The 64 rounds over the working variables a to h. -/
def shaRounds : List (BitVec 32 × BitVec 32) → List (BitVec 32) → List (BitVec 32)
  | [], v => v
  | (k, w) :: r, v =>
    match v with
    | [a, b, c, d, e, f, g, h] =>
      let s1 := e.rotateRight 6 ^^^ e.rotateRight 11 ^^^ e.rotateRight 25
      let ch := (e &&& f) ^^^ (~~~e &&& g)
      let t1 := h + s1 + ch + k + w
      let s0 := a.rotateRight 2 ^^^ a.rotateRight 13 ^^^ a.rotateRight 22
      let maj := (a &&& b) ^^^ (a &&& c) ^^^ (b &&& c)
      shaRounds r [t1 + s0 + maj, a, b, c, d + t1, e, f, g]
    | _ => v

/-- One 64-byte block. -/
def shaBlock (h : List (BitVec 32)) (block : List Byte) : List (BitVec 32) :=
  let w := (shaExtend 48 (beWords block).reverse).reverse
  List.zipWith (· + ·) h (shaRounds (shaK.zip w) h)

/-- The blocks of a padded message, n at most. -/
def shaBlocks : Nat → List (BitVec 32) → List Byte → List (BitVec 32)
  | 0, h, _ => h
  | n + 1, h, m => if m.isEmpty then h else shaBlocks n (shaBlock h (m.take 64)) (m.drop 64)

/-- SHA-256. -/
def sha256 (m : List Byte) : List Byte :=
  let zeros := (119 - m.length % 64) % 64
  let padded := m ++ [0x80] ++ List.replicate zeros 0 ++ (leBytes 8 (8 * m.length)).reverse
  (shaBlocks (padded.length / 64) shaInit padded).flatMap beBytes

/-- HMAC-SHA-256 with a 256-bit key, whose bytes are least significant first (R8). -/
def hmacSha256 (key : BitVec 256) (m : List Byte) : List Byte :=
  let k := leBytes 32 key.toNat ++ List.replicate 32 0
  sha256 (k.map (· ^^^ 0x5c) ++ sha256 (k.map (· ^^^ 0x36) ++ m))

end Sys2Proof.Machine
end

