-- ==== Sys2Proof/Config.lean ====
section
/-!
DEFINITION. The free values: what the spec leaves open. Each is a constant without a body, applied to the counter Dev.free or to the
operands it depends on; no proof can learn a value of it (log entry 1).
-/

namespace Sys2Proof.Config

/-- Rounding of a calibration coefficient that is not a whole LSB: up when true (R90 to R92 state no rounding; log entry 10). -/
opaque calRoundUp : Nat → Bool

/-- Where in 99.5 % to 100.5 % of full scale the overload detector of a channel position lies, in 0.01 % modulo 101 (chapter 02; log entry 10). -/
opaque overloadLimit : Nat → Nat

/-- The edge interval that the PLL predicts after an accepted edge, from the effective bandwidth in 2^-32 Hz, the interval it
predicted and the one it accepted: the loop equations are not stated (log entry 11). -/
opaque pllPredict : Nat → Nat → Nat → Nat → Nat

/-- How far the PLL's angle lies behind an accepted edge, in 2^-32 edge, from the same: the loop is of type 2 and lags in acceleration, and its
equations are not stated (log entry 11). -/
opaque pllLag : Nat → Nat → Nat → Nat → Int

/-- The shaft rate that TACH_STATUS reports in ANGLE_LOST, where R131 states none (log entry 11). -/
opaque lostRate : Nat → Nat

/-- Which of the TDC codes within 0.6 tau of the driven pulse is read for a feature (R161; log entry 12). -/
opaque tdcChoice : Nat → Nat → Nat

/-- The SAMPLE edge that captures a SYNC pin edge whose delayed instant lies near an edge: the next one when true (R934, R935; log
entry 13). -/
opaque syncNext : Nat → Bool

/-- Rounding of a peak or envelope value that is not a whole number of code units: up when true (R256; log entry 14). -/
opaque detectorUp : Nat → Bool

/-- The trigger index that RN_STATUS reports before any trigger (R264; log entry 14). -/
opaque noTrigger : Nat → Nat

/-- The cycles that EV_FIRE_DONE reports of a one-shot (R222; log entry 15). -/
opaque oneShotCycles : Nat → Nat

/-- The deviation of one conversion from R299 or R308, modulo 3 less 1 (R924; log entry 16): of a draw and a converter. -/
opaque convError : Nat → Nat → Nat

/-- Which of the lines of a full set an operand cache evicts, as an index modulo their number: no replacement rule is stated (log entry
17). -/
opaque cacheVictim : Nat → Nat

/-- The model handle and descriptor index that VE_STATUS reports of an idle engine: R497 states no coding of idle (log entry 17). -/
opaque idleWord : Nat → Nat

/-- The code of the last inspection result that PR_STATUS reports, from what came of it: its values are not stated (log entry 18). -/
opaque inspectionResult : Nat → Nat

/-- The time until the next inspection that PR_STATUS reports when none is scheduled (log entry 18). -/
opaque noInspection : Nat → Nat

/-- A figure of the fitting check that MD_CHECK returns of a check that was refused before it was computed (R440; log entry 19). -/
opaque noFigure : Nat → Nat

/-- The learning state that MD_STATUS reports of a model without a learning section (log entry 19). -/
opaque noLearnState : Nat → Nat

/-- A result element of a vector operation for which no value is stated, from a draw and the element's number (log entry 20). -/
opaque vectorValue : Nat → Nat → Nat

/-- What LN_STATUS reports where R569 states no coding: no pending label, no current window, or a model without a learning section (log
entry 21). -/
opaque learnItem : Nat → Nat

/-- One of the eight hop delays of LK_STATUS, which Table 16-3 does not assign to ports, from its number and the delays of the two UP ports
in 0.0625 ns (log entry 25). -/
opaque hopItem : Nat → Nat → Nat → Nat

/-- The delay of a lane of which R661 has accepted no measurement, in 1/768 ns (log entry 26). -/
opaque noHopDelay : Nat → Int

/-- The residence time of a forwarded STARTUP, and the TURNAROUND of an answer to a DELAY_REQ, in 0.0625 ns: measured, not stated (R651,
R663; log entry 26). -/
opaque residence : Nat → Nat
opaque turnaround : Nat → Nat

/-- Does an element of the hem fuse read blown after a reset that cut its blow short (R900; log entry 28): of a draw and the element? -/
opaque fuseAtReset : Nat → Nat → Bool

end Sys2Proof.Config
end

