-- ==== Sys2Proof/Machine/Codes.lean ====
section
/-!
DEFINITION. The error codes of Table 16-15 and the event codes of Table 16-16.
-/

namespace Sys2Proof.Machine

/-- Table 16-15. -/
inductive Err where
  | ok | busy | argRange | argZero | noSuch | state | stagedConflict | quota | dateInvalid | calDirty | synthBusy | patchWrite
  | fused | runLate
  | fitImage | fitVersion | fitAuth | fitShape | fitFormat | fitTiles | fitSram | fitTags | fitTime | fitEndurance | fitBinding
  | linkState | slotTaken | tileBusy | tileWorn
  deriving DecidableEq, Repr

/-- Table 16-15. -/
def Err.code : Err → Word
  | .ok => 0x0000 | .busy => 0x0001 | .argRange => 0x0002 | .argZero => 0x0003 | .noSuch => 0x0004 | .state => 0x0005
  | .stagedConflict => 0x0006 | .quota => 0x0007 | .dateInvalid => 0x0008 | .calDirty => 0x0009 | .synthBusy => 0x000A
  | .patchWrite => 0x000B | .fused => 0x000C | .runLate => 0x000D
  | .fitImage => 0x0101 | .fitVersion => 0x0102 | .fitAuth => 0x0103 | .fitShape => 0x0104 | .fitFormat => 0x0105
  | .fitTiles => 0x0106 | .fitSram => 0x0107 | .fitTags => 0x0108 | .fitTime => 0x0109 | .fitEndurance => 0x010A
  | .fitBinding => 0x010B | .linkState => 0x0201 | .slotTaken => 0x0202 | .tileBusy => 0x0301 | .tileWorn => 0x0302

/-- Table 16-16. -/
inductive Event where
  | frameEnd | runEnd | runMissed | loadDone | commitApplied | overload | tedsArrive | tedsLeave | tedsBad | flood | indexBad
  | freewheel | angleLost | angleLock | thimble | trip | synthLock | fireDone | rinseConflict | ringDone | winDone | seamFail
  | pairFailed | tileRetired | tileMismatch | inspectDone | pressDone | overcount | vddp | reloadBad | commissionDone
  | learnFreeze | learnRelease | learnAdopt | learnMismatch | patchDone | patchAnomaly | patchWrite | storeWorn | linkState
  | timeSource | rootChange | timeBase | guard | branchCut | ringBreak | ringRepair | notice | partner | claimDone | claimLost
  | claimRevert | powerState | calAlarm | fuse
  deriving DecidableEq, Repr

/-- Table 16-16. -/
def Event.code : Event → Byte
  | .frameEnd => 0x01 | .runEnd => 0x02 | .runMissed => 0x03 | .loadDone => 0x04 | .commitApplied => 0x05
  | .overload => 0x10 | .tedsArrive => 0x11 | .tedsLeave => 0x12 | .tedsBad => 0x13 | .flood => 0x14 | .indexBad => 0x15
  | .freewheel => 0x16 | .angleLost => 0x17 | .angleLock => 0x18 | .thimble => 0x20 | .trip => 0x21 | .synthLock => 0x22
  | .fireDone => 0x23 | .rinseConflict => 0x28 | .ringDone => 0x29 | .winDone => 0x2A | .seamFail => 0x30 | .pairFailed => 0x31
  | .tileRetired => 0x32 | .tileMismatch => 0x33 | .inspectDone => 0x34 | .pressDone => 0x35 | .overcount => 0x36
  | .vddp => 0x37 | .reloadBad => 0x38 | .commissionDone => 0x40 | .learnFreeze => 0x41 | .learnRelease => 0x42
  | .learnAdopt => 0x43 | .learnMismatch => 0x44 | .patchDone => 0x45 | .patchAnomaly => 0x46 | .patchWrite => 0x47
  | .storeWorn => 0x48 | .linkState => 0x50 | .timeSource => 0x51 | .rootChange => 0x52 | .timeBase => 0x53 | .guard => 0x54
  | .branchCut => 0x55 | .ringBreak => 0x56 | .ringRepair => 0x57 | .notice => 0x58 | .partner => 0x59 | .claimDone => 0x5A
  | .claimLost => 0x5B | .claimRevert => 0x5C | .powerState => 0x60 | .calAlarm => 0x61 | .fuse => 0x62

/-- What an event record says beside its code and timestamp (Table 15-10). -/
structure Ev where
  event : Event
  subject : Nat := 0
  data0 : Nat := 0
  data1 : Nat := 0
  tag : Byte := 0
  deriving DecidableEq, Repr

end Sys2Proof.Machine
end

