-- ==== Sys2Proof/Machine/Flags.lean ====
section
/-!
DEFINITION. The interrupt bits of Table 15-5 and the quality flags that travel with values: sample words (Table 02-3), Rinse
outputs (Table 06-4), band records and run flags (R36, Table 10-4).
-/

namespace Sys2Proof.Machine

/-- IRQ_PENDING bits 1 to 12 (Table 15-5); bit 0, EVT, follows EVT_COUNT. -/
inductive Irq where
  | evtLost | cmdDone | frame | runEnd | trip | thimble | overload | win0Done | win1Done | link | power | violation
  deriving DecidableEq, Repr

/-- Table 15-5. -/
def Irq.bit : Irq → Fin 13
  | .evtLost => 1 | .cmdDone => 2 | .frame => 3 | .runEnd => 4 | .trip => 5 | .thimble => 6 | .overload => 7 | .win0Done => 8
  | .win1Done => 9 | .link => 10 | .power => 11 | .violation => 12

/-- Bit values of a sample word (Table 02-3). -/
def sampleTainted : Nat := 1
def sampleSettling : Nat := 2
def sampleOverload : Nat := 4
def sampleCalActive : Nat := 8

/-- Band record flags: TRUNCATED is bit 4, then FREEWHEEL, CLIP, SETTLING, and TAINTED bit 0 (Table 04-1). -/
def bandFlags (truncated freewheel clip settling tainted : Bool) : BitVec 5 :=
  BitVec.ofNat 5 (packBits [tainted, settling, clip, freewheel, truncated])

/-- Does a time window meet the window [start, stop) (R46)? -/
def Win.meets (w : Win) (start stop : Time) : Bool :=
  decide (w.start < stop) && (match w.stop with | none => true | some e => decide (start < e))

/-- Does a time window contain an instant (R46)? -/
def Win.has (w : Win) (t : Time) : Bool :=
  decide (w.start ≤ t) && (match w.stop with | none => true | some e => decide (t < e))

end Sys2Proof.Machine
end

