-- ==== Sys2Proof/Machine/Memory.lean ====
section
/-!
DEFINITION. The SRAM (R452 to R461): cells in canonical form, written bits, what a basket may read and write, and the
coherence of writes by agents without a cache (Table 10-5).
-/

namespace Sys2Proof.Machine

/-- Bytes of the SRAM (R452). -/
def sramSize : Nat := 0x1800000

/-- The granule of an address (R453). -/
def granule (a : Nat) : Nat := a / 4096

/-- The unit of an address (R453). -/
def unitOf (a : Nat) : Nat := a / 65536

/-- The byte listed for an address, 0 when none is. -/
def cellsGet : List Host.Cell → Nat → Byte
  | [], _ => 0
  | (k, v) :: r, a => if k = a then v else cellsGet r a

/-- Insert a cell before the first one of a higher address. -/
def cellsInsert : List Host.Cell → Nat → Byte → List Host.Cell
  | [], a, v => [(a, v)]
  | (k, w) :: r, a, v => if a < k then (a, v) :: (k, w) :: r else (k, w) :: cellsInsert r a v

/-- Store a byte, keeping addresses rising and zero bytes unlisted. -/
def cellsSet (l : List Host.Cell) (a : Nat) (v : Byte) : List Host.Cell :=
  let rest := l.filter (fun c => c.1 != a)
  if v = 0 then rest else cellsInsert rest a v

/-- The byte an agent reads at an address (R456, R457). -/
def Sram.get (m : Sram) (a : Nat) : Byte := if m.written.contains (granule a) then cellsGet m.cells a else 0

/-- The first write to a granule fills it with zeros and sets its written bit (R456). -/
def Sram.touch (m : Sram) (a : Nat) : Sram :=
  if m.written.contains (granule a) then m
  else { cells := m.cells.filter (fun c => granule c.1 != granule a), written := insertNat (granule a) m.written }

/-- Store one byte; an address outside the SRAM stores nothing. -/
def Sram.set (m : Sram) (a : Nat) (v : Byte) : Sram :=
  if a < sramSize then { m.touch a with cells := cellsSet (m.touch a).cells a v } else m

/-- Store consecutive bytes. -/
def Sram.setBytes (m : Sram) (a : Nat) : List Byte → Sram
  | [] => m
  | v :: vs => (m.set a v).setBytes (a + 1) vs

/-- Read n consecutive bytes. -/
def Sram.bytes (m : Sram) (a : Nat) : Nat → List Byte
  | 0 => []
  | n + 1 => m.get a :: m.bytes (a + 1) n

/-- Read n consecutive bytes as a little-endian number. -/
def Sram.value (m : Sram) (a n : Nat) : Nat := leValue (m.bytes a n)

/-- Clear the written bits of units [first, first + count) (R460). -/
def Sram.clearUnits (m : Sram) (first count : Nat) : Sram :=
  { m with written := m.written.filter (fun g => g / 16 < first || first + count ≤ g / 16) }

/-- What reset does to the SRAM (R506, Table 17-1): the written bits clear, the data stay. -/
def Sram.reset (m : Sram) : Sram := { m with written := [] }

/-- Keys strictly rising from a bound. -/
def risingFrom : Nat → List Nat → Bool
  | _, [] => true
  | lo, k :: r => decide (lo ≤ k) && risingFrom (k + 1) r

/-- The canonical form: addresses strictly rising inside the SRAM, no listed byte zero, granule numbers strictly rising and
inside the SRAM. -/
def Sram.wf (m : Sram) : Bool :=
  risingFrom 0 (m.cells.map (·.1)) && m.cells.all (fun c => decide (c.1 < sramSize) && c.2 != 0) &&
    risingFrom 0 m.written && m.written.all (fun g => decide (g < 6144))

/-- Does the hold of the line's owner last beyond an instant (R499)? 16 CORE cycles are 15 360 units. -/
def Line.held (l : Line) (now : Time) : Bool := match l.state with | .owned _ since => decide (now < since + 15360) | _ => false

/-- A line after a write by an agent without a cache: where its owner's hold has not ended the line waits for that; else every copy is
invalidated, the owner's written back; requests that wait are served when the write-back completes (Table 10-5, R499, R502; log entry 49). -/
def Line.invalidated (l : Line) (now : Time) : Option Line :=
  if l.held now then some { l with purge := true }
  else if l.waiting.isEmpty then none
  else some { l with state := .uncached, writeback := true, writeFrom := now, keepShared := false, purge := false }

/-- A write by an agent without a cache invalidates every cached copy of the lines it touches (Table 10-5). -/
def Spool.invalidate (p : Spool) (now : Time) (a n : Nat) : Spool :=
  { p with lines := p.lines.filterMap (fun l => if l.line < a / 64 ∨ a + n ≤ l.line * 64 then some l else l.invalidated now) }

/-- A write by an agent without a cache. -/
def Dev.memWrite (d : Dev) (a : Nat) (vs : List Byte) : Dev :=
  (d.onSram (fun s => s.setBytes a vs)).onSpool (fun _ => d.spool.invalidate d.clk.now a vs.length)

/-- A write by an engine's operand cache; the lines are its own (R498). -/
def Dev.memEngine (d : Dev) (a : Nat) (vs : List Byte) : Dev := d.onSram (fun s => s.setBytes a vs)

/-- Does the basket hold the unit? -/
def Grants.unit (g : Grants) (u : Nat) : Bool := at? g.units u false

/-- Does the byte range lie whole in the basket's SRAM grant (R812)? An empty range is judged by its address. -/
def Grants.range (g : Grants) (a n : Nat) : Bool :=
  decide (a + n ≤ sramSize) && decide (a < sramSize) &&
    (List.range ((a + (n - 1)) / 65536 - a / 65536 + 1)).all (fun i => g.unit (a / 65536 + i))

/-- What a basket's read of an address finds. -/
inductive ReadRight where
  /-- memory, inside the grant or listed by Table 14-2 -/
  | data
  /-- a reserved or unused byte of the system region: zero, and no violation -/
  | zero
  /-- a violation (R730) -/
  | violation
  deriving DecidableEq, Repr

/-- Does the handle name a model of the basket? -/
def Dev.ownsHandle (d : Dev) (b : Basket) (h : Nat) : Bool :=
  match at? d.models h none with
  | none => false
  | some m => m.basket == b

/-- Reads of the system region (Table 14-2, Table 10-1, R464, R466, R467). -/
def Dev.systemRead (d : Dev) (b : Basket) (a : Nat) : ReadRight :=
  let g := d.grants[b]
  let grant (held : Bool) : ReadRight := if held then .data else .violation
  if a < 0x2000 then
    let o := a % 0x1000
    if o < 0x800 then grant (at? g.features (o / 4) false) else if o < 0x818 then .data else .zero
  else if a < 0x2800 then
    let o := (a - 0x2000) % 0x400
    if o < 0x300 then grant (at? g.channels (o / 32) false) else if o < 0x308 then .data else .zero
  else if a < 0x10000 then .zero
  else if a < 0x50000 then
    let n := (a - 0x10000) % 0x20000 / 0x200
    if n = 255 ∨ 0x10C ≤ a % 0x200 then .zero else grant (at? g.slots n false)
  else if a < 0x70000 then grant (d.ownsHandle b ((a - 0x50000) / 0x2000))
  else if a < 0x74000 then grant (d.ownsHandle b ((a - 0x70000) / 0x400))
  else if a < 0x78000 then grant (d.ownsHandle b ((a - 0x74000) / 0x400))
  else .zero

/-- A basket's window read of an address (R728, R730). -/
def Dev.readRight (d : Dev) (b : Basket) (a : Nat) : ReadRight :=
  if a < 0x80000 then d.systemRead b a else if d.grants[b].unit (unitOf a) then .data else .violation

/-- A basket's window write of an address: `none` allowed, else the kind of its violation (R463, R729, R730, Table 14-3). -/
def Dev.writeViolation (d : Dev) (b : Basket) (a : Nat) : Option (BitVec 4) :=
  if a < 0x80000 then
    (if 0x74000 ≤ a ∧ a < 0x78000 ∧ d.ownsHandle b ((a - 0x74000) / 0x400) then none else some 3)
  else if d.grants[b].unit (unitOf a) then none else some 2

/-- Does a read of this address by a basket count under R458? -/
def Dev.uninit (d : Dev) (a : Nat) : Bool := decide (0x80000 ≤ a) && !d.sram.written.contains (granule a)

/-- Is the line of an address owned by an engine whose hold has not ended (R499)? -/
def Spool.held (p : Spool) (a : Nat) (now : Time) : Bool := p.lines.any (fun l => l.line == a / 64 && l.held now)

/-- The granules in the basket's grant whose written bit is set (R461). -/
def Dev.writtenGranules (d : Dev) (b : Basket) : Nat :=
  (d.sram.written.filter (fun g => decide (128 ≤ g) && d.grants[b].unit (g / 16))).length

end Sys2Proof.Machine
end

