-- ==== Sys2Proof/Machine/Operands.lean ====
section
/-!
DEFINITION. The operands of a command (R774): its arguments and who issued it, and the resources it may name (R738, R739).
-/

namespace Sys2Proof.Machine

/-- A command under judgement: the identity of the device, whether its hem fuse reads BLOWN, the issuing basket, the arguments
and tag copied at its apply edge, and whether it is an entry of a boot record (R854). -/
structure Ctx where
  chip : Chip
  blown : Bool
  b : Basket
  args : Vector Word 8
  tag : Byte
  boot : Bool
  deriving DecidableEq, Repr

/-- ARGn. -/
def Ctx.arg (x : Ctx) (n : Fin 8) : Nat := (x.args[n]).toNat

/-- ARGn:n+1 (R7). -/
def Ctx.arg32 (x : Ctx) (n : Nat) : Nat := (at? x.args n 0).toNat + 65536 * (at? x.args (n + 1) 0).toNat

/-- ARGn:n+3 (R7). -/
def Ctx.arg64 (x : Ctx) (n : Nat) : Nat := x.arg32 n + 2 ^ 32 * x.arg32 (n + 2)

/-- Bit i of ARGn. -/
def Ctx.argBit (x : Ctx) (n : Fin 8) (i : Nat) : Bool := bit (x.arg n) i

/-- The grants in force of the issuing basket (R724). -/
def Ctx.grants (x : Ctx) (d : Dev) : Grants := d.grants[x.b]

/-- Resources named by number: true when it exists and the basket holds it (R738, R739). -/
def Ctx.tile (x : Ctx) (d : Dev) (n : Nat) : Bool := at? (x.grants d).tiles n false
def Ctx.output (x : Ctx) (d : Dev) (n : Nat) : Bool := at? (x.grants d).outputs n false
def Ctx.comparator (x : Ctx) (d : Dev) (n : Nat) : Bool := at? (x.grants d).comparators n false
def Ctx.channel (x : Ctx) (d : Dev) (n : Nat) : Bool := at? (x.grants d).channels n false
def Ctx.feature (x : Ctx) (d : Dev) (n : Nat) : Bool := at? (x.grants d).features n false
def Ctx.tach (x : Ctx) (d : Dev) (n : Nat) : Bool := at? (x.grants d).tachs n false
def Ctx.slot (x : Ctx) (d : Dev) (n : Nat) : Bool := at? (x.grants d).slots n false
def Ctx.handle (x : Ctx) (d : Dev) (n : Nat) : Bool := d.ownsHandle x.b n

/-- Every output of a mask exists and is held. -/
def Ctx.outputs (x : Ctx) (d : Dev) (mask : Nat) : Bool :=
  decide (mask < 256) && (List.range 8).all (fun i => !bit mask i || x.output d i)

/-- A byte range named as an argument lies in the basket's grant (R812). -/
def Ctx.memory (x : Ctx) (d : Dev) (a n : Nat) : Bool := (x.grants d).range a n

/-- The report address ARG6:7 (R817). -/
def Ctx.report (x : Ctx) : Nat := x.arg32 6

end Sys2Proof.Machine
end

