-- ==== Sys2Proof/Machine/Ops.lean ====
section
/-!
DEFINITION. The named operations shared by all families: timestamps, event records and interrupt bits, violations, the
judgement and completion of commands, and report blocks.
-/

namespace Sys2Proof.Machine

/-! ## Timestamps -/

/-- A rate correction in 0.001 ppm as a multiple of 10^-9. -/
def rated (rate : Int) : Nat := (1000000000 + rate).toNat

/-- How long n nominal units last, rounded up, on a clock that runs at 1 + rate (R656, R676). -/
def stretched (rate : Int) (n : Nat) : Time := (n * 1000000000 + (rated rate - 1)) / max 1 (rated rate)

/-- The nominal units that a clock running at 1 + rate counts in a time. -/
def counted (rate : Int) (t : Time) : Nat := t * rated rate / 1000000000

/-- The timestamp of an instant in ns (R13, R15, R657, R671 to R673); it stands still under a CLOCK fault (R41). An instant before the last change of
base is counted in the base that held then. -/
def Clock.ns (c : Clock) (t : Time) : Nat :=
  let t := match c.frozen with | none => t | some f => min t f
  match c.net with
  | none => max c.hold ((t - c.origin) / 768)
  | some n =>
    if t < c.netAt then c.hold - (c.netAt - t) / 768
    else max c.hold (match c.slew with
      | none => n + counted c.rate (t - c.netAt) / 768
      | some (stop, count) =>
        if t < stop then n + (t - c.netAt) * (count - n) / max 1 (stop - c.netAt) else count + counted c.rate (t - stop) / 768)

/-- The instant of SAMPLE edge number n (Table 01-3, R676). -/
def Clock.edgeTime (c : Clock) (n : Nat) : Time :=
  if c.edgeNo ≤ n then c.edgeAt + stretched c.edgeRate ((n - c.edgeNo) * 15625)
  else c.edgeAt - (c.edgeNo - n) * 15625 * 1000000000 / max 1 (rated c.edgeRate)

/-- The number of the first SAMPLE edge at or after an instant. -/
def Clock.edgeFrom (c : Clock) (t : Time) : Nat :=
  if c.edgeAt ≤ t then
    let n := c.edgeNo + counted c.edgeRate (t - c.edgeAt) / 15625
    if c.edgeTime n = t then n else n + 1
  else c.edgeNo - counted c.edgeRate (c.edgeAt - t) / 15625

/-- How long n SAMPLE periods last (R676). -/
def Dev.periods (d : Dev) (n : Nat) : Time := stretched d.clk.edgeRate (n * 15625)

/-- The instant of now. -/
def Dev.now (d : Dev) : Time := d.clk.now

/-- The n-th SAMPLE edge at or after an instant, counted from 0 (log entry 5). -/
def Dev.sampleEdge (d : Dev) (t : Time) (n : Nat) : Time := d.clk.edgeTime (d.clk.edgeFrom t + n)

/-- The timestamp of an instant as the SAMPLE domain captures it: at the first SAMPLE edge at or after it (R14). -/
def Dev.stampAt (d : Dev) (t : Time) : BitVec 64 := BitVec.ofNat 64 (d.clk.ns (d.sampleEdge t 0))

/-- The timestamp of now. -/
def Dev.stamp (d : Dev) : BitVec 64 := d.stampAt d.clk.now

/-- The timestamp of now as the LINK domain captures it, whose edges fall every 10 ns (R14). -/
def Dev.linkStamp (d : Dev) : BitVec 64 :=
  BitVec.ofNat 64 (d.clk.ns (d.clk.origin + (d.clk.now - d.clk.origin + 7679) / 7680 * 7680))

/-- Is this instant a SAMPLE edge? -/
def Dev.onEdge (d : Dev) : Bool := d.sampleEdge d.now 0 == d.now

/-- The instant of now moves on to the SAMPLE edge that captures it. -/
def Dev.toEdge (d : Dev) : Dev := d.tick (d.sampleEdge d.clk.now 0)

/-- The capture of a KEEP event: the second SAMPLE edge after its KEEP edge (R14). -/
def Dev.keepStamp (d : Dev) (t : Time) : BitVec 64 := d.stampAt (d.sampleEdge (t + 1) 1)

/-- Nanoseconds, microseconds, milliseconds and seconds in units of 1/768 ns. -/
def ns (n : Nat) : Time := n * 768
def us (n : Nat) : Time := n * 768000
def ms (n : Nat) : Time := n * 768000000
def sec (n : Nat) : Time := n * 768000000000

/-- An enabled wake source occurs in WATCH, or while a request for it is pending (R876, R877). -/
def Dev.wakeBy (d : Dev) (source : Fin 3) : Dev :=
  if (d.pwr.state == .watch || d.pwr.watchRequest) && d.pwr.wakeMask.getLsbD source.val then
    d.onPwr (fun p => { p with wakes := d.pwr.wakes ||| BitVec.ofNat 3 (2 ^ source.val) })
  else d

/-! ## Interrupt bits and event records -/

/-- Set an IRQ_PENDING bit at an instant. -/
def Page.raise (p : Page) (i : Irq) (t : Time) : Page :=
  { p with irqPending := p.irqPending.set i.bit true, irqSetAt := p.irqSetAt.set i.bit t }

/-- A record reaches one basket's FIFO (R796, R797, R720). -/
def Page.take (p : Page) (enabled : Bool) (t : Time) (stamp : BitVec 64) (e : Ev) : Page :=
  let r : Record :=
    { code := e.event.code, seq := (p.posted + 1).setWidth 8, subject := BitVec.ofNat 8 e.subject, tag := e.tag, stamp := stamp,
      data0 := BitVec.ofNat 16 e.data0, data1 := BitVec.ofNat 16 e.data1 }
  if enabled && decide (p.fifo.length < 256) then { p with posted := p.posted + 1, fifo := p.fifo ++ [r] }
  else { p with posted := p.posted + 1, lost := p.lost + 1 }.raise .evtLost t

/-- Change the page of one basket. -/
def Dev.onPage (d : Dev) (b : Basket) (f : Page → Page) : Dev :=
  d.onHost (fun h => { h with pages := upd d.host.pages b f })

/-- Change every page whose basket is chosen. -/
def Dev.onPages (d : Dev) (to_ : Nat → Bool) (f : Nat → Page → Page) : Dev :=
  d.onHost (fun h => { h with pages := vmap d.host.pages (fun i p => if to_ i then f i p else p) })

/-- Is a basket enabled (R719)? -/
def Dev.enabled (d : Dev) (b : Nat) : Bool := at? d.host.enable b false

/-- Post a record to every basket chosen, each with its own SEQ. -/
def Dev.post (d : Dev) (to_ : Nat → Bool) (stamp : BitVec 64) (e : Ev) : Dev :=
  d.onPages to_ (fun i p => p.take (d.enabled i) d.now stamp e)

/-- Set an interrupt bit on every page chosen. -/
def Dev.raise (d : Dev) (to_ : Nat → Bool) (i : Irq) : Dev := d.onPages to_ (fun _ p => p.raise i d.now)

/-- Table 14-4: an event about a model or its run. -/
def toBasket (b : Basket) : Nat → Bool := fun i => i == b.val

/-- Table 14-4: an event about a resource goes to its holders and basket 0. -/
def Dev.holders (d : Dev) (held : Grants → Bool) : Nat → Bool :=
  fun i => i == 0 || (match d.grants.toList[i]? with | none => false | some g => held g)

/-- The baskets that hold a resource, basket 0 only when it holds it. -/
def Dev.holdersOnly (d : Dev) (held : Grants → Bool) : Nat → Bool :=
  fun i => match d.grants.toList[i]? with | none => false | some g => held g

/-- Table 14-4: an event about the device as a whole goes to every enabled basket. -/
def Dev.everyEnabled (d : Dev) : Nat → Bool := fun i => d.enabled i

/-- Every basket: IRQ_PENDING bits set on disabled baskets too (R720). -/
def everyBasket : Nat → Bool := fun _ => true

/-- Post an event about the device as a whole, stamped now. -/
def Dev.postAll (d : Dev) (e : Ev) : Dev := d.post d.everyEnabled d.stamp e

/-- Post an event about a resource, stamped now. -/
def Dev.postHeld (d : Dev) (held : Grants → Bool) (e : Ev) : Dev := d.post (d.holders held) d.stamp e

/-- Post an event about a basket's model, stamped now. -/
def Dev.postTo (d : Dev) (b : Basket) (e : Ev) : Dev := d.post (toBasket b) d.stamp e

/-! ## Violations -/

/-- May a violation extend this log entry (R737)? -/
def Violation.extends (v : Violation) (b : Basket) (kind : BitVec 4) (addr : Nat) : Bool :=
  v.basket == b && v.kind == kind && decide (kind.toNat ≤ 3) && v.last + 2 == addr

/-- Enter a violation in the log (R736, R737). -/
def HostSide.logViolation (h : HostSide) (stamp : BitVec 64) (b : Basket) (kind : BitVec 4) (addr : Nat) : HostSide :=
  let new : Violation := { stamp := stamp, basket := b, kind := kind, address := BitVec.ofNat 32 addr, count := 1, last := addr }
  match h.violLog.getLast? with
  | some v =>
    if v.extends b kind addr then
      { h with violLog := h.violLog.dropLast ++ [{ v with count := min 65535 (v.count + 1), last := addr }] }
    else if h.violLog.length < 32 then { h with violLog := h.violLog ++ [new] }
    else { h with violLog := h.violLog.drop 1 ++ [new], violOverwrites := h.violOverwrites + 1 }
  | none => { h with violLog := [new] }

/-- One violation (R730 to R736): counted, logged, and shown to basket 0 when another basket made it. -/
def Dev.violate (d : Dev) (b : Basket) (kind : BitVec 4) (addr : Nat) : Dev :=
  let d := d.onPage b (fun p => { p with violations := p.violations + 1 })
  let d := d.onHost (fun h => h.logViolation d.stamp b kind addr)
  if b = 0 then d else d.raise (toBasket 0) .violation

/-- VIOLATION_COUNT: the sum of the four counters modulo 2^32 (R735). -/
def HostSide.violationCount (h : HostSide) : BitVec 32 := h.pages.toList.foldl (fun s p => s + p.violations) 0

/-! ## Commands -/

/-- What a command's action answers: completed with results, refused, or still to complete (R813). -/
inductive Reply where
  | ok (results : List Word)
  | refuse (e : Err)
  | wait
  deriving DecidableEq, Repr

/-- One row of the command tables: its code, its sup mark, whether it is marked long; then the checks of R815 in their order, and
its effect. -/
structure Command where
  code : Word
  sup : Bool := false
  long : Bool := false
  /-- step 1: every resource and address named exists and is held -/
  names : Ctx → Dev → Bool := fun _ _ => true
  /-- step 2: a zero that Table 16-14 refuses -/
  zero : Ctx → Dev → Bool := fun _ _ => false
  /-- step 3: E_ARG_RANGE or E_DATE_INVALID -/
  range : Ctx → Dev → Option Err := fun _ _ => none
  /-- steps 4 and 5: the state and quota errors, in the order listed, and E_STAGED_CONFLICT -/
  state : Ctx → Dev → Option Err := fun _ _ => none
  act : Ctx → Dev → Dev × Reply

/-- The commands that WATCH accepts (R874): families 0x01, 0x03 and 0x09, FE_STATUS, TACH_STATUS, WR_STATUS and BK_STATUS. -/
def watchAccepts (code : Word) : Bool :=
  [0x01, 0x03, 0x09].contains (code.toNat / 256) || [0x0206, 0x020D, 0x0214, 0x0A03].contains code.toNat

/-- A check that refuses with E_ARG_RANGE unless the value is good. -/
def argRange (good : Bool) : Option Err := if good then none else some .argRange

/-- A check that refuses with a code unless the condition holds. -/
def need (good : Bool) (e : Err) : Option Err := if good then none else some e

/-- The first refusal of a list of checks. -/
def firstErr : List (Option Err) → Option Err
  | [] => none
  | some e :: _ => some e
  | none :: r => firstErr r

/-- The order of refusals (R815): the first check that fails gives the code. WATCH refuses what R874 does not list, and a boot
record refuses long commands but MD_LOAD, at step 4 (R856). -/
def Command.judge (c : Command) (x : Ctx) (d : Dev) : Option Err :=
  if c.sup && x.b != 0 then some .noSuch
  else if !c.names x d then some .noSuch
  else if c.zero x d then some .argZero
  else match c.range x d with
    | some e => some e
    | none =>
      if d.pwr.state == .watch && !watchAccepts c.code then some .state
      else if x.boot && c.long && c.code != 0x0601 then some .state
      else c.state x d

/-- Judge a command and act on it; a refusal with E_NO_SUCH is a violation of kind COMMAND (R730). -/
def Command.run (c : Command) (x : Ctx) (d : Dev) : Dev × Reply :=
  match c.judge x d with
  | some .noSuch => (d.violate x.b 5 c.code.toNat, .refuse .noSuch)
  | some e => (d, .refuse e)
  | none => c.act x d

/-- The four result registers from a list of results; results not named are 0. -/
def results4 (r : List Word) : Vector Word 4 := ⟨#[r.getD 0 0, r.getD 1 0, r.getD 2 0, r.getD 3 0], rfl⟩

/-- A command completes at a single edge (R777). -/
def Page.complete (p : Page) (o : CmdOutcome) (t : Time) : Page :=
  { p with cmdError := o.error, results := o.results, cmdState := .done, cmdCount := p.cmdCount + 1, running := none }.raise .cmdDone t

/-- The outcome of a refusal (R778). -/
def refusal (e : Err) : CmdOutcome := { error := e.code, results := results4 [] }

/-- The outcome of a success. -/
def success (r : List Word) : CmdOutcome := { error := Err.ok.code, results := results4 r }

/-- Complete the command of a basket now. -/
def Dev.complete (d : Dev) (b : Basket) (o : CmdOutcome) : Dev := d.onPage b (fun p => p.complete o d.now)

/-- A CMD_CODE write that starts nothing (R775). -/
def Page.ignore (p : Page) : Page := { p with ignored := if p.ignored = 255 then 255 else p.ignored + 1 }

/-- A command is accepted (R774). -/
def Page.accept (p : Page) (code : Word) (t : Time) : Page :=
  { p with cmdState := .busy, ignored := 0,
           running := some { code := code, args := p.args, tag := p.cmdTag, since := t, outcome := none } }

/-- Is the register page reachable? Not in OFF or RESET (R758, Table 17-6). -/
def Power.answers : Power → Bool
  | .off => false | .reset => false | _ => true

/-- Does a write of CMD_CODE through this basket's page start a command (R720, R774)? -/
def Dev.starts (d : Dev) (b : Basket) : Bool := d.pwr.ready && d.host.pages[b].cmdState != .busy

/-- The operands of the command that basket b starts. -/
def Dev.ctx (d : Dev) (chip : Chip) (blown : Bool) (b : Basket) : Ctx :=
  { chip := chip, blown := blown, b := b, args := d.host.pages[b].args, tag := d.host.pages[b].cmdTag, boot := false }

/-- The fuse reads BLOWN when either element reads blown (R898). -/
def Fuse.blown (f : Fuse) : Bool := f.element0 || f.element1

/-- A write of CMD_CODE: ignored when the page is dead, disabled, BUSY or not READY; else accepted, judged and acted on. A
command not marked long completes in the same step (R813). -/
def Dev.command (d : Dev) (chip : Chip) (blown : Bool) (c : Command) (b : Basket) : Dev :=
  if !d.pwr.state.answers || !d.enabled b then d
  else if !d.starts b then d.onPage b Page.ignore
  else
    let x := d.ctx chip blown b
    let r := c.run x (d.onPage b (fun p => p.accept c.code d.now))
    match r.2 with
    | .ok rs => r.1.complete b (success rs)
    | .refuse e => r.1.complete b (refusal e)
    | .wait => r.1

/-- The meaning of a host command row. -/
def hostCommand (c : Command) (t : Time) (b : Basket) (s : State) : Host.Outcome State Fault Refusal :=
  onDev s t (fun d => d.command s.chip s.fuse.blown c b)

/-- The action of a BUSY long command has ended: its outcome waits for the completing edge (R777, R813). -/
def Dev.finish (d : Dev) (b : Basket) (code : Word) (o : CmdOutcome) : Dev :=
  d.onPage b (fun p => match p.running with
    | some r => if r.code == code && r.outcome == none then { p with running := some { r with outcome := some o } } else p
    | none => p)

/-- Is a command of this code BUSY without an outcome? -/
def Dev.busyWith (d : Dev) (b : Basket) (code : Word) : Bool :=
  match d.host.pages[b].running with
  | some r => r.code == code && r.outcome == none
  | none => false

/-! ## Report blocks -/

/-- A command marked block (R817): the whole report must lie in the basket's grant, at a multiple of 4; RES0 is its length. The
counter of free values moves on by 16, since a report may hold up to 13. -/
def blockCommand (code : Word) (sup : Bool) (names : Ctx → Dev → Bool) (range : Ctx → Dev → Option Err)
    (items : Ctx → Dev → List Byte) : Command :=
  { code := code, sup := sup,
    names := fun x d => names x d && x.memory d x.report (items x d).length,
    range := fun x d => firstErr [argRange (x.report % 4 == 0), range x d],
    act := fun x d => ((d.memWrite x.report (items x d)).onFree (· + 16), .ok [BitVec.ofNat 16 (items x d).length]) }

end Sys2Proof.Machine
end

