-- ==== Sys2Proof/Machine/Registers.lean ====
section
/-!
DEFINITION. The register pages (Tables 15-2 to 15-9): what each word reads as, snapshots, W1C clears with set-wins, and the
windows.
-/

namespace Sys2Proof.Machine

/-! ## Values of registers -/

/-- DEVICE_STATUS.POWER_STATE (Table 15-3). -/
def Power.number : Power → Nat
  | .off => 0 | .reset => 0 | .boot => 1 | .active => 2 | .watch => 3 | .hold => 4 | .fault => 5

/-- LINK_STATUS.STATE (Table 15-3). -/
def LinkState.number : LinkState → Nat
  | .off => 0 | .listen => 1 | .coldstart => 2 | .integrate => 3 | .joined => 4 | .fenced => 5

/-- LINK_STATUS.FENCE (Table 15-3). -/
def Fence.number : Fence → Nat
  | .none => 0 | .guard => 1 | .duplicate => 2

/-- DEVICE_STATUS (Table 15-3). -/
def Dev.deviceStatus (d : Dev) (chip : Chip) : Word :=
  BitVec.ofNat 16 (d.pwr.state.number + 8 * packBits [d.pwr.ready, d.store.empty, d.store.anomaly, d.clk.net.isSome, d.keep.valid, chip.gradeX])

/-- LINK_STATUS (Table 15-3). -/
def Dev.linkStatus (d : Dev) : Word :=
  BitVec.ofNat 16 (d.link.state.number + 8 * (d.link.source % 8) + 64 * d.link.fence.number + 256 * (d.link.root % 256))

/-- IRQ_PENDING as a value (Table 15-5): bit 0 follows EVT_COUNT. -/
def Page.irqPendingValue (p : Page) : BitVec 13 :=
  BitVec.ofNat 13 (packBits ((!p.fifo.isEmpty) :: p.irqPending.toList.drop 1))

/-- Is nIRQn pulled low (R771, R720)? -/
def Dev.irqLine (d : Dev) (b : Basket) : Bool :=
  d.enabled b && (d.host.pages[b].irqPendingValue &&& d.host.pages[b].irqEnable) != 0

/-- TRIP_STATUS as the basket reads it (R734). -/
def Dev.tripStatus (d : Dev) (b : Basket) : Word :=
  BitVec.ofNat 16 (packBits (List.zipWith (fun (n : Needle) g => n.tripStatus && g) d.guard.outs.toList d.grants[b].outputs.toList))

/-- THIMBLE_LATCH as the basket reads it, 32 bits (R734). -/
def Dev.thimbleLatch (d : Dev) (b : Basket) : Nat :=
  packBits (List.zipWith (fun (c : Comparator) g => c.latch && g) d.guard.comps.toList d.grants[b].comparators.toList)

/-- The basket's copy of OVERLOAD_STATUS, 24 bits (R734, R802). -/
def Dev.overloadStatus (d : Dev) (b : Basket) : Nat :=
  packBits (List.zipWith (· && ·) d.host.pages[b].overload.toList d.grants[b].channels.toList)

/-- CMD_STATUS (Table 15-6). -/
def Page.cmdStatus (p : Page) : Word :=
  BitVec.ofNat 16 ((match p.cmdState with | .idle => 0 | .busy => 1 | .done => 2) + 256 * p.ignored.toNat)

/-- WINn_CTRL (Table 15-7). -/
def Window.ctrl (w : Window) : Word := BitVec.ofNat 16 (packBits [false, w.dirWrite, w.inc, false, w.active, !w.posted.isEmpty])

/-- A window register other than DATA: 0 ADDR_LO, 1 ADDR_HI, 3 CTRL, 4 LEN (Table 15-7, R779). -/
def Window.read (w : Window) : Nat → Word
  | 0 => BitVec.ofNat 16 (w.addr.toNat % 65536)
  | 1 => BitVec.ofNat 16 (w.addr.toNat / 65536)
  | 3 => w.ctrl
  | 4 => w.len
  | _ => 0

/-- Is the fuse ARMED at this instant (R895, R48)? -/
def Dev.fuseArmed (d : Dev) : Bool := d.fuse.armed && decide (d.now < d.fuse.windowEnd)

/-- FUSE_STATUS.STATE (Table 15-9); ARMED while the elements are being blown (log entry 28). -/
def Dev.fuseState (d : Dev) (blown : Bool) : Nat := if blown then 2 else if d.fuseArmed || d.fuse.blowing.isSome then 1 else 0

/-- VERDICT and NOVELTY of a handle the basket holds (R803). -/
def Dev.verdictOf (d : Dev) (b : Basket) (h : Nat) (novelty : Bool) : Word :=
  match at? d.models h none with
  | none => 0
  | some m => if m.basket == b then (if novelty then m.novelty else m.verdict) else 0

/-- All words of a multi-word register at this instant, by the offset of its word 0 (Table 15-2). -/
def Dev.liveWords (d : Dev) (chip : Chip) (b : Basket) (off : Nat) : List Word :=
  let p := d.host.pages[b]
  match off with
  | 0x04 => leWords 4 chip.uniqueId.toNat
  | 0x0C => leWords 2 (d.thimbleLatch b)
  | 0x0E => leWords 2 (d.overloadStatus b)
  | 0x48 => leWords 2 p.posted.toNat ++ leWords 2 p.read.toNat ++ leWords 2 p.lost.toNat ++ leWords 2 p.fifo.length
  | 0x50 => leWords 4 d.wr.num
  | 0x54 => leWords 4 d.stamp.toNat
  | 0x82 => if b = 0 then leWords 2 d.host.violationCount.toNat else []
  | _ => []

/-- Is this the offset of word 0 of a multi-word register that is not RP (Table 15-2)? -/
def isSnapshotOffset (b : Basket) (off : Nat) : Bool :=
  [0x04, 0x0C, 0x0E, 0x48, 0x50, 0x54].contains off || (off == 0x82 && b == 0)

/-- The shadow of a multi-word register. -/
def Shadows.get (s : Shadows) : Nat → List Word
  | 0x04 => s.unique | 0x0C => s.thimble | 0x0E => s.overload | 0x38 => s.evtFifo | 0x48 => s.ledger | 0x50 => s.frameCount
  | 0x54 => s.time | 0x82 => s.violationCount | 0x88 => s.violationLog | _ => []

/-- Replace the shadow of a multi-word register. -/
def Shadows.put (s : Shadows) (off : Nat) (w : List Word) : Shadows :=
  match off with
  | 0x04 => { s with unique := w } | 0x0C => { s with thimble := w } | 0x0E => { s with overload := w }
  | 0x38 => { s with evtFifo := w } | 0x48 => { s with ledger := w } | 0x50 => { s with frameCount := w }
  | 0x54 => { s with time := w } | 0x82 => { s with violationCount := w } | 0x88 => { s with violationLog := w } | _ => s

/-- The word 0 offset of the multi-word register that an offset belongs to, with the word's number. -/
def multiWord (b : Basket) (off : Nat) : Option (Nat × Nat) :=
  if 0x04 ≤ off ∧ off ≤ 0x07 then some (0x04, off - 0x04)
  else if 0x0C ≤ off ∧ off ≤ 0x0D then some (0x0C, off - 0x0C)
  else if 0x0E ≤ off ∧ off ≤ 0x0F then some (0x0E, off - 0x0E)
  else if 0x38 ≤ off ∧ off ≤ 0x3F then some (0x38, off - 0x38)
  else if 0x48 ≤ off ∧ off ≤ 0x4F then some (0x48, off - 0x48)
  else if 0x50 ≤ off ∧ off ≤ 0x53 then some (0x50, off - 0x50)
  else if 0x54 ≤ off ∧ off ≤ 0x57 then some (0x54, off - 0x54)
  else if b ≠ 0 then none
  else if 0x82 ≤ off ∧ off ≤ 0x83 then some (0x82, off - 0x82)
  else if 0x88 ≤ off ∧ off ≤ 0x8F then some (0x88, off - 0x88)
  else none

/-- The supervisor registers of one word (Table 15-9). -/
def Dev.supervisorWord (d : Dev) (blown : Bool) : Nat → Word
  | 0x80 => if d.pwr.vddioHigh then 0x10 else 0
  | 0x81 => BitVec.ofNat 16 (packBits d.host.enable.toList)
  | 0x84 => BitVec.ofNat 16 (d.fuseState blown + if d.fuse.lastFailed then 4 else 0)
  | 0x85 => BitVec.ofNat 16 (packBits [d.pwr.pfail, d.keep.pfailValid] + 4 * d.keep.pfailWrite.toNat + if d.keep.pfailClean then 16 else 0)
  | 0x86 => d.keep.resetCause.setWidth 16
  | 0x87 => d.pwr.dieTemp
  | _ => 0

/-- The registers of one word on every page (Tables 15-3 to 15-8). -/
def Dev.pageWord (d : Dev) (chip : Chip) (b : Basket) (off : Nat) : Word :=
  let p := d.host.pages[b]
  match off with
  | 0x00 => 0xB048
  | 0x01 => 0x00A1
  | 0x02 => BitVec.ofNat 16 b.val
  | 0x03 => d.deviceStatus chip
  | 0x08 => p.irqPendingValue.setWidth 16
  | 0x09 => p.irqEnable.setWidth 16
  | 0x0A => d.tripStatus b
  | 0x0B => d.linkStatus
  | 0x11 => p.cmdStatus
  | 0x12 => p.cmdError
  | 0x13 => p.cmdTag.setWidth 16
  | 0x14 => p.cmdCount
  | 0x40 => BitVec.ofNat 16 p.fifo.length
  | _ =>
    if 0x18 ≤ off ∧ off ≤ 0x1F then at? p.args (off - 0x18) 0
    else if 0x20 ≤ off ∧ off ≤ 0x23 then at? p.results (off - 0x20) 0
    else if 0x28 ≤ off ∧ off ≤ 0x2C then p.windows[0].read (off - 0x28)
    else if 0x30 ≤ off ∧ off ≤ 0x34 then p.windows[1].read (off - 0x30)
    else if 0x60 ≤ off ∧ off ≤ 0x6F then d.verdictOf b (off - 0x60) false
    else if 0x70 ≤ off ∧ off ≤ 0x7F then d.verdictOf b (off - 0x70) true
    else 0

/-- The value that a register read returns without changing anything (R762): a single word, or a word of a shadow (R763). WINn_DATA
and the word 0 of a multi-word register have rows of their own. -/
def Dev.readWord (d : Dev) (chip : Chip) (blown : Bool) (b : Basket) (off : Nat) : Word :=
  if !d.enabled b then (if off = 0 then 0xB048 else if off = 1 then 0x00A1 else 0)
  else match multiWord b off with
    | some (base, 0) => (d.liveWords chip b base).getD 0 0
    | some (base, k) => (d.host.pages[b].shadows.get base).getD k 0
    | none => if b = 0 ∧ 0x80 ≤ off ∧ off ≤ 0x8F then d.supervisorWord blown off else d.pageWord chip b off

/-- Drive a read word on D15 to D0 (R751). -/
def Dev.drive (d : Dev) (w : Word) : Dev := d.onHost (fun h => { h with dataOut := some w })

/-- May this basket's chip select reach its page (R720, Table 17-6)? -/
def Dev.reachable (d : Dev) (b : Basket) : Bool := d.pwr.state.answers && d.enabled b

/-! ## Clears -/

/-- W1C clear of IRQ_PENDING with set-wins (R767, R768). -/
def Page.clearIrq (p : Page) (val : Word) (now : Time) : Page :=
  { p with irqPending := vmap p.irqPending (fun i x => x && !(bit val.toNat i && at? p.irqSetAt i 0 != now)) }

/-- Count one violation of kind REGISTER_WRITE for each of n bits (R766). -/
def Dev.violateBits (d : Dev) (b : Basket) (off : Nat) : Nat → Dev
  | 0 => d
  | n + 1 => (d.violate b 4 off).violateBits b off n

/-- The bits of a written word that stand for existing resources the basket does not hold (R766). -/
def foreignBits (val : Word) (first n : Nat) (held : Nat → Bool) : Nat :=
  ((List.range 16).filter (fun i => bit val.toNat i && decide (first + i < n) && !held (first + i))).length

/-- W1C clear of one word of OVERLOAD_STATUS: the basket's own copy (R802, R766, R768). -/
def Dev.clearOverload (d : Dev) (b : Basket) (word : Fin 2) (val : Word) : Dev :=
  let held := fun i => at? d.grants[b].channels i false
  let first := 16 * word.val
  let hit := fun i => decide (first ≤ i) && decide (i < first + 16) && bit val.toNat (i - first) && held i
  (d.onPage b (fun p =>
    { p with overload := vmap p.overload (fun i x => x && !(hit i && at? p.overloadSetAt i 0 != d.now)) })).violateBits b
      (0x0E + word.val) (foreignBits val first 24 held)

/-! ## Windows -/

/-- Change one window of a page. -/
def Dev.onWindow (d : Dev) (b : Basket) (w : Fin 2) (f : Window → Window) : Dev :=
  d.onPage b (fun p => { p with windows := upd p.windows w f })

/-- One window of a page. -/
def Dev.win (d : Dev) (b : Basket) (w : Fin 2) : Window := d.host.pages[b].windows[w]

/-- The interrupt bit of a window (Table 15-5). -/
def winIrq (w : Fin 2) : Irq := if w = 0 then .win0Done else .win1Done

/-- A transfer ends: EV_WIN_DONE with the count and the reason, and WINn_DONE (R788 to R790). -/
def Dev.winDone (d : Dev) (b : Basket) (w : Fin 2) (reason : Nat) : Dev :=
  let count := (d.win b w).count
  let d := d.onWindow b w (fun x => { x with active := false, count := 0 })
  let d := d.postTo b { event := .winDone, subject := w.val, data0 := count, data1 := reason }
  d.raise (toBasket b) (winIrq w)

/-- After an access to WINn_DATA: the address advances when INC is 1, and an access in the direction of DIR counts (R780, R787,
R788). -/
def Dev.winAdvance (d : Dev) (b : Basket) (w : Fin 2) (write : Bool) : Dev :=
  let x := d.win b w
  let counts := x.active && x.dirWrite == write
  let d := d.onWindow b w (fun x =>
    { x with addr := if x.inc then x.addr + 2 else x.addr, count := if counts then x.count + 1 else x.count })
  if counts && decide (x.activeLen ≤ x.count + 1) then d.winDone b w 0 else d

/-- The oldest posted write of a window reaches SRAM (R782, R786). -/
def Dev.drainOne (d : Dev) (b : Basket) (w : Fin 2) : Dev :=
  match (d.win b w).posted with
  | [] => d
  | (a, v) :: r => (d.memWrite a (leBytes 2 v.toNat)).onWindow b w (fun x => { x with posted := r })

/-- The n oldest posted writes reach SRAM in order. -/
def Dev.drain (d : Dev) (b : Basket) (w : Fin 2) : Nat → Dev
  | 0 => d
  | n + 1 => (d.drainOne b w).drain b w n

/-- A read of WINn_DATA (R780, R781, R783, R731, R458). -/
def Dev.winRead (d : Dev) (b : Basket) (w : Fin 2) : Dev :=
  let d := d.drain b w (d.win b w).posted.length
  let a := (d.win b w).addr.toNat
  let d := match d.readRight b a with
    | .data =>
      let d' := d.drive (BitVec.ofNat 16 (d.sram.value a 2))
      if d.uninit a then d'.onPage b (fun p => { p with uninitRead := p.uninitRead + 1 }) else d'
    | .zero => d.drive 0
    | .violation => (d.drive 0).violate b 1 a
  (d.onWindow b w (fun x => { x with line := some (a / 64) })).winAdvance b w false

/-- A write of WINn_DATA (R780, R782, R731): posted to the buffer of 32 words; when it is full the oldest write goes out first. -/
def Dev.winWrite (d : Dev) (b : Basket) (w : Fin 2) (val : Word) : Dev :=
  let a := (d.win b w).addr.toNat
  let d := match d.writeViolation b a with
    | some k => d.violate b k a
    | none =>
      let d := if 32 ≤ (d.win b w).posted.length then d.drainOne b w else d
      d.onWindow b w (fun x => { x with posted := x.posted ++ [(a, val)] })
  d.winAdvance b w true

/-- A write of WINn_CTRL: DIR and INC, then ABORT and START (R787, R789, R790, R791). -/
def Dev.winCtrl (d : Dev) (b : Basket) (w : Fin 2) (val : Word) : Dev :=
  let start := bit val.toNat 0
  let abort := bit val.toNat 3
  let was := (d.win b w).active
  let d := d.onWindow b w (fun x => { x with dirWrite := bit val.toNat 1, inc := bit val.toNat 2 })
  let d := if was && abort then d.winDone b w 2 else if was && start then d.winDone b w 1 else d
  if start then
    let len := (d.win b w).len.toNat
    let d := d.onWindow b w (fun x => { x with active := len != 0, activeLen := len, count := 0 })
    if len = 0 then d.winDone b w 0 else d
  else d

/-- A write of a window register: 0 ADDR_LO, 1 ADDR_HI, 2 DATA, 3 CTRL, 4 LEN (Table 15-7). -/
def Dev.winRegister (d : Dev) (b : Basket) (w : Fin 2) (k : Nat) (val : Word) : Dev :=
  match k with
  | 0 => d.onWindow b w (fun x => { x with addr := BitVec.ofNat 25 (x.addr.toNat / 65536 * 65536 + val.toNat / 2 * 2) })
  | 1 => d.onWindow b w (fun x => { x with addr := BitVec.ofNat 25 (val.toNat % 512 * 65536 + x.addr.toNat % 65536) })
  | 2 => d.winWrite b w val
  | 3 => d.winCtrl b w val
  | 4 => d.onWindow b w (fun x => { x with len := val })
  | _ => d

/-! ## RP registers -/

/-- The eight words of an event record (Table 15-10). -/
def Record.words (r : Record) : List Word :=
  [BitVec.ofNat 16 (r.code.toNat + 256 * r.seq.toNat), BitVec.ofNat 16 (r.subject.toNat + 256 * r.tag.toNat)] ++
    leWords 4 r.stamp.toNat ++ [r.data0, r.data1]

/-- A read of word 0 of EVT_FIFO (R764, R794, R795, R798). -/
def Page.readFifo (p : Page) : Page :=
  match p.fifo with
  | [] => { p with shadows := p.shadows.put 0x38 [] }
  | r :: rest => { p with fifo := rest, read := p.read + 1, shadows := p.shadows.put 0x38 r.words }

/-- The eight words of a violation log entry (Table 14-3). -/
def Violation.words (v : Violation) : List Word :=
  leWords 4 v.stamp.toNat ++ [BitVec.ofNat 16 (v.basket.val + 16 * v.kind.toNat)] ++ leWords 2 v.address.toNat ++
    [BitVec.ofNat 16 v.count]

/-! ## Rows -/

/-- MULTIWORD_SNAPSHOT_READ (R763). -/
def execMultiwordSnapshotRead (t : Time) (b : Basket) (off : BitVec 8) (s : State) : Host.Outcome State Fault Refusal :=
  onDev s t (fun d =>
    if !d.pwr.state.answers then d
    else if d.enabled b && isSnapshotOffset b off.toNat then
      let ws := d.liveWords s.chip b off.toNat
      (d.onPage b (fun p => { p with shadows := p.shadows.put off.toNat ws })).drive (ws.getD 0 0)
    else d.drive (d.readWord s.chip s.fuse.blown b off.toNat))

/-- EVT_FIFO_READ (R764, R794, R795, R798). -/
def execEvtFifoRead (t : Time) (b : Basket) (s : State) : Host.Outcome State Fault Refusal :=
  onDev s t (fun d =>
    if !d.pwr.state.answers then d
    else if d.enabled b then
      let d := d.onPage b Page.readFifo
      d.drive ((d.host.pages[b].shadows.get 0x38).getD 0 0)
    else d.drive 0)

/-- VIOLATION_LOG_READ (R736, R764, R806). Only basket 0 has the register (R718). -/
def execViolationLogRead (t : Time) (b : Basket) (s : State) : Host.Outcome State Fault Refusal :=
  onDev s t (fun d =>
    if !d.pwr.state.answers then d
    else if b = 0 then
      let ws := match d.host.violLog with | [] => [] | v :: _ => v.words
      let d := d.onHost (fun h => { h with violLog := d.host.violLog.drop 1 })
      (d.onPage 0 (fun p => { p with shadows := p.shadows.put 0x88 ws })).drive (ws.getD 0 0)
    else d.drive 0)

/-- BUS_CONFLICT (R753). -/
def execBusConflict (t : Time) (selects : BitVec 4) (bothStrobes : Bool) (s : State) : Host.Outcome State Fault Refusal :=
  onDev s t (fun d =>
    let low := (List.range 4).filter (fun i => bit selects.toNat i)
    if d.pwr.state.answers && (decide (1 < low.length) || bothStrobes) then
      d.onPages (fun i => low.contains i) (fun _ p => { p with busConflicts := p.busConflicts + 1 })
    else d)

/-- IRQ_PENDING_CLEAR (R767 to R772). -/
def execIrqPendingClear (t : Time) (b : Basket) (val : BitVec 16) (s : State) : Host.Outcome State Fault Refusal :=
  onDev s t (fun d => if d.reachable b then d.onPage b (fun p => p.clearIrq val d.now) else d)

/-- IRQ_ENABLE_WRITE (R773). -/
def execIrqEnableWrite (t : Time) (b : Basket) (val : BitVec 16) (s : State) : Host.Outcome State Fault Refusal :=
  onDev s t (fun d => if d.reachable b then d.onPage b (fun p => { p with irqEnable := val.setWidth 13 }) else d)

/-- OVERLOAD_STATUS_CLEAR (R802). -/
def execOverloadStatusClear (t : Time) (b : Basket) (word : Fin 2) (val : BitVec 16) (s : State) : Host.Outcome State Fault Refusal :=
  onDev s t (fun d => if d.reachable b then d.clearOverload b word val else d)

/-- Clear bits of RESET_CAUSE (R805, R718). -/
def Dev.clearCause (d : Dev) (b : Basket) (val : Word) : Dev :=
  if b = 0 then d.onKeep (fun k => { k with resetCause := d.keep.resetCause &&& ~~~(val.setWidth 5) }) else d

/-- RESET_CAUSE_CLEAR (R805). -/
def execResetCauseClear (t : Time) (b : Basket) (val : BitVec 16) (s : State) : Host.Outcome State Fault Refusal :=
  onDev s t (fun d => if d.reachable b then d.clearCause b val else d)

/-- Write BASKET_ENABLE (R719, R720): bits 1 to 3, from basket 0's page only. -/
def Dev.writeEnable (d : Dev) (b : Basket) (val : Word) : Dev :=
  if b = 0 then d.onHost (fun h => { h with enable := vmap d.host.enable (fun i _ => i == 0 || bit val.toNat i) }) else d

/-- BASKET_ENABLE_WRITE (R720, R721). -/
def execBasketEnableWrite (t : Time) (b : Basket) (val : BitVec 16) (s : State) : Host.Outcome State Fault Refusal :=
  onDev s t (fun d => if d.reachable b then d.writeEnable b val else d)

/-- WINDOW_DATA_READ (R780). A disabled basket reads zero (R720). -/
def execWindowDataRead (t : Time) (b : Basket) (win : Fin 2) (s : State) : Host.Outcome State Fault Refusal :=
  onDev s t (fun d => if d.reachable b then d.winRead b win else if d.pwr.state.answers then d.drive 0 else d)

/-- WINDOW_DATA_WRITE (R782). -/
def execWindowDataWrite (t : Time) (b : Basket) (win : Fin 2) (val : BitVec 16) (s : State) : Host.Outcome State Fault Refusal :=
  onDev s t (fun d => if d.reachable b then d.winWrite b win val else d)

/-- POSTED_WRITE_DRAIN (R782): a write to a line that an engine holds waits (R499). -/
def execPostedWriteDrain (t : Time) (b : Basket) (win : Fin 2) (s : State) : Host.Outcome State Fault Refusal :=
  onDev s t (fun d =>
    match (d.win b win).posted with
    | [] => d
    | (a, _) :: _ => if d.spool.held a d.now then d else d.drainOne b win)

/-- WINDOW_START (R787, R789, R790). -/
def execWindowStart (t : Time) (b : Basket) (win : Fin 2) (val : BitVec 16) (s : State) : Host.Outcome State Fault Refusal :=
  onDev s t (fun d => if d.reachable b then d.winCtrl b win val else d)

/-- WINDOW_ABORT (R790). -/
def execWindowAbort (t : Time) (b : Basket) (win : Fin 2) (val : BitVec 16) (s : State) : Host.Outcome State Fault Refusal :=
  onDev s t (fun d => if d.reachable b then d.winCtrl b win val else d)

/-- COMMAND_COMPLETE (R777): the outcome of a long command moves into the registers at one edge. -/
def execCommandComplete (t : Time) (b : Basket) (s : State) : Host.Outcome State Fault Refusal :=
  onDev s t (fun d =>
    match d.host.pages[b].running with
    | some { outcome := some o, .. } => d.complete b o
    | _ => d)

end Sys2Proof.Machine
end

