-- ==== Sys2Proof/Machine/FrontEnd.lean ====
section
/-!
DEFINITION. Sensor inputs (chapter 02): sample words, overload and taint, calibration, SETTLING, and TEDS.
-/

namespace Sys2Proof.Machine

/-! ## Channels -/

/-- Bits of the converter of a channel position (Table 02-1). -/
def converterBits (pos : Nat) : Nat := if pos < 16 then 24 else if pos < 20 then 14 else 16

/-- Full scale of a converter in codes (Table 02-4). -/
def fullScale (pos : Nat) : Int := (2 ^ (converterBits pos - 1) : Nat)

/-- Saturate to the group's full-scale codes (R67). -/
def saturateCode (pos : Nat) (x : Int) : Int := clampInt (-(fullScale pos)) (fullScale pos - 1) x

/-- R67: (raw − OFFSET_COEF) × GAIN_COEF, rounded to nearest with ties away from zero, and saturated. -/
def correctCode (pos : Nat) (offset : Int) (gain : Nat) (raw : Int) : Int :=
  saturateCode pos (divRoundAway ((raw - offset) * gain) 0x400000)

/-- SAMPLE periods per input sample of a channel position (Table 06-2). -/
def inputPeriod (pos : Nat) : Nat := if pos < 16 then 256 else if pos < 20 then 12 else 6144

/-- G at a SAMPLE edge (R265). -/
def Rinse.phase (r : Rinse) (edge : Nat) : Nat := edge - r.zeroEdge

/-- Is this instant a SAMPLE edge at which G is a multiple of n? -/
def Dev.onGrid (d : Dev) (n : Nat) : Bool := d.onEdge && d.rinse.phase (d.clk.edgeFrom d.now) % n == 0

/-- The gain of a channel position in force (Table 02-1). -/
def Dev.gainOf (d : Dev) (pos : Nat) : Nat := match d.wr.live.vibs.toList[pos]? with | some v => 2 ^ v.gain | none => 1

/-- Full scale of a channel position at gain 1 in nV (Table 02-1). -/
def scaleNv (pos : Nat) : Nat := if 16 ≤ pos ∧ pos < 20 then 1250000000 else 2500000000

/-- Does a differential level lie beyond full scale at a gain, as the channel's detector sees it, at 99.5 % to 100.5 % of full scale? -/
def beyondScale (pos gain : Nat) (diff : Int) : Bool :=
  decide (scaleNv pos * (9950 + Config.overloadLimit pos % 101) < diff.natAbs * gain * 10000)

/-- Does a common-mode level lie outside the range of R70, on a VIB channel? -/
def outOfCommon (pos : Nat) (common : Int) : Bool := decide (pos < 16) && (decide (common < 500000000) || decide (2800000000 < common))

/-- Is a channel in overload at a level, and is the overload negative (R949, R950)? -/
def Dev.overloadAt (d : Dev) (pos : Nat) (level : InputLevel) : Option Bool :=
  if beyondScale pos (d.gainOf pos) level.diff then some (decide (level.diff < 0))
  else if outOfCommon pos level.common then some (decide (level.common < 500000000))
  else none

/-- Is an overload episode open? -/
def Channel.inOverload (c : Channel) : Bool := c.episodes.any (fun w => w.stop.isNone)

/-- The windows of a list, each end moved later. -/
def stretch (by_ : Time) (ws : List Win) : List Win := ws.map (fun w => { w with stop := w.stop.map (· + by_) })

/-- The own-channel taint windows (R84, R94, R102). -/
def Channel.ownTaints (c : Channel) : List Win := stretch (us 12) c.episodes ++ c.taints

/-- The two physical neighbours of a position (R65). -/
def neighbours (pos : Nat) : List Nat := [(pos + 1) % 24, (pos + 23) % 24]

/-- The neighbour taint windows on a position (R85). -/
def Dev.neighbourTaints (d : Dev) (pos : Nat) : List Win :=
  (neighbours pos).flatMap (fun n => match d.fe.toList[n]? with | none => [] | some c => stretch (us 20) c.episodes)

/-- Every taint window of a position. -/
def Dev.taints (d : Dev) (pos : Nat) : List Win :=
  (match d.fe.toList[pos]? with | none => [] | some c => c.ownTaints) ++ d.neighbourTaints pos

/-- Change one channel. -/
def Dev.onChannel (d : Dev) (pos : Nat) (f : Channel → Channel) : Dev := d.onFe (fun x => updAt x pos f)

/-- The TEDS memories of all lines. -/
def Dev.memories (d : Dev) : List TedsMemory := d.teds.lines.toList.flatMap (·.memories)

/-- The binding entry of an identity: its number and its channel (R78). -/
def Teds.bound (t : Teds) (identity : BitVec 64) : Option (Nat × Fin 24) :=
  match t.bindings.toList.zipIdx.find? (fun e => match e.1 with | none => false | some (i, _) => i == identity) with
  | some (some (_, pos), n) => some (n, pos)
  | _ => none

/-- The memories bound to a channel. -/
def Dev.boundMemories (d : Dev) (pos : Nat) : List TedsMemory :=
  d.memories.filter (fun m => match d.teds.bound m.identity with | some (_, p) => p.val == pos | none => false)

/-- Is the channel's sensor identified (R74)? -/
def Dev.identified (d : Dev) (pos : Nat) : Bool := (d.boundMemories pos).any (fun m => m.isRead && !m.bad && !m.departed)

/-- Has the sensor bound to the channel departed (R79)? A binding made after the departure counts too. -/
def Dev.departed (d : Dev) (pos : Nat) : Bool := (d.boundMemories pos).any (·.departed)

/-- The sample word of a channel whose input stands at a level (Table 02-3, R66, R82, R83, R93, R97, R79, R950); during a calibration the detector
sees no excursion (Table 02-7). -/
def Dev.sampleWord (d : Dev) (pos : Nat) (c : Channel) (level : InputLevel) (raw : Int) : BitVec 32 :=
  let now := d.now
  let sign := if c.cal.isSome then none else d.overloadAt pos level
  let overload := sign.isSome
  let code : Int :=
    if c.cal.isSome then 0
    else match sign with
      | some negative => if negative then -(fullScale pos) else fullScale pos - 1
      | none => correctCode pos c.offset c.gain raw
  let tainted := overload || c.cal.isSome || d.departed pos || (d.taints pos).any (fun w => w.has now)
  let value := (code * (2 ^ (24 - converterBits pos) : Nat)) % (2 ^ 24 : Nat)
  BitVec.ofNat 32 (value.toNat * 256 + packBits [tainted, c.settle.any (·.has now), overload, c.cal.isSome])

/-! ## Settle timer -/

/-- The settle timer starts afresh (R97 to R99). A settle time of 0 ends the running window and opens none. -/
def Channel.startSettle (c : Channel) (now : Time) : Channel :=
  let past := c.settle.map (fun w => if w.has now then { w with stop := some now } else w)
  { c with settle := if c.settleMs = 0 then past else { start := now, stop := some (now + ms c.settleMs) } :: past }

/-- SETTLE_END (R97): a window that has ended is kept while the frame in progress may overlap it (R88). -/
def execSettleEnd (t : Time) (pos : Fin 24) (s : State) : Host.Outcome State Fault Refusal :=
  onDev s t (fun d =>
    d.onChannel pos (fun c =>
      { c with settle := c.settle.filter (fun w => w.has d.now || (d.wr.running && w.meets d.wr.start d.now)) }))

/-- FE_RESTART_SENSOR (R98, R99). -/
def cmdFeRestartSensor : Command :=
  { code := 0x0205, sup := true, names := fun x d => x.channel d (x.arg 0),
    act := fun x d => (d.onChannel (x.arg 0) (fun c => c.startSettle d.now), .ok []) }

/-! ## Overload -/

/-- An episode opens (R83, R89, R949, R802); every basket granted the channel has its own flag. None opens while one is open, nor during a
calibration (Table 02-7). -/
def Dev.overloadStart (d : Dev) (pos : Fin 24) (negative : Bool) : Dev :=
  let c := d.fe[pos]
  if c.inOverload || c.cal.isSome then d
  else
    let held := fun g : Grants => g.channels[pos]
    let d := d.onChannel pos (fun c => { c with episodes := { start := d.now, stop := none } :: c.episodes, overloads := c.overloads + 1 })
    let to_ := d.holdersOnly held
    let d := d.onPages to_ (fun _ p =>
      { p with overload := p.overload.set pos true, overloadSetAt := p.overloadSetAt.set pos d.now })
    let d := d.raise to_ .overload
    d.postHeld held { event := .overload, subject := pos.val, data0 := negative.toNat, data1 := (d.fe[pos]).overloads.toNat }

/-- Do the converters run? Not in OFF or RESET, nor under a CLOCK fault (Table 17-6). -/
def Dev.sampling (d : Dev) : Bool := d.pwr.state.answers && d.pwr.fault != some .clock

/-- Is a sample of a channel position taken now (R65, R266)? At a SYNC edge only one that the old phase had due there. -/
def Dev.samples (d : Dev) (pos : Nat) : Bool :=
  d.sampling && d.onGrid (inputPeriod pos) && (d.clk.edgeFrom d.now != d.rinse.zeroEdge || d.rinse.oldPhase % inputPeriod pos == 0)

/-- OVERLOAD_START (R949, R950): a sample's input instant finds the channel in overload. -/
def execOverloadStart (t : Time) (pos : Fin 24) (level : InputLevel) (s : State) : Host.Outcome State Fault Refusal :=
  onDev s t (fun d =>
    if !d.samples pos then d
    else match d.overloadAt pos level with
      | none => d
      | some negative => d.overloadStart pos negative)

/-- OVERLOAD_END (R84, R85): the open episode ends at the first sample taken back within full scale. -/
def execOverloadEnd (t : Time) (input : ChannelLevel) (s : State) : Host.Outcome State Fault Refusal :=
  onDev s t (fun d =>
    if !d.samples input.pos || ((d.fe[input.pos]).cal.isNone && (d.overloadAt input.pos input.level).isSome) then d
    else d.onChannel input.pos (fun c =>
      { c with episodes := c.episodes.map (fun w => if w.stop.isNone then { w with stop := some d.now } else w) }))

/-- A gain change at a frame boundary opens an own-channel taint window (R102). -/
def Channel.gainTaint (c : Channel) (now : Time) : Channel :=
  { c with taints := { start := now, stop := some (now + us 12) } :: c.taints }

/-- Windows that ended before an instant concern no later frame or sample. -/
def Channel.forget (c : Channel) (before : Time) : Channel :=
  let live := fun (w : Win) => match w.stop with | none => true | some e => decide (before < e + us 20)
  { c with episodes := c.episodes.filter live, taints := c.taints.filter live, settle := c.settle.filter live }

/-! ## Calibration -/

/-- The settings shared by FE_CAL_OFFSET and FE_CAL_GAIN: a window of 64 ms opens (R90, R96). -/
def calCommand (code : Word) (gain : Bool) : Command :=
  { code := code, sup := true, long := true, names := fun x d => x.channel d (x.arg 0),
    state := fun x d => need (match d.fe.toList[x.arg 0]? with | none => true | some c => c.cal.isNone) .busy,
    act := fun x d =>
      (d.onChannel (x.arg 0) (fun c =>
        { c with cal := some { gain := gain, start := d.now, stop := d.now + ms 64, basket := x.b, n1 := 0, sum1 := 0, sq1 := 0, n2 := 0,
                               sum2 := 0, sq2 := 0, dirty := false } }), .wait) }

def cmdFeCalOffset : Command := calCommand 0x0202 false
def cmdFeCalGain : Command := calCommand 0x0203 true

/-- A raw code enters the sums of its measuring segment, and a sample in a taint window of R90 spoils the calibration: the window that R94 opens after
an earlier calibration counts as one after an overload (log entry 10). -/
def Dev.calSample (d : Dev) (pos : Nat) (raw : Int) : Dev :=
  match d.fe.toList[pos]? with
  | none => d
  | some c =>
    match c.cal with
    | none => d
    | some k =>
      if d.now < k.start ∨ k.stop ≤ d.now then d
      else
        let spoilt := c.ownTaints.any (fun w => decide (w.start < k.start) && w.has d.now) ||
          (d.neighbourTaints pos).any (fun w => w.has d.now)
        let k := { k with dirty := k.dirty || spoilt }
        let k := if k.gain && decide (k.start + ms 32 ≤ d.now) then
            { k with n2 := k.n2 + 1, sum2 := k.sum2 + raw, sq2 := k.sq2 + raw * raw }
          else { k with n1 := k.n1 + 1, sum1 := k.sum1 + raw, sq1 := k.sq1 + raw * raw }
        d.onChannel pos (fun c => { c with cal := some k })

/-- Does the RMS deviation of a segment exceed the limit? n Σx² − (Σx)² > (n × limit)². -/
def tooActive (n : Nat) (sum sq : Int) (limit : Nat) : Bool := decide ((n : Int) * sq - sum * sum > ((n * limit : Nat) : Int) ^ 2)

/-- Round a ratio to one of the two whole numbers beside it, as the free value says (log entry 10). -/
def freeRound (up : Bool) (num : Int) (den : Nat) : Int :=
  if num % den = 0 then num / den else if up then num / den + 1 else num / den

/-- The new coefficient of a calibration: OFFSET_COEF is the mean raw code; GAIN_COEF is 1.6 of full scale over the difference of the two
means, in Q2.22. `none`: no coefficient, or one outside its limits (R90). -/
def Calibration.coefficient (k : Calibration) (pos : Nat) (up : Bool) : Option Int :=
  if k.gain then
    let diff := k.sum1 * k.n2 - k.sum2 * k.n1
    if diff ≤ 0 then none
    else
      let g := freeRound up (8 * fullScale pos * 4194304 * k.n1 * k.n2) (5 * diff.toNat)
      if 50 * g < 49 * 4194304 ∨ 50 * g > 51 * 4194304 then none else some g
  else if k.n1 = 0 then none
  else
    let o := freeRound up k.sum1 k.n1
    if 100 * o.natAbs > (fullScale pos).natAbs then none else some o

/-- The outcome of a calibration: the coefficient, or none when it fails with E_CAL_DIRTY (R90). -/
def Calibration.outcome (k : Calibration) (pos : Nat) (limit : Nat) (up : Bool) : Option Int :=
  if k.dirty || tooActive k.n1 k.sum1 k.sq1 limit || (k.gain && tooActive k.n2 k.sum2 k.sq2 limit) then none
  else k.coefficient pos up

/-- A calibration window ends: the coefficient applies from the first sample after it, or is refused (R90 to R92, R94). -/
def Dev.calEnd (d : Dev) (pos : Fin 24) (k : Calibration) : Dev :=
  let code : Word := if k.gain then 0x0203 else 0x0202
  let (n, d) := d.draw
  let window : Win := { start := k.stop, stop := some (k.stop + us 12) }
  match k.outcome pos (d.fe[pos]).calLimit (Config.calRoundUp n) with
  | none => (d.onChannel pos (fun c => { c with cal := none, taints := window :: c.taints })).finish k.basket code (refusal .calDirty)
  | some v =>
    (d.onChannel pos (fun c =>
      { c with cal := none, taints := window :: c.taints,
               offset := if k.gain then c.offset else v, gain := if k.gain then v.toNat else c.gain })).finish k.basket code
      (success (leWords 2 (v % (2 ^ 32 : Nat)).toNat))

/-- CAL_WINDOW_END (R92). -/
def execCalWindowEnd (t : Time) (pos : Fin 24) (s : State) : Host.Outcome State Fault Refusal :=
  onDev s t (fun d =>
    match (d.fe[pos]).cal with
    | some k => if k.stop ≤ d.now then d.calEnd pos k else d
    | none => d)

/-! ## Settings -/

/-- Is a word a positive finite FP16 number (Table 02-6, R103)? -/
def positiveFp16 (w : Nat) : Bool := decide (0 < w) && decide (w < 0x7C00)

/-- FE_SET_CHANNEL (R100, R101, R820): gain and coupling staged; settle time, limit and sensitivity at once. -/
def cmdFeSetChannel : Command :=
  { code := 0x0201, sup := true, names := fun x d => x.channel d (x.arg 0),
    range := fun x _ =>
      argRange ((if x.arg 0 < 16 then decide (bits (x.arg 1) 2 0 ≤ 6) else bits (x.arg 1) 3 0 == 0) && decide (x.arg 2 ≤ 60000) &&
        decide (1 ≤ x.arg 3) && positiveFp16 (x.arg 4)),
    act := fun x d =>
      let d := d.onChannel (x.arg 0) (fun c =>
        { c with settleMs := x.arg 2, calLimit := x.arg 3, sensitivity := BitVec.ofNat 16 (x.arg 4) })
      (d.onWr (fun w => { w with staged := { d.wr.staged with
          vibs := updAt d.wr.staged.vibs (x.arg 0) (fun v => { v with gain := bits (x.arg 1) 2 0, ac := x.argBit 1 3 }) } }), .ok []) }

/-- FE_SET_COEF (R67): in force from the next sample. -/
def cmdFeSetCoef : Command :=
  { code := 0x0204, sup := true, names := fun x d => x.channel d (x.arg 0),
    range := fun x _ =>
      let o := signed 32 (x.arg32 1)
      argRange (decide (-8388608 ≤ o) && decide (o ≤ 8388607) && decide (49 * 4194304 ≤ 50 * x.arg32 3) &&
        decide (50 * x.arg32 3 ≤ 51 * 4194304)),
    act := fun x d =>
      (d.onChannel (x.arg 0) (fun c => { c with offset := signed 32 (x.arg32 1), gain := x.arg32 3 }), .ok []) }

/-- The live gain code and coupling as FE_STATUS returns them; 0 on AE and AUX. -/
def Dev.liveGain (d : Dev) (pos : Nat) : Nat :=
  match d.wr.live.vibs.toList[pos]? with
  | none => 0
  | some v => v.gain + if v.ac then 8 else 0

/-- FE_STATUS (R802, Table 16-5). -/
def cmdFeStatus : Command :=
  { code := 0x0206, names := fun x d => x.channel d (x.arg 0),
    act := fun x d =>
      match d.fe.toList[x.arg 0]? with
      | none => (d, .refuse .noSuch)
      | some c =>
        let flags := packBits [at? d.host.pages[x.b].overload (x.arg 0) false, c.settle.any (·.has d.now), d.identified (x.arg 0),
          d.departed (x.arg 0), c.cal.isSome]
        (d, .ok ([BitVec.ofNat 16 flags] ++ leWords 2 c.overloads.toNat ++ [BitVec.ofNat 16 (d.liveGain (x.arg 0))])) }

/-! ## TEDS -/

/-- TEDS_SET_SCAN (R71). -/
def cmdTedsSetScan : Command :=
  { code := 0x0207, sup := true, range := fun x _ => argRange (decide (x.arg 0 ≤ 600)),
    act := fun x d =>
      (d.onTeds (fun t => { t with period := x.arg 0,
                                      lines := vmap d.teds.lines (fun _ l => { l with nextScan := d.now + ms (100 * x.arg 0) }) }), .ok []) }

/-- TEDS_BIND (R103): an identity already in the table leaves its previous entry. -/
def cmdTedsBind : Command :=
  { code := 0x0208, sup := true, names := fun x d => x.arg 5 == 0xFFFF || x.channel d (x.arg 5),
    range := fun x _ => argRange (decide (x.arg 0 < 32)),
    act := fun x d =>
      let identity := BitVec.ofNat 64 (x.arg64 1)
      let new : Option (BitVec 64 × Fin 24) := if h : x.arg 5 < 24 then some (identity, ⟨x.arg 5, h⟩) else none
      let kept := vmap d.teds.bindings (fun _ e => match e with
        | some (i, p) => if new.isSome && i == identity then none else some (i, p)
        | none => none)
      (d.onTeds (fun t => { t with bindings := updAt kept (x.arg 0) (fun _ => new) }), .ok []) }

/-- A TEDS log entry as TEDS_LOG reports it: identity, line, reason, timestamp. -/
def TedsEntry.bytes (e : TedsEntry) : List Byte := w64 e.identity.toNat ++ w32 e.line ++ w32 e.reason ++ w64 e.stamp.toNat

/-- TEDS_LOG (R77, Table 16-3): the overwrite counter, then 16 entries, oldest first; an empty entry is zero. -/
def cmdTedsLog : Command :=
  blockCommand 0x0209 true (fun _ _ => true) (fun x _ => argRange (decide (x.arg 0 < 4))) (fun x d =>
    match d.teds.lines.toList[x.arg 0]? with
    | none => List.replicate 388 0
    | some l => w32 l.overwrites.toNat ++ l.log.flatMap TedsEntry.bytes ++ List.replicate (24 * (16 - l.log.length)) 0)

/-- Enter an entry in a line's TEDS log (R77): TEDS_LOG names a line, so that each line has its own 16 entries and overwrite counter (log entry 10).
-/
def TedsLine.enter (l : TedsLine) (e : TedsEntry) : TedsLine :=
  if l.log.length < 16 then { l with log := l.log ++ [e] }
  else { l with log := l.log.drop 1 ++ [e], overwrites := l.overwrites + 1 }

/-- Change one line. -/
def Dev.onLine (d : Dev) (line : Fin 4) (f : TedsLine → TedsLine) : Dev :=
  d.onTeds (fun t => { t with lines := upd d.teds.lines line f })

/-- The baskets that an event of a memory concerns: those granted the channel it is bound to, and basket 0. -/
def Dev.tedsHeld (d : Dev) (identity : BitVec 64) : Grants → Bool := fun g =>
  match d.teds.bound identity with
  | some (_, pos) => g.channels[pos]
  | none => false

/-- Log a failure of a memory and, when asked, post EV_TEDS_BAD with the index of the entry (R75, R76). -/
def Dev.tedsBad (d : Dev) (line : Fin 4) (identity : BitVec 64) (reason : Nat) (post : Bool) : Dev :=
  let d := d.onLine line (fun l => l.enter { identity := identity, line := line.val, reason := reason, stamp := d.stamp })
  if post then
    d.postHeld (d.tedsHeld identity)
      { event := .tedsBad, subject := line.val, data0 := reason, data1 := (d.teds.lines[line]).log.length - 1 }
  else d

/-- Post EV_TEDS_ARRIVE or EV_TEDS_LEAVE of a memory. -/
def Dev.tedsMove (d : Dev) (line : Fin 4) (identity : BitVec 64) (e : Event) : Dev :=
  let (entry, pos) := match d.teds.bound identity with | some (n, p) => (n, p.val) | none => (0xFFFF, 0xFFFF)
  d.postHeld (d.tedsHeld identity) { event := e, subject := line.val, data0 := entry, data1 := pos }

/-- The memory of a line with an identity. -/
def TedsLine.memory? (l : TedsLine) (identity : BitVec 64) : Option TedsMemory := l.memories.find? (·.identity == identity)

/-- Replace or add a memory. -/
def TedsLine.put (l : TedsLine) (m : TedsMemory) : TedsLine :=
  if l.memories.any (·.identity == m.identity) then
    { l with memories := l.memories.map (fun x => if x.identity == m.identity then m else x) }
  else { l with memories := l.memories ++ [m] }

/-- One memory that a scan finds, the k-th on its line (R72, R74, R75, R80). -/
def Dev.tedsFound (d : Dev) (line : Fin 4) (k : Nat) (r : TedsRead) : Dev :=
  let fresh : TedsMemory :=
    { identity := r.identity, present := false, missed := 0, failedReads := 0, isRead := false, bad := false, departed := false }
  let m := ((d.teds.lines[line]).memory? r.identity).getD fresh
  let arrives := !m.present
  let m := if arrives then { m with present := true, missed := 0, departed := false, failedReads := 0, isRead := false, bad := false }
    else { m with missed := 0 }
  let d := if arrives then
      let d := match d.teds.bound r.identity with
        | some (_, pos) => d.onChannel pos.val (fun c => c.startSettle d.now)
        | none => d
      d.tedsMove line r.identity .tedsArrive
    else d
  if m.bad then d.onLine line (fun l => l.put m)
  else if 8 ≤ k then (d.onLine line (fun l => l.put { m with bad := true })).tedsBad line r.identity 4 true
  else if m.isRead then d.onLine line (fun l => l.put m)
  else if !r.readOk then
    if 2 ≤ m.failedReads then
      (d.onLine line (fun l => l.put { m with failedReads := 3, bad := true })).tedsBad line r.identity 3 true
    else d.onLine line (fun l => l.put { m with failedReads := m.failedReads + 1 })
  else if !r.checksumOk then (d.onLine line (fun l => l.put { m with isRead := true, bad := true })).tedsBad line r.identity 1 true
  else if !r.templateOk then (d.onLine line (fun l => l.put { m with isRead := true, bad := true })).tedsBad line r.identity 2 true
  else d.onLine line (fun l => l.put { m with isRead := true, failedReads := 0 })

/-- The memories of a scan whose identity passes its CRC, in order. -/
def Dev.tedsFoundAll (d : Dev) (line : Fin 4) : Nat → List TedsRead → Dev
  | _, [] => d
  | k, r :: rs => (d.tedsFound line k r).tedsFoundAll line (k + 1) rs

/-- The identities of a scan that fail their CRC-8: logged each, posted once (R76). -/
def Dev.tedsWrongIds (d : Dev) (line : Fin 4) : Bool → List TedsRead → Dev
  | _, [] => d
  | first, r :: rs => (d.tedsBad line r.identity 5 first).tedsWrongIds line false rs

/-- A known memory that a scan does not find: one scan missed, or a departure after two (R73). -/
def Dev.tedsMissed (d : Dev) (line : Fin 4) (m : TedsMemory) : Dev :=
  if m.departed then d
  else if 1 ≤ m.missed then
    (d.onLine line (fun l => l.put { m with present := false, missed := 2, departed := true })).tedsMove line m.identity .tedsLeave
  else d.onLine line (fun l => l.put { m with present := false, missed := 1 })

def Dev.tedsMissedAll (d : Dev) (line : Fin 4) : List TedsMemory → Dev
  | [] => d
  | m :: ms => (d.tedsMissed line m).tedsMissedAll line ms

/-- A scan of one line (R71 to R80). A memory that has departed stays known until it arrives again (R79). -/
def Dev.tedsScan (d : Dev) (line : Fin 4) (found : List TedsRead) : Dev :=
  let good := found.filter (·.idCrcOk)
  let lost := (d.teds.lines[line]).memories.filter (fun m => !good.any (·.identity == m.identity))
  let d := d.tedsWrongIds line true (found.filter (fun r => !r.idCrcOk))
  let d := (d.tedsMissedAll line lost).tedsFoundAll line 0 good
  d.onLine line (fun l => { l with nextScan := d.now + ms (100 * d.teds.period) })

/-- TEDS_SCAN (R71): a scan period has elapsed; scans stop outside BOOT and ACTIVE (R872). -/
def execTedsScan (t : Time) (line : Fin 4) (found : List TedsRead) (s : State) : Host.Outcome State Fault Refusal :=
  onDev s t (fun d =>
    if d.teds.period != 0 && decide ((d.teds.lines[line]).nextScan ≤ d.now) && (d.pwr.state == .active || d.pwr.state == .boot) then
      d.tedsScan line found
    else d)

/-! ## Command rows -/

def execFeSetChannel (t : Time) (b : Basket) (s : State) : Host.Outcome State Fault Refusal := hostCommand cmdFeSetChannel t b s
def execFeCalOffset (t : Time) (b : Basket) (s : State) : Host.Outcome State Fault Refusal := hostCommand cmdFeCalOffset t b s
def execFeCalGain (t : Time) (b : Basket) (s : State) : Host.Outcome State Fault Refusal := hostCommand cmdFeCalGain t b s
def execFeSetCoef (t : Time) (b : Basket) (s : State) : Host.Outcome State Fault Refusal := hostCommand cmdFeSetCoef t b s
def execFeRestartSensor (t : Time) (b : Basket) (s : State) : Host.Outcome State Fault Refusal := hostCommand cmdFeRestartSensor t b s
def execFeStatus (t : Time) (b : Basket) (s : State) : Host.Outcome State Fault Refusal := hostCommand cmdFeStatus t b s
def execTedsSetScan (t : Time) (b : Basket) (s : State) : Host.Outcome State Fault Refusal := hostCommand cmdTedsSetScan t b s
def execTedsBind (t : Time) (b : Basket) (s : State) : Host.Outcome State Fault Refusal := hostCommand cmdTedsBind t b s
def execTedsLog (t : Time) (b : Basket) (s : State) : Host.Outcome State Fault Refusal := hostCommand cmdTedsLog t b s

end Sys2Proof.Machine
end

