-- ==== Sys2Proof/Machine/Bands.lean ====
section
/-!
DEFINITION. Rates of the tach inputs and the bands they clock (R115 to R118, R142 to R154): shared by the tach inputs and the Wringer.
-/

namespace Sys2Proof.Machine

/-- Units of 1/768 ns in one second. -/
def unitsPerSec : Nat := 768000000000

/-- A rational number of hertz, numerator over denominator. -/
structure Hz where
  num : Nat
  den : Nat
  deriving DecidableEq, Repr

/-- The shaft rate of which an edge interval is 1 ÷ PPR of a revolution. -/
def rateOf (ppr : Nat) (interval : Time) : Hz := { num := unitsPerSec, den := ppr * interval }

/-- Is an interval's rate above the maximum rate (0.01 Hz steps)? -/
def TachSet.over (s : TachSet) (interval : Time) : Bool := decide (100 * unitsPerSec > s.maxRate * s.ppr * interval)

/-- Is an interval's rate below the minimum rate? -/
def TachSet.under (s : TachSet) (interval : Time) : Bool := decide (100 * unitsPerSec < s.minRate * s.ppr * interval)

/-- Does a deviation from an interval lie within ETOL + AMAX ÷ (PPR × f²) of it, with f the interval's shaft rate (R116, R118)? -/
def TachSet.inGate (s : TachSet) (deviation interval : Nat) : Bool :=
  decide (deviation * 200 * (10 * unitsPerSec ^ 2) ≤ interval * (s.etol * (10 * unitsPerSec ^ 2) + 200 * s.amax * s.ppr * interval ^ 2))

/-- The same for a phase deviation in 2^-32 edge (R119, R122). -/
def TachSet.phaseInGate (s : TachSet) (deviation : Int) (interval : Nat) : Bool :=
  decide (deviation.natAbs * 200 * (10 * unitsPerSec ^ 2) ≤ 2 ^ 32 * (s.etol * (10 * unitsPerSec ^ 2) + 200 * s.amax * s.ppr * interval ^ 2))

/-- The effective loop bandwidth in 2^-32 Hz: the set one, or one twentieth of the edge rate (R115). -/
def TachSet.effectiveBw (s : TachSet) (interval : Time) : Nat :=
  min (s.bw * 2 ^ 32 / 10) (unitsPerSec * 2 ^ 32 / (20 * max 1 interval))

/-- The settings in force of a tach input. -/
def Dev.tachSet (d : Dev) (i : Fin 4) : TachSet := d.wr.live.tachs[i]

/-- The shaft rate that a tach's bands follow; its minimum rate while it is in ANGLE_LOST (R154). -/
def Dev.shaftRate (d : Dev) (i : Fin 4) : Hz :=
  let l := (d.tachs[i]).loop
  if l.state == .lost then { num := (d.tachSet i).minRate, den := 100 } else rateOf (d.tachSet i).ppr l.tpred

/-- Is band i of a plan enabled (Table 04-2)? -/
def Plan.on (p : Plan) (i : Nat) : Bool := decide (i < p.spectral) || (decide (24 ≤ i) && decide (i < 24 + p.envelope))

/-- The plan that a VIB channel selects. -/
def WringerSet.planOf (w : WringerSet) (ch : Nat) : Plan :=
  match w.vibs.toList[ch]? with
  | none => w.plans[0]
  | some v => w.plans[v.plan]

/-- The increment of the Hz-mode phase accumulator (R149). -/
def hzIncrement (centre : Nat) : Nat := (divRoundAway (centre * 2 ^ 38 : Nat) (256 * 49152000)).toNat

/-- The increment of the order-mode phase accumulator per angle tick (R150). -/
def orderIncrement (centre logRes : Nat) : Nat := (divRoundAway (64 * centre * 2 ^ 32 : Nat) (256 * 2 ^ logRes)).toNat

/-- The prefilter step n of 5 Hz × 2^n: the lowest at or above 8 × fc (R153, R154). -/
def prefilterStep (fc : Hz) : Nat :=
  ((List.range 16).find? (fun n => decide (8 * fc.num ≤ 5 * 2 ^ n * fc.den))).getD 15

/-- The absolute centre of a band: F_SAMPLE × INC ÷ 2^38 in Hz mode (R149), where F_SAMPLE follows its discipline (R151), and c × f in order mode
(R150). -/
def Dev.centre (d : Dev) (b : Band) : Hz :=
  if b.order then { num := b.centre * (d.shaftRate b.tach).num, den := 256 * (d.shaftRate b.tach).den }
  else { num := 49152000 * rated d.clk.edgeRate * hzIncrement b.centre, den := 2 ^ 38 * 1000000000 }

/-- pi in units of 10^-31, for the length of band settle windows. -/
def pi31 : Nat := 31415926535897932384626433832795

/-- 5 × Q ÷ (pi × fc) in units of 1/768 ns, rounded up (R178). -/
def settleLength (q : Nat) (fc : Hz) : Time :=
  let num := 5 * q * unitsPerSec * fc.den * 10 ^ 31
  let den := 4 * fc.num * pi31
  if den = 0 then 0 else (num + den - 1) / den

/-- A band settle window opens for a feature now (R178, R182). -/
def Dev.openBandSettle (d : Dev) (feature : Nat) (b : Band) : Dev :=
  d.onWr (fun w => { w with bandSettle :=
      (feature, { start := d.now, stop := some (d.now + settleLength b.q (d.centre b)) }) :: d.wr.bandSettle })

/-- The setting of a feature in a copy of the group. -/
def WringerSet.bandOf (w : WringerSet) (f : Nat) : Band := ((w.planOf (f / 32)).bands.toList[f % 32]?).getD Band.reset

/-- The enabled bands, as (feature, band). -/
def WringerSet.onBands (w : WringerSet) : List (Nat × Band) :=
  (List.range 16).flatMap (fun ch =>
    (((w.planOf ch).bands.toList.zipIdx).filter (fun b => (w.planOf ch).on b.2)).map (fun b => (32 * ch + b.2, b.1)))

/-- The enabled order-mode bands on a tach, as (feature, band). -/
def WringerSet.orderBands (w : WringerSet) (i : Fin 4) : List (Nat × Band) := w.onBands.filter (fun b => b.2.order && b.2.tach == i)

/-! ## Band clocks (R149, R150, R153, R154, R178, R182) -/

/-- The phase of a loop at an instant, in 2^-32 edge. -/
def TachLoop.phase (l : TachLoop) (t : Time) : Int :=
  match l.lastEdge with
  | none => (l.edges : Int) * 2 ^ 32
  | some e => (l.edges : Int) * 2 ^ 32 + ((t : Int) - e) * 2 ^ 32 / (max 1 l.tpred : Nat)

/-- The angle past absolute zero at an instant in 2^-32 edge; in acceleration it lags the edges (log entry 11). -/
def TachLoop.angle (l : TachLoop) (t : Time) : Int := l.phase t - l.zero - l.lag

/-- INC of a band under tach settings (R149, R150). -/
def Band.increment (b : Band) (w : WringerSet) : Nat :=
  if b.order then orderIncrement b.centre (w.tachs[b.tach]).logRes else hzIncrement b.centre

/-- The number of the SAMPLE edge, or of the angle tick, that a band's accumulator has counted (R149, R150). -/
def Dev.bandTicks (d : Dev) (w : WringerSet) (b : Band) : Int :=
  if b.order then
    let s := w.tachs[b.tach]
    (d.tachs[b.tach]).loop.angle d.now * ((2 ^ s.logRes : Nat) : Int) / ((max 1 s.ppr * 2 ^ 32 : Nat) : Int)
  else (d.clk.edgeFrom d.now : Int)

/-- The 32-bit accumulator of a band now; the angle clock emits no ticks in ANGLE_LOST (R129). -/
def Dev.accumulator (d : Dev) (w : WringerSet) (b : Band) (c : BandClock) : Nat :=
  if b.order && (d.tachs[b.tach]).loop.state == .lost then c.acc
  else (((c.acc : Int) + c.inc * (d.bandTicks w b - c.from_)) % 2 ^ 32).toNat

/-- Change the clock of a band, by feature, or of a carrier. -/
def Dev.onClock (d : Dev) (n : Nat) (f : BandClock → BandClock) : Dev := d.onWr (fun w => { w with clocks := updAt w.clocks n f })

/-- The angle clock of order-mode bands stops: their accumulators stand (R129). -/
def Dev.holdClocks (d : Dev) : List (Nat × Band) → Dev
  | [] => d
  | (f, b) :: r => (d.onClock f (fun c => { c with acc := d.accumulator d.wr.live b c })).holdClocks r

/-- The angle clock of order-mode bands starts, their filters cleared (R182). -/
def Dev.startClocks (d : Dev) : List (Nat × Band) → Dev
  | [] => d
  | (f, b) :: r => (d.onClock f (fun c => { c with from_ := d.bandTicks d.wr.live b, cleared := d.now })).startClocks r

/-- The prefilter corners of bands are selected by their centres now (R153, R154). -/
def Dev.prefilter (d : Dev) : List (Nat × Band) → Dev
  | [] => d
  | (f, b) :: r => (d.onClock f (fun c => { c with step := prefilterStep (d.centre b) })).prefilter r

/-- The address of the record of a feature for a frame (R464). -/
def recordAddr (frame feature : Nat) : Nat := frame % 2 * 0x1000 + 4 * feature

/-- A boundary of the frame in progress is due at this instant (R55, R56, R648); a cut frame carries TRUNCATED. -/
def Dev.makeDue (d : Dev) (cut : Bool) : Dev :=
  if d.wr.running then d.onWr (fun w => { w with due := some { at_ := d.now, cut := cut } }) else d

end Sys2Proof.Machine
end

