-- ==== Sys2Proof/Machine/TachInputs.lean ====
section
/-!
DEFINITION. Tach inputs (chapter 03): the angle PLL, index codes, floods, freewheel and loss, the angle word.
-/

namespace Sys2Proof.Machine

/-! ## Phase and angle -/

/-- Whole revolutions past absolute zero. -/
def TachLoop.revs (l : TachLoop) (ppr : Nat) (t : Time) : Int := l.angle t / ((max 1 ppr * 2 ^ 32 : Nat) : Int)

/-- The angle word of Table 03-5. -/
def TachLoop.word (l : TachLoop) (ppr : Nat) (t : Time) : BitVec 32 :=
  if l.state == .lost then l.heldWord
  else
    let perRev : Int := (max 1 ppr * 2 ^ 32 : Nat)
    let fraction := (l.angle t % perRev) * 65536 / perRev
    BitVec.ofNat 32 ((l.revs ppr t % 4096).toNat * 2 ^ 20 + fraction.toNat * 16 + if l.abs then 8 else 0) |||
      (if l.state == .freewheel then 4 else 0)

/-- The angle word of a tach at an instant (R130). -/
def Dev.angleWord (d : Dev) (i : Fin 4) (t : Time) : BitVec 32 := (d.tachs[i]).loop.word (d.tachSet i).ppr t

/-- Change one tach input. -/
def Dev.onTach (d : Dev) (i : Fin 4) (f : Tach → Tach) : Dev := d.onTachs (fun t => upd t i f)

/-- Change the loop of one tach input. -/
def Dev.onLoop (d : Dev) (i : Fin 4) (f : TachLoop → TachLoop) : Dev := d.onTach i (fun t => { t with loop := f t.loop })

/-- Post an event of a tach input to those granted it and basket 0. -/
def Dev.postTach (d : Dev) (i : Fin 4) (stamp : BitVec 64) (e : Ev) : Dev := d.post (d.holders (fun g => g.tachs[i])) stamp e

/-- Close the open windows of a list: a freewheel window ends at resumption or at a loss before its limit (log entry 11). -/
def closeWins (now : Time) (ws : List Win) : List Win := ws.map (fun w => if w.stop.isNone then { w with stop := some now } else w)

/-! ## Loss and lock -/

/-- The loop in ANGLE_LOST from now: the angle word holds the last tracked angle, and acquisition starts afresh (R127, R129, Table 03-5). -/
def TachLoop.lose (l : TachLoop) (ppr : Nat) (now : Time) : TachLoop :=
  let held := (l.word ppr now &&& (BitVec.ofNat 32 0xFFFFFFF0)) ||| 2
  { l with state := .lost, abs := false, heldWord := held, edges := 0, zero := 0, lastEdge := none, lastInterval := none, acq := 0,
           resume := 0, resumeK := 0, code := none, paired := false, shift := none, freeWins := closeWins now l.freeWins,
           lostWins := if l.state == .lost then l.lostWins else { start := now, stop := none } :: l.lostWins }

/-- ANGLE_LOST with a reason of Table 03-4 (R127, R128). An angle-mode frame counted on this tach ends here (R55); it is not cut
when the phase had reached its end (Table 03-7). -/
def Dev.angleLost (d : Dev) (i : Fin 4) (reason : Nat) : Dev :=
  let l := (d.tachs[i]).loop
  if l.state == .lost then d.onLoop i (fun l => l.lose (d.tachSet i).ppr d.now)
  else
    let reached := decide (d.wr.revEnd ≤ l.revs (d.tachSet i).ppr d.now)
    let d := (d.holdClocks (d.wr.live.orderBands i)).onLoop i (fun l => l.lose (d.tachSet i).ppr d.now)
    let d := d.postTach i d.stamp { event := .angleLost, subject := i.val, data0 := reason }
    if d.wr.live.frame.source == .angle && d.wr.live.frame.tach == i then
      let d := if d.wr.fallback then d else d.makeDue (!reached)
      d.onWr (fun w => { w with fallback := true, relock := false })
    else d

/-- Band settle windows open for the order-mode bands of a tach (R182). -/
def Dev.openOrderBands (d : Dev) : List (Nat × Band) → Dev
  | [] => d
  | (f, b) :: r => (d.openBandSettle f b).openOrderBands r

/-- The loop leaves ANGLE_LOST at an instant (R119 to R121). -/
def Dev.angleLock (d : Dev) (i : Fin 4) (at_ : Time) : Dev :=
  let set := d.tachSet i
  let d := d.onLoop i (fun l =>
    { l with state := .locked, abs := set.indexOn, zero := if set.indexOn then (match l.code with | some (_, z) => z | none => l.phase at_)
                                                           else l.phase at_,
             lag := 0, tpred := match l.lastInterval with | some T => T | none => l.tpred, lostWins := closeWins at_ l.lostWins })
  let id := if set.indexOn then (match (d.tachs[i]).loop.code with | some (c, _) => c.toNat | none => 0xFFFF) else 0xFFFF
  let d := d.postTach i (d.stampAt at_) { event := .angleLock, subject := i.val, data0 := set.indexOn.toNat, data1 := id }
  let d := (d.startClocks (d.wr.live.orderBands i)).openOrderBands (d.wr.live.orderBands i)
  if d.wr.live.frame.source == .angle && d.wr.live.frame.tach == i && d.wr.fallback then
    d.onWr (fun w => { w with relock := true, revEnd := (d.tachs[i]).loop.revs set.ppr at_ + 1 })
  else d

/-- Has acquisition completed, the code pair included where the index code is enabled (R118, R119)? -/
def TachLoop.ready (l : TachLoop) (s : TachSet) : Bool := decide (2 * s.ppr ≤ l.acq) && (!s.indexOn || l.paired)

/-! ## Edges -/

/-- An edge during acquisition (R118). An interval that fails starts the count afresh at 0, and is no rejected edge (log entry 11). -/
def TachLoop.acquire (l : TachLoop) (s : TachSet) (now : Time) : TachLoop :=
  match l.lastEdge with
  | none => { l with lastEdge := some now, lastInterval := none, acq := 0 }
  | some e =>
    let T := now - e
    let steady := match l.lastInterval with
      | none => true
      | some T' => s.inGate ((T : Int) - T').natAbs T'
    { l with edges := l.edges + 1, lastEdge := some now, lastInterval := some T, tpred := T,
             acq := if steady && !s.over T && !s.under T then l.acq + 1 else 0 }

/-- The end of the freewheel window (R124). -/
def TachLoop.freeEnd (l : TachLoop) (s : TachSet) : Time := l.freeStart + s.freewheelLimit * s.ppr * l.tpred

/-- An edge in the freewheel window (R125). A skipped or doubled prediction starts the count afresh, and an edge that fails the gate counts as
rejected (log entry 11). -/
def TachLoop.resumeEdge (l : TachLoop) (s : TachSet) (now : Time) : TachLoop :=
  let T := now - l.lastEdge.getD now
  let k := max 1 ((2 * T + l.tpred) / (2 * max 1 l.tpred))
  if s.inGate ((T : Int) - (k * l.tpred : Nat)).natAbs l.tpred then
    let n := if l.resume = 0 ∨ k = l.resumeK + 1 then l.resume + 1 else 1
    if s.ppr ≤ n then
      { l with state := .locked, edges := l.edges + k, lastEdge := some now, resume := 0, resumeK := 0, freeWins := closeWins now l.freeWins }
    else { l with resume := n, resumeK := k }
  else { l with resume := 0, rejectedEdges := l.rejectedEdges + 1 }

/-- Is a flood window of a list open at an instant? -/
def floodAt (ws : List Win) (t : Time) : Bool := ws.any (·.has t)

/-- Is a flood window open at an instant on either input of the head (R110, R113)? -/
def Tach.flooded (x : Tach) (t : Time) : Bool := floodAt x.floodTach t || floodAt x.floodIndex t

/-- Is it time to judge what the input did at an instant? At once, by the SAMPLE edge that captures it; on an OPTICAL input two SAMPLE edges later
than a flood that began by then is confirmed (R113; log entry 11). -/
def Dev.judgeable (d : Dev) (s : TachSet) (t : Time) : Bool :=
  if s.mode == .optical then decide (d.sampleEdge (t + us 2) 1 ≤ d.now) && decide (d.now ≤ d.sampleEdge (t + us 2) 2)
  else decide (t ≤ d.now) && decide (d.now ≤ d.sampleEdge t 0)

/-- A tach edge with its timestamp (R113, R116, R118, R120, R121, R125, R128). -/
def Dev.tachEdge (d : Dev) (i : Fin 4) (edge : Time) : Dev :=
  let s := d.tachSet i
  let x := d.tachs[i]
  let l := x.loop
  if s.mode == .off || !d.judgeable s edge || (s.mode == .optical && x.flooded edge) then d
  else
    match l.state with
    | .lost =>
      let d := d.onLoop i (fun l => l.acquire s edge)
      if (d.tachs[i]).loop.ready s then d.angleLock i edge else d
    | .locked =>
      let T := edge - l.lastEdge.getD edge
      if !s.inGate ((T : Int) - l.tpred).natAbs l.tpred then
        d.onLoop i (fun l => { l with rejectedEdges := l.rejectedEdges + 1 })
      else if s.over T then d.angleLost i 2
      else
        let (n, d) := d.draw
        d.onLoop i (fun l =>
          { l with edges := l.edges + 1, lastEdge := some edge, lastInterval := some T, lag := Config.pllLag n (s.effectiveBw l.tpred) l.tpred T,
                   tpred := max 1 (Config.pllPredict n (s.effectiveBw l.tpred) l.tpred T) })
    | .freewheel => if edge < l.freeEnd s then d.onLoop i (fun l => l.resumeEdge s edge) else d

/-- The tach PLLs run in BOOT, ACTIVE and WATCH, and in HOLD with the SAMPLE domain (Table 17-6). -/
def execTachEdge (t : Time) (mark : TachMark) (s : State) : Host.Outcome State Fault Refusal :=
  onDev s t (fun d => if d.sampling then d.tachEdge mark.tach mark.edge else d)

/-! ## Index codes -/

/-- The cell time w: from the rising to the falling edge of START. -/
def codeCell (r : IndexRead) : Time := (r.transitions.head?).getD r.start - r.start

/-- The end of STOP. -/
def codeStop (r : IndexRead) : Time := r.start + 11 * (codeCell r)

/-- Is cell k bright at its centre? The level is bright from START on and changes at every transition. -/
def codeBright (r : IndexRead) (k : Nat) : Bool :=
  (r.transitions.filter (fun t => decide (2 * (t - r.start) ≤ (2 * k + 1) * (codeCell r)))).length % 2 == 0

/-- The identity in cells 1 to 8 (Table 03-2). -/
def codeIdentity (r : IndexRead) : BitVec 8 := BitVec.ofNat 8 (packBits ((List.range 8).map (fun k => codeBright r (k + 1))))

/-- Does every transition of the code lie within 0.25 w of a cell boundary (R108)? -/
def codeAligned (r : IndexRead) : Bool :=
  (r.transitions.filter (fun t => decide (t < (codeStop r)))).all (fun t =>
    let o := (t - r.start) % (codeCell r)
    decide (4 * o ≤ (codeCell r)) || decide (4 * ((codeCell r) - o) ≤ (codeCell r)))

/-- The reason a code is rejected under R108, the first of Table 03-3 (R109), with the identity reported: 0xFFFF where the cells are not read as
the code gives them, under FLOOD and TIMING (log entry 11). -/
def indexFault (r : IndexRead) (s : TachSet) (flooded : Bool) : Option (Nat × Nat) :=
  let ones := ((List.range 9).filter (fun k => codeBright r (k + 1))).length
  let id := (codeIdentity r).toNat
  if flooded then some (1, 0xFFFF)
  else if ones % 2 = 0 then some (2, id)
  else if (codeCell r) < us 1 || decide (ms 100 < (codeCell r)) || !(codeAligned r) then some (3, 0xFFFF)
  else if codeBright r 10 then some (4, id)
  else match s.expected with
    | some e => if e == (codeIdentity r) then none else some (5, id)
    | none => none

/-- A rejected code (R109). -/
def Dev.indexBad (d : Dev) (i : Fin 4) (reason id : Nat) : Dev :=
  (d.onTach i (fun x => { x with rejectedCodes := x.rejectedCodes + 1 })).postTach i d.stamp
    { event := .indexBad, subject := i.val, data0 := reason, data1 := id }

/-- Do two codes agree: equal identity, the second START edge PPR accepted edges after the first, within the edge gate (R119)? -/
def TachLoop.agrees (l : TachLoop) (s : TachSet) (first : Option (BitVec 8 × Int)) (id : BitVec 8) (phase : Int) : Bool :=
  match first with
  | none => false
  | some (i, p) => i == id && s.phaseInGate (phase - p - ((s.ppr * 2 ^ 32 : Nat) : Int)) l.tpred

/-- A valid code (R119, R121, R122). It and a SHIFT code are those whose identity counts as the last decoded; a code rejected under R108 does
not (log entry 11). -/
def Dev.indexGood (d : Dev) (i : Fin 4) (r : IndexRead) : Dev :=
  let s := d.tachSet i
  let l := (d.tachs[i]).loop
  let phase := l.phase r.start
  let d := d.onTach i (fun x => { x with lastId := (codeIdentity r) })
  match l.state with
  | .lost =>
    let d := d.onLoop i (fun l => { l with code := some ((codeIdentity r), phase), paired := l.agrees s l.code (codeIdentity r) phase })
    if (d.tachs[i]).loop.ready s then d.angleLock i d.now else d
  | .freewheel => d
  | .locked =>
    if !l.abs then d
    else
      let perRev : Int := (s.ppr * 2 ^ 32 : Nat)
      let off := (phase - l.zero + perRev / 2) % perRev - perRev / 2
      if s.phaseInGate off l.tpred then d.onLoop i (fun l => { l with shift := none })
      else
        let d := d.indexBad i 6 (codeIdentity r).toNat
        if l.agrees s l.shift (codeIdentity r) phase then d.angleLost i 4
        else d.onLoop i (fun l => { l with shift := some ((codeIdentity r), phase) })

/-- Does a flood window overlap a code (R108)? -/
def Tach.floodMeets (x : Tach) (start stop : Time) : Bool :=
  x.floodTach.any (·.meets start stop) || x.floodIndex.any (·.meets start stop)

/-- INDEX_CODE (R107 to R109, R119, R122): judged once a flood that began before the end of STOP is confirmed. -/
def execIndexCode (t : Time) (tach : Fin 4) (read : IndexRead) (s : State) : Host.Outcome State Fault Refusal :=
  onDev s t (fun d =>
    let set := d.tachSet tach
    if !d.sampling || set.mode == .off || !set.indexOn || decide (d.now < d.sampleEdge ((codeStop read) + us 2) 1) then d
    else match indexFault read set ((d.tachs[tach]).floodMeets read.start (codeStop read)) with
      | some (reason, id) => d.indexBad tach reason id
      | none => d.indexGood tach read)

/-! ## Floods -/

/-- Enter freewheel at an instant (R123). -/
def Dev.enterFreewheel (d : Dev) (i : Fin 4) (start : Time) : Dev :=
  let d := d.onLoop i (fun l =>
    { l with state := .freewheel, freeStart := start, resume := 0, resumeK := 0, freeWins := { start := start, stop := none } :: l.freeWins })
  d.postTach i (d.stampAt start) { event := .freewheel, subject := i.val }

/-- A band value of the ended frame carries FREEWHEEL after all (R133, R135), in its record too once that is written. -/
def Dev.markFree (d : Dev) (e : EndedFrame) (f : Nat) (v : BandValue) : Dev :=
  let a := recordAddr e.num f
  let d := d.onWr (fun w => { w with ended := w.ended.map (fun e =>
      { e with values := e.values.modify f (fun v => { v with flags := v.flags ||| 8 }) }) })
  if if v.count then e.counted else e.handedOff then d.memWrite a [BitVec.ofNat 8 (d.sram.value a 1) ||| 8] else d

/-- Does a freewheel window of a tach mark the values of a feature (R133, R135)? -/
def Dev.freeMarks (d : Dev) (i : Fin 4) (f : Nat) : Bool :=
  (d.wr.live.frame.source == .angle && d.wr.live.frame.tach == i) || (d.wr.live.orderBands i).any (fun b => b.1 == f)

/-- A freewheel window that began before the end of the ended frame marks its values (R133, R135). -/
def Dev.markEnded (d : Dev) (i : Fin 4) (start : Time) : Dev :=
  match d.wr.ended with
  | none => d
  | some e =>
    if e.stop ≤ start then d
    else (e.values.zipIdx).foldl (fun d x => if x.1.enabled && !e.blanked && d.freeMarks i x.2 then d.markFree e x.2 x.1 else d) d

/-- A flood condition starts, confirmed 2 us after the level crossed (R110, R112); one on TACHn and one on TIDXn are two conditions, each with its
event (log entry 11). On an OPTICAL tach input a locked loop freewheels from the flood start (R113, R123). -/
def Dev.floodStart (d : Dev) (i : Fin 4) (onIndex : Bool) (crossed : Time) : Dev :=
  let add := fun (ws : List Win) => ({ start := crossed, stop := none } :: ws).take 2
  let d := d.onTach i (fun x => if onIndex then { x with floodIndex := add x.floodIndex } else { x with floodTach := add x.floodTach })
  let d := d.postTach i (d.stampAt crossed) { event := .flood, subject := i.val }
  if (d.tachSet i).mode == .optical && (d.tachs[i]).loop.state == .locked then (d.enterFreewheel i crossed).markEnded i crossed else d

/-- FLOOD_START (R110, R112 to R114): at the SAMPLE edge of its confirmation (R45). -/
def execFloodStart (t : Time) (tach : Fin 4) (onIndex : Bool) (crossed : Time) (s : State) : Host.Outcome State Fault Refusal :=
  onDev s t (fun d =>
    let mode := (d.tachSet tach).mode
    let x := d.tachs[tach]
    let isOpen := floodAt (if onIndex then x.floodIndex else x.floodTach) d.now
    if d.sampling && decide (crossed + us 2 ≤ d.now) && decide (d.now ≤ d.sampleEdge (crossed + us 2) 0) && !isOpen &&
        (if onIndex then mode != .off else mode == .optical) then
      d.floodStart tach onIndex crossed
    else d)

/-- The open flood window of a list ends 100 us after the level fell, if it fell while the window was open (R111). -/
def endFlood (below : Time) (ws : List Win) : List Win :=
  ws.map (fun w => if w.stop.isNone && decide (w.start ≤ below) then { w with stop := some (below + us 100) } else w)

/-- FLOOD_END (R111): the level has stayed below the lower threshold for 100 us. -/
def execFloodEnd (t : Time) (tach : Fin 4) (fall : FloodFall) (s : State) : Host.Outcome State Fault Refusal :=
  onDev s t (fun d =>
    if d.now < fall.below + us 100 then d
    else d.onTach tach (fun x => if fall.onIndex then { x with floodIndex := endFlood fall.below x.floodIndex }
      else { x with floodTach := endFlood fall.below x.floodTach }))

/-! ## Freewheel and loss -/

/-- Is it certain that no edge up to an instant is still to be judged (R113, R117, R126)? -/
def Dev.settledTo (d : Dev) (s : TachSet) (t : Time) : Bool :=
  decide (t ≤ d.now) && (s.mode != .optical || decide (d.sampleEdge (t + us 2) 2 ≤ d.now))

/-- FREEWHEEL (R117, R123). -/
def execFreewheel (t : Time) (tach : Fin 4) (s : State) : Host.Outcome State Fault Refusal :=
  onDev s t (fun d =>
    let l := (d.tachs[tach]).loop
    match l.state, l.lastEdge with
    | .locked, some e => if d.sampling && d.settledTo (d.tachSet tach) (e + (3 * l.tpred + 1) / 2) then d.enterFreewheel tach d.now else d
    | _, _ => d)

/-- FREEWHEEL_LIMIT (R126). -/
def execFreewheelLimit (t : Time) (tach : Fin 4) (s : State) : Host.Outcome State Fault Refusal :=
  onDev s t (fun d =>
    let l := (d.tachs[tach]).loop
    let stop := l.freeEnd (d.tachSet tach)
    if d.sampling && l.state == .freewheel && d.settledTo (d.tachSet tach) stop then
      (d.onLoop tach (fun l => { l with freeWins := closeWins stop l.freeWins })).angleLost tach 1
    else d)

/-- UNDERSPEED (R127, R128): the rate estimate lies below the minimum rate. -/
def execUnderspeed (t : Time) (tach : Fin 4) (s : State) : Host.Outcome State Fault Refusal :=
  onDev s t (fun d =>
    let l := (d.tachs[tach]).loop
    if d.sampling && l.state != .lost && (d.tachSet tach).under l.tpred then d.angleLost tach 3 else d)

/-! ## Settings and status -/

/-- Change the staged settings of a tach input (R139). -/
def Dev.stageTach (d : Dev) (i : Nat) (f : TachSet → TachSet) : Dev :=
  d.onWr (fun w => { w with staged := { d.wr.staged with tachs := updAt d.wr.staged.tachs i f } })

/-- The mode that ARG1[1:0] names (Table 03-6). -/
def tachModeOf : Nat → TachMode
  | 0 => .off | 1 => .digital | 2 => .analogue | _ => .optical

/-- TACH_SET (R137, R138). -/
def cmdTachSet : Command :=
  { code := 0x020A, sup := true, names := fun x d => x.tach d (x.arg 0), zero := fun x _ => x.arg 2 == 0,
    range := fun x _ =>
      let res := bits (x.arg 1) 7 3
      let limit := bits (x.arg 1) 11 8
      let hi := x.arg32 3
      let lo := x.arg32 5
      argRange (decide (6 ≤ res) && decide (res ≤ 16) && decide (1 ≤ limit) && decide (limit ≤ 8) && decide (x.arg 2 ≤ 1024) &&
        decide (10 ≤ hi) && decide (hi ≤ 100000) && decide (10 ≤ lo) && decide (lo ≤ hi) && decide (2 ^ res * hi ≤ 256000000)),
    act := fun x d =>
      (d.stageTach (x.arg 0) (fun s =>
        { s with mode := tachModeOf (bits (x.arg 1) 1 0), logRes := bits (x.arg 1) 7 3, freewheelLimit := bits (x.arg 1) 11 8,
                 ppr := x.arg 2, maxRate := x.arg32 3, minRate := x.arg32 5 }), .ok []) }

/-- TACH_SET_LOOP (R137). -/
def cmdTachSetLoop : Command :=
  { code := 0x020B, sup := true, names := fun x d => x.tach d (x.arg 0),
    range := fun x _ =>
      argRange (decide (1 ≤ x.arg 1) && decide (x.arg 1 ≤ 500) && decide (1 ≤ x.arg 2) && decide (x.arg 2 ≤ 50000) &&
        decide (1 ≤ x.arg 3) && decide (x.arg 3 ≤ 50) && decide (1 ≤ x.arg 4) && decide (x.arg 4 ≤ 50) &&
        decide (50 ≤ x.arg 5) && decide (x.arg 5 ≤ 98) && decide (1000 ≤ x.arg32 6) && decide (x.arg32 6 ≤ 60000000)),
    act := fun x d =>
      (d.stageTach (x.arg 0) (fun s =>
        { s with bw := x.arg 1, amax := x.arg 2, etol := x.arg 3, hysteresis := x.arg 4, floodThreshold := x.arg 5,
                 fallback := x.arg32 6 }), .ok []) }

/-- TACH_SET_INDEX (R119, Table 03-6). -/
def cmdTachSetIndex : Command :=
  { code := 0x020C, sup := true, names := fun x d => x.tach d (x.arg 0), range := fun x _ => argRange (decide (x.arg 2 ≤ 0x100)),
    act := fun x d =>
      (d.stageTach (x.arg 0) (fun s =>
        { s with indexOn := x.argBit 1 0, expected := if x.arg 2 = 0x100 then none else some (BitVec.ofNat 8 (x.arg 2)) }), .ok []) }

/-- The number of a lock state in TACH_STATUS (log entry 11). -/
def PllState.number : PllState → Nat
  | .lost => 0 | .locked => 1 | .freewheel => 2

/-- The items of R131, the shaft rate rounded down (log entry 11). -/
def Dev.tachReport (d : Dev) (i : Fin 4) : List Byte :=
  let x := d.tachs[i]
  let l := x.loop
  let flags := packBits [x.flooded d.now, l.state == .freewheel, l.state == .lost, l.abs]
  let rate := if l.state == .lost then Config.lostRate d.free else unitsPerSec * 1000000 / ((d.tachSet i).ppr * l.tpred)
  w32 l.state.number ++ w32 flags ++ w32 rate ++ w32 (d.angleWord i d.now).toNat ++ w32 x.lastId.toNat ++ w32 l.rejectedEdges.toNat ++
    w32 x.rejectedCodes.toNat

/-- TACH_STATUS (R131). -/
def cmdTachStatus : Command :=
  blockCommand 0x020D false (fun x d => x.tach d (x.arg 0)) (fun _ _ => none)
    (fun x d => if h : x.arg 0 < 4 then d.tachReport ⟨x.arg 0, h⟩ else [])

def execTachSet (t : Time) (b : Basket) (s : State) : Host.Outcome State Fault Refusal := hostCommand cmdTachSet t b s
def execTachSetLoop (t : Time) (b : Basket) (s : State) : Host.Outcome State Fault Refusal := hostCommand cmdTachSetLoop t b s
def execTachSetIndex (t : Time) (b : Basket) (s : State) : Host.Outcome State Fault Refusal := hostCommand cmdTachSetIndex t b s
def execTachStatus (t : Time) (b : Basket) (s : State) : Host.Outcome State Fault Refusal := hostCommand cmdTachStatus t b s

end Sys2Proof.Machine
end

