-- ==== Sys2Proof/Machine/Rings.lean ====
section
/-!
DEFINITION. Ring taps (R259 to R264, R286 to R288): entries, triggers, and the ring commands.
-/

namespace Sys2Proof.Machine

/-- Change one chain. -/
def Dev.onChain (d : Dev) (pos : Nat) (f : Chain → Chain) : Dev :=
  d.onRinse (fun r => { r with chains := updAt d.rinse.chains pos f })

/-- The ring tap of a basket on a chain. -/
def Dev.ring (d : Dev) (pos : Nat) (b : Basket) : Option Ring :=
  match d.rinse.chains.toList[pos]? with
  | none => none
  | some c => c.rings[b]

/-- Put a ring tap. -/
def Dev.putRing (d : Dev) (pos : Nat) (b : Basket) (r : Ring) : Dev :=
  d.onChain pos (fun c => { c with rings := c.rings.set b (some r) })

/-- Bytes of one entry (R259). -/
def Ring.size (r : Ring) : Nat := if r.withAngle then 8 else 4

/-- Does the ring run? -/
def Ring.on (r : Ring) : Bool := r.state != .stopped

/-- EV_RING_DONE goes to the basket whose ring it is, and to basket 0 (Table 14-4). -/
def ringTo (b : Basket) : Nat → Bool := fun i => i == 0 || i == b.val

/-- A ring stops: 0 COMPLETE, 1 STOPPED (Table 16-16). A CONTINUOUS ring posts nothing (R286). -/
def Dev.ringStop (d : Dev) (pos : Nat) (b : Basket) (r : Ring) (reason : Nat) : Dev :=
  let d := d.putRing pos b { r with state := .stopped }
  if r.mode == .continuous then d
  else d.post (ringTo b) d.stamp
    { event := .ringDone, subject := pos, data0 := reason, data1 := r.total.toNat % 65536, tag := r.tag }

/-- Write one entry (R259, R260). -/
def Dev.ringWrite (d : Dev) (pos : Nat) (b : Basket) (r : Ring) (word : BitVec 32) : Dev × Ring :=
  let angle := if r.withAngle then w32 (d.angleWord r.tach d.now).toNat else []
  let r' := { r with next := (r.next + 1) % max 1 r.length, total := r.total + 1, newest := d.stamp }
  ((d.memWrite (r.base + r.next * r.size) (w32 word.toNat ++ angle)).putRing pos b r', r')

/-- One output sample reaches one running ring (R261, R262, R288). -/
def Dev.ringTake (d : Dev) (pos : Nat) (b : Basket) (word : BitVec 32) : Dev :=
  match d.ring pos b with
  | none => d
  | some r =>
    match r.state, r.mode with
    | .stopped, _ => d
    | _, .continuous => (d.ringWrite pos b r word).1
    | _, .once =>
      let (d, r) := d.ringWrite pos b r word
      if r.length ≤ r.total.toNat then d.ringStop pos b r 0 else d
    | .running, .triggered =>
      (match r.trigAt with
      | none => (d.ringWrite pos b r word).1
      | some t =>
        if d.now < t then (d.ringWrite pos b r word).1
        else if r.post = 0 then d.ringStop pos b r 0
        else
          let (d, r) := d.ringWrite pos b { r with state := .post, trigIndex := some r.next, postLeft := r.post - 1 } word
          if r.postLeft = 0 then d.ringStop pos b r 0 else d)
    | .post, .triggered =>
      let (d, r) := d.ringWrite pos b { r with postLeft := r.postLeft - 1 } word
      if r.postLeft = 0 then d.ringStop pos b r 0 else d

/-- One output sample reaches the four ring taps of its chain. -/
def Dev.ringsTake (d : Dev) (pos : Nat) (word : BitVec 32) : Dev :=
  (((d.ringTake pos 0 word).ringTake pos 1 word).ringTake pos 2 word).ringTake pos 3 word

/-- A trigger reaches a ring (R262, R263): the first counts. An output that was written with the timestamp of this instant is the trigger output; else
the next one is. -/
def Dev.ringTrigger (d : Dev) (pos : Nat) (b : Basket) (r : Ring) : Dev :=
  if r.state != .running || r.mode != .triggered || r.trigAt.isSome then d
  else
    let r := { r with trigAt := some d.now }
    if r.total = 0 ∨ r.newest ≠ d.stamp then d.putRing pos b r
    else
      let i := (r.next + r.length - 1) % max 1 r.length
      if r.post = 0 then d.ringStop pos b { r with next := i, total := r.total - 1 } 0
      else
        let r := { r with state := .post, trigIndex := some i, postLeft := r.post - 1 }
        if r.postLeft = 0 then d.ringStop pos b r 0 else d.putRing pos b r

/-- A comparator's latch sets: the rings of a basket on a chain that it triggers, if the basket holds it (R262). -/
def Dev.latchTrigger (d : Dev) (comp : Fin 32) (pos : Nat) (b : Basket) : Dev :=
  match d.ring pos b with
  | none => d
  | some r => if (d.grants[b]).comparators[comp] && r.comp == some comp then d.ringTrigger pos b r else d

/-- The rings of every chain that a comparator's latch triggers. -/
def Dev.latchTriggers (d : Dev) (comp : Fin 32) : Dev :=
  (List.range 24).foldl (fun d pos => (((d.latchTrigger comp pos 0).latchTrigger comp pos 1).latchTrigger comp pos 2).latchTrigger comp pos 3) d

/-- Stop the running rings of a chain (R286). -/
def Dev.ringsStop (d : Dev) (pos : Nat) : Dev :=
  let one := fun (d : Dev) (b : Basket) => (match d.ring pos b with
    | none => d
    | some r => if r.on then d.ringStop pos b r 1 else d)
  one (one (one (one d 0) 1) 2) 3

/-! ## Commands -/

/-- Ring length in entries (ARG3 is the length ÷ 64). -/
def ringLength (x : Ctx) : Nat := 64 * x.arg 3

/-- The ring that RN_RING_SET describes (Table 16-7). -/
def ringOf (x : Ctx) : Ring :=
  let mode : RingMode := match bits (x.arg 4) 1 0 with | 0 => .continuous | 1 => .once | _ => .triggered
  { base := x.arg32 1, length := ringLength x, mode := mode, withAngle := x.argBit 4 2, tach := Fin.ofNat 4 (bits (x.arg 4) 5 4),
    comp := if mode == .triggered then (if h : x.arg 5 < 32 then some ⟨x.arg 5, h⟩ else none) else none, post := x.arg32 6, tag := 0,
    state := .stopped, next := 0, total := 0, newest := 0, trigAt := none, trigIndex := none, postLeft := 0 }

/-- RN_RING_SET (R261, R287, R288). -/
def cmdRnRingSet : Command :=
  { code := 0x040A,
    names := fun x d =>
      x.channel d (x.arg 0) && x.memory d (x.arg32 1) (ringLength x * (ringOf x).size) &&
        (!(ringOf x).withAngle || x.tach d (ringOf x).tach) &&
        ((ringOf x).mode != .triggered || x.arg 5 == 0xFF || x.comparator d (x.arg 5)),
    zero := fun x _ => x.arg 3 == 0,
    range := fun x _ =>
      argRange (x.arg32 1 % 64 == 0 && (List.range 15).any (fun k => x.arg 3 == 2 ^ k) && decide (bits (x.arg 4) 1 0 ≤ 2) &&
        decide (x.arg32 6 ≤ ringLength x)),
    state := fun x d => need (match d.ring (x.arg 0) x.b with | none => true | some r => !r.on) .busy,
    act := fun x d => (d.putRing (x.arg 0) x.b (ringOf x), .ok []) }

/-- RN_RING_START (R261, R263): starts afresh, or rearms. The ring must lie in the basket's grant (R287); a tap never set starts
nothing (log entry 14). -/
def cmdRnRingStart : Command :=
  { code := 0x040B,
    names := fun x d => x.channel d (x.arg 0) &&
      (match d.ring (x.arg 0) x.b with | none => true | some r => x.memory d r.base (r.length * r.size)),
    act := fun x d => (match d.ring (x.arg 0) x.b with
      | none => d
      | some r => d.putRing (x.arg 0) x.b
          { r with state := .running, next := 0, total := 0, newest := 0, trigAt := none, trigIndex := none, postLeft := 0, tag := x.tag }, .ok []) }

/-- RN_RING_STOP (R286). -/
def cmdRnRingStop : Command :=
  { code := 0x040C, names := fun x d => x.channel d (x.arg 0),
    act := fun x d => (match d.ring (x.arg 0) x.b with
      | none => d
      | some r => if r.on then d.ringStop (x.arg 0) x.b r 1 else d, .ok []) }

/-- RN_TRIGGER (R262, R263). -/
def cmdRnTrigger : Command :=
  { code := 0x040D, names := fun x d => x.channel d (x.arg 0),
    state := fun x d => need (match d.ring (x.arg 0) x.b with | none => false | some r => r.on && r.mode == .triggered) .state,
    act := fun x d => (match d.ring (x.arg 0) x.b with
      | none => d
      | some r => d.ringTrigger (x.arg 0) x.b r, .ok []) }

/-- The number of a ring mode in RN_STATUS (Table 06-6). -/
def RingMode.number : RingMode → Nat
  | .continuous => 0 | .once => 1 | .triggered => 2

/-- The number of a ring state in RN_STATUS (log entry 14). -/
def RingState.number : RingState → Nat
  | .stopped => 0 | .running => 1 | .post => 2

/-- The items of R264. The trigger index is an item in TRIGGERED mode only. A tap never set reports zeros. -/
def ringReport (free : Nat) : Option Ring → List Byte
  | none => w32 0 ++ w32 0 ++ w32 0 ++ w32 0 ++ w64 0
  | some r => w32 r.mode.number ++ w32 r.state.number ++ w32 r.next ++ w32 r.total.toNat ++ w64 r.newest.toNat ++
      (if r.mode == .triggered then w32 (r.trigIndex.getD (Config.noTrigger free)) else [])

def execRnRingSet (t : Time) (b : Basket) (s : State) : Host.Outcome State Fault Refusal := hostCommand cmdRnRingSet t b s
def execRnRingStart (t : Time) (b : Basket) (s : State) : Host.Outcome State Fault Refusal := hostCommand cmdRnRingStart t b s
def execRnRingStop (t : Time) (b : Basket) (s : State) : Host.Outcome State Fault Refusal := hostCommand cmdRnRingStop t b s
def execRnTrigger (t : Time) (b : Basket) (s : State) : Host.Outcome State Fault Refusal := hostCommand cmdRnTrigger t b s

end Sys2Proof.Machine
end

