-- ==== Sys2Proof/Machine/Wringer.lean ====
section
/-!
DEFINITION. The Wringer (chapter 04): staged settings, the band values of an ended frame, and their readout in direct and count mode.
-/

namespace Sys2Proof.Machine

/-! ## Staged settings -/

/-- Change the staged copy of the Wringer group. -/
def Dev.stageWr (d : Dev) (f : WringerSet → WringerSet) : Dev := d.onWr (fun w => { w with staged := f d.wr.staged })

/-- The band that WR_SET_PLAN's arguments describe (Table 16-5); one in Hz mode has no tach (Table 04-3). -/
def bandOfArgs (x : Ctx) (q : Nat) : Band :=
  { order := x.argBit 2 0, tach := if x.argBit 2 0 then Fin.ofNat 4 (bits (x.arg 2) 2 1) else 0, centre := x.arg32 3, q := q, square := x.argBit 2 3,
    scale := bits (x.arg 2) 6 4 }

/-- Is a band setting within Table 04-3? -/
def Band.inRange (b : Band) : Bool :=
  decide (8 ≤ b.q) && decide (b.q ≤ 160) &&
    (if b.order then decide (64 ≤ b.centre) && decide (b.centre ≤ 131072) else decide (512 ≤ b.centre) && decide (b.centre ≤ 10240000))

/-- WR_SET_PLAN (R170, R183): one band, or the plan-wide fields when ARG1 is 0xFF. -/
def cmdWrSetPlan : Command :=
  { code := 0x0210, sup := true,
    names := fun x d => x.arg 1 == 0xFF || !x.argBit 2 0 || x.tach d (bits (x.arg 2) 2 1),
    range := fun x _ =>
      argRange (decide (x.arg 0 < 8) &&
        (if x.arg 1 = 0xFF then
          decide (bits (x.arg 2) 4 0 ≤ 24) && decide (bits (x.arg 2) 11 8 ≤ 8) && decide (128000 ≤ x.arg32 3) &&
            decide (x.arg32 3 ≤ 10240000) && decide (4 ≤ x.arg 5) && decide (x.arg 5 ≤ 40) && decide (100 ≤ x.arg 6) && decide (x.arg 6 ≤ 5000)
        else decide (x.arg 1 < 32) && (bandOfArgs x (x.arg 5)).inRange)),
    act := fun x d =>
      (d.stageWr (fun w => { w with plans := updAt w.plans (x.arg 0) (fun p =>
        if x.arg 1 = 0xFF then
          { p with spectral := bits (x.arg 2) 4 0, envelope := bits (x.arg 2) 11 8, carrier := x.arg32 3, carrierQ := x.arg 5, corner := x.arg 6 }
        else { p with bands := updAt p.bands (x.arg 1) (fun _ => bandOfArgs x (x.arg 5)) }) }), .ok []) }

/-- Does the argument name a VIB channel the basket holds? -/
def Ctx.vib (x : Ctx) (d : Dev) (n : Nat) : Bool := decide (n < 16) && x.channel d n

/-- WR_SET_CHANNEL (R172). -/
def cmdWrSetChannel : Command :=
  { code := 0x0211, sup := true, names := fun x d => x.vib d (x.arg 0),
    act := fun x d =>
      (d.stageWr (fun w => { w with vibs := updAt w.vibs (x.arg 0) (fun v =>
        { v with plan := Fin.ofNat 8 (bits (x.arg 1) 2 0), count := x.argBit 1 4 }) }), .ok []) }

/-- The cycle lengths that a command is judged against: the live one, and the captured one while an Ixward commit is pending (R828). -/
def Dev.cycleLengths (d : Dev) : List Nat :=
  d.link.live.set.cycleUs :: (match d.link.pending with | none => [] | some p => [p.copy.set.cycleUs])

/-- Is a network-mode length within Table 01-4 for a cycle length? -/
def netLenInRange (len cycleUs : Nat) : Bool :=
  decide (1 ≤ len) && decide (len ≤ 240000) && decide (1000 ≤ len * cycleUs) && decide (len * cycleUs ≤ 60000000)

/-- WR_SET_FRAME (R50 to R52): the length of the source named, and the tach input in angle mode. -/
def cmdWrSetFrame : Command :=
  { code := 0x0212, sup := true, names := fun x d => x.arg 0 != 1 || x.tach d (x.arg 1), zero := fun x _ => x.arg32 2 == 0,
    range := fun x d =>
      let len := x.arg32 2
      argRange (match x.arg 0 with
        | 0 => decide (1000 ≤ len) && decide (len ≤ 60000000)
        | 1 => decide (len ≤ 4096)
        | 2 => d.cycleLengths.all (netLenInRange len)
        | _ => false),
    act := fun x d =>
      (d.stageWr (fun w => { w with frame := match x.arg 0 with
        | 0 => { w.frame with source := .time, timeLen := x.arg32 2 }
        | 1 => { w.frame with source := .angle, tach := Fin.ofNat 4 (x.arg 1), angleLen := x.arg32 2 }
        | _ => { w.frame with source := .network, netLen := x.arg32 2 } }), .ok []) }

/-- The items of WR_STATUS (Table 16-3). -/
def Dev.wrReport (d : Dev) (ch : Nat) (staged : Bool) : List Byte :=
  let v := ((if staged then d.wr.staged else d.wr.live).vibs.toList[ch]?).getD { gain := 0, ac := false, plan := 0, count := false }
  let pending := match d.wr.pending with | none => false | some p => bit p.mask.toNat ch
  w32 v.plan.val ++ w32 v.count.toNat ++ w32 (at? d.wr.clips ch 0).toNat ++ w32 pending.toNat ++ w32 v.gain ++ w32 v.ac.toNat

/-- WR_STATUS (R169, Table 16-3). -/
def cmdWrStatus : Command :=
  blockCommand 0x0214 false (fun x d => x.vib d (x.arg 0)) (fun _ _ => none) (fun x d => d.wrReport (x.arg 0) (x.argBit 1 0))

/-! ## Band values -/

/-- T_ref of the frame in progress (R147). -/
def Dev.tref (d : Dev) : Time :=
  let f := d.wr.live.frame
  match f.source with
  | .time => us f.timeLen
  | .network => us (f.netLen * d.link.live.set.cycleUs)
  | .angle => if d.wr.afterLock || d.wr.prevLen == 0 then us (d.wr.live.tachs[f.tach]).fallback else d.wr.prevLen

/-- D' : the frame duration clamped to [T_ref ÷ 64, 4 × T_ref] (R146). In 1/64 of a unit, so that the lower bound is exact. -/
def clampedLen (dur tref : Time) : Nat := max tref (min (64 * dur) (256 * tref))

/-- Does any window of a list meet a frame? -/
def meetsAny (ws : List Win) (start stop : Time) : Bool := ws.any (fun w => w.meets start stop)

/-- How much of [start, stop) the windows of a list cover; the windows do not overlap one another. -/
def covered (ws : List Win) (start stop : Time) : Time :=
  (ws.map (fun w => min stop (w.stop.getD stop) - max start w.start)).sum

/-- The mean of the rectified signal under a band's law (R145): of |y|, and of y squared. -/
def Band.rectified (b : Band) (mean : Nat × Nat) : Nat := if b.square then mean.2 else mean.1

/-- The band value of band i of VIB channel ch at the end of the frame [start, now), from the means of the rectified signal over the time in which
its integrator was connected (R145, R181, R182), with the frame's own marks (R87, R88, R133 to R135, R148, R179). -/
def Dev.bandValue (d : Dev) (ch i : Nat) (mean : Nat × Nat) (truncated : Bool) : BandValue :=
  let p := d.wr.live.planOf ch
  let v := (d.wr.live.vibs.toList[ch]?).getD { gain := 0, ac := false, plan := 0, count := false }
  let b := (p.bands.toList[i]?).getD Band.reset
  if !p.on i then { enabled := false, area := 0, flags := 0, count := v.count, scale := b.scale }
  else
    let start := d.wr.start
    let stop := d.now
    let loop := (d.tachs[b.tach]).loop
    let frameLoop := (d.tachs[d.wr.live.frame.tach]).loop
    let free := (b.order && meetsAny loop.freeWins start stop) ||
      (d.wr.live.frame.source == .angle && meetsAny frameLoop.freeWins start stop)
    let settling := (match d.fe.toList[ch]? with | none => false | some c => meetsAny c.settle start stop) ||
      d.wr.bandSettle.any (fun w => w.1 == 32 * ch + i && w.2.meets start stop)
    let off := if b.order then covered loop.lostWins start stop else 0
    { enabled := true, area := b.rectified mean * (stop - start - off),
      flags := bandFlags (truncated || (b.order && meetsAny loop.lostWins start stop)) free (decide (4 * d.tref < stop - start)) settling
        (meetsAny (d.taints ch) start stop),
      count := v.count, scale := b.scale }

/-- The band values of the frame that ends now, from the means of the 512 integrators. -/
def Dev.bandValues (d : Dev) (means : List (Nat × Nat)) (truncated : Bool) : List BandValue :=
  (List.range 512).map (fun f => d.bandValue (f / 32) (f % 32) (means.getD f (0, 0)) truncated)

/-- The duration of an ended frame. -/
def EndedFrame.dur (e : EndedFrame) : Time := e.stop - e.start

/-- m as a ratio: numerator over denominator (R146). -/
def EndedFrame.ratio (e : EndedFrame) (v : BandValue) : Nat × Nat := (v.area * 64, 2 ^ 32 * clampedLen e.dur e.tref)

/-- The pulse width in 2^-32 of tau (R158, R159). -/
def EndedFrame.pulse (e : EndedFrame) (v : BandValue) : Nat :=
  let (n, den) := e.ratio v
  min (255 * 2 ^ 32) (n * 255 * 2 ^ v.scale * 2 ^ 32 / max 1 den)

/-- Is the pulse clipped (R160)? -/
def EndedFrame.pulseClips (e : EndedFrame) (v : BandValue) : Bool :=
  let (n, den) := e.ratio v
  decide (den < n * 2 ^ v.scale)

/-- The TDC codes that R161 allows for a pulse width in 2^-32 of tau: within 0.6 tau of it. -/
def tdcCodes (pulse : Nat) : List Nat :=
  (List.range 256).filter (fun n => decide (5 * (((n * 2 ^ 32 : Nat) : Int) - pulse).natAbs ≤ 3 * 2 ^ 32))

/-- The TDC copy of a pulse: one of the codes R161 allows, as the free value says (log entry 12). -/
def tdcCopy (draw feature pulse : Nat) : Nat :=
  let cs := tdcCodes pulse
  cs.getD (Config.tdcChoice draw feature % max 1 cs.length) 0

/-- The count-mode band word and whether it carries CLIP (R163 to R165). -/
def EndedFrame.countWord (e : EndedFrame) (v : BandValue) : Nat × Bool :=
  let spillNum := v.area * 2 ^ 19
  let spillDen := max 1 (2 ^ 32 * e.tref)
  let spills := spillNum / spillDen
  let full := decide (2 ^ 20 - 1 < spills)
  let n := if full then (2 ^ 20 - 1) * spillDen + spillNum % spillDen else spillNum
  let word := (divRoundAway (n * 64 * e.tref * 2 ^ 22 : Nat) (spillDen * 2 ^ 19 * max 1 (clampedLen e.dur e.tref))).toNat
  (min 0xFFFFFF word, full || decide (0xFFFFFF < word))

/-- A band record (Table 04-1). -/
def bandRecord (value : Nat) (valid count : Bool) (flags : BitVec 5) : List Byte :=
  w32 (value % 2 ^ 24 * 256 + (if valid then 64 else 0) + (if count then 32 else 0) + flags.toNat)

/-- The flags with CLIP added. -/
def addClip (flags : BitVec 5) (clip : Bool) : BitVec 5 := if clip then flags ||| 4 else flags

/-- Count the clips of a channel (R169). -/
def Dev.countClip (d : Dev) (ch : Nat) (clip : Bool) : Dev :=
  if clip then d.onWr (fun w => { w with clips := updAt d.wr.clips ch (· + 1) }) else d

/-- The record of one feature of an ended frame, if its readout is the one named; a disabled band's record goes with direct mode
(R167, R879). The Boolean says that the value carries CLIP. -/
def EndedFrame.record (e : EndedFrame) (draw f : Nat) (v : BandValue) (countMode : Bool) : Option (List Byte × Bool) :=
  if !v.enabled then (if countMode then none else some (bandRecord 0 false false 0, false))
  else if v.count != countMode then none
  else if e.blanked then some (bandRecord 0 false v.count 16, false)
  else if countMode then
    let (w, c) := e.countWord v
    let flags := addClip v.flags c
    some (bandRecord w true true flags, flags.getLsbD 2)
  else
    let flags := addClip v.flags (e.pulseClips v)
    some (bandRecord (tdcCopy draw f (e.pulse v)) true false flags, flags.getLsbD 2)

/-- Write the records of features from f on that one readout produces. -/
def Dev.writeRecords (d : Dev) (e : EndedFrame) (draw : Nat) (countMode : Bool) : Nat → List BandValue → Dev
  | _, [] => d
  | f, v :: vs =>
    match e.record draw f v countMode with
    | none => d.writeRecords e draw countMode (f + 1) vs
    | some (bytes, clip) => ((d.memWrite (recordAddr e.num f) bytes).countClip (f / 32) clip).writeRecords e draw countMode (f + 1) vs

/-- Does the Wringer run (Table 17-6)? -/
def Dev.wringing (d : Dev) : Bool := d.pwr.state == .active || d.pwr.state == .watch

/-- COUNT_MODE_READOUT (R32, R163 to R165): by 12 us after the boundary. -/
def execCountModeReadout (t : Time) (s : State) : Host.Outcome State Fault Refusal :=
  onDev s t (fun d =>
    match d.wr.ended with
    | none => d
    | some e =>
      if !d.wringing || e.counted || decide (e.stop + us 12 < d.now) then d
      else
        let d := d.writeRecords e 0 true 0 e.values
        (d.onWr (fun w => { w with ended := some { e with counted := true } })))

/-- The boundary timestamps of an ended frame, then its number, reach its slot (R168, R464, R465). -/
def Dev.frameWritten (d : Dev) (e : EndedFrame) : Dev :=
  let base := e.num % 2 * 0x1000
  let d := d.memWrite (base + 0x800) (w64 e.startStamp.toNat ++ w64 e.stopStamp.toNat)
  let d := d.memWrite (base + 0x810) (w64 e.num)
  d.onWr (fun w => { w with ended := some { e with handedOff := true, counted := true, written := true } })

/-- FEATURE_FRAME_WRITTEN (R168, R464, R465): after every record and by 12 us. -/
def execFeatureFrameWritten (t : Time) (s : State) : Host.Outcome State Fault Refusal :=
  onDev s t (fun d =>
    match d.wr.ended with
    | none => d
    | some e =>
      if !d.wringing || !e.handedOff || !e.counted || e.written || decide (e.stop + us 12 < d.now) then d
      else d.frameWritten e)

def execWrSetPlan (t : Time) (b : Basket) (s : State) : Host.Outcome State Fault Refusal := hostCommand cmdWrSetPlan t b s
def execWrSetChannel (t : Time) (b : Basket) (s : State) : Host.Outcome State Fault Refusal := hostCommand cmdWrSetChannel t b s
def execWrSetFrame (t : Time) (b : Basket) (s : State) : Host.Outcome State Fault Refusal := hostCommand cmdWrSetFrame t b s
def execWrStatus (t : Time) (b : Basket) (s : State) : Host.Outcome State Fault Refusal := hostCommand cmdWrStatus t b s

end Sys2Proof.Machine
end

