-- ==== Sys2Proof/Machine/Rinse.lean ====
section
/-!
DEFINITION. The Rinse chains (chapter 06): CIC, FIR stages, DC blocker, detectors, the shared phase and SYNC, commits and swaps.
-/

namespace Sys2Proof.Machine

/-! ## Arithmetic -/

/-- FIR length limit (Table 06-3). -/
def firLimit (pos dec : Nat) : Nat :=
  if pos < 16 then min 192 (16 * dec) else if pos < 20 then min 192 (3 * dec) else 192

/-- The cascade of integrators, each modulo 2^84 (R242). -/
def integrate (x : BitVec 84) : List (BitVec 84) → List (BitVec 84)
  | [] => []
  | r :: rs => (r + x) :: integrate (r + x) rs

/-- The cascade of combs: their new registers and their output. -/
def combs (x : BitVec 84) : List (BitVec 84) → List (BitVec 84) × BitVec 84
  | [] => ([], x)
  | r :: rs => let o := combs (x - r) rs; (x :: o.1, o.2)

/-- B of R243. -/
def cicShift (dec : Nat) : Nat := Nat.log2 (dec ^ 5)

/-- KN × 2^23 (R243). -/
def cicFactor (dec : Nat) : Nat := (divRoundAway (2 ^ (cicShift dec + 23) : Nat) (dec ^ 5)).toNat

/-- The CIC output with 24 fractional bits (R243, R246). -/
def cicNormal (dec : Nat) (x : BitVec 84) : Int := (x.toInt * cicFactor dec * 2 ^ 24) / (2 ^ (cicShift dec + 23) : Nat)

/-- An FIR over a delay line, newest first, with 24 fractional bits kept (R245, R246); length 0 is bypass. -/
def fir (h : List Int) (line : List Int) : Int :=
  match h with
  | [] => line.getD 0 0
  | _ => ((List.zipWith (· * ·) h line).foldl (· + ·) 0) / 32768

/-- Saturate to 24 bits (R247). -/
def saturate24 (x : Int) : Int := clampInt (-8388608) 8388607 x

/-- The integer square root, bit by bit. -/
def isqrtFrom (n : Nat) : Nat → Nat → Nat
  | 0, r => r
  | k + 1, r => if (r + 2 ^ k) ^ 2 ≤ n then isqrtFrom n k (r + 2 ^ k) else isqrtFrom n k r

/-- The integer square root of a number below 2^64. -/
def isqrt (n : Nat) : Nat := isqrtFrom n 32 0

/-! ## Chain state -/

/-- The lengths of the two active FIRs. -/
def Chain.lengths (c : Chain) (s : ChainSet) : Nat × Nat :=
  ((c.comp[s.bank1.toNat]?.getD []).length, (c.second[s.bank2.toNat]?.getD []).length)

/-- Does a setting keep R249? -/
def Chain.fits (c : Chain) (pos : Nat) (s : ChainSet) : Bool :=
  decide ((c.lengths s).1 + (c.lengths s).2 ≤ firLimit pos s.dec)

/-- S of R254. -/
def Chain.support (c : Chain) : Nat :=
  let l := c.lengths c.live
  5 * (c.live.dec - 1) + 1 + c.live.dec * (max l.1 1 - 1 + (max l.2 1 - 1))

/-- The detectors restart at an epoch that breaks the chain (R268, R269). -/
def DetState.restart (s : DetState) : DetState := { s with peak := 0, env := 0, rmsSum := 0, rmsCount := 0, hitAt := none }

/-- An epoch that breaks the chain begins (R268, R269, R271). -/
def Chain.breakEpoch (c : Chain) : Chain :=
  { c with waiting := false, comb := Vector.replicate 5 0, line1 := [], line2 := [], det := c.det.restart, epochIn := 0, epochOut := 0,
           breakAt := c.inIndex, firstOut := true }

/-- An epoch begins with the chain in phase (R267, R269); the input of this edge, if it has come already, is its first. -/
def Chain.nextEpoch (c : Chain) : Chain :=
  { c with epochIn := BitVec.ofNat 64 (c.epochIn.toNat % max 1 c.live.dec), epochOut := 0, firstOut := true }

/-- Both active banks toggled. -/
def ChainSet.toggled (s : ChainSet) : ChainSet := { s with bank1 := !s.bank1, bank2 := !s.bank2 }

/-- A commit or swap takes effect (R280, R283, R284): a change of DEC_RATIO on an enabled chain ends the epoch. -/
def Chain.apply (c : Chain) (p : ChainCommit) : Chain :=
  let s := if p.swap then c.live.toggled else p.target
  { c with live := s, pending := none, waiting := c.waiting || (c.enabled && s.dec != c.live.dec) }

/-- Is this instant an output boundary of a chain? -/
def Dev.boundary (d : Dev) (pos dec : Nat) : Bool := d.onGrid (inputPeriod pos * dec)

/-- Do the chains run (R285)? -/
def Dev.rinsing (d : Dev) : Bool := d.pwr.state == .boot || d.pwr.state == .active

/-- EV_COMMIT_APPLIED of a chain (R822). -/
def Dev.chainApplied (d : Dev) (pos : Nat) : Dev :=
  d.postHeld (fun g => at? g.channels pos false) { event := .commitApplied, subject := 2, data0 := pos }

/-- Does a commit wait for frame 1: one accepted during BOOT (R859)? -/
def Dev.waitsFrame1 (d : Dev) (swap : Bool) : Bool := d.pwr.state == .boot && !swap

/-- Did a SYNC set G to 0 at this edge? -/
def Dev.atSync (d : Dev) : Bool := d.rinse.zeroEdge != 0 && d.clk.edgeFrom d.now == d.rinse.zeroEdge

/-- A pending commit or swap takes effect when it is due at this instant (R280). At a SYNC edge the old phase decides, when the SYNC takes place; one
that was not due there waits for the next output boundary. -/
def Dev.rinseApply (d : Dev) (pos : Nat) : Dev :=
  match d.rinse.chains.toList[pos]? with
  | none => d
  | some c =>
    match c.pending with
    | none => d
    | some p =>
      if p.from_ ≤ d.now && d.rinsing && !d.waitsFrame1 p.swap && d.boundary pos c.live.dec && !d.atSync then
        (d.onChain pos (fun c => c.apply p)).chainApplied pos
      else d

/-! ## Detectors -/

/-- A peak or envelope value in code units (R256). -/
def detectorValue (x : Nat) : Nat :=
  min 0xFFFFFF (if x % 2 ^ 24 = 0 then x / 2 ^ 24 else x / 2 ^ 24 + (Config.detectorUp x).toNat)

/-- The value of detector k as reported (Table 06-5). -/
def DetState.value (s : DetState) : Nat → Nat
  | 0 => detectorValue s.peak
  | 1 => min 0xFFFFFF s.rms
  | 2 => detectorValue s.env
  | _ => s.hits.toNat

/-- Is detector k enabled? -/
def DetSet.on (s : DetSet) : Nat → Bool
  | 0 => s.peakOn | 1 => s.rmsOn | 2 => s.envOn | 3 => s.hitsOn | _ => false

/-- The hit counter (Table 06-5, R257): `now` is the output's timestamp, `period` the output period. -/
def DetState.hit (s : DetState) (e : DetSet) (mag : Nat) (now period : Time) (stamp : BitVec 64) : DetState :=
  let dead := match s.hitAt with | none => false | some h => decide (now < h + e.dead * period)
  if dead then { s with hitPeak := max s.hitPeak mag }
  else if e.threshold * 2 ^ 24 ≤ mag then { s with hits := s.hits + 1, hitPeak := mag, hitStamp := stamp, hitAt := some now }
  else s

/-- One output enters the enabled detectors (Table 06-5, R258). `mag` is |y| with 24 fractional bits. -/
def DetState.take (s : DetState) (e : DetSet) (mag : Nat) (flags : BitVec 8) (now period : Time) (stamp : BitVec 64) : DetState :=
  let s := { s with flags := vmap s.flags (fun k f => if e.on k then f ||| flags else f) }
  let s := if e.peakOn then { s with peak := max mag (if e.decay = 0 then s.peak else s.peak - s.peak / 2 ^ e.decay) } else s
  let s := if e.rmsOn then
      let sum := s.rmsSum + mag ^ 2
      if e.n ≤ s.rmsCount + 1 then { s with rms := isqrt (sum / (max 1 e.n * 2 ^ 48)), rmsSum := 0, rmsCount := 0 }
      else { s with rmsSum := sum, rmsCount := s.rmsCount + 1 }
    else s
  let s := if e.envOn then
      { s with env := ((s.env : Int) + ((mag : Int) - s.env) / (2 ^ e.eshift : Nat)).toNat }
    else s
  if e.hitsOn then s.hit e mag now period stamp else s

/-! ## One input -/

/-- One output sample: its word (Table 06-4) and |y| with 24 fractional bits. -/
structure RinseOut where
  word : BitVec 32
  mag : Nat
  deriving DecidableEq, Repr

/-- The index of the last input that carried each flag, after an input with these flag bits (R254). -/
def seenAfter (seen : Vector (Option Nat) 4) (index flags : Nat) : Vector (Option Nat) 4 :=
  vmap seen (fun k s => if bit flags k then some index else s)

/-- The flags TAINTED, SETTLING, OVERLOAD and CAL_ACTIVE of an output (R253, R254, R275). -/
def Chain.outFlags (c : Chain) : Nat :=
  let within := fun (s : Option Nat) => match s with | none => false | some i => decide (c.inIndex < i + c.support + 1)
  packBits (c.seen.toList.mapIdx (fun k s => within s || (k == 1 && decide (c.inIndex < c.breakAt + c.support))))

/-- The stages after the CIC, on an output boundary (R245 to R252, R275). `x` has 24 fractional bits. -/
def Chain.emit (c : Chain) (x : Int) (now : Time) : Chain × RinseOut :=
  let line1 := (x :: c.line1).take 128
  let x1 := fir (c.comp[c.live.bank1.toNat]?.getD []) line1
  let line2 := (x1 :: c.line2).take 64
  let x2 := fir (c.second[c.live.bank2.toNat]?.getD []) line2
  let flags := c.outFlags
  let frozen := c.dcFreeze || (c.autoFreeze && (bit flags 0 || bit flags 3))
  let y := if c.dcOn then x2 - c.dcEst else x2
  let est := if !c.dcOn then 0 else if frozen then c.dcEst else c.dcEst + (x2 - c.dcEst) / (2 ^ c.shift : Nat)
  let r := divRoundAway y (2 ^ 24)
  let v := saturate24 r
  let sat := v != r
  let low := flags + (if sat then 64 else 0) + if c.firstOut then 128 else 0
  let word := BitVec.ofNat 32 ((v % (2 ^ 24 : Nat)).toNat * 256 + low)
  ({ c with line1 := line1, line2 := line2, dcEst := est, firstOut := false, epochOut := c.epochOut + 1, totalOut := c.totalOut + 1,
            saturations := if sat then c.saturations + 1 else c.saturations, output := word, outputAt := now },
   { word := word, mag := y.natAbs })

/-- One input sample is accepted (R241, R244, R272): an output is emitted after every DEC_RATIO-th input of the epoch. -/
def Chain.accept (c : Chain) (word : BitVec 32) (now : Time) : Chain × Option RinseOut :=
  let x := signed 24 (word.toNat / 256)
  let seen := seenAfter c.seen c.inIndex (word.toNat % 16)
  let ints := integrate (BitVec.ofInt 84 x) c.integ.toList
  let c := { c with seen := seen, inIndex := c.inIndex + 1, epochIn := c.epochIn + 1, totalIn := c.totalIn + 1,
                    integ := if c.live.dec = 1 then c.integ else vec 5 (fun i => ints.getD i 0) }
  if c.epochIn.toNat % max 1 c.live.dec != 0 then (c, none)
  else if c.live.dec = 1 then
    let o := c.emit (x * 2 ^ 24) now
    (o.1, some o.2)
  else
    let k := combs (ints.getD 4 0) c.comb.toList
    let o := { c with comb := vec 5 (fun i => k.1.getD i 0) }.emit (cicNormal c.live.dec k.2) now
    (o.1, some o.2)

/-- A sample word arrives at its chain: skipped while no epoch runs (R273, R742), else accepted; an output enters the detectors and
the rings. -/
def Dev.rinseInput (d : Dev) (pos : Nat) (word : BitVec 32) : Dev :=
  let d := d.rinseApply pos
  match d.rinse.chains.toList[pos]? with
  | none => d
  | some c =>
    let start := c.waiting && d.boundary pos c.live.dec
    if !c.enabled || !d.rinsing || (c.waiting && !start) then d.onChain pos (fun c => { c with skipped := c.skipped + 1 })
    else
      match (if start then c.breakEpoch else c).accept word d.now with
      | (c, none) => d.onChain pos (fun _ => c)
      | (c, some o) =>
        let period := d.periods (inputPeriod pos * c.live.dec)
        (d.onChain pos (fun _ => { c with detBefore := c.det, det := c.det.take c.detSet o.mag (o.word.setWidth 8) d.now period d.stamp })).ringsTake pos o.word

/-- SAMPLE (R64 to R67, R241, R265, R266): a sample off the group's phase is not produced. -/
def execSample (t : Time) (pos : Fin 24) (read : SampleRead) (s : State) : Host.Outcome State Fault Refusal :=
  onDev s t (fun d =>
    if !d.samples pos then d
    else
      let word := d.sampleWord pos.val d.fe[pos] read.level read.raw
      let d := d.onChannel pos (fun c => { c with sample := word })
      (d.calSample pos read.raw).rinseInput pos.val word)

/-- RINSE_COMMIT_APPLY (R280, R284). -/
def execRinseCommitApply (t : Time) (chain : Fin 24) (s : State) : Host.Outcome State Fault Refusal :=
  onDev s t (fun d => d.rinseApply chain.val)

/-! ## SYNC -/

/-- The next time-mode boundary of the grid (R948). -/
def Dev.gridNext (d : Dev) : Time := d.sampleEdge (d.wr.gridOrigin + (d.wr.gridCount + 1) * us d.wr.live.frame.timeLen) 0

/-- A SYNC from the pin or the command in time mode (R56, R157, R948): less than 20 us after a boundary it only moves the grid. -/
def Dev.syncFrame (d : Dev) : Dev :=
  if !d.wr.running || d.wr.live.frame.source != .time || !(d.pwr.state == .active || d.pwr.state == .watch) then d
  else if d.now < d.wr.start + us 20 then d.onWr (fun w => { w with gridOrigin := d.now, gridCount := 0 })
  else d.makeDue (d.now != d.gridNext)

/-- An armed SYNC swap (R276, R280, R282, Table 06-10): `swapped` says that a RN_SWAP took effect at this boundary. -/
def Dev.syncSwap (d : Dev) (pos : Nat) (swapped : Bool) : Dev :=
  match d.rinse.chains.toList[pos]? with
  | none => d
  | some c =>
    if !c.swapArmed then d
    else if swapped then d.onChain pos (fun c => { c with swapArmed := false })
    else if c.fits pos c.live.toggled then d.onChain pos (fun c => { c with swapArmed := false, live := c.live.toggled })
    else (d.onChain pos (fun c => { c with swapArmed := false })).postHeld (fun g => at? g.channels pos false)
      { event := .rinseConflict, subject := pos }

/-- A SYNC reaches one chain (R267, R268, R271, R282): a commit due at this boundary applies first. -/
def Dev.syncChain (d : Dev) (pos : Nat) : Dev :=
  let isSwap := fun (d : Dev) => (match d.rinse.chains.toList[pos]? with
    | none => false
    | some c => (match c.pending with | none => false | some p => p.swap))
  let was := isSwap d
  let d := d.rinseApply pos
  let inPhase := match d.rinse.chains.toList[pos]? with | none => false | some c => d.boundary pos c.live.dec
  let d := d.syncSwap pos (was && !isSwap d)
  if !d.rinsing then d
  else d.onChain pos (fun c =>
    if !c.enabled then c else if c.waiting || !inPhase then c.breakEpoch else c.nextEpoch)

/-- A SYNC reaches the chains from pos on, and then G is 0 here. -/
def Dev.syncChains (d : Dev) : List Nat → Dev
  | [] =>
    if d.atSync then d.onRinse (fun r => { r with syncStamp := d.stamp })
    else
      let edge := d.clk.edgeFrom d.now
      d.onRinse (fun r => { r with zeroEdge := edge, oldPhase := d.rinse.phase edge, syncStamp := d.stamp })
  | p :: ps => (d.syncChain p).syncChains ps

/-- A SYNC at this SAMPLE edge (R265). -/
def Dev.sync (d : Dev) : Dev := d.syncChains (List.range 24)

/-- The SAMPLE edge that captures a pin edge: t_sd is 2 to 4 ns, and within 1 ns of an edge either that edge or the next one is taken
(R934, R935; log entry 13). -/
def Dev.syncCapture (d : Dev) (n : Nat) : Time :=
  let first := d.sampleEdge (d.now + ns 1 + 1) 0
  let last := d.sampleEdge (d.now + ns 5) 0
  if Config.syncNext n then last else first

/-- SYNC_PIN_EDGE (R265, R270, R934, R56). The pin is no input while it drives cycle starts, nor in a CLOCK fault. -/
def execSyncPinEdge (t : Time) (s : State) : Host.Outcome State Fault Refusal :=
  onDev s t (fun d =>
    let early := match d.rinse.lastPinEdge with | none => false | some e => decide (d.now < e + us 10)
    let edge := d.now
    let d := d.onRinse (fun r => { r with lastPinEdge := some edge })
    if early || !d.sampling || d.rinse.source != .pin || d.link.live.set.syncOut then d
    else
      let (n, d) := d.draw
      (d.tick (d.syncCapture n)).sync.syncFrame)

/-- SYS_SYNC (R265, R270, R56): captured at the first SAMPLE edge after its acceptance. -/
def cmdSysSync : Command :=
  { code := 0x0101, sup := true,
    act := fun _ d =>
      let d := if d.sampling then (d.tick (d.sampleEdge (d.now + 1) 0)).sync.syncFrame else d
      (d, .ok (leWords 4 d.stamp.toNat)) }

/-! ## Commands -/

/-- RN_SET_CHANNEL (R276, R277): DEC_RATIO and banks staged, the rest at once (R252, R820). -/
def cmdRnSetChannel : Command :=
  { code := 0x0401, sup := true, names := fun x d => x.channel d (x.arg 0), zero := fun x _ => x.arg 1 == 0,
    range := fun x _ => argRange (decide (x.arg 1 ≤ 4096) && decide (4 ≤ bits (x.arg 3) 12 8) && decide (bits (x.arg 3) 12 8 ≤ 24)),
    act := fun x d =>
      (d.onChain (x.arg 0) (fun c =>
        { c with staged := { dec := x.arg 1, bank1 := x.argBit 2 0, bank2 := x.argBit 2 1 }, dcOn := x.argBit 3 0,
                 dcEst := if x.argBit 3 0 && c.dcOn then c.dcEst else 0, autoFreeze := x.argBit 3 1, shift := bits (x.arg 3) 12 8,
                 swapArmed := x.argBit 4 0 }), .ok []) }

/-- The banks that a pending commit, a pending swap or an armed SYNC swap will activate, for the second FIR or the first (R278). -/
def Chain.willActivate (c : Chain) (second bankB : Bool) : Bool :=
  let of_ := fun (s : ChainSet) => if second then s.bank2 else s.bank1
  (c.swapArmed && of_ c.live.toggled == bankB) ||
    (match c.pending with
    | none => false
    | some p => of_ (if p.swap then c.live.toggled else p.target) == bankB)

/-- Q1.15 words read from SRAM. -/
def Dev.coefficients (d : Dev) (a : Nat) : Nat → List Int
  | 0 => []
  | n + 1 => signed 16 (d.sram.value a 2) :: d.coefficients (a + 2) n

/-- RN_SET_COEF (R245, R278). -/
def cmdRnSetCoef : Command :=
  { code := 0x0402, sup := true, names := fun x d => x.channel d (x.arg 0) && x.memory d (x.arg32 3) (2 * x.arg 2),
    range := fun x _ => argRange (decide (x.arg 2 ≤ if x.argBit 1 0 then 64 else 128)),
    state := fun x d => match d.rinse.chains.toList[x.arg 0]? with
      | none => none
      | some c =>
        firstErr [need ((if x.argBit 1 0 then c.live.bank2 else c.live.bank1) != x.argBit 1 1) .state,
          need (!c.willActivate (x.argBit 1 0) (x.argBit 1 1)) .busy],
    act := fun x d =>
      let h := d.coefficients (x.arg32 3) (x.arg 2)
      let bank := (x.argBit 1 1).toNat
      (d.onChain (x.arg 0) (fun c =>
        if x.argBit 1 0 then { c with second := updAt c.second bank (fun _ => h) } else { c with comp := updAt c.comp bank (fun _ => h) }), .ok []) }

/-- Does a loaded model bind a detector of a chain (R281, R829)? -/
def Dev.detectorBound (d : Dev) (pos : Nat) : Bool :=
  d.models.toList.any (fun m => match m with | none => false | some m => m.image.bindings.any (fun b => b.kind == 2 && b.first == pos))

/-- Judge a commit or swap (R281, R825). -/
def Dev.judgeChain (d : Dev) (pos : Nat) (swap : Bool) : Option Err :=
  match d.rinse.chains.toList[pos]? with
  | none => none
  | some c =>
    let s := if swap then c.live.toggled else c.staged
    need (c.fits pos s && (s.dec == c.live.dec || !d.detectorBound pos) && c.pending.isNone) .stagedConflict

/-- A commit or swap is accepted (R280, R859): pending, or at once on a disabled chain. -/
def Dev.acceptChain (d : Dev) (pos : Nat) (swap : Bool) : Dev :=
  let isOn := match d.rinse.chains.toList[pos]? with | none => false | some c => c.enabled
  let commit := fun (c : Chain) => ({ swap := swap, target := c.staged, from_ := d.now + us 2 } : ChainCommit)
  if isOn || d.waitsFrame1 swap then d.onChain pos (fun c => { c with pending := some (commit c) })
  else (d.onChain pos (fun c => c.apply (commit c))).chainApplied pos

/-- RN_COMMIT (R280, R281, R822 to R827). -/
def cmdRnCommit : Command :=
  { code := 0x0403, sup := true, names := fun x d => x.channel d (x.arg 0),
    state := fun x d =>
      if x.argBit 1 0 then need (match d.rinse.chains.toList[x.arg 0]? with | none => true | some c => c.pending.isNone) .busy
      else d.judgeChain (x.arg 0) false,
    act := fun x d =>
      (if x.argBit 1 0 then d.onChain (x.arg 0) (fun c => { c with staged := c.live }) else d.acceptChain (x.arg 0) false, .ok []) }

/-- RN_SWAP (R280, R281). -/
def cmdRnSwap : Command :=
  { code := 0x0404, sup := true, names := fun x d => x.channel d (x.arg 0), state := fun x d => d.judgeChain (x.arg 0) true,
    act := fun x d => (d.acceptChain (x.arg 0) true, .ok []) }

/-- RN_ENABLE (R271, R273, R286). A pending commit of a chain that is disabled applies at once (R280). -/
def cmdRnEnable : Command :=
  { code := 0x0405, sup := true, names := fun x d => x.channel d (x.arg 0),
    act := fun x d =>
      let pos := x.arg 0
      (match d.rinse.chains.toList[pos]? with
      | none => d
      | some c =>
        if x.argBit 1 0 then (if c.enabled then d else d.onChain pos (fun c => { c with enabled := true, waiting := true }))
        else if !c.enabled then d
        else
          let d := (d.onChain pos (fun c => { c with enabled := false, waiting := false })).ringsStop pos
          match c.pending with
          | none => d
          | some p => if d.waitsFrame1 p.swap then d else (d.onChain pos (fun c => c.apply p)).chainApplied pos, .ok []) }

/-- The commits of chains accepted during BOOT take effect when frame 1 begins (R859). -/
def Dev.chainsAtFrame1 (d : Dev) : List Nat → Dev
  | [] => d
  | i :: is =>
    (match d.rinse.chains.toList[i]? with
     | some { pending := some p, .. } => if p.swap then d else (d.onChain i (fun c => c.apply p)).chainApplied i
     | _ => d).chainsAtFrame1 is

/-- RN_DC_FREEZE (R251). -/
def cmdRnDcFreeze : Command :=
  { code := 0x0406, sup := true, names := fun x d => x.channel d (x.arg 0),
    act := fun x d => (d.onChain (x.arg 0) (fun c => { c with dcFreeze := x.argBit 1 0 }), .ok []) }

/-- Is a position an AE channel? -/
def isAe (pos : Nat) : Bool := decide (16 ≤ pos) && decide (pos < 20)

/-- RN_SET_DETECTOR (R256, R276, R277, R279): on a VIB or AUX chain the hit-counter words must be 0. -/
def cmdRnSetDetector : Command :=
  { code := 0x0407, sup := true, names := fun x d => x.channel d (x.arg 0),
    zero := fun x _ => x.arg 3 == 0 || (isAe (x.arg 0) && (x.arg32 5 == 0 || x.arg 7 == 0)),
    range := fun x _ =>
      argRange (decide (x.arg 2 ≤ 24) && decide (1 ≤ x.arg 4) && decide (x.arg 4 ≤ 24) &&
        (if isAe (x.arg 0) then decide (x.arg32 5 ≤ 8388607) else !x.argBit 1 3 && x.arg32 5 == 0 && x.arg 7 == 0)),
    act := fun x d =>
      (d.onChain (x.arg 0) (fun c =>
        { c with detSet :=
          { peakOn := x.argBit 1 0, rmsOn := x.argBit 1 1, envOn := x.argBit 1 2, hitsOn := x.argBit 1 3, decay := x.arg 2, n := x.arg 3,
            eshift := x.arg 4, threshold := if isAe (x.arg 0) then x.arg32 5 else c.detSet.threshold,
            dead := if isAe (x.arg 0) then x.arg 7 else c.detSet.dead } }), .ok []) }

/-- RN_DET_READ (R256). -/
def cmdRnDetRead : Command :=
  { code := 0x0408, names := fun x d => x.channel d (x.arg 0), range := fun x _ => argRange (decide (x.arg 1 ≤ 3)),
    act := fun x d => match d.rinse.chains.toList[x.arg 0]? with
      | none => (d, .refuse .noSuch)
      | some c => (d, .ok (leWords 2 (c.det.value (x.arg 1)) ++ [(at? c.det.flags (x.arg 1) 0).setWidth 16])) }

/-- RN_DET_RESET (R256). -/
def cmdRnDetReset : Command :=
  { code := 0x0409, sup := true, names := fun x d => x.channel d (x.arg 0),
    act := fun x d =>
      (d.onChain (x.arg 0) (fun c =>
        let s := c.det
        let s := if x.argBit 1 0 then { s with peak := 0 } else s
        let s := if x.argBit 1 1 then { s with rms := 0, rmsSum := 0, rmsCount := 0 } else s
        let s := if x.argBit 1 2 then { s with env := 0 } else s
        { c with det := if x.argBit 1 3 then { s with hits := 0, hitPeak := 0, hitStamp := 0 } else s }), .ok []) }

/-- RN_SET_SYNC (R270). -/
def cmdRnSetSync : Command :=
  { code := 0x040F, sup := true, range := fun x _ => argRange (decide (x.arg 0 ≤ 2)),
    act := fun x d =>
      (d.onRinse (fun r => { r with source := match x.arg 0 with | 0 => .pin | 1 => .everyCycle | _ => .cycle0 }), .ok []) }

/-- The number of a SYNC source (R270). -/
def SyncSource.number : SyncSource → Nat
  | .pin => 0 | .everyCycle => 1 | .cycle0 => 2

/-- The chain settings of Table 06-8 in its order. -/
def Chain.settingsReport (c : Chain) (staged : Bool) (source : SyncSource) : List Byte :=
  let s := if staged then c.staged else c.live
  let len := fun (v : Vector (List Int) 2) (i : Nat) => (at? v i []).length
  w32 c.enabled.toNat ++ w32 s.dec ++ w32 s.bank1.toNat ++ w32 s.bank2.toNat ++ w32 (len c.comp 0) ++ w32 (len c.comp 1) ++
    w32 (len c.second 0) ++ w32 (len c.second 1) ++ w32 c.swapArmed.toNat ++ w32 c.dcOn.toNat ++ w32 c.shift ++ w32 c.autoFreeze.toNat ++
    w32 c.detSet.decay ++ w32 c.detSet.n ++ w32 c.detSet.eshift ++ w32 c.detSet.threshold ++ w32 c.detSet.dead ++ w32 source.number

/-- The items of RN_STATUS (R264, R274, R743, Table 16-3). -/
def Dev.rnReport (d : Dev) (pos : Nat) (b : Basket) (staged : Bool) : List Byte :=
  match d.rinse.chains.toList[pos]? with
  | none => []
  | some c =>
    ringReport d.free c.rings[b] ++ w64 c.epochIn.toNat ++ w64 c.epochOut.toNat ++ w64 c.totalIn.toNat ++ w64 c.skipped.toNat ++
      w64 c.totalOut.toNat ++ w32 (packBits [c.pending.isSome, c.swapArmed]) ++ c.settingsReport staged d.rinse.source

/-- RN_STATUS (R264, R274). -/
def cmdRnStatus : Command :=
  blockCommand 0x040E false (fun x d => x.channel d (x.arg 0)) (fun _ _ => none) (fun x d => d.rnReport (x.arg 0) x.b (x.argBit 1 0))

/-- The chains and rings stop (R285): every epoch ends, and each enabled chain waits for a new one. -/
def Dev.stopChains (d : Dev) : Dev :=
  d.onRinse (fun r => { r with chains := vmap d.rinse.chains (fun _ c => { c with waiting := c.enabled }) })

def execSysSync (t : Time) (b : Basket) (s : State) : Host.Outcome State Fault Refusal := hostCommand cmdSysSync t b s
def execRnSetChannel (t : Time) (b : Basket) (s : State) : Host.Outcome State Fault Refusal := hostCommand cmdRnSetChannel t b s
def execRnSetCoef (t : Time) (b : Basket) (s : State) : Host.Outcome State Fault Refusal := hostCommand cmdRnSetCoef t b s
def execRnCommit (t : Time) (b : Basket) (s : State) : Host.Outcome State Fault Refusal := hostCommand cmdRnCommit t b s
def execRnSwap (t : Time) (b : Basket) (s : State) : Host.Outcome State Fault Refusal := hostCommand cmdRnSwap t b s
def execRnEnable (t : Time) (b : Basket) (s : State) : Host.Outcome State Fault Refusal := hostCommand cmdRnEnable t b s
def execRnDcFreeze (t : Time) (b : Basket) (s : State) : Host.Outcome State Fault Refusal := hostCommand cmdRnDcFreeze t b s
def execRnSetDetector (t : Time) (b : Basket) (s : State) : Host.Outcome State Fault Refusal := hostCommand cmdRnSetDetector t b s
def execRnDetRead (t : Time) (b : Basket) (s : State) : Host.Outcome State Fault Refusal := hostCommand cmdRnDetRead t b s
def execRnDetReset (t : Time) (b : Basket) (s : State) : Host.Outcome State Fault Refusal := hostCommand cmdRnDetReset t b s
def execRnStatus (t : Time) (b : Basket) (s : State) : Host.Outcome State Fault Refusal := hostCommand cmdRnStatus t b s
def execRnSetSync (t : Time) (b : Basket) (s : State) : Host.Outcome State Fault Refusal := hostCommand cmdRnSetSync t b s

end Sys2Proof.Machine
end

