-- ==== Sys2Proof/Machine/Guard.lean ====
section
/-!
DEFINITION. Thimble comparators and Needle outputs (chapter 05): evaluation, latches, the trip matrix, the Needle modes, firing and
the burst synthesiser.
-/

namespace Sys2Proof.Machine

/-! ## Comparator states -/

/-- Table 05-2; the watched signal is num ÷ den threshold codes. The first evaluation decides directly from it (R191). -/
def CompSet.next (c : CompSet) (state : CompState) (evaluated : Bool) (num : Int) (den : Nat) : CompState :=
  let code := fun (k : Int) => k * den
  if !evaluated then (if code c.high < num then .above else if num < code c.low then .below else .inside)
  else match state with
    | .inside => if code c.high < num then .above else if num < code c.low then .below else .inside
    | .above => if num < code c.low then .below else if num < code ((c.high : Int) - c.hyst) then .inside else .above
    | .below => if code c.high < num then .above else if code ((c.low : Int) + c.hyst) < num then .inside else .below

/-- Is the latch condition present: the state is in the latch mask? -/
def CompSet.present (c : CompSet) : CompState → Bool
  | .inside => false
  | .above => c.maskAbove
  | .below => c.maskBelow

/-- The number of a comparator state (THM_STATUS, EV_THIMBLE). -/
def CompState.number : CompState → Nat
  | .inside => 0 | .above => 1 | .below => 2

/-- Change one comparator. -/
def Dev.onComp (d : Dev) (i : Fin 32) (f : Comparator → Comparator) : Dev := d.onGuard (fun g => { g with comps := upd d.guard.comps i f })

/-- Change one Needle output. -/
def Dev.onOut (d : Dev) (i : Fin 8) (f : Needle → Needle) : Dev := d.onGuard (fun g => { g with outs := upd d.guard.outs i f })

/-- Does a comparator operate continuously? In WATCH it operates as sampled (R194); under a CLOCK fault one ticked from SAMPLE operates as in
continuous mode (R885). -/
def Dev.continuous (d : Dev) (i : Fin 32) : Bool :=
  let s := (d.guard.comps[i]).set
  (!s.sampled && d.pwr.state != .watch) || (d.pwr.fault == some .clock && !s.tickKeep)

/-- Does a comparator hold its state and set no latch: during a gain hold (R205) or a calibration of its fixed channel (R95)? -/
def Dev.compHeld (d : Dev) (i : Fin 32) : Bool :=
  decide (d.now < (d.guard.comps[i]).holdUntil) || (match d.fe.toList[i.val]? with | none => false | some c => c.cal.isSome)

/-- A level in nV in threshold codes of a channel at its gain (R186). -/
def Dev.levelCodes (d : Dev) (pos : Nat) (level : Int) : Int × Nat :=
  (level * d.gainOf pos * 512 + 512 * (scaleNv pos : Int), scaleNv pos)

/-- The band that a comparator names. -/
def Dev.watchedBand (d : Dev) (c : CompSet) : Band := d.wr.live.bandOf (32 * c.vib.val + c.band.val)

/-- Since when has the tach of a comparator's band been in ANGLE_LOST? -/
def Dev.bandLost (d : Dev) (c : CompSet) : Option Time :=
  let b := d.watchedBand c
  if c.source == .band && b.order then ((d.tachs[b.tach]).loop.lostWins.find? (fun w => w.stop.isNone)).map (·.start) else none

/-- u of a watched band, from the integral in 2^-32 that is physically there: 0 while the integrators are held empty (R184), and standing while the
band's tach is in ANGLE_LOST (R181). -/
def Dev.bandLevel (d : Dev) (c : Comparator) (u : Int) : Int :=
  if !d.wringing then 0
  else match d.bandLost c.set with
    | none => u
    | some start => if start ≤ d.wr.start then 0 else c.stood.getD u

/-- The signal of a comparator in threshold codes, from its level: in nV, or u of a band in 2^-32 (R186, R187). -/
def Dev.watched (d : Dev) (i : Fin 32) (level : Int) : Int × Nat :=
  let c := d.guard.comps[i]
  match c.set.source with
  | .channel => d.levelCodes i.val level
  | .envelope => d.levelCodes c.set.vib.val level
  | .band => (d.bandLevel c level * ((1020 * 2 ^ (d.watchedBand c.set).scale : Nat) : Int), 2 ^ 32)

/-- Does the Thimble operate? Not in OFF or RESET (Table 17-6). -/
def Dev.thimbleOn (d : Dev) : Bool := d.pwr.state.answers

/-! ## Needle outputs -/

/-- Baskets that hold an output. -/
def outHeld (o : Fin 8) : Grants → Bool := fun g => g.outputs[o]

/-- The OR of the latches that an output's trip mask selects (R206). -/
def Dev.tripInput (d : Dev) (o : Fin 8) : Bool :=
  (List.finRange 32).any (fun i => (d.guard.comps[i]).latch && (d.guard.tripMasks[o]).getLsbD i.val)

/-- Whole cycles of a frequency in an interval. -/
def cyclesIn (freq : Nat) (t : Time) : Nat := t * freq / unitsPerSec

/-- Is any burst in progress (R214)? -/
def Guard.bursting (g : Guard) : Bool := g.outs.toList.any (fun n => n.firing.isSome && n.set.mode == .burst)

/-- The range of a synthesiser frequency (Table 05-5). -/
def synthRange (f : Nat) : Nat := if f < 16000 then 0 else if f < 128000 then 1 else if f < 1000000 then 2 else 3

/-- A frequency is set (R212, R215): a change of range calibrates first; a calibration not yet ended is not skipped. -/
def Synth.retune (y : Synth) (f : Nat) (now : Time) : Synth :=
  { freq := f, waiting := none, since := now,
    state := if y.state == .calibrating || synthRange f != synthRange y.freq then .calibrating else .settling }

/-- A frequency that waited for the last burst to end takes effect (R214). -/
def Dev.synthRelease (d : Dev) : Dev :=
  match d.guard.synth.waiting with
  | none => d
  | some f => if d.guard.bursting then d else d.onGuard (fun g => { g with synth := d.guard.synth.retune f d.now })

/-- A burst or one-shot ends (R222, R226, R839): EV_FIRE_DONE with the cycles delivered. -/
def Dev.fireEnd (d : Dev) (o : Fin 8) (f : Firing) (aborted : Bool) : Dev :=
  let (n, d) := d.draw
  let cycles := match (d.guard.outs[o]).set.mode with
    | .burst => if aborted then min f.cycles (cyclesIn d.guard.synth.freq (d.now - f.start)) else f.cycles
    | _ => Config.oneShotCycles n
  let d := d.onOut o (fun x => { x with firing := none })
  let d := d.post (d.holders (outHeld o)) f.stamp
    { event := .fireDone, subject := o.val, data0 := cycles, data1 := aborted.toNat, tag := f.tag }
  d.synthRelease

/-- The held fires that name an output are refused with E_STATE when it trips (R221: no part of a command fires). -/
def Dev.dropHeld (d : Dev) (o : Fin 8) : List Basket → Dev
  | [] => d
  | b :: bs =>
    match d.guard.held[b] with
    | some h =>
      if bit h.mask o.val then
        ((d.onGuard (fun g => { g with held := d.guard.held.set b none })).finish b 0x0312 (refusal .state)).dropHeld o bs
      else d.dropHeld o bs
    | none => d.dropHeld o bs

/-- The number of a trip reason. -/
def TripReason.number : TripReason → Nat
  | .none => 0 | .thimble => 1 | .software => 2 | .feed => 3 | .power => 4

/-- An output trips (R223 to R226). -/
def Dev.trip (d : Dev) (o : Fin 8) (reason : TripReason) : Dev :=
  let d := d.onOut o (fun x =>
    { x with tripped := true, armed := false, tripStatus := true, tripSetAt := d.now, reason := reason, trips := x.trips + 1 })
  let d := d.raise (d.holdersOnly (outHeld o)) .trip
  let d := d.postHeld (outHeld o)
    { event := .trip, subject := o.val, data0 := reason.number, data1 := (d.guard.outs[o]).trips.toNat % 65536 }
  let d := match (d.guard.outs[o]).firing with
    | some f => d.fireEnd o f true
    | none => d
  d.dropHeld o [0, 1, 2, 3]

/-- Trip the outputs of a list whose trip input is active now and was not. -/
def Dev.tripEdges (d : Dev) (was : Fin 8 → Bool) : List (Fin 8) → Dev
  | [] => d
  | o :: os => (if d.tripInput o && !was o then d.trip o .thimble else d).tripEdges was os

/-- Trip every output of a list. -/
def Dev.tripAll (d : Dev) (reason : TripReason) : List (Fin 8) → Dev
  | [] => d
  | o :: os => (d.trip o reason).tripAll reason os

/-- Every output trips with reason POWER (R223, R878, R883). -/
def Dev.tripPower (d : Dev) : Dev := d.tripAll .power (List.finRange 8)

/-! ## Latches -/

/-- Baskets that hold a comparator. -/
def compHeldBy (i : Fin 32) : Grants → Bool := fun g => g.comparators[i]

/-- A latch sets from clear (R196, R262, R223): counted, posted with a timestamp, shown on the holder's page, fed to the rings and
the trip matrix, and a wake source when wake is enabled (R207). -/
def Dev.latchSet (d : Dev) (i : Fin 32) (stamp : BitVec 64) : Dev :=
  let was := fun o => d.tripInput o
  let d := d.onComp i (fun c => { c with latch := true, latchFrom := d.now, latchSetAt := d.now, latches := c.latches + 1 })
  let c := d.guard.comps[i]
  let d := d.raise (d.holdersOnly (compHeldBy i)) .thimble
  let d := d.post (d.holders (compHeldBy i)) stamp
    { event := .thimble, subject := i.val, data0 := c.state.number, data1 := c.latches.toNat % 65536 }
  let d := (d.latchTriggers i).tripEdges was (List.finRange 8)
  if c.set.wake then d.wakeBy 0 else d

/-- The condition sets the latch (R195): a latch already set only remembers the instant (R199). -/
def Dev.latchCondition (d : Dev) (i : Fin 32) (stamp : BitVec 64) : Dev :=
  if (d.guard.comps[i]).latch then d.onComp i (fun c => { c with latchSetAt := d.now }) else d.latchSet i stamp

/-- The comparator follows its input: it decides its state from the level there, unless it holds. -/
def Dev.compEval (d : Dev) (i : Fin 32) (level : Int) : Dev :=
  if d.compHeld i then d
  else
    let s := d.watched i level
    d.onComp i (fun c =>
      { c with state := c.set.next c.state c.evaluated s.1 s.2, evaluated := true,
               stood := if (d.bandLost c.set).isSome then some (d.bandLevel c level) else none })

/-- A continuous evaluation: the latch sets when the condition appears outside the warm-up window (R192, R195, R200). -/
def Dev.compContinuous (d : Dev) (i : Fin 32) (s : Int) : Dev :=
  let c := d.guard.comps[i]
  let before := c.set.present c.state
  let d := d.compEval i s
  let c := d.guard.comps[i]
  if c.set.present c.state && !before && !c.warmUp && !d.compHeld i then d.latchCondition i d.stamp else d

/-- THIMBLE_CROSSING (R192, R195). -/
def execThimbleCrossing (t : Time) (comp : Fin 32) (level : Int) (s : State) : Host.Outcome State Fault Refusal :=
  onDev s t (fun d =>
    if d.thimbleOn && (d.guard.comps[comp]).set.enabled && d.continuous comp then d.compContinuous comp level else d)

/-- Does a tick of a comparator fall now: every N edges of its tick source, counted from the end of reset, so that ticks of one source and divider
coincide (R193, R194; log entry 56)? -/
def Dev.tickFalls (d : Dev) (c : CompSet) : Bool :=
  if c.tickKeep then (d.now - d.clk.origin) % (max 1 c.divider * 23437500) == 0 else d.onEdge && d.clk.edgeFrom d.now % max 1 c.divider == 0

/-- The timestamp of what a comparator decides now: of a KEEP tick, that of the SAMPLE edge that captures it (R14, R194). -/
def Dev.compStamp (d : Dev) (i : Fin 32) : BitVec 64 :=
  if !d.continuous i && (d.guard.comps[i]).set.tickKeep && d.tickFalls (d.guard.comps[i]).set then d.keepStamp d.now else d.stamp

/-- A tick of an enabled comparator (R193 to R195, R198, R200, R203). -/
def Dev.compTick (d : Dev) (i : Fin 32) (s : Int) : Dev :=
  let cont := d.continuous i
  let stamp := d.compStamp i
  let d := d.onComp i (fun c => match c.waiting with | some w => { c with set := w, waiting := none } | none => c)
  let before := (d.guard.comps[i]).set.present (d.guard.comps[i]).state
  let d := d.compEval i s
  let c := d.guard.comps[i]
  let here := c.set.present c.state
  let d := if here && !c.warmUp && !d.compHeld i && (!cont || !before) then d.latchCondition i stamp else d
  let d := if !here && c.set.nextPeriod then d.onComp i (fun c => { c with latch := false }) else d
  d.onComp i (fun c => if c.warmUp && c.warmUpTick.isNone then { c with warmUpTick := some d.now } else c)

/-- THIMBLE_TICK (R193). -/
def execThimbleTick (t : Time) (comp : Fin 32) (level : Int) (s : State) : Host.Outcome State Fault Refusal :=
  onDev s t (fun d =>
    let c := (d.guard.comps[comp]).set
    if d.thimbleOn && c.enabled && (d.sampling || c.tickKeep) && d.tickFalls c then d.compTick comp level else d)

/-- WARM_UP_END (R200, R201): 1.5 us after the first tick; a condition still present sets the latch. -/
def execWarmUpEnd (t : Time) (comp : Fin 32) (level : Int) (s : State) : Host.Outcome State Fault Refusal :=
  onDev s t (fun d =>
    let c := d.guard.comps[comp]
    match c.warmUp, c.warmUpTick with
    | true, some tick =>
      if !d.thimbleOn || !c.set.enabled || decide (d.now < tick + ns 1500) then d
      else
        let d := d.onComp comp (fun c => { c with warmUp := false, warmUpTick := none })
        let d := if d.continuous comp then d.compEval comp level else d
        let c := d.guard.comps[comp]
        if c.set.present c.state && !d.compHeld comp then d.latchCondition comp d.stamp else d
    | _, _ => d)

/-- GAIN_HOLD_END (R205): the comparator follows its input again. -/
def execGainHoldEnd (t : Time) (comp : Fin 32) (level : Int) (s : State) : Host.Outcome State Fault Refusal :=
  onDev s t (fun d =>
    let c := d.guard.comps[comp]
    if c.holdUntil = 0 || decide (d.now < c.holdUntil) then d
    else
      let d := d.onComp comp (fun c => { c with holdUntil := 0 })
      if d.thimbleOn && c.set.enabled && d.continuous comp then d.compContinuous comp level else d)

/-- A gain change takes effect on a channel at a frame boundary: its fixed comparator holds for 12 us (R205). -/
def Dev.gainHold (d : Dev) (pos : Nat) : Dev :=
  d.onGuard (fun g => { g with comps := updAt d.guard.comps pos (fun c => { c with holdUntil := d.now + us 12 }) })

/-- Clear one latch, unless its condition sets it in this instant (R197, R199). A latch that was set before is then set afresh, and
counted once. -/
def Dev.latchClear (d : Dev) (i : Fin 32) : Dev :=
  let c := d.guard.comps[i]
  if !c.latch then d
  else if c.latchSetAt = d.now then (if c.latchFrom = d.now then d else d.latchSet i (d.compStamp i))
  else d.onComp i (fun c => { c with latch := false })

def Dev.latchesClear (d : Dev) (b : Basket) (val : Word) (first : Nat) : List (Fin 32) → Dev
  | [] => d
  | i :: is =>
    (if first ≤ i.val ∧ i.val < first + 16 ∧ bit val.toNat (i.val - first) = true ∧ (d.grants[b]).comparators[i] = true then d.latchClear i
     else d).latchesClear b val first is

/-- W1C write of one word of THIMBLE_LATCH (R197, R766). -/
def Dev.writeLatch (d : Dev) (b : Basket) (word : Nat) (val : Word) : Dev :=
  (d.latchesClear b val (16 * word) (List.finRange 32)).violateBits b (0x0C + word)
    (foreignBits val (16 * word) 32 (fun i => at? (d.grants[b]).comparators i false))

/-- THIMBLE_LATCH_CLEAR (R197 to R199). -/
def execThimbleLatchClear (t : Time) (b : Basket) (word : Fin 2) (val : BitVec 16) (s : State) : Host.Outcome State Fault Refusal :=
  onDev s t (fun d => if d.reachable b then d.writeLatch b word.val val else d)

/-- Clear one TRIP_STATUS bit, unless the trip input is active or the output tripped in this instant (R228, R768). -/
def Dev.tripClear (d : Dev) (o : Fin 8) : Dev :=
  if d.tripInput o || (d.guard.outs[o]).tripSetAt == d.now then d else d.onOut o (fun x => { x with tripStatus := false })

def Dev.tripsClear (d : Dev) (b : Basket) (val : Word) : List (Fin 8) → Dev
  | [] => d
  | o :: os => (if bit val.toNat o.val && (d.grants[b]).outputs[o] then d.tripClear o else d).tripsClear b val os

/-- W1C write of TRIP_STATUS (R228, R766). -/
def Dev.writeTrip (d : Dev) (b : Basket) (val : Word) : Dev :=
  (d.tripsClear b val (List.finRange 8)).violateBits b 0x0A (foreignBits val 0 8 (fun i => at? (d.grants[b]).outputs i false))

/-- TRIP_STATUS_CLEAR (R228). -/
def execTripStatusClear (t : Time) (b : Basket) (val : BitVec 16) (s : State) : Host.Outcome State Fault Refusal :=
  onDev s t (fun d => if d.reachable b then d.writeTrip b val else d)

/-! ## Thimble commands -/

/-- The setting that THM_SET describes (Table 16-6). -/
def compOfArgs (x : Ctx) : CompSet :=
  { enabled := x.argBit 1 0, source := match bits (x.arg 1) 2 1 with | 0 => .channel | 1 => .band | _ => .envelope,
    vib := Fin.ofNat 16 (bits (x.arg 2) 3 0), band := Fin.ofNat 32 (bits (x.arg 2) 12 8), low := x.arg 3, high := x.arg 4, hyst := x.arg 5,
    sampled := x.argBit 1 3, tickKeep := x.argBit 1 4, divider := x.arg 6, maskAbove := x.argBit 1 5, maskBelow := x.argBit 1 6,
    nextPeriod := x.argBit 1 7, wake := x.argBit 1 8 }

/-- The Wringer copies that a command is judged against: live, and captured while a commit is pending (R828). -/
def Dev.wringerCopies (d : Dev) : List WringerSet :=
  d.wr.live :: (match d.wr.pending with
    | none => []
    | some p => [{ p.captured with vibs := vmap p.captured.vibs (fun ch v =>
        if bit p.mask.toNat ch then v else (d.wr.live.vibs.toList[ch]?).getD v) }])

/-- Is a VIB channel in direct mode in every copy (R188, R828)? -/
def Dev.directMode (d : Dev) (ch : Nat) : Bool :=
  d.wringerCopies.all (fun w => match w.vibs.toList[ch]? with | none => false | some v => !v.count)

/-- Does a THM_SET open a warm-up window (R202)? -/
def CompSet.warms (old new : CompSet) : Bool :=
  !old.enabled || new.source != old.source || (new.source != .channel && new.vib != old.vib) || (new.source == .band && new.band != old.band) ||
    new.sampled != old.sampled || new.tickKeep != old.tickKeep || new.divider != old.divider

/-- THM_SET takes effect on a comparator (R200 to R204). -/
def Comparator.configure (c : Comparator) (new : CompSet) (cont : Bool) : Comparator :=
  if !new.enabled then
    { c with set := new, waiting := none, state := .inside, evaluated := false, warmUp := false, warmUpTick := none }
  else if c.set.warms new then
    { c with set := new, waiting := none, evaluated := c.evaluated && c.set.enabled, warmUp := true, warmUpTick := none }
  else if cont then { c with set := new, waiting := none }
  else { c with set := { c.set with wake := new.wake }, waiting := some new }

/-- THM_SET on a comparator; a condition that the new latch mask makes present sets the latch (R195, R203). -/
def Dev.thmSet (d : Dev) (i : Fin 32) (new : CompSet) : Dev :=
  let c := d.guard.comps[i]
  let before := c.set.present c.state
  let d := d.onComp i (fun c => c.configure new (!new.sampled && d.pwr.state != .watch))
  let c := d.guard.comps[i]
  if c.set.enabled && d.continuous i && c.evaluated && c.set.present c.state && !before && !c.warmUp && !d.compHeld i then
    d.latchCondition i d.stamp
  else d

/-- THM_SET (R185, R188, R190, R202 to R204, R233, R234). -/
def cmdThmSet : Command :=
  { code := 0x0301,
    names := fun x d => x.comparator d (x.arg 0) && (bits (x.arg 1) 2 1 == 0 || x.channel d (bits (x.arg 2) 3 0)),
    zero := fun x _ => x.arg 6 == 0,
    range := fun x _ =>
      let c := compOfArgs x
      argRange (decide (bits (x.arg 1) 2 1 ≤ 2) && (decide (x.arg 0 < 24) == (c.source == .channel)) && decide (c.high ≤ 1023) &&
        decide (c.hyst ≤ 63) && decide (c.low < c.high) && decide (2 * c.hyst < c.high - c.low) && (c.maskAbove || c.maskBelow) &&
        (if c.tickKeep then decide (c.divider ≤ 32) else decide (50 ≤ c.divider) && decide (c.divider ≤ 49152))),
    state := fun x d =>
      let c := compOfArgs x
      need (!(c.enabled && c.source == .band) || d.directMode c.vib.val) .state,
    act := fun x d => (if h : x.arg 0 < 32 then d.thmSet ⟨x.arg 0, h⟩ (compOfArgs x) else d, .ok []) }

/-- May a trip mask of this output name a comparator: held by basket 0 or by the basket that holds the output (R206)? -/
def Dev.maskable (d : Dev) (o : Fin 8) (i : Nat) : Bool :=
  d.grants.toList.zipIdx.any (fun g => at? g.1.comparators i false && (g.2 == 0 || g.1.outputs[o]))

/-- Set a trip mask: a trip input that goes active trips the output (R206, R223). -/
def Dev.setTripMask (d : Dev) (o : Fin 8) (mask : BitVec 32) : Dev :=
  let was := fun o => d.tripInput o
  (d.onGuard (fun g => { g with tripMasks := d.guard.tripMasks.set o mask })).tripEdges was [o]

/-- THM_SET_TRIP (R206). The output need only exist: another basket may hold it. -/
def cmdThmSetTrip : Command :=
  { code := 0x0302, sup := true, names := fun x _ => decide (x.arg 0 < 8),
    range := fun x d => argRange (if h : x.arg 0 < 8 then
      (List.range 32).all (fun i => !bit (x.arg32 1) i || d.maskable ⟨x.arg 0, h⟩ i) else true),
    act := fun x d => (if h : x.arg 0 < 8 then d.setTripMask ⟨x.arg 0, h⟩ (BitVec.ofNat 32 (x.arg32 1)) else d, .ok []) }

/-- THM_STATUS (R191, R196). -/
def cmdThmStatus : Command :=
  { code := 0x0303, names := fun x d => x.comparator d (x.arg 0),
    act := fun x d => match d.guard.comps.toList[x.arg 0]? with
      | none => (d, .refuse .noSuch)
      | some c =>
        (d, .ok (BitVec.ofNat 16 (c.state.number + 4 * packBits [c.latch, c.set.enabled, c.warmUp]) :: leWords 2 c.latches.toNat)) }

/-! ## Needle commands -/

/-- The mode that a number names (Table 05-7). -/
def needleModeOf : Nat → NeedleMode
  | 0 => .off | 1 => .pwm | 2 => .burst | 3 => .heartbeat | _ => .oneshot

def NeedleMode.number : NeedleMode → Nat
  | .off => 0 | .pwm => 1 | .burst => 2 | .heartbeat => 3 | .oneshot => 4

/-- The setting that NDL_SET describes; settings of other modes stay (Table 16-6). -/
def needleOfArgs (x : Ctx) (old : NeedleSet) : NeedleSet :=
  let mode := needleModeOf (bits (x.arg 1) 2 0)
  let base : NeedleSet := { old with mode := mode, activeLow := x.argBit 1 3,
                                     safe := match bits (x.arg 1) 5 4 with | 0 => .low | 1 => .high | _ => .highz }
  match mode with
  | .off => base
  | .pwm => { base with period := x.arg32 2, active := x.arg32 4 }
  | .burst => { base with burst := x.arg 6 }
  | .heartbeat => { base with halfUs := x.arg32 2, feedMs := x.arg32 4 }
  | .oneshot => { base with width := x.arg32 2 }

/-- The setting that a new NDL_SET starts from: the waiting one, if any. -/
def Needle.base (n : Needle) : NeedleSet := n.waiting.getD n.set

/-- NDL_SET takes effect (R209, R232, R238): on a tripped output it waits for NDL_ARM; a PWM change of P or H waits for the next
period; a change of mode ends the old mode. -/
def Needle.configure (n : Needle) (new : NeedleSet) : Needle :=
  if n.tripped then { n with configured := true, waiting := some new }
  else if new.mode != n.set.mode then
    { n with configured := true, set := new, armed := false, nextPH := none, phase := false }
  else if new.mode == .pwm && n.armed then
    { n with configured := true, set := { new with period := n.set.period, active := n.set.active }, nextPH := some (new.period, new.active) }
  else { n with configured := true, set := new }

/-- NDL_SET (R236 to R238). -/
def cmdNdlSet : Command :=
  { code := 0x0310, names := fun x d => x.output d (x.arg 0),
    zero := fun x _ => match bits (x.arg 1) 2 0 with
      | 1 => x.arg32 2 == 0 | 2 => x.arg 6 == 0 | 3 => x.arg32 2 == 0 | 4 => x.arg32 2 == 0 | _ => false,
    range := fun x _ =>
      argRange (decide (bits (x.arg 1) 5 4 ≤ 2) && (match bits (x.arg 1) 2 0 with
        | 0 => true
        | 1 => decide (2 ≤ x.arg32 2) && decide (x.arg32 2 ≤ 16777215) && decide (x.arg32 4 ≤ x.arg32 2)
        | 2 => true
        | 3 => decide (100 ≤ x.arg32 2) && decide (x.arg32 2 ≤ 1000000) && decide (x.arg32 4 ≤ 60000)
        | 4 => decide (x.arg32 2 ≤ 16777215)
        | _ => false)),
    state := fun x d => match d.guard.outs.toList[x.arg 0]? with
      | none => none
      | some n => need (!(n.firing.isSome && needleModeOf (bits (x.arg 1) 2 0) != n.set.mode)) .busy,
    act := fun x d =>
      (if h : x.arg 0 < 8 then d.onOut ⟨x.arg 0, h⟩ (fun n => n.configure (needleOfArgs x n.base)) else d, .ok []) }

/-- NDL_SYNTH_SET (R212, R214 to R216). -/
def cmdNdlSynthSet : Command :=
  { code := 0x0311, names := fun x d => (x.grants d).synth,
    range := fun x _ => argRange (decide (1000 ≤ x.arg32 0) && decide (x.arg32 0 ≤ 5000000)),
    act := fun x d =>
      let y := d.guard.synth
      (d.onGuard (fun g => { g with synth :=
          if d.guard.bursting then { y with waiting := some (x.arg32 0) } else y.retune (x.arg32 0) d.now }), .ok []) }

/-- The outputs of a mask. -/
def maskOuts (mask : Nat) : List (Fin 8) := (List.finRange 8).filter (fun o => bit mask o.val)

/-- The outputs of a mask and their state. -/
def Dev.named (d : Dev) (mask : Nat) : List Needle := (maskOuts mask).map (fun o => d.guard.outs[o])

/-- The latest timestamp before which a fire must begin: the deadline in us after acceptance. -/
def Dev.fireLimit (d : Dev) (x : Ctx) : Nat := d.stamp.toNat + 1000 * x.arg32 5

/-- The start timestamp of a fire: none for 0 or a time in the past (R217, R239). -/
def Dev.fireStart (d : Dev) (x : Ctx) : Option Nat := if x.arg64 1 ≤ d.stamp.toNat then none else some (x.arg64 1)

/-- NDL_FIRE (R217 to R221, R239): held until FIRE_START begins it or FIRE_DEADLINE refuses it. -/
def cmdNdlFire : Command :=
  { code := 0x0312, long := true, names := fun x d => x.outputs d (x.arg 0), zero := fun x _ => x.arg 0 == 0 || x.arg32 5 == 0,
    range := fun x d => argRange (match d.fireStart x with | none => true | some s => decide (s < d.fireLimit x)),
    state := fun x d =>
      firstErr [need ((d.named (x.arg 0)).all (fun n => !n.tripped && (n.set.mode == .burst || n.set.mode == .oneshot))) .state,
        need ((d.named (x.arg 0)).all (fun n => n.firing.isNone)) .busy],
    act := fun x d =>
      let h : HeldFire := { mask := x.arg 0, start := d.fireStart x, deadline := d.now + us (x.arg32 5), tag := x.tag }
      (d.onGuard (fun g => { g with held := d.guard.held.set x.b (some h) }), .wait) }

/-- Is the synthesiser locked at the latest frequency (R214, R215)? -/
def Synth.ready (y : Synth) : Bool := y.state == .locked && y.waiting.isNone

/-- A fire begins on one output (R217, R220, R222). -/
def Needle.fire (n : Needle) (freq : Nat) (rate : Int) (now : Time) (stamp : BitVec 64) (tag : Byte) : Needle :=
  let len := if n.set.mode == .burst then (n.set.burst * unitsPerSec + freq - 1) / max 1 freq else stretched rate (n.set.width * 15625)
  { n with firing := some { start := now, stamp := stamp, stop := now + len, tag := tag, cycles := n.set.burst } }

def Dev.fireOuts (d : Dev) (tag : Byte) : List (Fin 8) → Dev
  | [] => d
  | o :: os => (d.onOut o (fun n => n.fire d.guard.synth.freq d.clk.edgeRate d.now d.stamp tag)).fireOuts tag os

/-- FIRE_START (R217, R220): every named output is ready, a burst has lock, the start time has come, and the deadline has not (R48). -/
def execFireStart (t : Time) (b : Basket) (s : State) : Host.Outcome State Fault Refusal :=
  onDev s t (fun d =>
    match d.guard.held[b] with
    | none => d
    | some h =>
      let outs := d.named h.mask
      let ready := outs.all (fun n => !n.tripped && n.firing.isNone && (n.set.mode == .oneshot || (n.set.mode == .burst && d.guard.synth.ready)))
      let come := match h.start with | none => true | some st => decide (st ≤ d.stamp.toNat)
      if !ready || !come || decide (h.deadline ≤ d.now) then d
      else
        let d := d.onGuard (fun g => { g with held := d.guard.held.set b none })
        (d.fireOuts h.tag (maskOuts h.mask)).finish b 0x0312 (success (leWords 4 d.stamp.toNat)))

/-- FIRE_DEADLINE (R218, R219): refused with E_SYNTH_BUSY; nothing fires. -/
def execFireDeadline (t : Time) (b : Basket) (s : State) : Host.Outcome State Fault Refusal :=
  onDev s t (fun d =>
    match d.guard.held[b] with
    | none => d
    | some h =>
      if d.now < h.deadline then d
      else (d.onGuard (fun g => { g with held := d.guard.held.set b none })).finish b 0x0312 (refusal .synthBusy))

/-- FIRE_DONE (R222). -/
def execFireDone (t : Time) (out : Fin 8) (s : State) : Host.Outcome State Fault Refusal :=
  onDev s t (fun d =>
    match (d.guard.outs[out]).firing with
    | none => d
    | some f => if f.stop ≤ d.now then d.fireEnd out f false else d)

/-- NDL_ARM on one output (R230, R231, R238): an output armed and untripped is left alone. -/
def Needle.arm (n : Needle) (now : Time) : Needle :=
  if n.armed && !n.tripped then n
  else
    let set := n.base
    let set := match n.nextPH with | some (p, h) => if n.waiting.isNone then { set with period := p, active := h } else set | none => set
    { n with set := set, waiting := none, nextPH := none, tripped := false, armed := set.mode != .off, phase := true, mark := now,
             lastFeed := now }

def Dev.armOuts (d : Dev) : List (Fin 8) → Dev
  | [] => d
  | o :: os => (d.onOut o (fun n => n.arm d.now)).armOuts os

/-- NDL_ARM (R229 to R231). -/
def cmdNdlArm : Command :=
  { code := 0x0313, names := fun x d => x.outputs d (x.arg 0), zero := fun x _ => x.arg 0 == 0,
    state := fun x d =>
      need ((maskOuts (x.arg 0)).all (fun o => !(d.guard.outs[o]).tripStatus && !d.tripInput o) &&
        d.pwr.state != .hold && d.pwr.state != .fault) .state,
    act := fun x d => (d.armOuts (maskOuts (x.arg 0)), .ok []) }

/-- NDL_TRIP (R223). -/
def cmdNdlTrip : Command :=
  { code := 0x0314, names := fun x d => x.outputs d (x.arg 0), zero := fun x _ => x.arg 0 == 0,
    act := fun x d => (d.tripAll .software (maskOuts (x.arg 0)), .ok []) }

/-- Has the feed timeout of an output passed (R211, R48)? -/
def Needle.starved (n : Needle) (now : Time) : Bool :=
  n.armed && !n.tripped && n.set.mode == .heartbeat && n.set.feedMs != 0 && decide (n.lastFeed + ms n.set.feedMs ≤ now)

/-- Feed outputs; a feed at or after its deadline is missed (Table 05-8). -/
def Dev.feedOuts (d : Dev) : List (Fin 8) → Dev
  | [] => d
  | o :: os =>
    (if (d.guard.outs[o]).starved d.now then d.trip o .feed else d.onOut o (fun n => { n with lastFeed := d.now })).feedOuts os

/-- NDL_FEED (R211). -/
def cmdNdlFeed : Command :=
  { code := 0x0315, names := fun x d => x.outputs d (x.arg 0), zero := fun x _ => x.arg 0 == 0,
    state := fun x d => need ((d.named (x.arg 0)).all (fun n => n.armed && !n.tripped && n.set.mode == .heartbeat)) .state,
    act := fun x d => (d.feedOuts (maskOuts (x.arg 0)), .ok []) }

/-- The number of a synthesiser state. -/
def SynthState.number : SynthState → Nat
  | .locked => 0 | .settling => 1 | .calibrating => 2

/-- NDL_STATUS (R213, R225). -/
def cmdNdlStatus : Command :=
  { code := 0x0316, names := fun x d => x.output d (x.arg 0),
    act := fun x d => match d.guard.outs.toList[x.arg 0]? with
      | none => (d, .refuse .noSuch)
      | some n =>
        (d, .ok ([BitVec.ofNat 16 (n.set.mode.number + (if n.tripped then 8 else 0) + 16 * n.reason.number +
            if n.firing.isSome then 128 else 0)] ++ leWords 2 n.trips.toNat ++ [BitVec.ofNat 16 d.guard.synth.state.number])) }

/-! ## Needle timing -/

/-- The level driven on an NDL pin (R208, R210, R224, R232, Table 05-4). A burst is a square at the synthesiser frequency that begins
with its active half. -/
def Needle.pin (n : Needle) (freq : Nat) (rate : Int) (now : Time) : PinLevel :=
  let level := fun (active : Bool) => if active != n.set.activeLow then PinLevel.high else PinLevel.low
  if n.tripped then (match n.set.safe with | .low => .low | .high => .high | .highz => .highz)
  else if !n.configured then .low
  else match n.set.mode with
    | .off => level false
    | .pwm => level (n.armed && decide (now - n.mark < stretched rate (n.set.active * 15625)))
    | .heartbeat => level (n.armed && n.phase)
    | .burst => level (match n.firing with | none => false | some f => (now - f.start) * 2 * freq / unitsPerSec % 2 == 0)
    | .oneshot => level n.firing.isSome

/-- PWM_PERIOD_START (R208, R209). -/
def execPwmPeriodStart (t : Time) (out : Fin 8) (s : State) : Host.Outcome State Fault Refusal :=
  onDev s t (fun d =>
    let n := d.guard.outs[out]
    if d.sampling && n.armed && !n.tripped && n.set.mode == .pwm && decide (n.mark + d.periods n.set.period ≤ d.now) then
      d.onOut out (fun n =>
        { n with mark := n.mark + d.periods n.set.period, nextPH := none,
                 set := match n.nextPH with | some (p, h) => { n.set with period := p, active := h } | none => n.set })
    else d)

/-- HEARTBEAT_TOGGLE (R210). -/
def execHeartbeatToggle (t : Time) (out : Fin 8) (s : State) : Host.Outcome State Fault Refusal :=
  onDev s t (fun d =>
    let n := d.guard.outs[out]
    if d.sampling && n.armed && !n.tripped && n.set.mode == .heartbeat && decide (n.mark + us n.set.halfUs ≤ d.now) then
      d.onOut out (fun n => { n with mark := n.mark + us n.set.halfUs, phase := !n.phase })
    else d)

/-- FEED_TIMEOUT (R211, R48). -/
def execFeedTimeout (t : Time) (out : Fin 8) (s : State) : Host.Outcome State Fault Refusal :=
  onDev s t (fun d => if (d.guard.outs[out]).starved d.now then d.trip out .feed else d)

/-- SYNTH_CALIBRATION_END (R212). -/
def execSynthCalibrationEnd (t : Time) (s : State) : Host.Outcome State Fault Refusal :=
  onDev s t (fun d =>
    if d.sampling && d.guard.synth.state == .calibrating then
      d.onGuard (fun g => { g with synth := { d.guard.synth with state := .settling, since := d.now } })
    else d)

/-- SYNTH_LOCK (R213, R216). -/
def execSynthLock (t : Time) (s : State) : Host.Outcome State Fault Refusal :=
  onDev s t (fun d =>
    if d.sampling && d.guard.synth.state == .settling then
      let f := d.guard.synth.freq
      let d := d.onGuard (fun g => { g with synth := { d.guard.synth with state := .locked, since := d.now } })
      d.postHeld (fun g => g.synth) { event := .synthLock, data0 := f % 65536, data1 := f / 65536 }
    else d)

def execThmSet (t : Time) (b : Basket) (s : State) : Host.Outcome State Fault Refusal := hostCommand cmdThmSet t b s
def execThmSetTrip (t : Time) (b : Basket) (s : State) : Host.Outcome State Fault Refusal := hostCommand cmdThmSetTrip t b s
def execThmStatus (t : Time) (b : Basket) (s : State) : Host.Outcome State Fault Refusal := hostCommand cmdThmStatus t b s
def execNdlSet (t : Time) (b : Basket) (s : State) : Host.Outcome State Fault Refusal := hostCommand cmdNdlSet t b s
def execNdlSynthSet (t : Time) (b : Basket) (s : State) : Host.Outcome State Fault Refusal := hostCommand cmdNdlSynthSet t b s
def execNdlFire (t : Time) (b : Basket) (s : State) : Host.Outcome State Fault Refusal := hostCommand cmdNdlFire t b s
def execNdlArm (t : Time) (b : Basket) (s : State) : Host.Outcome State Fault Refusal := hostCommand cmdNdlArm t b s
def execNdlTrip (t : Time) (b : Basket) (s : State) : Host.Outcome State Fault Refusal := hostCommand cmdNdlTrip t b s
def execNdlFeed (t : Time) (b : Basket) (s : State) : Host.Outcome State Fault Refusal := hostCommand cmdNdlFeed t b s
def execNdlStatus (t : Time) (b : Basket) (s : State) : Host.Outcome State Fault Refusal := hostCommand cmdNdlStatus t b s

end Sys2Proof.Machine
end

