-- ==== Sys2Proof/Machine/Tiles.lean ====
section
/-!
DEFINITION. One Press tile (chapter 07): cells, pairs, conversions, the seam check, row planning; and the converter calibration and
seam self-check of chapter 08. Levels and weights are in 1/256 level, pulse widths in 2^-32 of tau.
-/

namespace Sys2Proof.Machine

/-! ## Cells and pairs -/

/-- The level of a cell; a cell not listed holds level 0. -/
def Tile.level (x : Tile) (row column : Nat) : Int :=
  match x.cells.find? (fun c => c.row == row && c.column == column) with
  | some c => c.level
  | none => 0

/-- Set the level of a cell; level 0 is not listed. -/
def Tile.setLevel (x : Tile) (row column : Nat) (level : Int) : Tile :=
  let kept := x.cells.filter (fun c => !(c.row == row && c.column == column))
  { x with cells := if level = 0 then kept else { row := row, column := column, level := level } :: kept }

/-- The physical pair that stands for pair p (R326). -/
def Tile.pairOf (x : Tile) (p : Nat) : Nat :=
  match x.remap.toList.findIdx? (· == some p) with
  | some j => 240 + j
  | none => p

/-- The weight of a physical pair (R291). -/
def Tile.rawWeight (x : Tile) (row pair : Nat) : Int := x.level row (2 * pair) - x.level row (2 * pair + 1)

/-- The weight that stands for pair p. -/
def Tile.weight (x : Tile) (row p : Nat) : Int := x.rawWeight row (x.pairOf p)

/-- The row remainder d of a seam (R319). -/
def Tile.remainder (x : Tile) (row seam : Nat) : Int := (assocGet? (8 * row + seam) x.remainders).getD 0

/-- The nearest level of a cell, ties toward level 0 (R374). -/
def nearestLevel (level : Int) : Int := clampInt 0 15 ((level + 127) / 256)

/-- Is a cell in tolerance of a target level (R290)? -/
def inTolerance (level target : Int) : Bool := decide ((level - 256 * target).natAbs ≤ 64)

/-- The trim of a converter: 0 to 255 T-mode, 256 + 8p + k for band k of pair p in D-mode (R301, R340). -/
def Tile.trim (x : Tile) (i : Nat) : Nat := (assocGet? i x.trims).getD 128

/-- Set a trim; the factory value is not listed. -/
def Tile.setTrim (x : Tile) (i v : Nat) : Tile :=
  { x with trims := if v = 128 then assocErase i x.trims else assocSet i v x.trims }

/-! ## Conversions -/

/-- The mode of a conversion: its range (R299, R308). -/
def convLow (dMode : Bool) : Int := if dMode then -16 else -32
def convHigh (dMode : Bool) : Int := if dMode then 15 else 31

/-- The unclamped value round(g × A ÷ 2^SHIFT), with A in 2^-40 and 2048 g = 1920 + TRIM. -/
def unclamped (trim : Nat) (a : Int) (shift : Nat) : Int := divRoundAway ((1920 + trim : Nat) * a) (2 ^ (51 + shift))

/-- Does an unclamped value lie outside the converter's range (R300, R322)? -/
def clips (dMode : Bool) (v : Int) : Bool := decide (v < convLow dMode) || decide (convHigh dMode < v)

/-- One conversion: R299 or R308, off by at most 1 code (R924). In D-mode a value at least 0.3 codes from a rounding boundary converts
exactly. -/
def convert (dMode : Bool) (trim : Nat) (a : Int) (shift draw key : Nat) : Int :=
  let v := unclamped trim a shift
  let num : Int := (1920 + trim : Nat) * a
  let den : Nat := 2 ^ (51 + shift)
  let exact := dMode && decide (5 * (num - v * den).natAbs ≤ den)
  clampInt (convLow dMode) (convHigh dMode) (if exact then v else v + (Config.convError draw key % 3 : Nat) - 1)

/-- A of a physical pair over driven rows, in 2^-40. -/
def Tile.column (x : Tile) (pair : Nat) (drives : List (Nat × Nat × Nat)) : Int :=
  drives.foldl (fun s d => s + (d.2.1 : Int) * x.rawWeight d.1 pair) 0

/-- The rows of a row-band. -/
def inBand (k : Nat) (drives : List (Nat × Nat × Nat)) : List (Nat × Nat × Nat) := drives.filter (fun d => d.1 / 64 == k)

/-- The converters of a physical pair that a phase reads: (trim index, driven rows). -/
def converters (dMode : Bool) (pair : Nat) (drives : List (Nat × Nat × Nat)) : List (Nat × List (Nat × Nat × Nat)) :=
  if dMode then (List.range 8).map (fun k => (256 + 8 * pair + k, inBand k drives)) else [(pair, drives)]

/-- The conversion of logical output p, summed over its bands in D-mode (R304, R309), and its clips (R300). -/
def Tile.output (x : Tile) (dMode : Bool) (shift draw : Nat) (drives : List (Nat × Nat × Nat)) (p : Nat) : Int × Nat :=
  let q := x.pairOf p
  (converters dMode q drives).foldl (fun s c =>
    let a := x.column q c.2
    (s.1 + convert dMode (x.trim c.1) a shift draw c.1, s.2 + (clips dMode (unclamped (x.trim c.1) a shift)).toNat)) (0, 0)

/-! ## Modes (R302, R307, R310) -/

/-- How long a phase lasts (R302, R307). -/
def phaseTime (dMode : Bool) : Time := if dMode then ns 120 else ns 800

/-- The earliest end of a phase in a mode that may start from an instant on: after the last phase of the tile, and 200 ns later where the mode
changes (R310). -/
def Tile.phaseEnds (x : Tile) (dMode : Bool) (from_ : Time) : Time :=
  max from_ (x.phaseEnd + if x.lastMode == some (!dMode) then ns 200 else 0) + phaseTime dMode

/-- The rows of the tile have been driven in a mode, until an instant. -/
def Tile.drove (x : Tile) (dMode : Bool) (until_ : Time) : Tile := { x with lastMode := some dMode, phaseEnd := until_ }

/-! ## Seam check -/

/-- The seam node's sum: 30 covered pairs minus 30 × the seam pair (R320), in 2^-40. -/
def Tile.seamSum (x : Tile) (s : Nat) (drives : List (Nat × Nat × Nat)) : Int :=
  drives.foldl (fun acc d =>
    acc + (d.2.1 : Int) * ((List.range 30).foldl (fun w o => w + x.weight d.1 (30 * s + o)) 0 - 30 * x.weight d.1 (248 + s))) 0

/-- The predicted sum from the input codes and the row remainders (R321), in 2^-40. -/
def Tile.seamPredicted (x : Tile) (s : Nat) (drives : List (Nat × Nat × Nat)) : Int :=
  drives.foldl (fun acc d => acc + (d.2.2 : Int) * x.remainder d.1 s * 2 ^ 40) 0

/-- Comparisons of a phase: made, failed, not made (R321, R322). -/
structure SeamCount where
  made : Nat
  failed : Nat
  unmade : Nat
  deriving DecidableEq, Repr

/-- One seam comparison. -/
def Tile.seamCompare (x : Tile) (dMode : Bool) (shift tol draw s : Nat) (drives : List (Nat × Nat × Nat)) (index : Nat) (n : SeamCount) :
    SeamCount :=
  let a := x.seamSum s drives
  let p := unclamped 128 (x.seamPredicted s drives) shift
  if clips dMode (unclamped (x.trim index) a shift) || clips dMode p then { n with unmade := n.unmade + 1 }
  else
    let r := convert dMode (x.trim index) a shift draw (10000 + index)
    { n with made := n.made + 1, failed := n.failed + (decide (tol < (r - p).natAbs)).toNat }

/-- The seam comparisons of a phase of a slice with these rows: per seam, and per row-band that holds a row of the slice in D-mode. -/
def Tile.seams (x : Tile) (dMode : Bool) (shift tol draw rowFirst rowCount : Nat) (drives : List (Nat × Nat × Nat)) : SeamCount :=
  (List.range 8).foldl (fun n s =>
    let q := x.pairOf (248 + s)
    if dMode then
      ((List.range 8).filter (fun k => decide (rowFirst < 64 * k + 64) && decide (64 * k < rowFirst + rowCount))).foldl
        (fun n k => x.seamCompare true shift tol draw s (inBand k drives) (256 + 8 * q + k) n) n
    else x.seamCompare false shift tol draw s drives q n) { made := 0, failed := 0, unmade := 0 }

/-- Drive rows with one code. -/
def driveAll (rows : List Nat) (code : Nat) : List (Nat × Nat × Nat) := rows.map (fun r => (r, code * 2 ^ 32, code))

/-- The seam self-check: 8 T-mode phases, row-band k with code 8, SHIFT 8, tolerance 1 ("Return to service"). -/
def Tile.selfCheck (x : Tile) (draw : Nat) : SeamCount :=
  (List.range 8).foldl (fun n k =>
    let c := x.seams false 8 1 (draw + k) 0 512 (driveAll ((List.range 64).map (64 * k + ·)) 8)
    { made := n.made + c.made, failed := n.failed + c.failed, unmade := n.unmade + c.unmade }) { made := 0, failed := 0, unmade := 0 }

/-- R386: all 64 comparisons are made and pass. -/
def SeamCount.passes (n : SeamCount) : Bool := n.made == 64 && n.failed == 0

/-! ## Row planning -/

/-- Groups of at most b rows, n groups at most. -/
def groupsOf {α : Type} (b : Nat) : Nat → List α → List (List α)
  | 0, _ => []
  | n + 1, l => if l.isEmpty then [] else l.take b :: groupsOf b n (l.drop b)

/-- Bits of an input format in D-mode (R307). -/
def planeBits (format : Nat) : Nat := if format = 3 then 16 else 8

/-- The phases of a slice not bound to PULSE inputs (R311 to R313): `inputs` are (row, code) in row order. -/
def planSlice (dMode : Bool) (format budget : Nat) (inputs : List (Nat × Int)) : List Phase :=
  let groups := fun (l : List (Nat × Int)) => groupsOf (max 1 budget) l.length (l.filter (fun i => i.2 != 0))
  if dMode then
    (groups inputs).flatMap (fun g => (List.range (planeBits format)).map (fun b =>
      { drives := driveAll ((g.filter (fun i => bit (i.2 % ((2 ^ planeBits format : Nat) : Int)).toNat b)).map (·.1)) 1, negative := false,
        plane := some b }))
  else
    let part := fun (neg : Bool) => (groups (inputs.filter (fun i => decide (i.2 < 0) == neg))).map (fun g =>
      ({ drives := g.map (fun i => (i.1, i.2.natAbs * 2 ^ 32, i.2.natAbs)), negative := neg, plane := none } : Phase))
    part false ++ part true

/-- The sign and weight of a phase's conversions: s of R304, or e_b × 2^b of R309. -/
def Phase.weight (p : Phase) (format : Nat) : Int :=
  match p.plane with
  | none => if p.negative then -1 else 1
  | some b => if b + 1 = planeBits format ∧ format ≠ 1 then -(2 ^ b : Nat) else (2 ^ b : Nat)

/-- 32-bit two's complement (R315). -/
def wrap32 (x : Int) : Int := signed 32 (x % (2 ^ 32 : Nat)).toNat

/-- Does the phase drive no row, every pulse having width 0? It then contributes nothing (R313). -/
def Phase.silent (p : Phase) : Bool := p.drives.all (fun d => d.2.1 == 0)

/-- What one phase of a slice yields: its contributions to the slice's tile results, the clips of the conversions read, and its seam comparisons
(R300, R304, R309, R313, R320 to R322). -/
def Tile.phase (x : Tile) (s : Slice) (int8 : Bool) (format : Nat) (p : Phase) (draw : Nat) : PhaseYield :=
  let ys := (List.range s.outCount).map (fun o => x.output s.dMode s.shift draw p.drives (s.outFirst + o))
  let n := if int8 then s.outCount / 2 else s.outCount
  let y := fun (o : Nat) => if p.silent then 0 else ((ys[o]?).getD (0, 0)).1
  let c := x.seams s.dMode s.shift s.seamTol draw s.rowFirst s.rowCount p.drives
  { sums := (List.range n).map (fun o => p.weight format * (if int8 then 16 * y (2 * o) + y (2 * o + 1) else y o)),
    clips := ys.foldl (fun c v => c + v.2) 0, made := c.made, failed := c.failed, unmade := c.unmade }

/-! ## Converter calibration -/

/-- The REF_POS and REF_NEG rows of row-band k: rows 512 + 2k and 513 + 2k. -/
def refRow (neg : Bool) (k : Nat) : Nat := 512 + 2 * k + neg.toNat

/-- The target levels of a reference row's pair (R379): (8, 0) or (0, 8). -/
def refTarget (row column : Nat) : Int := if row % 2 == column % 2 then 8 else 0

/-- Is every reference cell in tolerance? -/
def Tile.refsGood (x : Tile) : Bool :=
  (List.range 16).all (fun r => (List.range 512).all (fun c => inTolerance (x.level (512 + r) c) (refTarget (512 + r) c)))

/-- A converter under calibration (Table 05 of chapter 08): its trim index, pair, row-bands, codes, shift, mode and E+ − E−. -/
structure CalConv where
  index : Nat
  pair : Nat
  bands : List Nat
  dMode : Bool
  deriving DecidableEq, Repr

/-- The 2304 converters of a tile. -/
def calConverters : List CalConv :=
  ((List.range 256).map (fun p => ({ index := p, pair := p, bands := List.range 8, dMode := false } : CalConv))) ++
    (List.range 256).flatMap (fun p => (List.range 8).map (fun k => { index := 256 + 8 * p + k, pair := p, bands := [k], dMode := true }))

/-- The measured conversions of one converter over its 32 codes (Table 08-5): value and nominal expected value. -/
def Tile.calMeasure (x : Tile) (c : CalConv) (neg : Bool) (draw : Nat) : List (Int × Int) :=
  let shift := if c.dMode then 5 else 10
  let first := if c.dMode then 29 else 224
  (List.range 32).map (fun i =>
    let code := first + i
    let a := x.column c.pair (driveAll (c.bands.map (refRow neg)) code)
    let ideal : Int := (if neg then -1 else 1) * (code * 2 ^ 32 * 8 * 256 * c.bands.length : Nat)
    (convert c.dMode (x.trim c.index) a shift draw (20000 + 100 * c.index + 50 * neg.toNat + i), unclamped (x.trim c.index) ideal shift))

/-- The new trim of a converter (R381), or none when the calibration is dirty (R382). -/
def Tile.calTrim (x : Tile) (c : CalConv) (draw : Nat) : Option Int :=
  let pos := x.calMeasure c false draw
  let neg := x.calMeasure c true draw
  if (pos ++ neg).any (fun m => decide (2 < (m.1 - m.2).natAbs)) then none
  else
    let m := pos.foldl (fun s v => s + v.1) 0 - neg.foldl (fun s v => s + v.1) 0
    let e : Int := if c.dMode then 712 else 958
    if m ≤ 0 then none else some (128 + divRoundAway ((1920 + x.trim c.index : Nat) * e - 2048 * m) m.toNat)

/-- The trims of a calibration (R380 to R383): new trims and failed pairs, or none when dirty. -/
def Tile.calibrateFrom (x : Tile) (draw : Nat) : List CalConv → Tile → List Nat → Option (Tile × List Nat)
  | [], y, failed => some (y, failed)
  | c :: cs, y, failed =>
    match x.calTrim c draw with
    | none => none
    | some t =>
      if t < 0 ∨ 255 < t then x.calibrateFrom draw cs y (insertNat c.pair failed)
      else x.calibrateFrom draw cs (y.setTrim c.index t.toNat) failed

/-- A converter calibration of a tile: the trims that follow and the pairs that fail, or none when it is dirty. -/
def Tile.calibrate (x : Tile) (draw : Nat) : Option (List (Nat × Nat) × List Nat) :=
  if x.refsGood then (x.calibrateFrom draw calConverters x []).map (fun r => (r.1.trims, r.2)) else none

end Sys2Proof.Machine
end

