-- ==== Sys2Proof/Machine/Spool.lean ====
section
/-!
DEFINITION. The Spool's tags and their ledger, the ageing of tags, the operand caches' directory, and the memory and Spool commands
(chapter 10).
-/

namespace Sys2Proof.Machine

/-! ## Tags and the ledger -/

/-- The lowest FREE tag. -/
def Spool.freeId (p : Spool) : Option Nat := (List.range 4096).find? (fun i => !p.tags.any (fun t => t.id.val == i))

/-- Tags in flight, device-wide and of a basket (R474). -/
def Spool.inFlight (p : Spool) : Nat := p.tags.length
def Spool.inFlightOf (p : Spool) (b : Basket) : Nat := (p.tags.filter (fun t => t.basket == b)).length

/-- Count an allocation. -/
def Ledger.allocate (l : Ledger) : Ledger := { l with allocated := l.allocated + 1 }

/-- Count a retirement: completed or aborted. -/
def Ledger.retire (l : Ledger) (done : Bool) : Ledger :=
  if done then { l with completed := l.completed + 1 } else { l with aborted := l.aborted + 1 }

/-- A tag as its work is created (Table 10-3): ALLOCATED, or READY at once when it depends on nothing. -/
def Tag.created (t : Tag) (id : Fin 4096) (now : Time) : Tag :=
  { t with id := id, status := if t.deps.isEmpty then .ready else .allocated, level := t.priority, allocAt := now, readyAt := now,
           aborting := false }

/-- A tag not yet allocated. -/
def Tag.of (kind : TagKind) (b : Basket) (h : Option Handle) (priority : Nat) (deadline : Option Time) : Tag :=
  { id := 0, kind := kind, basket := b, handle := h, tile := none, index := 0, replica := 0, engine := none, status := .ready, deps := [],
    priority := priority, level := priority, deadline := deadline, allocAt := 0, readyAt := 0, aborting := false }

/-- Allocate the lowest FREE tag (R474). -/
def Spool.alloc (p : Spool) (now : Time) (t : Tag) : Spool × Option (Fin 4096) :=
  match p.freeId with
  | none => (p, none)
  | some i =>
    ({ p with tags := p.tags ++ [t.created (Fin.ofNat 4096 i) now], device := p.device.allocate,
              baskets := upd p.baskets t.basket Ledger.allocate }, some (Fin.ofNat 4096 i))

/-- A tag after one it may depend on has completed. -/
def Tag.released (t : Tag) (id : Fin 4096) (now : Time) : Tag :=
  let deps := t.deps.filter (· != id)
  if t.status == .allocated && deps.isEmpty then { t with deps := deps, status := .ready, readyAt := now } else { t with deps := deps }

/-- Retire a tag as COMPLETED or ABORTED; completion releases its dependents (Table 10-3). -/
def Spool.retire (p : Spool) (now : Time) (id : Fin 4096) (done : Bool) : Spool :=
  match p.tags.find? (fun t => t.id == id) with
  | none => p
  | some t =>
    let rest := p.tags.filter (fun u => u.id != id)
    { p with tags := if done then rest.map (fun u => u.released id now) else rest, device := p.device.retire done,
             baskets := upd p.baskets t.basket (fun l => l.retire done) }

/-- Retire tags at once. -/
def Dev.retireTags (d : Dev) (done : Bool) : List (Fin 4096) → Dev
  | [] => d
  | i :: is => (d.onSpool (fun p => p.retire d.now i done)).retireTags done is

/-- A tag, when it is in flight. -/
def Spool.tag (p : Spool) (id : Fin 4096) : Option Tag := p.tags.find? (fun t => t.id == id)

/-- Has the run of a tag ended, so that the tag counts as aborted (R482)? -/
def Spool.aborts (p : Spool) (id : Fin 4096) : Bool := match p.tag id with | some t => t.aborting | none => false

/-- The tags of the run in flight of a model. -/
def Spool.ofRun (p : Spool) (h : Handle) : List Tag := p.tags.filter (fun t => t.handle == some h && !t.aborting)

/-- Does an ISSUED tag of this kind first finish its current step when its run ends early (R482)? -/
def Tag.hasStep (t : Tag) : Bool := t.status == .issued && (t.kind == .phases || t.kind == .vector || t.kind == .press)

/-- Abort every tag in flight of a run (R482). -/
def Dev.abortRun (d : Dev) (h : Handle) : Dev :=
  let mine := d.spool.ofRun h
  let d := d.onSpool (fun p => { p with tags := p.tags.map (fun t => if t.handle == some h && t.hasStep then { t with aborting := true } else t) })
  d.retireTags false ((mine.filter (fun t => !t.hasStep)).map (·.id))

/-- Change a tag. -/
def Spool.onTag (p : Spool) (id : Fin 4096) (f : Tag → Tag) : Spool :=
  { p with tags := p.tags.map (fun t => if t.id == id then f t else t) }

/-- Is tag a taken before tag b (R488, Table 10-8)? -/
def Tag.before (a b : Tag) : Bool :=
  if a.level != b.level then decide (a.level < b.level)
  else
    match a.deadline, b.deadline with
    | some _, none => true
    | none, some _ => false
    | x, y =>
      if x.getD 0 != y.getD 0 then decide (x.getD 0 < y.getD 0)
      else if a.allocAt != b.allocAt then decide (a.allocAt < b.allocAt) else decide (a.id.val < b.id.val)

/-- The tag that is taken first. -/
def bestTag : List Tag → Option Tag
  | [] => none
  | t :: ts => match bestTag ts with | none => some t | some u => if t.before u then some t else some u

/-- Does the tag wait READY for this unit (Table 10-2, R490)? -/
def Tag.waitsFor (t : Tag) (u : UnitId) : Bool :=
  t.status == .ready && !t.aborting &&
    (match u with
     | .gatherer => t.kind == .gather
     | .tile i => t.kind == .phases && t.tile == some i
     | .path i => t.kind == .move && t.tile == some i
     | .engine e => t.kind == .vector && (t.engine == none || t.engine == some e)
     | .press g => t.kind == .press && (match t.tile with | some i => i.val / 6 == g.val | none => false)
     | .store => t.kind == .learn)

/-- Can the unit accept work? A tile, an engine and a press engine do one thing at a time (R310, R344, R491). -/
def Spool.unitFree (p : Spool) : UnitId → Bool
  | .tile i => !p.tags.any (fun t => t.kind == .phases && t.tile == some i && t.status == .issued)
  | .engine e => (p.engines[e]).busy.isNone
  | .press g => !p.tags.any (fun t => t.kind == .press && t.status == .issued && (match t.tile with | some i => i.val / 6 == g.val | none => false))
  | _ => true

/-- TAG_AGEING (R489): a READY tag rises by one level for each full ageing interval. -/
def execTagAgeing (t : Time) (tag : Fin 4096) (s : State) : Host.Outcome State Fault Refusal :=
  onDev s t (fun d =>
    match d.spool.tag tag, d.spool.ageing with
    | some x, some i =>
      if x.status == .ready && !x.aborting && decide (0 < x.level) && decide (x.readyAt + (x.priority - x.level + 1) * us (100 * i) ≤ d.now) then
        d.onSpool (fun p => p.onTag tag (fun x => { x with level := x.level - 1 }))
      else d
    | _, _ => d)

/-! ## The directory of the operand caches -/

/-- Length of n CORE cycles. -/
def coreCycles (n : Nat) : Time := 960 * n

/-- The directory's view of a line. -/
def Spool.line (p : Spool) (n : Nat) : Line :=
  (p.lines.find? (fun l => l.line == n)).getD { line := n, state := .uncached, writeback := false, writeFrom := 0, keepShared := false, purge := false,
                                                waiting := [] }

/-- Is there nothing to remember of a line? -/
def Line.idle (l : Line) : Bool := l.state == .uncached && !l.writeback && l.waiting.isEmpty

/-- Put a line back; an idle line is not listed. -/
def Spool.putLine (p : Spool) (l : Line) : Spool :=
  let rest := p.lines.filter (fun x => x.line != l.line)
  { p with lines := if l.idle then rest else l :: rest }

/-- Does an engine hold a copy that serves the request? -/
def Line.serves (l : Line) (e : Fin 4) (own : Bool) : Bool :=
  match l.state with | .uncached => false | .shared by_ => !own && by_.contains e | .owned by_ _ => by_ == e

/-- Grant a line that nobody else owns (Table 10-5): the times are those of the invalidation and of the line. -/
def Line.grant (l : Line) (e : Fin 4) (own : Bool) (now : Time) : Line :=
  let sharers := match l.state with | .shared by_ => by_ | _ => []
  if own then
    let at_ := now + coreCycles ((if sharers.any (· != e) then 2 else 0) + (if sharers.contains e then 0 else 6))
    { l with state := .owned e at_ }
  else { l with state := .shared (if sharers.contains e then sharers else sharers ++ [e]) }

/-- Does another engine own the line? -/
def Line.ownedByOther (l : Line) (e : Fin 4) : Bool := match l.state with | .owned by_ _ => by_ != e | _ => false

/-- The first waiting engine in the order P, P + 1, … (R501). -/
def Line.winner (l : Line) (p : Fin 4) : Option (Fin 4 × Bool) :=
  (List.range 4).findSome? (fun i => l.waiting.find? (fun w => w.1.val == (p.val + i) % 4))

/-- Serve waiting requests until one owns the line; P moves behind each winner (R500 to R502). -/
def Spool.arbitrate (p : Spool) (now : Time) : Nat → Line → Spool
  | 0, l => p.putLine l
  | n + 1, l =>
    match l.winner p.pointer with
    | none => p.putLine l
    | some (e, own) =>
      if l.ownedByOther e then p.putLine l
      else
        ({ p with pointer := e + 1 }).arbitrate now n ({ l with waiting := l.waiting.filter (fun w => w.1 != e) }.grant e own now)

/-- Start the recall of an owned line whose hold has ended and for which a request, or a write by an agent without a cache, waits: the owner
writes back and keeps a shared copy on GetS (Table 10-5). -/
def Spool.recall (p : Spool) (l : Line) (now : Time) : Line :=
  let shared := match l.winner p.pointer with | some (_, own) => !own && !l.purge | none => false
  if (l.purge || !l.waiting.isEmpty) && !l.writeback && !l.held now then
    { l with writeback := true, writeFrom := now, keepShared := shared, purge := false }
  else l

/-- Does an engine hold a copy of the line, not on its way out? -/
def Line.cachedBy (l : Line) (e : Fin 4) : Bool :=
  !l.writeback && (match l.state with | .uncached => false | .shared by_ => by_.contains e | .owned by_ _ => by_ == e)

/-- The line after its copy in a cache has been evicted: a shared copy goes, an owned one is written back (PutM). -/
def Line.evict (l : Line) (now : Time) (e : Fin 4) : Line :=
  match l.state with
  | .shared by_ =>
    let rest := by_.filter (· != e)
    { l with state := if rest.isEmpty then .uncached else .shared rest }
  | .owned _ _ => { l with writeback := true, writeFrom := now, keepShared := false, purge := false }
  | .uncached => l

/-- Make room in the set of a line: each cache has 64 sets of 4 lines. The line to go is a free value (log entry 17). -/
def Spool.makeRoom (p : Spool) (draw : Nat) (now : Time) (e : Fin 4) (line : Nat) : Spool :=
  let held := p.lines.filter (fun l => l.line % 64 == line % 64 && l.line != line && l.cachedBy e)
  if held.length < 4 then p
  else match held[Config.cacheVictim draw % held.length]? with
    | none => p
    | some l => p.putLine (l.evict now e)

/-- A GetS or GetM request (Table 10-5). -/
def Spool.request (p : Spool) (draw : Nat) (now : Time) (e : Fin 4) (n : Nat) (own : Bool) : Spool :=
  let l := p.line n
  if (!l.writeback && l.serves e own) || l.waiting.any (fun w => w.1 == e) then p
  else
    let p := p.makeRoom draw now e n
    if l.writeback || l.ownedByOther e then
      let l := { l with waiting := l.waiting ++ [(e, own)] }
      p.putLine (p.recall l now)
    else p.putLine (l.grant e own now)

/-- Requests for lines, one after the other. -/
def Spool.requests (p : Spool) (draw : Nat) (now : Time) (e : Fin 4) (own : Bool) : List Nat → Spool
  | [] => p
  | n :: ns => (p.request draw now e n own).requests (draw + 1) now e own ns

/-- Does the CORE domain run: in ACTIVE, and in WATCH while a run holds it awake (R49, R507)? -/
def Dev.coreRuns (d : Dev) : Bool :=
  d.pwr.state == .active || (d.pwr.state == .watch && d.models.toList.any (fun m => m.any (fun m => m.run.isSome)))

/-- CACHE_REQUEST (R498). The caches hold no line while the CORE domain stands (R507). -/
def execCacheRequest (t : Time) (engine : Fin 4) (line : Fin 393216) (own : Bool) (s : State) : Host.Outcome State Fault Refusal :=
  onDev s t (fun d =>
    if !d.coreRuns then d
    else
      let (n, d) := d.draw
      d.onSpool (fun p => p.request n d.now engine line.val own))

/-- CACHE_WRITEBACK (R500, R501): a write-back takes 4 cycles (Table 10-5). -/
def execCacheWriteback (t : Time) (line : Fin 393216) (s : State) : Host.Outcome State Fault Refusal :=
  onDev s t (fun d => d.onSpool (fun p =>
    let l := p.line line.val
    if !l.writeback || decide (d.now < l.writeFrom + coreCycles 4) then p
    else
      let state := match l.state with | .owned e _ => if l.keepShared then LineState.shared [e] else .uncached | _ => .uncached
      p.arbitrate d.now 4 { l with writeback := false, keepShared := false, state := state }))

/-- OWNERSHIP_HOLD_END (R499). -/
def execOwnershipHoldEnd (t : Time) (line : Fin 393216) (s : State) : Host.Outcome State Fault Refusal :=
  onDev s t (fun d => d.onSpool (fun p => p.putLine (p.recall (p.line line.val) d.now)))

/-- The caches are written back and invalidated (R507); a request that waits is not dropped (R502). -/
def Dev.dropCaches (d : Dev) : Dev :=
  d.onSpool (fun p => { p with lines := (p.lines.filter (fun l => !l.waiting.isEmpty)).map (fun l =>
    { l with state := .uncached, writeback := true, writeFrom := d.now, keepShared := false, purge := false }) })

/-! ## Commands -/

/-- The units of a model's reservation (R445). -/
def Model.unitsMeet (m : Model) (first count : Nat) : Bool :=
  decide (m.firstUnit < first + count) && decide (first < m.firstUnit + m.unitCount)

/-- Does a running ring lie in these units? -/
def Dev.ringIn (d : Dev) (first count : Nat) : Bool :=
  d.rinse.chains.toList.any (fun c => c.rings.toList.any (fun r => match r with
    | none => false
    | some r => r.on && decide (r.base / 65536 < first + count) && decide (first ≤ (r.base + (r.length * r.size - 1)) / 65536)))

/-- Is a unit of the range in a loaded model's reservation, or does it hold a running ring (R460, R726)? -/
def Dev.unitsBusy (d : Dev) (first count : Nat) : Bool :=
  d.models.toList.any (fun m => match m with | none => false | some m => m.unitsMeet first count) || d.ringIn first count

/-- MEM_STATUS (R461). -/
def cmdMemStatus : Command :=
  { code := 0x0610,
    act := fun x d => (d, .ok (leWords 2 (d.host.pages[x.b]).uninitRead.toNat ++ [BitVec.ofNat 16 (d.writtenGranules x.b)])) }

/-- MEM_CLEAR (R460, R505). -/
def cmdMemClear : Command :=
  { code := 0x0611,
    names := fun x d => (List.range (x.arg 1)).all (fun i => (x.grants d).unit (x.arg 0 + i)),
    zero := fun x _ => x.arg 1 == 0,
    state := fun x d => need (!d.unitsBusy (x.arg 0) (x.arg 1)) .busy,
    act := fun x d => (d.onSram (fun s => s.clearUnits (x.arg 0) (x.arg 1)), .ok []) }

/-- The four figures of a ledger (R474). -/
def Ledger.report (l : Ledger) (inFlight : Nat) : List Byte :=
  w64 l.allocated.toNat ++ w64 l.completed.toNat ++ w64 l.aborted.toNat ++ w32 inFlight

/-- The items of SP_LEDGER (R476). -/
def Dev.ledgerReport (d : Dev) (b : Nat) : List Byte :=
  d.spool.device.report d.spool.inFlight ++ (at? d.spool.baskets b Ledger.zero).report (d.spool.inFlightOf (Fin.ofNat 4 b))

/-- SP_LEDGER (R476): a basket number outside 0 to 3, or for baskets 1 to 3 outside their own, is out of range (R739). -/
def cmdSpLedger : Command :=
  blockCommand 0x0612 false (fun _ _ => true) (fun x _ => argRange (decide (x.arg 0 < 4) && (x.b == 0 || x.arg 0 == x.b.val)))
    (fun x d => d.ledgerReport (x.arg 0))

/-- SP_SET_AGEING (R503, R504). -/
def cmdSpSetAgeing : Command :=
  { code := 0x0613, sup := true, zero := fun x _ => x.arg 0 == 0,
    range := fun x _ => argRange (x.arg 0 == 0xFFFF || decide (x.arg 0 ≤ 1000)),
    act := fun x d => (d.onSpool (fun p => { p with ageing := if x.arg 0 = 0xFFFF then none else some (x.arg 0) }), .ok []) }

/-- The CORE cycles for which an engine has been busy with the descriptor in progress; none pass while the islands stand (R894). -/
def Dev.busyCycles (d : Dev) (v : Engine) : Nat :=
  match v.busy with | some (_, _, _, start) => if d.pwr.halted then 0 else (d.now - start + 959) / 960 | none => 0

/-- The items of VE_STATUS (R497). -/
def Dev.engineReport (d : Dev) (e : Nat) : List Byte :=
  let v := at? d.spool.engines e { busy := none, descriptors := 0, cycles := 0 }
  (match v.busy with
   | some (h, i, _) => w32 h.val ++ w32 i
   | none => w32 (Config.idleWord d.free) ++ w32 (Config.idleWord (d.free + 1))) ++ w64 v.descriptors.toNat ++ w64 (v.cycles.toNat + d.busyCycles v)

/-- VE_STATUS (R497, R739). -/
def cmdVeStatus : Command :=
  blockCommand 0x0614 false (fun _ _ => true) (fun x _ => argRange (decide (x.arg 0 < 4))) (fun x d => d.engineReport (x.arg 0))

def execMemStatus (t : Time) (b : Basket) (s : State) : Host.Outcome State Fault Refusal := hostCommand cmdMemStatus t b s
def execMemClear (t : Time) (b : Basket) (s : State) : Host.Outcome State Fault Refusal := hostCommand cmdMemClear t b s
def execSpLedger (t : Time) (b : Basket) (s : State) : Host.Outcome State Fault Refusal := hostCommand cmdSpLedger t b s
def execSpSetAgeing (t : Time) (b : Basket) (s : State) : Host.Outcome State Fault Refusal := hostCommand cmdSpSetAgeing t b s
def execVeStatus (t : Time) (b : Basket) (s : State) : Host.Outcome State Fault Refusal := hostCommand cmdVeStatus t b s

end Sys2Proof.Machine
end

