-- ==== Sys2Proof/Machine/Calendar.lean ====
section
/-!
DEFINITION. The calendar and its alarm (R886 to R891, R904).
-/

namespace Sys2Proof.Machine

/-! ## Dates -/

/-- Is it a leap year (R886)? -/
def leapYear (y : Nat) : Bool := y % 4 == 0 && !([2100, 2200, 2300].contains y)

/-- Days of a month (R886). -/
def monthDays (y m : Nat) : Nat :=
  if m = 2 then (if leapYear y then 29 else 28) else if [4, 6, 9, 11].contains m then 30 else 31

/-- Is it a date and time of R886? -/
def Date.possible (x : Date) : Bool :=
  decide (2000 ≤ x.year) && decide (x.year ≤ 2399) && decide (1 ≤ x.month) && decide (x.month ≤ 12) && decide (1 ≤ x.day) &&
    decide (x.day ≤ monthDays x.year x.month) && decide (x.hour ≤ 23) && decide (x.minute ≤ 59) && decide (x.second ≤ 59)

/-- The last second of R886. -/
def Date.last : Date := { year := 2399, month := 12, day := 31, hour := 23, minute := 59, second := 59 }

/-- One second later. -/
def Date.next (x : Date) : Date :=
  if x.second < 59 then { x with second := x.second + 1 }
  else if x.minute < 59 then { x with minute := x.minute + 1, second := 0 }
  else if x.hour < 23 then { x with hour := x.hour + 1, minute := 0, second := 0 }
  else if x.day < monthDays x.year x.month then { x with day := x.day + 1, hour := 0, minute := 0, second := 0 }
  else if x.month < 12 then { x with month := x.month + 1, day := 1, hour := 0, minute := 0, second := 0 }
  else { year := x.year + 1, month := 1, day := 1, hour := 0, minute := 0, second := 0 }

/-- Days from 2000-01-01. -/
def Date.days (x : Date) : Nat :=
  ((List.range (x.year - 2000)).map (fun i => if leapYear (2000 + i) then 366 else 365)).sum +
    ((List.range (x.month - 1)).map (fun i => monthDays x.year (i + 1))).sum + (x.day - 1)

/-- Seconds from 2000-01-01 00:00:00. -/
def Date.seconds (x : Date) : Nat := ((x.days * 24 + x.hour) * 60 + x.minute) * 60 + x.second

/-- Minutes from 2000-01-01 00:00, or 0xFFFF_FFFF when the calendar is invalid (Table 11-6). -/
def Keep.minutes (k : Keep) : Nat := if k.valid then k.date.seconds / 60 else 0xFFFFFFFF

/-- STAMP of a record (Table 11-4). -/
def Keep.stampBytes (k : Keep) : List Byte :=
  leBytes 2 k.date.year ++ [BitVec.ofNat 8 k.date.month, BitVec.ofNat 8 k.date.day, BitVec.ofNat 8 k.date.hour, BitVec.ofNat 8 k.date.minute,
    BitVec.ofNat 8 k.date.second, if k.valid then 1 else 0]

/-! ## The calendar -/

/-- The alarm fires when it is enabled, VALID is set and the calendar equals it (R891). -/
def Dev.alarmCheck (d : Dev) : Dev :=
  if d.keep.alarmOn && d.keep.valid && d.keep.date == d.keep.alarm then
    ((d.onKeep (fun k => { k with alarmOn := false })).post d.everyEnabled (d.keepStamp d.now) { event := .calAlarm }).wakeBy 1
  else d

/-- CALENDAR_SECOND (R886, R890): a second boundary falls 32 768 KEEP periods after the one before. -/
def execCalendarSecond (t : Time) (s : State) : Host.Outcome State Fault Refusal :=
  onDev s t (fun d =>
    if d.now < d.keep.lastSecond + sec 1 then d
    else
      let d := d.onKeep (fun k => { k with lastSecond := k.lastSecond + sec 1 })
      if d.keep.date == Date.last then d.onKeep (fun k => { k with valid := false })
      else (d.onKeep (fun k => { k with date := k.date.next })).alarmCheck)

/-- KEEP_OSCILLATOR_STOP (R889). -/
def execKeepOscillatorStop (t : Time) (s : State) : Host.Outcome State Fault Refusal :=
  onDev s t (fun d => d.onKeep (fun k => { k with valid := false }))

/-- The date that CAL_SET's and CAL_ALARM's arguments spell (Table 16-12). -/
def Ctx.date (x : Ctx) : Date :=
  { year := x.arg 0, month := x.arg 1, day := x.arg 2, hour := x.arg 3, minute := x.arg 4, second := x.arg 5 }

/-- CAL_SET (R887, R888). -/
def cmdCalSet : Command :=
  { code := 0x0901, sup := true, range := fun x _ => need x.date.possible .dateInvalid,
    act := fun x d => ((d.onKeep (fun k => { k with date := x.date, valid := true, lastSecond := d.now })).alarmCheck, .ok []) }

/-- CAL_GET (Table 16-12). -/
def cmdCalGet : Command :=
  { code := 0x0902,
    act := fun _ d =>
      let k := d.keep
      (d, .ok [BitVec.ofNat 16 k.date.year, BitVec.ofNat 16 (k.date.month + 256 * k.date.day),
        BitVec.ofNat 16 (k.date.hour + 256 * k.date.minute), BitVec.ofNat 16 (k.date.second + if k.valid then 0x8000 else 0)]) }

/-- CAL_ALARM (R887, R904). -/
def cmdCalAlarm : Command :=
  { code := 0x0903, sup := true, range := fun x _ => need x.date.possible .dateInvalid,
    act := fun x d =>
      (d.onKeep (fun k => if x.argBit 6 0 then { k with alarm := x.date, alarmOn := true } else { k with alarmOn := false }), .ok []) }

def execCalSet (t : Time) (b : Basket) (s : State) : Host.Outcome State Fault Refusal := hostCommand cmdCalSet t b s
def execCalGet (t : Time) (b : Basket) (s : State) : Host.Outcome State Fault Refusal := hostCommand cmdCalGet t b s
def execCalAlarm (t : Time) (b : Basket) (s : State) : Host.Outcome State Fault Refusal := hostCommand cmdCalAlarm t b s

end Sys2Proof.Machine
end

