-- ==== Sys2Proof/Machine/Layout.lean ====
section
/-!
DEFINITION. Where a model's buffers lie in its reservation (R471, R445), and what its image says of them.
-/

namespace Sys2Proof.Machine

/-- Round up to a multiple of 4. -/
def align4 (n : Nat) : Nat := (n + 3) / 4 * 4

/-- Does a binding fill the FP16 binding buffer (R425)? -/
def Binding.isFp (b : Binding) : Bool := (b.kind == 0 && b.source == 2) || b.kind == 2

/-- Is it a REMOTE binding that holds its last block (R429)? -/
def Binding.holds (b : Binding) : Bool := b.kind == 1 && b.missing == 1

/-- One past the last element that bindings of one buffer fill. -/
def Image.fpElements (m : Image) : Nat := (m.bindings.filter (·.isFp)).foldl (fun n b => max n (b.target + b.count)) 0
def Image.inputElements (m : Image) : Nat := (m.bindings.filter (fun b => !b.isFp)).foldl (fun n b => max n (b.target + b.count)) 0

/-- The soft head's slice (R433). -/
def Image.headSlice (m : Image) : Option Slice :=
  match m.learn with
  | none => none
  | some l => m.slices.find? (fun s => s.layer == l.softLayer)

/-- HEAD_ROWS and HEAD_OUTPUTS. -/
def Image.headRows (m : Image) : Nat := match m.headSlice with | none => 0 | some s => s.rowCount
def Image.headOutputs (m : Image) : Nat := match m.headSlice with | none => 0 | some s => s.outCount

/-- The blocks that the reload plan names, rising. -/
def Image.reloadBlocks (m : Image) : List Nat :=
  match m.reload with
  | none => []
  | some r => (r.passes.flatMap (fun p => p.map (·.2))).foldl (fun l b => insertNat b l) []

/-- Bytes of a block's data (R415). -/
def Image.blockBytes (m : Image) (k : Nat) : Nat := match m.blocks[k]? with | none => 0 | some b => b.rowCount * 256

/-- Bytes of the reload staging (R445). -/
def Image.stagingBytes (m : Image) : Nat :=
  match m.reload with
  | none => 0
  | some r => if r.qspi then 131072 else (m.reloadBlocks.map m.blockBytes).sum

/-- Bytes of the tile result buffer (R445). -/
def Image.resultBytes (m : Image) : Nat := 2 * m.layers.foldl (fun n l => max n l.outCount) 0

/-- The sizes of the buffers in the order of R471. -/
def Image.bufferSizes (m : Image) : List Nat :=
  m.layers.map (·.outBytes) ++ m.workspaces ++
    [m.resultBytes, 2 * m.fpElements, 256 * (m.bindings.filter (·.holds)).length, 4 * m.headRows * m.headOutputs, m.stagingBytes]

/-- The SRAM demand S (R445). -/
def Image.demand (m : Image) : Nat := m.bufferSizes.sum

/-- The offset of the n-th buffer. -/
def Image.bufferOffset (m : Image) (n : Nat) : Nat := ((m.bufferSizes.take n).map align4).sum

/-- The numbers of the buffers after the output buffers. -/
def Image.wsBuffer (m : Image) (w : Nat) : Nat := m.layers.length + w
def Image.resultBuffer (m : Image) : Nat := m.layers.length + m.workspaces.length
def Image.fpBuffer (m : Image) : Nat := m.resultBuffer + 1
def Image.holdBuffer (m : Image) : Nat := m.resultBuffer + 2
def Image.headBuffer (m : Image) : Nat := m.resultBuffer + 3
def Image.stagingBuffer (m : Image) : Nat := m.resultBuffer + 4

/-- The SRAM address of the n-th buffer of a model. -/
def Model.bufferAddr (m : Model) (n : Nat) : Nat := m.firstUnit * 65536 + m.image.bufferOffset n

/-- The number of the buffer that a descriptor's buffer identity names (Table 09-9). -/
def Image.bufferOf (m : Image) (id : Nat) : Option Nat :=
  if id < 0x100 then (if id < m.layers.length then some id else none)
  else if id < 0x200 then (if id - 0x100 < m.workspaces.length then some (m.wsBuffer (id - 0x100)) else none)
  else if id = 0x200 then some m.fpBuffer
  else if id = 0x201 then (if m.learn.isSome then some m.headBuffer else none)
  else if id = 0x202 then some m.resultBuffer
  else none

/-- The bytes of the buffer that an identity names. -/
def Image.bufferLength (m : Image) (id : Nat) : Nat :=
  match m.bufferOf id with | none => 0 | some n => (m.bufferSizes[n]?).getD 0

/-- The address of the buffer that an identity names. -/
def Model.addrOf (m : Model) (id : Nat) : Nat := match m.image.bufferOf id with | none => 0 | some n => m.bufferAddr n

/-- The address of a block in the reload staging with SRAM source. -/
def Model.stagedBlock (m : Model) (k : Nat) : Nat :=
  m.bufferAddr m.image.stagingBuffer + ((m.image.reloadBlocks.takeWhile (· != k)).map m.image.blockBytes).sum

/-- The first STATS descriptor in program order (R512). -/
def Image.stats (m : Image) : Option Desc := m.descs.find? (fun x => x.op == 0x10)

/-- The identity of the baseline state buffer. -/
def Image.baselineId (m : Image) : Nat := match m.stats with | none => 0xFFFF | some x => x.dst

/-- BASELINE_COUNT. -/
def Image.baselineCount (m : Image) : Nat := match m.learn with | none => 0 | some l => l.baseCount

/-- The patch-store demand of a model (R552). -/
def storeDemand (baseCount rows outputs : Nat) : Nat := align4 (304 + 8 * baseCount + rows * outputs)

/-- The model of a handle. -/
def Dev.model (d : Dev) (h : Handle) : Option Model := d.models[h]

/-- Change a model, when its handle is loaded. -/
def Dev.onModel (d : Dev) (h : Handle) (f : Model → Model) : Dev := d.onModels (fun x => upd x h (fun m => m.map f))

/-- Change the run in flight of a model. -/
def Dev.onRun (d : Dev) (h : Handle) (f : Run → Run) : Dev := d.onModel h (fun m => { m with run := m.run.map f })

/-- Note how many tags of the run are in flight (Table 10-4). -/
def Dev.notePeak (d : Dev) (h : Handle) : Dev := d.onRun h (fun r => { r with tagsPeak := max r.tagsPeak (d.spool.ofRun h).length })

/-- Change the learning side of a model. -/
def Dev.onLearn (d : Dev) (h : Handle) (f : Learn → Learn) : Dev := d.onModel h (fun m => { m with learn := m.learn.map f })

/-- Change a tile. -/
def Dev.onTile (d : Dev) (i : Fin 48) (f : Tile → Tile) : Dev := d.onTiles (fun t => upd t i f)

/-- The loaded models with their handles. -/
def Dev.loaded (d : Dev) : List (Handle × Model) :=
  (List.finRange 16).filterMap (fun h => (d.models[h]).map (fun m => (h, m)))

/-- The tiles that hold a model's slices: those of its tile map and of its reload plan. -/
def Model.uses (m : Model) (i : Fin 48) : Bool := m.place.contains i

/-- Does a loaded model use the tile? -/
def Dev.tileUsed (d : Dev) (i : Fin 48) : Bool := d.loaded.any (fun m => m.2.uses i)

/-- Post an event about a tile (Table 14-4). -/
def Dev.postTile (d : Dev) (i : Fin 48) (e : Ev) : Dev := d.postHeld (fun g => g.tiles[i]) e

end Sys2Proof.Machine
end

