-- ==== Sys2Proof/Machine/Store.lean ====
section
/-!
DEFINITION. The patch store (chapter 11): the layout of a record, its validity, selection at power-up, and writing.
-/

namespace Sys2Proof.Machine

/-! ## Arming (R361 to R364) and drift -/

/-- The drift multiplier of Table 08-3 at the current DIE_TEMP, in half seconds a second. -/
def Dev.driftRate (d : Dev) : Nat :=
  let t := d.pwr.dieTemp.toInt
  if t ≤ 85 * 16 then 2 else if t ≤ 95 * 16 then 3 else if t ≤ 105 * 16 then 4 else if t ≤ 115 * 16 then 6 else if t ≤ 125 * 16 then 8 else 16

/-- Is the tile formed and in service (R368)? -/
def Tile.alive (x : Tile) : Bool := x.state != .blank && x.state != .retired

/-- The base interval in half seconds. -/
def Upkeep.interval (u : Upkeep) : Nat := u.baseHours * 7200

/-- Is an inspection of the tile due now (R369, R373, R377)? -/
def Dev.inspectionDue (_ : Dev) (x : Tile) : Bool := x.alive && x.due

/-- Does an inspection of the tile fall due within 1 h? -/
def Dev.dueSoon (d : Dev) (x : Tile) : Bool :=
  x.alive && (x.due || (!x.needsPress && d.upkeep.auto && decide (d.upkeep.interval ≤ x.age + 3600 * d.driftRate)))

/-- Does a record that is not clean arm the tile (R364)? -/
def Dev.arms (d : Dev) (x : Tile) : Bool := x.counter != x.saved || !x.queue.isEmpty || x.op.isSome || d.dueSoon x

/-! ## Entries (Table 11-5) -/

/-- Table 11-1, in its order. -/
def LearnState.number : LearnState → Nat
  | .commissioning => 0 | .learning => 1 | .frozen => 2 | .adopting => 3

def LearnState.ofNumber : Nat → LearnState
  | 0 => .commissioning | 1 => .learning | 2 => .frozen | _ => .adopting

/-- A patch log entry (Table 11-6). -/
def PatchLog.bytes (p : PatchLog) : List Byte :=
  w32 p.number ++ w32 p.minutes ++ w32 p.units ++ leBytes 2 p.rows ++ [BitVec.ofNat 8 p.cause, BitVec.ofNat 8 p.result]

/-- Pad with zeros to a multiple of 4. -/
def pad4 (l : List Byte) : List Byte := l ++ List.replicate (align4 l.length - l.length) 0

/-- The bytes of an entry after its fixed part. -/
def Entry.body (e : Entry) : List Byte :=
  pad4 (e.baseline ++ e.codes.map (fun c => BitVec.ofInt 8 c) ++ e.log.flatMap PatchLog.bytes)

/-- The bytes of an entry. -/
def Entry.bytes (e : Entry) : List Byte :=
  w32 e.modelId.toNat ++ w32 (48 + e.body.length) ++ [BitVec.ofNat 8 e.state.number, BitVec.ofNat 8 (packBits [e.doubt, e.pending])] ++
    leBytes 2 e.baseCount ++ leBytes 2 e.headRows ++ [BitVec.ofNat 8 e.headOutputs, BitVec.ofNat 8 e.log.length] ++ w32 e.stateTime ++
    w32 e.elapsed ++ w32 e.number ++ w32 e.labelSeq.toNat ++ w32 e.runs ++ w32 e.doubtful ++ w32 e.n ++ w32 0 ++ e.body

/-- The demand of an entry (R552). -/
def Entry.demand (e : Entry) : Nat := storeDemand e.baseCount e.headRows e.headOutputs

/-- Nanoseconds of a window that have passed at the last run, and that remain (R46, R532, R528). -/
def Learn.passed (l : Learn) : Nat := match l.winStart with | none => 0 | some s => min l.winLen (l.lastTr.getD s - s)
def Learn.remaining (l : Learn) : Nat := l.winLen - l.passed

/-- STATE_TIME in seconds. -/
def Learn.stateTime (l : Learn) (spec : LearnSpec) : Nat :=
  match l.state with
  | .commissioning => (spec.commission * 1000000000 - l.remaining) / 1000000000
  | .adopting => l.remaining / 1000000000
  | _ => 0

/-- The baseline state of a loaded model (R512): in the buffer that STATS writes, or kept aside where the image has no STATS. -/
def Dev.baseline (d : Dev) (m : Model) (l : Learn) : List Byte :=
  if m.image.stats.isSome then d.sram.bytes (m.addrOf m.image.baselineId) (8 * m.image.baselineCount) else l.base

/-- The entry of a loaded model as the next record holds it. -/
def Dev.entryOf (d : Dev) (m : Model) (l : Learn) (spec : LearnSpec) : Entry :=
  { modelId := m.image.modelId, state := l.state, doubt := l.doubt, pending := l.pendingPatch, baseCount := m.image.baselineCount,
    headRows := m.image.headRows, headOutputs := m.image.headOutputs, stateTime := l.stateTime spec, elapsed := l.elapsed / 1000000000,
    number := l.patchNumber, labelSeq := l.seqDone, runs := l.runs, doubtful := l.doubtful, n := min l.n 0xFFFFFFFF,
    baseline := d.baseline m l,
    codes := if l.pendingPatch then l.newCodes else l.codes, log := l.log }

/-- A basket area. -/
abbrev Area := List Entry × List Byte

/-- Put an entry into an area, replacing the one of the same MODEL_ID. -/
def putEntry (e : Entry) : List Entry → List Entry
  | [] => [e]
  | x :: xs => if x.modelId == e.modelId then e :: xs else x :: putEntry e xs

/-- An area that is present, or an empty one. -/
def Store.area (s : Store) (b : Basket) : Area := (s.areas[b]).getD ([], [])

/-- Change an area; an area with no entry and no blob is absent. -/
def Store.onArea (s : Store) (b : Basket) (f : Area → Area) : Store :=
  let a := f (s.area b)
  { s with areas := s.areas.set b (if a.1.isEmpty && a.2.isEmpty then none else some a) }

/-- The areas with the entries of the loaded models brought up to date. -/
def Dev.snapshot (d : Dev) : List (Handle × Model) → Store → Store
  | [], s => s
  | (_, m) :: ms, s =>
    match m.learn, m.image.learn with
    | some l, some spec => d.snapshot ms (s.onArea m.basket (fun a => (putEntry (d.entryOf m l spec) a.1, a.2)))
    | _, _ => d.snapshot ms s

/-! ## Records (Tables 11-4 to 11-6) -/

/-- The bytes of a basket area (R550). -/
def areaBytes (a : Area) : List Byte :=
  let rest := a.1.flatMap Entry.bytes ++ pad4 a.2
  w32 (16 + rest.length) ++ w32 a.2.length ++ [BitVec.ofNat 8 a.1.length] ++ List.replicate 7 0 ++ rest

/-- The tile table (R549). -/
def tileTable (tiles : List (Tile × Bool)) : List Byte :=
  tiles.flatMap (fun t => w64 t.1.counter ++ w32 t.1.age ++ leBytes 2 t.2.toNat ++ [0, 0])

/-- The offsets of the areas that are present. -/
def areaOffsets : Nat → List (List Byte) → List Nat
  | _, [] => []
  | at_, a :: as => (if a.isEmpty then 0 else at_) :: areaOffsets (at_ + a.length) as

/-- A record without its CRC: bytes 4 to 11, then bytes 16 on. -/
structure RecordParts where
  front : List Byte
  rest : List Byte
  deriving DecidableEq, Repr

/-- The bytes of a record (R548). -/
def RecordParts.bytes (r : RecordParts) : List Byte :=
  [0x50, 0x54, 0x43, 0x48] ++ r.front ++ (leBytes 4 (crc32 (r.front ++ r.rest)).toNat) ++ r.rest

/-- The parts of the record of the present state. -/
def Dev.recordParts (d : Dev) (seq : Nat) (clean : Bool) (writes : Nat × Nat) : RecordParts :=
  let areas := ((d.snapshot d.loaded d.store).areas.toList).map (fun a => match a with | none => [] | some a => areaBytes a)
  let length := 832 + (areas.map List.length).sum
  { front := w32 seq ++ w32 length,
    rest := leBytes 2 1 ++ leBytes 2 clean.toNat ++ d.keep.stampBytes ++ w32 (d.upkeep.commitFte * 8192) ++ w32 writes.1 ++ w32 writes.2 ++
      (areaOffsets 832 areas).flatMap w32 ++ List.replicate 8 0 ++
      tileTable (d.tiles.toList.map (fun x => (x, !clean && d.arms x))) ++ areas.flatten }

/-- The time of a write and its verify (R562). -/
def writeTime (length : Nat) : Time := us 40 + ns (10 * length)

/-! ## Validity and selection -/

/-- A little-endian field. -/
def field (bs : List Byte) (off n : Nat) : Nat := leValue ((bs.drop off).take n)

/-- Do n entries fit from an offset (R556)? The offset after them. -/
def entriesFit (bs : List Byte) (stop : Nat) : Nat → Nat → Option Nat
  | 0, at_ => some at_
  | n + 1, at_ =>
    let len := field bs (at_ + 4) 4
    if at_ + 48 ≤ stop ∧ 48 ≤ len ∧ len % 4 = 0 ∧ at_ + len ≤ stop ∧
        48 + 8 * field bs (at_ + 10) 2 + field bs (at_ + 12) 2 * field bs (at_ + 14) 1 + 16 * field bs (at_ + 15) 1 ≤ len then
      entriesFit bs stop n (at_ + len)
    else none

/-- Does the area at an offset lie within the record, with everything its header counts? -/
def areaValid (bs : List Byte) (length off : Nat) : Bool :=
  let stop := off + field bs off 4
  decide (off + 16 ≤ length) && decide (16 ≤ field bs off 4) && decide (stop ≤ length) && decide (field bs (off + 8) 1 ≤ 8) &&
    (match entriesFit bs stop (field bs (off + 8) 1) (off + 16) with
     | none => false
     | some e => decide (e + align4 (field bs (off + 4) 4) ≤ stop))

/-- Is a bank's content a valid record (R556)? -/
def recordValid (bs : List Byte) : Bool :=
  let length := field bs 8 4
  decide (bs.take 4 = [0x50, 0x54, 0x43, 0x48]) && decide (832 ≤ length) && decide (length ≤ 262144) && length % 4 == 0 &&
    decide (length ≤ bs.length) &&
    (List.range 4).all (fun i => field bs (40 + 4 * i) 4 == 0 || areaValid bs length (field bs (40 + 4 * i) 4)) &&
    (crc32 ((bs.drop 4).take 8 ++ (bs.drop 16).take (length - 16))).toNat == field bs 12 4

/-- One patch log entry from its bytes. -/
def readLog (bs : List Byte) (off : Nat) : PatchLog :=
  { number := field bs off 4, minutes := field bs (off + 4) 4, units := field bs (off + 8) 4, rows := field bs (off + 12) 2,
    cause := field bs (off + 14) 1, result := field bs (off + 15) 1 }

/-- One entry from its bytes. -/
def readEntry (bs : List Byte) (o : Nat) : Entry :=
  let bc := field bs (o + 10) 2
  let hr := field bs (o + 12) 2
  let ho := field bs (o + 14) 1
  let codesAt := o + 48 + 8 * bc
  { modelId := BitVec.ofNat 32 (field bs o 4), state := LearnState.ofNumber (field bs (o + 8) 1), doubt := bit (field bs (o + 9) 1) 0,
    pending := bit (field bs (o + 9) 1) 1, baseCount := bc, headRows := hr, headOutputs := ho, stateTime := field bs (o + 16) 4,
    elapsed := field bs (o + 20) 4, number := field bs (o + 24) 4, labelSeq := BitVec.ofNat 32 (field bs (o + 28) 4),
    runs := field bs (o + 32) 4, doubtful := field bs (o + 36) 4, n := field bs (o + 40) 4,
    baseline := (bs.drop (o + 48)).take (8 * bc), codes := ((bs.drop codesAt).take (hr * ho)).map (fun b => b.toInt),
    log := (List.range (field bs (o + 15) 1)).map (fun i => readLog bs (codesAt + hr * ho + 16 * i)) }

/-- The entries of an area, and the offset after them. -/
def readEntries (bs : List Byte) : Nat → Nat → List Entry × Nat
  | 0, o => ([], o)
  | n + 1, o =>
    let r := readEntries bs n (o + field bs (o + 4) 4)
    (readEntry bs o :: r.1, r.2)

/-- An area from its bytes. -/
def readArea (bs : List Byte) (off : Nat) : Option Area :=
  if off = 0 then none
  else
    let r := readEntries bs (field bs (off + 8) 1) (off + 16)
    some (r.1, (bs.drop r.2).take (field bs (off + 4) 4))

/-- The successor of a SEQUENCE. -/
def nextSeqOf (x : Nat) : Nat := if x = 0xFFFFFFFF then 1 else x + 1

/-- The newest valid bank and whether the banks disagree (procedure select_bank). -/
def selectBank (banks : Vector (List Byte) 2) : Option (Fin 2) × Bool :=
  let v0 := recordValid banks[0]
  let v1 := recordValid banks[1]
  let s0 := field banks[0] 4 4
  let s1 := field banks[1] 4 4
  if !v0 && !v1 then (none, false)
  else if !v1 then (some 0, false)
  else if !v0 then (some 1, false)
  else
    let diff : Nat := (s1 + 2 ^ 32 - s0) % 2 ^ 32
    let newest : Fin 2 := if decide (0 < diff) && decide (diff < 2 ^ 31) then 1 else 0
    (some newest, s1 != nextSeqOf s0 && s0 != nextSeqOf s1)

/-- A tile as its table entry restores it (R366, R549): counter, drift age, arming. -/
def Tile.restored (x : Tile) (counter age : Nat) (armed clean : Bool) (step : Nat) : Tile :=
  { x with counter := if armed && !clean then counter + step else counter, saved := counter, armed := armed && !clean, age := age }

/-- EV_OVERCOUNT for tiles that were armed in a record that is not clean (R366). -/
def Dev.overcount (d : Dev) (step : Nat) : List (Fin 48) → Dev
  | [] => d
  | i :: is =>
    ((if (d.tiles[i]).armed then d.postTile i { event := .overcount, subject := i.val, data0 := step % 65536, data1 := step / 65536 } else d)).overcount
      step is

/-- The date of a STAMP. -/
def readDate (bs : List Byte) : Date :=
  { year := field bs 20 2, month := field bs 22 1, day := field bs 23 1, hour := field bs 24 1, minute := field bs 25 1, second := field bs 26 1 }

/-- What the time since the STAMP adds to every drift age (R370), none when an inspection is due at once on every tile (R371). -/
def Keep.stampAge (k : Keep) (bs : List Byte) (gradeX : Bool) : Option Nat :=
  if !k.valid || field bs 27 1 != 1 then none
  else some ((k.date.seconds - (readDate bs).seconds) * (if gradeX then 8 else 2))

/-- An inspection of the tile falls due (R369 to R373). -/
def Tile.makeDue (x : Tile) (now : Time) : Tile := if x.alive && !x.due then { x with due := true, dueSince := now } else x

/-- An inspection is scheduled at once (R371, R373), but not while the tile is marked NEEDS_PRESS (R377; log entry 9). -/
def Tile.schedule (x : Tile) (now : Time) : Tile := if x.needsPress then x else x.makeDue now

/-- The write count of a bank: the largest that a valid record holds, since each record counts its own write and counts only rise. -/
def writeCount (banks : Vector (List Byte) 2) (b : Nat) : Nat :=
  let of := fun (bs : List Byte) => if recordValid bs then field bs (32 + 4 * b) 4 else 0
  max (of banks[0]) (of banks[1])

/-- Store selection ends: R556, then R366 and R370 (R557), R371, R558. -/
def Dev.selectStore (d : Dev) (gradeX : Bool) : Dev :=
  let (newest, anomaly) := selectBank d.store.banks
  let d := d.onPwr (fun p => { p with selected := true })
  let d := match newest with
    | none =>
      let d := d.onStore (fun s => { s with empty := true, anomaly := false, newest := none, nextBank := 0, nextSeq := 1, lastAt := d.now,
                                            newestClean := false, areas := Vector.replicate 4 none })
      if d.keep.valid then d else d.onTiles (fun t => t.map (fun x => x.schedule d.now))
    | some b =>
      let bs := d.store.banks[b]
      let clean := bit (field bs 18 2) 0
      let step := field bs 28 4
      let d := d.onStore (fun s =>
        { s with newest := some (b, field bs 4 4, field bs 8 4), newestClean := clean, empty := false, anomaly := anomaly, stepInForce := step,
                 writes := vec 2 (writeCount s.banks), nextBank := 1 - b, nextSeq := nextSeqOf (field bs 4 4), lastAt := d.now,
                 areas := vec 4 (fun i => readArea bs (field bs (40 + 4 * i) 4)) })
      let d := d.onTiles (fun t => vmap t (fun i x =>
        let o := 64 + 16 * i
        x.restored (field bs o 8) (field bs (o + 8) 4) (bit (field bs (o + 12) 2) 0) clean step))
      let d := if clean then d else d.overcount step (List.finRange 48)
      match d.keep.stampAge bs gradeX with
      | none => d.onTiles (fun t => t.map (fun x => x.schedule d.now))
      | some a => d.onTiles (fun t => t.map (fun x => { x with age := x.age + a }))
  if anomaly then d.postAll { event := .patchAnomaly } else d

/-! ## Writing -/

/-- A need for a record (R559). -/
def Dev.trigger (d : Dev) : Dev := d.onStore (fun s => { s with trigger := true })

/-- Have the press engines stopped (R365)? -/
def Dev.enginesStopped (d : Dev) : Bool := !d.spool.tags.any (fun t => t.kind == .press && t.status == .issued)

/-- The declared hold-up time. -/
def Store.holdUpTime (s : Store) : Time := us (100 * s.holdUp)

/-- The length that a record written now would have. -/
def Dev.recordLength (d : Dev) : Nat :=
  832 + (((d.snapshot d.loaded d.store).areas.toList).map (fun a => match a with | none => 0 | some a => (areaBytes a).length)).sum

/-- Does the clean record of HOLD still end by t_p + H (R564)? -/
def Dev.cleanFits (d : Dev) : Bool :=
  match d.store.pfailAt with
  | none => false
  | some p => decide (d.now + writeTime d.recordLength ≤ p + d.store.holdUpTime)

/-- Has the store action of R564 ended? -/
def Dev.storeActionEnded (d : Dev) : Bool :=
  d.store.writing.isNone && (d.store.pfailAt.isNone || d.store.actionDone || (d.pwr.selected && !d.cleanFits))

/-- Does a write start now, and is it the clean record of HOLD (R560, R564, R872, R883)? -/
def Dev.writeStarts (d : Dev) : Option Bool :=
  if d.store.writing.isSome || !d.pwr.selected then none
  else match d.pwr.state with
    | .boot | .active => if d.store.trigger && d.store.pfailAt.isNone then some false else none
    | .hold => if !d.store.actionDone && d.enginesStopped && d.cleanFits then some true else none
    | _ => none

/-- Clear the MAGIC of a bank. -/
def clearMagic (bs : List Byte) : List Byte := [0, 0, 0, 0] ++ bs.drop 4

/-- Begin one write to the next bank (R561): the count of the bank rises, its MAGIC clears, and the record is formed from the present state,
the count of this write included (Table 11-1). The repeat of a failed write (R563) is a write of its own, and counts. -/
def Dev.beginWrite (d : Dev) (clean again : Bool) : Dev :=
  let b := d.store.nextBank
  let writes := upd d.store.writes b (· + 1)
  let bytes := (d.recordParts d.store.nextSeq clean (writes[0], writes[1])).bytes
  let w : StoreWrite :=
    { bank := b, seq := d.store.nextSeq, bytes := bytes, clean := clean, started := d.now, ends := d.now + writeTime bytes.length, again := again,
      step := d.upkeep.commitFte * 8192, atPfail := false, arms := d.tiles.toList.map (fun x => (!clean && d.arms x, x.counter)),
      patches := (d.loaded.filter (fun m => match m.2.learn with
        | some l => l.patchStep == some .record2 || l.patchStep == some .record4
        | none => false)).map (·.1) }
  let d := d.onStore (fun s =>
    let snap := d.snapshot d.loaded s
    { snap with writes := writes, banks := upd s.banks b (fun _ => clearMagic bytes), writing := some w })
  if writes[b] = 100000 then d.postAll { event := .storeWorn, subject := b.val } else d

/-- Start a record write: it serves every PS_CHECKPOINT that waits (R560). -/
def Dev.startWrite (d : Dev) (clean : Bool) : Dev :=
  (d.onStore (fun s => { s with trigger := false, serving := s.waiting, waiting := Vector.replicate 4 false })).beginWrite clean false

/-- STORE_WRITE_START (R561). -/
def execStoreWriteStart (t : Time) (s : State) : Host.Outcome State Fault Refusal :=
  onDev s t (fun d => match d.writeStarts with | none => d | some clean => d.startWrite clean)

/-- The PS_CHECKPOINT commands that a write serves complete with an outcome. -/
def Dev.checkpointsEnd (d : Dev) (o : CmdOutcome) : List Basket → Dev
  | [] => d
  | b :: bs => (if d.store.serving[b] then d.finish b 0x0715 o else d).checkpointsEnd o bs

/-- Every PS_CHECKPOINT that a write serves completes. -/
def Dev.checkpointsDone (d : Dev) (o : CmdOutcome) : Dev :=
  (d.checkpointsEnd o (List.finRange 4)).onStore (fun s => { s with serving := Vector.replicate 4 false })

/-- The steps of a patch that waited for a record (Table 11-3): after step 2 the press may begin, after step 4 the patch has ended. -/
def Dev.patchRecorded (d : Dev) : List Handle → Dev
  | [] => d
  | h :: hs =>
    let step := match d.model h with | some { learn := some l, .. } => l.patchStep | _ => none
    let d := match step with
      | some .record2 => d.onLearn h (fun l => { l with patchStep := some .pressing })
      | some .record4 =>
        let l := match d.model h with | some { learn := some l, basket := b, .. } => some (l, b) | _ => none
        let d := d.onLearn h (fun l => { l with patchStep := none })
        match l with
        | some (l, b) =>
          let last : Option PatchLog := l.log.getLast?
          (match last with
           | some e =>
             if e.result = 1 then d.postTo b { event := .patchDone, subject := h.val, data0 := e.number % 65536, data1 := e.rows } else d
           | none => d)
        | none => d
      | _ => d
    d.patchRecorded hs

/-- A record becomes valid (R558, R361 to R364, R398). -/
def Dev.recordValid (d : Dev) (w : StoreWrite) : Dev :=
  let d := d.onStore (fun s =>
    { s with banks := upd s.banks w.bank (fun _ => w.bytes), newest := some (w.bank, w.seq, w.bytes.length), newestClean := w.clean, writing := none,
             nextBank := 1 - w.bank, nextSeq := nextSeqOf w.seq, empty := false, stepInForce := w.step, lastAt := d.now,
             actionDone := s.actionDone || w.clean })
  let d := d.onTiles (fun t => vmap t (fun i x => match w.arms[i]? with | some (a, c) => { x with armed := a, saved := c } | none => x))
  let d := d.onKeep (fun k => { k with pfailWrite := if w.atPfail then 1 else k.pfailWrite, pfailClean := k.pfailClean || w.clean })
  (d.checkpointsDone (success [])).patchRecorded w.patches

/-- A write fails its verify (R563): repeated once, unless under PFAIL or in FAULT. -/
def Dev.recordFails (d : Dev) (w : StoreWrite) : Dev :=
  if !w.again && d.store.pfailAt.isNone && d.pwr.state != .fault then
    d.beginWrite w.clean true
  else
    let d := d.onStore (fun s => { s with writing := none, actionDone := s.actionDone || w.clean })
    let d := if w.atPfail then d.onKeep (fun k => { k with pfailWrite := 2 }) else d
    let d := d.postAll { event := .patchWrite, subject := w.bank.val, data0 := Err.patchWrite.code.toNat }
    d.checkpointsDone (refusal .patchWrite)

/-- STORE_WRITE_DONE (R562, R563). -/
def execStoreWriteDone (t : Time) (verified : Bool) (s : State) : Host.Outcome State Fault Refusal :=
  onDev s t (fun d =>
    match d.store.writing with
    | none => d
    | some w => if d.now ≤ w.started ∨ w.ends < d.now then d else if verified then d.recordValid w else d.recordFails w)

/-- CHECKPOINT_DUE (R559). -/
def execCheckpointDue (t : Time) (s : State) : Host.Outcome State Fault Refusal :=
  onDev s t (fun d => if d.pwr.selected && decide (d.store.lastAt + sec (3600 * d.store.checkpointHours) ≤ d.now) then d.trigger else d)

/-- Abandon the write in progress (R564, R883): the target's MAGIC stays clear. -/
def Dev.abandonWrite (d : Dev) : Dev :=
  let d := if d.store.writing.any (·.atPfail) then d.onKeep (fun k => { k with pfailWrite := 2 }) else d
  (d.onStore (fun s => { s with writing := none })).checkpointsDone (refusal .state)

/-- PFAIL_STATUS takes a PFAIL that is asserted now (R566): a write due is not started, what becomes of one in progress is seen later. -/
def Dev.recordPfail (d : Dev) : Dev :=
  let due := d.store.writing.isNone && d.store.trigger
  (d.onStore (fun s => { s with writing := s.writing.map (fun w => { w with atPfail := true }) })).onKeep (fun k =>
    { k with pfailValid := true, pfailClean := false, pfailWrite := if due then 3 else 0 })

/-- The store on PFAIL (R564), asserted at `pfailSince`: a write in progress goes on where the hold-up time allows it. -/
def Dev.storePfail (d : Dev) : Dev :=
  let d := d.onStore (fun s => { s with pfailAt := some d.pwr.pfailSince, actionDone := false })
  match d.store.writing with
  | some w => if w.ends - d.now ≤ d.store.holdUpTime then d else d.abandonWrite
  | none => d

/-- PS_CHECKPOINT commands whose write has not started complete with E_STATE when HOLD or FAULT is entered (R875). -/
def Dev.checkpointsStopped (d : Dev) : Dev :=
  let d' := (d.onStore (fun s => { s with serving := s.waiting })).checkpointsEnd (refusal .state) (List.finRange 4)
  d'.onStore (fun s => { s with serving := d.store.serving, waiting := Vector.replicate 4 false })

/-! ## Quotas -/

/-- The demand of a basket's entries and its blob. -/
def Store.used (s : Store) (b : Basket) : Nat := ((s.area b).1.map Entry.demand).sum + (s.area b).2.length

/-- A basket's free quota (R553). -/
def Dev.freePatchQuota (d : Dev) (b : Basket) : Nat := (d.grants[b]).patchQuota - d.store.used b

/-- The free part of the bank (R553). -/
def Store.freeBank (s : Store) : Nat :=
  262144 - 832 - 16 * (s.areas.toList.filter (·.isSome)).length - ((List.finRange 4).map s.used).sum

/-! ## Commands -/

/-- PS_SET (R567). -/
def cmdPsSet : Command :=
  { code := 0x0710, sup := true, zero := fun x _ => x.arg 0 == 0 || x.arg 1 == 0,
    range := fun x _ => argRange (decide (x.arg 0 ≤ 168) && decide (20 ≤ x.arg 1) && decide (x.arg 1 ≤ 1000)),
    act := fun x d => (d.onStore (fun s => { s with checkpointHours := x.arg 0, holdUp := x.arg 1 }), .ok []) }

/-- The items of PS_STATUS (R570). -/
def Dev.psReport (d : Dev) (b : Basket) : List Byte :=
  let s := d.store
  let n := if s.empty then none else s.newest
  w32 (packBits [s.empty, s.anomaly]) ++
    (match n with
     | none => w32 0xFFFFFFFF ++ w32 0
     | some (k, q, _) => w32 k.val ++ w32 q) ++
    w32 s.writes[0] ++ w32 s.writes[1] ++ w32 (match n with | none => 0 | some (_, _, len) => len) ++
    w32 s.freeBank ++ w32 (d.freePatchQuota b)

/-- PS_STATUS (R570). -/
def cmdPsStatus : Command := blockCommand 0x0711 false (fun _ _ => true) (fun _ _ => none) (fun x d => d.psReport x.b)

/-- The entry of the issuing basket that a MODEL_ID names. -/
def Dev.namedEntry (d : Dev) (b : Basket) (id : Nat) : Option Entry :=
  ((d.snapshot d.loaded d.store).area b).1.find? (fun e => e.modelId.toNat == id)

/-- PS_LOG (R551). -/
def cmdPsLog : Command :=
  blockCommand 0x0712 false (fun x d => (d.namedEntry x.b (x.arg32 0)).isSome) (fun _ _ => none)
    (fun x d => match d.namedEntry x.b (x.arg32 0) with
      | none => []
      | some e => w32 e.log.length ++ e.log.flatMap PatchLog.bytes)

/-- PS_PUT (R555). -/
def cmdPsPut : Command :=
  { code := 0x0713, names := fun x d => x.memory d (x.arg32 0) (x.arg32 2), zero := fun x _ => x.arg32 2 == 0,
    state := fun x d => need (decide (x.arg32 2 ≤ d.freePatchQuota x.b + (d.store.area x.b).2.length)) .quota,
    act := fun x d =>
      ((d.onStore (fun s => s.onArea x.b (fun a => (a.1, d.sram.bytes (x.arg32 0) (x.arg32 2))))).trigger, .ok []) }

/-- PS_GET (R555). -/
def cmdPsGet : Command :=
  { code := 0x0714, names := fun x d => x.memory d (x.arg32 0) (d.store.area x.b).2.length,
    act := fun x d => (d.memWrite (x.arg32 0) (d.store.area x.b).2, .ok (leWords 2 (d.store.area x.b).2.length)) }

/-- PS_CHECKPOINT (R559, R563). -/
def cmdPsCheckpoint : Command :=
  { code := 0x0715, long := true,
    act := fun x d => ((d.onStore (fun s => { s with waiting := upd s.waiting x.b (fun _ => true) })).trigger, .wait) }

/-- LN_FORGET (R554): the entry is named by its MODEL_ID. -/
def cmdLnForget : Command :=
  { code := 0x0705, names := fun x d => (d.namedEntry x.b (x.arg32 0)).isSome,
    state := fun x d => need (!d.loaded.any (fun m => m.2.basket == x.b && m.2.image.modelId.toNat == x.arg32 0)) .busy,
    act := fun x d =>
      ((d.onStore (fun s => s.onArea x.b (fun a => (a.1.filter (fun e => e.modelId.toNat != x.arg32 0), a.2)))).trigger, .ok []) }

def execPsSet (t : Time) (b : Basket) (s : State) : Host.Outcome State Fault Refusal := hostCommand cmdPsSet t b s
def execPsStatus (t : Time) (b : Basket) (s : State) : Host.Outcome State Fault Refusal := hostCommand cmdPsStatus t b s
def execPsLog (t : Time) (b : Basket) (s : State) : Host.Outcome State Fault Refusal := hostCommand cmdPsLog t b s
def execPsPut (t : Time) (b : Basket) (s : State) : Host.Outcome State Fault Refusal := hostCommand cmdPsPut t b s
def execPsGet (t : Time) (b : Basket) (s : State) : Host.Outcome State Fault Refusal := hostCommand cmdPsGet t b s
def execPsCheckpoint (t : Time) (b : Basket) (s : State) : Host.Outcome State Fault Refusal := hostCommand cmdPsCheckpoint t b s
def execLnForget (t : Time) (b : Basket) (s : State) : Host.Outcome State Fault Refusal := hostCommand cmdLnForget t b s

end Sys2Proof.Machine
end

