-- ==== Sys2Proof/Machine/Press.lean ====
section
/-!
DEFINITION. Pressing operations (chapter 08): targets of a row, row presses and endurance, darning, starting an operation, and the return
of a tile to service.
-/

namespace Sys2Proof.Machine

/-! ## Image data -/

/-- A byte of the QSPI flash; an unlisted one reads 0xFF. -/
def flashGet : List Host.Cell → Nat → Byte
  | [], _ => 0xFF
  | (k, v) :: r, a => if k = a then v else flashGet r a

/-- Bytes of the QSPI flash. -/
def Dev.flashBytes (d : Dev) (a n : Nat) : List Byte := (List.range n).map (fun i => flashGet d.flash (a + i))

/-- The 4-byte command in the same row of Table 17-5 (R952). -/
def wideOpcode (op : BitVec 8) : BitVec 8 :=
  if op = 0x03 then 0x13 else if op = 0x0B then 0x0C else if op = 0x6B then 0x6C else if op = 0xEB then 0xEC else op

/-- The dummy clocks of a read command (Table 17-5). -/
def opcodeDummy (op : BitVec 8) : Nat :=
  if op = 0x03 ∨ op = 0x13 then 0 else if op = 0xEB ∨ op = 0xEC then 4 else 8

/-- The read command by which the bytes of a range are read, under a READ_OPCODE, a clock and a DUMMY (R864, R952). -/
def qspiRead (op : BitVec 8) (clock dummy a n : Nat) : QspiRead :=
  let op := if 0x1000000 < a + n then wideOpcode op else op
  { opcode := op, address := a, bytes := n, mode := if op = 0xEB ∨ op = 0xEC then some 0xFF else none,
    dummy := if dummy = 0xFF then opcodeDummy op else dummy, clock := clock }

/-- The QSPI master reads a range of the flash with the read settings in force (R868). -/
def Dev.readFlash (d : Dev) (a n : Nat) : Dev :=
  if n = 0 then d else d.onQspi (fun _ => [qspiRead d.pwr.qspiOpcode d.pwr.qspiClock d.pwr.qspiDummy a n])

/-- Bytes of a loaded model's image, from where it lies. -/
def Dev.imageBytes (d : Dev) (m : Model) (off n : Nat) : List Byte :=
  if m.qspi then d.flashBytes (m.imageAddr + off) n else d.sram.bytes (m.imageAddr + off) n

/-- A row record (Table 09-7) as the targets of a row. -/
def rowRecord (bs : List Byte) (row : Nat) : RowTarget :=
  let v := bs.map (fun b => b.toInt)
  { row := row, codes := v.take 240, seams := (v.drop 240).take 8, rems := (v.drop 248).take 8 }

/-- Row records one after the other. -/
def rowRecords (bs : List Byte) (first : Nat) (n : Nat) : List RowTarget :=
  (List.range n).map (fun i => rowRecord ((bs.drop (256 * i)).take 256) (first + i))

/-- The data bytes of a block of a loaded model's image. -/
def Dev.blockBytes (d : Dev) (m : Model) (b : Block) : List Byte := d.imageBytes m (m.image.weights + b.dataOffset) (b.rowCount * 256)

/-! ## Seams -/

/-- The seam weights and row remainders over the 240 codes of a row ("Seam check"). -/
def seamsOf (codes : List Int) : List Int × List Int :=
  let sums := (List.range 8).map (fun s => ((codes.drop (30 * s)).take 30).sum)
  let qs := sums.map (fun x => divRoundAway x 30)
  (qs, List.zipWith (fun x q => x - 30 * q) sums qs)

/-- A row target whose seams follow the rule. -/
def RowTarget.seamed (row : Nat) (codes : List Int) : RowTarget := { row := row, codes := codes, seams := (seamsOf codes).1, rems := (seamsOf codes).2 }

/-- A row with every pair 0. -/
def RowTarget.zero (row : Nat) : RowTarget :=
  { row := row, codes := List.replicate 240 0, seams := List.replicate 8 0, rems := List.replicate 8 0 }

/-- The nearest weight of the pair that stands for p. -/
def Tile.nearestWeight (x : Tile) (row p : Nat) : Int :=
  nearestLevel (x.level row (2 * x.pairOf p)) - nearestLevel (x.level row (2 * x.pairOf p + 1))

/-! ## Targets of the operations (Table 08-1) -/

/-- The logical tiles of a model that lie on a tile. -/
def Model.logicals (m : Model) (i : Fin 48) : List Nat := (List.range m.place.length).filter (fun n => m.place[n]? == some i)

/-- The slices of a model with a replica on a tile. -/
def Model.slicesOn (m : Model) (i : Fin 48) : List Slice :=
  m.image.slices.filter (fun s => s.tiles.any (fun n => m.place[n]? == some i))

/-- Does a slice cover a data pair in a row? -/
def Slice.covers (s : Slice) (row p : Nat) : Bool :=
  decide (s.rowFirst ≤ row) && decide (row < s.rowFirst + s.rowCount) && decide (s.outFirst ≤ p) && decide (p < s.outFirst + s.outCount)

/-- Is pair p of this row to be kept for another loaded model (R419): it lies in one of its slices, or it is a pair of that model alone? -/
def keptPair (mine others : List Slice) (row p : Nat) : Bool :=
  others.any (fun s => s.covers row p) ||
    (others.any (fun s => decide (s.outFirst ≤ p) && decide (p < s.outFirst + s.outCount)) &&
      !mine.any (fun s => decide (s.outFirst ≤ p) && decide (p < s.outFirst + s.outCount)))

/-- The code of pair p of a row of the soft head, from row-major codes. -/
def headCode (s : Slice) (codes : List Int) (row p : Nat) : Int := (codes[(row - s.rowFirst) * s.outCount + (p - s.outFirst)]?).getD 0

/-- Does the load of a soft head target the stored codes (R546)? -/
def Model.headStored (m : Model) (i : Fin 48) : Option (Slice × List Int) :=
  match m.image.headSlice, m.learn with
  | some s, some l => if (s.tiles.head?.bind (fun n => m.place[n]?)) == some i then some (s, l.newCodes) else none
  | _, _ => none

/-- The target of one row of a LOAD (R417 to R419, R546): the block's record where nothing else has a say, else the combined codes with
their own seams. -/
def loadRow (x : Tile) (mine others : List Slice) (head : Option (Slice × List Int)) (rows : List RowTarget) (row : Nat) : RowTarget :=
  let base := (rows.find? (fun t => t.row == row)).getD (RowTarget.zero row)
  let codes := (List.range 240).map (fun p =>
    if keptPair mine others row p then x.nearestWeight row p
    else match head with
      | some (s, cs) => if s.covers row p then headCode s cs row p else (base.codes[p]?).getD 0
      | none => (base.codes[p]?).getD 0)
  if codes == base.codes then base else RowTarget.seamed row codes

/-- The targets of a LOAD of a tile, none when the DATA_CRC of its block fails (R439). -/
def Dev.loadTargets (d : Dev) (m : Model) (h : Handle) (i : Fin 48) : Option (List RowTarget) :=
  let others := (d.loaded.filter (fun o => o.1 != h)).flatMap (fun o => o.2.slicesOn i)
  match (m.logicals i).head?.bind (fun n => m.image.blocks[n]?) with
  | none => some ((List.range 512).map (loadRow (d.tiles[i]) (m.slicesOn i) others (m.headStored i) []))
  | some b =>
    let bs := d.blockBytes m b
    if crc32 bs != b.dataCrc then none
    else some ((List.range 512).map (loadRow (d.tiles[i]) (m.slicesOn i) others (m.headStored i) (rowRecords bs b.rowFirst b.rowCount)))

/-- The targets of a RELOAD of a block: from the staging buffer (R432, R445). -/
def Dev.reloadTargets (d : Dev) (m : Model) (k : Nat) : List RowTarget :=
  match m.image.blocks[k]?, m.image.reload with
  | some b, some r =>
    let at_ := if r.qspi then m.bufferAddr m.image.stagingBuffer else m.stagedBlock k
    rowRecords (d.sram.bytes at_ (b.rowCount * 256)) b.rowFirst b.rowCount
  | _, _ => []

/-- The targets of a PATCH (R347, R542): the rows of the soft head's slice, other pairs at their nearest weights. -/
def patchTargets (x : Tile) (s : Slice) (codes : List Int) : List RowTarget :=
  (List.range s.rowCount).map (fun r =>
    let row := s.rowFirst + r
    RowTarget.seamed row ((List.range 240).map (fun p => if s.covers row p then headCode s codes row p else x.nearestWeight row p)))

/-- The targets an operation takes when it begins; none when a block fails its DATA_CRC. -/
def Dev.opTargets (d : Dev) (i : Fin 48) (op : PressOp) : Option (List RowTarget) :=
  match op.source with
  | .zero => some ((List.range 512).map RowTarget.zero)
  | .records a first => some (rowRecords (d.sram.bytes a (256 * op.rows.length)) first op.rows.length)
  | .nearest => some []
  | .block h k =>
    match d.model h with
    | none => some []
    | some m => if op.kind == .load then d.loadTargets m h i else some (d.reloadTargets m k)
  | .codes h =>
    match d.model h with
    | some { learn := some l, image := im, .. } => (match im.headSlice with | some s => some (patchTargets (d.tiles[i]) s l.newCodes) | none => some [])
    | _ => some []

/-- The level that canonical encoding gives one cell of a pair (R292). -/
def encode (code : Int) (column : Nat) : Int := if column % 2 = 0 then max code 0 else max (-code) 0

/-- The code that a row target gives a logical pair. -/
def RowTarget.code (t : RowTarget) (p : Nat) : Int := if p < 240 then (t.codes[p]?).getD 0 else (t.seams[p - 248]?).getD 0

/-- The remap entries in force during an operation: the tile's, and those it has made. -/
def Tile.entryOf (x : Tile) (op : PressOp) (j : Nat) : Option Nat :=
  match op.darned.find? (fun e => e.1 == j) with
  | some e => some e.2
  | none => if op.freed.contains j then none else at? x.remap j none

/-- Has a darning pair failed, before this operation or in it? -/
def Tile.darningBad (x : Tile) (op : PressOp) (j : Nat) : Bool := at? x.darnBad j false || op.freed.contains j

/-- Is a logical pair replaced? -/
def Tile.replaced (x : Tile) (op : PressOp) (p : Nat) : Bool := (List.range 8).any (fun j => x.entryOf op j == some p && !x.darningBad op j)

/-- The target level of a cell of a row under an operation, none for a cell that it does not press: a replaced pair, a failed darning pair,
or during a DARN every column but the darning pair's (R347, R352, R374). Where the row has no target, a DARN takes the nearest levels of the
cells that hold the pair's weights: those of the darning pair that has stood for it, where one has (R326). -/
def Tile.cellTarget (x : Tile) (op : PressOp) (row column : Nat) : Option Int :=
  let pair := column / 2
  let near (p : Nat) : Int := nearestLevel (x.level row (2 * p + column % 2))
  let t := op.targets.find? (fun t => t.row == row)
  if row ≥ 512 then (if op.kind == .form then some (refTarget row column) else some (near pair))
  else if op.step == .darn then
    match op.darnQueue with
    | [] => none
    | j :: _ => if pair != 240 + j then none else match x.entryOf op j with
      | none => none
      | some p => (match t with | some t => some (encode (t.code p) column) | none => some (near (x.pairOf p)))
  else if 240 ≤ pair ∧ pair < 248 then
    if x.darningBad op (pair - 240) || op.darned.any (fun e => e.1 == pair - 240) then none
    else match t, x.entryOf op (pair - 240) with
      | none, _ => some (near pair)
      | some _, none => some 0
      | some t, some p => some (encode (t.code p) column)
  else if x.replaced op pair then none
  else match t with | some t => some (encode (t.code pair) column) | none => some (near pair)

/-- The cells of a row that are out of tolerance of their targets (R290, R349). -/
def Tile.outCells (x : Tile) (op : PressOp) (row : Nat) : List Nat :=
  (List.range 512).filter (fun c => match x.cellTarget op row c with | some t => !inTolerance (x.level row c) t | none => false)

/-! ## Endurance (R354 to R362) -/

/-- B_E and the upkeep reserve (R356). -/
def enduranceBudget : Nat := 1638400000
def upkeepReserve : Nat := 16384000

/-- w16 of a Tj in whole °C (R355). -/
def weight16 (tj : Int) : Nat :=
  if tj ≤ 105 then 16 else if 140 ≤ tj then 32 else 16 + ((16 * (tj - 105) + 34) / 35).toNat

/-- w16 at the DIE_TEMP reading, rounded up to a whole °C (R355). -/
def Dev.w16 (d : Dev) : Nat := weight16 ((d.pwr.dieTemp.toInt + 15) / 16)

/-- The remaining budget of a tile (R357). -/
def Tile.remaining (x : Tile) : Nat := enduranceBudget - upkeepReserve - x.counter

/-- Is an operation of n rows refused with E_TILE_WORN (R358)? -/
def Dev.worn (d : Dev) (x : Tile) (rows : Nat) : Bool := decide (x.remaining < rows * d.w16)

/-- Does the record being written disarm tile i? Its row presses then wait for another, or the record would under-count them (R366). -/
def Dev.disarming (d : Dev) (i : Fin 48) : Bool :=
  match d.store.writing with | none => false | some w => match w.arms[i.val]? with | some (a, _) => !a | none => false

/-- May a tile start a row press as far as the records go (R362, R363)? -/
def Dev.recorded (d : Dev) (i : Fin 48) (x : Tile) : Bool :=
  x.armed && decide (x.counter + d.w16 ≤ x.saved + d.store.stepInForce) && !d.disarming i

/-- A need for a record before the next row press (R361, R363). -/
def Dev.pressNeeds (d : Dev) (i : Fin 48) : Dev := if d.recorded i (d.tiles[i]) then d else d.trigger

/-- Could the next row press of some tile raise its unsaved count above the commit step (R361; log entry 32)? Then a record is due. -/
def Dev.commitNeeds (d : Dev) : Dev :=
  if d.tiles.toList.any (fun x =>
      x.alive && decide (x.saved < x.counter) && decide (x.saved + d.store.stepInForce < x.counter + d.w16)) then d.trigger else d

/-! ## Tags (R345, R477 to R479) -/

/-- The tags of a basket's quota that are free and unreserved. Tags of index 1 are upkeep's own eight (R478). -/
def Dev.freeTags (d : Dev) (b : Basket) : Nat :=
  (d.grants[b]).tagQuota - (if b = 0 then 8 else 0) - ((d.loaded.filter (fun m => m.2.basket == b)).map (fun m => m.2.tags)).sum -
    (d.spool.tags.filter (fun t => t.kind == .press && t.basket == b && t.handle.isNone && t.index == 0)).length

/-- Is the work in progress an inspection: the operation's own, or that after a failed self-check (Table 08-6)? -/
def PressOp.inspects (op : PressOp) : Bool := op.kind == .inspect || op.kind == .calibrate || decide (0 < op.selfFails)

/-- Is it upkeep, on the tags of basket 0 that are held for it? -/
def PressOp.upkeep (op : PressOp) : Bool := op.inspects

/-- The tag of a row press of an operation. -/
def PressOp.tagFor (op : PressOp) (i : Fin 48) : Tag :=
  let b := if op.upkeep then 0 else op.basket
  { Tag.of .press b (if op.kind == .reload then op.handle else none) 1 none with tile := some i, index := if op.upkeep then 1 else 0 }

/-- Is there a tag for a row press of the operation? -/
def Dev.tagAvailable (d : Dev) (op : PressOp) : Bool := op.upkeep || op.kind == .reload || decide (0 < d.freeTags op.basket)

/-! ## Ends of operations -/

/-- Does the kind end with EV_PRESS_DONE (R400, and the note under Table 16-8 for PR_CALIBRATE)? -/
def PressKind.pressDone : PressKind → Bool
  | .inspect => false
  | _ => true

/-- EV_PRESS_DONE (R400, R838): the rows, units and failed pairs of the operation without the inspection that a failed self-check adds. -/
def Dev.postPressDone (d : Dev) (i : Fin 48) (op : PressOp) (result : Nat) : Dev :=
  let r := op.report.getD (op.pressed, op.units, op.pairsFailed)
  d.postTile i { event := .pressDone, subject := i.val, data0 := r.2.1, tag := op.tag,
                 data1 := min 1023 r.1 + 1024 * min 15 r.2.2 + 16384 * result }

/-- EV_INSPECT_DONE (R378). -/
def Dev.postInspectDone (d : Dev) (i : Fin 48) (op : PressOp) : Dev :=
  d.postTile i { event := .inspectDone, subject := i.val, data0 := op.repressed, tag := op.tag,
                 data1 := min 1023 op.inconsistent.length + 4096 * min 15 op.pairsFailed }

/-- Drop every operation of a model that has not begun, and detach those in progress: their tiles then leave as SPARE without a tag. With
nothing left to wait for an inference boundary, precedence ends (R388). -/
def Tile.detach (x : Tile) (h : Handle) : Tile :=
  { x with queue := x.queue.filter (fun o => o.handle != some h),
           precedence := x.precedence && (x.due || x.queue.any (fun o => o.handle != some h)),
           op := x.op.map (fun o => if o.handle == some h then { o with handle := none } else o) }

/-- A load that fails after its check (R439): EV_LOAD_DONE with the code, its reservations released, and each tile it pressed that holds no
other model's slices SPARE with its content tag cleared. -/
def Dev.loadFails (d : Dev) (h : Handle) (e : Err) : Dev :=
  match d.model h with
  | none => d
  | some m =>
    let d := d.onModels (fun m => upd m h (fun _ => none))
    let d := d.onTiles (fun t => vmap t (fun i x =>
      let y := x.detach h
      if m.place.any (fun p => p.val == i) && !m.toPress.any (fun p => p.val == i) && !d.tileUsed (Fin.ofNat 48 i) then
        { y with state := if y.state == TileState.ready || y.state == .suspect then .spare else y.state, content := none }
      else y))
    d.postTo m.basket { event := .loadDone, subject := h.val, data0 := e.code.toNat, tag := m.loadTag }

/-- One tile of a load is done; EV_LOAD_DONE when all are (R437, R438). -/
def Dev.loadTileDone (d : Dev) (h : Handle) (i : Fin 48) : Dev :=
  match d.model h with
  | none => d
  | some m =>
    let rest := m.toPress.filter (· != i)
    if m.state == .loading && rest.isEmpty then
      (d.onModel h (fun m => { m with toPress := rest, state := .loaded, firstFrame := max 1 d.wr.num })).postTo m.basket
        { event := .loadDone, subject := h.val, tag := m.loadTag }
    else d.onModel h (fun m => { m with toPress := rest })

/-- Change the newest entry of a patch log. -/
def Learn.onLastLog (l : Learn) (f : PatchLog → PatchLog) : Learn :=
  { l with log := match l.log.getLast? with | none => l.log | some e => l.log.dropLast ++ [f e] }

/-- A patch ends (Table 11-3, R545): its log entry gets the result, the stored codes are the new ones unless it was worn, and the record of
step 4 is due. -/
def Dev.patchEnds (d : Dev) (h : Handle) (result units : Nat) : Dev :=
  (d.onLearn h (fun l =>
    let l := l.onLastLog (fun e => { e with result := result, units := units })
    { l with pendingPatch := false, patchStep := some .record4, elapsed := 0, codes := if result = 2 then l.codes else l.newCodes })).trigger

/-- The LOAD of a soft head's tile completes a PATCH_PENDING entry as DONE, RESUMED (R546). -/
def Dev.patchResumes (d : Dev) (h : Handle) (units : Nat) : Dev :=
  match d.model h with
  | some { learn := some l, .. } =>
    if l.pendingPatch && l.patchStep.isNone then
      (d.onLearn h (fun l =>
        let l := l.onLastLog (fun e => { e with result := 1, cause := 2, units := units })
        { l with pendingPatch := false, codes := l.newCodes })).trigger
    else d
  | _ => d

/-- The tile of a model's soft head. -/
def Model.headTile (m : Model) : Option (Fin 48) := (m.image.headSlice.bind (fun s => s.tiles.head?)).bind (fun n => m.place[n]?)

/-- The patch that a model's content tag names on a tile: that of the newest log entry that was pressed, on the soft head's tile. -/
def Model.patchOn (m : Model) (i : Fin 48) : Nat :=
  match m.learn with
  | none => 0
  | some l => if m.headTile == some i then (match l.log.reverse.find? (fun e => e.result == 0 || e.result == 1) with | some e => e.number | none => 0) else 0

/-- The content tag that a LOAD of a tile leaves (R385, R420). -/
def Model.contentFor (m : Model) (i : Fin 48) : ContentTag := { modelId := m.image.modelId, crc := m.image.crc, patch := m.patchOn i }

/-- A tile retires (R353, R359): every operation on it ends. -/
def Dev.endOps (d : Dev) (i : Fin 48) (result : Nat) : List PressOp → Dev
  | [] => d
  | op :: ops =>
    let d := if op.kind.pressDone then d.postPressDone i op result else d.postInspectDone i op
    let d := match op.kind, op.handle with
      | .load, some h => d.loadFails h .fitTiles
      | .patch, some h => d.patchEnds h 3 op.units
      | _, _ => d
    d.endOps i result ops

/-- The loads in progress that use a tile fail, when it retires (R439). -/
def Dev.failLoads (d : Dev) : List Handle → Dev
  | [] => d
  | h :: hs => (d.loadFails h .fitTiles).failLoads hs

/-- The models that are loading and use a tile. -/
def Dev.loadingOn (d : Dev) (i : Fin 48) : List Handle := (d.loaded.filter (fun m => m.2.state == .loading && m.2.place.contains i)).map (·.1)

/-- EV_TILE_RETIRED, the ends of the tile's operations, and the failure of the loads in progress that use it. -/
def Dev.retireTile (d : Dev) (i : Fin 48) : Dev :=
  let x := d.tiles[i]
  let ops := x.op.toList ++ x.queue
  let d := match x.op.bind (·.inFlight) with | some f => d.retireTags true [f.tag] | none => d
  let d := d.onTile i (fun x => { x with state := .retired, op := none, queue := [], recorded := none, due := false, dueTag := 0, precedence := false })
  let d := d.postTile i { event := .tileRetired, subject := i.val, data0 := x.failedPairs }
  let d := d.endOps i 2 ops
  (d.failLoads (d.loadingOn i)).trigger

/-! ## Failed pairs (R350 to R353) -/

/-- Good darning pairs without a valid entry, lowest first. -/
def Tile.freeDarning (x : Tile) (op : PressOp) : List Nat :=
  (List.range 8).filter (fun j => !x.darningBad op j && (x.entryOf op j).isNone)

/-- Change the operation in progress on a tile. -/
def Dev.onOp (d : Dev) (i : Fin 48) (f : PressOp → PressOp) : Dev := d.onTile i (fun x => { x with op := x.op.map f })

/-- One pair fails: counted and posted; a failed darning pair frees its entry; a good free darning pair takes the place, or the tile retires. -/
def Dev.pairFails (d : Dev) (i : Fin 48) (pair : Nat) : Dev :=
  match (d.tiles[i]).op with
  | none => d
  | some op =>
    let x := d.tiles[i]
    let isDarning := decide (240 ≤ pair) && decide (pair < 248)
    let freed := if isDarning then x.entryOf op (pair - 240) else some pair
    let d := d.onTile i (fun x => { x with failedPairs := x.failedPairs + 1 })
    let d := d.onOp i (fun op =>
      let head := op.step == .darn && op.darnQueue.head?.any (fun j => j + 240 == pair)
      { op with pairsFailed := op.pairsFailed + 1, freed := if isDarning then op.freed ++ [pair - 240] else op.freed, darned := op.darned.filter (fun e => e.1 + 240 != pair),
                darnQueue := op.darnQueue.filter (fun j => j + 240 != pair), rows := if head then List.range 512 else op.rows })
    let d := d.postTile i { event := .pairFailed, subject := i.val, data0 := pair, data1 := (d.tiles[i]).failedPairs }
    match (d.tiles[i]).op with
    | none => d
    | some op =>
      match (d.tiles[i]).freeDarning op, freed with
      | [], _ => d.retireTile i
      | j :: _, some p => d.onOp i (fun op => { op with darned := op.darned ++ [(j, p)], darnQueue := op.darnQueue ++ [j] })
      | _, none => d

/-- Is the pair already replaced, or a darning pair that has failed? Then it fails no more. -/
def Dev.pairGone (d : Dev) (i : Fin 48) (p : Nat) : Bool :=
  match (d.tiles[i]).op with
  | some op => if 240 ≤ p ∧ p < 248 then (d.tiles[i]).darningBad op (p - 240) else (d.tiles[i]).replaced op p
  | none => true

/-- Pairs fail one after the other. -/
def Dev.pairsFail (d : Dev) (i : Fin 48) : List Nat → Dev
  | [] => d
  | p :: ps => (if d.pairGone i p then d else d.pairFails i p).pairsFail i ps

/-! ## Starting a row press -/

/-- The tiles of a press engine's group, in order (R343). -/
def groupTiles (g : Nat) : List (Fin 48) := (List.finRange 48).filter (fun i => i.val / 6 == g)

/-- May pressing and upkeep go on: not in WATCH, HOLD or FAULT (R872, R878)? -/
def Dev.pressing (d : Dev) : Bool := d.pwr.state == .active || d.pwr.state == .boot

/-- The tile of a group whose operation has a row to press and none in flight. -/
def Dev.rowWaiting (d : Dev) (g : Nat) : Option (Fin 48) :=
  (groupTiles g).find? (fun i => match (d.tiles[i]).op with
    | some op => (op.step == .rows || op.step == .darn) && !op.rows.isEmpty && op.inFlight.isNone
    | none => false)

/-- A counter at B_E stops an operation (R358, R359): it presses no more rows, drops the darning it has not done, and closes. -/
def PressOp.stop (op : PressOp) : PressOp :=
  { op with rows := [], darned := op.darned.filter (fun e => !op.darnQueue.contains e.1), darnQueue := [], step := .closing, stopped := true }

/-- A press engine takes the next row press of its group: its tag is allocated and issued, and the row is charged when its first verify read
finds a cell out of tolerance (R345, R354, R355, R359, R362, R363, R395; log entry 57). -/
def Dev.dispatchPress (d : Dev) (g : Nat) : Dev :=
  match d.rowWaiting g with
  | none => d
  | some i =>
    let x := d.tiles[i]
    match x.op with
    | none => d
    | some op =>
      if !d.pressing || !d.pwr.vddpOk || !d.spool.unitFree (.press (Fin.ofNat 8 g)) then d
      else if enduranceBudget ≤ x.counter then (if op.inspects then d.retireTile i else d.onOp i PressOp.stop)
      else if !d.recorded i x then d.trigger
      else if !d.tagAvailable op then d
      else
        match d.spool.alloc d.now (op.tagFor i), op.rows with
        | (p, some id), row :: _ =>
          let d := d.onSpool (fun _ => p.onTag id (fun t => { t with status := .issued }))
          let outs := x.outCells op row
          let w := if outs.isEmpty then 0 else d.w16
          let d := d.onTile i (fun x => { x with counter := x.counter + w,
                                                 op := x.op.map (fun o => { o with inFlight := some { row := row, tag := id, start := d.now, outs := outs }, units := o.units + w }) })
          (match op.kind, op.handle with | .reload, some h => d.notePeak h | _, _ => d)
        | _, _ => d

/-! ## ROW_PRESS -/

/-- Give the cells of a row their levels after a press. -/
def Tile.setLevels (x : Tile) (row : Nat) : List CellRead → Tile
  | [] => x
  | c :: cs => (x.setLevel row c.column c.level).setLevels row cs

/-- The cells that a row press has pulsed: only those out of tolerance change (R349). -/
def pulsed (outs : List Nat) (after : List CellRead) : List CellRead := after.filter (fun c => outs.contains c.column)

/-- The pairs of cells, rising, without repeats. -/
def pairsOf (columns : List Nat) : List Nat := columns.foldl (fun l c => insertNat (c / 2) l) []

/-- How long a row press of n iterations occupies its engine (R348). -/
def rowTime (iters : Nat) : Time := max (us 12) (us (5 * iters))

/-- A row press of n iterations completes (R348 to R350), `outs` being the cells that its first verify read found out of tolerance: what it
leaves, or none where the reads do not fit the procedure. -/
def Tile.pressRow (x : Tile) (op : PressOp) (row iters : Nat) (outs : List Nat) (after : List CellRead) : Option (Tile × List Nat × Nat) :=
  let y := x.setLevels row (pulsed outs after)
  let left := y.outCells op row
  if iters = 0 ∨ 12 < iters then none
  else if outs.isEmpty then (if iters = 1 then some (x, [], 0) else none)
  else if iters = 1 then none
  else if iters < 12 ∧ !left.isEmpty then none
  else some (y, pairsOf left, outs.length)

/-- The next step of an operation whose rows are finished: darning, then closing. -/
def PressOp.advance (op : PressOp) : PressOp :=
  if !op.rows.isEmpty then op
  else
    match op.step, op.darnQueue with
    | .darn, _ :: j :: js => { op with darnQueue := j :: js, rows := List.range 512 }
    | .darn, _ => { op with darnQueue := [], step := .closing }
    | _, [] => { op with step := .closing }
    | _, _ :: _ => { op with step := .darn, rows := List.range 512 }

/-- The state of a tile during an operation (R346): INSPECTING while it inspects, else PRESSING; a DARN is a pressing. -/
def PressOp.tileState (op : PressOp) : TileState := if op.inspects && op.step != .darn then .inspecting else .pressing

/-- The operation that the configuration area records (R391 to R393): one that leaves the tile SUSPECT after a reset while it inspects. -/
def PressOp.recordKind (op : PressOp) : PressKind :=
  if op.tileState == .inspecting then .inspect else if op.inspects then .press else op.kind

/-- An operation goes on on its tile, which is in the state of its step. -/
def Tile.goesOn (x : Tile) (op : PressOp) : Tile := { x with op := some op, state := op.tileState, recorded := some op.recordKind }

/-- The operation in progress takes its next step. -/
def Dev.advanceOp (d : Dev) (i : Fin 48) : Dev := d.onTile i (fun x => match x.op with | some op => x.goesOn op.advance | none => x)

/-- ROW_PRESS (R348, R393): the row in flight of a tile is finished and its tag retires. -/
def Dev.rowPress (d : Dev) (i : Fin 48) (iters : Nat) (after : List CellRead) : Dev :=
  let x := d.tiles[i]
  match x.op with
  | some op =>
    match op.inFlight with
    | some f =>
      if d.now != f.start + rowTime iters then d
      else match x.pressRow op f.row iters f.outs after with
      | none => d
      | some (y, failed, cells) =>
        let d := d.onTile i (fun _ => y)
        let d := d.onOp i (fun o =>
          let row := o.step == .rows
          { o with inFlight := none, rows := o.rows.drop 1, pressed := o.pressed + 1, repressed := if row then o.repressed + cells else o.repressed,
                   written := if row then o.written ++ [f.row] else o.written })
        let d := d.retireTags (!d.spool.aborts f.tag) [f.tag]
        let d := d.pairsFail i failed
        (d.advanceOp i).pressNeeds i
    | none => d
  | none => d

/-- ROW_PRESS. -/
def execRowPress (t : Time) (tile : Fin 48) (iters : Nat) (after : List CellRead) (s : State) : Host.Outcome State Fault Refusal :=
  onDev s t (fun d => if d.pressing || d.pwr.state == .hold || d.pwr.state == .fault then d.rowPress tile iters after else d)

/-! ## Starting an operation -/

/-- A tile in this state computes (Table 07-4). -/
def TileState.computes (s : TileState) : Bool := s == .ready || s == .suspect

/-- The state of a tile as the run takes it: at run start, when its wait under WAIT has ended, or after a pass of a reload plan (R331, the note
under Table 08-6). -/
def Run.stateOf (r : Run) (i : Fin 48) : TileState :=
  match r.states.reverse.find? (fun s => s.1 == i) with | some s => s.2 | none => .retired

/-- Does the run hold the tile (R331, R387)? A run that waits for its first layer under WAIT has not started (R333). -/
def Run.holds (r : Run) (i : Fin 48) : Bool :=
  (!r.waitFor || decide (0 < r.layer)) && (r.stateOf i).computes

/-- Does a run hold the tile? -/
def Dev.heldByRun (d : Dev) (i : Fin 48) : Bool :=
  d.loaded.any (fun m => match m.2.run with | none => false | some r => r.holds i)

/-- Is an inference boundary of the tile open to an operation? A RELOAD is the run's own, which holds its tiles pass by pass. -/
def Dev.freeFor (d : Dev) (i : Fin 48) (op : PressOp) : Bool :=
  !d.loaded.any (fun m => match m.2.run with
    | none => false
    | some r => !(op.kind == .reload && op.handle == some m.1) && r.holds i)

/-- The inspection that is due. -/
def inspectOp (since : Time) : PressOp :=
  { kind := .inspect, basket := 0, tag := 0, handle := none, source := .nearest, since := since, step := .queued, rows := [], targets := [],
    darned := [], darnQueue := [], pressed := 0, units := 0, pairsFailed := 0, repressed := 0, inconsistent := [], written := [],
    inFlight := none, selfFails := 0, calibrated := false, calDirty := false, serving := false, freed := [], newTrims := none, newRems := none,
    stopped := false, report := none }

/-- A pressing operation as its command or request names it. -/
def PressOp.of (kind : PressKind) (b : Basket) (tag : Byte) (h : Option Handle) (source : PressSource) (rows : List Nat) (since : Time) : PressOp :=
  { inspectOp since with kind := kind, basket := b, tag := tag, handle := h, source := source, rows := rows }

/-- Does the tile's inspection come before other operations: is it SUSPECT (Table 08-8)? One that an inspection has left SUSPECT, its self-check
having failed, is due again at once (R373) but lets what waits take its turn (log entry 18). -/
def Tile.urgent (x : Tile) : Bool := x.state == .suspect && !bit x.lastResult 1

/-- The operation that a tile would begin: an inspection of a SUSPECT tile, then what is queued, then an inspection (Table 08-8). -/
def Dev.nextOp (d : Dev) (i : Fin 48) : Option PressOp :=
  let x := d.tiles[i]
  let inspection := if d.inspectionDue x then some { inspectOp x.dueSince with tag := x.dueTag } else none
  if x.urgent && inspection.isSome then inspection else x.queue.head?.or inspection

/-- Does an operation of another tile of the group come first: one in progress, or an inspection of a SUSPECT tile that no run holds? -/
def Dev.groupBusy (d : Dev) (i : Fin 48) (op : PressOp) : Bool :=
  (groupTiles (i.val / 6)).any (fun j => j != i &&
    ((d.tiles[j]).op.isSome ||
      (!(op.kind == .inspect && (d.tiles[i]).urgent) && (d.tiles[j]).urgent && d.inspectionDue (d.tiles[j]) && !d.heldByRun j)))

/-- Rows inconsistent by R375; none on a tile without a content tag. -/
def Tile.inconsistentRows (x : Tile) : List Nat :=
  if x.content.isNone then []
  else (List.range 512).filter (fun r =>
    (List.range 240).any (fun p =>
      decide (0 < nearestLevel (x.level r (2 * x.pairOf p))) && decide (0 < nearestLevel (x.level r (2 * x.pairOf p + 1)))) ||
    (List.range 8).any (fun s =>
      ((List.range 30).map (fun o => x.nearestWeight r (30 * s + o))).sum - 30 * x.nearestWeight r (248 + s) != x.remainder r s))

/-- The rows that an inspection re-presses: consistent data rows and reference rows that hold out-of-tolerance cells. -/
def Tile.driftedRows (x : Tile) (op : PressOp) (inconsistent : List Nat) : List Nat :=
  (List.range 528).filter (fun r => !inconsistent.contains r && !(x.outCells op r).isEmpty)

/-- An inspection's read (Table 08-4 steps 1 and 2). -/
def Tile.inspectRead (x : Tile) (op : PressOp) : PressOp :=
  let op := { op with targets := [], step := .rows }
  let bad := x.inconsistentRows
  ({ op with inconsistent := bad, rows := x.driftedRows op bad }).advance

/-- Does a LOAD find its content on the tile (R420)? Not in the boot in which the tile has failed its boot self-check (R852). -/
def Dev.servedBy (d : Dev) (i : Fin 48) (op : PressOp) : Bool :=
  match op.kind, op.handle with
  | .load, some h => (match d.model h with | some m => !(d.tiles[i]).bootBarred && (d.tiles[i]).content == some (m.contentFor i) | none => false)
  | _, _ => false

/-- The boot has ended: what its self-check decided serves only the LOADs that the boot record has queued (R851, R852; log entry 28). -/
def Tile.endBoot (x : Tile) : Tile :=
  if x.queue.any (fun o => o.kind == .load) then x else { x with bootChecked := false, bootBarred := false }

/-- An operation is refused when it would begin (R358): it holds no tile and presses no row. -/
def Dev.opRefused (d : Dev) (i : Fin 48) (op : PressOp) (result : Nat) (e : Err) : Dev :=
  let d := d.postPressDone i op result
  match op.kind, op.handle with
  | .load, some h => d.loadFails h e
  | .patch, some h => d.patchEnds h 2 0
  | _, _ => d

/-- The rows by which R358 judges an operation. -/
def PressOp.judgedRows (op : PressOp) (served : Bool) : Nat :=
  match op.kind with | .form => 528 | .inspect | .calibrate => 0 | _ => if served then 0 else op.rows.length

/-- The operation leaves its queue. -/
def Tile.dequeue (x : Tile) (op : PressOp) : Tile :=
  let x := { x with precedence := false }
  if op.kind == .inspect then { x with due := false, dueTag := 0 } else { x with queue := x.queue.drop 1 }

/-- An operation begins at its tile's inference boundary (R387, R358, R420, R421, Table 08-6). -/
def Dev.opBegins (d : Dev) (i : Fin 48) (op : PressOp) : Dev :=
  let served := d.servedBy i op
  let d := d.onTile i (fun x => x.dequeue op)
  if op.kind == .form && (d.tiles[i]).state != .blank then d.opRefused i op 3 .state
  else if served && (d.tiles[i]).bootChecked && (d.tiles[i]).state == .spare then
    match op.handle with
    | some h =>
      let d := d.onTile i (fun x => if d.pwr.outcomePlaced then { x with state := .ready }.endBoot else { x with state := .ready })
      (if (d.model h).bind Model.headTile == some i then d.patchResumes h 0 else d).loadTileDone h i
    | none => d
  else if d.worn (d.tiles[i]) (op.judgedRows served) then d.opRefused i op 1 .tileWorn
  else
    match d.opTargets i op with
    | none => d.opRefused i op 3 .fitImage
    | some ts =>
      let x := d.tiles[i]
      let op := { op with targets := ts, step := .rows, rows := if op.kind == PressKind.form then List.range 528 else op.rows }
      let op := match op.kind with
        | .inspect => x.inspectRead op
        | .calibrate => { op with step := .closing }
        | _ => if served then { op with rows := [], step := .closing, serving := true } else op.advance
      let worn := op.kind == .inspect && !op.rows.isEmpty && decide (enduranceBudget ≤ x.counter)
      let d := d.onTile i (fun x => x.goesOn op)
      if worn then d.retireTile i else d.pressNeeds i

/-- Does a PATCH wait for the record of its step 2 (Table 11-3)? -/
def Dev.patchHeld (d : Dev) (op : PressOp) : Bool :=
  op.kind == .patch && (match op.handle.bind d.model with | some { learn := some l, .. } => l.patchStep == some .record2 | _ => false)

/-- PRESS_OP_START (R387). -/
def execPressOpStart (t : Time) (tile : Fin 48) (s : State) : Host.Outcome State Fault Refusal :=
  onDev s t (fun d =>
    match d.nextOp tile with
    | none => d
    | some op =>
      if !d.pressing || !d.pwr.restored || (d.tiles[tile]).op.isSome || (d.tiles[tile]).state == .retired || !d.freeFor tile op ||
          d.groupBusy tile op || d.patchHeld op
      then d else d.opBegins tile op)

/-- UPKEEP_PRECEDENCE (R388): upkeep that has waited 1 s for an inference boundary. -/
def execUpkeepPrecedence (t : Time) (tile : Fin 48) (s : State) : Host.Outcome State Fault Refusal :=
  onDev s t (fun d =>
    match d.nextOp tile with
    | none => d
    | some op =>
      if (d.tiles[tile]).op.isNone && !d.freeFor tile op && decide (op.since + sec 1 ≤ d.now) then
        d.onTile tile (fun x => { x with precedence := true })
      else d)

/-! ## Closing (R351, R384, R386, R389) -/

/-- The remap entries that an operation has made take their places (R352). -/
def Tile.applyDarned (x : Tile) : List (Nat × Nat) → Tile
  | [] => x
  | (j, p) :: es => ({ x with remap := updAt (x.remap.map (fun e => if e == some p then none else e)) j (fun _ => some p) }).applyDarned es

/-- The row remainders of the rows that an operation has written. -/
def Tile.applyRemainders (x : Tile) (written : List Nat) : List RowTarget → Tile
  | [] => x
  | t :: ts =>
    let x := if written.contains t.row then
        { x with remainders := (List.range 8).foldl (fun l s =>
            let v := (t.rems[s]?).getD 0
            if v = 0 then assocErase (8 * t.row + s) l else assocSet (8 * t.row + s) v l) x.remainders }
      else x
    x.applyRemainders written ts

/-- The tile as the end of an operation leaves its configuration: new remap entries, trims and row remainders together (R389). -/
def Tile.effective (x : Tile) (op : PressOp) : Tile :=
  let y := { x with remap := vmap x.remap (fun j e => if op.freed.contains j then none else e),
                    darnBad := vmap x.darnBad (fun j b => b || op.freed.contains j), trims := op.newTrims.getD x.trims,
                    remainders := op.newRems.getD x.remainders }
  (y.applyDarned op.darned).applyRemainders op.written op.targets

/-- The content tag after an operation (R385): that of the image and the patch last pressed, none after a FORM or an operation cut short. -/
def Dev.contentAfter (d : Dev) (i : Fin 48) (op : PressOp) : Option ContentTag :=
  let old := (d.tiles[i]).content
  if op.stopped then none
  else match op.kind with
  | .form => none
  | .press => old
  | .load | .reload => (match op.handle.bind d.model with | some m => some (m.contentFor i) | none => none)
  | .patch => (match op.handle.bind d.model with
      | some m => some { m.contentFor i with patch := (m.learn.map (·.patchNumber)).getD 0 }
      | none => none)
  | .inspect | .calibrate => old

/-- Does the operation write every inconsistent row (R377, Table 08-8)? -/
def PressOp.cures (op : PressOp) (bad : List Nat) : Bool :=
  (op.kind == .load || op.kind == .press || op.kind == .reload || op.kind == .patch) && bad.all (fun r => op.written.contains r)

/-- Does a loaded model use the tile when an operation on it ends (Table 08-6)? A model whose own LOAD of the tile still waits does not yet. -/
def Dev.inService (d : Dev) (i : Fin 48) (op : PressOp) : Bool :=
  d.loaded.any (fun m => m.2.uses i && (!m.2.toPress.contains i || (op.kind == .load && op.handle == some m.1)))

/-- The result in EV_PRESS_DONE of an operation that has run (R838). -/
def PressOp.result (op : PressOp) : Nat := if op.stopped then 1 else if op.kind == .calibrate && op.calDirty then 3 else 0

/-- The tile leaves PRESSING or INSPECTING (Table 08-6, R372, R376, R377, R389): `failed` says that its self-check has failed
twice; the SUSPECT tile is then due for another inspection at once (R373). -/
def Dev.opEnds (d : Dev) (i : Fin 48) (op : PressOp) (failed : Bool) : Dev :=
  let content := d.contentAfter i op
  let mismatch := !op.inconsistent.isEmpty
  let used := d.inService i op
  let state : TileState := if failed || mismatch then .suspect else if used then .ready else .spare
  let inspected := op.kind == .inspect || decide (0 < op.selfFails)
  let fresh := op.kind == .form || op.kind == .load || inspected
  let d := d.onTile i (fun x =>
    let cured := op.cures x.badRows
    { x.effective op with
      state := state, op := none, recorded := none, bootChecked := false, content := content,
      needsPress := mismatch || (x.needsPress && !cured), badRows := if mismatch then op.inconsistent else if cured then [] else x.badRows,
      age := if fresh then 0 else x.age,
      lastResult := if inspected then packBits [mismatch, failed, op.calDirty] else x.lastResult })
  let d := if failed then d.onTile i (fun x => x.schedule d.now) else d
  let d := if mismatch then d.postTile i { event := .tileMismatch, subject := i.val, data0 := op.inconsistent.length } else d
  let d := if op.kind.pressDone then d.postPressDone i op op.result else d
  let d := if inspected then d.postInspectDone i op else d
  match op.kind, op.handle with
  | .load, some h =>
    if op.stopped then d.loadFails h .tileWorn
    else (if (d.model h).bind Model.headTile == some i then d.patchResumes h op.units else d).loadTileDone h i
  | .patch, some h => d.patchEnds h (if op.stopped then 2 else 1) op.units
  | _, _ => d

/-- The operation as the inspection that follows its first failed self-check begins (Table 08-6): what has been pressed is reported at its end,
and the inspection counts its own cells and pairs (R378, R400). -/
def PressOp.followOn (op : PressOp) (rems : List (Nat × Int)) : PressOp :=
  { op with newRems := some rems, selfFails := 1, calibrated := false, repressed := 0, pairsFailed := 0,
            report := if op.kind == .inspect then none else some (op.pressed, op.units, op.pairsFailed) }

/-- The seam self-check of the closing step (R386, Table 08-6, R421). -/
def Dev.selfCheck (d : Dev) (i : Fin 48) (op : PressOp) : Dev :=
  let (n, d) := d.drawMany 8
  let y := (d.tiles[i]).effective op
  let c := y.selfCheck n
  let d := d.onTile i (fun x =>
    { x.drove false d.now with compared := x.compared + BitVec.ofNat 32 c.made, seamFailures := x.seamFailures + BitVec.ofNat 32 c.failed })
  if c.passes then d.opEnds i op false
  else if op.serving then
    d.onOp i (fun o => { o with serving := false, step := .rows, rows := List.range 512 })
  else if op.selfFails = 0 then
    let d := if op.kind == .inspect then d.postInspectDone i op else d
    d.onTile i (fun x => x.goesOn (y.inspectRead (op.followOn y.remainders)))
  else
    let d := d.postTile i { event := .seamFail, subject := i.val, data0 := 0xFFFF, data1 := c.failed + c.unmade }
    d.opEnds i op true

/-- The converter calibration of an inspection or of PR_CALIBRATE, once (R380 to R384). -/
def Dev.opCalibrates (d : Dev) (i : Fin 48) : Dev :=
  let (n, d) := d.draw
  let d := d.onOp i (fun o => { o with calibrated := true })
  let d := d.onTile i (fun x => x.drove false d.now)
  match (d.tiles[i]).op.bind (fun op => ((d.tiles[i]).effective op).calibrate n) with
  | none => d.onOp i (fun o => { o with calDirty := true })
  | some (trims, failed) => (d.onOp i (fun o => { o with newTrims := some trims })).pairsFail i failed

/-- PRESS_OP_CLOSE (R351, R384, R389). -/
def Dev.pressClose (d : Dev) (i : Fin 48) : Dev :=
  match (d.tiles[i]).op with
  | none => d
  | some op =>
    if op.step != .closing then d
    else
      let d := if op.inspects && !op.calibrated then d.opCalibrates i else d
      match (d.tiles[i]).op with
      | none => d
      | some op => if !op.darnQueue.isEmpty then (d.advanceOp i).pressNeeds i else d.selfCheck i op

/-- PRESS_OP_CLOSE. -/
def execPressOpClose (t : Time) (tile : Fin 48) (s : State) : Host.Outcome State Fault Refusal :=
  onDev s t (fun d => if d.pressing then d.pressClose tile else d)

/-! ## Drift, VDDP -/

/-- INSPECTION_DUE (R369). -/
def execInspectionDue (t : Time) (tile : Fin 48) (s : State) : Host.Outcome State Fault Refusal :=
  onDev s t (fun d =>
    let x := d.tiles[tile]
    if d.upkeep.auto && x.alive && !x.needsPress && x.op.isNone && decide (d.upkeep.interval ≤ x.age) then
      (d.onTile tile (fun x => x.makeDue d.now)).pressNeeds tile
    else d)

/-- Give the cells that have drifted their levels. -/
def Dev.driftCells (d : Dev) : List CellDrift → Dev
  | [] => d
  | c :: cs => (if c.row < 528 ∧ c.column < 512 then d.onTile c.tile (fun x => x.setLevel c.row c.column c.level) else d).driftCells cs

/-- DRIFT_AGE_ADVANCE (R368): each second, counted from the end of reset. -/
def execDriftAgeAdvance (t : Time) (moved : List CellDrift) (s : State) : Host.Outcome State Fault Refusal :=
  onDev s t (fun d =>
    if !d.pwr.state.answers || decide (d.now < d.pwr.driftAt + sec 1) then d
    else
      let d := d.onPwr (fun p => { p with driftAt := p.driftAt + sec 1 })
      let d := d.onTiles (fun t => t.map (fun (x : Tile) => if x.alive then { x with age := x.age + d.driftRate } else x))
      d.driftCells moved)

/-- The pulses of the iterations that a row in flight has had, up to the one it completes, have moved its cells (R395). -/
def Dev.pulseCells (d : Dev) : List CellDrift → Dev
  | [] => d
  | c :: cs =>
    (match (d.tiles[c.tile]).op.bind (·.inFlight) with
     | some f => if f.row = c.row ∧ f.outs.contains c.column then d.onTile c.tile (fun x => x.setLevel c.row c.column c.level) else d
     | none => d).pulseCells cs

/-- Put the row in flight of every tile back to be pressed again (R395). -/
def Dev.restartRows (d : Dev) : List (Fin 48) → Dev
  | [] => d
  | i :: is =>
    (match (d.tiles[i]).op.bind (·.inFlight) with
     | some f => (d.onOp i (fun o => { o with inFlight := none })).retireTags (!d.spool.aborts f.tag) [f.tag]
     | none => d).restartRows is

/-- VDDP_OUT_OF_RANGE (R395): rows in progress pause after their current iteration. -/
def execVddpOutOfRange (drop : SupplyDrop) (s : State) : Host.Outcome State Fault Refusal :=
  onDev s drop.t (fun d =>
    if !d.pwr.vddpOk then d
    else
      let d := d.onPwr (fun p => { p with vddpOk := false })
      if d.pwr.state.answers then ((d.pulseCells drop.pulsed).restartRows (List.finRange 48)).postAll { event := .vddp, data0 := 1 } else d)

/-- VDDP_IN_RANGE (R395). -/
def execVddpInRange (t : Time) (s : State) : Host.Outcome State Fault Refusal :=
  onDev s t (fun d =>
    if d.pwr.vddpOk then d
    else
      let d := d.onPwr (fun p => { p with vddpOk := true })
      if d.pwr.state.answers then d.postAll { event := .vddp, data0 := 0 } else d)

/-! ## Commands -/

/-- Queue an operation on a tile; a record arms the tile when it must (R363). -/
def Dev.queueOp (d : Dev) (i : Fin 48) (op : PressOp) : Dev :=
  (d.onTile i (fun x => { x with queue := x.queue ++ [op] })).pressNeeds i

/-- The tile that an argument names. -/
def Ctx.tileArg (x : Ctx) : Fin 48 := Fin.ofNat 48 (x.arg 0)

/-- PR_FORM (R399, R479, R358). -/
def cmdPrForm : Command :=
  { code := 0x0501, sup := true, names := fun x d => x.tile d (x.arg 0),
    state := fun x d =>
      let y := d.tiles[x.tileArg]
      firstErr [need (y.state == .blank) .state, need (decide (0 < d.freeTags x.b)) .quota, need (!d.worn y 528) .tileWorn],
    act := fun x d => (d.queueOp x.tileArg (PressOp.of .form x.b x.tag none .zero [] d.now), .ok []) }

/-- PR_PRESS (R397, R399, R479, R358). -/
def cmdPrPress : Command :=
  { code := 0x0502, names := fun x d => x.tile d (x.arg 0) && (x.arg 2 == 0 || x.memory d (x.arg32 3) (256 * x.arg 2)),
    zero := fun x _ => x.arg 2 == 0, range := fun x _ => argRange (decide (x.arg 1 + x.arg 2 ≤ 512)),
    state := fun x d =>
      let y := d.tiles[x.tileArg]
      firstErr [need y.alive .state, need (decide (0 < d.freeTags x.b)) .quota, need (!d.worn y (x.arg 2)) .tileWorn],
    act := fun x d =>
      (d.queueOp x.tileArg
        (PressOp.of .press x.b x.tag none (.records (x.arg32 3) (x.arg 1)) ((List.range (x.arg 2)).map (x.arg 1 + ·)) d.now), .ok []) }

/-- PR_INSPECT (R373, R399, R800): of several before the inspection begins, its event carries the tag of the last (log entry 18). -/
def cmdPrInspect : Command :=
  { code := 0x0503, names := fun x d => x.tile d (x.arg 0), state := fun x d => need (d.tiles[x.tileArg]).alive .state,
    act := fun x d => ((d.onTile x.tileArg (fun y => { y.makeDue d.now with dueTag := x.tag })).pressNeeds x.tileArg, .ok []) }

/-- PR_CALIBRATE (R384, R399). -/
def cmdPrCalibrate : Command :=
  { code := 0x0504, names := fun x d => x.tile d (x.arg 0), state := fun x d => need (d.tiles[x.tileArg]).alive .state,
    act := fun x d => (d.queueOp x.tileArg (PressOp.of .calibrate x.b x.tag none .nearest [] d.now), .ok []) }

/-- PR_SET_UPKEEP (R396 to R398). -/
def cmdPrSetUpkeep : Command :=
  { code := 0x0505, sup := true, zero := fun x _ => x.arg 0 == 0 || x.arg 1 == 0,
    range := fun x _ => argRange (decide (x.arg 0 ≤ 168) && decide (x.arg 1 ≤ 100)),
    act := fun x d => (d.onUpkeep (fun _ => { baseHours := x.arg 0, commitFte := x.arg 1, auto := x.argBit 2 0 }), .ok []) }

/-- Seconds until the next inspection of a tile is due, when one is scheduled. -/
def Dev.untilDue (d : Dev) (x : Tile) : Option Nat :=
  if !x.alive then none
  else if x.due then some 0
  else if x.needsPress || !d.upkeep.auto then none
  else some ((d.upkeep.interval - x.age + d.driftRate - 1) / d.driftRate)

/-- The items of PR_STATUS ("Settings" of chapter 08; log entry 18): the drift age and the time in whole seconds. -/
def Dev.prReport (d : Dev) (i : Fin 48) : List Byte :=
  let x := d.tiles[i]
  w64 x.counter ++ w64 (x.counter - x.saved) ++ w64 x.remaining ++ w32 x.armed.toNat ++ w32 (x.age / 2) ++
    w32 ((d.untilDue x).getD (Config.noInspection d.free)) ++ w32 x.needsPress.toNat ++ w32 x.failedPairs ++
    w32 (Config.inspectionResult x.lastResult)

/-- PR_STATUS. -/
def cmdPrStatus : Command :=
  blockCommand 0x0506 false (fun x d => x.tile d (x.arg 0)) (fun _ _ => none) (fun x d => d.prReport x.tileArg)

/-- Table 07-4, in its order. -/
def TileState.number : TileState → Nat
  | .blank => 0 | .spare => 1 | .ready => 2 | .pressing => 3 | .inspecting => 4 | .suspect => 5 | .retired => 6

/-- The items of TILE_STATUS (R332, Table 16-3). -/
def Tile.report (x : Tile) : List Byte :=
  w32 x.state.number ++ (x.remap.toList.flatMap (fun e => match e with | some p => w32 (p + 0x8000) | none => w32 0)) ++ w32 x.clipsRun.toNat ++
    w32 x.uncheckedRun.toNat ++ w32 x.clipped.toNat ++ w32 x.compared.toNat ++ w32 x.seamFailures.toNat

/-- TILE_STATUS (R332). -/
def cmdTileStatus : Command :=
  blockCommand 0x0507 false (fun x d => x.tile d (x.arg 0)) (fun _ _ => none) (fun x d => (d.tiles[x.tileArg]).report)

def execPrForm (t : Time) (b : Basket) (s : State) : Host.Outcome State Fault Refusal := hostCommand cmdPrForm t b s
def execPrPress (t : Time) (b : Basket) (s : State) : Host.Outcome State Fault Refusal := hostCommand cmdPrPress t b s
def execPrInspect (t : Time) (b : Basket) (s : State) : Host.Outcome State Fault Refusal := hostCommand cmdPrInspect t b s
def execPrCalibrate (t : Time) (b : Basket) (s : State) : Host.Outcome State Fault Refusal := hostCommand cmdPrCalibrate t b s
def execPrSetUpkeep (t : Time) (b : Basket) (s : State) : Host.Outcome State Fault Refusal := hostCommand cmdPrSetUpkeep t b s
def execPrStatus (t : Time) (b : Basket) (s : State) : Host.Outcome State Fault Refusal := hostCommand cmdPrStatus t b s
def execTileStatus (t : Time) (b : Basket) (s : State) : Host.Outcome State Fault Refusal := hostCommand cmdTileStatus t b s

end Sys2Proof.Machine
end

