-- ==== Sys2Proof/Machine/Images.lean ====
section
/-!
DEFINITION. Asketh images (chapter 09): their layout, and steps 1 to 5 of the fitting check, which judge an image by itself.
-/

namespace Sys2Proof.Machine

/-! ## Header and directory (Tables 09-2 and 09-3) -/

/-- A directory entry: TYPE, OFFSET, SIZE. -/
structure Section where
  type : Nat
  off : Nat
  size : Nat
  deriving DecidableEq, Repr

/-- The section directory (R408). -/
def imageSections (bs : List Byte) : List Section :=
  (List.range (field bs 12 2)).map (fun i =>
    { type := field bs (64 + 12 * i) 2, off := field bs (68 + 12 * i) 4, size := field bs (72 + 12 * i) 4 })

/-- The section of a type; one of size 0 stands for an absent one. -/
def sectionOf (bs : List Byte) (type : Nat) : Section :=
  ((imageSections bs).find? (fun s => s.type == type)).getD { type := type, off := 0, size := 0 }

/-- Is a section present? -/
def hasSection (bs : List Byte) (type : Nat) : Bool := (imageSections bs).any (fun s => s.type == type)

/-- A field of a section. -/
def secField (bs : List Byte) (type off n : Nat) : Nat := field bs ((sectionOf bs type).off + off) n

/-- Is AUTH set? -/
def imageAuth (bs : List Byte) : Bool := bit (field bs 7 1) 0

/-- The bytes before the tag (T of R406). -/
def untagged (bs : List Byte) : Nat := bs.length - if imageAuth bs then 32 else 0

/-- The directory is valid as far as types and places go (R409). -/
def directoryValid (bs : List Byte) : Bool :=
  let ss := imageSections bs
  let stop := 64 + 12 * ss.length
  decide (5 ≤ ss.length) && decide (ss.length ≤ 7) && decide (stop ≤ untagged bs) &&
    [1, 2, 3, 4, 5].all (fun t => ss.any (fun s => s.type == t)) && decide (ss.map (·.type)).Nodup &&
    ss.all (fun s => decide (1 ≤ s.type) && decide (s.type ≤ 7) && s.off % 4 == 0 && decide (stop ≤ s.off) &&
      decide (s.off + s.size ≤ untagged bs)) &&
    ss.all (fun s => ss.all (fun u => s.type == u.type || decide (s.off + s.size ≤ u.off) || decide (u.off + u.size ≤ s.off)))

/-! ## Sections -/

/-- A layer entry (Table 09-4). -/
def readLayer (bs : List Byte) (i : Nat) : Layer :=
  let f := fun o n => secField bs 1 (32 * i + o) n
  { vector := f 0 1 != 0, pass := f 1 1, inFormat := f 2 1, weightFormat := f 3 1, inCount := f 4 2, outCount := f 6 2, firstSlice := f 8 2,
    sliceCount := f 10 2, descFirst := f 12 2, descCount := f 14 2, biasOffset := f 16 4, outBytes := f 20 4, input := f 24 2,
    softHead := bit (f 26 2) 0 }

/-- A slice entry (Table 09-5). -/
def readSlice (bs : List Byte) (i : Nat) : Slice :=
  let f := fun o n => secField bs 2 (4 + 24 * i + o) n
  { layer := f 0 1, dMode := f 1 1 == 1, replicas := f 3 1, tiles := f 2 1 :: ((List.range (f 3 1 - 1)).take 3).map (fun r => f (18 + r) 1),
    rowFirst := f 4 2, rowCount := f 6 2, outFirst := f 8 1, outCount := f 9 1, inFirst := f 10 2, outBase := f 12 2, budget := 64 * f 14 1,
    shift := f 15 1, seamTol := f 16 1, busy := f 17 1 }

/-- A weight block header (Table 09-6). -/
def readBlock (bs : List Byte) (k : Nat) : Block :=
  let f := fun o n => secField bs 3 (4 + 16 * k + o) n
  { rowFirst := f 0 2, rowCount := f 2 2, darnReserve := f 4 1, dataOffset := f 8 4, dataCrc := BitVec.ofNat 32 (f 12 4) }

/-- A descriptor (Table 09-8); w is WORKSPACE_COUNT. -/
def readDesc (bs : List Byte) (w i : Nat) : Desc :=
  let f := fun o n => secField bs 4 (4 + 4 * w + 16 * i + o) n
  { op := f 0 1, inFormat := f 1 1, outFormat := f 2 1, engine := f 3 1, count := f 4 4, src := f 8 2, src2 := f 10 2, dst := f 12 2,
    param := f 14 2 }

/-- A binding entry (Table 09-11). -/
def readBinding (bs : List Byte) (i : Nat) : Binding :=
  let f := fun o n => secField bs 5 (4 + 16 * i + o) n
  { kind := f 0 1, source := f 1 1, frame := f 2 1, missing := f 3 1, first := f 4 2, count := f 6 2, target := f 8 2, node := f 10 1,
    slot := f 11 1, detector := f 12 1 }

/-- The passes of a reload plan from an offset, and the offset after them. -/
def readPasses (bs : List Byte) : Nat → Nat → List (List (Nat × Nat)) × Nat
  | 0, o => ([], o)
  | n + 1, o =>
    let c := secField bs 6 o 2
    let r := readPasses bs n (o + 4 + 4 * c)
    ((List.range c).map (fun i => (secField bs 6 (o + 4 + 4 * i) 1, secField bs 6 (o + 6 + 4 * i) 2)) :: r.1, r.2)

/-- The reload plan. -/
def readReload (bs : List Byte) : Reload :=
  { qspi := secField bs 6 1 1 == 1, passes := (readPasses bs (secField bs 6 0 1) 4).1 }

/-- A time whose 0 means a default. -/
def timeOr (v dflt : Nat) : Nat := if v = 0 then dflt else v

/-- The learning specification (Table 09-12). -/
def readLearn (bs : List Byte) : LearnSpec :=
  let f := fun o n => secField bs 7 o n
  let w := fun o => BitVec.ofNat 16 (f o 2)
  { softLayer := f 0 1, recon := f 1 1 == 1, update := f 2 1, forget := f 3 1,
    interval := if f 4 4 = 0xFFFFFFFF then none else some (timeOr (f 4 4) 86400), freezeHold := timeOr (f 8 4) 600,
    releaseTime := timeOr (f 12 4) 1800, commission := timeOr (f 16 4) 86400, freezeLevel := w 20, releaseLevel := w 22, doubtLevel := w 24,
    rate := w 26, baseFirst := f 28 2, baseCount := f 30 2 }

/-- The biases of a layer (Table 09-4). -/
def readBiases (bs : List Byte) (l : Layer) : List Int :=
  if l.vector then []
  else if l.biasOffset = 0xFFFFFFFF then List.replicate l.outCount 0
  else (List.range l.outCount).map (fun i => signed 16 (secField bs 3 (l.biasOffset + 2 * i) 2))

/-- An image as its bytes spell it. -/
def readImage (bs : List Byte) : Image :=
  let ws := secField bs 4 0 2
  { basket := field bs 6 1, length := field bs 8 4, modelId := BitVec.ofNat 32 (field bs 16 4), crc := BitVec.ofNat 32 (field bs 60 4),
    auth := imageAuth bs, fixed := bit (field bs 7 1) 1, divider := field bs 20 2, priority := field bs 22 1, logicalTiles := field bs 23 1,
    deadlineUs := field bs 24 4, layers := (List.range (field bs 14 2)).map (readLayer bs),
    slices := (List.range (secField bs 2 0 2)).map (readSlice bs), blocks := (List.range (secField bs 3 0 2)).map (readBlock bs),
    weights := (sectionOf bs 3).off, workspaces := (List.range ws).map (fun i => secField bs 4 (4 + 4 * i) 4),
    descs := (List.range (secField bs 4 2 2)).map (readDesc bs ws), bindings := (List.range (secField bs 5 0 2)).map (readBinding bs),
    reload := if hasSection bs 6 then some (readReload bs) else none, learn := if hasSection bs 7 then some (readLearn bs) else none,
    biases := (List.range (field bs 14 2)).map (fun i => readBiases bs (readLayer bs i)) }

/-! ## Step 1: E_FIT_IMAGE -/

/-- Does every count of a section keep its entries within the section (R409)? Block data and bias arrays count. -/
def countsFit (bs : List Byte) (m : Image) : Bool :=
  let size := fun t => (sectionOf bs t).size
  decide (32 * m.layers.length ≤ size 1) && decide (4 + 24 * m.slices.length ≤ size 2) && decide (4 + 16 * m.blocks.length ≤ size 3) &&
    m.blocks.all (fun b => decide (b.dataOffset + 256 * b.rowCount ≤ size 3)) &&
    m.layers.all (fun l => l.vector || l.biasOffset == 0xFFFFFFFF || decide (l.biasOffset + 2 * l.outCount ≤ size 3)) &&
    decide (4 + 4 * m.workspaces.length + 16 * m.descs.length ≤ size 4) && decide (4 + 16 * m.bindings.length ≤ size 5) &&
    (m.reload.isNone || (decide (4 ≤ size 6) && decide ((readPasses bs (secField bs 6 0 1) 4).2 ≤ size 6))) &&
    (m.learn.isNone || decide (32 ≤ size 7))

/-- The reserved fields of the reload plan from an offset. -/
def passesReserved (bs : List Byte) : Nat → Nat → Bool
  | 0, _ => true
  | n + 1, o =>
    let c := secField bs 6 o 2
    secField bs 6 (o + 2) 2 == 0 && (List.range c).all (fun i => secField bs 6 (o + 5 + 4 * i) 1 == 0) && passesReserved bs n (o + 4 + 4 * c)

/-- Is every reserved field zero (R405)? -/
def reservedZero (bs : List Byte) (m : Image) : Bool :=
  bits (field bs 7 1) 7 2 == 0 && field bs 28 32 == 0 &&
    (List.range (field bs 12 2)).all (fun i => field bs (66 + 12 * i) 2 == 0) &&
    (List.range m.layers.length).all (fun i => secField bs 1 (32 * i + 26) 2 / 2 == 0 && secField bs 1 (32 * i + 28) 4 == 0) &&
    secField bs 2 2 2 == 0 && (List.range m.slices.length).all (fun i => secField bs 2 (4 + 24 * i + 21) 3 == 0) &&
    secField bs 3 2 2 == 0 && (List.range m.blocks.length).all (fun k => secField bs 3 (4 + 16 * k + 5) 3 == 0) &&
    secField bs 5 2 2 == 0 && (List.range m.bindings.length).all (fun i => secField bs 5 (4 + 16 * i + 13) 3 == 0) &&
    (m.reload.isNone || (secField bs 6 2 2 == 0 && passesReserved bs (secField bs 6 0 1) 4))

/-- The row records of a block. -/
def blockRows (bs : List Byte) (m : Image) (b : Block) : List RowTarget :=
  rowRecords (bs.drop (m.weights + b.dataOffset)) b.rowFirst b.rowCount

/-- Are a row record's codes in range, and do its seams follow the rule (R402, R418)? -/
def RowTarget.valid (t : RowTarget) : Bool :=
  t.codes.all (fun c => decide (-15 ≤ c) && decide (c ≤ 15)) && decide (seamsOf t.codes = (t.seams, t.rems))

/-- Do the data of a block match its DATA_CRC and the rules of a row record? -/
def blockValid (bs : List Byte) (m : Image) (b : Block) : Bool :=
  crc32 ((bs.drop (m.weights + b.dataOffset)).take (256 * b.rowCount)) == b.dataCrc && (blockRows bs m b).all (·.valid)

/-- The CRC of the header (R406). -/
def imageCrc (bs : List Byte) : BitVec 32 := crc32 (bs.take 60 ++ (bs.take (untagged bs)).drop 64)

/-- Step 1 of Table 09-13: is the image whole? -/
def imageWhole (bs : List Byte) (m : Image) : Bool :=
  decide (bs.take 4 = [0x41, 0x53, 0x4B, 0x54]) && m.length == bs.length && decide (128 ≤ bs.length) && decide (bs.length ≤ 16777216) &&
    directoryValid bs && imageCrc bs == m.crc && countsFit bs m && reservedZero bs m && m.blocks.all (blockValid bs m) &&
    (match m.reload with
     | none => true
     | some r => r.passes.all (fun p => p.all (fun e => decide (e.2 < m.blocks.length))))

/-! ## Step 3: E_FIT_AUTH -/

/-- Step 3 of Table 09-13 (R407, R21). -/
def imageAuthentic (bs : List Byte) (m : Image) (b : Basket) (key : Option (BitVec 256)) : Bool :=
  m.basket == b.val &&
    (match key with
     | none => !m.auth
     | some k => m.auth && decide (hmacSha256 k (bs.take (untagged bs)) = bs.drop (untagged bs)))

/-! ## Step 4: E_ARG_ZERO, E_FIT_SHAPE -/

/-- Are the header's values in Table 09-2? -/
def Image.headerInRange (m : Image) : Bool :=
  decide (1 ≤ m.layers.length) && decide (m.layers.length ≤ 256) && decide (1 ≤ m.divider) && decide (m.priority ≤ 3) &&
    decide (1 ≤ m.logicalTiles) && decide (m.logicalTiles ≤ 48)

/-- Is a layer in Table 09-4 (R412, R413)? A format code above 5 is left to step 5 (R403). -/
def Image.layerInRange (m : Image) (kind i : Nat) (l : Layer) : Bool :=
  decide (kind ≤ 1) && (decide (5 < l.weightFormat) || l.weightFormat == 0 || (!l.vector && l.weightFormat == 2)) && decide (1 ≤ l.inCount) && decide (l.inCount ≤ 8192) &&
    (l.input == 0xFFFF || decide (l.input < i)) && decide (l.descFirst + l.descCount ≤ m.descs.length) &&
    (if l.vector then l.outCount == 0 && l.sliceCount == 0 && decide (1 ≤ l.descCount)
     else decide (1 ≤ l.outCount) && decide (l.outCount ≤ 4096) && decide (1 ≤ l.sliceCount) &&
      decide (l.firstSlice + l.sliceCount ≤ m.slices.length) && (l.descCount != 0 || decide (2 * l.outCount ≤ l.outBytes))) &&
    (match m.reload with | none => l.pass == 0 | some r => decide (l.pass < r.passes.length))

/-- Bytes of n elements of a format (Table 09-1). -/
def formatBytes (format n : Nat) : Nat :=
  if format = 0 then (n + 1) / 2 else if format = 4 then 34 * ((n + 31) / 32) else if format = 3 ∨ format = 5 then 2 * n else n

/-- Does the output buffer of the layer that feeds a TILE layer hold its inputs (R412)? -/
def Image.inputFits (m : Image) (l : Layer) : Bool :=
  l.vector || l.input == 0xFFFF ||
    (match m.layers[l.input]? with | none => false | some s => decide (formatBytes l.inFormat l.inCount ≤ s.outBytes))

/-- The layer of a slice, when it is a TILE layer that lists the slice. -/
def Image.layerOf (m : Image) (i : Nat) (s : Slice) : Option Layer :=
  match m.layers[s.layer]? with
  | none => none
  | some l => if !l.vector && decide (l.firstSlice ≤ i) && decide (i < l.firstSlice + l.sliceCount) then some l else none

/-- Is a slice in Table 09-5 and Table 07-5 (R297, R339)? -/
def Image.sliceInRange (m : Image) (mode : Nat) (s : Slice) : Bool :=
  decide (mode ≤ 1) && [1, 2, 4].contains s.replicas && s.tiles.all (fun t => decide (t < m.logicalTiles)) &&
    decide (s.rowFirst ≤ 511) && decide (1 ≤ s.rowCount) && decide (s.rowFirst + s.rowCount ≤ 512) &&
    decide (s.outFirst ≤ 239) && decide (1 ≤ s.outCount) && decide (s.outFirst + s.outCount ≤ 240) &&
    [64, 128, 256, 512].contains s.budget && decide (s.shift ≤ if s.dMode then 10 else 15) && decide (s.seamTol ≤ 15) && decide (s.busy ≤ 2)

/-- The elements of the input vector that PULSE bindings fill. -/
def Image.pulseElement (m : Image) (e : Nat) : Bool :=
  m.bindings.any (fun b => b.kind == 0 && b.source == 0 && decide (b.target ≤ e) && decide (e < b.target + b.count))

/-- How many rows of a slice are bound to PULSE. -/
def Image.pulseRows (m : Image) (s : Slice) (l : Layer) : Nat :=
  if l.input != 0xFFFF then 0 else ((List.range s.rowCount).filter (fun j => m.pulseElement (s.inFirst + j))).length

/-- Is a slice driven by PULSE inputs (R305)? -/
def Image.isPulse (m : Image) (s : Slice) : Bool :=
  match m.layers[s.layer]? with | none => false | some l => decide (0 < m.pulseRows s l)

/-- Tile results that a slice delivers (R413). -/
def Slice.delivers (s : Slice) (l : Layer) : Nat := if l.weightFormat = 2 then s.outCount / 2 else s.outCount

/-- Does a slice fit its layer (R297, R305, R427, "a slice reaches beyond")? -/
def Image.sliceFits (m : Image) (s : Slice) (l : Layer) : Bool :=
  (l.weightFormat != 2 || (s.outFirst % 2 == 0 && s.outCount % 2 == 0)) && decide (s.outBase + s.delivers l ≤ l.outCount) &&
    decide (s.inFirst + s.rowCount ≤ l.inCount) &&
    (m.pulseRows s l == 0 || (m.pulseRows s l == s.rowCount && !s.dMode && l.inFormat == 1 && decide (s.rowCount ≤ s.budget)))

/-- Do two slices overlap in rows and outputs (R298)? -/
def Slice.overlaps (s u : Slice) : Bool :=
  decide (s.rowFirst < u.rowFirst + u.rowCount) && decide (u.rowFirst < s.rowFirst + s.rowCount) &&
    decide (s.outFirst < u.outFirst + u.outCount) && decide (u.outFirst < s.outFirst + s.outCount)

/-- Do slices overlap on a logical tile, or does a slice name a tile twice? -/
def Image.slicesApart (m : Image) : Bool :=
  m.slices.zipIdx.all (fun s =>
    decide (s.1.tiles.Nodup) && m.slices.zipIdx.all (fun u => decide (u.2 ≤ s.2) || !s.1.tiles.any (fun t => u.1.tiles.contains t) || !s.1.overlaps u.1))

/-- The codes that a block gives the pairs of a slice; 0 in rows that it does not hold. -/
def sliceCodes (bs : List Byte) (m : Image) (s : Slice) (k : Nat) : List (List Int) :=
  let rows := match m.blocks[k]? with | none => [] | some b => blockRows bs m b
  (List.range s.rowCount).map (fun j =>
    match rows.find? (fun t => t.row == s.rowFirst + j) with
    | none => List.replicate s.outCount 0
    | some t => (t.codes.drop s.outFirst).take s.outCount)

/-- Do the blocks of a slice's replicas agree on the slice? -/
def replicasAgree (bs : List Byte) (m : Image) (s : Slice) : Bool :=
  match s.tiles with
  | [] => true
  | t :: ts => ts.all (fun u => decide (sliceCodes bs m s u = sliceCodes bs m s t))

/-- Is REPLICA_TILE of slice i 0xFF where unused (Table 09-5)? -/
def replicasUnused (bs : List Byte) (i : Nat) (s : Slice) : Bool :=
  (List.range 3).all (fun r => decide (r + 1 < s.replicas) || secField bs 2 (4 + 24 * i + 18 + r) 1 == 0xFF)

/-- Do the codes of block b on logical tile k stay within the image's pairs (R417)? -/
def codesWithin (bs : List Byte) (m : Image) (k b : Nat) : Bool :=
  let mine := m.slices.filter (fun s => s.tiles.contains k)
  match m.blocks[b]? with
  | none => true
  | some b => (blockRows bs m b).all (fun t => t.codes.zipIdx.all (fun c =>
      c.1 == 0 || mine.any (fun s => decide (s.outFirst ≤ c.2) && decide (c.2 < s.outFirst + s.outCount))))

/-- Is a block in Table 09-6? -/
def Block.inRange (b : Block) : Bool :=
  decide (b.rowFirst ≤ 511) && decide (1 ≤ b.rowCount) && decide (b.rowFirst + b.rowCount ≤ 512) && decide (b.darnReserve ≤ 8) &&
    b.dataOffset % 4 == 0

/-- Is a binding in Table 09-11 (R427)? REMOTE bindings with FRAME 1 are left to step 11 (R428). -/
def Binding.inRange (b : Binding) : Bool :=
  decide (b.frame ≤ 1) && decide (1 ≤ b.count) &&
    (match b.kind with
     | 0 => decide (b.source ≤ 2) && b.missing == 0 && decide (b.first + b.count ≤ 512) && (b.source != 0 || b.frame == 0)
     | 1 => b.source == 0 && decide (b.missing ≤ 1) && decide (b.first + b.count ≤ 256) && decide (1 ≤ b.node) && decide (b.node ≤ 64) &&
        decide (b.slot < 255)
     | 2 => b.source == 0 && b.missing == 0 && decide (b.first ≤ 23) && b.count == 1 && decide (b.detector ≤ 3)
     | _ => false) && (b.isFp || decide (b.target + b.count ≤ 8192))

/-- Do two bindings fill the same element (R426)? -/
def Binding.meets (b c : Binding) : Bool := b.isFp == c.isFp && decide (b.target < c.target + c.count) && decide (c.target < b.target + b.count)

/-- R426. -/
def Image.bindingsApart (m : Image) : Bool :=
  m.bindings.zipIdx.all (fun b => m.bindings.zipIdx.all (fun c => decide (c.2 ≤ b.2) || !b.1.meets c.1))

/-- R431: PASS does not decrease, and every tile of a slice that the plan names has its content by the layer's pass. -/
def Image.passesRight (m : Image) : Bool :=
  match m.reload with
  | none => true
  | some r =>
    decide ((m.layers.map (·.pass)).Pairwise (· ≤ ·)) &&
      m.slices.all (fun s => s.tiles.all (fun t =>
        !r.passes.any (fun p => p.any (fun e => e.1 == t)) ||
          (r.passes.take (((m.layers[s.layer]?).map (·.pass)).getD 0 + 1)).any (fun p => p.any (fun e => e.1 == t))))

/-- Is a reload plan in its ranges? -/
def Image.reloadInRange (m : Image) (source : Nat) : Bool :=
  match m.reload with
  | none => true
  | some r => decide (2 ≤ r.passes.length) && decide (r.passes.length ≤ 16) && decide (source ≤ 1) &&
      r.passes.all (fun p => p.all (fun e => decide (e.1 < m.logicalTiles)))

/-- Is a word a positive finite FP16? -/
def fpPositive (w : BitVec 16) : Bool := match fpOf w.toNat with | .fin v => decide (0 < v) | _ => false

/-- The learning section and the soft-head layer (R433, R568, Table 09-12). -/
def Image.learnRight (m : Image) (novelty : Nat) : Bool :=
  let heads := (m.layers.zipIdx.filter (fun l => l.1.softHead)).map (·.2)
  match m.learn with
  | none => heads.isEmpty
  | some l =>
    heads == [l.softLayer] &&
      (match m.layers[l.softLayer]?, (m.slices.filter (fun s => s.layer == l.softLayer)) with
       | some y, [s] =>
         !y.vector && y.weightFormat == 0 && y.sliceCount == 1 && s.replicas == 1 &&
           (match m.reload with | none => true | some r => !r.passes.any (fun p => p.any (fun e => s.tiles.contains e.1)))
       | _, _ => false) &&
      decide (novelty ≤ 1) && decide (l.update ≤ 3) && decide (4 ≤ l.forget) && decide (l.forget ≤ 24) && fpPositive l.freezeLevel &&
      fpPositive l.releaseLevel && fpPositive l.doubtLevel &&
      decide (fpKey (fpOf l.releaseLevel.toNat) ≤ fpKey (fpOf l.freezeLevel.toNat)) && fpPositive l.rate &&
      decide (fpKey (fpOf l.rate.toNat) ≤ 16777216)

/-! ### Descriptors (Tables 09-8 to 09-10, R424) -/

/-- What a descriptor reads and writes: (identity, bytes) of its reads, and of its write. MATVEC takes the matrix either way round, as
its buffers fit. -/
structure DescUse where
  reads : List (Nat × Nat)
  writes : List (Nat × Nat)
  deriving DecidableEq, Repr

/-- Bytes of a buffer as layer l sees it: the tile result buffer is that of the current layer. -/
def Image.lengthFor (m : Image) (l : Layer) (id : Nat) : Nat :=
  if id = 0x202 then (if l.vector then 0 else 2 * l.outCount)
  else if id = 0x203 then (if m.learn.isSome then 2 * m.headOutputs else 0)
  else m.bufferLength id

/-- Does MATVEC take a vector of c elements and give r (else a vector of r elements and c results)? -/
def Image.matvecRows (m : Image) (l : Layer) (d : Desc) : Bool :=
  decide (formatBytes d.inFormat d.param ≤ m.lengthFor l d.src2) && decide (2 * d.count ≤ m.lengthFor l d.dst)

/-- The first source element that a ZSCORE takes: BASELINE_FIRST where it reads the source and the state of the baseline. -/
def Image.zscoreFirst (m : Image) (d : Desc) : Nat :=
  match m.stats, m.learn with
  | some s, some l => if d.src = s.src ∧ d.src2 = s.dst then l.baseFirst else 0
  | _, _ => 0

/-- The operand ranges of a descriptor (Table 09-10). -/
def Image.descUse (m : Image) (l : Layer) (d : Desc) (firstStats : Bool) : DescUse :=
  let n := d.count
  let ib := formatBytes d.inFormat
  let ob := formatBytes d.outFormat
  match d.op with
  | 0x01 | 0x02 => { reads := [(d.src, ib n)], writes := [(d.dst, ob n)] }
  | 0x03 => { reads := [(d.src, ib n), (d.src2, ib n)], writes := [(d.dst, ib n)] }
  | 0x04 => { reads := [(d.src, ib n), (d.src2, ib (2 * n))], writes := [(d.dst, ib n)] }
  | 0x06 => { reads := [(d.src, ib n), (d.src2, ib 2)], writes := [(d.dst, ib n)] }
  | 0x05 | 0x07 | 0x08 | 0x09 | 0x0C => { reads := [(d.src, ib n)], writes := [(d.dst, ib n)] }
  | 0x0A | 0x0B => { reads := [(d.src, ib n)], writes := [(d.dst, ib ((n + d.param - 1) / max 1 d.param))] }
  | 0x0D => { reads := [(d.src, ib n)], writes := [(d.dst, 2 * d.param)] }
  | 0x0E => { reads := [(d.src, ib 1), (d.src2, 2 * n)], writes := [(d.dst, ib n)] }
  | 0x0F => { reads := [(d.src, ib n), (d.src2, 2 * n)], writes := [(d.dst, ib 1)] }
  | 0x10 =>
    let first := if firstStats then (m.learn.map (·.baseFirst)).getD 0 else 0
    { reads := [(d.src, 2 * max n (first + if firstStats then m.baselineCount else n))],
      writes := [(d.dst, 8 * max n (if firstStats then m.baselineCount else n))] }
  | 0x11 => { reads := [(d.src, 2 * (n + m.zscoreFirst d)), (d.src2, 8 * n)], writes := [(d.dst, 2 * n)] }
  | 0x12 =>
    if m.matvecRows l d then { reads := [(d.src, 2 * n * d.param), (d.src2, ib d.param)], writes := [(d.dst, 2 * n)] }
    else { reads := [(d.src, 2 * n * d.param), (d.src2, ib n)], writes := [(d.dst, 2 * d.param)] }
  | 0x13 => { reads := [(d.src, 2 * n), (d.src2, 2 * d.param), (0x201, 2 * n * m.headOutputs)], writes := [] }
  | 0x14 => { reads := [(d.src, 2 * n), (d.src2, 2 * n)], writes := [(d.dst, 2)] }
  | 0x15 => { reads := [(d.src, ib n)], writes := if d.dst = 0xFFFF then [] else [(d.dst, ib n)] }
  | 0x16 => { reads := [(d.src, 2)], writes := [] }
  | _ => { reads := [], writes := [] }

/-- Is an operation listed, with COUNT, ENGINE and PARAM in range? -/
def Desc.inRange (d : Desc) : Bool :=
  decide (1 ≤ d.op) && decide (d.op ≤ 0x16) && decide (1 ≤ d.count) && (decide (d.engine ≤ 3) || d.engine == 0xFF) &&
    (match d.op with
     | 0x02 => decide (1 ≤ d.param / 256) && decide (d.param % 256 ≤ 23)
     | 0x0A | 0x0B => decide (1 ≤ d.param) && decide (d.param ≤ 64)
     | 0x0D => decide (1 ≤ d.param) && decide (d.param ≤ 16)
     | 0x12 => decide (1 ≤ d.param)
     | 0x13 => decide (1 ≤ d.param) && (d.dst == 0x201 || d.dst == 0xFFFF)
     | 0x15 => decide (d.count ≤ 240)
     | _ => true)

/-- May a descriptor of layer i read the buffer: no layer's at or after its own (R424)? -/
def readAllowed (i id : Nat) : Bool := decide (0x100 ≤ id) || decide (id < i)

/-- May it write the buffer: its own layer's output too, which holds what its descriptors write there (R411; log entry 55)? -/
def writeAllowed (i id : Nat) : Bool := decide (0x100 ≤ id) || decide (id ≤ i)

/-- Is a buffer written by descriptors (Table 09-9)? -/
def writable (id : Nat) : Bool := decide (id < 0x200)

/-- R424. -/
def Image.descFits (m : Image) (i : Nat) (l : Layer) (k : Nat) (d : Desc) : Bool :=
  let u := m.descUse l d (m.descs.findIdx? (fun x => x.op == 0x10) == some k)
  d.inRange && (d.op != 0x13 || (decide (d.count ≤ m.headRows) && decide (d.param ≤ m.headOutputs))) &&
    u.reads.all (fun r => readAllowed i r.1 && decide (r.2 ≤ m.lengthFor l r.1)) &&
    u.writes.all (fun w => writeAllowed i w.1 && writable w.1 && decide (w.2 ≤ m.lengthFor l w.1))

/-- The descriptors of a layer, with their numbers. -/
def Image.layerDescs (m : Image) (l : Layer) : List (Nat × Desc) :=
  ((m.descs.zipIdx.drop l.descFirst).take l.descCount).map (fun x => (x.2, x.1))

/-- The descriptors that no layer lists. -/
def Image.strayDescs (m : Image) : List Desc :=
  (m.descs.zipIdx.filter (fun x => !m.layers.any (fun l => decide (l.descFirst ≤ x.2) && decide (x.2 < l.descFirst + l.descCount)))).map (·.1)

/-- R424 for a descriptor that no layer lists: what it says without a layer of its own, and so without a tile result buffer. -/
def Image.strayFits (m : Image) (d : Desc) : Bool :=
  d.inRange &&
    (match m.layers.head? with
     | none => true
     | some l =>
       let u := m.descUse l d false
       u.reads.all (fun r => r.1 == 0x202 || decide (r.2 ≤ m.lengthFor l r.1)) && u.writes.all (fun w => writable w.1 && decide (w.2 ≤ m.lengthFor l w.1)))

/-- The entries of the reload plan: logical tile and block. -/
def Image.planEntries (m : Image) : List (Nat × Nat) := match m.reload with | none => [] | some r => r.passes.flatten

/-- Step 4 of Table 09-13. -/
def imageShape (bs : List Byte) (m : Image) : Option Err :=
  if m.slices.any (fun s => s.replicas == 0) then some .argZero
  else
    need (m.headerInRange && decide (m.workspaces.length ≤ 256) && decide (1 ≤ m.descs.length) && decide (m.descs.length ≤ 4096) &&
      decide (1 ≤ m.bindings.length) && decide (m.bindings.length ≤ 64) && decide (m.logicalTiles ≤ m.blocks.length) &&
      decide (m.blocks.length ≤ 1024) &&
      m.layers.zipIdx.all (fun l => m.layerInRange (secField bs 1 (32 * l.2) 1) l.2 l.1 && m.inputFits l.1) &&
      m.slices.zipIdx.all (fun s => m.sliceInRange (secField bs 2 (5 + 24 * s.2) 1) s.1 &&
        (match m.layerOf s.2 s.1 with | none => false | some l => m.sliceFits s.1 l)) &&
      m.slices.zipIdx.all (fun s => replicasUnused bs s.2 s.1) && m.slicesApart && m.blocks.all (·.inRange) && m.slices.all (replicasAgree bs m) &&
      (List.range m.logicalTiles).all (fun k => codesWithin bs m k k) && m.planEntries.all (fun e => codesWithin bs m e.1 e.2) &&
      m.bindings.all (·.inRange) && m.bindingsApart && m.reloadInRange (secField bs 6 1 1) && m.passesRight &&
      m.learnRight (secField bs 7 1 1) &&
      m.layers.zipIdx.all (fun l => (m.layerDescs l.1).all (fun x => m.descFits l.2 l.1 x.1 x.2)) && m.strayDescs.all m.strayFits) .fitShape

/-! ## Step 5: E_FIT_FORMAT -/

/-- The formats of a descriptor (Table 09-10). -/
def Desc.formats (d : Desc) : Bool :=
  let i := d.inFormat
  let o := d.outFormat
  decide (i ≤ 5) && decide (o ≤ 5) &&
    (match d.op with
     | 0x01 => true
     | 0x02 => i == 3 && (o == 1 || o == 2)
     | 0x03 | 0x04 | 0x05 | 0x06 | 0x0A | 0x0B => (i == 3 || i == 5) && o == i
     | 0x07 | 0x08 | 0x09 | 0x0C | 0x11 | 0x13 | 0x14 => i == 5 && o == 5
     | 0x0D => (i == 3 || i == 5) && o == 3
     | 0x0E | 0x0F => (i == 1 || i == 2 || i == 3 || i == 5) && o == i
     | 0x10 | 0x16 => i == 5
     | 0x12 => (i == 1 || i == 3 || i == 5) && o == 5
     | 0x15 => i == 3 || i == 5
     | _ => true)

/-- The formats of a layer (R294, Table 09-4). -/
def Image.layerFormats (m : Image) (l : Layer) : Bool :=
  if l.vector then decide (l.inFormat ≤ 5) && l.weightFormat == 0
  else (l.weightFormat == 0 || l.weightFormat == 2) && (l.inFormat == 1 || l.inFormat == 2 || l.inFormat == 3) &&
    (l.inFormat != 3 || ((m.slices.drop l.firstSlice).take l.sliceCount).all (·.dMode))

/-- Step 5 of Table 09-13 (R403). -/
def Image.formatsRight (m : Image) : Bool :=
  m.layers.all m.layerFormats && m.descs.all (·.formats)

/-- Steps 1 to 5 of the fitting check (R442). -/
def imageJudged (bs : List Byte) (m : Image) (b : Basket) (key : Option (BitVec 256)) : Option Err :=
  if !imageWhole bs m then some .fitImage
  else if field bs 4 2 != 0x0100 then some .fitVersion
  else if !imageAuthentic bs m b key then some .fitAuth
  else (imageShape bs m).or (need m.formatsRight .fitFormat)

end Sys2Proof.Machine
end

