-- ==== Sys2Proof/Machine/Fitting.lean ====
section
/-!
DEFINITION. Steps 6 to 11 of the fitting check, loading and unloading of models (chapter 09).
-/

namespace Sys2Proof.Machine

/-! ## Step 6: placement and tiles -/

/-- Place the remaining logical tiles, each on the lowest-numbered tile that is granted, SPARE and placed by no model (R414). -/
def Dev.placeFree (d : Dev) (b : Basket) : Nat → List (Fin 48) → Option (List (Fin 48))
  | 0, placed => some placed
  | n + 1, placed =>
    match (List.finRange 48).find? (fun i =>
        (d.grants[b]).tiles[i] && (d.tiles[i]).state == TileState.spare && !placed.contains i && !d.tileUsed i) with
    | none => none
    | some i => d.placeFree b n (placed ++ [i])

/-- The placement of an image (R414, R330), none when a fixed tile is not granted, BLANK or RETIRED, or too few tiles are found. -/
def Dev.placement (d : Dev) (b : Basket) (m : Image) : Option (List (Fin 48)) :=
  if m.fixed then
    let place := (List.finRange 48).take m.logicalTiles
    if place.all (fun i => (d.grants[b]).tiles[i] && (d.tiles[i]).alive) then some place else none
  else d.placeFree b m.logicalTiles []

/-- The tiles that a model's reload plan presses. -/
def Model.reloadTiles (m : Model) : List (Fin 48) :=
  match m.image.reload with
  | none => []
  | some r => r.passes.flatMap (fun p => p.filterMap (fun e => m.place[e.1]?))

/-- Does a model overlap a slice of a loaded one, or does its reload plan name a tile that holds a slice of that one? -/
def Model.clashes (m o : Model) : Bool :=
  m.place.any (fun i => (m.slicesOn i).any (fun s => (o.slicesOn i).any (fun u => s.overlaps u))) ||
    m.reloadTiles.any (fun i => !(o.slicesOn i).isEmpty)

/-- Free darning pairs of a tile: good, with no valid entry. -/
def Tile.darningLeft (x : Tile) : Nat := ((List.range 8).filter (fun j => !at? x.darnBad j false && (at? x.remap j none).isNone)).length

/-- Step 6 of Table 09-13 over a placed model. -/
def Dev.tilesFit (d : Dev) (m : Model) : Bool :=
  !d.loaded.any (fun o => m.clashes o.2) &&
    m.place.zipIdx.all (fun p => match m.image.blocks[p.2]? with
      | none => true
      | some b => decide (b.darnReserve ≤ (d.tiles[p.1]).darningLeft))

/-! ## Step 9: time -/

/-- The frame budget F in units, as a ratio (R443). -/
def frameBudget (w : WringerSet) (cycleUs : Nat) : Nat × Nat :=
  match w.frame.source with
  | .time => (us w.frame.timeLen, 1)
  | .network => (us (w.frame.netLen * cycleUs), 1)
  | .angle =>
    let t := w.tachs[w.frame.tach]
    if w.frame.angleLen * 100 * sec 1 < t.maxRate * us t.fallback then (w.frame.angleLen * 100 * sec 1, t.maxRate) else (us t.fallback, 1)

/-- The frame budgets that a check is judged against: live and captured settings of both groups (R828). -/
def Dev.frameBudgets (d : Dev) : List (Nat × Nat) := d.wringerCopies.flatMap (fun w => d.cycleLengths.map (frameBudget w))

/-- Phases of a slice in the worst case (R444). -/
def Slice.phases (s : Slice) (l : Layer) : Nat :=
  let groups := (s.rowCount + s.budget - 1) / max 1 s.budget
  if s.dMode then planeBits l.inFormat * groups else if l.inFormat = 2 then 2 * groups else groups

/-- The worst-case tile time of a slice (R444). -/
def Slice.time (s : Slice) (l : Layer) : Time :=
  coreCycles ((s.rowCount + 63) / 64) + s.phases l * ns (if s.dMode then 120 else 800) + ns 200

/-- The worst-case time of the slices of a model that a tile holds, of one layer or of all. -/
def Model.tileTime (m : Model) (i : Fin 48) (layer : Option Nat) : Time :=
  ((m.slicesOn i).map (fun s =>
    if layer = none ∨ layer = some s.layer then (match m.image.layers[s.layer]? with | some l => s.time l | none => 0) else 0)).sum

/-- The worst-case tile time of every other reserved model's slices on a tile (other_t of R444). -/
def Dev.otherTime (d : Dev) (skip : Option Handle) (i : Fin 48) : Time :=
  ((d.loaded.filter (fun o => some o.1 != skip)).map (fun o => o.2.tileTime i none)).sum

/-- t_tile of a layer (R444); 0 for a VECTOR layer. -/
def Dev.layerTime (d : Dev) (skip : Option Handle) (m : Model) (k : Nat) : Time :=
  ((m.place.filter (fun i => (m.slicesOn i).any (fun s => s.layer == k))).map (fun i =>
    m.tileTime i (some k) + ns 40 + d.otherTime skip i)).foldl max 0

/-- The worst-case CORE cycles of a descriptor (Table 09-10). -/
def Desc.cycles (d : Desc) : Nat :=
  let b := (d.count + 31) / 32
  let c := (d.param + 31) / 32
  match d.op with
  | 0x01 | 0x02 | 0x03 => 2 * b + 16
  | 0x04 | 0x11 => 3 * b + 16
  | 0x05 | 0x06 => b + 16
  | 0x07 | 0x08 | 0x0E | 0x0F => 4 * b + 16
  | 0x09 => 6 * b + 64
  | 0x0A | 0x0B => d.param * b + 16
  | 0x0C => 8 * b + 64
  | 0x0D => d.param * b + 32
  | 0x10 => 4 * b + 32
  | 0x12 => d.count * c + 16
  | 0x13 => 2 * d.count * c + 16
  | 0x14 => 2 * b + 32
  | 0x15 => 4 * b + 64
  | _ => 16

/-- Rows that an entry of a reload plan presses. -/
def Image.blockRowCount (m : Image) (k : Nat) : Nat := match m.blocks[k]? with | none => 0 | some b => b.rowCount

/-- t_pass of a pass (R444). -/
def Dev.passTime (d : Dev) (m : Model) (qspi : Bool) (p : List (Nat × Nat)) : Time :=
  let rows := fun (e : Nat × Nat) => m.image.blockRowCount e.2
  let engine := fun (g : Nat) => ((p.filter (fun e => (m.place[e.1]?).any (fun i => i.val / 6 == g))).map (fun e => rows e * us 60 + us 250)).sum
  ((List.range 8).map engine).foldl max 0 +
    if qspi then ((p.map rows).sum * 512 * 768000 + d.pwr.qspiClock - 1) / max 1 d.pwr.qspiClock else 0

/-- W of R444. -/
def Dev.worstTime (d : Dev) (skip : Option Handle) (m : Model) : Time :=
  us (if m.image.bindings.any (·.isFp) then 12 else 3) +
    (match m.image.reload with | none => 0 | some r => (r.passes.map (d.passTime m r.qspi)).sum) +
    (m.image.layers.zipIdx.map (fun l => d.layerTime skip m l.2 + coreCycles ((m.image.layerDescs l.1).map (fun x => x.2.cycles)).sum)).sum

/-- Does W stay below the deadline of a model under a frame budget (R443, R450)? -/
def Image.meetsDeadline (m : Image) (w : Time) (f : Nat × Nat) : Bool :=
  if m.deadlineUs = 0 then decide (w * f.2 < f.1 * m.divider) else decide (w < us m.deadlineUs)

/-- Does a model keep its time under a frame budget (R443, step 9)? -/
def Image.keepsTime (m : Image) (w : Time) (f : Nat × Nat) : Bool := decide (us m.deadlineUs * f.2 ≤ f.1 * m.divider) && m.meetsDeadline w f

/-! ## Steps 8 and 10: tags, endurance -/

/-- The tag demand (R446). -/
def Image.tagDemand (m : Image) : Nat :=
  (m.layers.zipIdx.map (fun l => 2 * ((m.slices.filter (fun s => s.layer == l.2)).map (·.replicas)).sum + l.1.descCount)).foldl max 0 +
    m.bindings.length + (if m.reload.isSome then 8 else 0) + if m.learn.isSome then 1 else 0

/-- N_run (R447). -/
def Image.runsADay (m : Image) (f : Nat × Nat) : Nat := (sec 86400 * f.2 + f.1 * m.divider - 1) / max 1 (f.1 * m.divider)

/-- N_patch (R447). -/
def Image.patchesADay (m : Image) : Nat :=
  match m.learn with
  | none => 0
  | some l => match l.interval with | none => 1 | some i => (86400 + i - 1) / max 1 i

/-- R(t) and P(t) of R447. -/
def Model.reloadRows (m : Model) (i : Fin 48) : Nat :=
  match m.image.reload with
  | none => 0
  | some r => (r.passes.map (fun p => ((p.filter (fun e => m.place[e.1]? == some i)).map (fun e => m.image.blockRowCount e.2)).sum)).sum
def Model.patchRows (m : Model) (i : Fin 48) : Nat := if m.headTile == some i then m.image.headRows else 0

/-- The projection of a tile under a frame budget (R447). -/
def Dev.projection (d : Dev) (m : Model) (f : Nat × Nat) (i : Fin 48) : Nat :=
  let (h, tp) := d.horizons[m.basket]
  weight16 tp * ((if (d.tiles[i]).content == some (m.contentFor i) && !(d.tiles[i]).bootBarred then 0 else 512) +
    h * (m.image.runsADay f * m.reloadRows i + m.image.patchesADay * m.patchRows i))

/-- What other models have reserved on a tile (R447). -/
def Dev.reservedOn (d : Dev) (skip : Option Handle) (i : Fin 48) : Nat :=
  ((d.loaded.filter (fun o => some o.1 != skip)).map (fun o => ((o.2.projection.filter (fun p => p.1 == i)).map (·.2)).sum)).sum

/-- The margin of a tile as MD_CHECK reports it: its remaining budget less other models' projections, 0 where they exceed it. -/
def Dev.tileMargin (d : Dev) (i : Fin 48) : Nat := (d.tiles[i]).remaining - d.reservedOn none i

/-! ## Step 11: bindings -/

/-- Is a slot a static data slot of the committed schedule, and of a captured one (Table 12-4, R828)? -/
def Dev.dataSlot (d : Dev) (slot : Nat) : Bool :=
  (d.link.live :: (match d.link.pending with | none => [] | some p => [p.copy])).all (fun c =>
    c.entries.any (fun e => e.2.kind == 0 && e.2.slot == slot))

/-- Is a band enabled and read out as a binding needs it, in every copy (R177, R828)? -/
def Dev.bandBound (d : Dev) (source f : Nat) : Bool :=
  d.wringerCopies.all (fun w => (w.planOf (f / 32)).on (f % 32) &&
    (match w.vibs.toList[f / 32]? with | none => false | some v => v.count == (source == 2)))

/-- Step 11 of Table 09-13 for one binding. -/
def Dev.binds (d : Dev) (b : Basket) (x : Binding) : Bool :=
  let g := d.grants[b]
  match x.kind with
  | 0 => (List.range x.count).all (fun i => at? g.features (x.first + i) false && d.bandBound x.source (x.first + i))
  | 1 => at? g.slots x.slot false && x.frame == 0 && d.wringerCopies.all (fun w => w.frame.source == .network) && d.dataSlot x.slot
  | _ =>
    at? g.channels x.first false &&
      (match (d.rinse.chains.toList[x.first]?).map (·.detSet) with
       | none => false
       | some s => match x.detector with | 0 => s.peakOn | 1 => s.rmsOn | 2 => s.envOn | _ => s.hitsOn)

/-! ## The check -/

/-- The usable entry for an image (R531), and the unusable one of its MODEL_ID. -/
def Dev.entryFor (d : Dev) (b : Basket) (m : Image) : Option Entry × Bool :=
  match ((d.snapshot d.loaded d.store).area b).1.find? (fun e => e.modelId == m.modelId) with
  | none => (none, false)
  | some e =>
    if e.baseCount == m.baselineCount && e.headRows == m.headRows && e.headOutputs == m.headOutputs then (some e, false) else (none, true)

/-- The soft head's codes in the image: those of the block of its tile, row-major. -/
def imageCodes (bs : List Byte) (m : Image) : List Int :=
  match m.headSlice with
  | none => []
  | some s => (match s.tiles.head? with | none => [] | some k => (sliceCodes bs m s k).flatten)

/-- The learning side of a model as it is loaded (R532, R536, R538, R546). -/
def learnAtLoad (spec : LearnSpec) (e : Option Entry) (codes : List Int) : Learn :=
  let fresh : Learn :=
    { state := .commissioning, winStart := none, winLen := spec.commission * 1000000000, doubt := false, pendingPatch := false, runs := 0,
      doubtful := 0, n := 0, committed := 0, discarded := 0, noChange := 0, badLabels := 0, seqDone := 0, freezeFrom := none,
      releaseFrom := none, elapsed := 0, lastTr := none, patchDue := none, patchNumber := 0, patchStep := none, codes := codes,
      newCodes := codes, imageCodes := codes, recommission := false,
      base := (e.map (·.baseline)).getD (List.replicate (8 * spec.baseCount) 0), log := [] }
  match e with
  | none => fresh
  | some e =>
    { fresh with
      state := e.state, doubt := e.doubt, pendingPatch := e.pending, runs := e.runs, doubtful := e.doubtful, n := e.n, seqDone := e.labelSeq,
      elapsed := e.elapsed * 1000000000, patchNumber := e.number, codes := e.codes, newCodes := e.codes, log := e.log,
      winLen := match e.state with
        | .commissioning => (spec.commission - e.stateTime) * 1000000000
        | .adopting => e.stateTime * 1000000000
        | _ => 0 }

/-- The model of an image as a check places it. -/
def modelAt (b : Basket) (m : Image) (place : List (Fin 48)) (qspi : Bool) (addr unit : Nat) (tag : Byte) (learn : Option Learn) : Model :=
  { basket := b, image := m, state := .loading, imageAddr := addr, qspi := qspi, firstUnit := unit, unitCount := (m.demand + 65535) / 65536,
    wUs := 0, wUnits := 0, tags := m.tagDemand, margin := 0, projection := [], place := place, toPress := place, loadFail := none, loadTag := tag,
    firstFrame := 0, lastRun := 0, runsDone := 0, runsEarly := 0, runsMissed := 0, update := 0, lastResult := 0, verdict := 0, novelty := 0,
    learn := learn, run := none, leaving := [] }

/-- The figures of a placed model: W, tag demand and margins. -/
def Dev.figures (d : Dev) (m : Model) : Model :=
  let w := d.worstTime none m
  let f := (d.frameBudgets.head?).getD (1, 1)
  { m with wUnits := w, wUs := (w + us 1 - 1) / us 1, margin := ((m.place.map d.tileMargin).foldl min enduranceBudget) / 8192,
           projection := m.place.map (fun i => (i, d.projection m f i)) }

/-- Steps 7 to 11 of Table 09-13. -/
def Dev.judgePlaced (d : Dev) (m : Model) : Option Err :=
  firstErr
    [need ((List.range m.unitCount).all (fun i => (d.grants[m.basket]).unit (m.firstUnit + i)) &&
        !d.loaded.any (fun o => o.2.unitsMeet m.firstUnit m.unitCount)) .fitSram,
     need (decide (m.tags ≤ d.freeTags m.basket)) .fitTags,
     need (d.frameBudgets.all (m.image.keepsTime m.wUnits)) .fitTime,
     need (d.frameBudgets.all (fun f => m.place.all (fun i => decide (d.projection m f i + d.reservedOn none i ≤ (d.tiles[i]).remaining)))) .fitEndurance,
     need (m.image.bindings.all (d.binds m.basket)) .fitBinding]

/-- The outcome of a fitting check: its refusal, and the model as far as it was placed. -/
structure Fit where
  refused : Option Err
  model : Option Model
  entry : Option Entry
  mismatch : Bool
  bytes : List Byte
  deriving DecidableEq, Repr

/-- A check that stops before it has placed the image. -/
def Fit.stop (e : Err) (bs : List Byte) : Fit := { refused := some e, model := none, entry := none, mismatch := false, bytes := bs }

/-- The fitting check (R442) of the image that a command names. -/
def Dev.fit (d : Dev) (x : Ctx) : Fit :=
  let n := x.arg32 3
  let qspi := x.argBit 0 0
  if n < 128 ∨ 16777216 < n then Fit.stop .fitImage []
  else
    let bs := if qspi then d.flashBytes (x.arg32 1) n else d.sram.bytes (x.arg32 1) n
    let im := readImage bs
    match imageJudged bs im x.b (x.chip.keys[x.b]) with
    | some e => Fit.stop e bs
    | none =>
      match d.placement x.b im with
      | none => Fit.stop .fitTiles bs
      | some place =>
        let (entry, mismatch) := if im.learn.isSome then d.entryFor x.b im else (none, false)
        let learn := im.learn.map (fun s => learnAtLoad s entry (imageCodes bs im))
        let m := d.figures (modelAt x.b im place qspi (x.arg32 1) (x.arg 5) x.tag learn)
        { refused := if d.tilesFit m then d.judgePlaced m else some .fitTiles, model := some m, entry := entry, mismatch := mismatch, bytes := bs }

/-! ## Loading -/

/-- R553: may the basket's patch store take the model? -/
def Dev.storeTakes (d : Dev) (m : Model) (entry : Option Entry) : Bool :=
  match m.image.learn with
  | none => true
  | some _ =>
    let demand := storeDemand m.image.baselineCount m.image.headRows m.image.headOutputs
    let held := (d.store.area m.basket).1.length
    (entry.isSome || (decide (demand ≤ d.freePatchQuota m.basket) && decide (demand ≤ d.store.freeBank))) && decide (held < 8)

/-- The FP16 words of codes. -/
def codeWords (codes : List Int) : List Byte := codes.flatMap (fun c => leBytes 2 (fpOfRatio c 1))

/-- Copy the reload blocks of an image into their staging (R445). -/
def Dev.stageBlocks (d : Dev) (m : Model) (bs : List Byte) : List Nat → Dev
  | [] => d
  | k :: ks =>
    match m.image.blocks[k]? with
    | none => d.stageBlocks m bs ks
    | some b => (d.memWrite (m.stagedBlock k) ((bs.drop (m.image.weights + b.dataOffset)).take (256 * b.rowCount))).stageBlocks m bs ks

/-- What a load writes into memory: the run status record of zeros (Table 10-4), zeros for every HOLD_LAST block until one is delivered
("At the edges" of chapter 09), the baseline (R512, R536), the soft head (R538) and an SRAM reload's blocks. -/
def Dev.loadBuffers (d : Dev) (h : Handle) (m : Model) (f : Fit) : Dev :=
  let d := d.memWrite (0x70000 + 0x400 * h.val) (List.replicate 1024 0)
  let d := d.memWrite (m.bufferAddr m.image.holdBuffer) (List.replicate (256 * (m.image.bindings.filter (·.holds)).length) 0)
  let d := match m.learn with
    | none => d
    | some l =>
      let d := if m.image.stats.isSome then d.memWrite (m.addrOf m.image.baselineId) l.base else d
      d.memWrite (m.bufferAddr m.image.headBuffer) (codeWords l.codes ++ List.replicate (2 * l.codes.length) 0)
  match m.image.reload with
  | some r => if r.qspi then d else d.stageBlocks m f.bytes m.image.reloadBlocks
  | none => d

/-- Queue the LOADs of a model (R437); a worn tile fails the load (R358, R439). -/
def Dev.queueLoads (d : Dev) (h : Handle) (m : Model) : List (Fin 48) → Dev
  | [] => d
  | i :: is =>
    let op := PressOp.of .load m.basket m.loadTag (some h) (.block h i.val) (List.range 512) d.now
    if d.worn (d.tiles[i]) (op.judgedRows (d.servedBy i op)) then d.opRefused i op 1 .tileWorn else (d.queueOp i op).queueLoads h m is

/-- Reserve a model that has passed (R437). -/
def Dev.reserve (d : Dev) (h : Handle) (m : Model) (f : Fit) : Dev :=
  let d := d.onModels (fun x => upd x h (fun _ => some m))
  let d := d.loadBuffers h m f
  let d := d.onStore (fun s => d.snapshot d.loaded s)
  let d := if f.mismatch then
      d.postTo m.basket { event := .learnMismatch, subject := h.val, data0 := m.image.modelId.toNat % 65536, data1 := m.image.modelId.toNat / 65536 }
    else d
  d.queueLoads h m m.place

/-- The models of a basket, and of the device. -/
def Dev.modelCount (d : Dev) (b : Basket) : Nat := (d.loaded.filter (fun m => m.2.basket == b)).length

/-- The lowest free handle (R434). -/
def Dev.freeHandle (d : Dev) : Option Handle := (List.finRange 16).find? (fun h => (d.models[h]).isNone)

/-- The image and the first unit that MD_LOAD and MD_CHECK name exist and are held (R738, R812). -/
def imageNamed (x : Ctx) (d : Dev) : Bool :=
  (x.grants d).unit (x.arg 5) && (x.argBit 0 0 || x.memory d (x.arg32 1) (x.arg32 3))

/-- The end of a long command whose action has ended: a boot record's entry completes at once (R856), any other at its completing edge. -/
def Dev.longEnd (d : Dev) (x : Ctx) (code : Word) (e : Option Err) (results : List Word) : Dev × Reply :=
  if x.boot then (d, match e with | some e => .refuse e | none => .ok results)
  else (d.finish x.b code (match e with | some e => refusal e | none => success results), .wait)

/-- An image in QSPI flash whose length lies in range is read as the fitting check begins (R434, R868, Table 09-13). -/
def Dev.readImageFlash (d : Dev) (x : Ctx) : Dev :=
  if x.argBit 0 0 && decide (128 ≤ x.arg32 3) && decide (x.arg32 3 ≤ 16777216) then d.readFlash (x.arg32 1) (x.arg32 3) else d

/-- MD_LOAD (R434 to R437, R553). -/
def cmdMdLoad : Command :=
  { code := 0x0601, long := true, names := imageNamed,
    state := fun x d => need (decide (d.modelCount x.b < 4) && d.freeHandle.isSome) .quota,
    act := fun x d =>
      let f := d.fit x
      let e := d.readImageFlash x
      match f.refused, f.model, d.freeHandle with
      | some c, _, _ => e.longEnd x 0x0601 (some c) []
      | none, some m, some h =>
        if d.storeTakes m f.entry then (e.reserve h m f).longEnd x 0x0601 none [BitVec.ofNat 16 h.val]
        else e.longEnd x 0x0601 (some .quota) []
      | none, _, _ => e.longEnd x 0x0601 (some .quota) [] }

/-- A figure as MD_CHECK returns it (R831). -/
def saturate16 (v : Nat) : Word := BitVec.ofNat 16 (min 0xFFFF v)

/-- The results of MD_CHECK (R440, R831; log entry 19). -/
def Dev.checkResults (d : Dev) (f : Fit) : List Word :=
  (match f.refused with | some e => e.code | none => 0) ::
    (match f.model with
     | some m => [saturate16 m.wUs, BitVec.ofNat 16 m.tags, saturate16 m.margin]
     | none => (List.range 3).map (fun i => BitVec.ofNat 16 (Config.noFigure (d.free + i))))

/-- MD_CHECK (R440, R831). -/
def cmdMdCheck : Command :=
  { code := 0x0602, long := true, names := imageNamed,
    act := fun x d => ((d.readImageFlash x).onFree (fun f => f + 3)).longEnd x 0x0602 none (d.checkResults (d.fit x)) }

/-- The handle that ARG0 names. -/
def Ctx.handleArg (x : Ctx) : Handle := Fin.ofNat 16 (x.arg 0)

/-- MD_UNLOAD (R441). -/
def cmdMdUnload : Command :=
  { code := 0x0603, names := fun x d => x.handle d (x.arg 0),
    state := fun x d => need (match d.model x.handleArg with | some m => m.state == .loaded | none => false) .state,
    act := fun x d => (d.onModel x.handleArg (fun m => { m with state := .unloading }), .ok []) }

/-- MD_STATUS states, in the order of Table 16-3. -/
def ModelState.number : ModelState → Nat
  | .loading => 0 | .loaded => 1 | .unloading => 2

/-- The items of MD_STATUS. -/
def Dev.mdReport (d : Dev) (h : Handle) : List Byte :=
  match d.model h with
  | none => []
  | some m =>
    w32 m.image.modelId.toNat ++ w32 m.state.number ++ w32 m.firstUnit ++ w32 m.unitCount ++ w32 m.wUs ++ w32 m.tags ++ w32 m.margin ++
      w32 (match m.learn with | some l => l.state.number | none => Config.noLearnState d.free)

/-- MD_STATUS (R440). -/
def cmdMdStatus : Command :=
  blockCommand 0x0604 false (fun x d => x.handle d (x.arg 0)) (fun _ _ => none) (fun x d => d.mdReport x.handleArg)

/-- MD_SET_HORIZON (R448, R449). -/
def cmdMdSetHorizon : Command :=
  { code := 0x0605, sup := true, zero := fun x _ => x.arg 1 == 0 || x.arg 2 == 0,
    range := fun x _ => argRange (decide (x.arg 0 < 4) && decide (x.arg 1 ≤ 18262) && decide (25 ≤ x.arg 2) && decide (x.arg 2 ≤ 140)),
    act := fun x d => (d.onHorizons (fun h => updAt h (x.arg 0) (fun _ => (x.arg 1, x.arg 2))), .ok []) }

/-! ## Unloading -/

/-- Does an operation of the model hold a tile? -/
def Dev.opOf (d : Dev) (h : Handle) : Bool :=
  d.tiles.toList.any (fun x => match x.op with | some o => o.handle == some h | none => false)

/-- A model goes: its entry stays as it stands, its tiles that hold no other model's slices become SPARE (R441, R554). -/
def Dev.unload (d : Dev) (h : Handle) : Dev :=
  let d := d.onStore (fun s => d.snapshot (d.loaded.filter (fun m => m.1 == h)) s)
  let d := d.onModels (fun m => upd m h (fun _ => none))
  (d.onTiles (fun t => vmap t (fun i x =>
      let y := x.detach h
      if y.state == TileState.ready && !d.tileUsed (Fin.ofNat 48 i) then { y with state := .spare } else y)))

/-- UNLOAD_TAKES_EFFECT (R441): at an inference boundary, with no run in flight and no operation of the model on a tile. -/
def execUnloadTakesEffect (t : Time) (h : Handle) (s : State) : Host.Outcome State Fault Refusal :=
  onDev s t (fun d =>
    match d.model h with
    | none => d
    | some m => if m.state == .unloading && m.run.isNone && !d.opOf h then d.unload h else d)

def execMdLoad (t : Time) (b : Basket) (s : State) : Host.Outcome State Fault Refusal := hostCommand cmdMdLoad t b s
def execMdCheck (t : Time) (b : Basket) (s : State) : Host.Outcome State Fault Refusal := hostCommand cmdMdCheck t b s
def execMdUnload (t : Time) (b : Basket) (s : State) : Host.Outcome State Fault Refusal := hostCommand cmdMdUnload t b s
def execMdStatus (t : Time) (b : Basket) (s : State) : Host.Outcome State Fault Refusal := hostCommand cmdMdStatus t b s
def execMdSetHorizon (t : Time) (b : Basket) (s : State) : Host.Outcome State Fault Refusal := hostCommand cmdMdSetHorizon t b s

end Sys2Proof.Machine
end

