-- ==== Sys2Proof/Machine/Vector.lean ====
section
/-!
DEFINITION. The descriptor operations of the vector engines (Table 09-10) and the equations of chapter 11 that they carry out.
-/

namespace Sys2Proof.Machine

/-! ## Numbers (Table 09-1) -/

/-- A value: NaN, an infinity, or m × 2^e. -/
inductive Val where
  | nan
  | inf (neg : Bool)
  | fin (m e : Int)
  deriving DecidableEq, Repr

/-- Round m × 2^s to an integer, ties to even. -/
def roundShift (m s : Int) : Int :=
  let a : Int := if 0 ≤ s then (m.natAbs * 2 ^ s.toNat : Nat) else (divEven m.natAbs (2 ^ (-s).toNat) : Nat)
  if m < 0 then -a else a

/-- The FP16 word nearest to a value (R18). -/
def Val.fp : Val → Nat
  | .nan => 0x7E00
  | .inf neg => if neg then 0xFC00 else 0x7C00
  | .fin m e => if 0 ≤ e + 24 then fpRound (m * 2 ^ (e + 24).toNat) 1 else fpRound m (2 ^ (-(e + 24)).toNat)

/-- An integer of a range nearest to a value, saturated; a NaN has no stated value (log entry 20). -/
def Val.int (lo hi : Int) (free : Nat) : Val → Int
  | .nan => lo + ((free % (hi - lo + 1).toNat : Nat) : Int)
  | .inf neg => if neg then lo else hi
  | .fin m e => if 200 < e then (if m < 0 then lo else if m = 0 then 0 else hi) else clampInt lo hi (roundShift m e)

/-- The value of a decoded FP16 word. -/
def Fp.val : Fp → Val
  | .nan => .nan
  | .inf neg => .inf neg
  | .fin v => .fin v (-24)

/-- Byte i of a list. -/
def byteAt (bs : List Byte) (i : Nat) : Nat := ((bs[i]?).getD 0).toNat

/-- Element i of a buffer in a format. -/
def element (format : Nat) (bs : List Byte) (i : Nat) : Val :=
  match format with
  | 0 => .fin (signed 4 (byteAt bs (i / 2) / 16 ^ (i % 2) % 16)) 0
  | 1 => .fin (byteAt bs i) 0
  | 2 => .fin (signed 8 (byteAt bs i)) 0
  | 3 => .fin (signed 16 (byteAt bs (2 * i) + 256 * byteAt bs (2 * i + 1))) 0
  | 4 => .fin (signed 8 (byteAt bs (34 * (i / 32) + 2 + i % 32))) (signed 8 (byteAt bs (34 * (i / 32))))
  | _ => (fpOf (byteAt bs (2 * i) + 256 * byteAt bs (2 * i + 1))).val

/-- n elements of a buffer. -/
def elements (format : Nat) (bs : List Byte) (n : Nat) : List Val := (List.range n).map (element format bs)

/-- Split a list into groups of k. -/
def chunks {α : Type} (k : Nat) : Nat → List α → List (List α)
  | 0, _ => []
  | n + 1, l => if l.isEmpty then [] else l.take k :: chunks k n (l.drop k)

/-- The exponent of a BS8 block: the smallest at which every mantissa fits. -/
def bs8Exponent (vs : List Val) : Int :=
  (((List.range 256).map (fun (i : Nat) => Int.ofNat i - 128)).find? (fun e => vs.all (fun v => match v with
    | .fin m k => decide (-128 ≤ roundShift m (k - e)) && decide (roundShift m (k - e) ≤ 127)
    | _ => true))).getD 127

/-- One block of 32 BS8 elements. -/
def bs8Block (free : Nat → Nat) (first : Nat) (vs : List Val) : List Byte :=
  let e := bs8Exponent vs
  BitVec.ofInt 8 e :: 0 :: (vs ++ List.replicate (32 - vs.length) (Val.fin 0 0)).zipIdx.map (fun (v : Val × Nat) =>
    BitVec.ofInt 8 (Val.int (-128) 127 (free (first + v.2)) (match v.1 with | .fin m k => Val.fin m (k - e) | x => x)))

/-- Pairs of 4-bit codes, low nibble first. -/
def nibbles : List Nat → List Byte
  | [] => []
  | [a] => [BitVec.ofNat 8 a]
  | a :: b :: r => BitVec.ofNat 8 (a + 16 * b) :: nibbles r

/-- The bytes of values in a format; `free` gives what is not stated. -/
def encodeVals (format : Nat) (free : Nat → Nat) (vs : List Val) : List Byte :=
  let ints := fun (lo hi : Int) => vs.zipIdx.map (fun v => v.1.int lo hi (free v.2))
  match format with
  | 0 => nibbles ((ints (-8) 7).map (fun v => (v % 16).toNat))
  | 1 => (ints 0 255).map (fun v => BitVec.ofInt 8 v)
  | 2 => (ints (-128) 127).map (fun v => BitVec.ofInt 8 v)
  | 3 => (ints (-32768) 32767).flatMap (leInt 2)
  | 4 => ((chunks 32 vs.length vs).zipIdx.map (fun c => bs8Block free (32 * c.2) c.1)).flatten
  | _ => vs.flatMap (fun v => leBytes 2 v.fp)

/-- FP16 words and INT16 values of a buffer. -/
def wordsOf (bs : List Byte) (n : Nat) : List Nat := (List.range n).map (fun i => byteAt bs (2 * i) + 256 * byteAt bs (2 * i + 1))
def fpsOf (bs : List Byte) (n : Nat) : List Fp := (wordsOf bs n).map fpOf
def intsOf (bs : List Byte) (n : Nat) : List Int := (wordsOf bs n).map (signed 16)

/-- The bytes of words, and of saturated INT16 results (chapter 10, "Vector engines"). -/
def wordsBytes (ws : List Nat) : List Byte := ws.flatMap (leBytes 2)
def int16Bytes (vs : List Int) : List Byte := vs.flatMap (fun v => leInt 2 (clampInt (-32768) 32767 v))

/-! ## Exact sums -/

/-- A sum under way, in units of 2^-48. -/
structure Sum where
  nan : Bool
  pos : Bool
  neg : Bool
  value : Int
  deriving DecidableEq, Repr

def Sum.zero : Sum := { nan := false, pos := false, neg := false, value := 0 }

/-- Add an infinity of a sign. -/
def Sum.addInf (s : Sum) (neg : Bool) : Sum := if neg then { s with neg := true } else { s with pos := true }

/-- Add a value in units of 2^-24. -/
def Sum.add (s : Sum) : Fp → Sum
  | .nan => { s with nan := true }
  | .inf neg => s.addInf neg
  | .fin v => { s with value := s.value + v * 16777216 }

/-- Add a product. -/
def Sum.addMul (s : Sum) : Fp → Fp → Sum
  | .nan, _ => { s with nan := true }
  | _, .nan => { s with nan := true }
  | .fin a, .fin b => { s with value := s.value + a * b }
  | .inf neg, .fin b => if b = 0 then { s with nan := true } else s.addInf (neg != decide (b < 0))
  | .fin a, .inf neg => if a = 0 then { s with nan := true } else s.addInf (neg != decide (a < 0))
  | .inf n, .inf m => s.addInf (n != m)

/-- The word of an infinite or undefined sum. -/
def Sum.special (s : Sum) : Option Nat :=
  if s.nan || (s.pos && s.neg) then some 0x7E00 else if s.pos then some 0x7C00 else if s.neg then some 0xFC00 else none

/-- The FP16 word of a sum over a whole divisor, rounded once. -/
def Sum.word (s : Sum) (den : Nat) : Nat := match s.special with | some w => w | none => fpRound s.value (den * 16777216)

/-- The same, with finite sums saturated to ±65 504. -/
def Sum.wordSat (s : Sum) (den : Nat) : Nat := match s.special with | some w => w | none => fpRoundSat s.value (den * 16777216)

/-! ## Elementwise operations -/

/-- FP16 ADD: a finite sum saturates to ±65 504. -/
def fpAdd (a b : Fp) : Nat := ((Sum.zero.add a).add b).wordSat 1

/-- FP16 x × s + o, rounded once. -/
def fpScale (x s o : Fp) : Nat := ((Sum.zero.addMul x s).add o).word 1

/-- The smaller and the larger of two FP16 values; NaN stays NaN. -/
def fpMinMax (max : Bool) (a b : Fp) : Fp :=
  if a = .nan ∨ b = .nan then .nan else if decide (fpKey a ≤ fpKey b) == max then b else a

/-- The number of n ÷ k windows, the last one as long as what is left. -/
def windows {α : Type} (k : Nat) (l : List α) : List (List α) := chunks (max 1 k) l.length l

/-- NORM: mean and standard deviation over the n elements; undefined with a deviation of 0 (log entry 20). -/
def normOf (free : Nat → Nat) (xs : List Fp) : List Nat :=
  let n := xs.length
  if xs.any (fun x => match x with | .fin _ => false | _ => true) then List.replicate n 0x7E00
  else
    let vs := xs.map fpKey
    let s := vs.sum
    let v : Int := n * (vs.map (fun x => x * x)).sum - s * s
    if v ≤ 0 then (List.range n).map (fun i => free i % 65536)
    else vs.map (fun x => divSqrt ((n * x - s) * 16777216) v.toNat 1)

/-- SOFTMAX; −∞ has probability 0, and a NaN or +∞ leaves no probability. -/
def softmaxWords (xs : List Fp) : List Nat :=
  if xs.any (fun x => x == .nan || x == .inf false) || xs.all (fun x => x == .inf true) then List.replicate xs.length 0x7E00
  else softmaxOf (xs.map (fun x => match x with | .fin v => v | _ => -1099511627776))

/-- Does element (key, index) rank before another: higher, or lower index on a tie? -/
def ranksBefore (a b : Int × Nat) : Bool := decide (b.1 < a.1) || (a.1 == b.1 && decide (a.2 ≤ b.2))

/-- Insert by rank. -/
def rankInsert (x : Int × Nat) : List (Int × Nat) → List (Int × Nat)
  | [] => [x]
  | y :: ys => if ranksBefore x y then x :: y :: ys else y :: rankInsert x ys

/-- Indices from the highest score down. -/
def ranking (keys : List Int) : List Nat := ((keys.zipIdx).foldr rankInsert []).map (·.2)

/-- The top-1 index of a list of scores. -/
def topOne (keys : List Int) : Nat := (ranking keys).headD 0

/-! ## STATS, ZSCORE (R512 to R515) -/

/-- MEAN and VAR of a baseline element. -/
def statAt (bs : List Byte) (i : Nat) : Int × Nat := (signed 32 (field bs (8 * i) 4), field bs (8 * i + 4) 4)

/-- One update of a baseline element (R513, R514): α = 1 ÷ den. -/
def statUpdate (den : Nat) (x : Fp) (s : Int × Nat) : Int × Nat :=
  match x with
  | .fin v =>
    let k := max 1 den
    let d := v - s.1 * 256
    let mean := divRoundAway (s.1 * 256 * k + d) (256 * k)
    let var := divRoundAway ((k - 1 : Nat) * ((s.2 * 2 ^ 32 * k : Nat) + d * d)) (k * k * 2 ^ 32)
    (clampInt (-2147483648) 2147483647 mean, min 4294967295 var.toNat)
  | _ => s

/-- The bytes of a baseline element. -/
def statBytes (s : Int × Nat) : List Byte := leInt 4 s.1 ++ leBytes 4 s.2

/-- ZSCORE of one element (R515). -/
def zscoreOf (x : Fp) (s : Int × Nat) : Nat :=
  match x with
  | .nan => 0x7E00
  | .inf neg => if neg then 0xFBFF else 0x7BFF
  | .fin v =>
    let w := divSqrt (v - s.1 * 256) (max s.2 256) 65536
    if w % 0x8000 = 0x7C00 then w / 0x8000 * 0x8000 + 0x7BFF else w

/-! ## The soft head (R519, R523) -/

/-- The target class of the label view (R523). -/
def labelClass (spec : LearnSpec) (label : Option (BitVec 32 × Nat)) (top : Nat) : Option Nat :=
  match spec.update, label with
  | 1, some l => some l.2
  | 2, _ => some top
  | 3, some l => some l.2
  | 3, none => some top
  | _, _ => none

/-- The label view (R523). -/
def labelView (outputs : Nat) (class_ : Option Nat) : List Byte :=
  (List.range outputs).flatMap (fun j => leBytes 2 (if class_ = some j then 0x3C00 else 0))

/-- W after one gradient step, saturated to −15 to +15 (R519). -/
def gradWeight (w rate g : Fp) : Nat :=
  let neg := match g with | .nan => Fp.nan | .inf n => .inf !n | .fin v => .fin (-v)
  let s := (Sum.zero.addMul rate neg).add w
  match s.special with
  | some 0x7E00 => 0x7E00
  | some x => if x = 0x7C00 then 0x4B80 else 0xCB80
  | none => fpRound (clampInt (-15 * 2 ^ 48) (15 * 2 ^ 48) s.value) 16777216

/-- GRAD_STEP (R519): the new W and G of the elements [i][j], i below r and j below c, of the head's rows × outs elements, W then G row-major. -/
def gradStep (buffer : List Byte) (rows outs r c : Nat) (rate : Fp) (x delta : List Fp) : List Byte :=
  let n := rows * outs
  let old := wordsOf buffer (2 * n)
  let steps := fun (k : Nat) => decide (k / max 1 outs < r) && decide (k % max 1 outs < c)
  let g := fun (k : Nat) => (Sum.zero.addMul ((x[k / max 1 outs]?).getD .nan) ((delta[k % max 1 outs]?).getD .nan)).word 1
  let w := (List.range n).map (fun k => let v := (old[k]?).getD 0; if steps k then gradWeight (fpOf v) rate (fpOf (g k)) else v)
  wordsBytes (w ++ (List.range n).map (fun k => if steps k then g k else (old[n + k]?).getD 0))

/-! ## A descriptor -/

/-- What a descriptor does: bytes written at addresses, and what it leaves in its run. -/
structure DescOut where
  writes : List (Nat × List Byte)
  run : Run
  deriving DecidableEq, Repr

/-- How many tile results the tile result buffer holds in a layer: those of the layer, or, in a VECTOR layer, of the last TILE layer before it
(R411; log entry 55). -/
def Image.resultsAt (m : Image) (r : Run) (l : Layer) : Nat :=
  if l.vector then ((((m.layers.take r.layer).filter (fun x => !x.vector)).getLast?).map (·.outCount)).getD 0 else l.outCount

/-- The bytes that a descriptor of a run sees in a buffer: memory, or the label view. -/
def Dev.operand (d : Dev) (m : Model) (r : Run) (l : Layer) (id n : Nat) : List Byte :=
  if id = 0x203 then
    (match m.image.learn with
     | none => []
     | some spec =>
       let k := m.image.resultsAt r l
       (labelView m.image.headOutputs (labelClass spec r.label (topOne (intsOf (d.sram.bytes (m.addrOf 0x202) (2 * k)) k)))).take n)
  else d.sram.bytes (m.addrOf id) n

/-- The result bytes of an operation whose formats are "→ same", over INT16 or FP16. -/
def sameFormat (format : Nat) (onInt : List Int → List Int) (onFp : List Fp → List Nat) (bs : List Byte) (n : Nat) : List Byte :=
  if format = 3 then int16Bytes (onInt (intsOf bs n)) else wordsBytes (onFp (fpsOf bs n))

/-- The rows of a matrix times a vector, or its columns when the vector has one element a row. -/
def matvec (rows : Bool) (r c : Nat) (a : List Fp) (v : List Fp) : List Nat :=
  (List.range (if rows then r else c)).map (fun i =>
    ((List.range (if rows then c else r)).foldl (fun s j =>
      s.addMul ((a[if rows then i * c + j else j * c + i]?).getD .nan) ((v[j]?).getD .nan)) Sum.zero).word 1)

/-- Class and confidence (R423). -/
def verdictWord (free : Nat) (keys : List Int) (ps : List Nat) : BitVec 16 :=
  let top := topOne keys
  let conf := match fpOf ((ps[top]?).getD 0x7E00) with | .fin v => (255 * v / 16777216).toNat | _ => free % 256
  BitVec.ofNat 16 (top % 256 + 256 * (conf % 256))

/-- The result of a descriptor that only writes its DST, from its operands. -/
def Dev.descBytes (d : Dev) (m : Model) (r : Run) (l : Layer) (x : Desc) (free : Nat → Nat) : List Byte :=
  let n := x.count
  let src := d.operand m r l x.src
  let src2 := d.operand m r l x.src2
  let f := x.inFormat
  match x.op with
  | 0x01 => encodeVals x.outFormat free (elements f (src (formatBytes f n)) n)
  | 0x02 =>
    let q := (intsOf (src (2 * n)) n).map (fun v => divRoundAway (v * (x.param / 256 : Nat)) (2 ^ (x.param % 256)))
    if x.outFormat = 1 then q.map (fun v => BitVec.ofInt 8 (clampInt 0 255 v)) else q.map (fun v => BitVec.ofInt 8 (clampInt (-128) 127 v))
  | 0x03 =>
    if f = 3 then int16Bytes (List.zipWith (· + ·) (intsOf (src (2 * n)) n) (intsOf (src2 (2 * n)) n))
    else wordsBytes (List.zipWith fpAdd (fpsOf (src (2 * n)) n) (fpsOf (src2 (2 * n)) n))
  | 0x04 =>
    if f = 3 then
      let p := intsOf (src2 (4 * n)) (2 * n)
      int16Bytes ((intsOf (src (2 * n)) n).zipIdx.map (fun v => v.1 * (p[2 * v.2]?).getD 0 + (p[2 * v.2 + 1]?).getD 0))
    else
      let p := fpsOf (src2 (4 * n)) (2 * n)
      wordsBytes ((fpsOf (src (2 * n)) n).zipIdx.map (fun v => fpScale v.1 ((p[2 * v.2]?).getD .nan) ((p[2 * v.2 + 1]?).getD .nan)))
  | 0x05 => sameFormat f (·.map (max 0)) (·.map (fun v => fpWord (fpMinMax true v (.fin 0)))) (src (2 * n)) n
  | 0x06 =>
    let b := src2 4
    sameFormat f (·.map (fun v => clampInt ((intsOf b 2).headD 0) (((intsOf b 2)[1]?).getD 0) v))
      (·.map (fun v => fpWord (fpMinMax false (fpMinMax true v ((fpsOf b 2).headD .nan)) (((fpsOf b 2)[1]?).getD .nan)))) (src (2 * n)) n
  | 0x07 => wordsBytes ((wordsOf (src (2 * n)) n).map fpSigmoid)
  | 0x08 => wordsBytes ((wordsOf (src (2 * n)) n).map fpTanh)
  | 0x09 => wordsBytes (normOf free (fpsOf (src (2 * n)) n))
  | 0x0A =>
    sameFormat f (fun l => (windows x.param l).map maxOf)
      (fun l => (windows x.param l).map (fun w => fpWord (w.foldl (fpMinMax true) (w.headD .nan)))) (src (2 * n)) n
  | 0x0B =>
    sameFormat f (fun l => (windows x.param l).map (fun w => divRoundAway w.sum w.length))
      (fun l => (windows x.param l).map (fun w => (w.foldl Sum.add Sum.zero).word w.length)) (src (2 * n)) n
  | 0x0C => wordsBytes (softmaxWords (fpsOf (src (2 * n)) n))
  | 0x0D =>
    let keys := if f = 3 then intsOf (src (2 * n)) n else (fpsOf (src (2 * n)) n).map fpKey
    (List.range x.param).flatMap (fun i => match (ranking keys)[i]? with | some k => leBytes 2 k | none => leBytes 2 (free i))
  | 0x0E =>
    let e := formatBytes f 1
    let size := m.image.lengthFor l x.src / e
    (intsOf (src2 (2 * n)) n).zipIdx.flatMap (fun i =>
      if 0 ≤ i.1 ∧ i.1 < (size : Int) then (src (e * (i.1.toNat + 1))).drop (e * i.1.toNat) else leBytes e (free i.2))
  | 0x11 =>
    let first := m.image.zscoreFirst x
    wordsBytes (((fpsOf (src (2 * (first + n))) (first + n)).drop first).zipIdx.map (fun v => zscoreOf v.1 (statAt (src2 (8 * n)) v.2)))
  | 0x12 =>
    let rows := m.image.matvecRows l x
    let k := if rows then x.param else n
    let v := (elements f (src2 (formatBytes f k)) k).map (fun v => match v with | .nan => Fp.nan | .inf s => .inf s | .fin a e => if e = 0 then .fin (a * 16777216) else .fin a)
    wordsBytes (matvec rows n x.param (fpsOf (src (2 * n * x.param)) (n * x.param)) v)
  | 0x14 =>
    let sq := List.zipWith (fun a b => match a, b with
      | .fin u, .fin v => (Fp.fin (u - v), Fp.fin (u - v))
      | .nan, _ => (.nan, .nan)
      | _, .nan => (.nan, .nan)
      | .inf u, .inf v => if u = v then (.nan, .nan) else (.inf false, .inf false)
      | _, _ => (.inf false, .inf false)) (fpsOf (src (2 * n)) n) (fpsOf (src2 (2 * n)) n)
    let w := (sq.foldl (fun s p => s.addMul p.1 p.2) Sum.zero).wordSat 1
    leBytes 2 (if w = 0x7C00 then 0x7BFF else w)
  | 0x15 => src (formatBytes f n)
  | _ => []

/-- SCATTER: elements written one after the other; an index outside DST writes nothing. -/
def Dev.scatter (d : Dev) (m : Model) (r : Run) (l : Layer) (x : Desc) : List (Nat × List Byte) :=
  let e := formatBytes x.inFormat 1
  let bs := d.operand m r l x.src (e * x.count)
  let size := m.image.lengthFor l x.dst / e
  (intsOf (d.operand m r l x.src2 (2 * x.count)) x.count).zipIdx.filterMap (fun i =>
    if 0 ≤ i.1 ∧ i.1 < (size : Int) then some (m.addrOf x.dst + e * i.1.toNat, (bs.drop (e * i.2)).take e) else none)

/-- STATS (R513): the new state of each element, from the state committed before the run. Without a learning section no α is stated (log
entry 20). -/
def Dev.statsOf (d : Dev) (m : Model) (r : Run) (l : Layer) (x : Desc) (free : Nat → Nat) : List Byte :=
  let baseline := decide (m.image.stats = some x)
  match m.image.learn, m.learn with
  | some spec, some y =>
    let first := if baseline then spec.baseFirst else 0
    let n := if baseline then spec.baseCount else x.count
    let state := d.sram.bytes (m.addrOf x.dst) (8 * n)
    ((fpsOf (d.operand m r l x.src (2 * (first + n))) (first + n)).drop first).zipIdx.flatMap (fun v =>
      statBytes (statUpdate (min (2 ^ spec.forget) (y.n + 1)) v.1 (statAt state v.2)))
  | _, _ => (List.range (8 * x.count)).map (fun i => BitVec.ofNat 8 (free i))

/-- A descriptor carried out (Table 09-10, R510): STATS on the baseline state and GRAD_STEP write shadows. -/
def Dev.descriptor (d : Dev) (m : Model) (r : Run) (l : Layer) (x : Desc) (draw : Nat) : DescOut :=
  let free := Config.vectorValue draw
  let n := x.count
  match x.op with
  | 0x0F => { writes := d.scatter m r l x, run := r }
  | 0x10 =>
    let bs := d.statsOf m r l x free
    if m.learn.isSome && x.dst == m.image.baselineId then { writes := [], run := { r with baseShadow := some bs } }
    else { writes := [(m.addrOf x.dst, bs)], run := r }
  | 0x13 =>
    let rows := m.image.headRows
    let outs := m.image.headOutputs
    let bs := gradStep (d.sram.bytes (m.addrOf 0x201) (4 * rows * outs)) rows outs n x.param
      (match m.image.learn with | some s => fpOf s.rate.toNat | none => .nan) (fpsOf (d.operand m r l x.src (2 * n)) n)
      (fpsOf (d.operand m r l x.src2 (2 * x.param)) x.param)
    { writes := [], run := { r with headShadow := some bs } }
  | 0x15 =>
    let bs := d.descBytes m r l x free
    let keys := if x.inFormat = 3 then intsOf bs n else (fpsOf bs n).map fpKey
    let ps := softmaxWords (if x.inFormat = 3 then (intsOf bs n).map (fun v => Fp.fin (v * 16777216)) else fpsOf bs n)
    { writes := if x.dst = 0xFFFF then [] else [(m.addrOf x.dst, bs)], run := { r with verdict := some (verdictWord (free 0) keys ps) } }
  | 0x16 =>
    let w := match fpsOf (d.operand m r l x.src 2) 1 with
      | [.nan] => 0x7BFF
      | [.inf neg] => if neg then 0 else 0x7C00
      | [.fin v] => if v < 0 then 0 else fpRound v 1
      | _ => 0
    { writes := [], run := { r with novelty := some (BitVec.ofNat 16 w) } }
  | _ => { writes := [(m.addrOf x.dst, d.descBytes m r l x free)], run := r }

/-- What STATS reads (R513): the inputs, of the baseline from BASELINE_FIRST on, and the state in DST. -/
def Dev.statsReads (_ : Dev) (m : Model) (x : Desc) : List (Nat × Nat) :=
  let baseline := decide (m.image.stats = some x)
  let (first, n) := match m.image.learn with
    | some spec => if baseline then (spec.baseFirst, spec.baseCount) else (0, x.count)
    | none => (0, x.count)
  [(m.addrOf x.src + 2 * first, 2 * n), (m.addrOf x.dst, 8 * n)]

/-- The byte ranges of memory that a descriptor reads (R458); the label view and the system region do not count. -/
def Dev.readRanges (d : Dev) (m : Model) (r : Run) (l : Layer) (x : Desc) : List (Nat × Nat) :=
  let e := formatBytes x.inFormat 1
  let size := m.image.lengthFor l x.src / e
  let u := (m.image.descUse l x (decide (m.image.stats = some x))).reads
  let u := if x.op = 0x0E ∨ x.op = 0x10 ∨ x.op = 0x11 then u.filter (fun v => v.1 != x.src) else u
  (u.filter (fun v => v.1 != 0x203)).map (fun v => (m.addrOf v.1, v.2)) ++
    if x.op = 0x10 then d.statsReads m x
    else if x.op = 0x11 then [(m.addrOf x.src + 2 * m.image.zscoreFirst x, 2 * x.count)]
    else if x.op = 0x0E then
      (intsOf (d.operand m r l x.src2 (2 * x.count)) x.count).filterMap (fun i =>
        if 0 ≤ i ∧ i < (size : Int) then some (m.addrOf x.src + e * i.toNat, e) else none)
    else []

/-- The aligned lines that ranges cover, each once. -/
def linesOf (ranges : List (Nat × Nat)) : List Nat :=
  ranges.foldl (fun ls r => if r.2 = 0 then ls else
    (List.range ((r.1 + r.2 - 1) / 64 - r.1 / 64 + 1)).foldl (fun ls i => insertNat (r.1 / 64 + i) ls) ls) []

/-- Count a descriptor's reads of granules that nothing has written (R458). -/
def Dev.countReads (d : Dev) (m : Model) (r : Run) (l : Layer) (x : Desc) : Dev :=
  let n := ((linesOf (d.readRanges m r l x)).filter (fun k => d.uninit (64 * k))).length
  d.onPage m.basket (fun p => { p with uninitRead := p.uninitRead + BitVec.ofNat 32 n })

/-- Write by an engine, one range after the other. -/
def Dev.memEngines (d : Dev) : List (Nat × List Byte) → Dev
  | [] => d
  | w :: ws => (d.memEngine w.1 w.2).memEngines ws

end Sys2Proof.Machine
end

