-- ==== Sys2Proof/Machine/Learn.lean ====
section
/-!
DEFINITION. In-field learning (chapter 11): what the start and the end of a run do to a model's learning side, patches, and the LN
commands.
-/

namespace Sys2Proof.Machine

/-! ## Labels (R520 to R524) -/

/-- The pending label of a model: SEQ and CLASS, when SEQ differs from the last consumed one. -/
def Dev.pendingLabel (d : Dev) (h : Handle) (l : Learn) : Option (BitVec 32 × Nat) :=
  let seq := BitVec.ofNat 32 (d.sram.value (0x74000 + 0x400 * h.val) 4)
  if seq = l.seqDone then none else some (seq, d.sram.value (0x74004 + 0x400 * h.val) 2)

/-! ## The start of a run -/

/-- Windows begin with the first run (R532, R536), and a recommissioning at the next one (R537). -/
def Learn.atStart (l : Learn) (spec : LearnSpec) (tr : Nat) : Learn :=
  let l := if l.recommission then
      { l with recommission := false, state := .commissioning, winStart := none, winLen := spec.commission * 1000000000, runs := 0, doubtful := 0,
               n := 0, freezeFrom := none, releaseFrom := none }
    else l
  if (l.state == .commissioning || l.state == .adopting) && l.winStart.isNone then { l with winStart := some tr } else l

/-! ## The end of a run -/

/-- What the end of a run gives its model's learning side: t_r, whether the run is clean and ended with E_OK, its novelty, the top-1 class of its
soft head's tile results, and its label. -/
structure RunView where
  tr : Nat
  ok : Bool
  clean : Bool
  novelty : Option (BitVec 16)
  top : Option Nat
  label : Option (BitVec 32 × Nat)
  base : Bool
  head : Bool
  deriving DecidableEq, Repr

/-- Has the current window ended at t_r (R46, R529, R535)? -/
def Learn.windowOver (l : Learn) (tr : Nat) : Bool :=
  (l.state == .commissioning || l.state == .adopting) && !l.recommission &&
    (match l.winStart with | none => false | some s => decide (s + l.winLen ≤ tr))

/-- Enter LEARNING or FROZEN: every open episode is discarded (R530). -/
def Learn.enter (l : Learn) (s : LearnState) : Learn := { l with state := s, freezeFrom := none, releaseFrom := none }

/-- The end of a window (R529, R535). -/
def Learn.windowEnd (l : Learn) (tr : Nat) : Learn :=
  if !l.windowOver tr then l
  else if l.state == .commissioning then { l with doubt := decide (l.runs ≤ 8 * l.doubtful) }.enter .learning
  else l.enter .learning

/-- Is word a above word b as FP16? -/
def fpAbove (a b : BitVec 16) : Bool := decide (fpKey (fpOf b.toNat) < fpKey (fpOf a.toNat))

/-- A commissioning run is counted (R533). -/
def Learn.countRun (l : Learn) (spec : LearnSpec) (v : RunView) : Learn :=
  match v.novelty with
  | none => l
  | some x =>
    if l.state != .commissioning || l.recommission then l
    else
      let doubtful := v.top.any (· != 0) || (spec.recon && fpAbove x spec.doubtLevel)
      { l with runs := l.runs + 1, doubtful := l.doubtful + doubtful.toNat }

/-- Does Table 11-1 allow the update of a clean run: (baseline, soft head)? -/
def Learn.allows (l : Learn) (spec : LearnSpec) (v : RunView) : Bool × Bool :=
  if !v.clean || l.recommission then (false, false)
  else match l.state with
    | .commissioning => (true, false)
    | .learning => (match v.novelty with | none => (false, false) | some x => (!fpAbove x spec.freezeLevel, !fpAbove x spec.freezeLevel))
    | .frozen => (false, false)
    | .adopting => (true, true)

/-- Is there a target class for the soft head (R523, R524)? -/
def LearnSpec.hasTarget (s : LearnSpec) (outputs : Nat) (label : Option (BitVec 32 × Nat)) : Bool :=
  match s.update, label with
  | 1, some l => decide (l.2 < outputs)
  | 2, _ => true
  | 3, some l => decide (l.2 < outputs)
  | 3, none => true
  | _, _ => false

/-- Labels consumed at the end of a run that ended with E_OK, under every UPDATE (R524): by a committed soft-head update, and at once where
CLASS is out of range. -/
def Learn.consume (l : Learn) (outputs : Nat) (v : RunView) (committed : Bool) : Learn :=
  match v.label with
  | none => l
  | some (seq, c) =>
    if !v.ok then l
    else if outputs ≤ c then { l with seqDone := seq, badLabels := l.badLabels + 1 }
    else if committed then { l with seqDone := seq } else l

/-- Freeze and release episodes (R525 to R527). -/
def Learn.episodes (l : Learn) (spec : LearnSpec) (v : RunView) : Learn :=
  match v.novelty with
  | none => l
  | some x =>
    let l := { l with freezeFrom := if fpAbove x spec.freezeLevel then some (l.freezeFrom.getD v.tr) else none,
                      releaseFrom := if fpAbove spec.releaseLevel x then some (l.releaseFrom.getD v.tr) else none }
    if l.recommission then l
    else match l.state with
      | .learning =>
        (match l.freezeFrom with | some s => if s + spec.freezeHold * 1000000000 < v.tr then l.enter .frozen else l | none => l)
      | .frozen =>
        (match l.releaseFrom with | some s => if s + spec.releaseTime * 1000000000 < v.tr then l.enter .learning else l | none => l)
      | _ => l

/-- The patch elapsed time (R539). -/
def Learn.advance (l : Learn) (tr : Nat) : Learn :=
  { l with elapsed := l.elapsed + (match l.lastTr with | none => 0 | some t => tr - t), lastTr := some tr }

/-! ## Patches (R539 to R543) -/

/-- The code of a weight (R540); a NaN has no stated code (log entry 20). -/
def patchCode (free : Nat) : Fp → Int
  | .nan => (free % 31 : Nat) - 15
  | .inf neg => if neg then -15 else 15
  | .fin v => clampInt (-15) 15 (divRoundAway v 16777216)

/-- The rows of a soft head whose codes differ. -/
def rowsChanged (outputs : Nat) (old new : List Int) : Nat :=
  ((chunks (max 1 outputs) new.length new).zipIdx.filter (fun r => r.1 != (old.drop (outputs * r.2)).take outputs)).length

/-- A new log entry (R543, R551). -/
def Learn.addLog (l : Learn) (e : PatchLog) : Learn :=
  { l with patchNumber := e.number, log := (l.log ++ [e]).drop (l.log.length + 1 - 16) }

/-- A patch of a model starts (Table 11-3). -/
def Dev.startPatch (d : Dev) (h : Handle) (m : Model) (l : Learn) (s : Slice) (i : Fin 48) : Dev :=
  let (n, d) := d.draw
  let ws := wordsOf (d.sram.bytes (m.addrOf 0x201) (2 * l.codes.length)) l.codes.length
  let codes := ws.zipIdx.map (fun w => patchCode (Config.vectorValue n w.2) (fpOf w.1))
  let cause := if l.patchDue.isSome then 1 else 0
  let rows := rowsChanged m.image.headOutputs l.codes codes
  let entry : PatchLog := { number := l.patchNumber + 1, minutes := d.keep.minutes, units := 0, rows := rows, cause := cause, result := 0 }
  if codes == l.codes then d.onLearn h (fun l => { l with noChange := l.noChange + 1, elapsed := 0, patchDue := none })
  else if d.worn (d.tiles[i]) s.rowCount then
    d.onLearn h (fun l => { l.addLog { entry with result := 2 } with elapsed := 0, patchDue := none })
  else
    let d := d.onLearn h (fun l =>
      { l.addLog entry with pendingPatch := true, newCodes := codes, patchStep := some .record2, patchDue := none })
    (d.queueOp i (PressOp.of .patch m.basket 0 (some h) (.codes h) ((List.range s.rowCount).map (s.rowFirst + ·)) d.now)).trigger

/-- A due patch starts at the end of a run (R540); none while one is under way, the model is unloading, or outside ACTIVE (R872). -/
def Dev.patchAtEnd (d : Dev) (h : Handle) : Dev :=
  match d.model h with
  | some m =>
    (match m.learn, m.image.learn, m.image.headSlice, m.headTile with
     | some l, some spec, some s, some i =>
       let due := l.patchDue.isSome || (match spec.interval with | none => false | some n => decide (n * 1000000000 ≤ l.elapsed))
       if due && l.patchStep.isNone && !l.pendingPatch && m.state == .loaded && d.pwr.state == .active then d.startPatch h m l s i else d
     | _, _, _, _ => d)
  | none => d

/-! ## Bookkeeping -/

/-- The events of a change of learning state. -/
def Dev.postLearn (d : Dev) (h : Handle) (b : Basket) (before after : Learn) : Dev :=
  if before.state == after.state then d
  else
    let ev : Option Ev := match before.state, after.state with
      | .commissioning, .learning =>
        some { event := .commissionDone, subject := h.val, data0 := after.doubt.toNat, data1 := after.doubtful % 65536 }
      | .learning, .frozen => some { event := .learnFreeze, subject := h.val }
      | .frozen, .learning => some { event := .learnRelease, subject := h.val }
      | _, .adopting => some { event := .learnAdopt, subject := h.val }
      | _, _ => none
    (match ev with | some e => d.postTo b e | none => d).trigger

/-- The learning bookkeeping of a run (R509 to R540), in the order: windows, commissioning counts, commit of the shadows, labels, episodes. -/
def Dev.learnEnd (d : Dev) (h : Handle) (m : Model) (r : Run) (v : RunView) : Dev :=
  match m.learn, m.image.learn with
  | some l0, some spec =>
    let l1 := ((l0.advance v.tr).windowEnd v.tr).countRun spec v
    let allow := l1.allows spec v
    let head := allow.2 && v.head && spec.hasTarget m.image.headOutputs v.label
    let base := allow.1 && v.base
    let d := match r.baseShadow with | some bs => if base then d.memWrite (m.addrOf m.image.baselineId) bs else d | none => d
    let d := match r.headShadow with | some bs => if head then d.memWrite (m.addrOf 0x201) bs else d | none => d
    let l2 := { l1 with n := l1.n + base.toNat, committed := l1.committed + BitVec.ofNat 32 (base || head).toNat,
                        discarded := l1.discarded + BitVec.ofNat 32 ((v.base || v.head) && !(base || head)).toNat }
    let l3 := (l2.consume m.image.headOutputs v head).episodes spec v
    let d := d.onLearn h (fun _ => l3)
    let d := d.postLearn h m.basket l0 (l0.windowEnd v.tr)
    d.postLearn h m.basket (l0.windowEnd v.tr) l3
  | _, _ => d

/-! ## Commands -/

/-- Does the handle name a model with a learning section? -/
def Dev.learning (d : Dev) (h : Handle) : Option (Model × Learn × LearnSpec) :=
  match d.model h with
  | none => none
  | some m => match m.learn, m.image.learn with | some l, some s => some (m, l, s) | _, _ => none

/-- The items of LN_STATUS (R569; log entry 21): times in seconds. -/
def Dev.lnReport (d : Dev) (h : Handle) : List Byte :=
  match d.learning h with
  | none => (List.range 13).flatMap (fun i => w32 (Config.learnItem (d.free + i)))
  | some (_, l, _) =>
    let windowed := l.state == .commissioning || l.state == .adopting
    w32 l.state.number ++
      w32 (if windowed then (l.winLen - (match l.winStart with | none => 0 | some s => d.stamp.toNat - s)) / 1000000000 else Config.learnItem d.free) ++
      w32 (packBits [l.doubt, l.pendingPatch]) ++ w32 l.runs ++ w32 l.doubtful ++ w32 l.committed.toNat ++ w32 l.discarded.toNat ++
      w32 l.noChange.toNat ++ w32 l.badLabels.toNat ++ w32 l.seqDone.toNat ++
      w32 (match d.pendingLabel h l with | some p => p.2 | none => Config.learnItem (d.free + 1)) ++ w32 (l.elapsed / 1000000000) ++
      w32 l.patchNumber

/-- LN_STATUS (R569). -/
def cmdLnStatus : Command :=
  blockCommand 0x0701 false (fun x d => x.handle d (x.arg 0)) (fun _ _ => none) (fun x d => d.lnReport x.handleArg)

/-- LN_ACK (R528), from the model's basket or from basket 0. -/
def cmdLnAck : Command :=
  { code := 0x0702, names := fun x d => x.handle d (x.arg 0) || (x.b == 0 && decide (x.arg 0 < 16) && (d.model x.handleArg).isSome),
    state := fun x d => match d.learning x.handleArg with
      | none => some .state
      | some (_, l, _) => need (l.state == .frozen || (l.state == .learning && l.doubt)) .state,
    act := fun x d => match d.learning x.handleArg with
      | none => (d, .refuse .state)
      | some (m, l, s) =>
        if l.state == .frozen then
          ((((d.onLearn x.handleArg (fun l =>
            { l with state := .adopting, winStart := some d.stamp.toNat, winLen := s.releaseTime * 1000000000 })).postTo m.basket
              { event := .learnAdopt, subject := x.handleArg.val }).trigger), .ok [])
        else (d.onLearn x.handleArg (fun l => { l with doubt := false }), .ok []) }

/-- LN_PATCH (R539). -/
def cmdLnPatch : Command :=
  { code := 0x0703, names := fun x d => x.handle d (x.arg 0), state := fun x d => need (d.learning x.handleArg).isSome .state,
    act := fun x d => (d.onLearn x.handleArg (fun l => { l with patchDue := some 1 }), .ok []) }

/-- LN_RECOMMISSION (R537): baseline and soft head at once, COMMISSIONING at the next run. -/
def cmdLnRecommission : Command :=
  { code := 0x0704, names := fun x d => x.handle d (x.arg 0), state := fun x d => need (d.learning x.handleArg).isSome .state,
    act := fun x d => match d.learning x.handleArg with
      | none => (d, .refuse .state)
      | some (m, l, _) =>
        let zeros := List.replicate (8 * m.image.baselineCount) (0 : Byte)
        let d := d.onLearn x.handleArg (fun l => { l with recommission := true, doubt := false, base := zeros })
        let d := if m.image.stats.isSome then d.memWrite (m.addrOf m.image.baselineId) zeros else d
        (d.memWrite (m.addrOf 0x201) (codeWords l.imageCodes), .ok []) }

def execLnStatus (t : Time) (b : Basket) (s : State) : Host.Outcome State Fault Refusal := hostCommand cmdLnStatus t b s
def execLnAck (t : Time) (b : Basket) (s : State) : Host.Outcome State Fault Refusal := hostCommand cmdLnAck t b s
def execLnPatch (t : Time) (b : Basket) (s : State) : Host.Outcome State Fault Refusal := hostCommand cmdLnPatch t b s
def execLnRecommission (t : Time) (b : Basket) (s : State) : Host.Outcome State Fault Refusal := hostCommand cmdLnRecommission t b s

end Sys2Proof.Machine
end

