-- ==== Sys2Proof/Machine/Runs.lean ====
section
/-!
DEFINITION. Runs of models (chapters 01, 07, 10): run start, gathering, layers, phases, descriptors, run end, and the dispatch of tags.
-/

namespace Sys2Proof.Machine

/-! ## The tiles of a run (R331 to R337) -/

/-- Did the tile compute at run start, so that it took the handoff (R34)? -/
def Run.tookHandoff (r : Run) (i : Fin 48) : Bool := r.states.find? (fun s => s.1 == i) |>.any (fun s => s.2 == .ready || s.2 == .suspect)

/-- The state in which a run finds a tile: one whose upkeep takes precedence is found unable to compute (R388). -/
def Dev.foundState (d : Dev) (i : Fin 48) : TileState := if (d.tiles[i]).precedence then .inspecting else (d.tiles[i]).state

/-- A tile's state before a layer of a run (R331, R333): as it was taken, or, where the layer waits, as it is found now unless the run has
started and holds the tile. -/
def Dev.layerState (d : Dev) (r : Run) (i : Fin 48) : TileState :=
  if !r.waitFor || (decide (0 < r.layer) && (r.stateOf i).computes) then r.stateOf i else d.foundState i

/-- The slices of a layer with their numbers. -/
def Image.layerSlices (m : Image) (k : Nat) : List (Nat × Slice) := (m.slices.zipIdx.filter (fun s => s.1.layer == k)).map (fun s => (s.2, s.1))

/-- The tile of a replica of a slice; the last replica stands in for missing ones. -/
def Model.replicaTile (m : Model) (s : Slice) (r : Nat) : Option (Fin 48) := (s.tiles[min r (s.tiles.length - 1)]?).bind (fun n => m.place[n]?)

/-- Replicas of a layer. -/
def Image.layerReplicas (m : Image) (k : Nat) : Nat := ((m.layerSlices k).map (fun s => s.2.tiles.length)).foldl max 0

/-- What the busy policy decides for a layer (R333 to R335). -/
inductive Busy where
  | go (usable : List Nat)
  | wait
  | stop
  deriving DecidableEq, Repr

/-- The tiles of a layer. -/
def Model.layerTiles (m : Model) (k : Nat) : List (Fin 48) := (m.image.layerSlices k).flatMap (fun s => s.2.tiles.filterMap (fun n => m.place[n]?))

/-- The busy policy of a layer over the states of its tiles. MIRROR without a replica that computes acts as WAIT, which a RETIRED tile ends. -/
def Model.policy (m : Model) (k : Nat) (state : Fin 48 → TileState) : Busy :=
  let slices := (m.image.layerSlices k).map (·.2)
  let all := List.range (m.image.layerReplicas k)
  let usable := all.filter (fun r => slices.all (fun s => (m.replicaTile s r).any (fun i => (state i).computes)))
  let tiles := m.layerTiles k
  let able := tiles.all (fun i => (state i).computes)
  match ((slices.head?).map (·.busy)).getD 0 with
  | 0 => if tiles.any (fun i => state i == .retired) then .stop else if able then .go all else .wait
  | 1 => if !usable.isEmpty then .go usable else if tiles.any (fun i => state i == .retired) then .stop else .wait
  | _ => if able then .go all else .stop

/-! ## The end of a run (R482 to R487, R493, R494) -/

/-- The run status record (Table 10-4). -/
def Dev.statusRecord (d : Dev) (m : Model) (r : Run) (code : Word) (flags : Nat) : List Byte :=
  w64 r.frame ++ w64 r.start.toNat ++ w64 d.stamp.toNat ++ leBytes 2 code.toNat ++ leBytes 2 flags ++ w32 r.clips ++ w32 r.saturations ++
    w32 r.unchecked ++ w32 m.runsDone.toNat ++ w32 m.runsEarly.toNat ++ w32 m.runsMissed.toNat ++ leBytes 2 r.tagsPeak ++ [0, 0] ++
    w32 m.update.toNat ++ w32 0 ++ ((r.replicas ++ List.replicate 256 0).take 256).map (BitVec.ofNat 8)

/-- Tiles that failed a seam comparison in the run: EV_SEAM_FAIL, SUSPECT, and an inspection (R323, R324, R373). -/
def Dev.seamFailures (d : Dev) (h : Handle) : List (Fin 48 × Nat) → Dev
  | [] => d
  | (i, n) :: ts =>
    let d := d.onTile i (fun x =>
      { (if x.state == TileState.ready || x.state == .suspect then x.schedule d.now else x) with
          state := if x.state == TileState.ready then .suspect else x.state })
    (d.postTile i { event := .seamFail, subject := i.val, data0 := h.val, data1 := n }).seamFailures h ts

/-- The counts of the run become those of the last run of each of its tiles (R300, R322, R332; log entry 35). -/
def Dev.tileCounts (d : Dev) (m : Model) (r : Run) : Dev :=
  d.onTiles (fun t => vmap t (fun i x =>
    if m.place.any (fun p => p.val == i) then
      let c := r.counts.find? (fun c => c.tile.val == i)
      { x with clipsRun := BitVec.ofNat 32 ((c.map (·.clips)).getD 0), uncheckedRun := BitVec.ofNat 32 ((c.map (·.unchecked)).getD 0) }
    else x))

/-- The phases that tiles have begun for a run, which they finish when it ends early (R482). -/
def Dev.phasesLeft (d : Dev) (r : Run) : List Planned :=
  r.planned.filter (fun p => match d.spool.tag p.tag with | some t => t.status == .issued | none => false)

/-- Operations of a run's reload plan that have not begun. -/
def Dev.dropReloads (d : Dev) (h : Handle) : Dev :=
  d.onTiles (fun t => t.map (fun (x : Tile) => { x with queue := x.queue.filter (fun o => !(o.kind == .reload && o.handle == some h)) }))

/-- A run ends with a code: seam failures, the status record with VERDICT and NOVELTY, the counters, its tags, EV_RUN_END, and the learning
bookkeeping. A run that ends early leaves VERDICT and NOVELTY and marks its outputs STALE. -/
def Dev.endRun (d : Dev) (h : Handle) (e : Err) : Dev :=
  match d.model h with
  | none => d
  | some m =>
    match m.run with
    | none => d
    | some r =>
      let ok := e == .ok
      let d := (d.tileCounts m r).seamFailures h r.seamFailed
      let left := if ok then [] else d.phasesLeft r
      let flags := r.flags ||| (if r.seamFailed.isEmpty then 0 else 64) ||| (if ok then 0 else 32)
      let d := d.onModel h (fun m =>
        { m with run := none, leaving := m.leaving ++ left, lastResult := e.code, update := m.update + 2, runsDone := if ok then m.runsDone + 1 else m.runsDone,
                 runsEarly := if ok then m.runsEarly else m.runsEarly + 1, verdict := if ok then r.verdict.getD m.verdict else m.verdict,
                 novelty := if ok then r.novelty.getD m.novelty else m.novelty })
      let d := match d.model h with
        | some m' => d.memWrite (0x70000 + 0x400 * h.val) (d.statusRecord m' r e.code flags.toNat)
        | none => d
      let d := if ok then d.retireTags true ((d.spool.ofRun h).map (·.id)) else (d.abortRun h).dropReloads h
      let d := (d.postTo m.basket { event := .runEnd, subject := h.val, data0 := e.code.toNat, data1 := r.frame % 65536 }).raise
        (toBasket m.basket) .runEnd
      let d := if ok && r.verdict.any (fun v => v.toNat % 256 != 0) && d.pwr.state == .watch then d.wakeBy 2 else d
      let d := d.learnEnd h m r
        { tr := r.tr, ok := ok, clean := ok && flags == 0, novelty := if ok then r.novelty else none, top := r.verdictTop, label := r.label,
          base := r.baseShadow.isSome, head := r.headShadow.isSome }
      if ok || d.pwr.state == .active then d.patchAtEnd h else d

/-! ## Reload (R430, R432) -/

/-- Does the run still wait for a reload of the pass in progress? -/
def Dev.reloading (d : Dev) (h : Handle) (r : Run) : Bool :=
  !r.reloadQueue.isEmpty ||
    d.tiles.toList.any (fun x => (x.op.toList ++ x.queue).any (fun o => o.kind == .reload && o.handle == some h))

/-- Queue the RELOAD of a block on its tile; endurance may refuse it at once (R358). -/
def Dev.queueReload (d : Dev) (h : Handle) (m : Model) (e : Nat × Nat) : Dev :=
  match m.place[e.1]?, m.image.blocks[e.2]? with
  | some i, some b =>
    let op := PressOp.of .reload m.basket 0 (some h) (.block h e.2) ((List.range b.rowCount).map (b.rowFirst + ·)) d.now
    if d.worn (d.tiles[i]) b.rowCount then d.opRefused i op 1 .tileWorn else d.queueOp i op
  | _, _ => d

/-- Queue the RELOADs of entries. -/
def Dev.queueReloads (d : Dev) (h : Handle) (m : Model) : List (Nat × Nat) → Dev
  | [] => d
  | e :: es => (d.queueReload h m e).queueReloads h m es

/-- A pass begins: its entries are queued, or wait to be read from QSPI. -/
def Dev.beginPass (d : Dev) (h : Handle) (m : Model) (p : Nat) : Dev :=
  match m.image.reload with
  | none => d
  | some r =>
    let es := (r.passes[p]?).getD []
    let d := d.onRun h (fun r => { r with passDone := p + 1 })
    if r.qspi then d.onRun h (fun r => { r with reloadQueue := es }) else d.queueReloads h m es

/-- RELOAD_BLOCK_READ (R432): the next block of the pass is read whole into the staging and checked, once the last one is pressed. -/
def execReloadBlockRead (t : Time) (h : Handle) (s : State) : Host.Outcome State Fault Refusal :=
  onDev s t (fun d =>
    match d.model h with
    | none => d
    | some m =>
      match m.run with
      | none => d
      | some r =>
        match r.reloadQueue with
        | [] => d
        | e :: es =>
          if d.reloading h { r with reloadQueue := [] } then d
          else match m.image.blocks[e.2]? with
            | none => d
            | some b =>
              let bs := d.blockBytes m b
              let d := if m.qspi then d.readFlash (m.imageAddr + m.image.weights + b.dataOffset) (256 * b.rowCount) else d
              let d := d.memWrite (m.bufferAddr m.image.stagingBuffer) bs
              if crc32 bs != b.dataCrc then
                (d.postTo m.basket { event := .reloadBad, subject := h.val, data0 := e.2 }).endRun h .fitImage
              else
                (d.onRun h (fun r => { r with reloadQueue := es })).queueReload h m e)

/-! ## Run start (R438, R480, R483, R49) -/

/-- Is the model due for a frame (R438)? -/
def Model.dueFor (m : Model) (frame : Nat) : Bool :=
  m.state != .loading && decide (m.firstFrame ≤ frame) && (frame - m.firstFrame) % max 1 m.image.divider == 0

/-- May the model run in WATCH: are all its frame inputs direct-mode band values (R49), and does it use the tiles for a direct-mode first layer
alone, driven by the handoff (R342, Table 17-6; log entry 54)? -/
def Image.watchable (m : Image) : Bool :=
  m.bindings.all (fun b => b.kind == 0 && decide (b.source ≤ 1)) &&
    m.layers.zipIdx.all (fun l => l.1.vector || (l.2 == 0 && (m.slices.filter (fun s => s.layer == 0)).all m.isPulse))

/-- May the model start a run for the frame that has just ended? -/
def Dev.mayStart (d : Dev) (m : Model) (e : EndedFrame) : Bool :=
  m.state == .loaded && m.run.isNone && m.dueFor e.num && m.lastRun != e.num && e.stop == d.now && !e.blanked &&
    (d.pwr.state == .active || (d.pwr.state == .watch && m.image.watchable))

/-- The absolute deadline of a run (R483). -/
def Dev.deadlineOf (d : Dev) (m : Model) (stop : Time) : Time :=
  let f := frameBudget d.wr.live d.link.live.set.cycleUs
  stop + if m.image.deadlineUs = 0 then f.1 * m.image.divider / f.2 else us m.image.deadlineUs

/-- A run as it starts. -/
def Run.new (frame tr : Nat) (start : BitVec 64) (deadline : Time) (states : List (Fin 48 × TileState)) (label : Option (BitVec 32 × Nat)) : Run :=
  { frame := frame, start := start, tr := tr, deadline := deadline, layer := 0, layerOn := false, waitFor := false, gathered := false,
    finished := false, flags := 0, clips := 0, saturations := 0, unchecked := 0, replicas := [], usable := [], planned := [], accums := [],
    seamFailed := [], handed := [], counts := [], tagsPeak := 0, states := states, passDone := 0, passTaken := 0, reloadQueue := [], verdict := none, verdictTop := none, novelty := none,
    baseShadow := none, headShadow := none, label := label }

/-- Allocate a tag for a run. -/
def Dev.runTag (d : Dev) (t : Tag) : Dev × List (Fin 4096) :=
  let r := d.spool.alloc d.now t
  (d.onSpool (fun _ => r.1), r.2.toList)

/-- The tag of a piece of a run's work. -/
def Model.tag (m : Model) (h : Handle) (r : Run) (kind : TagKind) : Tag := Tag.of kind m.basket (some h) m.image.priority (some r.deadline)

/-- Allocate one GATHER tag for each binding. -/
def Dev.gatherTags (d : Dev) (h : Handle) (m : Model) (r : Run) : List Nat → Dev
  | [] => d
  | i :: is => ((d.runTag { m.tag h r .gather with index := i }).1).gatherTags h m r is

/-- What a layer's policy does to the run at its start or before the layer: it ends, waits, or may go on. -/
def Dev.applyPolicy (d : Dev) (h : Handle) (m : Model) (k : Nat) (state : Fin 48 → TileState) : Dev :=
  match m.image.layers[k]? with
  | none => d
  | some l =>
    if l.vector then d
    else match m.policy k state with
      | .stop => d.endRun h .tileBusy
      | .wait => d.onRun h (fun r => { r with waitFor := true })
      | .go us => d.onRun h (fun r =>
          { r with usable := us, waitFor := false, states := if r.waitFor then r.states ++ (m.layerTiles k).map (fun i => (i, state i)) else r.states })

/-- RUN_START (R480, R33, R58); a recommissioning changes the learning state here, which triggers a record (R537, R559). -/
def Dev.startRun (d : Dev) (h : Handle) (m : Model) (e : EndedFrame) : Dev :=
  let tr := e.stopStamp.toNat
  let old := m.learn.map (·.state)
  let m := { m with learn := m.learn.map (fun l => match m.image.learn with | some s => l.atStart s tr | none => l) }
  let label := m.learn.bind (d.pendingLabel h)
  let r := Run.new e.num tr d.stamp (d.deadlineOf m e.stop) (m.place.map (fun i => (i, d.foundState i))) label
  let d := if old == m.learn.map (·.state) then d else d.trigger
  let d := d.onModel h (fun _ => { m with run := some r, lastRun := e.num })
  let d := (d.gatherTags h m r (List.range m.image.bindings.length)).notePeak h
  let d := if m.image.reload.isSome then d.beginPass h m 0 else d
  d.applyPolicy h m 0 d.foundState

/-- RUN_START. -/
def execRunStart (t : Time) (h : Handle) (s : State) : Host.Outcome State Fault Refusal :=
  onDev s t (fun d =>
    match d.model h, d.wr.ended with
    | some m, some e => if d.mayStart m e then d.startRun h m e else d
    | _, _ => d)

/-! ## Gathering (R425, R429, R468 to R470) -/

/-- Does the slot of the feature area hold frame k (R464)? -/
def Dev.featureFrame (d : Dev) (k : Nat) : Bool := k != 0 && d.sram.value (k % 2 * 0x1000 + 0x810) 8 == k

/-- Does the detector slot hold frame k (R466)? -/
def Dev.detectorFrame (d : Dev) (k : Nat) : Bool := k != 0 && d.sram.value (0x2300 + k % 2 * 0x400) 8 == k

/-- The address of a remote entry for frame k (R467). -/
def remoteAddr (k slot : Nat) : Nat := 0x10000 + k % 2 * 0x20000 + slot * 0x200

/-- Is the remote block of a binding present for frame k (R625)? -/
def Dev.remotePresent (d : Dev) (k : Nat) (b : Binding) : Bool :=
  d.sram.value (remoteAddr k b.slot + 0x10A) 2 == k % 65536 && d.sram.value (remoteAddr k b.slot + 0x108) 1 == b.node &&
    decide (b.first + b.count ≤ 2 * d.sram.value (remoteAddr k b.slot + 0x109) 1)

/-- Do the records of frame k still stand in their slot: has the readout of frame k + 2, which takes the same slot, not begun (R33, R38)? -/
def Dev.slotHolds (d : Dev) (k : Nat) : Bool :=
  match d.wr.ended with
  | none => false
  | some e => decide (e.num ≤ k + 1) || (e.num == k + 2 && !e.handedOff && !e.counted)

/-- Does the gatherer have the data of a binding: read out (R31, R32, R469), and still those of the run's frame (R33)? -/
def Dev.gatherable (d : Dev) (k : Nat) (b : Binding) : Bool :=
  b.frame == 1 ||
    (match b.kind, d.wr.ended with
     | 0, some e => d.slotHolds k && (decide (k < e.num) || (e.num == k && (if b.source = 2 then e.counted else e.handedOff)))
     | 0, none => false
     | 1, _ => true
     | _, _ => d.detectorFrame k)

/-- The elements of a binding as bytes, and the flags they carry. -/
structure Gathered where
  bytes : List Byte
  flags : Nat
  deriving DecidableEq, Repr

/-- A FEATURE binding: values and flags of band records; zeros where frame k−1 does not exist or is lost (R36, R38). -/
def Dev.gatherFeature (d : Dev) (k : Nat) (b : Binding) : Gathered :=
  let j := k - b.frame
  if b.frame = 1 ∧ !(d.featureFrame j && d.slotHolds j) then { bytes := List.replicate (if b.source = 2 then 2 * b.count else b.count) 0, flags := 0 }
  else
    let recs := (List.range b.count).map (fun i => d.sram.value (recordAddr j (b.first + i)) 4)
    { bytes := if b.source = 2 then recs.flatMap (fun (v : Nat) => leBytes 2 (fpOfRatio (Int.ofNat (v / 256)) (2 ^ 22))) else recs.map (fun v => BitVec.ofNat 8 (v / 256)),
      flags := recs.foldl (fun f v => f ||| v % 32) 0 }

/-- The number of a HOLD_LAST binding among them. -/
def Image.holdIndex (m : Image) (i : Nat) : Nat := ((m.bindings.take i).filter (·.holds)).length

/-- A REMOTE binding: the block of frame k with its FLAGS, or what MISSING says of an absent one, with STALE (R429, R626). -/
def Dev.gatherRemote (d : Dev) (m : Model) (k i : Nat) (b : Binding) : Gathered :=
  if d.remotePresent k b then
    let a := remoteAddr k b.slot
    { bytes := d.sram.bytes (a + b.first) b.count, flags := d.sram.value (a + 0x10C) 2 % 32 }
  else
    let held := m.bufferAddr m.image.holdBuffer + 256 * m.image.holdIndex i
    { bytes := if b.missing = 1 then d.sram.bytes (held + b.first) b.count else List.replicate b.count 0, flags := 32 }

/-- A DETECTOR binding: the frame copy of R258, with its flags (R425, R466). -/
def Dev.gatherDetector (d : Dev) (k : Nat) (b : Binding) : Gathered :=
  let j := k - b.frame
  if b.frame = 1 ∧ !d.detectorFrame j then { bytes := [0, 0], flags := 0 }
  else
    let a := 0x2000 + j % 2 * 0x400 + 32 * b.first + 8 * b.detector
    let v := d.sram.value a 4
    { bytes := leBytes 2 (if b.detector = 3 then fpRoundSat ((v * 16777216 : Nat) : Int) 1 else fpOfRatio v (2 ^ 23)),
      flags := d.sram.value (a + 4) 1 % 4 }

/-- What a binding gathers for frame k. -/
def Dev.gatherBinding (d : Dev) (m : Model) (k i : Nat) (b : Binding) : Gathered :=
  match b.kind with | 0 => d.gatherFeature k b | 1 => d.gatherRemote m k i b | _ => d.gatherDetector k b

/-- Where a binding's elements lie. -/
def Model.targetAddr (m : Model) (h : Handle) (b : Binding) : Nat :=
  if b.isFp then m.bufferAddr m.image.fpBuffer + 2 * b.target else 0x50000 + 0x2000 * h.val + b.target

/-- One GATHER tag is carried out. -/
def Dev.gatherTag (d : Dev) (h : Handle) (m : Model) (k : Nat) (t : Tag) : Dev :=
  match m.image.bindings[t.index]? with
  | none => d.retireTags true [t.id]
  | some b =>
    if !d.gatherable k b then d
    else
      let g := d.gatherBinding m k t.index b
      let d := d.memWrite (m.targetAddr h b) g.bytes
      (d.onRun h (fun r => { r with flags := r.flags ||| BitVec.ofNat 7 g.flags })).retireTags true [t.id]

/-- The GATHER tags that can be carried out, one after the other. -/
def Dev.gatherAll (d : Dev) (h : Handle) (m : Model) (k : Nat) : List Tag → Dev
  | [] => d
  | t :: ts => (d.gatherTag h m k t).gatherAll h m k ts

/-- Does a binding fill this element of the input vector? -/
def Image.bound (m : Image) (e : Nat) : Bool := m.bindings.any (fun b => !b.isFp && decide (b.target ≤ e) && decide (e < b.target + b.count))

/-- The elements of the input vector that no binding fills read as 0 (R426, R470). -/
def Dev.zeroUnbound (d : Dev) (h : Handle) (m : Model) : Dev :=
  let a := 0x50000 + 0x2000 * h.val
  d.memWrite a ((List.range 8192).map (fun e => if m.image.bound e then d.sram.get (a + e) else 0))

/-- GATHER (R469). -/
def execGather (t : Time) (h : Handle) (s : State) : Host.Outcome State Fault Refusal :=
  onDev s t (fun d =>
    match d.model h with
    | none => d
    | some m =>
      match m.run with
      | none => d
      | some r =>
        let d := d.gatherAll h m r.frame ((d.spool.ofRun h).filter (fun t => t.kind == .gather && t.status == .issued))
        if !r.gathered && !(d.spool.ofRun h).any (fun t => t.kind == .gather) then
          (d.zeroUnbound h m).onRun h (fun r => { r with gathered := true })
        else d)

/-! ## Layers (R410, R430, R480, R481) -/

/-- PHASES and MOVE tags of a slice on each of its replica tiles that can compute (R480); the identities of the MOVE tags. -/
def Dev.sliceTags (d : Dev) (h : Handle) (m : Model) (r : Run) (s : Nat × Slice) : List Nat → Dev × List (Fin 4096)
  | [] => (d, [])
  | k :: ks =>
    let tile := m.replicaTile s.2 k
    if !tile.any (fun i => (r.stateOf i).computes) then d.sliceTags h m r s ks
    else
      let (d, ph) := d.runTag { m.tag h r .phases with tile := tile, index := s.1, replica := k }
      let (d, mv) := d.runTag { m.tag h r .move with tile := tile, index := s.1, replica := k, deps := ph }
      let (d, rest) := d.sliceTags h m r s ks
      (d, mv ++ rest)

/-- The tags of all slices of a layer. -/
def Dev.slicesTags (d : Dev) (h : Handle) (m : Model) (r : Run) : List (Nat × Slice) → Dev × List (Fin 4096)
  | [] => (d, [])
  | s :: ss =>
    let (d, a) := d.sliceTags h m r s (List.range s.2.tiles.length)
    let (d, b) := d.slicesTags h m r ss
    (d, a ++ b)

/-- The buffers that a descriptor writes; GRAD_STEP writes the soft head (Table 09-9). -/
def Image.descWrites (m : Image) (l : Layer) (a : Desc) : List (Nat × Nat) :=
  (m.descUse l a false).writes ++ (if a.op = 0x13 then [(0x201, 4 * a.count * a.param)] else [])

/-- Must descriptor b wait for descriptor a: does a write what b reads or writes, or read what b writes (R481)? -/
def Image.conflict (m : Image) (l : Layer) (a b : Desc) : Bool :=
  let meets := fun (x y : List (Nat × Nat)) => x.any (fun p => y.any (fun q => p.1 == q.1))
  let reads := fun (x : Desc) => (m.descUse l x false).reads
  let writes := fun (x : Desc) => m.descWrites l x
  meets (writes a) (writes b) || meets (writes a) (reads b) || meets (reads a) (writes b)

/-- VECTOR tags of a layer's descriptors, each after every MOVE and after every earlier descriptor in its way. -/
def Dev.vectorTags (d : Dev) (h : Handle) (m : Model) (r : Run) (l : Layer) (moves : List (Fin 4096)) :
    List (Desc × List (Fin 4096)) → List (Nat × Desc) → Dev
  | _, [] => d
  | done, (i, x) :: xs =>
    let deps := moves ++ (done.filter (fun p => m.image.conflict l p.1 x)).flatMap (·.2)
    let (d, id) := d.runTag { m.tag h r .vector with index := i, engine := if x.engine < 4 then some (Fin.ofNat 4 x.engine) else none, deps := deps }
    d.vectorTags h m r l moves ((x, id) :: done) xs

/-- The tags of a layer are allocated and the layer is under way (R480). -/
def Dev.openLayer (d : Dev) (h : Handle) (m : Model) (r : Run) (l : Layer) : Dev :=
  let d := d.onRun h (fun r => { r with layerOn := true, planned := [], accums := [] })
  let (d, moves) := if l.vector then (d, []) else d.slicesTags h m r (m.image.layerSlices r.layer)
  (d.vectorTags h m r l moves [] (m.image.layerDescs l)).notePeak h

/-- The states of the tiles that the passes done have re-pressed are taken anew: each pass ends an inference boundary for them (the note
under Table 08-6). -/
def Model.statesAfterPass (m : Model) (r : Run) (state : Fin 48 → TileState) : List (Fin 48 × TileState) :=
  match m.image.reload with
  | none => []
  | some p => ((p.passes.take r.passDone).drop r.passTaken).flatten.filterMap (fun e => (m.place[e.1]?).map (fun i => (i, state i)))

/-- LAYER_START: a pass not yet begun is begun; then the policy; then the tags. At its deadline the run starts no layer (R333, R484). -/
def Dev.layerStart (d : Dev) (h : Handle) (m : Model) (r : Run) : Dev :=
  match m.image.layers[r.layer]? with
  | none => d
  | some l =>
    if r.layerOn || !r.gathered || r.finished || decide (r.deadline ≤ d.now) then d
    else if m.image.reload.isSome && decide (r.passDone ≤ l.pass) && !d.reloading h r then d.beginPass h m l.pass
    else if d.reloading h r then d
    else
      let r := { r with states := r.states ++ m.statesAfterPass r d.foundState, passTaken := max r.passTaken r.passDone }
      let d := (d.onRun h (fun _ => r)).applyPolicy h m r.layer (d.layerState r)
      match d.model h with
      | some { run := some r, .. } => if r.waitFor then d else d.openLayer h m r l
      | _ => d

/-- LAYER_START. -/
def execLayerStart (t : Time) (h : Handle) (s : State) : Host.Outcome State Fault Refusal :=
  onDev s t (fun d =>
    match d.model h with
    | some m => (match m.run with | some r => d.layerStart h m r | none => d)
    | none => d)

/-- The layer in progress has ended when none of its tags is in flight: the next one may start, or the LEARN tag is allocated (R480). -/
def Dev.layerEnds (d : Dev) (h : Handle) : Dev :=
  match d.model h with
  | none => d
  | some m =>
    match m.run with
    | none => d
    | some r =>
      if !r.layerOn || (d.spool.ofRun h).any (fun t => t.kind == .phases || t.kind == .move || t.kind == .vector) then d
      else
        let last := decide (m.image.layers.length ≤ r.layer + 1)
        let d := d.onRun h (fun r => { r with layer := r.layer + 1, layerOn := false, usable := [], planned := [], accums := [], finished := last })
        if last && m.learn.isSome then ((d.runTag (m.tag h r .learn)).1).notePeak h else d

/-! ## Tiles (R302 to R325) -/

/-- The input codes of a slice, by row (R412). -/
def Dev.sliceInputs (d : Dev) (h : Handle) (m : Model) (s : Slice) (l : Layer) : List (Nat × Int) :=
  let a := if l.input = 0xFFFF then 0x50000 + 0x2000 * h.val else m.bufferAddr l.input
  let size := if l.inFormat = 3 then 2 else 1
  let bs := d.sram.bytes (a + size * s.inFirst) (size * s.rowCount)
  (List.range s.rowCount).map (fun j => (s.rowFirst + j, match element l.inFormat bs j with | .fin v _ => v | _ => 0))

/-- The feature that fills an element of the input vector through a PULSE binding. -/
def Image.pulseFeature (m : Image) (e : Nat) : Option Nat :=
  (m.bindings.find? (fun b => b.kind == 0 && b.source == 0 && decide (b.target ≤ e) && decide (e < b.target + b.count))).map
    (fun b => b.first + (e - b.target))

/-- The phase of a PULSE slice driven from the TDC copy (R34, R305, R306): the rows and codes of the handoff. -/
def copyPhase (inputs : List (Nat × Int)) : Phase :=
  { drives := inputs.map (fun i => (i.1, i.2.toNat * 2 ^ 32, i.2.toNat)), negative := false, plane := none }

/-- The phase of a PULSE slice as the handoff drives it (R30, R305): the pulses of the features bound to its rows, and their TDC codes. -/
def Dev.pulsePhase (d : Dev) (m : Model) (e : EndedFrame) (s : Slice) : Phase :=
  { drives := (List.range s.rowCount).map (fun j =>
      match m.image.pulseFeature (s.inFirst + j) with
      | none => (s.rowFirst + j, 0, 0)
      | some f =>
        (s.rowFirst + j, (match e.values[f]? with | some v => if v.enabled then e.pulse v else 0 | none => 0),
          d.sram.value (recordAddr e.num f) 4 / 256 % 256)),
    negative := false, plane := none }

/-- Is the tile still to be re-pressed before a layer with this pass: then it does not yet hold the layer's weights (R430)? -/
def Dev.reloadAhead (d : Dev) (h : Handle) (m : Model) (r : Run) (pass : Nat) (i : Fin 48) : Bool :=
  let names := fun (es : List (Nat × Nat)) => es.any (fun e => m.place[e.1]? == some i)
  names r.reloadQueue || ((d.tiles[i]).op.toList ++ (d.tiles[i]).queue).any (fun o => o.kind == .reload && o.handle == some h) ||
    (match m.image.reload with | none => false | some p => names ((p.passes.take (pass + 1)).drop r.passDone).flatten)

/-- Can the tile take the pulses of the handoff for a slice of the run (R34)? -/
def Dev.takesHandoff (d : Dev) (h : Handle) (m : Model) (r : Run) (pass : Nat) (i : Fin 48) : Bool :=
  r.tookHandoff i && (d.tiles[i]).state.computes && !d.reloadAhead h m r pass i

/-- One tile takes the pulses bound to a slice's rows: its phase is driven, and converted 800 ns after the drive window opens (R302). -/
def Dev.handTile (d : Dev) (h : Handle) (m : Model) (e : EndedFrame) (s : Nat × Slice) (l : Layer) (i : Fin 48) : Dev :=
  let (n, d) := d.draw
  let ph := d.pulsePhase m e s.2
  let y := (d.tiles[i]).phase s.2 (l.weightFormat == 2) l.inFormat ph n
  (d.onTile i (fun x => x.drove false (d.now + phaseTime false))).onRun h (fun r =>
    { r with handed := r.handed ++ [{ tile := i, slice := s.1, opened := d.now, phase := ph, yields := y }] })

/-- The tiles of a slice that take the pulses. -/
def Dev.handSlice (d : Dev) (h : Handle) (m : Model) (r : Run) (e : EndedFrame) (s : Nat × Slice) (l : Layer) : List (Fin 48) → Dev
  | [] => d
  | i :: is =>
    (if d.takesHandoff h m r l.pass i then d.handTile h m e s l i else d).handSlice h m r e s l is

/-- The PULSE slices of a run, in order. -/
def Dev.handSlices (d : Dev) (h : Handle) (m : Model) (r : Run) (e : EndedFrame) : List (Nat × Slice) → Dev
  | [] => d
  | s :: ss =>
    (match m.image.layers[s.2.layer]? with
     | some l => if m.image.isPulse s.2 then d.handSlice h m r e s l (s.2.tiles.filterMap (fun n => m.place[n]?)) else d
     | none => d).handSlices h m r e ss

/-- The handoff drives the tiles of every run of the frame (R30). -/
def Dev.handRuns (d : Dev) (e : EndedFrame) : List (Handle × Model) → Dev
  | [] => d
  | (h, m) :: ms =>
    (match m.run with
     | some r => if r.frame = e.num then d.handSlices h m r e (m.image.slices.zipIdx.map (fun (s : Slice × Nat) => (s.2, s.1))) else d
     | none => d).handRuns e ms

/-- HANDOFF (R29 to R31, R158 to R161, R167): the drive window opens 1.4 to 1.6 us after the boundary; the pulses drive the TDC, whose codes
the direct-mode records hold, and the bound rows of the tiles (R30). -/
def execHandoff (t : Time) (s : State) : Host.Outcome State Fault Refusal :=
  onDev s t (fun d =>
    match d.wr.ended with
    | none => d
    | some e =>
      if !d.wringing || e.handedOff || decide (d.now < e.stop + ns 1400) || decide (e.stop + ns 1600 < d.now) then d
      else
        let (n, d) := d.draw
        let d := d.writeRecords e n false 0 e.values
        let d := d.onWr (fun w => { w with ended := some { e with handedOff := true } })
        d.handRuns e d.loaded)

/-- Plan the phases of a slice (R305, R311 to R313): that of the handoff where its tile has taken it. -/
def Dev.planPhases (d : Dev) (h : Handle) (m : Model) (s : Slice) (l : Layer) (taken : Option Handed) : List Phase :=
  let inputs := d.sliceInputs h m s l
  if m.image.isPulse s then [match taken with | some x => x.phase | none => copyPhase inputs] else planSlice s.dMode l.inFormat s.budget inputs

/-- A tile accepts a PHASES tag: its phases are planned; with none it is done. -/
def Dev.acceptPhases (d : Dev) (t : Tag) : Dev :=
  match t.handle, t.tile with
  | some h, some i =>
    (match d.model h with
     | some m =>
       (match m.run, m.image.slices[t.index]? with
        | some r, some s =>
          (match m.image.layers[s.layer]? with
           | some l =>
             let taken := r.handed.find? (fun x => x.slice == t.index && x.tile == i)
             let phases := d.planPhases h m s l taken
             let d := d.onRun h (fun r =>
               { r with accums := r.accums ++ [{ slice := t.index, replica := t.replica, sums := List.replicate (s.delivers l) 0 }],
                        planned := r.planned ++ [{ tag := t.id, accepted := d.now, handed := taken, tile := i, slice := t.index,
                                                   replica := t.replica, phases := phases }] })
             if phases.isEmpty then d.retireTags true [t.id] else d
           | none => d)
        | _, _ => d)
     | none => d)
  | _, _ => d

/-- Add a phase's contributions to what a replica has accumulated (R315). -/
def addAccum (slice replica : Nat) (ys : List Int) (l : List Accum) : List Accum :=
  l.map (fun a => if a.slice = slice ∧ a.replica = replica then { a with sums := List.zipWith (fun x y => wrap32 (x + y)) a.sums ys } else a)

/-- Count failed comparisons of a tile. -/
def addFailures (i : Fin 48) (n : Nat) (l : List (Fin 48 × Nat)) : List (Fin 48 × Nat) :=
  if n = 0 then l else if l.any (fun e => e.1 == i) then l.map (fun e => if e.1 == i then (e.1, e.2 + n) else e) else l ++ [(i, n)]

/-- Add to what the run has counted on a tile. -/
def addCounts (i : Fin 48) (y : PhaseYield) (l : List TileCount) : List TileCount :=
  let old := (l.find? (fun c => c.tile == i)).getD { tile := i, clips := 0, unchecked := 0 }
  { old with clips := old.clips + y.clips, unchecked := old.unchecked + y.unmade } :: l.filter (fun c => c.tile != i)

/-- The counts since reset of a tile after a phase (R332). -/
def Tile.countPhase (x : Tile) (y : PhaseYield) : Tile :=
  { x with clipped := x.clipped + BitVec.ofNat 32 y.clips, compared := x.compared + BitVec.ofNat 32 y.made,
           seamFailures := x.seamFailures + BitVec.ofNat 32 y.failed }

/-- The earliest end of the next phase of a planned slice: that of the handoff, or one that its tile starts when it may (R302, R307, R310). -/
def Dev.phaseDue (d : Dev) (p : Planned) (s : Slice) : Time :=
  match p.handed with
  | some x => x.opened + phaseTime false
  | none => (d.tiles[p.tile]).phaseEnds s.dMode p.accepted

/-- The next phase of a planned slice ends on its tile, which counts it: what it yields (R299 to R309, R320 to R323). -/
def Dev.endPhase (d : Dev) (p : Planned) (s : Slice) (l : Layer) (ph : Phase) : PhaseYield × Dev :=
  let (n, d) := d.draw
  let y := match p.handed with | some x => x.yields | none => (d.tiles[p.tile]).phase s (l.weightFormat == 2) l.inFormat ph n
  (y, d.onTile p.tile (fun x => (if p.handed.isSome then x else x.drove s.dMode d.now).countPhase y))

/-- One phase of a planned slice of a run in flight. -/
def Dev.runPhase (d : Dev) (h : Handle) (p : Planned) (s : Slice) (l : Layer) (ph : Phase) (rest : List Phase) : Dev :=
  let (y, d) := d.endPhase p s l ph
  let d := d.onRun h (fun r =>
    { r with accums := addAccum p.slice p.replica y.sums r.accums, clips := r.clips + y.clips, unchecked := r.unchecked + y.unmade,
             seamFailed := addFailures p.tile y.failed r.seamFailed, counts := addCounts p.tile y r.counts,
             planned := r.planned.map (fun q => if q.tag == p.tag then { q with phases := rest } else q) })
  if rest.isEmpty then d.retireTags true [p.tag] else d

/-- The phase that a tile finishes for a run that has ended early is its last (R482). -/
def Dev.lastPhase (d : Dev) (h : Handle) (p : Planned) (s : Slice) (l : Layer) (ph : Phase) : Dev :=
  let (_, d) := d.endPhase p s l ph
  (d.onModel h (fun m => { m with leaving := m.leaving.filter (fun q => q.tag != p.tag) })).retireTags false [p.tag]

/-- The plan of an ISSUED PHASES tag: of the run in flight, or of one that has ended early. -/
def Model.planOf (m : Model) (t : Tag) : Option Planned :=
  (if t.aborting then m.leaving else (m.run.map (·.planned)).getD []).find? (fun p => p.tag == t.id)

/-- TILE_PHASE (R302, R307): the next phase on a tile ends, not before its time. -/
def Dev.tilePhase (d : Dev) (i : Fin 48) : Dev :=
  match d.spool.tags.find? (fun t => t.kind == .phases && t.tile == some i && t.status == .issued) with
  | none => d
  | some t =>
    match t.handle.bind (fun h => (d.model h).bind (fun m => (m.planOf t).map (fun p => (h, m, p)))) with
    | none => if t.aborting then d.retireTags false [t.id] else d
    | some (h, m, p) =>
      match m.image.slices[t.index]?, p.phases with
      | some s, ph :: rest =>
        (match m.image.layers[s.layer]? with
         | some l =>
           if d.now < d.phaseDue p s then d else if t.aborting then d.lastPhase h p s l ph else d.runPhase h p s l ph rest
         | none => d)
      | _, _ => d

/-- TILE_PHASE; a halted island stands still (R894). -/
def execTilePhase (t : Time) (tile : Fin 48) (s : State) : Host.Outcome State Fault Refusal :=
  onDev s t (fun d => if d.pwr.halted then d else d.tilePhase tile)

/-! ## Layer output (R316 to R318, R325) -/

/-- The replicas that contribute: those that passed their seam check, or all when none did. -/
def Model.contributing (m : Model) (r : Run) : List Nat :=
  let passed := r.usable.filter (fun k =>
    !(m.image.layerSlices r.layer).any (fun s => (m.replicaTile s.2 k).any (fun i => r.seamFailed.any (fun e => e.1 == i))))
  if passed.isEmpty then r.usable else passed

/-- What replica k of a slice has accumulated; the last replica of a slice stands in for missing ones. -/
def Run.accumOf (r : Run) (s : Nat × Slice) (k : Nat) : List Int :=
  ((r.accums.find? (fun a => a.slice == s.1 && a.replica == min k (s.2.tiles.length - 1))).map (·.sums)).getD []

/-- Tile result o of replica k before combination (R413, R315). -/
def Model.replicaSum (m : Model) (r : Run) (k o : Nat) : Int :=
  wrap32 (((m.image.layerSlices r.layer).map (fun s => if s.2.outBase ≤ o then ((r.accumOf s k)[o - s.2.outBase]?).getD 0 else 0)).sum)

/-- The tile results of the layer in progress before saturation (R316, R317). -/
def Model.layerSums (m : Model) (r : Run) (l : Layer) : List Int :=
  let ks := m.contributing r
  (List.range l.outCount).map (fun o =>
    divRoundAway ((ks.map (fun k => m.replicaSum r k o)).sum) (max 1 ks.length) + (((m.image.biases[r.layer]?).getD [])[o]?).getD 0)

/-- Does a value saturate as INT16? -/
def saturates16 (v : Int) : Bool := decide (v < -32768) || decide (32767 < v)

/-- The outputs of a TILE layer are ready. -/
def Dev.layerOutput (d : Dev) (h : Handle) (m : Model) (r : Run) (l : Layer) : Dev :=
  let mine := d.spool.ofRun h
  let moves := mine.filter (fun t => t.kind == .move)
  if l.vector || mine.any (fun t => t.kind == .phases) || moves.isEmpty || moves.any (fun t => t.status != .issued) then d
  else
    let sums := m.layerSums r l
    let bs := int16Bytes sums
    let d := d.memWrite (m.addrOf 0x202) bs
    let d := if l.descCount = 0 then d.memWrite (m.bufferAddr r.layer) bs else d
    let d := d.onRun h (fun r =>
      { r with saturations := r.saturations + (sums.filter saturates16).length,
               replicas := (r.replicas ++ List.replicate (r.layer - r.replicas.length) 0).take r.layer ++ [(m.contributing r).length],
               verdictTop := if l.softHead then some (topOne (intsOf bs l.outCount)) else r.verdictTop })
    (d.retireTags true (moves.map (·.id))).layerEnds h

/-- LAYER_OUTPUT_READY. -/
def execLayerOutputReady (t : Time) (h : Handle) (s : State) : Host.Outcome State Fault Refusal :=
  onDev s t (fun d =>
    match d.model h with
    | none => d
    | some m =>
      match m.run with
      | none => d
      | some r => match m.image.layers[r.layer]? with | some l => if r.layerOn then d.layerOutput h m r l else d | none => d)

/-! ## Engines (R422, R482, R491, R497) -/

/-- The run in whose name a descriptor completes; one whose run has ended early leaves no shadow. -/
def Model.runOr (m : Model) : Run := m.run.getD (Run.new 0 0 0 0 [] none)

/-- The layer of a descriptor, with its index. -/
def Image.descLayer (m : Image) (i : Nat) : Option (Layer × Nat) :=
  m.layers.zipIdx.find? (fun l => decide (l.1.descFirst ≤ i) && decide (i < l.1.descFirst + l.1.descCount))

/-- The engine is free again and has counted its descriptor (R497). -/
def Dev.engineDone (d : Dev) (e : Fin 4) (start : Time) : Dev :=
  d.onSpool (fun p => { p with engines := upd p.engines e (fun v =>
    { busy := none, descriptors := v.descriptors + 1, cycles := v.cycles + BitVec.ofNat 64 ((d.now - start + 959) / 960) }) })

/-- The lines of a descriptor's operands are requested by the engine's operand cache: GetS for those it reads, GetM for those it writes (R496,
R498; log entry 49). -/
def Dev.engineLines (d : Dev) (e : Fin 4) (reads writes : List Nat) : Dev :=
  let (n, d) := d.drawMany (reads.length + writes.length)
  d.onSpool (fun p => (p.requests n d.now e false reads).requests (n + reads.length) d.now e true writes)

/-- A descriptor completes: its operands are read and counted, its results written, through the engine's operand cache. -/
def Dev.descriptorDone (d : Dev) (engine : Fin 4) (h : Handle) (i : Nat) (aborting : Bool) : Dev :=
  match d.model h with
  | none => d
  | some m =>
    match m.image.descs[i]?, m.image.descLayer i with
    | some x, some (l, k) =>
      let (n, d) := d.draw
      let r := if aborting then { ({ m with run := none }).runOr with layer := k } else m.runOr
      let out := d.descriptor m r l x n
      let d := d.engineLines engine (linesOf (d.readRanges m r l x)) (linesOf (out.writes.map (fun w => (w.1, w.2.length))))
      let d := (d.countReads m r l x).memEngines out.writes
      if aborting then d else d.onRun h (fun _ => out.run)
    | _, _ => d

/-- DESCRIPTOR_COMPLETE (R422): within the cycles of Table 09-10. -/
def execDescriptorComplete (t : Time) (engine : Fin 4) (s : State) : Host.Outcome State Fault Refusal :=
  onDev s t (fun d =>
    match (d.spool.engines[engine]).busy with
    | none => d
    | some (h, i, id, start) =>
      let cycles := match (d.model h).bind (fun m => m.image.descs[i]?) with | some x => x.cycles | none => 0
      if d.pwr.halted ∨ d.now ≤ start ∨ (start + coreCycles cycles < d.now ∧ cycles ≠ 0) then d
      else
        let aborting := match d.spool.tag id with | some t => t.aborting | none => true
        let d := (d.descriptorDone engine h i aborting).engineDone engine start
        let d := d.retireTags (!aborting) [id]
        if aborting then d else d.layerEnds h)

/-! ## Dispatch (R488 to R491) -/

/-- A unit accepts a tag. -/
def Dev.accept (d : Dev) (u : UnitId) (t : Tag) : Dev :=
  let d := d.onSpool (fun p => p.onTag t.id (fun t => { t with status := .issued, level := t.priority }))
  match u, t.handle with
  | .tile _, _ => d.acceptPhases t
  | .engine e, some h => d.onSpool (fun p => { p with engines := upd p.engines e (fun v => { v with busy := some (h, t.index, t.id, d.now) }) })
  | _, _ => d

/-- TAG_DISPATCH (R488). -/
def execTagDispatch (t : Time) (u : UnitId) (s : State) : Host.Outcome State Fault Refusal :=
  onDev s t (fun d =>
    if d.pwr.halted then d
    else match u with
    | .press g => d.dispatchPress g.val
    | _ =>
      if !d.spool.unitFree u then d
      else match bestTag (d.spool.tags.filter (fun t => t.waitsFor u)) with
        | none => d
        | some x => d.accept u x)

/-! ## Run ends -/

/-- Is the work of a run done, its LEARN tag issued if it has one? -/
def Dev.runDone (d : Dev) (h : Handle) (r : Run) : Bool :=
  r.finished && (d.spool.ofRun h).all (fun t => t.kind == .learn && t.status == .issued)

/-- RUN_END (R487); a completion at the deadline has missed it (R48, R484). -/
def execRunEnd (t : Time) (h : Handle) (s : State) : Host.Outcome State Fault Refusal :=
  onDev s t (fun d =>
    match (d.model h).bind (·.run) with
    | none => d
    | some r => if !d.runDone h r then d else d.endRun h (if r.deadline ≤ d.now then .runLate else .ok))

/-- A run at its absolute deadline (R484). -/
def Dev.runLate (d : Dev) (h : Handle) : Dev :=
  match (d.model h).bind (·.run) with
  | none => d
  | some r => if d.now < r.deadline then d else d.endRun h (if r.waitFor then .tileBusy else .runLate)

/-- RUN_DEADLINE. -/
def execRunDeadline (t : Time) (h : Handle) (s : State) : Host.Outcome State Fault Refusal := onDev s t (fun d => d.runLate h)

/-- Every run in flight ends (R486). -/
def Dev.endRuns (d : Dev) (e : Err) : List Handle → Dev
  | [] => d
  | h :: hs => (d.endRun h e).endRuns e hs

end Sys2Proof.Machine
end

