-- ==== Sys2Proof/Machine/Link.lean ====
section
/-!
DEFINITION. Ixward: the cycle, the schedule in force, packets, the ledger and log of each port, states, and the time base (chapters 12
and 13). Instants are those of the crystal, which the rate correction stretches (R656; log entry 22).
-/

namespace Sys2Proof.Machine

/-- Change the node. -/
def Dev.lk (d : Dev) (f : Link → Link) : Dev := d.onLink (fun l => f l)

/-- Does the LINK domain run (Table 17-6)? -/
def Dev.linking (d : Dev) : Bool := d.pwr.state == .boot || d.pwr.state == .active

/-- Does the network count run: in holdover too, from SAMPLE (R671, R873)? -/
def Dev.counting (d : Dev) : Bool :=
  match d.pwr.state with | .boot | .active | .watch | .hold => true | .fault => d.pwr.fault != some .clock | _ => false

/-! ## The cycle (R575 to R577) -/

/-- Nominal length of the static segment and of both segments, in us. -/
def LinkSet.staticUs (s : LinkSet) : Nat := s.slots * s.slotUs
def LinkSet.nitAt (s : LinkSet) : Nat := s.staticUs + s.minislots * s.miniUs

/-- The NIT in us, none when the segments leave no room (R576). -/
def LinkSet.nitUs (s : LinkSet) : Nat := s.cycleUs - s.nitAt

/-- The node's settings in force. -/
def Dev.lset (d : Dev) : LinkSet := d.link.live.set

/-- The cycle counter (R577, R647). -/
def Link.counter (l : Link) : Nat := l.cycleIndex % 64

/-- The instant of an offset in us from the cycle start: the rate correction acts on every microtick of the cycle (R656). -/
def Link.at (l : Link) (offset : Nat) : Time := l.cycleAt + stretched l.rate (us offset)

/-- The local time of an instant since the cycle start, in 1/768 ns (R656). -/
def Link.since (l : Link) (t : Time) : Int := ((t : Int) - l.cycleAt) * rated l.rate / 1000000000

/-- The nominal end of a cycle that starts at an instant. -/
def Link.after (l : Link) (start : Time) : Time := start + stretched l.rate (us l.live.set.cycleUs)

/-- Is the node synchronised: does it follow a network's cycle (R598, Table 12-5 check 6; log entry 23)? -/
def Link.synced (l : Link) : Bool := l.state == .integrate || l.state == .joined || l.state == .fenced

/-- A hub node of a STAR (Table 12-1). -/
def LinkSet.isHub (s : LinkSet) : Bool := s.topology == .star && s.hub != 0

/-- The channel that a port receives: 0 is A, 1 is B; the DN ports of a ring receive return lanes only (Table 12-1, R573). -/
def LinkSet.channelOf (s : LinkSet) (port : Fin 4) : Option (Fin 2) :=
  match s.topology with
  | .off => none
  | .ring => if port = 0 then some 0 else if port = 2 then some 1 else none
  | .bus => if port = 0 then some 0 else if port = 2 then some 1 else none
  | .star => if s.isHub then some (if s.hub = 1 then 0 else 1) else if port = 0 then some 0 else if port = 2 then some 1 else none

/-- Is a port used (R573)? -/
def LinkSet.uses (s : LinkSet) (port : Fin 4) : Bool := s.topology == .ring || (s.channelOf port).isSome

/-- The channels that the node has. -/
def LinkSet.channels (s : LinkSet) : List (Fin 2) :=
  [0, 1].filter (fun c => (List.finRange 4).any (fun p => s.channelOf p == some c))

/-- The DN port that faces the same neighbour as an UP port (R699). -/
def facing (port : Fin 4) : Fin 4 := if port = 0 then 3 else 1

/-- The ports on which the node itself sends on a channel (Table 12-1, R699). -/
def Link.txPorts (l : Link) (c : Fin 2) : List (Fin 4) :=
  let s := l.live.set
  match s.topology with
  | .off => []
  | .ring => (if c = 0 then [1] else [3]).filter (fun p => !(l.ports[p]).sendingBreak)
  | .bus => if c = 0 then [0] else [2]
  | .star => if s.isHub then (if s.hub = c.val + 1 then [0, 1, 2, 3] else []) else if c = 0 then [0] else [2]

/-! ## The schedule in force (R590, R635) -/

/-- The claim in force on an entry. -/
def Link.claimOn (l : Link) (entry : Nat) : Option Claim := l.claims.find? (fun c => c.entry == entry && c.inForce)

/-- An entry as every node treats it: a claimed SPARE entry is a DATA entry of its claimant (R635). -/
def Link.treat (l : Link) (n : Nat) (e : SlotEntry) : SlotEntry :=
  match l.claimOn n with
  | some c => if e.kind == 2 then { e with kind := 0, owner := c.node, basket := c.basket } else e
  | none => e

/-- The entries as they stand, by number. -/
def Link.entries (l : Link) : List (Nat × SlotEntry) := l.live.entries.map (fun e => (e.1, l.treat e.1 e.2))

/-- Is an entry in force in a cycle with this counter (R590)? -/
def SlotEntry.inCycle (e : SlotEntry) (counter : Nat) : Bool := counter % 2 ^ e.repExp == e.base

/-- Does an entry use a channel (R590)? -/
def SlotEntry.onChannel (e : SlotEntry) (c : Fin 2) : Bool := e.use == 0 || e.use == c.val + 1

/-- Does an entry own a static slot? -/
def SlotEntry.covers (e : SlotEntry) (slot : Nat) : Bool := decide (e.slot ≤ slot) && decide (slot < e.slot + e.span)

/-- The entry that owns a slot instance in this cycle on a channel. -/
def Link.ownerOf (l : Link) (counter slot : Nat) (c : Fin 2) : Option (Nat × SlotEntry) :=
  l.entries.find? (fun e => e.2.inCycle counter && e.2.onChannel c && e.2.covers slot)

/-- The REFERENCE entry of this node in a copy of the schedule. -/
def LinkCopy.ownReference (c : LinkCopy) : Option SlotEntry :=
  (c.entries.find? (fun e => e.2.kind == 1 && e.2.owner == c.set.node)).map (·.2)

/-- The rank of this node's own REFERENCE entry, 0 when it owns none. -/
def Link.ownRank (l : Link) : Nat := match l.live.ownReference with | none => 0 | some e => e.rank

/-- Duration of a packet of L payload words in ns (R582). -/
def LinkSet.packetNs (s : LinkSet) (words : Nat) : Nat := (15 + 2 * words) * (if s.topology == .ring then 100 else 500)

/-! ## Packets (R579 to R588) -/

/-- One shift of the CRC-8 of a header. -/
def crc8Shift : Nat → BitVec 8 → BitVec 8
  | 0, r => r
  | n + 1, r => crc8Shift n (if r.getLsbD 7 then (r <<< 1) ^^^ 0x2F else r <<< 1)

/-- HCRC (R584). -/
def crc8 (bytes : List Byte) : Byte := ~~~(bytes.foldl (fun r b => crc8Shift 8 (r ^^^ b)) 0xFF)

/-- A packet: the fields of its header (Table 12-2) and its payload. -/
structure Packet where
  node : Nat
  type : Nat
  slot : Nat
  flags : Nat
  cycle : Nat
  length : Nat
  basket : Nat
  reserved : Bool
  payload : List Word
  deriving DecidableEq, Repr

/-- The header of a packet with its HCRC. -/
def Packet.header (p : Packet) : List Byte :=
  let w := wordBytes [BitVec.ofNat 16 (p.node + 256 * p.type), BitVec.ofNat 16 (p.slot + 2048 * p.flags),
    BitVec.ofNat 16 (p.cycle + 256 * p.payload.length)] ++ [BitVec.ofNat 8 p.basket]
  w ++ [crc8 w]

/-- The bytes of a packet from header to trailer (R580, R583, R585). -/
def Packet.bytes (p : Packet) : List Byte :=
  let b := p.header ++ wordBytes p.payload
  b ++ leBytes 4 (crc32c b).toNat

/-- What is put on the wire: K28.5, K27.7, the bytes, K29.7 (R580). `none` stands at the places of the three control symbols. -/
def onWire (bytes : List Byte) : List (Option Byte) := none :: none :: (bytes.map some ++ [none])

/-- Words of bytes, low byte first. -/
def packetWords : List Byte → List Word
  | lo :: hi :: r => (BitVec.ofNat 16 (lo.toNat + 256 * hi.toNat)) :: packetWords r
  | _ => []

/-- The header fields of received bytes; the payload is what lies between header and trailer. -/
def Packet.read (bytes : List Byte) : Packet :=
  let v := fun (i : Nat) => (bytes.getD i 0).toNat
  { node := v 0, type := v 1 % 16, slot := v 2 + v 3 % 8 * 256, flags := v 3 / 8, cycle := v 4 % 64, length := v 5, basket := v 6 % 4,
    reserved := decide (v 1 / 16 ≠ 0) || decide (v 4 / 64 ≠ 0) || decide (v 6 / 4 ≠ 0),
    payload := packetWords ((bytes.drop 8).take (bytes.length - 12)) }

/-- Payload words that Table 12-3 allows for a type. -/
def Packet.lengthOk (p : Packet) (ring : Bool) : Bool :=
  match p.type with
  | 0 => p.length == 0
  | 1 => decide (p.length ≤ 128)
  | 2 => p.length == 8
  | 3 => p.length == (if ring then 11 else 8)
  | 4 => p.length == 1
  | 5 =>
    let w := (p.payload.getD 7 0).toNat
    decide (8 ≤ p.length) && decide (w % 256 ≤ 8) && decide (w / 256 ≤ 16) && p.length == 8 + w % 256 + 3 * (w / 256)
  | 6 => p.length == 4
  | 7 => p.length == 1
  | 8 => p.length == 3
  | _ => decide (1 ≤ p.length) && decide (p.length ≤ 128)

/-- Word n of the payload. -/
def Packet.word (p : Packet) (n : Nat) : Nat := (p.payload.getD n 0).toNat

/-- Words n to n+k-1 of the payload as a number, low word first. -/
def Packet.words (p : Packet) (n k : Nat) : Nat := leWordsValue ((p.payload.drop n).take k)

/-- REF and STARTUP are the time packets (R649, R650). -/
def Packet.isTime (p : Packet) : Bool := p.type == 2 || p.type == 3

/-! ## Ledger, log and NOTICE (R621, R702 to R710) -/

/-- The reasons of Table 12-5, numbered in its order. -/
inductive Discard where
  | code | hcrc | format | length | crc | notSynced | cycle | slot | owner | duplicate | mailboxFull
  deriving DecidableEq, Repr

/-- The number of a reason in Table 12-5, less 1. -/
def Discard.index : Discard → Fin 11
  | .code => 0 | .hcrc => 1 | .format => 2 | .length => 3 | .crc => 4 | .notSynced => 5 | .cycle => 6 | .slot => 7 | .owner => 8
  | .duplicate => 9 | .mailboxFull => 10

/-- The NOTICE that answers a discard (R702, Table 13-5). -/
def Discard.notice : Discard → Option Nat
  | .format => some 1 | .length => some 2 | .cycle => some 3 | .slot => some 4 | .owner => some 5 | _ => none

/-- Is a discard logged (R702)? -/
def Discard.logged : Discard → Bool
  | .notSynced => false | .duplicate => false | _ => true

/-- Change one port. -/
def Link.onPort (l : Link) (p : Fin 4) (f : Port → Port) : Link := { l with ports := upd l.ports p f }

/-- Count a kind (R710). -/
def Link.countKind (l : Link) (kind : Nat) : Link := { l with kinds := updAt l.kinds kind (· + 1) }

/-- Post an event of the LINK domain about the device as a whole (R14). -/
def Dev.postLink (d : Dev) (e : Ev) : Dev := d.post d.everyEnabled d.linkStamp e

/-- Post an event of the LINK domain about a slot (R14, Table 14-4). -/
def Dev.postSlot (d : Dev) (slot : Nat) (e : Ev) : Dev := d.post (d.holders (fun g => at? g.slots slot false)) d.linkStamp e

/-- Enter one log entry and count its kind (R708, R709). -/
def Dev.linkLog (d : Dev) (port : Fin 4) (kind node slot cycle : Nat) (noticed : Bool) : Dev :=
  let e : LinkLog := { stamp := d.linkStamp, port := port.val, kind := kind, node := node, slot := slot, cycle := cycle, noticed := noticed }
  d.lk (fun l =>
    let l := l.countKind kind
    if l.log.length < 64 then { l with log := l.log ++ [e] }
    else { l with log := l.log.drop 1 ++ [e], logOverwrites := l.logOverwrites + 1 })

/-- Would a NOTICE be queued: there is a dynamic segment, and none for this offender and reason in 64 cycles (R704)? -/
def Link.mayNotice (l : Link) (reason node : Nat) : Bool :=
  decide (0 < l.live.set.minislots) && !l.noticed.any (fun n => n.1 == node && n.2.1 == reason && decide (l.cycleIndex < n.2.2 + 64))

/-- Queue a NOTICE, or count it as dropped (R588, R704). -/
def Link.notice (l : Link) (n : Notice) : Link :=
  if !l.mayNotice n.reason n.node then l
  else if 8 ≤ l.notices.length then { l with noticesDropped := l.noticesDropped + 1 }
  else { l with notices := l.notices ++ [n], noticed := (n.node, n.reason, l.cycleIndex) :: l.noticed }

/-- Is a NOTICE queued? -/
def Link.notices? (l : Link) (reason node : Nat) : Bool := l.mayNotice reason node && decide (l.notices.length < 8)

/-- A violation of Table 13-5 found by this node beside a discard: answered, logged under kind 32 + n (R703, R709). -/
def Dev.linkViolation (d : Dev) (port : Fin 4) (code node slot cycle type : Nat) : Dev :=
  let sent := d.link.notices? code node
  let d := d.lk (fun l => l.notice { reason := code, slot := slot, cycle := cycle, type := type, node := node })
  d.linkLog port (32 + code) node slot cycle sent

/-- Discard a packet (R620, R621, R702; kinds of log entry 24). -/
def Dev.discard (d : Dev) (port : Fin 4) (p : Packet) (r : Discard) : Dev :=
  let d := d.lk (fun l => l.onPort port (fun q => { q with discards := upd q.discards r.index (· + 1) }))
  if !r.logged then d
  else
    match r.notice with
    | none => d.linkLog port (r.index.val + 1) p.node p.slot p.cycle false
    | some code =>
      let answer := decide (1 ≤ p.node) && decide (p.node ≤ 64)
      let sent := answer && d.link.notices? code p.node
      let d := if answer then d.lk (fun l => l.notice { reason := code, slot := p.slot, cycle := p.cycle, type := p.type, node := p.node }) else d
      (d.lk (fun l => l.countKind (32 + code))).linkLog port (r.index.val + 1) p.node p.slot p.cycle sent

/-! ## States (Table 13-3) and time -/

/-- Enter a state: EV_LINK_STATE with its reason and IRQ_PENDING.LINK (R680). -/
def Dev.linkGo (d : Dev) (to_ : LinkState) (reason : Nat) : Dev :=
  if d.link.state == to_ then d
  else
    let now := d.now
    let d := d.lk (fun l => { l with state := to_, stateAt := now, adopting := true, missCycles := 0, offCycles := 0, clampCycles := 0,
                                     coldCycles := 0, noStartup := 0, joinedFor := 0, fullCycle := false,
                                     fence := if to_ = .fenced then l.fence else .none })
    (d.raise everyBasket .link).postLink { event := .linkState, data0 := to_.number, data1 := reason }

/-- Enter FENCED (R691, R706). -/
def Dev.linkFence (d : Dev) (f : Fence) : Dev :=
  (d.lk (fun l => { l with fence := f })).linkGo .fenced (if f = .guard then 5 else 6)

/-- A change of the time source (R654). -/
def Dev.setSource (d : Dev) (rank : Nat) : Dev :=
  if d.link.source = rank then d else (d.lk (fun l => { l with source := rank })).postLink { event := .timeSource, data0 := rank }

/-- The LINK domain stops: the node leaves the network (R872, R878); a fenced node stays fenced (Table 13-6). -/
def Dev.linkStops (d : Dev) : Dev :=
  match d.link.state with | .off => d | .fenced => d.setSource 0 | _ => (d.linkGo .listen 0).setSource 0

/-- The LINK domain runs again (R687): the listen timeout starts. -/
def Dev.linkRuns (d : Dev) : Dev := d.lk (fun l => { l with stateAt := d.now, adopting := true, fullCycle := false })

/-- The timestamp base at a cycle start (R672, R673): its count becomes the network's; a difference posts the pair of R840. -/
def Dev.takeBase (d : Dev) : Dev :=
  let old := d.clk.ns d.now
  let first := d.clk.net.isNone
  let new := d.link.cst
  let d := d.onClk (fun c => { c with net := some new, netAt := d.now, slew := none, rate := d.link.rate, hold := max d.clk.hold old })
  if first || old != new then
    (d.post d.everyEnabled (BitVec.ofNat 64 new) { event := .timeBase, subject := 1 }).post d.everyEnabled (BitVec.ofNat 64 old)
      { event := .timeBase, subject := 0 }
  else d

/-- The SAMPLE clock takes a rate correction from this instant on, its edge number `edge` at `at_`. -/
def Clock.follow (c : Clock) (edge : Nat) (at_ : Time) (rate : Int) : Clock := { c with edgeNo := edge, edgeAt := at_, edgeRate := rate }

/-- The number of the SAMPLE edge nearest to an instant. -/
def Clock.nearest (c : Clock) (t : Time) : Nat :=
  let n := c.edgeFrom t
  if 0 < n ∧ t - c.edgeTime (n - 1) < c.edgeTime n - t then n - 1 else n

/-- The SAMPLE PLL at a cycle start (R676, R677): a JOINED node with discipline ON runs it at its rate correction, and puts an edge on the
cycle start when the cycle is a multiple of 125 us; otherwise it keeps its last rate. -/
def Dev.discipline (d : Dev) : Dev :=
  if d.link.state != .joined || !d.lset.discipline then d
  else if d.lset.cycleUs % 125 = 0 then d.onClk (fun c => c.follow (d.clk.nearest d.now) d.now d.link.rate)
  else
    let n := d.clk.edgeFrom d.now
    d.onClk (fun c => c.follow n (d.clk.edgeTime n) d.link.rate)

/-- The SAMPLE PLL when a commit turns the discipline OFF: it runs at its own rate from the next edge on. -/
def Dev.undiscipline (d : Dev) : Dev :=
  if d.lset.discipline then d
  else
    let n := d.clk.edgeFrom d.now
    d.onClk (fun c => c.follow n (d.clk.edgeTime n) 0)

/-- The frame clock when the node adopts network timing: the frame in progress will carry TRUNCATED (R675). -/
def Dev.adoptFrames (d : Dev) : Dev :=
  if d.wr.live.frame.source == .network then d.onWr (fun w => { w with truncate := true }) else d

/-- A network-mode frame boundary at this cycle start (R648). -/
def Dev.networkBoundary (d : Dev) : Dev :=
  if d.wr.live.frame.source == .network && d.link.cycleIndex % max 1 d.wr.live.frame.netLen == 0 then d.makeDue false else d

/-- The entry number and USE that a claim payload names, as an entry of the schedule (R633). -/
def Link.claimedEntry (l : Link) (w : Nat) : Option (Nat × SlotEntry) :=
  l.live.entries.find? (fun e => e.2.slot == w % 256 && e.2.use == bits w 9 8)

/-- The packet of a type at a place, from this node. -/
def Link.mine (l : Link) (type slot flags basket : Nat) (payload : List Word) : Packet :=
  { node := l.live.set.node, type := type, slot := slot, flags := flags, cycle := l.counter, length := payload.length, basket := basket,
    reserved := false, payload := payload }

/-- Send a packet on ports (R581: nothing else leaves them). A guardian that blocks lets nothing out (R689). -/
def Dev.transmit (d : Dev) (ports : List (Fin 4)) (bytes : List Byte) : Dev :=
  if d.link.guardBlocked || ports.isEmpty then d
  else d.lk (fun l => { l with sent := l.sent ++ [{ ports := ports, bytes := bytes }], sentThisCycle := true })

/-! ## Guardian windows and outputs (R574, R678, R688, R939, R941) -/

/-- The guardian's time since the cycle start: its oscillator count, scaled by the ratio measured over the previous cycle (R941); nominally 40 counts
a us (R41; log entry 56). -/
def Link.guardTime (l : Link) (count : Nat) : Time := count * 19200 * l.guardExpected / max 1 l.guardCount

/-- The count that LINK leads the guardian to expect over a cycle (R689). -/
def LinkSet.guardCounts (s : LinkSet) : Nat := 40 * s.cycleUs

/-- The guardian's comparison of its count over a cycle with the count expected (R689): the ratio of R941. -/
def Link.measureGuard (l : Link) (count : Nat) : Link := { l with guardCount := count, guardExpected := l.live.set.guardCounts }

/-- The deviation of a count in 0.01 %, rounded down. -/
def LinkSet.guardDeviation (s : LinkSet) (count : Nat) : Nat := ((count : Int) - s.guardCounts).natAbs * 10000 / max 1 s.guardCounts

/-- Does a count deviate by more than 0.5 % (R689)? -/
def LinkSet.guardDrifts (s : LinkSet) (count : Nat) : Bool := decide (s.guardCounts < ((count : Int) - s.guardCounts).natAbs * 200)

/-- Is GUARD_EN of a channel high at an instant of the guardian's time (Table 13-4)? The dynamic window follows TXEN, which `txSince` names while it
is high. -/
def Link.gateOpen (l : Link) (c : Fin 2) (t : Time) (txSince : Option Time) : Bool :=
  let s := l.live.set
  let m := s.margin * 76800
  let within := fun (a n : Time) => decide (a ≤ t + m) && decide (t < a + n + m)
  !l.guardBlocked &&
    (l.live.entries.any (fun e =>
        let e' := l.treat e.1 e.2
        e'.owner == s.node && e'.inCycle l.counter && e'.onChannel c && within (us (e'.slot * s.slotUs + s.apoUs)) (ns (s.packetNs e'.maxLen)) &&
          (l.state == .joined || (l.state == .coldstart && e'.kind == 1))) ||
      (match txSince with
       | none => false
       | some a => l.state == .joined && decide (t < a + ns (s.packetNs s.maxDyn) + m) && decide (us s.staticUs ≤ a + m) &&
           decide (a < us s.nitAt + m) &&
           (let o := (a + m - us s.staticUs) % us (max 1 s.miniUs); decide (o ≤ 2 * m))))

/-- The level of the SYNC pin while it is an output (R678). -/
def Dev.syncPin (d : Dev) (t : Time) : Bool :=
  d.lset.syncOut && d.linking && d.link.state == .joined && decide (d.link.cycleAt ≤ t) && decide (t < d.link.cycleAt + us 1)

/-- TXEN of a port on RING (R573, R939): high while a committed RING is in force and the device is ACTIVE (log entry 56). -/
def Dev.ringTxen (d : Dev) (port : Fin 4) : Bool := d.lset.topology == .ring && d.lset.uses port && d.pwr.state == .active

end Sys2Proof.Machine
end

