-- ==== Sys2Proof/Machine/LinkCommands.lean ====
section
/-!
DEFINITION. The Ixward commands (Table 16-11, R832, R833) and IXWARD_COMMIT_APPLY (R576 to R600, R639 to R643, R711 to R713).
-/

namespace Sys2Proof.Machine

/-! ## Settings -/

/-- The topology that a value of LK_SET names: OFF is 0xFFFF, the others their place in the row (R832; log entry 25). -/
def topologyOf (v : Nat) : Option Topology :=
  match v with | 0xFFFF => some .off | 1 => some .bus | 2 => some .star | 3 => some .ring | _ => none

/-- The shortest static slot of a topology (R643). -/
def Topology.minSlot : Topology → Nat
  | .off => 4 | .ring => 4 | .bus => 10 | .star => 10

/-- A setting written with LK_SET: the changed settings, or none outside its range (Tables 12-7 and 13-7). -/
def LinkSet.put (s : LinkSet) (sel v a1 a2 : Nat) : Option LinkSet :=
  let within := fun (lo hi : Nat) (r : LinkSet) => if lo ≤ v ∧ v ≤ hi then some r else none
  match sel with
  | 1 => (topologyOf v).bind (fun t => if t.minSlot ≤ s.slotUs then some { s with topology := t } else none)
  | 2 => within 1 64 { s with node := v }
  | 3 => within 250 16000 { s with cycleUs := v }
  | 4 => within 2 255 { s with slots := v }
  | 5 => within s.topology.minSlot 8000 { s with slotUs := v }
  | 6 => within 0 1023 { s with minislots := v }
  | 7 => within 1 16 { s with miniUs := v }
  | 8 => within 1 63 { s with apoUs := v }
  | 9 => within 0 128 { s with maxDyn := v }
  | 10 => within 0 2 { s with hub := v }
  | 11 => within 3 64 { s with ringSize := v }
  | 12 => if 1 ≤ a1 ∧ a1 ≤ 64 ∧ 8 ≤ a2 ∧ a2 ≤ 4096 then some { s with silence := a1, gone := a2 } else none
  | 13 => within 1 4096 { s with announce := v }
  | 14 => within 1 4096 { s with revert := v }
  | 15 => some { s with scheduleId := BitVec.ofNat 32 v }
  | 33 => if v = 0xFFFF then some { s with coldstart := none } else within 1 3 { s with coldstart := some v }
  | 34 => if 1 ≤ a1 ∧ a1 ≤ 4 ∧ a2 ≤ 2000 then some { s with pd := updAt s.pd (a1 - 1) (fun _ => a2) } else none
  | 35 => within 1 100 { s with offsetLimit := v }
  | 36 => within 2 64 { s with syncLoss := v }
  | 37 => within 1 50 { s with margin := v }
  | 38 =>
    if 1 ≤ a1 ∧ a1 ≤ 64 ∧ (a2 < 4 ∨ a2 = 0xFFFF) then
      some { s with branchOf := updAt s.branchOf (a1 - 1) (fun _ => if a2 < 4 then some (Fin.ofNat 4 a2) else none) }
    else none
  | 39 => within 1 4096 { s with cutCycles := v }
  | 40 => within 0 1 { s with syncOut := v == 1 }
  | 41 => if v = 0xFFFF then some { s with discipline := false } else within 1 1 { s with discipline := true }
  | _ => none

/-- Change the staged copy. -/
def Dev.stageLink (d : Dev) (f : LinkCopy → LinkCopy) : Dev := d.lk (fun l => { l with staged := f l.staged })

/-- A zero that R641 or R712 refuses. -/
def zeroSetting (sel v a1 a2 : Nat) : Bool :=
  ([3, 5, 7, 13, 14, 36, 39].contains sel && v == 0) || (sel == 12 && (a1 == 0 || a2 == 0))

/-- LK_SET (R639 to R643, R711, R712, R832). -/
def cmdLkSet : Command :=
  { code := 0x0801, sup := true, zero := fun x _ => zeroSetting (x.arg 0) (x.arg32 1) (x.arg 1) (x.arg 2),
    range := fun x d => argRange (d.link.staged.set.put (x.arg 0) (x.arg32 1) (x.arg 1) (x.arg 2)).isSome,
    act := fun x d =>
      (d.stageLink (fun c => { c with set := (c.set.put (x.arg 0) (x.arg32 1) (x.arg 1) (x.arg 2)).getD c.set }), .ok []) }

/-- The transmit source of LK_SET_ENTRY (R601, R606). -/
def sourceOf (x : Ctx) : TxSource :=
  match bits (x.arg 5) 1 0 with | 1 => .features (x.arg 6) (x.arg 7) | 2 => .buffer | _ => .none

/-- The entry that LK_SET_ENTRY's arguments spell (Table 12-4). -/
def entryOfArgs (x : Ctx) : SlotEntry :=
  let b := fun (i : Nat) => x.arg64 1 / 256 ^ i % 256
  { slot := b 0, owner := b 1, basket := Fin.ofNat 4 (b 2 % 4), kind := bits (b 2) 3 2, use := bits (b 2) 5 4, silent := bit (b 2) 6,
    base := b 3, repExp := b 4, span := b 5, maxLen := b 6, rank := b 7, source := sourceOf x }

/-- Is every field of an entry within Table 12-4? -/
def SlotEntry.inRange (e : SlotEntry) : Bool :=
  decide (e.slot ≤ 254) && decide (e.owner ≤ 64) && decide (e.kind ≤ 2) && decide (e.use ≤ 2) && decide (e.repExp ≤ 6) &&
    decide (e.base < 2 ^ e.repExp) && decide (1 ≤ e.span) && decide (e.span ≤ 8) && decide (e.maxLen ≤ 128) && decide (e.rank ≤ 4)

/-- LK_SET_ENTRY (R589, R601). -/
def cmdLkSetEntry : Command :=
  { code := 0x0802, sup := true, names := fun x _ => decide (x.arg 0 < 512),
    range := fun x _ =>
      argRange (x.argBit 5 15 || ((entryOfArgs x).inRange && !bit (x.arg64 1) 23 && decide (bits (x.arg 5) 1 0 ≤ 2) &&
        (bits (x.arg 5) 1 0 != 1 || (decide (1 ≤ x.arg 7) && decide (x.arg 7 ≤ 256))))),
    act := fun x d =>
      (d.stageLink (fun c =>
        let entries := if x.argBit 5 15 then assocErase (x.arg 0) c.entries else assocSet (x.arg 0) (entryOfArgs x) c.entries
        { c with entries := entries }), .ok []) }

/-! ## Agreement of a commit -/

/-- Do two entries share a cycle, a channel and a static slot (R592)? -/
def SlotEntry.clashes (a b : SlotEntry) : Bool :=
  let m := min (2 ^ a.repExp) (2 ^ b.repExp)
  a.base % m == b.base % m && (a.use == 0 || b.use == 0 || a.use == b.use) && decide (a.slot < b.slot + b.span) && decide (b.slot < a.slot + a.span)

/-- No two entries of a list clash. -/
def noClash : List (Nat × SlotEntry) → Bool
  | [] => true
  | e :: r => r.all (fun f => !e.2.clashes f.2) && noClash r

/-- D_path in 0.1 us (R595). -/
def LinkSet.pathTenths (s : LinkSet) : Nat :=
  match s.topology with | .off => 0 | .bus => 10 | .star => 65 | .ring => (s.ringSize - 1) * 12

/-- R595 for one entry, in 0.1 us. -/
def SlotEntry.fits (e : SlotEntry) (s : LinkSet) : Bool :=
  s.topology == .off ||
    decide (10 * s.apoUs + s.packetNs e.maxLen / 100 + s.pathTenths + 10 ≤ 10 * e.span * s.slotUs)

/-- R605 for an own DATA entry. -/
def SlotEntry.sourceFits (e : SlotEntry) : Bool :=
  match e.source with
  | .features first count => decide (first + count ≤ 512) && decide ((count + 1) / 2 ≤ e.maxLen)
  | _ => true

/-- R596 for one entry, but for its bindings. -/
def SlotEntry.agrees (e : SlotEntry) (s : LinkSet) : Bool :=
  decide (e.slot + e.span ≤ s.slots) && (e.kind == 2 || e.owner != 0) && (e.kind != 2 || e.owner == 0) && (e.kind == 1 || e.rank == 0) &&
    (s.topology != .ring || (e.use == 0 && e.kind != 1)) &&
    (!s.isHub || e.owner != s.node || e.use == s.hub) &&
    (e.kind != 0 || e.owner != s.node || e.sourceFits) && e.fits s

/-- The REFERENCE entries of a BUS or a STAR (R596, R652, R711). -/
def LinkCopy.referencesAgree (c : LinkCopy) : Bool :=
  let refs := (c.entries.map (·.2)).filter (·.kind == 1)
  refs.all (fun e => decide (8 ≤ e.maxLen)) &&
    (!(c.set.topology == .bus || c.set.topology == .star) ||
      (decide (1 ≤ refs.length) && decide (refs.length ≤ 4) && refs.all (fun e => e.use == 0 && decide (1 ≤ e.rank)) &&
        decide ((refs.map (·.rank)).Nodup) && refs.any (·.rank == 1) && (c.set.coldstart.isNone || c.ownReference.isSome)))

/-- The slots bound by the REMOTE bindings of models whose fitting check has passed (R596, R829). -/
def Dev.boundSlots (d : Dev) : List Nat :=
  d.models.toList.flatMap (fun m => match m with
    | none => []
    | some m => (m.image.bindings.filter (·.kind == 1)).map (·.slot))

/-- Does a staged copy agree (R576, R592, R595, R596, R642, R652, R658, R669, R711)? -/
def Dev.linkAgrees (d : Dev) (c : LinkCopy) : Bool :=
  let s := c.set
  decide (s.nitAt + 20 ≤ s.cycleUs) && noClash c.entries && c.entries.all (fun e => e.2.agrees s) && c.referencesAgree &&
    d.boundSlots.all (fun n => c.entries.any (fun e => e.2.kind == 0 && e.2.slot == n)) && decide (s.silence < s.gone) &&
    decide (4 * s.offsetLimit ≤ 10 * s.nitUs) &&
    (s.topology != .ring || (decide (6 ≤ s.syncLoss) && decide (75 + (s.ringSize - 1) * 12 ≤ 10 * s.nitUs)))

/-! ## Applying a commit -/

/-- Does a change make the node leave the network (R599)? -/
def LinkSet.leaves (a b : LinkSet) : Bool :=
  a.topology != b.topology || a.node != b.node || a.cycleUs != b.cycleUs || a.slotUs != b.slotUs || a.slots != b.slots ||
    a.minislots != b.minislots || a.miniUs != b.miniUs

/-- Does a commit change what a claim on an entry rests on (R600)? -/
def LinkCopy.endsClaim (old new : LinkCopy) (entry : Nat) : Bool :=
  match assocGet? entry old.entries, assocGet? entry new.entries with
  | some a, some b => a.owner != b.owner || a.kind != b.kind || a.use != b.use
  | _, _ => true

/-- The claims that a commit ends; this node's own are lost (R600, Table 12-8). -/
def Dev.endClaims (d : Dev) (new : LinkCopy) : List Claim → Dev
  | [] => d
  | c :: cs =>
    if !d.link.live.endsClaim new c.entry then d.endClaims new cs
    else
      let slot := match assocGet? c.entry d.link.live.entries with | none => 0 | some e => e.slot
      let winner := match assocGet? c.entry new.entries with | none => 0 | some e => e.owner
      let d := d.lk (fun l => { l with claims := l.claims.filter (fun k => !(k.entry == c.entry && k.node == c.node)) })
      (if c.node = d.lset.node then d.postSlot slot { event := .claimLost, subject := slot, data0 := winner }
       else d).endClaims new cs

/-- A commit takes effect (R573, R598 to R600, R713, Table 13-3, Table 13-6). -/
def Dev.applyLink (d : Dev) (c : LinkCopy) : Dev :=
  let old := d.lset
  let d := d.endClaims c d.link.claims
  let renamed := old.node != c.set.node
  let leaves := old.leaves c.set
  let d := d.lk (fun l =>
    { l with live := c, pending := none, nextCycle := l.cycleAt + stretched l.rate (us c.set.cycleUs),
             buffers := l.buffers.filter (fun b => match assocGet? b.1 c.entries with | none => false | some e => e.owner == c.set.node || e.kind == 2),
             root := if c.set.topology == .ring then l.root else 0 })
  let d := d.undiscipline.postLink { event := .commitApplied, subject := 3 }
  if c.set.topology = .off then (d.setSource 0).linkGo .off 0
  else if d.link.state = .fenced then
    if renamed && d.link.fence == .duplicate then d.linkGo .integrate 0 else d
  else if leaves then d.linkGo .listen 0
  else d

/-- Is the captured commit due (R598)? Cycle 0 starts at this instant; a node that is not synchronised, or is OFF, takes it at once. -/
def Dev.linkCommitDue (d : Dev) (p : LinkCommit) : Bool :=
  !d.link.synced || d.lset.topology == .off ||
    (d.link.counter == 0 && d.now == d.link.cycleAt && decide (p.from_ ≤ d.now) && decide (p.at_ ≤ d.link.cst))

/-- IXWARD_COMMIT_APPLY (R598, R822). -/
def execIxwardCommitApply (t : Time) (s : State) : Host.Outcome State Fault Refusal :=
  onDev s t (fun d =>
    match d.link.pending with
    | none => d
    | some p => if d.counting && d.pwr.state != .boot && d.linkCommitDue p then d.applyLink p.copy else d)

/-- LK_COMMIT (R598, R819 to R827; at frame 1 when accepted in BOOT, R859). -/
def cmdLkCommit : Command :=
  { code := 0x0803, sup := true,
    state := fun x d =>
      if x.argBit 4 0 then need d.link.pending.isNone .busy
      else firstErr [need d.link.pending.isNone .stagedConflict, need (d.linkAgrees d.link.staged) .stagedConflict],
    act := fun x d =>
      if x.argBit 4 0 then (d.lk (fun l => { l with staged := l.live }), .ok [])
      else if (!d.link.synced || d.lset.topology == .off) && d.pwr.state != .boot then (d.applyLink d.link.staged, .ok [])
      else (d.lk (fun l => { l with pending := some { copy := l.staged, from_ := d.now + us 100, at_ := x.arg64 0 } }), .ok []) }

/-! ## Reports -/

/-- A 32-bit signed report item. -/
def i32 (v : Int) : List Byte := leInt 4 v

/-- Every setting of Tables 12-7 and 13-7 as LK_SET codes them; the row Entries gives their number (log entry 25). -/
def LinkCopy.report (c : LinkCopy) : List Byte :=
  let s := c.set
  let topo := match s.topology with | .off => 0xFFFF | .bus => 1 | .star => 2 | .ring => 3
  ([topo, s.node, s.cycleUs, s.slots, s.slotUs, s.minislots, s.miniUs, s.apoUs, s.maxDyn, s.hub, s.ringSize, s.silence, s.gone, s.announce,
    s.revert, s.scheduleId.toNat, c.entries.length, s.coldstart.getD 0xFFFF] ++ s.pd.toList ++
    [s.offsetLimit, s.syncLoss, s.margin] ++ (s.branchOf.toList.map (fun (b : Option (Fin 4)) => match b with | none => 0xFFFF | some b => b.val)) ++
    [s.cutCycles, s.syncOut.toNat, if s.discipline then 1 else 0xFFFF]).flatMap w32

/-- The ledger of a port (R621, R743). -/
def Port.report (p : Port) : List Byte :=
  w64 p.received.toNat ++ w64 p.delivered.toNat ++ p.discards.toList.flatMap (fun n => w64 n.toNat)

/-- The hop delay of an UP port: the mean of its last 8 measurements, in 1/768 ns (R661); none before the first. -/
def Port.hopDelay (p : Port) : Option Int :=
  if p.hopDelays.isEmpty then none else some (p.hopDelays.sum / p.hopDelays.length)

/-- The items of LK_STATUS (Table 16-3), then NO_DYNAMIC (R617) and the ledgers of the four ports (R743; log entry 25). -/
def Dev.linkReport (d : Dev) (staged : Bool) : List Byte :=
  let l := d.link
  let hop := fun (p : Fin 4) => ((l.ports[p]).hopDelay.getD 0).toNat / 48
  [l.state.number, l.source, l.fence.number, l.root].flatMap w32 ++ i32 l.rho ++ i32 (divRoundAway l.lastE 768) ++
    ((List.range 8).map (fun i => Config.hopItem i (hop 0) (hop 2))).flatMap w32 ++
    w32 (packBits (l.branchCut.toList.map (·.isSome))) ++ (if staged then l.staged else l.live).report ++
    w32 (if l.live.set.minislots = 0 then 1 else 0) ++ l.ports.toList.flatMap Port.report

/-- LK_STATUS (R617, R710, R743). -/
def cmdLkStatus : Command := blockCommand 0x0804 false (fun _ _ => true) (fun _ _ => none) (fun x d => d.linkReport (x.argBit 1 0))

/-- The items of LK_PARTNERS (R631): the last ANNOUNCE in the 64 words that the longest takes (log entry 25). -/
def Partner.report (p : Partner) : List Byte :=
  w32 (match p.state with | .gone => 0 | .silent => 1 | .present => 2) ++
    wordBytes ((List.range 64).map (fun i => p.announce.getD i 0)) ++ w32 p.lastCycle ++ w32 p.delivered.toNat

/-- LK_PARTNERS (R631). -/
def cmdLkPartners : Command :=
  blockCommand 0x0805 false (fun _ _ => true) (fun x _ => argRange (decide (1 ≤ x.arg 0) && decide (x.arg 0 ≤ 64)))
    (fun x d => match d.link.partners.toList[x.arg 0 - 1]? with | none => [] | some p => p.report)

/-- One entry of the link event log in 16 bytes: its fields in the order of R708 (log entry 25). -/
def LinkLog.bytes (e : LinkLog) : List Byte :=
  leBytes 8 e.stamp.toNat ++ leBytes 1 e.port ++ leBytes 1 e.kind ++ leBytes 1 e.node ++ leBytes 2 e.slot ++ leBytes 1 e.cycle ++
    leBytes 1 e.noticed.toNat ++ [0]

/-- The kinds of R709 in rising order. -/
def linkKinds : List Nat := (List.range 11).map (· + 1) ++ (List.range 12).map (· + 33) ++ (List.range 12).map (· + 65)

/-- The items of LK_LOG: the overwrite counter, 64 entries, the counters of the kinds of R709. -/
def Dev.linkLogReport (d : Dev) : List Byte :=
  w32 d.link.logOverwrites.toNat ++
    (List.range 64).flatMap (fun i => match d.link.log[i]? with | none => List.replicate 16 0 | some e => e.bytes) ++
    linkKinds.flatMap (fun k => w32 (at? d.link.kinds k 0).toNat)

/-- LK_LOG (R708 to R710). -/
def cmdLkLog : Command := blockCommand 0x080C true (fun _ _ => true) (fun _ _ => none) (fun _ d => d.linkLogReport)

/-! ## Sending, claims and mail -/

/-- The copies of the schedule that a command is judged against (R828). -/
def Dev.linkCopies (d : Dev) : List LinkCopy := d.link.live :: (match d.link.pending with | none => [] | some p => [p.copy])

/-- Do this node and the basket own the entry in a copy, by schedule or by a claim in force (R607, R635)? -/
def Dev.ownsEntry (d : Dev) (b : Basket) (c : LinkCopy) (n : Nat) : Bool :=
  match assocGet? n c.entries with
  | none => false
  | some e =>
    let e := d.link.treat n e
    e.kind == 0 && e.owner == c.set.node && e.basket == b

/-- LK_SEND (R606, R607). -/
def cmdLkSend : Command :=
  { code := 0x0806,
    names := fun x d => d.linkCopies.all (fun c => d.ownsEntry x.b c (x.arg 0)) && x.memory d (x.arg32 1) (2 * x.arg 3),
    range := fun x d => argRange (d.linkCopies.all (fun c => match assocGet? (x.arg 0) c.entries with
      | none => false | some e => decide (x.arg 3 ≤ e.maxLen))),
    act := fun x d =>
      (d.lk (fun l => { l with buffers := assocSet (x.arg 0) (packetWords (d.sram.bytes (x.arg32 1) (2 * x.arg 3)), d.now) l.buffers }), .ok []) }

/-- LK_CLAIM (R632). -/
def cmdLkClaim : Command :=
  { code := 0x0807, sup := true, names := fun x d => (assocGet? (x.arg 0) d.link.live.entries).isSome,
    range := fun x _ => argRange (decide (x.arg 1 < 4)),
    state := fun x d =>
      firstErr [need (d.link.state == .joined && decide (0 < d.lset.minislots)) .linkState,
        need (d.linkCopies.all (fun c => match assocGet? (x.arg 0) c.entries with | none => false | some e => e.kind == 2) &&
          !d.link.claims.any (fun c => c.entry == x.arg 0 && (c.inForce || c.node == d.lset.node))) .slotTaken],
    act := fun x d =>
      let c : Claim := { entry := x.arg 0, node := d.lset.node, basket := Fin.ofNat 4 (x.arg 1), seen := false, opposed := false,
                         unopposed := 0, inForce := false, released := false, silentFor := 0, heard := false }
      (d.lk (fun l => { l with claims := l.claims ++ [c] }), .ok []) }

/-- LK_RELEASE (R638). -/
def cmdLkRelease : Command :=
  { code := 0x0808, sup := true, names := fun x d => (assocGet? (x.arg 0) d.link.live.entries).isSome,
    state := fun x d => need (match d.link.claimOn (x.arg 0) with | none => false | some c => c.node == d.lset.node) .state,
    act := fun x d =>
      (d.lk (fun l => { l with claims := l.claims.map (fun c => if c.entry == x.arg 0 && c.inForce then { c with released := true } else c) }), .ok []) }

/-- May a basket send and receive mail (R619, R723)? -/
def Dev.mailRight (d : Dev) (b : Basket) : Bool :=
  d.grants[b].slots.toList.any (fun x => x) || d.link.entries.any (fun e => e.2.owner == d.lset.node && e.2.basket == b)

/-- LK_MAIL_SEND (R618, R833). -/
def cmdLkMailSend : Command :=
  { code := 0x0809, names := fun x d => d.mailRight x.b && x.memory d (x.arg32 1) (2 * x.arg 3),
    range := fun x d => argRange (decide (x.arg 0 % 256 ≤ 64) && decide (x.arg 3 + 1 ≤ d.lset.maxDyn)),
    state := fun x d =>
      firstErr [need (d.link.state == .joined && decide (0 < d.lset.minislots)) .linkState, need (d.link.mailOut[x.b]).isNone .busy],
    act := fun x d =>
      let head := BitVec.ofNat 16 (x.arg 0 % 256 + 256 * bits (x.arg 0) 9 8 + 1024 * x.b.val)
      (d.lk (fun l => { l with mailOut := upd l.mailOut x.b (fun _ => some (head :: packetWords (d.sram.bytes (x.arg32 1) (2 * x.arg 3)))) }), .ok []) }

/-- LK_MAIL_READ (R619, R812): the oldest message, which lies in the basket's grant whole. -/
def cmdLkMailRead : Command :=
  { code := 0x080A,
    names := fun x d => d.mailRight x.b &&
      x.memory d (x.arg32 0) (match (d.link.mailIn[x.b]).head? with | none => 0 | some m => 2 * m.words.length),
    act := fun x d =>
      match d.link.mailIn[x.b] with
      | [] => (d, .ok [])
      | m :: r =>
        ((d.lk (fun l => { l with mailIn := upd l.mailIn x.b (fun _ => r) })).memWrite (x.arg32 0) (wordBytes m.words),
          .ok [BitVec.ofNat 16 m.words.length, BitVec.ofNat 16 m.node, BitVec.ofNat 16 m.basket.val]) }

/-- LK_REARM (R687, R707, Table 13-6). -/
def cmdLkRearm : Command :=
  { code := 0x080B, sup := true, state := fun _ d => need (d.link.state == .fenced && d.link.fence == .guard) .linkState,
    act := fun _ d => ((d.lk (fun l => { l with guardViolations := 0 })).linkGo .integrate 0, .ok []) }

def execLkSet (t : Time) (b : Basket) (s : State) : Host.Outcome State Fault Refusal := hostCommand cmdLkSet t b s
def execLkSetEntry (t : Time) (b : Basket) (s : State) : Host.Outcome State Fault Refusal := hostCommand cmdLkSetEntry t b s
def execLkCommit (t : Time) (b : Basket) (s : State) : Host.Outcome State Fault Refusal := hostCommand cmdLkCommit t b s
def execLkStatus (t : Time) (b : Basket) (s : State) : Host.Outcome State Fault Refusal := hostCommand cmdLkStatus t b s
def execLkPartners (t : Time) (b : Basket) (s : State) : Host.Outcome State Fault Refusal := hostCommand cmdLkPartners t b s
def execLkSend (t : Time) (b : Basket) (s : State) : Host.Outcome State Fault Refusal := hostCommand cmdLkSend t b s
def execLkClaim (t : Time) (b : Basket) (s : State) : Host.Outcome State Fault Refusal := hostCommand cmdLkClaim t b s
def execLkRelease (t : Time) (b : Basket) (s : State) : Host.Outcome State Fault Refusal := hostCommand cmdLkRelease t b s
def execLkMailSend (t : Time) (b : Basket) (s : State) : Host.Outcome State Fault Refusal := hostCommand cmdLkMailSend t b s
def execLkMailRead (t : Time) (b : Basket) (s : State) : Host.Outcome State Fault Refusal := hostCommand cmdLkMailRead t b s
def execLkRearm (t : Time) (b : Basket) (s : State) : Host.Outcome State Fault Refusal := hostCommand cmdLkRearm t b s
def execLkLog (t : Time) (b : Basket) (s : State) : Host.Outcome State Fault Refusal := hostCommand cmdLkLog t b s

end Sys2Proof.Machine
end

