-- ==== Sys2Proof/Machine/LinkReceive.lean ====
section
/-!
DEFINITION. PACKET_RECEIVE: the checks of Table 12-5, forwarding, delivery, and time packets (R618 to R626, R630 to R636, R649 to R666,
R683 to R697, R702 to R706).
-/

namespace Sys2Proof.Machine

/-! ## The checks of Table 12-5 -/

/-- The node whose dynamic slot begins at a minislot of a channel (R611, R612). -/
def Link.dynOwner (l : Link) (c : Fin 2) (m : Nat) : Option Nat :=
  let q := l.dyn[c]
  if m < q.next ∨ 64 ≤ q.idx + (m - q.next) then none else some ((l.counter + q.idx + (m - q.next)) % 64 + 1)

/-- The minislot in which an instant lies. -/
def Link.minislotAt (l : Link) (t : Time) : Option Nat :=
  let s := l.live.set
  if t < l.at s.staticUs ∨ l.at s.nitAt ≤ t then none else some (((l.since t).toNat - us s.staticUs) / us (max 1 s.miniUs))

/-- A packet has started at minislot m of a channel and ended at an instant: the next dynamic slot (R613, R616). -/
def Link.dynPassed (l : Link) (c : Fin 2) (m : Nat) (stop : Time) : Link :=
  let s := l.live.set
  let last := ((l.since stop).toNat - us s.staticUs) / us (max 1 s.miniUs)
  { l with dyn := upd l.dyn c (fun q => { q with next := max q.next (last + 2), idx := q.idx + (m - q.next) + 1 }) }

/-- R653: the RANK of a time packet is that of its entry, its CYCLE_INDEX agrees with its CYCLE. -/
def Link.timeFault (l : Link) (p : Packet) : Option Discard :=
  if l.live.set.topology == .ring then
    if p.slot != 0x7FE || p.type != 3 || p.basket != 0 || p.word 10 % 256 != p.node then some .owner
    else if p.words 4 3 % 64 != p.cycle then some .cycle else none
  else
    match l.entries.find? (fun e => e.2.kind == 1 && e.2.slot == p.slot && e.2.inCycle p.cycle) with
    | none => some .owner
    | some e =>
      if e.2.owner != p.node || e.2.basket.val != p.basket || bits (p.word 7) 2 0 != e.2.rank then some .owner
      else if p.words 4 3 % 64 != p.cycle then some .cycle else none

/-- Does the start of packet lie in the window that SLOT names (check 8)? -/
def Link.inWindow (l : Link) (c : Fin 2) (p : Packet) (sop : Time) : Bool :=
  let s := l.live.set
  let within := fun (a b : Time) => decide (a ≤ sop) && decide (sop < b)
  if p.slot < 0x100 then
    decide (p.slot < s.slots) &&
      (match l.ownerOf l.counter p.slot c with
       | none => within (l.at (p.slot * s.slotUs)) (l.at ((p.slot + 1) * s.slotUs))
       | some e => e.2.slot == p.slot && within (l.at (e.2.slot * s.slotUs)) (l.at ((e.2.slot + e.2.span) * s.slotUs)))
  else if p.slot = 0x7FE then s.topology == .ring && within (l.at s.nitAt) l.nextCycle
  else decide (p.slot - 0x100 < s.minislots) && l.minislotAt sop == some (p.slot - 0x100)

/-- Do NODE and BASKET own the slot instance, and is TYPE allowed there (check 9)? -/
def Link.ownedBy (l : Link) (c : Fin 2) (p : Packet) : Bool :=
  if p.slot < 0x100 then
    match l.ownerOf l.counter p.slot c with
    | none => false
    | some e =>
      e.2.owner == p.node && e.2.basket.val == p.basket &&
        (match e.2.kind with | 0 => p.type == 1 || (p.type == 0 && !e.2.silent) | 1 => p.isTime | _ => false)
  else if p.slot = 0x7FE then p.type == 3
  else (p.type == 4 || p.type == 5 || p.type == 6 || p.type == 9) && p.basket == 0 && l.dynOwner c (p.slot - 0x100) == some p.node

/-- Has this node sent the packet itself (R684, R706)? -/
def Link.sentIt (l : Link) (bytes : List Byte) : Bool := l.sent.any (fun x => x.bytes.take 8 == bytes.take 8)

/-- Was the same packet already delivered from the other channel or ring direction (check 10)? Copies of a ring STARTUP differ in HOPS and
ACCUM. -/
def Link.isCopy (l : Link) (c : Fin 2) (port : Fin 4) (p : Packet) (bytes : List Byte) : Bool :=
  (decide (0x100 ≤ p.slot) || (match l.ownerOf l.counter p.slot c with | none => false | some e => e.2.use == 0)) &&
    l.heard.any (fun h => h.port != port && (if p.slot = 0x7FE then h.bytes.take 8 == bytes.take 8 else h.bytes == bytes))

/-- Is the mailbox that a MAILBOX packet names full (R619)? -/
def Dev.mailboxFull (d : Dev) (p : Packet) : Bool :=
  p.type == 9 && (p.word 0 % 256 == 0 || p.word 0 % 256 == d.lset.node) &&
    (match d.link.mailIn.toList[bits (p.word 0) 9 8]? with | none => false | some m => decide (16 ≤ m.length)) &&
    d.mailRight (Fin.ofNat 4 (bits (p.word 0) 9 8))

/-- Checks 1 to 5 of Table 12-5, which need no cycle. -/
def frameFault (ring : Bool) (rx : Reception) (p : Packet) : Option Discard :=
  if !rx.codeOk then some .code
  else if rx.bytes.length < 8 ∨ crc8 (rx.bytes.take 7) ≠ rx.bytes.getD 7 0 then some .hcrc
  else if 10 ≤ p.type ∨ p.reserved ∨ p.node = 0 ∨ 64 < p.node then some .format
  else if rx.bytes.length ≠ 12 + 2 * p.length ∨ !p.lengthOk ring then some .length
  else if leValue (rx.bytes.drop (8 + 2 * p.length)) ≠ (crc32c (rx.bytes.take (8 + 2 * p.length))).toNat then some .crc
  else none

/-- Checks 6 to 11 of Table 12-5. -/
def Dev.placeFault (d : Dev) (port : Fin 4) (rx : Reception) (p : Packet) : Option Discard :=
  let l := d.link
  let s := l.live.set
  if p.type = 7 ∨ p.type = 8 then
    (if s.topology != .ring then (if l.synced then some .owner else some .notSynced)
     else if p.slot ≠ 0x7FF then some .slot else if (s.channelOf port).isSome ∨ p.basket ≠ 0 then some .owner else none)
  else if !l.synced then (if p.isTime then l.timeFault p else some .notSynced)
  else
    match s.channelOf port with
    | none => some .slot
    | some c =>
      if p.cycle ≠ l.counter then some .cycle
      else if !l.inWindow c p rx.sop then some .slot
      else if !l.ownedBy c p then some .owner
      else
        match if p.isTime then l.timeFault p else none with
        | some r => some r
        | none =>
          if l.sentIt rx.bytes || l.isCopy c port p rx.bytes then some .duplicate
          else if d.mailboxFull p then some .mailboxFull else none

/-! ## Forwarding (R663, R683, R684, R692 to R697, R699) -/

/-- Put bytes out on ports as forwarded traffic. -/
def Dev.forward (d : Dev) (ports : List (Fin 4)) (bytes : List Byte) : Dev :=
  if ports.isEmpty then d else d.lk (fun l => { l with sent := l.sent ++ [{ ports := ports, bytes := bytes }] })

/-- Where a ring node sends what arrives on a port (R699). -/
def Link.ringOut (l : Link) (port : Fin 4) : List (Fin 4) :=
  if port = 0 then (if (l.ports[0]).broken then [] else if (l.ports[2]).broken then [3] else [1])
  else if port = 2 then (if (l.ports[2]).broken then [] else if (l.ports[0]).broken then [1] else [3])
  else []

/-- A STARTUP as a ring node forwards it: HOPS, ACCUM, and a trailer that is inverted when the received one failed (R663). -/
def startupForward (p : Packet) (bytes : List Byte) (hop residence : Nat) (good : Bool) : List Byte :=
  let accum := (p.words 8 2 + hop / 48 + residence) % 2 ^ 32
  let payload := (p.payload.take 7) ++ [BitVec.ofNat 16 (p.word 7 / 128 * 128 + (p.word 7 % 128 + 1) % 128)] ++ leWords 2 accum ++ p.payload.drop 10
  let b := bytes.take 8 ++ wordBytes payload
  b ++ leBytes 4 (if good then (crc32c b).toNat else (~~~ crc32c b).toNat)

/-- The hop delay of the lane that an UP port receives, in 1/768 ns. -/
def Dev.hopOf (d : Dev) (port : Fin 4) : Int :=
  match (d.link.ports[port]).hopDelay with | some h => h | none => Config.noHopDelay port.val

/-- A ring node forwards (R663, R683, R684, R697): `frame` is what checks 1 to 5 say, `place` what the others say. -/
def Dev.ringForward (d : Dev) (port : Fin 4) (rx : Reception) (p : Packet) (frame place : Option Discard) : Dev :=
  let l := d.link
  let startup := p.type == 3 && p.slot == 0x7FE
  let framed := frame == none || (startup && frame == some .crc)
  let placed := l.state != .joined || place == none || place == some .duplicate || place == some .mailboxFull
  if !framed || !placed || p.node == l.live.set.node || p.type == 7 || p.type == 8 then d
  else if startup then
    let (n, d) := d.draw
    d.forward (l.ringOut port) (startupForward p rx.bytes (d.hopOf port).toNat (Config.residence n) (frame == none))
  else d.forward (l.ringOut port) rx.bytes

/-- The window of the hub's cycle in which an instant lies: its owner, if any, and its end (R692). In the dynamic segment it is a packet's
own dynamic slot. -/
def Link.hubWindow (l : Link) (c : Fin 2) (t : Time) : Option Nat × Time :=
  let s := l.live.set
  if t < l.at s.staticUs then
    let n := (l.since t).toNat / us (max 1 s.slotUs)
    match l.ownerOf l.counter n c with
    | none => (none, l.at ((n + 1) * s.slotUs))
    | some e => (if e.2.kind = 2 then none else some e.2.owner, l.at ((e.2.slot + e.2.span) * s.slotUs))
  else
    match l.minislotAt t with
    | none => (none, l.nextCycle)
    | some m => (l.dynOwner c m, l.at s.nitAt)

/-- What is left of a packet cut at an instant (R694): a hub sends it 4 us after it arrives, 500 ns a byte after the two control symbols. -/
def hubCut (bytes : List Byte) (sop stop : Time) : List Byte := bytes.take ((stop - (sop + ns 4000)) / ns 500 - 2)

/-- A branch that starts out of turn is blocked (R693); NOTICE HUB_BLOCKED names a sender that can be read. -/
def Dev.hubBlock (d : Dev) (branch : Fin 4) (p : Packet) : Dev :=
  let d := d.lk (fun l => { l with branchBlockedNow := upd l.branchBlockedNow branch (fun _ => true),
                                   branchLast := upd l.branchLast branch (fun _ => (p.node, p.slot, p.type)) })
  if 1 ≤ p.node ∧ p.node ≤ 64 then d.linkViolation branch 11 p.node p.slot p.cycle p.type else d

/-- A hub copies a packet to its other branches (R683, R692 to R696). -/
def Dev.hubForward (d : Dev) (branch : Fin 4) (c : Fin 2) (rx : Reception) (p : Packet) (frame : Option Discard) : Dev :=
  let l := d.link
  let others := (List.finRange 4).filter (· != branch)
  if (l.branchCut[branch]).isSome then d
  else if l.state != .joined then (if frame == none then d.forward others rx.bytes else d)
  else
    match l.hubWindow c rx.sop with
    | (none, stop) => if stop = l.nextCycle then d else d.hubBlock branch p
    | (some owner, stop) =>
      if at? l.live.set.branchOf (owner - 1) none != some branch || l.branchBlockedNow[branch] then d.hubBlock branch p
      else if stop < d.now + ns 4000 then d.forward others (hubCut rx.bytes rx.sop stop)
      else d.forward others rx.bytes

/-! ## Time packets (R649 to R666, R685) -/

/-- The offset of a time packet's reference point from its sender's cycle start, as it arrives here, in 1/768 ns (R655, R664). -/
def Dev.timeOffset (d : Dev) (port : Fin 4) (p : Packet) : Int :=
  let s := d.lset
  if s.topology == .ring then
    ((us (s.nitAt + s.apoUs) + ns 100 + p.words 8 2 * 48 : Nat) : Int) + d.hopOf port
  else
    ((us (p.slot * s.slotUs + s.apoUs) + ns (500 + at? s.pd (bits (p.word 7) 2 0 - 1) 0 + if s.topology == .star then 4000 else 0) : Nat) : Int)

/-- The order in which time packets of one cycle are preferred: the rank (R654); on RING the lower root, fewer HOPS, channel A (R664, R666). -/
def Link.timeKey (l : Link) (port : Fin 4) (p : Packet) : Nat :=
  if l.live.set.topology == .ring then (p.word 10 % 256) * 1024 + 2 * (p.word 7 % 128) + (if port = 2 then 1 else 0)
  else bits (p.word 7) 2 0

/-- The source that a time packet is: its rank; on RING none is shown, but the root. -/
def Dev.takeSource (d : Dev) (p : Packet) : Dev :=
  if d.lset.topology == .ring then d.lk (fun l => { l with root := p.word 10 % 256 })
  else
    let rank := bits (p.word 7) 2 0
    let later := d.link.entries.any (fun e => e.2.kind == 1 && decide (e.2.rank < rank) && e.2.inCycle d.link.counter &&
      decide (d.now < d.link.at ((e.2.slot + e.2.span) * d.lset.slotUs)))
    if d.link.source = 0 ∨ rank ≤ d.link.source ∨ !later then d.setSource rank else d

/-- R685: the first valid time packet sets the cycle. -/
def Dev.adoptCycle (d : Dev) (port : Fin 4) (rx : Reception) (p : Packet) : Dev :=
  let start := rx.ref - stretched d.link.rho (d.timeOffset port p).toNat
  let d := d.lk (fun l =>
    { l with rate := l.rho, cycleAt := start, nextCycle := { l with rate := l.rho }.after start, cst := p.words 0 4, cycleIndex := p.words 4 3, everSynced := true,
             adopting := false, fullCycle := false, timeNow := [p.slot], timeLast := [], cycleE := none, corrected := false, badPacket := false,
             dyn := Vector.replicate 2 DynChannel.reset, dynPacket := none, gotSlots := [] })
  (d.takeSource p).adoptFrames

/-- A valid time packet of a cycle that the node follows (R654, R655, R664, R666). -/
def Dev.timeCandidate (d : Dev) (port : Fin 4) (rx : Reception) (p : Packet) : Dev :=
  let l := d.link
  let ring := l.live.set.topology == .ring
  let isRoot := ring && l.root == l.live.set.node
  let d := d.lk (fun l => { l with timeNow := insertNat p.slot l.timeNow })
  let d := if isRoot && decide (p.word 10 % 256 < l.root) then d.postLink { event := .rootChange, subject := p.word 10 % 256 } else d
  if isRoot && decide (l.root ≤ p.word 10 % 256) then d
  else if !ring && l.state == .joined && l.ownRank != 0 && decide (l.ownRank ≤ bits (p.word 7) 2 0) then d
  else
    let key := l.timeKey port p
    if (match l.cycleE with | none => false | some b => decide (b.1 ≤ key)) then d
    else
      let e := l.since rx.ref - d.timeOffset port p
      (d.lk (fun l => { l with cycleE := some (key, e), lastE := e })).takeSource p

/-- A valid time packet (Table 13-3, R685; REF_INVALID of Table 13-5). -/
def Dev.timePacket (d : Dev) (port : Fin 4) (rx : Reception) (p : Packet) : Dev :=
  let l := d.link
  if p.type = 2 ∧ l.state = .joined ∧ 100 * l.live.set.offsetLimit < ((p.words 0 4 : Int) - l.cst).natAbs then
    d.linkViolation port 10 p.node p.slot p.cycle p.type
  else if l.state = .listen ∨ l.state = .coldstart then (d.linkGo .integrate 0).adoptCycle port rx p
  else if l.state = .integrate ∧ l.adopting then d.adoptCycle port rx p
  else d.timeCandidate port rx p

/-! ## Delivery -/

/-- A partner is heard (R630, R631). -/
def Dev.hearPartner (d : Dev) (p : Packet) : Dev :=
  match d.link.partners.toList[p.node - 1]? with
  | none => d
  | some q =>
    let d := d.lk (fun l => { l with partners := updAt l.partners (p.node - 1) (fun q =>
      { q with state := .present, lastCycle := p.cycle, quiet := 0, delivered := q.delivered + 1 }) })
    if q.state = .present then d else d.postLink { event := .partner, subject := p.node, data0 := 2 }

/-- The network time of the start of a static slot of this cycle. -/
def Link.slotTime (l : Link) (slot : Nat) : Nat := l.cst + slot * l.live.set.slotUs * 1000

/-- The frame to which a block belongs (R622); none before frame 1. -/
def Dev.blockFrame (d : Dev) (slot : Nat) : Option Nat :=
  if !d.wr.running then none
  else if d.wr.startStamp.toNat ≤ d.link.slotTime slot then some d.wr.num
  else if d.wr.num = 1 then none else some (d.wr.num - 1)

/-- The hold buffers that a delivered block fills: HOLD_LAST bindings of its node and slot that it covers (R429, R625). -/
def Dev.fillHolds (d : Dev) (p : Packet) : List Model → Dev
  | [] => d
  | m :: ms =>
    let d := (m.image.bindings.zipIdx).foldl (fun d x =>
      if x.1.holds && x.1.node == p.node && x.1.slot == p.slot && decide (x.1.first + x.1.count ≤ 2 * p.length) then
        d.memWrite (m.bufferAddr m.image.holdBuffer + 256 * m.image.holdIndex x.2) (wordBytes p.payload)
      else d) d
    d.fillHolds p ms

/-- REMOTE_DELIVERY (R467, R622 to R624). -/
def Dev.remoteWrite (d : Dev) (p : Packet) : Dev :=
  match d.blockFrame p.slot with
  | none => d
  | some k =>
    let a := remoteAddr k p.slot
    let d := (d.memWrite a (wordBytes p.payload)).memWrite (a + 0x100)
      (w64 (d.link.slotTime p.slot) ++ leBytes 1 p.node ++ leBytes 1 p.length ++ leBytes 2 k ++ leBytes 2 p.flags)
    d.fillHolds p (d.models.toList.filterMap id)

/-- This node's own claim loses (R634). -/
def Dev.loseClaim (d : Dev) (entry slot winner : Nat) : Dev :=
  (d.lk (fun l => { l with claims := l.claims.filter (fun c => !(c.entry == entry && c.node == l.live.set.node && !c.inForce)) })).postSlot slot
    { event := .claimLost, subject := slot, data0 := winner }

/-- A CLAIM for a SPARE entry (R633 to R635): the lower node ID stays, and a cycle with two claimants is opposed. -/
def Dev.takeClaim (d : Dev) (p : Packet) (entry slot : Nat) : Dev :=
  let fresh : Claim := { entry := entry, node := p.node, basket := Fin.ofNat 4 (bits (p.word 0) 11 10), seen := true, opposed := false,
                         unopposed := 0, inForce := false, released := false, silentFor := 0, heard := false }
  match d.link.claims.find? (fun c => c.entry == entry && !c.inForce) with
  | none => d.lk (fun l => { l with claims := l.claims ++ [fresh] })
  | some c =>
    if c.node = p.node then
      d.lk (fun l => { l with claims := l.claims.map (fun k => if k.entry == entry && k.node == p.node then { k with seen := true } else k) })
    else if c.node < p.node then
      d.lk (fun l => { l with claims := l.claims.map (fun k => if k.entry == entry && k.node == c.node then { k with opposed := true } else k) })
    else
      let d := if c.node = d.lset.node then d.loseClaim entry slot p.node
        else d.lk (fun l => { l with claims := l.claims.filter (fun k => !(k.entry == entry && k.node == c.node)) })
      d.lk (fun l => { l with claims := l.claims ++ [{ fresh with opposed := true }] })

/-- Claims that an ANNOUNCE reports as held, learned by a node that joined later (R636). -/
def Dev.learnClaims (d : Dev) (p : Packet) : List Nat → Dev
  | [] => d
  | w :: ws =>
    (match d.link.claimedEntry w with
     | none => d
     | some (n, e) =>
       if e.kind != 2 || (d.link.claimOn n).isSome then d
       else
         let c : Claim := { entry := n, node := p.node, basket := Fin.ofNat 4 (bits w 11 10), seen := false, opposed := false, unopposed := 0,
                            inForce := true, released := false, silentFor := 0, heard := true }
         d.lk (fun l => { l with claims := l.claims ++ [c] })).learnClaims p ws

/-- An ANNOUNCE (R627, R631, R636, Table 13-5 codes 8 and 9). -/
def Dev.takeAnnounce (d : Dev) (port : Fin 4) (p : Packet) : Dev :=
  let d := d.lk (fun l => { l with partners := updAt l.partners (p.node - 1) (fun q => { q with announce := p.payload }) })
  let d := d.learnClaims p ((List.range (p.word 7 % 256)).map (fun i => p.word (8 + i)))
  let d := if p.words 3 2 = d.lset.scheduleId.toNat then d else d.linkViolation port 8 p.node p.slot p.cycle p.type
  let f := d.wr.live.frame
  if f.source == .network && p.words 5 2 != 0 && p.words 5 2 != f.netLen then d.linkViolation port 9 p.node p.slot p.cycle p.type else d

/-- A NOTICE (R705, R706). -/
def Dev.takeNotice (d : Dev) (port : Fin 4) (p : Packet) : Dev :=
  if p.word 3 ≠ d.lset.node then d
  else
    let d := d.linkLog port (64 + p.word 0 % 64) p.node (p.word 1) (p.word 2 % 64) false
    let d := d.postLink { event := .notice, subject := p.node, data0 := p.word 0, data1 := p.word 1 }
    if p.word 0 = 7 then d.linkFence .duplicate else d

/-- A MAILBOX message for a basket of this node that may receive mail (R618, R619). -/
def Dev.takeMail (d : Dev) (p : Packet) : Dev :=
  let w := p.word 0
  if w % 256 ≠ 0 ∧ w % 256 ≠ d.lset.node then d
  else
    let b : Basket := Fin.ofNat 4 (bits w 9 8)
    if !d.mailRight b then d
    else
      let mail : Mail := { node := p.node, basket := Fin.ofNat 4 (bits w 11 10), words := p.payload.drop 1 }
      d.lk (fun l => { l with mailIn := upd l.mailIn b (fun m => m ++ [mail]) })

/-- CYCLE of a DELAY packet (R651). -/
def Link.delayCycle (l : Link) (p : Packet) : Packet := { p with cycle := if l.synced then l.counter else 0 }

/-- A DELAY_REQ is answered on the UP port of the other channel (R651, R660). -/
def Dev.answerDelay (d : Dev) (port : Fin 4) (p : Packet) : Dev :=
  let (n, d) := d.draw
  let l := d.link
  let q := l.delayCycle (l.mine 8 0x7FF 0 0 (BitVec.ofNat 16 (p.word 0) :: leWords 2 (Config.turnaround n % 800001)))
  d.transmit [if port = 1 then 2 else 0] q.bytes

/-- One measurement (R661). -/
def Port.measure (q : Port) (t4 : Time) (turnaround : Nat) (t1 : Time) : Port :=
  let m := (((t4 : Int) - t1) - turnaround * 48) / 2
  let far := match q.hopDelay with | none => false | some h => decide (q.hopDelays.length ≥ 8) && decide (ns 20 < (m - h).natAbs)
  { q with pendingReq := none, hopDelays := if far then q.hopDelays else (m :: q.hopDelays).take 8 }

/-- A DELAY_RESP reaches the DN port of the other channel (R651, R661). -/
def Dev.takeDelay (d : Dev) (port : Fin 4) (rx : Reception) (p : Packet) : Dev :=
  d.lk (fun l => l.onPort (if port = 3 then 0 else 2) (fun q => match q.pendingReq with
    | some (seq, t1) => if seq = p.word 0 then q.measure rx.ref (p.words 1 2) t1 else q
    | none => q))

/-- A valid packet that carries this node's own ID and was not sent by it (R706). -/
def Dev.duplicateId (d : Dev) (port : Fin 4) (p : Packet) : Dev :=
  match d.link.state with
  | .integrate => d.linkFence .duplicate
  | .joined =>
    if 2 ≤ d.link.joinedFor ∧ 0 < d.lset.minislots then d.linkViolation port 7 p.node p.slot p.cycle p.type else d.linkFence .duplicate
  | _ => d

/-- Add 1 to the counter of a slot and channel. -/
def countSlot (slot c : Nat) : List (Nat × Nat × BitVec 32) → List (Nat × Nat × BitVec 32)
  | [] => [(slot, c, 1)]
  | (s, k, n) :: r => if s = slot ∧ k = c then (s, k, n + 1) :: r else (s, k, n) :: countSlot slot c r

/-- A packet arrived in a static slot instance: no EMPTY there (R609); a NULL is counted (R610); a claimant is heard (R637). -/
def Dev.slotHeard (d : Dev) (c : Fin 2) (p : Packet) : Dev :=
  if 0x100 ≤ p.slot then d
  else
    let heard := fun (l : Link) (k : Claim) => if k.inForce && k.node == p.node && l.live.entries.any (fun e => e.1 == k.entry && e.2.slot == p.slot)
      then { k with heard := true } else k
    d.lk (fun l => { l with gotSlots := (p.slot, c.val) :: l.gotSlots, claims := l.claims.map (heard l),
                            nullCounts := if p.type = 0 then countSlot p.slot c.val l.nullCounts else l.nullCounts })

/-- What a delivered packet does. -/
def Dev.deliver (d : Dev) (port : Fin 4) (rx : Reception) (p : Packet) : Dev :=
  match p.type with
  | 0 => d
  | 1 => d.remoteWrite p
  | 2 => d.timePacket port rx p
  | 3 => d.timePacket port rx p
  | 4 => match d.link.claimedEntry (p.word 0) with | none => d | some (n, e) => d.takeClaim p n e.slot
  | 5 => d.takeAnnounce port p
  | 6 => d.takeNotice port p
  | 7 => d.answerDelay port p
  | 8 => d.takeDelay port rx p
  | _ => d.takeMail p

/-- Is a CLAIM for an entry that is not SPARE (Table 13-5 code 6)? -/
def Link.badClaim (l : Link) (p : Packet) : Bool :=
  p.type == 4 && (match l.claimedEntry (p.word 0) with | none => true | some (n, e) => e.kind != 2 || (l.claimOn n).isSome)

/-- A packet that passed every check (R620, R621): delivered, unless it is a CLAIM that Table 13-5 discards, which the ledger counts under
OWNER (log entry 24). -/
def Dev.acceptPacket (d : Dev) (port : Fin 4) (rx : Reception) (p : Packet) : Dev :=
  if d.link.badClaim p then
    (d.lk (fun l => l.onPort port (fun q => { q with discards := upd q.discards (Discard.owner).index (· + 1) }))).linkViolation port 6 p.node
      p.slot p.cycle p.type
  else
    let d := d.lk (fun l => { l.onPort port (fun q => { q with delivered := q.delivered + 1 }) with
      heard := l.heard ++ [{ bytes := rx.bytes, port := port }] })
    let d := match d.lset.channelOf port with | none => d | some c => d.slotHeard c p
    if p.node = d.lset.node then d.duplicateId port p else (d.hearPartner p).deliver port rx p

/-- A packet that failed a check. -/
def Dev.rejectPacket (d : Dev) (port : Fin 4) (rx : Reception) (p : Packet) (r : Discard) : Dev :=
  let d := d.discard port p r
  match r with
  | .cycle => d.lk (fun l => { l with badPacket := true })
  | .slot => d.lk (fun l => { l with badPacket := true })
  | .owner => d.lk (fun l => { l with badPacket := true })
  | .duplicate =>
    let d := match d.lset.channelOf port with | none => d | some c => d.slotHeard c p
    if p.slot = 0x7FE ∧ p.node ≠ d.lset.node ∧ d.link.synced ∧ !d.link.adopting then d.timeCandidate port rx p else d
  | .code =>
    if d.link.state = .coldstart ∧ d.link.live.entries.any (fun e => e.2.kind == 1 && e.2.owner == d.lset.node && e.2.inCycle d.link.counter &&
        decide (d.link.at (e.2.slot * d.lset.slotUs) ≤ rx.sop) && decide (rx.sop < d.link.at ((e.2.slot + e.2.span) * d.lset.slotUs)))
    then d.linkGo .listen 0 else d
  | _ => d

/-- What a ring node or a hub sends on of a packet that a port receives (R683, R692, R697). -/
def Dev.sendOn (d : Dev) (port : Fin 4) (rx : Reception) (p : Packet) (frame place : Option Discard) : Dev :=
  if d.lset.topology == .ring then d.ringForward port rx p frame place
  else match d.lset.channelOf port with
    | none => d
    | some c => if d.lset.isHub then d.hubForward port c rx p frame else d

/-- The fate of a received packet: discarded under the first check that it fails, or accepted (R620). -/
def Dev.settlePacket (d : Dev) (port : Fin 4) (rx : Reception) (p : Packet) (frame place : Option Discard) : Dev :=
  match frame with
  | some r => d.rejectPacket port rx p r
  | none => (match place with | some r => d.rejectPacket port rx p r | none => d.acceptPacket port rx p)

/-- The channel and the minislot at which a packet that began at an instant fills a dynamic slot, for a node that follows the cycle. -/
def Link.filled (l : Link) (port : Fin 4) (sop : Time) : Option (Fin 2 × Nat) :=
  match l.live.set.channelOf port with
  | none => none
  | some c => (match l.minislotAt sop with
    | none => none
    | some m => if l.synced && decide ((l.dyn[c]).next ≤ m) then some (c, m) else none)

/-- The dynamic slot that a packet fills ends with it (R613, R616), as the node `l` had it when the packet began. -/
def Dev.slotFilled (d : Dev) (l : Link) (port : Fin 4) (sop : Time) : Dev :=
  match l.filled port sop with
  | none => d
  | some x => d.lk (fun k => k.dynPassed x.1 x.2 d.now)

/-- PACKET_RECEIVE (R620, R621): the port's ledger, forwarding, and the fate of the packet; then its dynamic slot ends (R613). -/
def execPacketReceive (t : Time) (port : Fin 4) (rx : Reception) (s : State) : Host.Outcome State Fault Refusal :=
  onDev s t (fun d =>
    let l := d.link
    if !d.linking || l.state == .off || !l.live.set.uses port then d
    else
      let p := Packet.read rx.bytes
      let frame := frameFault (l.live.set.topology == .ring) rx p
      let place := d.placeFault port rx p
      let d := d.lk (fun l => l.onPort port (fun q =>
        { q with received := q.received + 1, breakFree := if q.broken && (l.ports[facing port]).sendingBreak then 0 else q.breakFree }))
      ((d.sendOn port rx p frame place).settlePacket port rx p frame place).slotFilled l port rx.sop)

end Sys2Proof.Machine
end

