-- ==== Sys2Proof/Machine/LinkEvents.lean ====
section
/-!
DEFINITION. What an Ixward node does at its own instants: cycle starts, transmissions, corrections, start-up, claims, guardian, hub and ring
events (R594 to R617, R627 to R638, R646 to R648, R654 to R657, R660, R667 to R682, R686 to R701).
-/

namespace Sys2Proof.Machine

/-! ## The end of a cycle -/

/-- Is this node its own time source: a REFERENCE owner that hears no higher rank, or the root (R654, R666)? -/
def Link.ownSource (l : Link) : Bool :=
  (l.state == .joined || l.state == .coldstart) &&
    (if l.live.set.topology == .ring then l.root == l.live.set.node else l.ownRank != 0 && l.cycleE.isNone)

/-- The EMPTY counters of the ended cycle: owned slot instances of other nodes in which no valid packet arrived (R593, R609). -/
def Link.countEmpty (l : Link) : Link :=
  if !l.synced || !l.fullCycle then l
  else
    let missing := l.entries.flatMap (fun e =>
      if e.2.kind == 2 || e.2.owner == l.live.set.node || !e.2.inCycle l.counter then []
      else (l.live.set.channels.filter (fun c => e.2.onChannel c && !l.gotSlots.contains (e.2.slot, c.val))).map (fun c => (e.2.slot, c.val)))
    { l with emptyCounts := missing.foldl (fun a x => countSlot x.1 x.2 a) l.emptyCounts }

/-- A claim at the end of a cycle (R634, R635, R637): another node's claim that was not repeated is gone. -/
def Link.ageClaim (l : Link) (c : Claim) : Option Claim :=
  if c.inForce then
    match assocGet? c.entry l.live.entries with
    | none => none
    | some e => some (if e.inCycle l.counter then { c with silentFor := if c.heard then 0 else c.silentFor + 1, heard := false } else c)
  else if c.seen || c.node == l.live.set.node then
    some { c with unopposed := if c.seen && !c.opposed then c.unopposed + 1 else 0, seen := false, opposed := false }
  else none

/-- A port at the end of a cycle: cycles without BREAK, and averaging restarts from the second cycle start after a fold (R699 to R701). -/
def Port.cycleEnd (q : Port) : Port :=
  { q with breakFree := if q.broken then q.breakFree + 1 else 0, refold := q.refold - 1, hopDelays := if q.refold = 1 then [] else q.hopDelays }

/-- The counts that a cycle's end moves on (R660 to R670, R686, R689 to R695, R704). -/
def Link.endCycle (l : Link) : Link :=
  let l := l.countEmpty
  let limit := l.live.set.offsetLimit * 76800
  let off := match l.cycleE with | none => false | some (_, e) => decide (limit < e.natAbs)
  { l with
    claims := l.claims.filterMap l.ageClaim
    missCycles := if !l.timeNow.isEmpty || l.ownSource then 0 else l.missCycles + 1
    offCycles := if off then l.offCycles + 1 else 0
    clampCycles := if l.rho = 200000 ∨ l.rho = -200000 then l.clampCycles + 1 else 0
    noStartup := if l.timeNow.contains 0x7FE || l.ownSource then 0 else l.noStartup + 1
    coldCycles := if l.state = .coldstart ∧ l.fullCycle then l.coldCycles + 1 else l.coldCycles
    joinedFor := if l.state = .joined then l.joinedFor + 1 else 0
    ports := vmap l.ports (fun _ q => q.cycleEnd)
    partners := vmap l.partners (fun _ q => { q with quiet := q.quiet + 1 })
    guardGood := l.guardGood + 1
    guardViolations := if l.sentThisCycle && !l.violatedThisCycle then 0 else l.guardViolations
    branchBlocked := vmap l.branchBlocked (fun i n => if at? l.branchBlockedNow i false then n + 1 else 0)
    branchCut := vmap l.branchCut (fun _ c => c.map (· - 1))
    noticed := l.noticed.filter (fun n => decide (l.cycleIndex < n.2.2 + 64)) }

/-- Was the cycle that ends a complete valid one (R686)? -/
def Link.validCycle (l : Link) : Bool :=
  l.fullCycle && !l.timeNow.isEmpty && l.timeLast.all (fun n => l.timeNow.contains n) && !l.badPacket &&
    (match l.cycleE with | none => false | some (_, e) => decide (e.natAbs ≤ l.live.set.offsetLimit * 76800))

/-- A new cycle begins now: counter, network time and an empty record of what it brings (R577, R647). -/
def Link.beginCycle (l : Link) (now : Time) : Link :=
  { l with rate := l.rho, cycleAt := now, nextCycle := { l with rate := l.rho }.after now, cst := l.cst + 1000 * l.live.set.cycleUs,
           cycleIndex := (l.cycleIndex + 1) % 2 ^ 48, fullCycle := true, timeLast := l.timeNow, timeNow := [], cycleE := none, corrected := false,
           badPacket := false, gotSlots := [], dyn := Vector.replicate 2 DynChannel.reset, dynPacket := none, sentThisCycle := false,
           violatedThisCycle := false, branchBlockedNow := Vector.replicate 4 false, heard := [], sent := [] }

/-- The time source of the ended cycle (R654), 0 when there is none. -/
def Dev.settleSource (d : Dev) : Dev :=
  if d.lset.topology == .ring then d.setSource 0
  else match d.link.cycleE with
    | some (k, _) => d.setSource k
    | none => d.setSource (if d.link.ownSource then d.link.ownRank else 0)

/-- Transitions at a cycle start (Table 13-3): `valid` judges the cycle that ended. The first cycle after joining carries an ANNOUNCE (R627). -/
def Dev.cycleTransition (d : Dev) (valid : Bool) : Dev :=
  let join := fun (d : Dev) => (d.linkGo .joined 0).lk (fun l => { l with adopting := false, fullCycle := true, announceDue := true, announceAt := l.cycleIndex })
  match d.link.state with
  | .integrate => if valid then join d else if d.lset.syncLoss ≤ d.link.missCycles then d.linkGo .listen 0 else d
  | .coldstart => if 8 ≤ d.link.coldCycles then join d else d
  | _ => d

/-- A cycle-start SYNC (R265, R270, R677, R679): captured at the first SAMPLE edge at or after the cycle start. It is neither the pin's nor the
command's, so that it ends no time-mode frame (R56; log entry 56). -/
def Dev.networkSync (d : Dev) : Dev :=
  let wanted := match d.rinse.source with | .pin => false | .everyCycle => true | .cycle0 => d.link.counter == 0
  if d.link.state == .joined && wanted && d.sampling then d.toEdge.sync else d

/-- The timestamp base at a cycle start of a node that is JOINED or in COLDSTART (R672, R673). -/
def Dev.cycleBase (d : Dev) : Dev := if d.link.state == .joined || d.link.state == .coldstart then d.takeBase else d

/-- CYCLE_START (R577, R609, R647, R648, R671 to R679, R686, R873): at the end of the local cycle, in holdover too. -/
def execCycleStart (t : Time) (s : State) : Host.Outcome State Fault Refusal :=
  onDev s t (fun d =>
    if !d.counting || !d.link.everSynced || d.now != d.link.nextCycle then d
    else if !d.linking then (d.lk (fun l => l.beginCycle d.now)).networkBoundary
    else
      let d := d.settleSource
      let valid := d.link.validCycle
      let d := d.lk (fun l => l.endCycle.beginCycle d.now)
      ((((d.cycleTransition valid).cycleBase).discipline).networkBoundary).networkSync)

/-! ## Transmission -/

/-- The feature byte of a FEATURES packet and the flags of its band record, from the record of frame k (R602, R603). -/
def Dev.featureByte (d : Dev) (e : EndedFrame) (f : Nat) : Nat × Nat :=
  let v := d.sram.value (recordAddr e.num f) 4
  let scale := match e.values[f]? with | none => 0 | some b => b.scale
  (if !bit v 6 then 0 else if bit v 5 then min 255 (divRoundAway ((v / 256 * 255 * 2 ^ scale : Nat) : Int) (2 ^ 22)).toNat else v / 256 % 256, v % 32)

/-- The payload and FLAGS of a FEATURES source, once it is ready (R601 to R604). -/
def Dev.featurePayload (d : Dev) (first count : Nat) : Option (List Word × Nat) :=
  match d.wr.ended with
  | none => none
  | some e =>
    if !e.written || e.num + 1 != d.wr.num then none
    else
      let fs := (List.range count).map (fun i => d.featureByte e (first + i))
      some (packetWords (fs.map (fun x => BitVec.ofNat 8 x.1) ++ (if count % 2 = 1 then [0] else [])), fs.foldl (fun a x => a ||| x.2) 0)

/-- What an own entry sends at its action point: payload and FLAGS, none when its source is not ready (R604, R606, R608). -/
def Dev.sourcePayload (d : Dev) (n : Nat) (e : SlotEntry) : Option (List Word × Nat) :=
  match e.source with
  | .none => none
  | .features first count => d.featurePayload first count
  | .buffer => match assocGet? n d.link.buffers with
    | none => none
    | some (ws, at_) => if at_ + us 10 ≤ d.now then some (ws, 0) else none

/-- The payload of a REF, or of a STARTUP on BUS and STAR (Table 13-1). -/
def Link.refPayload (l : Link) (rank : Nat) : List Word := leWords 4 l.cst ++ leWords 3 l.cycleIndex ++ [BitVec.ofNat 16 rank]

/-- The payload of a STARTUP as the root of a ring sends it (Table 13-2). -/
def Link.rootPayload (l : Link) : List Word :=
  leWords 4 l.cst ++ leWords 3 l.cycleIndex ++ [if l.state = .coldstart then 0x100 else 0, 0, 0, BitVec.ofNat 16 l.live.set.node]

/-- The ports on which an entry is sent. -/
def Link.entryPorts (l : Link) (e : SlotEntry) : List (Fin 4) :=
  ([0, 1] : List (Fin 2)).flatMap (fun c => if e.onChannel c then l.txPorts c else [])

/-- An own packet has been sent in an entry: a claimant is heard in its own slot (R637). -/
def Dev.sendEntry (d : Dev) (n : Nat) (e : SlotEntry) (type flags : Nat) (payload : List Word) : Dev :=
  let d := d.transmit (d.link.entryPorts e) (d.link.mine type e.slot flags e.basket.val payload).bytes
  d.lk (fun l => { l with claims := l.claims.map (fun c => if c.entry == n && c.inForce && c.node == l.live.set.node then { c with heard := true } else c) })

/-- An own DATA entry at its action point (R594, R602, R606, R608). -/
def Dev.sendData (d : Dev) (n : Nat) (e : SlotEntry) : Dev :=
  match d.sourcePayload n e with
  | none => if e.silent then d else d.sendEntry n e 0 0 []
  | some (ws, flags) =>
    let d := d.sendEntry n e 1 flags ws
    if e.source = .buffer then d.lk (fun l => { l with buffers := assocErase n l.buffers }) else d

/-- Has the node released its claim on an entry (R638)? -/
def Link.releasedEntry (l : Link) (n : Nat) : Bool := match l.claimOn n with | none => false | some c => c.released

/-- STATIC_TRANSMIT (R594, R650, R671, R682): an own entry in force at its action point; on RING, the root's STARTUP in the NIT. -/
def execStaticTransmit (t : Time) (entry : Fin 512) (s : State) : Host.Outcome State Fault Refusal :=
  onDev s t (fun d =>
    let l := d.link
    let set := l.live.set
    if !d.linking || !(l.state == .joined || l.state == .coldstart) || l.guardBlocked then d
    else if set.topology == .ring && l.root == set.node && d.now == l.at (set.nitAt + set.apoUs) then
      d.transmit (l.txPorts 0 ++ l.txPorts 1) (l.mine 3 0x7FE 0 0 l.rootPayload).bytes
    else
      match assocGet? entry.val l.entries with
      | none => d
      | some e =>
        if e.owner != set.node || !e.inCycle l.counter || d.now != l.at (e.slot * set.slotUs + set.apoUs) || l.releasedEntry entry.val then d
        else if e.kind = 1 then d.sendEntry entry.val e (if l.state = .coldstart then 3 else 2) 0 (l.refPayload e.rank)
        else if e.kind = 0 && l.state == .joined then d.sendData entry.val e else d)

/-- The claims this node holds in force. -/
def Link.held (l : Link) : List (SlotEntry × Claim) :=
  (l.claims.filter (fun c => c.inForce && c.node == l.live.set.node && !c.released)).filterMap (fun c =>
    (assocGet? c.entry l.live.entries).map (fun e => (e, c)))

/-- The offers of an ANNOUNCE: own DATA entries with a FEATURES source, in slot order (R628). -/
def Link.offers (l : Link) : List (Nat × Nat × Nat) :=
  ((List.range 255).flatMap (fun n => l.entries.filter (fun e => e.2.slot == n && e.2.kind == 0 && e.2.owner == l.live.set.node))).filterMap (fun e =>
    match e.2.source with | .features first count => some (e.2.slot, first, count) | _ => none)

/-- The payload of an ANNOUNCE (Table 12-6, R628). -/
def Dev.announcePayload (d : Dev) : List Word :=
  let l := d.link
  let s := l.live.set
  let claims := l.held.take 8
  let room := min 16 ((s.maxDyn - 8 - claims.length) / 3)
  let offers := l.offers.take room
  let caps := packBits [s.coldstart.isSome, l.ownRank == 1, s.isHub, decide (offers.length < l.offers.length)]
  let frame := if d.wr.live.frame.source == .network then d.wr.live.frame.netLen else 0
  [BitVec.ofNat 16 caps, 0xB048, 0x00A1] ++ leWords 2 s.scheduleId.toNat ++ leWords 2 frame ++
    [BitVec.ofNat 16 (claims.length + 256 * offers.length)] ++
    claims.map (fun c => BitVec.ofNat 16 (c.1.slot + 256 * c.1.use + 1024 * c.2.basket.val)) ++
    offers.flatMap (fun o => [BitVec.ofNat 16 o.1, BitVec.ofNat 16 o.2.1, BitVec.ofNat 16 o.2.2])

/-- This node's claim that waits for its CLAIM of this cycle (R633). -/
def Link.claimToSend (l : Link) : Option (Nat × SlotEntry × Claim) :=
  (l.claims.filter (fun c => !c.inForce && !c.seen && c.node == l.live.set.node)).findSome? (fun c =>
    (assocGet? c.entry l.live.entries).map (fun e => (c.entry, e, c)))

/-- The dynamic packets that wait, in the order of R615, as type and payload. -/
def Dev.dynPending (d : Dev) : List (Nat × List Word) :=
  let l := d.link
  (match l.notices.head? with
   | none => []
   | some n => [(6, [BitVec.ofNat 16 n.reason, BitVec.ofNat 16 n.slot, BitVec.ofNat 16 (n.cycle + 256 * n.type), BitVec.ofNat 16 n.node])]) ++
  (match l.claimToSend with
   | none => []
   | some (_, e, c) => [(4, [BitVec.ofNat 16 (e.slot + 256 * e.use + 1024 * c.basket.val)])]) ++
  (if l.announceDue then [(5, d.announcePayload)] else []) ++
  (match l.mailOut.toList.findSome? id with | none => [] | some ws => [(9, ws)])

/-- The first message that waits is gone. -/
def dropFirst {α : Type} : List (Option α) → List (Option α)
  | [] => []
  | some _ :: r => none :: r
  | none :: r => none :: dropFirst r

/-- A dynamic packet has been taken from what waits. -/
def Link.dynTaken (l : Link) (type : Nat) : Link :=
  match type with
  | 6 => { l with notices := l.notices.drop 1 }
  | 4 => match l.claimToSend with
    | none => l
    | some (n, _, _) => { l with claims := l.claims.map (fun c => if c.entry == n && c.node == l.live.set.node then { c with seen := true } else c) }
  | 5 => { l with announceDue := false }
  | _ => { l with mailOut := vmap l.mailOut (fun i _ => ((dropFirst l.mailOut.toList)[i]?).getD none) }

/-- The packet of this cycle: the one already chosen, or the first that waits and is no longer than the maximum dynamic payload (R614,
R615). -/
def Dev.dynChoose (d : Dev) : Option (Nat × List Word) :=
  match d.link.dynPacket with
  | some p => some p
  | none => d.dynPending.find? (fun p => decide (p.2.length ≤ d.lset.maxDyn))

/-- This node's dynamic slot begins on a channel at minislot m: it sends, if the packet fits (R611 to R615). -/
def Dev.dynSend (d : Dev) (c : Fin 2) (m : Nat) : Dev :=
  let l := d.link
  let s := l.live.set
  if (l.dyn[c]).sent || l.dynOwner c m != some s.node then d
  else
    match d.dynChoose with
    | none => d
    | some (type, ws) =>
      let len := s.packetNs ws.length
      if s.minislots < m + (len + 1000 * s.miniUs - 1) / max 1 (1000 * s.miniUs) + 1 then d
      else
        let d := if l.dynPacket.isNone then d.lk (fun k => { k.dynTaken type with dynPacket := some (type, ws) }) else d
        let d := d.transmit (l.txPorts c) (l.mine type (0x100 + m) 0 0 ws).bytes
        d.lk (fun k => { k with dyn := upd k.dyn c (fun q => { q with sent := true }) }.dynPassed c m (d.now + ns len))

/-- DYNAMIC_TRANSMIT (R611 to R617): minislot m begins. -/
def execDynamicTransmit (t : Time) (minislot : Nat) (s : State) : Host.Outcome State Fault Refusal :=
  onDev s t (fun d =>
    let set := d.lset
    if !d.linking || d.link.state != .joined || d.link.guardBlocked || set.minislots ≤ minislot ||
        d.now != d.link.at (set.staticUs + minislot * set.miniUs) then d
    else set.channels.foldl (fun d c => d.dynSend c minislot) d)

/-- ANNOUNCE_DUE (R627). -/
def execAnnounceDue (t : Time) (s : State) : Host.Outcome State Fault Refusal :=
  onDev s t (fun d =>
    if d.linking && d.link.state == .joined && decide (d.link.announceAt + d.lset.announce ≤ d.link.cycleIndex) then
      d.lk (fun l => { l with announceDue := true, announceAt := l.cycleIndex })
    else d)

/-! ## Corrections, start-up and loss -/

/-- The rate correction after a cycle with offset e, in 0.001 ppm, within 200 ppm (R656; rounding of log entry 22). -/
def nextRho (rho e : Int) (cycleUs : Nat) : Int := clampInt (-200000) 200000 (rho - divRoundAway (e * 15625) (96 * max 1 cycleUs))

/-- NIT_CORRECTION (R656, R657, R664, R676): the offset correction −e ÷ 2 moves the next cycle start, within what running at 0.5 to 1.5 times
the rate can do, and takes the timestamp there evenly. -/
def execNitCorrection (t : Time) (s : State) : Host.Outcome State Fault Refusal :=
  onDev s t (fun d =>
    let l := d.link
    let nit := us l.live.set.nitUs
    match l.cycleE with
    | none => d
    | some (_, e) =>
      if !d.linking || !l.synced || l.corrected || decide (d.now < l.at l.live.set.nitAt) || decide (l.nextCycle ≤ d.now) then d
      else
        let move := clampInt (-(nit / 3 : Nat)) nit (e / 2)
        let next := max (d.now + 1) (((l.nextCycle : Int) + move).toNat)
        let d := d.lk (fun l => { l with corrected := true, rho := nextRho l.rho e l.live.set.cycleUs, nextCycle := next })
        if l.state == .joined then
          d.onClk (fun c => { c with net := some (d.clk.ns d.now), netAt := d.now, hold := max d.clk.hold (d.clk.ns d.now), slew := some (next, l.cst + 1000 * l.live.set.cycleUs) })
        else d)

/-- One DELAY_REQ on an UP port (R651, R660): its reference point passes 100 ns after it starts. -/
def Dev.requestDelay (d : Dev) (port : Fin 4) : Dev :=
  let l := d.link
  let seq := l.reqSeq + 1
  let d := d.lk (fun l => { l with reqSeq := seq }.onPort port (fun q => { q with pendingReq := some (seq.toNat, d.now + ns 100) }))
  d.transmit [port] (l.delayCycle (l.mine 7 0x7FF 0 0 [seq])).bytes

/-- DELAY_REQUEST (R660, Table 13-3). -/
def execDelayRequest (t : Time) (s : State) : Host.Outcome State Fault Refusal :=
  onDev s t (fun d =>
    let l := d.link
    if !d.linking || l.live.set.topology != .ring || l.state == .off || l.state == .coldstart || !l.everSynced || l.counter % 8 != 0 ||
        d.now != l.at l.live.set.staticUs then d
    else (d.requestDelay 0).requestDelay 2)

/-- The first cycle of a network that this node forms, when it has never been synchronised (R646): it starts now. -/
def Dev.formNetwork (d : Dev) : Dev :=
  let d := d.lk (fun l => { { l with cst := 0, cycleIndex := 0 }.beginCycle d.now with
    cst := 2 ^ 62, cycleIndex := 0, everSynced := true, adopting := false })
  d.adoptFrames.takeBase.networkBoundary

/-- LISTEN_TIMEOUT (R646, R674, R681, R682). -/
def execListenTimeout (t : Time) (s : State) : Host.Outcome State Fault Refusal :=
  onDev s t (fun d =>
    let l := d.link
    if !d.linking || l.state != .listen then d
    else
      match l.live.set.coldstart with
      | none => if l.stateAt + us (2 * l.live.set.cycleUs) ≤ d.now then d.lk (fun l => { l with stateAt := d.now }) else d
      | some p =>
        if d.now < l.stateAt + us ((2 + p) * l.live.set.cycleUs) then d
        else
          let d := d.linkGo .coldstart 0
          let d := d.lk (fun l => { l with adopting := false, root := if l.live.set.topology == .ring then l.live.set.node else 0 })
          if l.everSynced then d else d.formNetwork)

/-- Why a JOINED node loses sync (R670). -/
def Link.lossReason (l : Link) : Option Nat :=
  if l.live.set.syncLoss ≤ l.missCycles then some 1 else if 2 ≤ l.offCycles then some 2 else if 64 ≤ l.clampCycles then some 3 else none

/-- SYNC_LOSS (R670, R671). -/
def execSyncLoss (t : Time) (s : State) : Host.Outcome State Fault Refusal :=
  onDev s t (fun d =>
    if !d.linking || d.link.state != .joined then d
    else match d.link.lossReason with | none => d | some r => d.linkGo .integrate r)

/-- ROOT_TAKEOVER (R667). -/
def execRootTakeover (t : Time) (s : State) : Host.Outcome State Fault Refusal :=
  onDev s t (fun d =>
    let l := d.link
    match l.live.set.coldstart with
    | none => d
    | some p =>
      if d.linking && l.live.set.topology == .ring && l.state == .joined && l.root != l.live.set.node && decide (2 + p ≤ l.noStartup) then
        (d.lk (fun l => { l with root := l.live.set.node, noStartup := 0 })).postLink { event := .rootChange, subject := l.live.set.node }
      else d)

/-! ## Partners and claims -/

/-- A partner changes its state after a time without a valid packet (R630). -/
def Dev.partnerQuiet (d : Dev) (node : Fin 64) (from_ : PartnerState → Bool) (limit : Nat) (to_ : PartnerState) (number : Nat) : Dev :=
  let q := d.link.partners[node]
  if d.linking && from_ q.state && decide (limit < q.quiet) then
    (d.lk (fun l => { l with partners := upd l.partners node (fun q => { q with state := to_ }) })).postLink
      { event := .partner, subject := node.val + 1, data0 := number }
  else d

/-- PARTNER_SILENT (R630). -/
def execPartnerSilent (t : Time) (node : Fin 64) (s : State) : Host.Outcome State Fault Refusal :=
  onDev s t (fun d => d.partnerQuiet node (· == .present) d.lset.silence .silent 1)

/-- PARTNER_GONE (R630). -/
def execPartnerGone (t : Time) (node : Fin 64) (s : State) : Host.Outcome State Fault Refusal :=
  onDev s t (fun d => d.partnerQuiet node (· != .gone) d.lset.gone .gone 0)

/-- Is this the start of a cycle 0? -/
def Dev.atCycle0 (d : Dev) : Bool := d.linking && d.link.synced && d.link.counter == 0 && d.now == d.link.cycleAt

/-- CLAIM_TAKES_EFFECT (R635): after two consecutive unopposed cycles. -/
def execClaimTakesEffect (t : Time) (entry : Fin 512) (s : State) : Host.Outcome State Fault Refusal :=
  onDev s t (fun d =>
    match d.link.claims.find? (fun c => c.entry == entry.val && !c.inForce && decide (2 ≤ c.unopposed)), assocGet? entry.val d.link.live.entries with
    | some c, some e =>
      if !d.atCycle0 || (d.link.claimOn entry.val).isSome || e.kind != 2 then d
      else
        let now : Claim := { c with inForce := true, silentFor := 0, heard := false }
        (d.lk (fun l => { l with claims := l.claims.filter (fun k => k.entry != entry.val) ++ [now] })).postSlot e.slot
          { event := .claimDone, subject := e.slot, data0 := c.node, data1 := c.basket.val }
    | _, _ => d)

/-- CLAIM_REVERT (R637). -/
def execClaimRevert (t : Time) (entry : Fin 512) (s : State) : Host.Outcome State Fault Refusal :=
  onDev s t (fun d =>
    match d.link.claimOn entry.val with
    | none => d
    | some c =>
      if !d.atCycle0 || decide (c.silentFor < d.lset.revert) then d
      else
        let slot := match assocGet? entry.val d.link.live.entries with | none => 0 | some e => e.slot
        (d.lk (fun l => { l with claims := l.claims.filter (fun k => !(k.entry == entry.val && k.inForce)) })).postSlot slot
          { event := .claimRevert, subject := slot, data0 := c.node })

/-! ## Guardian, hub and ring -/

/-- GUARD_DRIFT (R670, R689, R941): the guardian's oscillator count over the cycle is compared with the count expected. -/
def execGuardDrift (t : Time) (count : Nat) (s : State) : Host.Outcome State Fault Refusal :=
  onDev s t (fun d =>
    if !d.linking || d.link.state == .off then d
    else
      let was := d.link.guardBlocked
      let d := d.lk (fun l => l.measureGuard count)
      if !d.lset.guardDrifts count then d
      else
        let d := d.lk (fun l => { l with guardBlocked := true, guardGood := 0 })
        let d := if was then d else d.postLink { event := .guard, data0 := 1, data1 := d.lset.guardDeviation count }
        if d.link.state == .joined then d.linkGo .integrate 4 else d)

/-- GUARD_RELEASE (R689, R941): the comparison that completes 64 cycles within 0.5 %. -/
def execGuardRelease (t : Time) (count : Nat) (s : State) : Host.Outcome State Fault Refusal :=
  onDev s t (fun d =>
    if !d.linking || !d.link.guardBlocked || decide (d.link.guardGood < 64) || d.lset.guardDrifts count then d
    else (d.lk (fun l => { l.measureGuard count with guardBlocked := false })).postLink
      { event := .guard, data0 := 0, data1 := d.lset.guardDeviation count })

/-- GUARD_VIOLATION (R691, R941): TXEN is high while a gate is closed, by the guardian's own time. -/
def execGuardViolation (seen : GuardSight) (s : State) : Host.Outcome State Fault Refusal :=
  onDev s seen.t (fun d =>
    if !d.linking || d.link.state == .off || d.link.state == .fenced ||
        d.lset.channels.all (fun c => d.link.gateOpen c (d.link.guardTime seen.count) none) then d
    else
      let d := d.lk (fun l => { l with guardViolations := l.guardViolations + 1, violatedThisCycle := true })
      if 8 ≤ d.link.guardViolations then d.linkFence .guard else d)

/-- BRANCH_CUT (R695, Table 13-5 code 12). -/
def execBranchCut (t : Time) (branch : Fin 4) (s : State) : Host.Outcome State Fault Refusal :=
  onDev s t (fun d =>
    let l := d.link
    if !d.linking || !l.live.set.isHub || (l.branchCut[branch]).isSome || decide (l.branchBlocked[branch] < 3) then d
    else
      let (node, slot, type) := l.branchLast[branch]
      let d := d.lk (fun l => { l with branchCut := upd l.branchCut branch (fun _ => some l.live.set.cutCycles) })
      let d := d.postLink { event := .branchCut, subject := branch.val }
      if 1 ≤ node ∧ node ≤ 64 then d.linkViolation branch 12 node slot l.counter type else d)

/-- BRANCH_READMIT (R695): at the first cycle start after the cut ends. -/
def execBranchReadmit (t : Time) (branch : Fin 4) (s : State) : Host.Outcome State Fault Refusal :=
  onDev s t (fun d =>
    if d.linking && d.link.branchCut[branch] == some 0 && d.now == d.link.cycleAt then
      d.lk (fun l => { l with branchCut := upd l.branchCut branch (fun _ => none), branchBlocked := upd l.branchBlocked branch (fun _ => 0) })
    else d)

/-- RING_BREAK (R698, R699): an UP port detects a break, or BREAK again while it is broken. -/
def execRingBreak (t : Time) (port : Fin 4) (s : State) : Host.Outcome State Fault Refusal :=
  onDev s t (fun d =>
    let l := d.link
    if !d.linking || l.live.set.topology != .ring || l.state == .off || (port != 0 && port != 2) then d
    else if (l.ports[port]).broken then d.lk (fun l => l.onPort port (fun q => { q with breakFree := 0 }))
    else
      let d := d.lk (fun l => (l.onPort port (fun q => { q with broken := true, breakFree := 0, refold := 2 })).onPort (facing port) (fun q =>
        { q with sendingBreak := true }))
      d.postLink { event := .ringBreak, subject := port.val })

/-- BREAK_STOP (R700): the UP port has received only valid idle for 64 consecutive cycles. -/
def execBreakStop (t : Time) (port : Fin 4) (s : State) : Host.Outcome State Fault Refusal :=
  onDev s t (fun d =>
    if d.linking && (port == 0 || port == 2) && (d.link.ports[port]).broken && (d.link.ports[facing port]).sendingBreak &&
        decide (64 ≤ (d.link.ports[port]).breakFree) then
      d.lk (fun l => (l.onPort port (fun q => { q with breakFree := 0 })).onPort (facing port) (fun q => { q with sendingBreak := false }))
    else d)

/-- RING_REPAIR (R701): at a cycle 0 start, after 64 cycles in which no BREAK was sent or received. -/
def execRingRepair (t : Time) (port : Fin 4) (s : State) : Host.Outcome State Fault Refusal :=
  onDev s t (fun d =>
    let l := d.link
    if d.linking && l.counter == 0 && d.now == l.cycleAt && (port == 0 || port == 2) && (l.ports[port]).broken &&
        !(l.ports[facing port]).sendingBreak && decide (64 ≤ (l.ports[port]).breakFree) then
      (d.lk (fun l => l.onPort port (fun q => { q with broken := false, breakFree := 0, refold := 2 }))).postLink { event := .ringRepair, subject := port.val }
    else d)

end Sys2Proof.Machine
end

