-- ==== Sys2Proof/Machine/Baskets.lean ====
section
/-!
DEFINITION. Grants (R722 to R727, R738, R739, R746, R747, R834): BK_GRANT, BK_REVOKE and BK_STATUS.
-/

namespace Sys2Proof.Machine

/-- The kinds of R834, in its order. -/
inductive GrantKind where
  | tiles | units | tags | patches | outputs | comparators | channels | features | tachs | slots | synth
  deriving DecidableEq, Repr

/-- The number of a kind. -/
def GrantKind.ofNumber : Nat → Option GrantKind
  | 0 => some .tiles | 1 => some .units | 2 => some .tags | 3 => some .patches | 4 => some .outputs | 5 => some .comparators
  | 6 => some .channels | 7 => some .features | 8 => some .tachs | 9 => some .slots | 10 => some .synth | _ => none

/-- Is the kind a quota? -/
def GrantKind.quota : GrantKind → Bool
  | .tags => true | .patches => true | _ => false

/-- Does a unit of a kind exist (Table 14-1)? -/
def GrantKind.exists_ (k : GrantKind) (n : Nat) : Bool :=
  match k with
  | .tiles => decide (n < 48) | .units => decide (8 ≤ n) && decide (n < 384) | .outputs => decide (n < 8) | .comparators => decide (n < 32)
  | .channels => decide (n < 24) | .features => decide (n < 512) | .tachs => decide (n < 4) | .slots => decide (n < 255)
  | .synth => n == 0 | .tags => false | .patches => false

/-- Is a kind held exclusively (Table 14-1)? -/
def GrantKind.exclusive : GrantKind → Bool
  | .tiles => true | .units => true | .outputs => true | .comparators => true | .synth => true | _ => false

/-- Is a unit held? -/
def Grants.holds (g : Grants) (k : GrantKind) (n : Nat) : Bool :=
  match k with
  | .tiles => at? g.tiles n false | .units => at? g.units n false | .outputs => at? g.outputs n false
  | .comparators => at? g.comparators n false | .channels => at? g.channels n false | .features => at? g.features n false
  | .tachs => at? g.tachs n false | .slots => at? g.slots n false | .synth => g.synth | .tags => false | .patches => false

/-- Set whether units [first, first + count) of a vector are held. -/
def setUnits {n : Nat} (v : Vector Bool n) (first count : Nat) (held : Bool) : Vector Bool n :=
  vmap v (fun i b => if first ≤ i ∧ i < first + count then held else b)

/-- Set whether units of a kind are held. -/
def Grants.put (g : Grants) (k : GrantKind) (first count : Nat) (held : Bool) : Grants :=
  match k with
  | .tiles => { g with tiles := setUnits g.tiles first count held }
  | .units => { g with units := setUnits g.units first count held }
  | .outputs => { g with outputs := setUnits g.outputs first count held }
  | .comparators => { g with comparators := setUnits g.comparators first count held }
  | .channels => { g with channels := setUnits g.channels first count held }
  | .features => { g with features := setUnits g.features first count held }
  | .tachs => { g with tachs := setUnits g.tachs first count held }
  | .slots => { g with slots := setUnits g.slots first count held }
  | .synth => { g with synth := held }
  | .tags => g
  | .patches => g

/-- The quota of a kind, and its change. -/
def Grants.quotaOf (g : Grants) (k : GrantKind) : Nat := if k = .tags then g.tagQuota else g.patchQuota

def Grants.setQuota (g : Grants) (k : GrantKind) (n : Nat) : Grants :=
  if k = .tags then { g with tagQuota := n } else { g with patchQuota := n }

/-- What BK_GRANT and BK_REVOKE name (R834). -/
def grantKind (x : Ctx) : Option GrantKind := GrantKind.ofNumber (x.arg 1)

/-- The units that a command names. -/
def namedUnits (x : Ctx) : List Nat := (List.range (x.arg 3)).map (· + x.arg 2)

/-- The named units exist (R739). -/
def grantNames (x : Ctx) : Bool :=
  match grantKind x with | none => true | some k => k.quota || (namedUnits x).all k.exists_

/-- No unit, or no amount, is named (R747). -/
def grantZero (x : Ctx) : Bool :=
  match grantKind x with | none => false | some k => if k.quota then x.arg32 2 == 0 else x.arg 3 == 0

/-- Is an amount within Table 14-1? -/
def amountOk (k : GrantKind) (n : Nat) : Bool :=
  if k = .tags then decide (n ≤ 4096) else decide (n ≤ 262144) && n % 1024 == 0

/-- The target basket. -/
def grantTarget (x : Ctx) : Basket := Fin.ofNat 4 (x.arg 0)

/-- The sum of the tag quotas. -/
def Dev.tagQuotas (d : Dev) : Nat := (d.grants.toList.map (·.tagQuota)).sum

/-- Change the grants of one basket. -/
def Dev.onGrant (d : Dev) (b : Basket) (f : Grants → Grants) : Dev := d.onGrants (fun g => upd g b f)

/-- BK_GRANT (R724, R725, R727, R834). -/
def cmdBkGrant : Command :=
  { code := 0x0A01, sup := true, names := fun x _ => grantNames x, zero := fun x _ => grantZero x,
    range := fun x d =>
      argRange (decide (x.arg 0 < 4) &&
        (match grantKind x with
         | none => false
         | some k =>
           if !k.quota then true
           else amountOk k (x.arg32 2) &&
             (if k = .tags then decide (d.tagQuotas + x.arg32 2 ≤ 4096)
              else decide ((d.grants[grantTarget x]).patchQuota + x.arg32 2 ≤ 262144)))),
    state := fun x d =>
      match grantKind x with
      | none => none
      | some k =>
        need (!k.exclusive || (List.finRange 4).all (fun b => b == grantTarget x || !(namedUnits x).any ((d.grants[b]).holds k))) .state,
    act := fun x d =>
      match grantKind x with
      | none => (d, .ok [])
      | some k =>
        (d.onGrant (grantTarget x) (fun g =>
          if k.quota then g.setQuota k (g.quotaOf k + x.arg32 2) else g.put k (x.arg 2) (x.arg 3) true), .ok []) }

/-- The loaded models of a basket. -/
def Dev.modelsOf (d : Dev) (b : Basket) : List Model := (d.loaded.filter (fun m => m.2.basket == b)).map (·.2)

/-- Does a running ring of the basket satisfy p, which also sees its chain? -/
def Dev.runningRing (d : Dev) (b : Basket) (p : Nat → Ring → Bool) : Bool :=
  (d.rinse.chains.toList.zipIdx).any (fun c => match (c.1.rings[b]) with | none => false | some r => r.on && p c.2 r)

/-- Is a unit in use by the basket, so that it cannot be revoked (R726)? -/
def Dev.unitInUse (d : Dev) (b : Basket) (k : GrantKind) (n : Nat) : Bool :=
  let bound := fun (p : Binding → Bool) => (d.modelsOf b).any (fun m => m.image.bindings.any p)
  match k with
  | .tiles => (d.modelsOf b).any (fun m => m.place.any (fun i => i.val == n))
  | .units => d.unitsBusy n 1
  | .outputs => (match d.guard.outs.toList[n]? with | none => false | some o => o.armed || o.firing.isSome)
  | .comparators =>
    (match d.guard.comps.toList[n]? with | none => false | some c => c.set.enabled) || d.guard.tripMasks.toList.any (fun m => m.getLsbD n)
  | .channels => bound (fun i => i.kind == 2 && i.first == n) || d.runningRing b (fun chain _ => chain == n)
  | .features => bound (fun i => i.kind == 0 && decide (i.first ≤ n) && decide (n < i.first + i.count))
  | .tachs => d.runningRing b (fun _ r => r.withAngle && r.tach.val == n)
  | .slots => bound (fun i => i.kind == 1 && i.slot == n)
  | .synth => false
  | .tags => false
  | .patches => false

/-- What a basket's quota may not fall below (R726): tags in flight and reserved tags, or the demand of its entries and its blob. -/
def Dev.quotaInUse (d : Dev) (b : Basket) (k : GrantKind) : Nat :=
  if k = .tags then (d.spool.tags.filter (·.basket == b)).length + ((d.modelsOf b).map (·.tags)).sum else d.store.used b

/-- BK_REVOKE (R724, R726, R727, R834). -/
def cmdBkRevoke : Command :=
  { code := 0x0A02, sup := true, names := fun x _ => grantNames x, zero := fun x _ => grantZero x,
    range := fun x d =>
      argRange (decide (x.arg 0 < 4) &&
        (match grantKind x with
         | none => false
         | some k =>
           if !k.quota then true
           else amountOk k (x.arg32 2) &&
             (k != .tags || x.arg 0 != 0 || decide ((d.grants[grantTarget x]).tagQuota < x.arg32 2) ||
               decide (8 + x.arg32 2 ≤ (d.grants[grantTarget x]).tagQuota)))),
    state := fun x d =>
      match grantKind x with
      | none => none
      | some k =>
        let b := grantTarget x
        let g := d.grants[b]
        if k.quota then
          firstErr [need (decide (x.arg32 2 ≤ g.quotaOf k)) .state, need (decide (d.quotaInUse b k + x.arg32 2 ≤ g.quotaOf k)) .busy]
        else firstErr [need ((namedUnits x).all (g.holds k)) .state, need (!(namedUnits x).any (d.unitInUse b k)) .busy],
    act := fun x d =>
      match grantKind x with
      | none => (d, .ok [])
      | some k =>
        (d.onGrant (grantTarget x) (fun g =>
          if k.quota then g.setQuota k (g.quotaOf k - x.arg32 2) else g.put k (x.arg 2) (x.arg 3) false), .ok []) }

/-- The items of BK_STATUS (Table 16-3, R818). -/
def Dev.basketReport (d : Dev) (b : Basket) : List Byte :=
  let g := d.grants[b]
  let p := d.host.pages[b]
  w32 p.violations.toNat ++ w32 p.busConflicts.toNat ++ bitmap 2 g.tiles.toList ++ bitmap 12 g.units.toList ++ bitmap 1 g.outputs.toList ++
    bitmap 1 g.comparators.toList ++ bitmap 1 g.channels.toList ++ bitmap 16 g.features.toList ++ bitmap 1 g.tachs.toList ++
    bitmap 8 g.slots.toList ++ w32 g.tagQuota ++ w32 g.patchQuota ++ w32 g.synth.toNat

/-- BK_STATUS. -/
def cmdBkStatus : Command :=
  blockCommand 0x0A03 true (fun _ _ => true) (fun x _ => argRange (decide (x.arg 0 < 4))) (fun x d => d.basketReport (grantTarget x))

def execBkGrant (t : Time) (b : Basket) (s : State) : Host.Outcome State Fault Refusal := hostCommand cmdBkGrant t b s
def execBkRevoke (t : Time) (b : Basket) (s : State) : Host.Outcome State Fault Refusal := hostCommand cmdBkRevoke t b s
def execBkStatus (t : Time) (b : Basket) (s : State) : Host.Outcome State Fault Refusal := hostCommand cmdBkStatus t b s

end Sys2Proof.Machine
end

