-- ==== Sys2Proof/Machine/Frames.lean ====
section
/-!
DEFINITION. The frame clock (chapter 01): where boundaries fall, what a boundary ends and begins, and the Wringer commit that takes effect
at one.
-/

namespace Sys2Proof.Machine

/-! ## Where boundaries fall -/

/-- The loop of the frame tach. -/
def Dev.frameLoop (d : Dev) : TachLoop := (d.tachs[d.wr.live.frame.tach]).loop

/-- Whole revolutions of the frame tach now. -/
def Dev.frameRevs (d : Dev) : Int := d.frameLoop.revs (d.tachSet d.wr.live.frame.tach).ppr d.now

/-- The end of the fallback frame in progress (R136). -/
def Dev.fallbackEnd (d : Dev) : Time := d.sampleEdge (d.wr.gridOrigin + us (d.tachSet d.wr.live.frame.tach).fallback) 0

/-- Is a boundary that an event has made due now (R55, R56, R648), at the SAMPLE edge that captures the event (R27)? -/
def Dev.dueNow (d : Dev) : Bool := match d.wr.due with | none => false | some x => d.sampleEdge x.at_ 0 == d.now

/-- Does a boundary of the source's own clock fall now: on the grid of R948, at the end of a fallback frame, or at the revolution that ends an
angle-mode frame (R135, R136)? Every boundary falls on a SAMPLE edge (R27). -/
def Dev.clockFalls (d : Dev) : Bool :=
  match d.wr.live.frame.source with
  | .network => false
  | .time => d.now == d.gridNext
  | .angle =>
    d.onEdge && if d.wr.fallback && !d.wr.relock then decide (d.fallbackEnd ≤ d.now)
    else d.frameLoop.state != .lost && decide (d.wr.revEnd ≤ d.frameRevs)

/-- Does the boundary that falls now merge into the previous one (R157)? -/
def Dev.merges (d : Dev) : Bool := decide (d.now < d.wr.start + us 20)

/-- How the frame clock counts on from a boundary at this instant, taken or merged (R136, R157, R948). -/
def Wringer.countOn (w : Wringer) (now : Time) (due : Bool) : Wringer :=
  match w.live.frame.source with
  | .network => w
  | .time => if due then { w with gridOrigin := now, gridCount := 0 } else { w with gridCount := w.gridCount + 1 }
  | .angle =>
    if w.relock then { w with fallback := false, relock := false, afterLock := true, revEnd := w.revEnd + w.live.frame.angleLen }
    else if w.fallback then { w with gridOrigin := now, gridCount := 0, afterLock := false }
    else { w with revEnd := w.revEnd + w.live.frame.angleLen, afterLock := false }

/-- A boundary merges into the previous one: the frame goes on, TRUNCATED when it is a fallback or bridging frame (R54, R136, R157). -/
def Dev.mergeBoundary (d : Dev) : Dev :=
  let w := d.wr
  let mark := w.truncate || w.bridge || (w.live.frame.source == .angle && w.fallback)
  d.onWr (fun _ => { w.countOn d.now d.dueNow with due := none, truncate := mark, bridge := false })

/-! ## The detector copy (R258, R466) -/

/-- Has a chain put out a sample with the timestamp of this instant? -/
def Chain.outputNow (c : Chain) (now : Time) : Bool := c.outputAt == now && c.totalOut != 0

/-- The detectors as the outputs before an instant leave them (R258). -/
def Chain.detAt (c : Chain) (now : Time) : DetState := if c.outputNow now then c.detBefore else c.det

/-- The 32 bytes of one chain. A detector that is off reads zero, ENABLED too (log entry 27). -/
def Chain.detectorBytes (c : Chain) (now : Time) : List Byte :=
  (List.range 4).flatMap (fun k =>
    if c.detSet.on k then w32 ((c.detAt now).value k) ++ w32 ((at? (c.detAt now).flags k 0).toNat + 256) else w32 0 ++ w32 0)

/-- The unions of flags start afresh at a boundary; an output with its timestamp enters the frame that begins (R258). -/
def Chain.freshFlags (c : Chain) (now : Time) : Chain :=
  { c with det := { c.det with flags := vec 4 (fun k => if c.outputNow now && c.detSet.on k then c.output.setWidth 8 else 0) } }

/-- The detector values of frame k go to its slot, its number last; the unions of flags start afresh. -/
def Dev.detectorCopy (d : Dev) (k : Nat) : Dev :=
  let base := 0x2000 + k % 2 * 0x400
  let d := d.memWrite base (d.rinse.chains.toList.flatMap (fun c => c.detectorBytes d.now))
  let d := d.memWrite (base + 0x300) (w64 k)
  d.onRinse (fun r => { r with chains := d.rinse.chains.map (fun (c : Chain) => c.freshFlags d.now) })

/-! ## Runs at a boundary (R59, R485) -/

/-- Runs whose deadline is this instant are no longer in flight (R485). -/
def Dev.runsLate (d : Dev) : List Handle → Dev
  | [] => d
  | h :: hs => (d.runLate h).runsLate hs

/-- Does a model miss its run for frame k (R59, R872)? -/
def Dev.misses (d : Dev) (m : Model) (k : Nat) : Bool :=
  m.state == .loaded && m.run.isSome && m.dueFor k && m.lastRun != k && (d.pwr.state == .active || m.image.watchable)

/-- Count the missed runs of frame k (R59): a missed run does not start any more. -/
def Dev.runsMissed (d : Dev) (k : Nat) : List Handle → Dev
  | [] => d
  | h :: hs =>
    match d.model h with
    | none => d.runsMissed k hs
    | some m =>
      if d.misses m k then
        ((d.onModel h (fun m => { m with runsMissed := m.runsMissed + 1, lastRun := k })).postTo m.basket
          { event := .runMissed, subject := h.val, data0 := k % 65536, data1 := (m.runsMissed + 1).toNat % 65536 }).runsMissed k hs
      else d.runsMissed k hs

/-! ## A boundary -/

/-- Windows that ended before this boundary concern no frame that is still to come. -/
def Dev.forgetWindows (d : Dev) : Dev :=
  let live := fun (w : Win) => match w.stop with | none => true | some e => decide (d.now < e)
  (((d.onFe (fun f => f.map (fun (c : Channel) => c.forget d.now))).onTachs (fun _ => d.tachs.map (fun (x : Tach) =>
      { x with loop := { x.loop with lostWins := x.loop.lostWins.filter live, freeWins := x.loop.freeWins.filter live } }))).onWr (fun x => { x with bandSettle := d.wr.bandSettle.filter (fun w => live w.2) }))

/-- Frame k ends and frame k+1 begins in this instant (R24 to R28, R154, R156, R258). -/
def Dev.endFrame (d : Dev) (means : List (Nat × Nat)) (truncated blanked : Bool) : Dev :=
  let w := d.wr
  let e : EndedFrame :=
    { num := w.num, start := w.start, stop := d.now, startStamp := w.startStamp, stopStamp := d.stamp, tref := d.tref, truncated := truncated,
      blanked := blanked, values := d.bandValues means truncated, handedOff := false, counted := false, written := false }
  let d := (d.detectorCopy w.num).postAll { event := .frameEnd, data0 := w.num % 65536, data1 := truncated.toNat }
  let d := d.raise everyBasket .frame
  let d := d.onWr (fun x =>
    { x with ended := some e, num := w.num + 1, start := d.now, startStamp := d.stamp, prevLen := d.now - w.start, due := none,
             truncate := false, bridge := false })
  (d.prefilter (d.wr.live.onBands.filter (·.2.order))).forgetWindows

/-- Does the frame that ends now carry TRUNCATED as a whole (R54, R55, R136, R675)? An ANGLE_LOST that fell on the frame's own end has not cut it. -/
def Dev.frameTruncated (d : Dev) : Bool :=
  let w := d.wr
  w.truncate || w.bridge || (d.dueNow && (match w.due with | none => false | some x => x.cut)) ||
    (w.live.frame.source == .angle && w.fallback && !d.dueNow)

/-- A boundary that is taken. -/
def Dev.takeBoundary (d : Dev) (means : List (Nat × Nat)) : Dev :=
  let due := d.dueNow
  let k := d.wr.num
  let d := d.endFrame means d.frameTruncated false
  let d := d.onWr (fun w => w.countOn d.now due)
  (d.runsLate (List.finRange 16)).runsMissed k (List.finRange 16)

/-- FRAME_BOUNDARY (R24 to R28, R55, R145, R156, R157). `means` are, for each of the 512 band filters, the means of |y| and of y squared over the
time in which its integrator was connected in the frame, in 2^-32. -/
def execFrameBoundary (t : Time) (means : List (Nat × Nat)) (s : State) : Host.Outcome State Fault Refusal :=
  onDev s t (fun d =>
    if !d.wringing || !d.wr.running || !(d.dueNow || d.clockFalls) then d
    else if d.merges then d.mergeBoundary
    else d.takeBoundary means)

/-- The frame in progress at entry to HOLD or FAULT ends at the SAMPLE edge of the exit (R27, R879, R884, R948): records without values, no run, and
the grid counts from here. In angle mode the next frame ends after the set number of revolution boundaries (log entry 27). -/
def Dev.exitFrame (d : Dev) : Dev :=
  if !d.wr.running then d
  else
    let d := d.toEdge.endFrame [] true true
    let lost := d.frameLoop.state == .lost
    let d := d.onWr (fun w => { w with gridOrigin := d.now, gridCount := 0, fallback := d.wr.live.frame.source == FrameSource.angle && lost, relock := false,
                                        revEnd := d.frameRevs + d.wr.live.frame.angleLen })
    match d.wr.ended with
    | none => d
    | some e => ((d.writeRecords e 0 false 0 e.values).writeRecords e 0 true 0 e.values).frameWritten e

/-! ## WRINGER_COMMIT_APPLY (R139, R140, R174 to R180, R822) -/

/-- The settings that a commit makes live: the device part, and the channels of its mask (R174). -/
def WringerSet.merge (live captured : WringerSet) (mask : BitVec 16) : WringerSet :=
  { captured with vibs := vmap live.vibs (fun ch v => if bit mask.toNat ch then (captured.vibs.toList[ch]?).getD v else v) }

/-- Does a change from one band setting to another clear the band's filter (R178)? -/
def Band.refilters (a b : Band) : Bool :=
  a.order != b.order || a.centre != b.centre || a.q != b.q || a.square != b.square || (b.order && a.tach != b.tach)

/-- Does a change of plan open the settle window of band i (R178, R180)? -/
def Plan.resettles (a b : Plan) (i : Nat) : Bool :=
  b.on i && (!a.on i || Band.refilters ((a.bands.toList[i]?).getD Band.reset) ((b.bands.toList[i]?).getD Band.reset) ||
    (decide (24 ≤ i) && (a.carrier != b.carrier || a.carrierQ != b.carrierQ || a.corner != b.corner)))

/-- The bands whose settle windows open. -/
def WringerSet.resettled (old new : WringerSet) : List (Nat × Band) :=
  (List.range 512).filterMap (fun f =>
    let ch := f / 32
    let i := f % 32
    if (old.planOf ch).resettles (new.planOf ch) i then (((new.planOf ch).bands.toList[i]?).map (fun b => (f, b))) else none)

/-- Does a commit reconfigure a tach input (R140)? -/
def TachSet.reconfigures (a b : TachSet) : Bool := a.mode != b.mode || a.ppr != b.ppr || a.logRes != b.logRes

/-- ANGLE_LOST of the tach inputs that a commit reconfigures, with RECONFIG or DISABLED (R128, R140, R141). An input that is in ANGLE_LOST already
posts nothing (log entry 11). -/
def Dev.reconfigure (d : Dev) (new : WringerSet) : List (Fin 4) → Dev
  | [] => d
  | i :: is =>
    let old := d.tachSet i
    if !old.reconfigures new.tachs[i] then d.reconfigure new is
    else
      let was := (d.tachs[i]).loop.state
      let d := if was == .lost then d else d.holdClocks (d.wr.live.orderBands i)
      let d := d.onLoop i (fun l => l.lose old.ppr d.now)
      let d := if was == .lost then d
        else d.postTach i d.stamp { event := .angleLost, subject := i.val, data0 := if (new.tachs[i]).mode == .off then 6 else 5 }
      d.reconfigure new is

/-- The front end of a channel at a change of its gain or coupling (R98, R102, R205). -/
def Dev.applyVib (d : Dev) (ch : Nat) (old new : VibSet) : Dev :=
  let d := if old.gain = new.gain then d else (d.onChannel ch (fun c => c.gainTaint d.now)).gainHold ch
  if old.ac == new.ac then d else d.onChannel ch (fun c => c.startSettle d.now)

def Dev.applyVibs (d : Dev) (old new : WringerSet) : List Nat → Dev
  | [] => d
  | ch :: chs =>
    (match old.vibs.toList[ch]?, new.vibs.toList[ch]? with
     | some a, some b => d.applyVib ch a b
     | _, _ => d).applyVibs old new chs

/-- The frame clock at a commit (R53, R54, R136, R948): `old` was live before this boundary. -/
def Dev.applyFrame (d : Dev) (old : WringerSet) : Dev :=
  let f := d.wr.live.frame
  let lost := d.frameLoop.state == .lost
  let onGrid : Dev := d.onWr (fun w => { w with gridOrigin := d.now, gridCount := 0, fallback := false, relock := false })
  match f.source with
  | .time => if old.frame.source == .time && old.frame.timeLen == f.timeLen then d else onGrid
  | .network => if old.frame.source == .network then d else onGrid.onWr (fun w => { w with bridge := true })
  | .angle =>
    if old.frame.source == .angle && old.frame.tach == f.tach then
      if d.wr.fallback then d
      else if lost then onGrid.onWr (fun w => { w with fallback := true, truncate := true })
      else d.onWr (fun w => { w with revEnd := d.wr.revEnd - old.frame.angleLen + f.angleLen })
    else if lost then onGrid.onWr (fun w => { w with fallback := true, bridge := true })
    else onGrid.onWr (fun w => { w with bridge := true, revEnd := d.frameRevs + 1 })

/-- The band settle windows of a commit open, the filters cleared (R178). -/
def Dev.openBands (d : Dev) : List (Nat × Band) → Dev
  | [] => d
  | (f, b) :: r => ((d.onClock f (fun c => { c with cleared := d.now })).openBandSettle f b).openBands r

/-- The clocks of bands as a commit leaves them (R149, R150): each accumulator goes on from where it stands. -/
def Dev.retune (d : Dev) (old : WringerSet) : List (Nat × Band) → Dev
  | [] => d
  | (f, b) :: r =>
    (d.onClock f (fun c => { c with acc := d.accumulator old (old.bandOf f) c, inc := b.increment d.wr.live,
                                    from_ := d.bandTicks d.wr.live b })).retune old r

/-- The carrier of a VIB channel as a band in Hz mode. -/
def WringerSet.carrier (w : WringerSet) (ch : Nat) : Band :=
  { Band.reset with order := false, centre := (w.planOf ch).carrier, q := (w.planOf ch).carrierQ }

/-- The clocks of the 16 carriers as a commit leaves them; a changed envelope path is cleared (R178). -/
def Dev.retuneCarriers (d : Dev) (old : WringerSet) : List Nat → Dev
  | [] => d
  | ch :: chs =>
    let was := old.planOf ch
    let is := d.wr.live.planOf ch
    let b := d.wr.live.carrier ch
    let same := was.carrier == is.carrier && was.carrierQ == is.carrierQ && was.corner == is.corner
    (d.onClock (512 + ch) (fun c =>
      { c with acc := d.accumulator old (old.carrier ch) c, inc := b.increment d.wr.live, from_ := d.bandTicks d.wr.live b,
               step := prefilterStep (d.centre b), cleared := if same then c.cleared else d.now })).retuneCarriers old chs

/-- A Wringer commit takes effect at this boundary (R149, R150, R153, R154, R178). -/
def Dev.applyWringer (d : Dev) (c : WringerCommit) : Dev :=
  let old := d.wr.live
  let new := old.merge c.captured c.mask
  let d := d.reconfigure new (List.finRange 4)
  let d := d.onWr (fun w => { w with live := new, pending := none })
  let d := (d.applyVibs old new (List.range 16)).applyFrame old
  let d := ((d.retune old new.onBands).prefilter new.onBands).retuneCarriers old (List.range 16)
  let d := d.openBands (old.resettled new)
  d.postAll { event := .commitApplied, subject := 1, data0 := c.mask.toNat }

/-- WRINGER_COMMIT_APPLY (R174, R175, R822): at the first boundary at least 50 us after acceptance. -/
def execWringerCommitApply (t : Time) (s : State) : Host.Outcome State Fault Refusal :=
  onDev s t (fun d =>
    match d.wr.pending with
    | none => d
    | some c => if d.wr.running && d.wringing && d.wr.start == d.now && decide (c.from_ ≤ d.now) then d.applyWringer c else d)

/-! ## WR_COMMIT (R174 to R176, R189, R450, R822 to R829) -/

/-- R132: 64 × c of an order-mode band exceeds RES of its tach input. -/
def WringerSet.tooFine (w : WringerSet) (b : Band) : Bool := b.order && decide (256 * 2 ^ (w.tachs[b.tach]).logRes < 64 * b.centre)

/-- R176: is the centre of an envelope band, at the tach's maximum rate in order mode, above the plan's corner? -/
def WringerSet.aboveCorner (w : WringerSet) (p : Plan) (b : Band) : Bool :=
  if b.order then decide (256 * 100 * p.corner < b.centre * (w.tachs[b.tach]).maxRate) else decide (256 * p.corner < b.centre)

/-- R132 and the two rules of R176 about envelope paths, for one plan as the commit makes it live. -/
def WringerSet.planAgrees (w : WringerSet) (p : Plan) : Bool :=
  !p.bands.toList.any w.tooFine &&
    (p.envelope == 0 ||
      (((p.bands.toList.drop 24).take p.envelope).all (fun b => !w.aboveCorner p b) && decide (1024 * p.corner ≤ p.carrier)))

/-- R176: is a plan that changes selected by a live channel outside the mask? -/
def WringerSet.strays (live staged : WringerSet) (mask : BitVec 16) : Bool :=
  (List.range 16).any (fun ch => !bit mask.toNat ch &&
    (match live.vibs.toList[ch]? with | none => false | some v => staged.plans[v.plan] != live.plans[v.plan]))

/-- Does a settings copy deliver a feature in the readout mode named? -/
def WringerSet.delivers (w : WringerSet) (f : Nat) (count : Bool) : Bool :=
  (w.planOf (f / 32)).on (f % 32) && (match w.vibs.toList[f / 32]? with | none => false | some v => v.count == count)

/-- R176: does a copy keep every band that a model binds enabled and in its readout mode? -/
def WringerSet.keepsModel (w : WringerSet) (m : Image) : Bool :=
  m.bindings.all (fun b => b.kind != 0 || (List.range b.count).all (fun i => w.delivers (b.first + i) (b.source == 2)))

/-- R189: does a commit leave the band that an enabled BAND comparator watches? -/
def Comparator.loses (c : Comparator) (live new : WringerSet) : Bool :=
  let s := c.waiting.getD c.set
  let f := 32 * s.vib.val + s.band.val
  let on := fun (w : WringerSet) => (w.planOf (f / 32)).on (f % 32)
  let direct := fun (w : WringerSet) => match w.vibs.toList[s.vib.val]? with | none => false | some v => !v.count
  s.enabled && s.source == .band && ((on live && !on new) || (direct live && !direct new))

/-- R450: a source other than NETWORK under a REMOTE binding, or a model whose W reaches its deadline. -/
def Dev.breaksModel (d : Dev) (new : WringerSet) (h : Handle) (m : Model) : Bool :=
  (d.wr.live.frame.source == .network && new.frame.source != .network && m.image.bindings.any (fun b => b.kind == 1)) ||
    !d.cycleLengths.all (fun c => m.image.meetsDeadline (d.worstTime (some h) m) (frameBudget new c))

/-- Do the staged settings agree (R822)? -/
def Dev.wringerAgrees (d : Dev) (mask : BitVec 16) : Bool :=
  let live := d.wr.live
  let new := live.merge d.wr.staged mask
  !live.strays d.wr.staged mask && new.plans.toList.all new.planAgrees &&
    d.loaded.all (fun m => new.keepsModel m.2.image && !d.breaksModel new m.1 m.2) &&
    !d.guard.comps.toList.any (fun c => c.loses live new)

/-- WR_COMMIT. -/
def cmdWrCommit : Command :=
  { code := 0x0213, sup := true,
    state := fun x d =>
      if x.argBit 1 0 then need d.wr.pending.isNone .busy
      else firstErr [need d.wr.pending.isNone .stagedConflict, need (d.wringerAgrees (BitVec.ofNat 16 (x.arg 0))) .stagedConflict],
    act := fun x d =>
      let mask := BitVec.ofNat 16 (x.arg 0)
      if x.argBit 1 0 then (d.onWr (fun w => { w with staged := d.wr.staged.merge d.wr.live mask }), .ok [])
      else (d.onWr (fun w => { w with pending := some { mask := mask, captured := d.wr.staged, from_ := d.now + us 50 } }), .ok []) }

def execWrCommit (t : Time) (b : Basket) (s : State) : Host.Outcome State Fault Refusal := hostCommand cmdWrCommit t b s

end Sys2Proof.Machine
end

