-- ==== Sys2Proof/Machine/Power.lean ====
section
/-!
DEFINITION. The power states (chapter 17): HOLD, FAULT and WATCH, what enters them and what leaves them, and the hem fuse.
-/

namespace Sys2Proof.Machine

/-! ## Transitions (R870) -/

/-- The causes of Table 17-8. -/
inductive PowerCause where
  | boot | command | wake (source : Fin 3) | pfail | pfailRelease | thermal | thermalClear | clock
  deriving DecidableEq, Repr

/-- Table 17-8. -/
def PowerCause.number : PowerCause → Nat
  | .boot => 0 | .command => 1 | .wake i => 2 + i.val | .pfail => 5 | .pfailRelease => 6 | .thermal => 7 | .thermalClear => 8 | .clock => 9

/-- Enter a power state: EV_POWER_STATE with the new state and the cause (R870). -/
def Dev.enterPower (d : Dev) (p : Power) (c : PowerCause) : Dev :=
  (d.onPwr (fun w => { w with state := p })).postAll { event := .powerState, data0 := p.number, data1 := c.number }

/-- What entry to HOLD and to FAULT does beside the patch store (R878, R883, R875): READY clears, a request for WATCH is dropped (Table
17-10), every output trips, runs end, the Rinse and Ixward stop, operand caches go (R507), and IRQ POWER is set. -/
def Dev.stopWork (d : Dev) : Dev :=
  let d := d.onPwr (fun w => { w with ready := false, watchRequest := false, wakes := 0 })
  let d := d.tripPower
  let d := d.endRuns .state (List.finRange 16)
  let d := ((d.stopChains).linkStops).dropCaches
  d.checkpointsStopped.raise everyBasket .power

/-- Is the device in a state that PFAIL brings to HOLD (Table 17-7)? -/
def Dev.active3 (d : Dev) : Bool := d.pwr.state == .boot || d.pwr.state == .active || d.pwr.state == .watch

/-- The press operations that resume may need a record first (R394, R363). -/
def Dev.resumeOps (d : Dev) : List (Fin 48) → Dev
  | [] => d
  | i :: is => (if (d.tiles[i]).op.isSome then d.pressNeeds i else d).resumeOps is

/-- HOLD or FAULT ends (R881, R884, R875, R394): the frame ends (R879), and what had paused goes on. -/
def Dev.resume (d : Dev) (c : PowerCause) : Dev :=
  let d := d.onStore (fun s => { s with pfailAt := none, actionDone := true })
  let d := d.enterPower (if d.pwr.frame1 then .active else .boot) c
  let d := d.onPwr (fun w => { w with ready := w.outcomePlaced, fault := none })
  let d := if d.pwr.frame1 then d.exitFrame else d
  d.linkRuns.resumeOps (List.finRange 48)

/-! ## HOLD (R878 to R881) -/

/-- PFAIL brings the device into HOLD. -/
def Dev.holdEntry (d : Dev) (c : PowerCause) : Dev := ((d.enterPower .hold c).storePfail).stopWork

/-- The level of the PFAIL pin rises: PFAIL_STATUS takes it (R566), and IRQ POWER is set where the pages answer (Table 15-5). -/
def Dev.pfailRises (d : Dev) : Dev :=
  let d := (d.onPwr (fun w => { w with pfail := true, pfailSince := d.now })).recordPfail
  if d.pwr.state.answers then d.raise everyBasket .power else d

/-- PFAIL_ASSERT (R878, R564, R883): in HOLD the store acts anew; in FAULT it changes no state. -/
def execPfailAssert (t : Time) (s : State) : Host.Outcome State Fault Refusal :=
  onDev s t (fun d => if d.pwr.pfail then d else if d.active3 then d.pfailRises.holdEntry .pfail
    else if d.pwr.state == .hold then d.pfailRises.storePfail else d.pfailRises)

/-- PFAIL_DEASSERT (R881): the interval of 1 ms begins. -/
def execPfailDeassert (t : Time) (s : State) : Host.Outcome State Fault Refusal :=
  onDev s t (fun d => if d.pwr.pfail then d.onPwr (fun w => { w with pfail := false, pfailLowSince := d.now }) else d)

/-- Does HOLD end now (R881)? -/
def Dev.holdEnds (d : Dev) : Bool :=
  d.pwr.state == .hold && !d.pwr.pfail && decide (d.pwr.pfailLowSince + ms 1 ≤ d.now) && d.storeActionEnded

/-- HOLD_EXIT (R881, R879). -/
def execHoldExit (t : Time) (s : State) : Host.Outcome State Fault Refusal :=
  onDev s t (fun d => if d.holdEnds then d.resume .pfailRelease else d)

/-! ## FAULT (R882 to R885) -/

/-- DIE_TEMP_UPDATE (Table 15-9): the reading, and the unbroken runs of readings that R882 and R884 time. -/
def execDieTempUpdate (t : Time) (value : BitVec 16) (s : State) : Host.Outcome State Fault Refusal :=
  onDev s t (fun d =>
    if !d.pwr.state.answers then d
    else
      let hot := decide (2400 ≤ value.toInt)
      let cool := decide (value.toInt < 2080)
      (d.onPwr (fun w =>
        { w with dieTemp := value, hotSince := if hot then some (w.hotSince.getD d.now) else none,
                 coolSince := if cool then some (w.coolSince.getD d.now) else none })).commitNeeds)

/-- Has an unbroken run of readings lasted this long? -/
def Dev.lasted (d : Dev) (since : Option Time) (n : Time) : Bool := match since with | none => false | some x => decide (x + n ≤ d.now)

/-- THERMAL_FAULT (R882, R883): a store write in progress completes, and no other begins. -/
def execThermalFault (t : Time) (s : State) : Host.Outcome State Fault Refusal :=
  onDev s t (fun d =>
    if (d.active3 || d.pwr.state == .hold) && d.lasted d.pwr.hotSince (ms 1) then
      ((d.enterPower .fault .thermal).onPwr (fun w => { w with fault := some .thermal })).stopWork
    else d)

/-- The calibrations in progress end with E_STATE: their samples stop under a CLOCK fault (R875, Table 17-6). -/
def Dev.stopCalibrations (d : Dev) : List (Fin 24) → Dev
  | [] => d
  | i :: is =>
    (match (d.fe[i]).cal with
     | none => d
     | some k => (d.onChannel i.val (fun c => { c with cal := none })).finish k.basket (if k.gain then 0x0203 else 0x0202) (refusal .state)).stopCalibrations is

/-- CLOCK_FAULT (R882, R883, R885, R41): timestamps stand still, a store write is abandoned. -/
def execClockFault (t : Time) (s : State) : Host.Outcome State Fault Refusal :=
  onDev s t (fun d =>
    if d.active3 || d.pwr.state == .hold then
      let d := d.onClk (fun c => { c with frozen := some d.now })
      let d := (d.enterPower .fault .clock).onPwr (fun w => { w with fault := some .clock })
      (d.abandonWrite.stopCalibrations (List.finRange 24)).stopWork
    else d)

/-- THERMAL_CLEAR (R884): to HOLD when PFAIL is asserted, else to BOOT or ACTIVE. A clear into HOLD has the effects of its entry that FAULT
has not had: outputs trip again (R223; log entry 40); and it ends the frame (log entry 29). -/
def execThermalClear (t : Time) (s : State) : Host.Outcome State Fault Refusal :=
  onDev s t (fun d =>
    if d.pwr.state == .fault && d.pwr.fault == some .thermal && d.lasted d.pwr.coolSince (sec 1) then
      if d.pwr.pfail then
        let d := (d.enterPower .hold .thermalClear).onPwr (fun w => { w with fault := none })
        let d := (if d.store.pfailAt.isSome then d else d.storePfail).tripPower
        (if d.pwr.frame1 then d.exitFrame else d).raise everyBasket .power
      else d.resume .thermalClear
    else d)

/-! ## WATCH (R871 to R877) -/

/-- Is a latch set with wake enabled (R877)? -/
def Guard.wakeLatched (g : Guard) : Bool := g.comps.toList.any (fun c => c.latch && c.set.wake)

/-- WATCH is left for ACTIVE (R876). -/
def Dev.leaveWatch (d : Dev) (c : PowerCause) : Dev :=
  ((d.enterPower .active c).onPwr (fun w => { w with wakes := 0, watchRequest := false })).linkRuns

/-- SYS_SET_POWER (R871, R877). -/
def cmdSysSetPower : Command :=
  { code := 0x0102, sup := true, range := fun x _ => argRange (x.arg 0 == 2 || x.arg 0 == 3),
    state := fun _ d =>
      need ((d.pwr.state == .active || d.pwr.state == .watch) && !d.pwr.watchRequest && !d.loaded.any (fun m => m.2.state == .loading)) .state,
    act := fun x d =>
      (if x.arg 0 = 2 then (if d.pwr.state == .watch then d.leaveWatch .command else d)
       else if d.pwr.state == .watch then d
       else
         let d := d.onPwr (fun w => { w with watchRequest := true, watchAt := d.now, wakes := 0 })
         if d.guard.wakeLatched then d.wakeBy 0 else d, .ok []) }

/-- SYS_SET_WAKE (R903). -/
def cmdSysSetWake : Command :=
  { code := 0x0103, sup := true, range := fun x _ => argRange (decide (x.arg 0 < 8)),
    act := fun x d => (d.onPwr (fun w => { w with wakeMask := BitVec.ofNat 3 (x.arg 0) }), .ok []) }

/-- Is no run, pressing operation, patch store write or window transfer in progress or queued (R871)? -/
def Dev.quiet (d : Dev) : Bool :=
  d.loaded.all (fun m => m.2.run.isNone) && d.spool.tags.isEmpty &&
    (List.finRange 48).all (fun i => (d.tiles[i]).op.isNone && (d.nextOp i).isNone) &&
    d.store.writing.isNone && !d.store.trigger && d.host.pages.toList.all (fun p => p.windows.toList.all (fun w => !w.active))

/-- WATCH_ENTRY (R871, R872, R507). -/
def execWatchEntry (t : Time) (s : State) : Host.Outcome State Fault Refusal :=
  onDev s t (fun d =>
    if d.pwr.state == .active && d.pwr.watchRequest && d.pwr.wakes == 0 && d.quiet then
      let d := (d.enterPower .watch .command).onPwr (fun w => { w with watchRequest := false })
      ((d.stopChains).linkStops).dropCaches
    else d)

/-- The bit of a wake source in the wake mask (R903). -/
def wakeBit : WakeSource → Fin 3
  | .thimble => 0 | .alarm => 1 | .verdict => 2

/-- WAKE (R876, R877): an enabled source that has occurred wakes the device, or abandons an entry that is pending. -/
def execWake (t : Time) (source : WakeSource) (s : State) : Host.Outcome State Fault Refusal :=
  onDev s t (fun d =>
    if (d.pwr.state == .watch || (d.pwr.state == .active && d.pwr.watchRequest)) && d.pwr.wakes.getLsbD (wakeBit source).val then
      d.leaveWatch (.wake (wakeBit source))
    else d)

/-! ## The hem fuse (R895 to R902) -/

/-- The fuse is ARMED no longer, and the attempt has failed. -/
def FusePort.disarm (f : FusePort) : FusePort := { f with armed := false, lastFailed := true }

/-- FUSE_ARM (R895). -/
def cmdFuseArm : Command :=
  { code := 0x0A10, sup := true, state := fun x _ => need (!x.blown) .fused,
    act := fun _ d => (d.onFuse (fun f => { f with armed := true, lastFailed := false, windowEnd := d.now + sec 1 }), .ok []) }

/-- FUSE_CONFIRM (R897, R816): its checks in their order, and what a refusal leaves. -/
def cmdFuseConfirm : Command :=
  { code := 0x0A11, sup := true, long := true,
    act := fun x d =>
      if x.blown then (d, .refuse .fused)
      else if !d.fuseArmed then (d, .refuse .state)
      else if d.pwr.pfail || !d.pwr.vddpOk then (d.onFuse (fun f => f.disarm), .refuse .state)
      else if x.arg64 0 ≠ x.chip.uniqueId.toNat then (d.onFuse (fun f => f.disarm), .refuse .argRange)
      else (d.onFuse (fun f => { f with blowing := some x.b }), .wait) }

/-- FUSE_WINDOW_END (R896, R48). -/
def execFuseWindowEnd (t : Time) (s : State) : Host.Outcome State Fault Refusal :=
  onDev s t (fun d =>
    if d.fuse.armed && d.fuse.blowing.isNone && decide (d.fuse.windowEnd ≤ d.now) then
      (d.onFuse (fun f => f.disarm)).postAll { event := .fuse, data0 := 0 }
    else d)

/-- The blow has ended (R899, R901): the debug access port closes at once and its halt ends; EV_FUSE carries the tag of FUSE_CONFIRM. -/
def Dev.blowEnds (d : Dev) (b : Basket) (blown : Bool) : Dev :=
  let tag := match d.host.pages[b].running with | some r => r.tag | none => 0
  if blown then
    let d := (d.onFuse (fun f => { f with armed := false, blowing := none })).onPwr (fun w => { w with halted := false, tapOut := none })
    (d.postAll { event := .fuse, data0 := 2, tag := tag }).finish b 0x0A11 (success [])
  else (d.onFuse (fun f => { f.disarm with blowing := none })).finish b 0x0A11 (refusal .state)

/-- FUSE_BLOW_DONE (R898, R899, R901, R902): the elements as the verify finds them; an element never unblows. -/
def execFuseBlowDone (t : Time) (blown0 blown1 : Bool) (s : State) : Host.Outcome State Fault Refusal :=
  match s.dev.fuse.blowing with
  | none => onDev s t (fun d => d)
  | some b =>
    let fuse : Fuse := { element0 := s.fuse.element0 || blown0, element1 := s.fuse.element1 || blown1 }
    onDev { s with fuse := fuse } t (fun d => d.blowEnds b fuse.blown)

def execSysSetPower (t : Time) (b : Basket) (s : State) : Host.Outcome State Fault Refusal := hostCommand cmdSysSetPower t b s
def execSysSetWake (t : Time) (b : Basket) (s : State) : Host.Outcome State Fault Refusal := hostCommand cmdSysSetWake t b s
def execFuseArm (t : Time) (b : Basket) (s : State) : Host.Outcome State Fault Refusal := hostCommand cmdFuseArm t b s
def execFuseConfirm (t : Time) (b : Basket) (s : State) : Host.Outcome State Fault Refusal := hostCommand cmdFuseConfirm t b s

end Sys2Proof.Machine
end

