-- ==== Sys2Proof/Machine/HostBus.lean ====
section
/-!
DEFINITION. The host bus as a whole: the command table, writes of registers, the debug access port, and how a reset begins (chapters 15
to 17).
-/

namespace Sys2Proof.Machine

/-! ## Boot record headers (R853, R861, R864) -/

/-- The maximum clock of a READ_OPCODE in MHz (Table 17-5). -/
def opcodeClock : Nat → Option Nat
  | 0x03 | 0x13 => some 33
  | 0x0B | 0x0C | 0x6B | 0x6C | 0xEB | 0xEC => some 66
  | _ => none

/-- The length that a header's ENTRY_COUNT gives. -/
def recordLengthOf (h : List Byte) : Nat := 32 + 20 * field h 12 2

/-- Are the fields of a header good (R853, R861)? A DUMMY of 16 to 254, a clock of 0 and an ENTRY_COUNT above 4096 make it bad too (log entry
30). -/
def saneHeader (h : List Byte) : Bool :=
  decide (h.take 4 = [0x42, 0x4F, 0x4F, 0x54]) && field h 4 2 == 1 && field h 8 4 == recordLengthOf h && decide (field h 12 2 ≤ 4096) &&
    (match opcodeClock (field h 6 1) with
     | none => false
     | some c => decide (1 ≤ field h 7 1) && decide (field h 7 1 ≤ c)) &&
    (decide (field h 14 1 ≤ 15) || field h 14 1 == 255) && ((h.drop 15).take 13).all (· == 0)

/-- Is a header good, its CRC over the bytes of its record included (R861)? -/
def goodHeader (h : List Byte) (record : List Byte) : Bool :=
  saneHeader h &&
    (crc32 (h.take 28 ++ (record.drop 32).take (recordLengthOf h - 32))).toNat == field h 28 4

/-- The read settings of a header apply from the instant it is found valid (R868). -/
def Pwr.readSettings (w : Pwr) (h : List Byte) : Pwr :=
  { w with qspiOpcode := BitVec.ofNat 8 (field h 6 1), qspiClock := field h 7 1, qspiDummy := field h 14 1 }

/-- Execution of a record of n entries begins. -/
def BootExec.start (source : BootSource) (base n : Nat) (bad : Bool) : BootExec :=
  { source := source, base := base, count := n, index := 0, executed := 0, refused := 0, firstRefused := none, stopped := false,
    badHeader := bad }

/-- The bytes of the record that SYS_BOOT_RECORD names. -/
def Ctx.bootBytes (x : Ctx) (d : Dev) : List Byte := d.sram.bytes (x.arg32 0) (x.arg32 2)

/-- SYS_BOOT_RECORD (R863, R868): its LENGTH is the length named (log entry 30). -/
def cmdSysBootRecord : Command :=
  { code := 0x0104, sup := true, long := true, names := fun x d => x.memory d (x.arg32 0) (x.arg32 2),
    range := fun x d =>
      let bs := x.bootBytes d
      argRange (decide (32 ≤ x.arg32 2) && x.arg32 2 == recordLengthOf bs && goodHeader (bs.take 32) bs),
    state := fun _ d => need (d.pwr.state == .active) .state,
    act := fun x d =>
      let h := d.sram.bytes (x.arg32 0) 32
      (d.onPwr (fun w => { w.readSettings h with exec := some (BootExec.start (.sram x.b) (x.arg32 0 + 32) (field h 12 2) false) }), .wait) }

/-! ## The command table (chapter 16) -/

/-- Families 0x01 to 0x04 (Tables 16-4 to 16-7). -/
def commandsFront : List Command :=
  [cmdSysSync, cmdSysSetPower, cmdSysSetWake, cmdSysBootRecord, cmdFeSetChannel, cmdFeCalOffset, cmdFeCalGain, cmdFeSetCoef,
   cmdFeRestartSensor, cmdFeStatus, cmdTedsSetScan, cmdTedsBind, cmdTedsLog, cmdTachSet, cmdTachSetLoop, cmdTachSetIndex, cmdTachStatus,
   cmdWrSetPlan, cmdWrSetChannel, cmdWrSetFrame, cmdWrCommit, cmdWrStatus, cmdThmSet, cmdThmSetTrip, cmdThmStatus, cmdNdlSet,
   cmdNdlSynthSet, cmdNdlFire, cmdNdlArm, cmdNdlTrip, cmdNdlFeed, cmdNdlStatus, cmdRnSetChannel, cmdRnSetCoef, cmdRnCommit, cmdRnSwap,
   cmdRnEnable, cmdRnDcFreeze, cmdRnSetDetector, cmdRnDetRead, cmdRnDetReset, cmdRnRingSet, cmdRnRingStart, cmdRnRingStop, cmdRnTrigger,
   cmdRnStatus, cmdRnSetSync]

/-- Families 0x05 to 0x0A (Tables 16-8 to 16-13). -/
def commandsModel : List Command :=
  [cmdPrForm, cmdPrPress, cmdPrInspect, cmdPrCalibrate, cmdPrSetUpkeep, cmdPrStatus, cmdTileStatus, cmdMdLoad, cmdMdCheck, cmdMdUnload,
   cmdMdStatus, cmdMdSetHorizon, cmdMemStatus, cmdMemClear, cmdSpLedger, cmdSpSetAgeing, cmdVeStatus, cmdLnStatus, cmdLnAck, cmdLnPatch,
   cmdLnRecommission, cmdLnForget, cmdPsSet, cmdPsStatus, cmdPsLog, cmdPsPut, cmdPsGet, cmdPsCheckpoint, cmdLkSet, cmdLkSetEntry,
   cmdLkCommit, cmdLkStatus, cmdLkPartners, cmdLkSend, cmdLkClaim, cmdLkRelease, cmdLkMailSend, cmdLkMailRead, cmdLkRearm, cmdLkLog,
   cmdCalSet, cmdCalGet, cmdCalAlarm, cmdBkGrant, cmdBkRevoke, cmdBkStatus, cmdFuseArm, cmdFuseConfirm]

/-- Every command. -/
def commandTable : List Command := commandsFront ++ commandsModel

/-- A code that no table lists (R810): refused with E_NO_SUCH. -/
def noCommand (code : Word) : Command := { code := code, names := fun _ _ => false, act := fun _ d => (d, .ok []) }

/-- The command of a code. -/
def commandOf (code : Word) : Command := (commandTable.find? (fun c => c.code == code)).getD (noCommand code)

/-- UNKNOWN_COMMAND (R810); a code that a table lists has a row of its own. -/
def execUnknownCommand (t : Time) (b : Basket) (code : BitVec 16) (s : State) : Host.Outcome State Fault Refusal :=
  onDev s t (fun d => if commandTable.any (fun c => c.code == code) then d else d.command s.chip s.fuse.blown (noCommand code) b)

/-- COMMAND_IGNORED (R775). The code is not looked at. -/
def execCommandIgnored (t : Time) (b : Basket) (_code : BitVec 16) (s : State) : Host.Outcome State Fault Refusal :=
  onDev s t (fun d => if d.reachable b && !d.starts b then d.onPage b Page.ignore else d)

/-! ## Resets (R843 to R847, Table 17-1) -/

/-- The bit of a cause in RESET_CAUSE (Table 15-9). -/
def ResetCause.mask : ResetCause → BitVec 5
  | .supply => 2 | .pin => 4 | .software => 8 | .tap => 16

/-- What a tile keeps across a reset: its cells, its configuration area and the marks that R353 and R377 give it (Table 17-1, log entry
4); its counters come back with the patch store. -/
def Tile.reset (x : Tile) : Tile :=
  { x with armed := false, age := 0, due := false, dueSince := 0, dueTag := 0, precedence := false, lastResult := 0, bootChecked := false,
           bootBarred := false, lastMode := none, phaseEnd := 0, clipsRun := 0, uncheckedRun := 0, clipped := 0, compared := 0, seamFailures := 0, queue := [], op := none }

/-- What the power block keeps: the levels of pins and supplies, and the TAP's instruction. -/
def Pwr.acrossReset (old new : Pwr) : Pwr :=
  { new with pfail := old.pfail, pfailSince := old.pfailSince, pfailLowSince := old.pfailLowSince, vddpOk := old.vddpOk,
             vddioHigh := old.vddioHigh, tapInstruction := old.tapInstruction }

/-- The device in RESET, over what Table 17-1 keeps; `release` is the earliest end of reset (R845). -/
def Dev.inReset (d : Dev) (chip : Chip) (c : ResetCause) (release : Time) : Dev :=
  let keep : Keep := { d.keep with resetCause := d.keep.resetCause ||| c.mask }
  let banks : Store := { Store.fresh d.now with banks := d.store.banks }
  let e := Dev.restart chip d.now keep (d.tiles.map Tile.reset) banks d.sram.reset d.flash d.free
  e.onPwr (fun p => { d.pwr.acrossReset p with state := .reset, resetUntil := max d.pwr.resetUntil release })

/-- The elements after a reset: as they read when a blow was cut short (R900). -/
def Fuse.afterReset (f : Fuse) (draw : Nat) (blowing : Bool) : Fuse :=
  if blowing then { element0 := f.element0 || Config.fuseAtReset draw 0, element1 := f.element1 || Config.fuseAtReset draw 1 } else f

/-- A reset begins (R843), or its cause recurs. -/
def State.beginReset (s : State) (c : ResetCause) (release : Time) : State :=
  let (n, d) := s.dev.draw
  { s with fuse := s.fuse.afterReset n d.fuse.blowing.isSome, dev := d.inReset s.chip c release }

/-- A step at an instant that changes more than the device. -/
def onState (s : State) (t : Time) (f : State → State) : Host.Outcome State Fault Refusal := .next (f { s with dev := s.dev.tick t })

/-- RESET_PIN (R843): nRESET holds the device until it is released. -/
def execResetPin (t : Time) (s : State) : Host.Outcome State Fault Refusal := onState s t (fun s => s.beginReset .pin s.dev.now)

/-- SUPPLY_MONITOR_RESET (R843, R845): each of the three supplies sets SUPPLY. -/
def execSupplyMonitorReset (t : Time) (_supply : Supply) (s : State) : Host.Outcome State Fault Refusal :=
  onState s t (fun s => s.beginReset .supply (s.dev.now + us 10))

/-- Is it one of EXTEST, HIGHZ and CLAMP (Table 17-9)? -/
def tapHolds (i : BitVec 5) : Bool := i == 3 || i == 4 || i == 5

/-- Select a TAP instruction. -/
def State.selectTap (s : State) (i : BitVec 5) : State := { s with dev := s.dev.onPwr (fun w => { w with tapInstruction := i }) }

/-- The IDCODE register (Table 17-9). -/
def idcode : BitVec 32 := 0x1B0482D5

/-- What the data register of the TAP's instruction captures (Table 17-9): IDCODE its code, BYPASS a 0, and DEBUG with the fuse blown the same;
none for the boundary register and the debug access port, whose bits the manual does not list (log entry 51). -/
def State.tapCapture (s : State) : Option (BitVec 32) :=
  let i := s.dev.pwr.tapInstruction
  if i = 0x01 then some idcode
  else if 2 ≤ i ∧ i ≤ 5 then none
  else if i = 0x10 ∧ !s.fuse.blown then none
  else some 0

/-- TAP_EXTEST_ENTRY (R892, R893): under EXTEST, HIGHZ and CLAMP the device is held in RESET; another instruction, loaded while none of these
holds it, is selected and has no effect on the device. -/
def execTapExtestEntry (t : Time) (instruction : BitVec 5) (s : State) : Host.Outcome State Fault Refusal :=
  onState s t (fun s =>
    if tapHolds instruction then (s.selectTap instruction).beginReset .tap s.dev.now
    else if tapHolds s.dev.pwr.tapInstruction then s else s.selectTap instruction)

/-- TAP_RESET (R893, R845): the instruction register leaves EXTEST, HIGHZ and CLAMP. -/
def execTapReset (t : Time) (instruction : BitVec 5) (s : State) : Host.Outcome State Fault Refusal :=
  onState s t (fun s =>
    if tapHolds s.dev.pwr.tapInstruction && !tapHolds instruction then (s.selectTap instruction).beginReset .tap (s.dev.now + us 10) else s)

/-- KEEP_POWER_UP (R846, R889, R805). -/
def execKeepPowerUp (t : Time) (s : State) : Host.Outcome State Fault Refusal :=
  onDev s t (fun d => d.onKeep (fun _ => Keep.powerUp d.now))

/-- SUP_CTRL (R843, R844, R718): DEVICE_RESET with KEY 0x5A in one write, from basket 0. -/
def State.supCtrl (s : State) (b : Basket) (val : Word) : State :=
  if b = 0 && bit val.toNat 0 && val.toNat / 256 == 0x5A then s.beginReset .software (s.dev.now + us 10) else s

/-- DEVICE_RESET. -/
def execDeviceReset (t : Time) (b : Basket) (val : BitVec 16) (s : State) : Host.Outcome State Fault Refusal :=
  onState s t (fun s => if s.dev.reachable b then s.supCtrl b val else s)

/-! ## Register writes (Tables 15-2 to 15-9) -/

/-- The write of one word of a page; RD and RP registers, reserved offsets and what is basket 0's ignore it (R9, R718, R760). -/
def Dev.writeWord (d : Dev) (chip : Chip) (blown : Bool) (b : Basket) (off : Nat) (val : Word) : Dev :=
  if 0x18 ≤ off ∧ off ≤ 0x1F then d.onPage b (fun p => { p with args := updAt p.args (off - 0x18) (fun _ => val) })
  else if 0x28 ≤ off ∧ off ≤ 0x2C then d.winRegister b 0 (off - 0x28) val
  else if 0x30 ≤ off ∧ off ≤ 0x34 then d.winRegister b 1 (off - 0x30) val
  else match off with
    | 0x08 => d.onPage b (fun p => p.clearIrq val d.now)
    | 0x09 => d.onPage b (fun p => { p with irqEnable := val.setWidth 13 })
    | 0x0A => d.writeTrip b val
    | 0x0C => d.writeLatch b 0 val
    | 0x0D => d.writeLatch b 1 val
    | 0x0E => d.clearOverload b 0 val
    | 0x0F => d.clearOverload b 1 val
    | 0x10 => d.command chip blown (commandOf val) b
    | 0x13 => d.onPage b (fun p => { p with cmdTag := val.setWidth 8 })
    | 0x81 => d.writeEnable b val
    | 0x86 => d.clearCause b val
    | _ => d

/-- The write of one word, SUP_CTRL too. -/
def State.writeWord (s : State) (b : Basket) (off : Nat) (val : Word) : State :=
  if off = 0x80 then s.supCtrl b val else { s with dev := s.dev.writeWord s.chip s.fuse.blown b off val }

/-- REGISTER_WRITE (R760, R761, R720). -/
def execRegisterWrite (t : Time) (b : Basket) (off : BitVec 8) (val : BitVec 16) (s : State) : Host.Outcome State Fault Refusal :=
  onState s t (fun s => if s.dev.reachable b then s.writeWord b off.toNat val else s)

/-! ## The debug access port (R892, R894; log entry 31) -/

/-- The value of a register, whether or not its basket is enabled: what a read returns, without what a read does. -/
def Dev.peek (d : Dev) (chip : Chip) (blown : Bool) (b : Basket) (off : Nat) : Word :=
  match multiWord b off with
  | some (base, 0) => if isSnapshotOffset b base then (d.liveWords chip b base).getD 0 0 else (d.host.pages[b].shadows.get base).getD 0 0
  | some (base, k) => (d.host.pages[b].shadows.get base).getD k 0
  | none =>
    if off = 0x2A ∨ off = 0x32 then BitVec.ofNat 16 (d.sram.value (d.win b (if off = 0x2A then 0 else 1)).addr.toNat 2)
    else if b = 0 ∧ 0x80 ≤ off ∧ off ≤ 0x8F then d.supervisorWord blown off
    else d.pageWord chip b off

/-- The tile state of a number. -/
def TileState.ofNumber (n : Nat) : Option TileState :=
  [TileState.blank, .spare, .ready, .pressing, .inspecting, .suspect, .retired][n]?

/-- The bytes of a content tag. -/
def ContentTag.bytes (c : ContentTag) : List Byte := w32 c.modelId.toNat ++ w32 c.crc.toNat ++ w32 c.patch

/-- A byte of a tile's configuration area in the order that R340 lists it: state, remap entries (240 when empty), trims, row remainders,
and the content tag after a byte that says whether there is one. -/
def Tile.configByte (x : Tile) (i : Nat) : Byte :=
  if i = 0 then BitVec.ofNat 8 x.state.number
  else if i < 9 then BitVec.ofNat 8 ((at? x.remap (i - 1) none).getD 240)
  else if i < 2313 then BitVec.ofNat 8 (x.trim (i - 9))
  else if i < 6409 then BitVec.ofInt 8 (x.remainder ((i - 2313) / 8) ((i - 2313) % 8))
  else match x.content with
    | none => 0
    | some c => if i = 6409 then 1 else c.bytes.getD (i - 6410) 0

/-- A content tag with one of its bytes replaced. -/
def ContentTag.setByte (c : ContentTag) (i : Nat) (v : Byte) : ContentTag :=
  let bs := c.bytes.set i v
  { modelId := BitVec.ofNat 32 (field bs 0 4), crc := BitVec.ofNat 32 (field bs 4 4), patch := field bs 8 4 }

/-- Write a byte of a tile's configuration area. -/
def Tile.setConfigByte (x : Tile) (i : Nat) (v : Byte) : Tile :=
  if i = 0 then { x with state := (TileState.ofNumber v.toNat).getD x.state }
  else if i < 9 then
    { x with remap := updAt x.remap (i - 1) (fun _ => if 240 ≤ v.toNat ∧ v.toNat < 248 then none else some v.toNat) }
  else if i < 2313 then x.setTrim (i - 9) v.toNat
  else if i < 6409 then
    { x with remainders := if v = 0 then assocErase (i - 2313) x.remainders else assocSet (i - 2313) v.toInt x.remainders }
  else if i = 6409 then
    { x with content := if v = 0 then none else some (x.content.getD { modelId := 0, crc := 0, patch := 0 }) }
  else { x with content := x.content.map (fun c => c.setByte (i - 6410) v) }

/-- The value that the debug port shifts out. -/
def Dev.tapRead (d : Dev) (v : Word) : Dev := d.onPwr (fun w => { w with tapOut := some v })

/-- Islands stand still; the cycles for which an engine has been busy are counted (R497). -/
def Dev.halt (d : Dev) : Dev :=
  (d.onSpool (fun p => { p with engines := p.engines.map (fun (e : Engine) =>
    { e with cycles := e.cycles + BitVec.ofNat 64 (d.busyCycles e) }) })).onPwr (fun w => { w with halted := true })

/-- Islands run again: a descriptor that an engine holds begins afresh. -/
def Dev.unhalt (d : Dev) : Dev :=
  (d.onPwr (fun w => { w with halted := false })).onSpool (fun p => { p with engines := p.engines.map (fun (e : Engine) =>
    { e with busy := e.busy.map (fun x => (x.1, x.2.1, x.2.2.1, d.now)) }) })

/-- What the debug access port does. -/
def State.debug (s : State) : DebugAccess → State
  | .readRegister b off => { s with dev := s.dev.tapRead (s.dev.peek s.chip s.fuse.blown b off.toNat) }
  | .writeRegister b off val => s.writeWord b off.toNat val
  | .readSram a => { s with dev := s.dev.tapRead ((s.dev.sram.get a.toNat).setWidth 16) }
  | .writeSram a v => { s with dev := s.dev.memWrite a.toNat [v] }
  | .readTileConfig i k => { s with dev := s.dev.tapRead (((s.dev.tiles[i]).configByte k).setWidth 16) }
  | .writeTileConfig i k v => { s with dev := s.dev.onTile i (fun x => x.setConfigByte k v) }
  | .haltIslands => { s with dev := if s.dev.pwr.halted then s.dev else s.dev.halt }
  | .resumeIslands => { s with dev := if s.dev.pwr.halted then s.dev.unhalt else s.dev }
  | .requestReset => s.beginReset .tap (s.dev.now + us 10)

/-- DEBUG_PORT_ACCESS (R894, R901, R902): only while the fuse is intact, and while the device is not held in RESET. -/
def execDebugPortAccess (t : Time) (access : DebugAccess) (s : State) : Host.Outcome State Fault Refusal :=
  onState s t (fun s => if s.fuse.blown || !s.dev.pwr.state.answers then s else (s.selectTap 0x10).debug access)

def execSysBootRecord (t : Time) (b : Basket) (s : State) : Host.Outcome State Fault Refusal := hostCommand cmdSysBootRecord t b s

end Sys2Proof.Machine
end

