-- ==== Sys2Proof/Machine/Boot.lean ====
section
/-!
DEFINITION. The boot sequence (Table 17-2): the end of reset, tile restore, execution of a boot record, and the beginning of frame 1.
-/

namespace Sys2Proof.Machine

/-! ## The end of reset -/

/-- What BOOTSEL high does: the header in flash is read with 0x03 at 10 MHz, its entries with its own read settings, and both are
judged (R848, R861, R865, R868). -/
def Dev.bootFromFlash (d : Dev) : Dev :=
  let h := d.flashBytes 0 32
  let good := saneHeader h && goodHeader h (d.flashBytes 0 (recordLengthOf h))
  let header := qspiRead 0x03 10 0 0 32
  let entries := qspiRead (BitVec.ofNat 8 (field h 6 1)) (field h 7 1) (field h 14 1) 32 (20 * field h 12 2)
  let d := d.onQspi (fun _ => if saneHeader h && decide (0 < field h 12 2) then [header, entries] else [header])
  d.onPwr (fun w =>
    { (if good then w.readSettings h else w) with
      bootFlash := true, exec := some (BootExec.start .flash 32 (if good then field h 12 2 else 0) (!good)) })

/-- Step 1 of Table 17-2 over the device in RESET. -/
def Dev.leaveReset (d : Dev) (chip : Chip) (bootsel vddioHigh : Bool) : Dev :=
  let e := Dev.restart chip d.now d.keep d.tiles d.store d.sram d.flash d.free
  let e := e.onPwr (fun p => { d.pwr.acrossReset p with vddioHigh := vddioHigh })
  let e := if bootsel then e.bootFromFlash else e
  if e.pwr.pfail then e.holdEntry .pfail else e

/-- RESET_END (R845, R848, R849, R893); PFAIL that is asserted then brings HOLD at once (log entry 30). -/
def execResetEnd (t : Time) (bootsel vddioHigh : Bool) (s : State) : Host.Outcome State Fault Refusal :=
  onDev s t (fun d =>
    if d.pwr.state == .reset && decide (d.pwr.resetUntil ≤ d.now) && !tapHolds d.pwr.tapInstruction then d.leaveReset s.chip bootsel vddioHigh else d)

/-! ## Tile restore (R850 to R852, R391, R392) -/

/-- The state in which a tile resumes. -/
def Tile.resumed (x : Tile) (now : Time) : Tile :=
  match x.state with
  | .ready => { x with state := .spare }
  | .pressing =>
    if x.recorded == some PressKind.form then { x with state := .blank, content := none, recorded := none, due := false, dueTag := 0 }
    else { x with state := .spare, content := none, recorded := none }.makeDue now
  | .inspecting => { x with state := .suspect, recorded := none }.schedule now
  | .suspect => x.schedule now
  | _ => x

/-- The boot self-check of a SPARE tile with a content tag (R850 to R852). -/
def Dev.bootCheck (d : Dev) (i : Fin 48) : Dev :=
  let (n, d) := d.drawMany 8
  let c := (d.tiles[i]).selfCheck n
  let d := d.onTile i (fun x =>
    { x.drove false d.now with compared := x.compared + BitVec.ofNat 32 c.made, seamFailures := x.seamFailures + BitVec.ofNat 32 c.failed })
  if c.passes then d.onTile i (fun x => { x with bootChecked := true })
  else
    (d.onTile i (fun x => { x with state := .suspect, bootBarred := true }.schedule d.now)).postTile i
      { event := .seamFail, subject := i.val, data0 := 0xFFFF, data1 := c.failed + c.unmade }

/-- Tiles in their order. -/
def Dev.restoreTiles (d : Dev) : List (Fin 48) → Dev
  | [] => d
  | i :: is =>
    let d := d.onTile i (fun x => x.resumed d.now)
    (if (d.tiles[i]).state == .spare && (d.tiles[i]).content.isSome then d.bootCheck i else d).restoreTiles is

/-- The time that tile restore takes: its 8 engines work in parallel, at 240 us per tile (R850). -/
def Dev.restoreTime (d : Dev) : Time :=
  us 240 * ((List.range 8).map (fun g => ((groupTiles g).filter (fun i => (d.tiles[i]).alive)).length)).foldl max 0

/-- TILE_RESTORE (Table 17-2 step 3). -/
def execTileRestore (t : Time) (s : State) : Host.Outcome State Fault Refusal :=
  onDev s t (fun d =>
    if d.pwr.state == .boot && !d.pwr.restored && decide (d.clk.origin + us 20 + d.restoreTime ≤ d.now) then
      (d.restoreTiles (List.finRange 48)).onPwr (fun w => { w with restored := true })
    else d)

/-- STORE_SELECTION (R556, Table 17-2 step 4): the patch store controller runs in HOLD, and in FAULT under a THERMAL cause. -/
def execStoreSelection (t : Time) (s : State) : Host.Outcome State Fault Refusal :=
  onDev s t (fun d =>
    if (d.pwr.state == .boot || d.pwr.state == .hold || (d.pwr.state == .fault && d.sampling)) && !d.pwr.selected &&
        decide (d.clk.origin + us 20 ≤ d.now)
    then (d.selectStore s.chip.gradeX).commitNeeds else d)

/-! ## Boot record entries (R854 to R856, R863) -/

/-- The bytes of an entry (Table 17-4). -/
def Dev.entryBytes (d : Dev) (e : BootExec) (i : Nat) : List Byte :=
  match e.source with
  | .flash => d.flashBytes (e.base + 20 * i) 20
  | .sram _ => d.sram.bytes (e.base + 20 * i) 20

/-- The CODE of the next entry, none at the end of the record. -/
def Dev.nextCode (d : Dev) (e : BootExec) : Option Nat := if e.index < e.count then some (field (d.entryBytes e e.index) 0 2) else none

/-- Has execution ended (R860)? -/
def BootExec.ended (e : BootExec) : Bool := e.stopped || decide (e.count ≤ e.index)

/-- A DATA entry copies from flash to SRAM (R855). -/
def dataCommand : Command :=
  { code := 0, names := fun x d => x.memory d (x.arg32 4) (x.arg32 2), zero := fun x _ => x.arg32 2 == 0,
    act := fun x d => ((d.readFlash (x.arg32 0) (x.arg32 2)).memWrite (x.arg32 4) (d.flashBytes (x.arg32 0) (x.arg32 2)), .ok []) }

/-- The operands of an entry: a command of its BASKET, with tag 0 (R854; log entry 30). -/
def entryCtx (chip : Chip) (blown : Bool) (bs : List Byte) : Ctx :=
  { chip := chip, blown := blown, b := Fin.ofNat 4 (field bs 2 1), args := vec 8 (fun i => BitVec.ofNat 16 (field bs (4 + 2 * i) 2)), tag := 0,
    boot := true }

/-- Execute one entry; one whose BASKET does not exist is refused with E_ARG_RANGE (log entry 30). -/
def Dev.runEntry (d : Dev) (chip : Chip) (blown : Bool) (bs : List Byte) : Dev × Reply :=
  if 3 < field bs 2 1 then (d, .refuse .argRange)
  else
    let code := field bs 0 2
    (if code = 0 then dataCommand else commandOf (BitVec.ofNat 16 code)).run (entryCtx chip blown bs) d

/-- The count of entries after one that was answered so; a refused one stops execution unless its CONTINUE flag is set (R860). -/
def BootExec.after (e : BootExec) (bs : List Byte) (r : Reply) : BootExec :=
  let e : BootExec := { e with index := e.index + 1, executed := e.executed + 1 }
  match r with
  | .refuse x =>
    { e with refused := e.refused + 1, stopped := !bit (field bs 3 1) 0,
             firstRefused := e.firstRefused.or (some (e.index - 1, x.code)) }
  | _ => e

/-- May the next entry execute now? A boot record in flash follows its header; an MD_LOAD waits for frame 1, which is due once it is reached
(Table 17-11; log entry 30). -/
def Dev.entryDue (d : Dev) (e : BootExec) : Bool :=
  d.active3 && !e.ended && (match e.source with | .flash => decide (d.clk.origin + ns 48800 ≤ d.now) | .sram _ => true) &&
    (d.nextCode e != some 0x0601 || d.pwr.frame1)

/-- BOOT_ENTRY (R854). -/
def execBootEntry (t : Time) (s : State) : Host.Outcome State Fault Refusal :=
  onDev s t (fun d =>
    match d.pwr.exec with
    | none => d
    | some e =>
      if !d.entryDue e then d
      else
        let bs := d.entryBytes e e.index
        let r := d.runEntry s.chip s.fuse.blown bs
        r.1.onPwr (fun w => { w with exec := some (e.after bs r.2) }))

/-- The results of R860. -/
def BootExec.outcome (e : BootExec) : CmdOutcome :=
  let first := e.firstRefused.getD (0xFFFF, Err.ok.code)
  { error := if e.badHeader then Err.argRange.code else first.2,
    results := results4 [BitVec.ofNat 16 first.1, BitVec.ofNat 16 e.executed, BitVec.ofNat 16 e.refused] }

/-- The boot outcome is placed: READY, and basket 0's command block when a record or its header decided it (R860 to R862, R875). -/
def Dev.placeOutcome (d : Dev) (o : Option CmdOutcome) : Dev :=
  let d := d.onPwr (fun w => { w with exec := none, ready := true, outcomePlaced := true })
  let d := d.onTiles (fun t => t.map Tile.endBoot)
  match o with | none => d | some o => d.complete 0 o

/-- BOOT_RECORD_END (R860, R863). -/
def execBootRecordEnd (t : Time) (s : State) : Host.Outcome State Fault Refusal :=
  onDev s t (fun d =>
    match d.pwr.exec with
    | none => d
    | some e =>
      if !d.active3 || e.badHeader || !e.ended then d
      else match e.source with
        | .flash => if d.clk.origin + ns 48800 ≤ d.now then d.placeOutcome (some e.outcome) else d
        | .sram b => (d.onPwr (fun w => { w with exec := none })).finish b 0x0104 e.outcome)

/-! ## Frame 1 (R857 to R862) -/

/-- Has execution reached an MD_LOAD entry or its end, or is there none (R857)? -/
def Dev.bootReached (d : Dev) : Bool :=
  match d.pwr.exec with
  | none => true
  | some e => e.badHeader || e.ended || d.nextCode e == some 0x0601

/-- Does frame 1 begin now? -/
def Dev.frame1Due (d : Dev) : Bool :=
  d.pwr.state == .boot && !d.pwr.frame1 && d.pwr.restored && d.pwr.selected && d.bootReached

/-- The commits accepted during BOOT take effect at the boundary that begins frame 1 (R859): a change of frame source makes frame 1 the bridge. -/
def Dev.bootCommits (d : Dev) : Dev :=
  let d := match d.wr.pending with | none => d | some c => d.applyWringer c
  let d := d.chainsAtFrame1 (List.range 24)
  match d.link.pending with | none => d | some p => d.applyLink p.copy

/-- The frame clock starts frame 1 (R26, R948). -/
def Dev.startFrames (d : Dev) : Dev :=
  let d := d.toEdge
  d.onWr (fun w => { w with num := 1, start := d.now, startStamp := d.stamp, running := true, truncate := false, bridge := false, due := none,
                             gridOrigin := d.now, gridCount := 0, fallback := false, relock := false })

/-- Frame 1 begins; under HOST, and after a bad header, the boot outcome is placed at once (R861, R862). -/
def Dev.frame1 (d : Dev) : Dev :=
  let d := d.startFrames.bootCommits
  let d := (d.raise everyBasket .frame).enterPower .active .boot
  let d := d.onPwr (fun w => { w with frame1 := true })
  match d.pwr.exec with
  | none => if d.pwr.outcomePlaced then d.onPwr (fun w => { w with ready := true }) else d.placeOutcome none
  | some e => if e.badHeader then d.placeOutcome (some e.outcome) else d

/-- FRAME_1_BEGINS (R857). -/
def execFrame1Begins (t : Time) (s : State) : Host.Outcome State Fault Refusal := onDev s t (fun d => if d.frame1Due then d.frame1 else d)

end Sys2Proof.Machine
end

