-- ==== Sys2Proof/Machine/Dispatch.lean ====
section
/-!
DEFINITION. One arm per row of the opcode table, each one call of its meaning.
-/

namespace Sys2Proof.Machine

def exec (i : Instr) (s : State) : Host.Outcome State Fault Refusal :=
  match i with
  | .sysSync t b => Sys2Proof.Machine.execSysSync t b s
  | .sysSetPower t b => Sys2Proof.Machine.execSysSetPower t b s
  | .sysSetWake t b => Sys2Proof.Machine.execSysSetWake t b s
  | .sysBootRecord t b => Sys2Proof.Machine.execSysBootRecord t b s
  | .feSetChannel t b => Sys2Proof.Machine.execFeSetChannel t b s
  | .feCalOffset t b => Sys2Proof.Machine.execFeCalOffset t b s
  | .feCalGain t b => Sys2Proof.Machine.execFeCalGain t b s
  | .feSetCoef t b => Sys2Proof.Machine.execFeSetCoef t b s
  | .feRestartSensor t b => Sys2Proof.Machine.execFeRestartSensor t b s
  | .feStatus t b => Sys2Proof.Machine.execFeStatus t b s
  | .tedsSetScan t b => Sys2Proof.Machine.execTedsSetScan t b s
  | .tedsBind t b => Sys2Proof.Machine.execTedsBind t b s
  | .tedsLog t b => Sys2Proof.Machine.execTedsLog t b s
  | .tachSet t b => Sys2Proof.Machine.execTachSet t b s
  | .tachSetLoop t b => Sys2Proof.Machine.execTachSetLoop t b s
  | .tachSetIndex t b => Sys2Proof.Machine.execTachSetIndex t b s
  | .tachStatus t b => Sys2Proof.Machine.execTachStatus t b s
  | .wrSetPlan t b => Sys2Proof.Machine.execWrSetPlan t b s
  | .wrSetChannel t b => Sys2Proof.Machine.execWrSetChannel t b s
  | .wrSetFrame t b => Sys2Proof.Machine.execWrSetFrame t b s
  | .wrCommit t b => Sys2Proof.Machine.execWrCommit t b s
  | .wrStatus t b => Sys2Proof.Machine.execWrStatus t b s
  | .thmSet t b => Sys2Proof.Machine.execThmSet t b s
  | .thmSetTrip t b => Sys2Proof.Machine.execThmSetTrip t b s
  | .thmStatus t b => Sys2Proof.Machine.execThmStatus t b s
  | .ndlSet t b => Sys2Proof.Machine.execNdlSet t b s
  | .ndlSynthSet t b => Sys2Proof.Machine.execNdlSynthSet t b s
  | .ndlFire t b => Sys2Proof.Machine.execNdlFire t b s
  | .ndlArm t b => Sys2Proof.Machine.execNdlArm t b s
  | .ndlTrip t b => Sys2Proof.Machine.execNdlTrip t b s
  | .ndlFeed t b => Sys2Proof.Machine.execNdlFeed t b s
  | .ndlStatus t b => Sys2Proof.Machine.execNdlStatus t b s
  | .rnSetChannel t b => Sys2Proof.Machine.execRnSetChannel t b s
  | .rnSetCoef t b => Sys2Proof.Machine.execRnSetCoef t b s
  | .rnCommit t b => Sys2Proof.Machine.execRnCommit t b s
  | .rnSwap t b => Sys2Proof.Machine.execRnSwap t b s
  | .rnEnable t b => Sys2Proof.Machine.execRnEnable t b s
  | .rnDcFreeze t b => Sys2Proof.Machine.execRnDcFreeze t b s
  | .rnSetDetector t b => Sys2Proof.Machine.execRnSetDetector t b s
  | .rnDetRead t b => Sys2Proof.Machine.execRnDetRead t b s
  | .rnDetReset t b => Sys2Proof.Machine.execRnDetReset t b s
  | .rnRingSet t b => Sys2Proof.Machine.execRnRingSet t b s
  | .rnRingStart t b => Sys2Proof.Machine.execRnRingStart t b s
  | .rnRingStop t b => Sys2Proof.Machine.execRnRingStop t b s
  | .rnTrigger t b => Sys2Proof.Machine.execRnTrigger t b s
  | .rnStatus t b => Sys2Proof.Machine.execRnStatus t b s
  | .rnSetSync t b => Sys2Proof.Machine.execRnSetSync t b s
  | .prForm t b => Sys2Proof.Machine.execPrForm t b s
  | .prPress t b => Sys2Proof.Machine.execPrPress t b s
  | .prInspect t b => Sys2Proof.Machine.execPrInspect t b s
  | .prCalibrate t b => Sys2Proof.Machine.execPrCalibrate t b s
  | .prSetUpkeep t b => Sys2Proof.Machine.execPrSetUpkeep t b s
  | .prStatus t b => Sys2Proof.Machine.execPrStatus t b s
  | .tileStatus t b => Sys2Proof.Machine.execTileStatus t b s
  | .mdLoad t b => Sys2Proof.Machine.execMdLoad t b s
  | .mdCheck t b => Sys2Proof.Machine.execMdCheck t b s
  | .mdUnload t b => Sys2Proof.Machine.execMdUnload t b s
  | .mdStatus t b => Sys2Proof.Machine.execMdStatus t b s
  | .mdSetHorizon t b => Sys2Proof.Machine.execMdSetHorizon t b s
  | .memStatus t b => Sys2Proof.Machine.execMemStatus t b s
  | .memClear t b => Sys2Proof.Machine.execMemClear t b s
  | .spLedger t b => Sys2Proof.Machine.execSpLedger t b s
  | .spSetAgeing t b => Sys2Proof.Machine.execSpSetAgeing t b s
  | .veStatus t b => Sys2Proof.Machine.execVeStatus t b s
  | .lnStatus t b => Sys2Proof.Machine.execLnStatus t b s
  | .lnAck t b => Sys2Proof.Machine.execLnAck t b s
  | .lnPatch t b => Sys2Proof.Machine.execLnPatch t b s
  | .lnRecommission t b => Sys2Proof.Machine.execLnRecommission t b s
  | .lnForget t b => Sys2Proof.Machine.execLnForget t b s
  | .psSet t b => Sys2Proof.Machine.execPsSet t b s
  | .psStatus t b => Sys2Proof.Machine.execPsStatus t b s
  | .psLog t b => Sys2Proof.Machine.execPsLog t b s
  | .psPut t b => Sys2Proof.Machine.execPsPut t b s
  | .psGet t b => Sys2Proof.Machine.execPsGet t b s
  | .psCheckpoint t b => Sys2Proof.Machine.execPsCheckpoint t b s
  | .lkSet t b => Sys2Proof.Machine.execLkSet t b s
  | .lkSetEntry t b => Sys2Proof.Machine.execLkSetEntry t b s
  | .lkCommit t b => Sys2Proof.Machine.execLkCommit t b s
  | .lkStatus t b => Sys2Proof.Machine.execLkStatus t b s
  | .lkPartners t b => Sys2Proof.Machine.execLkPartners t b s
  | .lkSend t b => Sys2Proof.Machine.execLkSend t b s
  | .lkClaim t b => Sys2Proof.Machine.execLkClaim t b s
  | .lkRelease t b => Sys2Proof.Machine.execLkRelease t b s
  | .lkMailSend t b => Sys2Proof.Machine.execLkMailSend t b s
  | .lkMailRead t b => Sys2Proof.Machine.execLkMailRead t b s
  | .lkRearm t b => Sys2Proof.Machine.execLkRearm t b s
  | .lkLog t b => Sys2Proof.Machine.execLkLog t b s
  | .calSet t b => Sys2Proof.Machine.execCalSet t b s
  | .calGet t b => Sys2Proof.Machine.execCalGet t b s
  | .calAlarm t b => Sys2Proof.Machine.execCalAlarm t b s
  | .bkGrant t b => Sys2Proof.Machine.execBkGrant t b s
  | .bkRevoke t b => Sys2Proof.Machine.execBkRevoke t b s
  | .bkStatus t b => Sys2Proof.Machine.execBkStatus t b s
  | .fuseArm t b => Sys2Proof.Machine.execFuseArm t b s
  | .fuseConfirm t b => Sys2Proof.Machine.execFuseConfirm t b s
  | .unknownCommand t b code => Sys2Proof.Machine.execUnknownCommand t b code s
  | .commandIgnored t b code => Sys2Proof.Machine.execCommandIgnored t b code s
  | .commandComplete t b => Sys2Proof.Machine.execCommandComplete t b s
  | .registerWrite t b off val => Sys2Proof.Machine.execRegisterWrite t b off val s
  | .irqPendingClear t b val => Sys2Proof.Machine.execIrqPendingClear t b val s
  | .irqEnableWrite t b val => Sys2Proof.Machine.execIrqEnableWrite t b val s
  | .tripStatusClear t b val => Sys2Proof.Machine.execTripStatusClear t b val s
  | .thimbleLatchClear t b word val => Sys2Proof.Machine.execThimbleLatchClear t b word val s
  | .overloadStatusClear t b word val => Sys2Proof.Machine.execOverloadStatusClear t b word val s
  | .resetCauseClear t b val => Sys2Proof.Machine.execResetCauseClear t b val s
  | .basketEnableWrite t b val => Sys2Proof.Machine.execBasketEnableWrite t b val s
  | .deviceReset t b val => Sys2Proof.Machine.execDeviceReset t b val s
  | .windowDataRead t b win => Sys2Proof.Machine.execWindowDataRead t b win s
  | .windowDataWrite t b win val => Sys2Proof.Machine.execWindowDataWrite t b win val s
  | .postedWriteDrain t b win => Sys2Proof.Machine.execPostedWriteDrain t b win s
  | .windowStart t b win val => Sys2Proof.Machine.execWindowStart t b win val s
  | .windowAbort t b win val => Sys2Proof.Machine.execWindowAbort t b win val s
  | .evtFifoRead t b => Sys2Proof.Machine.execEvtFifoRead t b s
  | .violationLogRead t b => Sys2Proof.Machine.execViolationLogRead t b s
  | .multiwordSnapshotRead t b off => Sys2Proof.Machine.execMultiwordSnapshotRead t b off s
  | .busConflict t selects bothStrobes => Sys2Proof.Machine.execBusConflict t selects bothStrobes s
  | .resetPin t => Sys2Proof.Machine.execResetPin t s
  | .supplyMonitorReset t supply => Sys2Proof.Machine.execSupplyMonitorReset t supply s
  | .tapReset t instruction => Sys2Proof.Machine.execTapReset t instruction s
  | .keepPowerUp t => Sys2Proof.Machine.execKeepPowerUp t s
  | .resetEnd t bootsel vddioHigh => Sys2Proof.Machine.execResetEnd t bootsel vddioHigh s
  | .tileRestore t => Sys2Proof.Machine.execTileRestore t s
  | .storeSelection t => Sys2Proof.Machine.execStoreSelection t s
  | .bootEntry t => Sys2Proof.Machine.execBootEntry t s
  | .bootRecordEnd t => Sys2Proof.Machine.execBootRecordEnd t s
  | .frame1Begins t => Sys2Proof.Machine.execFrame1Begins t s
  | .pfailAssert t => Sys2Proof.Machine.execPfailAssert t s
  | .holdExit t => Sys2Proof.Machine.execHoldExit t s
  | .vddpOutOfRange drop => Sys2Proof.Machine.execVddpOutOfRange drop s
  | .vddpInRange t => Sys2Proof.Machine.execVddpInRange t s
  | .thermalFault t => Sys2Proof.Machine.execThermalFault t s
  | .clockFault t => Sys2Proof.Machine.execClockFault t s
  | .thermalClear t => Sys2Proof.Machine.execThermalClear t s
  | .watchEntry t => Sys2Proof.Machine.execWatchEntry t s
  | .wake t source => Sys2Proof.Machine.execWake t source s
  | .calendarSecond t => Sys2Proof.Machine.execCalendarSecond t s
  | .keepOscillatorStop t => Sys2Proof.Machine.execKeepOscillatorStop t s
  | .fuseWindowEnd t => Sys2Proof.Machine.execFuseWindowEnd t s
  | .fuseBlowDone t blown0 blown1 => Sys2Proof.Machine.execFuseBlowDone t blown0 blown1 s
  | .syncPinEdge t => Sys2Proof.Machine.execSyncPinEdge t s
  | .frameBoundary t means => Sys2Proof.Machine.execFrameBoundary t means s
  | .wringerCommitApply t => Sys2Proof.Machine.execWringerCommitApply t s
  | .handoff t => Sys2Proof.Machine.execHandoff t s
  | .countModeReadout t => Sys2Proof.Machine.execCountModeReadout t s
  | .featureFrameWritten t => Sys2Proof.Machine.execFeatureFrameWritten t s
  | .runStart t h => Sys2Proof.Machine.execRunStart t h s
  | .gather t h => Sys2Proof.Machine.execGather t h s
  | .layerStart t h => Sys2Proof.Machine.execLayerStart t h s
  | .tagDispatch t u => Sys2Proof.Machine.execTagDispatch t u s
  | .tagAgeing t tag => Sys2Proof.Machine.execTagAgeing t tag s
  | .tilePhase t tile => Sys2Proof.Machine.execTilePhase t tile s
  | .layerOutputReady t h => Sys2Proof.Machine.execLayerOutputReady t h s
  | .descriptorComplete t engine => Sys2Proof.Machine.execDescriptorComplete t engine s
  | .cacheRequest t engine line own => Sys2Proof.Machine.execCacheRequest t engine line own s
  | .cacheWriteback t line => Sys2Proof.Machine.execCacheWriteback t line s
  | .runEnd t h => Sys2Proof.Machine.execRunEnd t h s
  | .runDeadline t h => Sys2Proof.Machine.execRunDeadline t h s
  | .reloadBlockRead t h => Sys2Proof.Machine.execReloadBlockRead t h s
  | .unloadTakesEffect t h => Sys2Proof.Machine.execUnloadTakesEffect t h s
  | .pressOpStart t tile => Sys2Proof.Machine.execPressOpStart t tile s
  | .upkeepPrecedence t tile => Sys2Proof.Machine.execUpkeepPrecedence t tile s
  | .rowPress t tile iters after => Sys2Proof.Machine.execRowPress t tile iters after s
  | .pressOpClose t tile => Sys2Proof.Machine.execPressOpClose t tile s
  | .inspectionDue t tile => Sys2Proof.Machine.execInspectionDue t tile s
  | .storeWriteStart t => Sys2Proof.Machine.execStoreWriteStart t s
  | .storeWriteDone t verified => Sys2Proof.Machine.execStoreWriteDone t verified s
  | .checkpointDue t => Sys2Proof.Machine.execCheckpointDue t s
  | .sample t pos read => Sys2Proof.Machine.execSample t pos read s
  | .rinseCommitApply t chain => Sys2Proof.Machine.execRinseCommitApply t chain s
  | .overloadStart t pos level => Sys2Proof.Machine.execOverloadStart t pos level s
  | .overloadEnd t input => Sys2Proof.Machine.execOverloadEnd t input s
  | .calWindowEnd t pos => Sys2Proof.Machine.execCalWindowEnd t pos s
  | .settleEnd t pos => Sys2Proof.Machine.execSettleEnd t pos s
  | .tedsScan t line found => Sys2Proof.Machine.execTedsScan t line found s
  | .tachEdge t mark => Sys2Proof.Machine.execTachEdge t mark s
  | .indexCode t tach read => Sys2Proof.Machine.execIndexCode t tach read s
  | .floodStart t tach onIndex crossed => Sys2Proof.Machine.execFloodStart t tach onIndex crossed s
  | .floodEnd t tach fall => Sys2Proof.Machine.execFloodEnd t tach fall s
  | .freewheel t tach => Sys2Proof.Machine.execFreewheel t tach s
  | .freewheelLimit t tach => Sys2Proof.Machine.execFreewheelLimit t tach s
  | .underspeed t tach => Sys2Proof.Machine.execUnderspeed t tach s
  | .thimbleCrossing t comp level => Sys2Proof.Machine.execThimbleCrossing t comp level s
  | .thimbleTick t comp level => Sys2Proof.Machine.execThimbleTick t comp level s
  | .warmUpEnd t comp level => Sys2Proof.Machine.execWarmUpEnd t comp level s
  | .gainHoldEnd t comp level => Sys2Proof.Machine.execGainHoldEnd t comp level s
  | .pwmPeriodStart t out => Sys2Proof.Machine.execPwmPeriodStart t out s
  | .heartbeatToggle t out => Sys2Proof.Machine.execHeartbeatToggle t out s
  | .feedTimeout t out => Sys2Proof.Machine.execFeedTimeout t out s
  | .synthLock t => Sys2Proof.Machine.execSynthLock t s
  | .fireStart t b => Sys2Proof.Machine.execFireStart t b s
  | .fireDeadline t b => Sys2Proof.Machine.execFireDeadline t b s
  | .fireDone t out => Sys2Proof.Machine.execFireDone t out s
  | .cycleStart t => Sys2Proof.Machine.execCycleStart t s
  | .ixwardCommitApply t => Sys2Proof.Machine.execIxwardCommitApply t s
  | .staticTransmit t entry => Sys2Proof.Machine.execStaticTransmit t entry s
  | .dynamicTransmit t minislot => Sys2Proof.Machine.execDynamicTransmit t minislot s
  | .announceDue t => Sys2Proof.Machine.execAnnounceDue t s
  | .packetReceive t port rx => Sys2Proof.Machine.execPacketReceive t port rx s
  | .nitCorrection t => Sys2Proof.Machine.execNitCorrection t s
  | .delayRequest t => Sys2Proof.Machine.execDelayRequest t s
  | .listenTimeout t => Sys2Proof.Machine.execListenTimeout t s
  | .syncLoss t => Sys2Proof.Machine.execSyncLoss t s
  | .rootTakeover t => Sys2Proof.Machine.execRootTakeover t s
  | .partnerSilent t node => Sys2Proof.Machine.execPartnerSilent t node s
  | .partnerGone t node => Sys2Proof.Machine.execPartnerGone t node s
  | .claimTakesEffect t entry => Sys2Proof.Machine.execClaimTakesEffect t entry s
  | .claimRevert t entry => Sys2Proof.Machine.execClaimRevert t entry s
  | .guardDrift t count => Sys2Proof.Machine.execGuardDrift t count s
  | .guardRelease t count => Sys2Proof.Machine.execGuardRelease t count s
  | .guardViolation seen => Sys2Proof.Machine.execGuardViolation seen s
  | .branchCut t branch => Sys2Proof.Machine.execBranchCut t branch s
  | .branchReadmit t branch => Sys2Proof.Machine.execBranchReadmit t branch s
  | .ringBreak t port => Sys2Proof.Machine.execRingBreak t port s
  | .breakStop t port => Sys2Proof.Machine.execBreakStop t port s
  | .ringRepair t port => Sys2Proof.Machine.execRingRepair t port s
  | .pfailDeassert t => Sys2Proof.Machine.execPfailDeassert t s
  | .dieTempUpdate t reading => Sys2Proof.Machine.execDieTempUpdate t reading s
  | .driftAgeAdvance t moved => Sys2Proof.Machine.execDriftAgeAdvance t moved s
  | .synthCalibrationEnd t => Sys2Proof.Machine.execSynthCalibrationEnd t s
  | .ownershipHoldEnd t line => Sys2Proof.Machine.execOwnershipHoldEnd t line s
  | .debugPortAccess t access => Sys2Proof.Machine.execDebugPortAccess t access s
  | .tapExtestEntry t instruction => Sys2Proof.Machine.execTapExtestEntry t instruction s

end Sys2Proof.Machine
end

