-- ==== Sys2Proof/WellFormed.lean ====
section
/-!
DEFINITION. Which commands are well formed: the ranges that the spec gives the operands of a row and that their types do not.
-/

namespace Sys2Proof

/-- Command codes that the command tables list (Tables 16-4 to 16-13). -/
def listedCodes : List Nat :=
  [0x0101, 0x0102, 0x0103, 0x0104] ++ (List.range 13).map (0x0201 + ·) ++ (List.range 5).map (0x0210 + ·) ++ [0x0301, 0x0302, 0x0303] ++
    (List.range 7).map (0x0310 + ·) ++ (List.range 15).map (0x0401 + ·) ++ (List.range 7).map (0x0501 + ·) ++
    (List.range 5).map (0x0601 + ·) ++ (List.range 5).map (0x0610 + ·) ++ (List.range 5).map (0x0701 + ·) ++
    (List.range 6).map (0x0710 + ·) ++ (List.range 12).map (0x0801 + ·) ++ [0x0901, 0x0902, 0x0903, 0x0A01, 0x0A02, 0x0A03, 0x0A10, 0x0A11]

/-- Offsets of the word 0 of a multi-word register that is not RP (Table 15-2). -/
def snapshotOffsets : List Nat := [0x04, 0x0C, 0x0E, 0x48, 0x50, 0x54, 0x82]

/-- Raw codes of the converters of a channel position (Table 02-4). -/
def rawInRange (pos : Fin 24) (raw : Int) : Bool :=
  if pos.val < 16 then decide (-8388608 ≤ raw) && decide (raw ≤ 8388607)
  else if pos.val < 20 then decide (-8192 ≤ raw) && decide (raw ≤ 8191)
  else decide (-32768 ≤ raw) && decide (raw ≤ 32767)

/-- The well-formed commands. -/
def Instr.wf : Instr → Bool
  | .unknownCommand _ _ code => !listedCodes.contains code.toNat
  | .windowStart _ _ _ val => val.getLsbD 0
  | .windowAbort _ _ _ val => val.getLsbD 3
  | .multiwordSnapshotRead _ _ off => snapshotOffsets.contains off.toNat
  | .busConflict _ selects both => both || [3, 5, 6, 7, 9, 10, 11, 12, 13, 14, 15].contains selects.toNat
  | .tapReset _ i => i != 3 && i != 4 && i != 5
  | .tapExtestEntry _ i => i == 3 || i == 4 || i == 5
  | .frameBoundary _ means => means.length == 512 && means.all (fun m => decide (m.1 ≤ 2 ^ 33) && decide (m.2 ≤ 2 ^ 34))
  | .rowPress _ _ iters after =>
    decide (iters ≤ 12) && after.all (fun c => decide (c.column < 512) && decide (0 ≤ c.level) && decide (c.level ≤ 3840))
  | .driftAgeAdvance _ moved =>
    moved.all (fun c => decide (c.row < 528) && decide (c.column < 512) && decide (0 ≤ c.level) && decide (c.level ≤ 3840))
  | .sample _ pos r => rawInRange pos r.raw
  | .indexCode _ _ r => !r.transitions.isEmpty && ((r.start :: r.transitions).zip r.transitions).all (fun x => decide (x.1 < x.2))
  | .dynamicTransmit _ m => decide (m < 1024)
  | .packetReceive _ _ rx => decide (rx.bytes.length ≤ 300)
  | _ => true

end Sys2Proof
end

