-- ==== Sys2Proof/Safety.lean ====
section
/-!
DEFINITION. The terms the statements use: a step that answers a next state, the instant of a row, what a row leaves unchanged, and how
a host command completes (chapter 16).
-/

namespace Sys2Proof

open Machine

/-! ## Steps -/

/-- The next state of an outcome, when it has one. -/
def nextOf {σ φ ρ : Type} : Host.Outcome σ φ ρ → Option σ
  | .next s => some s
  | .fault _ => none
  | .refused _ => none

/-- The instant at which a row with operand t comes about: commands arrive in order (log entry 5). -/
def instant (s : State) (t : Time) : Time := max s.dev.clk.now t

/-- The device at the instant of a row. -/
def here (s : State) (t : Time) : Dev := s.dev.tick t

/-! ## Frames -/

/-- The parts of the device, one per field of Dev. -/
inductive Part where
  | clk | pwr | keep | fuse | host | grants | fe | teds | tachs | wr | guard | rinse | tiles | upkeep | horizons | models | spool | sram
  | store | link | flash | qspi | free
  deriving DecidableEq, Repr

/-- Two devices agree in a part. -/
def Part.same (d d' : Dev) : Part → Prop
  | .clk => d'.clk = d.clk | .pwr => d'.pwr = d.pwr | .keep => d'.keep = d.keep | .fuse => d'.fuse = d.fuse
  | .host => d'.host = d.host | .grants => d'.grants = d.grants | .fe => d'.fe = d.fe | .teds => d'.teds = d.teds
  | .tachs => d'.tachs = d.tachs | .wr => d'.wr = d.wr | .guard => d'.guard = d.guard | .rinse => d'.rinse = d.rinse
  | .tiles => d'.tiles = d.tiles | .upkeep => d'.upkeep = d.upkeep | .horizons => d'.horizons = d.horizons
  | .models => d'.models = d.models | .spool => d'.spool = d.spool | .sram => d'.sram = d.sram | .store => d'.store = d.store
  | .link => d'.link = d.link | .flash => d'.flash = d.flash | .qspi => d'.qspi = d.qspi
  | .free => d'.free = d.free

/-- The read command that the QSPI master sends for n bytes from a under the read settings in force (R864, R868, R952). -/
def readCommand (s : State) (a n : Nat) : QspiRead :=
  let p := s.dev.pwr.qspiOpcode
  let wide := decide (0x1000000 < a + n)
  let op : BitVec 8 := if !wide then p else if p = 0x03 then 0x13 else if p = 0x0B then 0x0C else if p = 0x6B then 0x6C else if p = 0xEB then 0xEC else p
  let io := op == 0xEB || op == 0xEC
  { opcode := op, address := a, bytes := n, mode := if io then some 0xFF else none, clock := s.dev.pwr.qspiClock,
    dummy := if s.dev.pwr.qspiDummy ≠ 0xFF then s.dev.pwr.qspiDummy else if io then 4 else if op == 0x03 || op == 0x13 then 0 else 8 }

/-- n steps lead from s to s', every one of them with a next state. -/
def RunTo : Nat → State → State → Prop
  | 0, s, s' => s' = s
  | n + 1, s, s' => ∃ u, step s = .next u ∧ RunTo n u s'

/-- Every part but the ones listed is the same. -/
def Keeps (changed : List Part) (d d' : Dev) : Prop := ∀ p, p ∉ changed → p.same d d'

/-- The row i answers a next state in which the elements of the hem fuse are `fuse`; the identity and the waiting commands are unchanged, and
so is every part of the device but the ones listed and the instant of the last row; `effect` holds of the device after. -/
def DoesTo (fuse : Fuse) (i : Instr) (s : State) (t : Time) (changed : List Part) (effect : Dev → Prop) : Prop :=
  ∃ s', exec i s = .next s' ∧ s'.chip = s.chip ∧ s'.fuse = fuse ∧ s'.pending = s.pending ∧
    Keeps changed (here s t) s'.dev ∧ effect s'.dev

/-- The same with the hem fuse unchanged. -/
def Does (i : Instr) (s : State) (t : Time) (changed : List Part) (effect : Dev → Prop) : Prop := DoesTo s.fuse i s t changed effect

/-- Every part. -/
def everyPart : List Part :=
  [.clk, .pwr, .keep, .fuse, .host, .grants, .fe, .teds, .tachs, .wr, .guard, .rinse, .tiles, .upkeep, .horizons, .models, .spool, .sram,
   .store, .link, .flash, .qspi, .free]

/-- The device is in RESET with a cause added (R843 to R847): RESET_CAUSE has the cause's bit besides those it had and the rest of KEEP, the
record banks, the flash, and each tile's cells and configuration area stay; every other block is as reset leaves it, no granule of the SRAM
is written, and the earliest end of reset is `release` or the one before. -/
def InReset (s : State) (c : ResetCause) (release : Time) (d : Dev) : Prop :=
  d.pwr.state = .reset ∧ d.pwr.ready = false ∧ d.keep = { s.dev.keep with resetCause := s.dev.keep.resetCause ||| c.mask } ∧
  d.pwr.resetUntil = max s.dev.pwr.resetUntil release ∧ d.store.banks = s.dev.store.banks ∧ d.flash = s.dev.flash ∧
  (∀ i : Fin 48, d.tiles[i].state = s.dev.tiles[i].state ∧ d.tiles[i].remap = s.dev.tiles[i].remap ∧ d.tiles[i].trims = s.dev.tiles[i].trims ∧
    d.tiles[i].remainders = s.dev.tiles[i].remainders ∧ d.tiles[i].cells = s.dev.tiles[i].cells ∧ d.tiles[i].content = s.dev.tiles[i].content) ∧
  d.sram = { s.dev.sram with written := [] } ∧ d.grants = State.reset.dev.grants ∧ d.models = State.reset.dev.models ∧
  d.teds = State.reset.dev.teds ∧ d.wr = Wringer.reset d.clk.now ∧ d.upkeep = State.reset.dev.upkeep ∧ d.spool = State.reset.dev.spool ∧
  d.host = State.reset.dev.host ∧ d.fuse = State.reset.dev.fuse

/-! ## Invariants -/

/-- No exclusive resource of Table 14-1 is held by two baskets (R725). -/
def Exclusive (d : Dev) : Prop :=
  ∀ (b c : Basket) (k : GrantKind) (n : Nat), b ≠ c → k.exclusive = true → (d.grants[b]).holds k n = true → (d.grants[c]).holds k n = false

/-- The event ledger of a page balances, and its FIFO holds at most 256 records (R793, R799). -/
abbrev Machine.Page.balanced (p : Page) : Prop := p.posted = p.read + BitVec.ofNat 32 p.fifo.length + p.lost ∧ p.fifo.length ≤ 256

/-! ## Host commands -/

/-- ARGn of a basket's page. -/
def arg (s : State) (b : Basket) (n : Fin 8) : Nat := s.dev.host.pages[b].args[n].toNat

/-- ARGn:n+1, least significant word first (R7). -/
def arg32 (s : State) (b : Basket) (n : Fin 7) : Nat :=
  s.dev.host.pages[b].args[n.val].toNat + 65536 * s.dev.host.pages[b].args[n.val + 1].toNat

/-- Bit i of ARGn. -/
def argBit (s : State) (b : Basket) (n : Fin 8) (i : Nat) : Bool := bit (arg s b n) i

/-- Basket b holds unit n of a kind (R722). -/
abbrev Held (s : State) (b : Basket) (k : GrantKind) (n : Nat) : Prop := (s.dev.grants[b]).holds k n = true

/-- The host side with the page of basket b replaced. -/
def withPage (h : HostSide) (b : Basket) (p : Page) : HostSide := { h with pages := h.pages.set b p }

/-- Every byte outside [a, a + n) reads as before. -/
def UnchangedOutside (m m' : Sram) (a n : Nat) : Prop := ∀ x, x < a ∨ a + n ≤ x → m'.get x = m.get x

/-- Every byte outside both [a, a + n) and [b, b + k) reads as before. -/
def UnchangedOutsideBoth (m m' : Sram) (a n b k : Nat) : Prop := ∀ x, x < a ∨ a + n ≤ x → x < b ∨ b + k ≤ x → m'.get x = m.get x

/-- The SRAM once posted window writes have reached it, in order (R782). -/
def landed (m : Sram) (l : List (Nat × Word)) : Sram := l.foldl (fun m x => m.setBytes x.1 (leBytes 2 x.2.toNat)) m

/-- The bytes [a, a + n) lie in the SRAM that basket b holds (R812). -/
abbrev HeldRange (s : State) (b : Basket) (a n : Nat) : Prop := (s.dev.grants[b]).range a n = true

/-- The page of basket b answers: not in OFF or RESET (R758), and the basket is enabled (R720). -/
abbrev Reaches (s : State) (b : Basket) : Prop :=
  s.dev.pwr.state ≠ .off ∧ s.dev.pwr.state ≠ .reset ∧ s.dev.host.enable[b] = true

/-- A write of CMD_CODE by basket b starts a command: READY is 1 and no command of the page is BUSY (R774, R775). -/
abbrev Starts (s : State) (b : Basket) : Prop :=
  Reaches s b ∧ s.dev.pwr.ready = true ∧ s.dev.host.pages[b].cmdState ≠ .busy

/-- The same outside WATCH, which refuses most commands (R874). -/
abbrev StartsAwake (s : State) (b : Basket) : Prop := Starts s b ∧ s.dev.pwr.state ≠ .watch

/-- The page once its command has completed with an outcome (R777): STATE is DONE, CMD_ERROR and the results are the outcome's, CMD_COUNT
counts up, and CMD_DONE, bit 2 of IRQ_PENDING, is set; the rest of the page is as it was. -/
def completedPage (p : Page) (o : CmdOutcome) (at_ : Time) : Page :=
  { p with cmdState := .done, cmdError := o.error, results := o.results, cmdCount := p.cmdCount + 1, running := none,
           irqPending := p.irqPending.set 2 true, irqSetAt := p.irqSetAt.set 2 at_ }

/-- The page once a command that it has just accepted has completed: its IGNORED has cleared too (R774). -/
def donePage (p : Page) (error : Word) (r0 r1 r2 r3 : Word) (at_ : Time) : Page :=
  completedPage { p with ignored := 0 } { error := error, results := ⟨#[r0, r1, r2, r3], rfl⟩ } at_

/-- The host side with that page for basket b, and everything else of it as it was. -/
def doneHost (h : HostSide) (b : Basket) (error : Word) (r0 r1 r2 r3 : Word) (at_ : Time) : HostSide :=
  { h with pages := h.pages.set b (donePage h.pages[b] error r0 r1 r2 r3 at_) }

/-- The host side with the page of basket b BUSY with a command that it has just accepted (R774). -/
def busyHost (h : HostSide) (b : Basket) (code : Word) (at_ : Time) : HostSide :=
  let p := h.pages[b]
  let r : Running := { code := code, args := p.args, tag := p.cmdTag, since := at_, outcome := none }
  { h with pages := h.pages.set b { p with cmdState := .busy, ignored := 0, running := some r } }

/-- The command completes in this step with E_OK and these results over the host side h, and changes the parts listed and nothing else. -/
def CompletesOver (h : HostSide) (i : Instr) (s : State) (t : Time) (b : Basket) (r0 r1 r2 r3 : Word) (changed : List Part)
    (effect : Dev → Prop) : Prop :=
  Does i s t (.host :: changed) (fun d => d.host = doneHost h b 0 r0 r1 r2 r3 (instant s t) ∧ effect d)

/-- The command completes in this step with E_OK and these results, changes the parts listed and nothing else, and posts nothing. -/
def Completes (i : Instr) (s : State) (t : Time) (b : Basket) (r0 r1 r2 r3 : Word) (changed : List Part) (effect : Dev → Prop) : Prop :=
  CompletesOver s.dev.host i s t b r0 r1 r2 r3 changed effect

/-- The long command is accepted and stays BUSY (R774, R813); it changes the parts listed and nothing else, and posts nothing. -/
def Begins (i : Instr) (s : State) (t : Time) (b : Basket) (code : Word) (changed : List Part) (effect : Dev → Prop) : Prop :=
  Does i s t (.host :: changed) (fun d => d.host = busyHost s.dev.host b code (instant s t) ∧ effect d)

/-- The report address ARG6:7 is a multiple of 4, and n bytes there lie in the basket's grant (R817). -/
abbrev Room (s : State) (b : Basket) (n : Nat) : Prop := arg32 s b 6 % 4 = 0 ∧ HeldRange s b (arg32 s b 6) n

/-- The command stores these items at the report address and nothing elsewhere; RES0 is their length (R817, R818). -/
def Reports (i : Instr) (s : State) (t : Time) (b : Basket) (items : List Byte) : Prop :=
  Completes i s t b (BitVec.ofNat 16 items.length) 0 0 0 [.spool, .sram, .free] (fun d =>
    d.sram.bytes (arg32 s b 6) items.length = items ∧ UnchangedOutside s.dev.sram d.sram (arg32 s b 6) items.length)

/-- The command is refused with a code (R778): no result, no other effect. -/
def Refuses (i : Instr) (s : State) (t : Time) (b : Basket) (e : Err) : Prop :=
  Does i s t [.host] (fun d => d.host = doneHost s.dev.host b e.code 0 0 0 0 (instant s t))

/-- The command is refused with E_NO_SUCH, which is also a violation of kind COMMAND (R730, R778). -/
def NoSuch (i : Instr) (s : State) (t : Time) (b : Basket) (code : Word) : Prop :=
  Does i s t [.host] (fun d => d.host = doneHost ((here s t).violate b 5 code.toNat).host b Err.noSuch.code 0 0 0 0 (instant s t))

/-! ## The command rows -/

/-- The rows that are commands marked sup, with their codes (Tables 16-4 to 16-13). -/
def supCommands (t : Time) (b : Basket) : List (Instr × Word) :=
  [(.sysSync t b, 0x0101), (.sysSetPower t b, 0x0102), (.sysSetWake t b, 0x0103), (.sysBootRecord t b, 0x0104),
   (.feSetChannel t b, 0x0201), (.feCalOffset t b, 0x0202), (.feCalGain t b, 0x0203), (.feSetCoef t b, 0x0204),
   (.feRestartSensor t b, 0x0205), (.tedsSetScan t b, 0x0207), (.tedsBind t b, 0x0208), (.tedsLog t b, 0x0209),
   (.tachSet t b, 0x020A), (.tachSetLoop t b, 0x020B), (.tachSetIndex t b, 0x020C), (.wrSetPlan t b, 0x0210),
   (.wrSetChannel t b, 0x0211), (.wrSetFrame t b, 0x0212), (.wrCommit t b, 0x0213), (.thmSetTrip t b, 0x0302),
   (.rnSetChannel t b, 0x0401), (.rnSetCoef t b, 0x0402), (.rnCommit t b, 0x0403), (.rnSwap t b, 0x0404), (.rnEnable t b, 0x0405),
   (.rnDcFreeze t b, 0x0406), (.rnSetDetector t b, 0x0407), (.rnDetReset t b, 0x0409), (.rnSetSync t b, 0x040F),
   (.prForm t b, 0x0501), (.prSetUpkeep t b, 0x0505), (.mdSetHorizon t b, 0x0605), (.spSetAgeing t b, 0x0613), (.psSet t b, 0x0710),
   (.lkSet t b, 0x0801), (.lkSetEntry t b, 0x0802), (.lkCommit t b, 0x0803), (.lkClaim t b, 0x0807), (.lkRelease t b, 0x0808),
   (.lkRearm t b, 0x080B), (.lkLog t b, 0x080C), (.calSet t b, 0x0901), (.calAlarm t b, 0x0903), (.bkGrant t b, 0x0A01),
   (.bkRevoke t b, 0x0A02), (.bkStatus t b, 0x0A03), (.fuseArm t b, 0x0A10), (.fuseConfirm t b, 0x0A11)]

/-- The rows that are commands not marked sup, with their codes. -/
def openCommands (t : Time) (b : Basket) : List (Instr × Word) :=
  [(.feStatus t b, 0x0206), (.tachStatus t b, 0x020D), (.wrStatus t b, 0x0214), (.thmSet t b, 0x0301), (.thmStatus t b, 0x0303),
   (.ndlSet t b, 0x0310), (.ndlSynthSet t b, 0x0311), (.ndlFire t b, 0x0312), (.ndlArm t b, 0x0313), (.ndlTrip t b, 0x0314),
   (.ndlFeed t b, 0x0315), (.ndlStatus t b, 0x0316), (.rnDetRead t b, 0x0408), (.rnRingSet t b, 0x040A), (.rnRingStart t b, 0x040B),
   (.rnRingStop t b, 0x040C), (.rnTrigger t b, 0x040D), (.rnStatus t b, 0x040E), (.prPress t b, 0x0502), (.prInspect t b, 0x0503),
   (.prCalibrate t b, 0x0504), (.prStatus t b, 0x0506), (.tileStatus t b, 0x0507), (.mdLoad t b, 0x0601), (.mdCheck t b, 0x0602),
   (.mdUnload t b, 0x0603), (.mdStatus t b, 0x0604), (.memStatus t b, 0x0610), (.memClear t b, 0x0611), (.spLedger t b, 0x0612),
   (.veStatus t b, 0x0614), (.lnStatus t b, 0x0701), (.lnAck t b, 0x0702), (.lnPatch t b, 0x0703), (.lnRecommission t b, 0x0704),
   (.lnForget t b, 0x0705), (.psStatus t b, 0x0711), (.psLog t b, 0x0712), (.psPut t b, 0x0713), (.psGet t b, 0x0714),
   (.psCheckpoint t b, 0x0715), (.lkStatus t b, 0x0804), (.lkPartners t b, 0x0805), (.lkSend t b, 0x0806), (.lkMailSend t b, 0x0809),
   (.lkMailRead t b, 0x080A), (.calGet t b, 0x0902)]

/-- Every row that is a command of a table. -/
def hostCommands (t : Time) (b : Basket) : List (Instr × Word) := supCommands t b ++ openCommands t b

/-! ## What each row may change -/

/-- The parts that a row may change, beside the instant of the last row. A row not listed under a group has a line of its own. -/
def touches : Instr → List Part
  | .overloadEnd _ _ | .settleEnd _ _ => [.fe]
  | .pfailDeassert _ => [.pwr]
  | .feStatus _ _ | .thmStatus _ _ | .ndlStatus _ _ | .rnDetRead _ _ | .memStatus _ _ | .calGet _ _ | .unknownCommand _ _ _
  | .commandIgnored _ _ _ | .commandComplete _ _ | .irqPendingClear _ _ _ | .irqEnableWrite _ _ _ | .overloadStatusClear _ _ _ _
  | .basketEnableWrite _ _ _ | .windowStart _ _ _ _ | .windowAbort _ _ _ _ | .evtFifoRead _ _ | .violationLogRead _ _
  | .multiwordSnapshotRead _ _ _ | .busConflict _ _ _ => [.host]
  | .resetCauseClear _ _ _ | .keepPowerUp _ | .keepOscillatorStop _ => [.keep]
  | .staticTransmit _ _ | .dynamicTransmit _ _ | .announceDue _ | .delayRequest _ | .branchReadmit _ _ | .breakStop _ _ => [.link]
  | .tagAgeing _ _ | .cacheWriteback _ _ | .ownershipHoldEnd _ _ => [.spool]
  | .upkeepPrecedence _ _ => [.tiles]
  | .checkpointDue _ => [.store]
  | .floodEnd _ _ _ => [.tachs]
  | .pwmPeriodStart _ _ | .heartbeatToggle _ _ | .synthCalibrationEnd _ => [.guard]
  | .feCalOffset _ _ | .feCalGain _ _ | .feSetCoef _ _ | .feRestartSensor _ _ | .overloadStart _ _ _ => [.host, .fe]
  | .tachSet _ _ | .tachSetLoop _ _ | .tachSetIndex _ _ | .wrSetPlan _ _ | .wrSetChannel _ _ | .wrSetFrame _ _ | .wrCommit _ _ => [.host, .wr]
  | .sysSetWake _ _ | .sysBootRecord _ _ | .vddpInRange _ => [.pwr, .host]
  | .nitCorrection _ => [.clk, .link]
  | .tedsSetScan _ _ | .tedsBind _ _ => [.host, .teds]
  | .memClear _ _ => [.host, .sram]
  | .lkSet _ _ | .lkSetEntry _ _ | .lkSend _ _ | .lkClaim _ _ | .lkRelease _ _ | .lkMailSend _ _ | .lkRearm _ _ | .syncLoss _
  | .rootTakeover _ | .partnerSilent _ _ | .partnerGone _ _ | .claimTakesEffect _ _ | .claimRevert _ _ | .guardDrift _ _
  | .guardRelease _ _ | .guardViolation _ | .branchCut _ _ | .ringBreak _ _ | .ringRepair _ _ => [.host, .link]
  | .calAlarm _ _ => [.keep, .host]
  | .fuseArm _ _ | .fuseConfirm _ _ | .fuseWindowEnd _ => [.fuse, .host]
  | .dieTempUpdate _ _ => [.pwr, .store]
  | .driftAgeAdvance _ _ => [.pwr, .tiles]
  | .ndlSet _ _ | .ndlSynthSet _ _ | .ndlFire _ _ | .ndlArm _ _ | .tripStatusClear _ _ _ | .synthLock _ | .fireStart _ _
  | .fireDeadline _ _ => [.host, .guard]
  | .rnSetChannel _ _ | .rnSetCoef _ _ | .rnCommit _ _ | .rnSwap _ _ | .rnEnable _ _ | .rnDcFreeze _ _ | .rnSetDetector _ _
  | .rnDetReset _ _ | .rnRingSet _ _ | .rnRingStart _ _ | .rnRingStop _ _ | .rnTrigger _ _ | .rnSetSync _ _
  | .rinseCommitApply _ _ => [.host, .rinse]
  | .spSetAgeing _ _ => [.host, .spool]
  | .lnForget _ _ | .psSet _ _ | .psPut _ _ | .psCheckpoint _ _ | .storeWriteStart _ => [.host, .store]
  | .cacheRequest _ _ _ _ => [.spool, .free]
  | .freewheel _ _ => [.host, .tachs]
  | .prSetUpkeep _ _ => [.host, .upkeep]
  | .mdUnload _ _ | .lnPatch _ _ => [.host, .models]
  | .bkGrant _ _ | .bkRevoke _ _ => [.host, .grants]
  | .inspectionDue _ _ => [.tiles, .store]
  | .feSetChannel _ _ => [.host, .fe, .wr]
  | .mdSetHorizon _ _ => [.host, .horizons]
  | .calWindowEnd _ _ => [.host, .fe, .free]
  | .tedsScan _ _ _ => [.host, .fe, .teds]
  | .sysSetPower _ _ | .wake _ _ => [.pwr, .host, .link]
  | .lkCommit _ _ | .ixwardCommitApply _ => [.clk, .host, .link]
  | .calSet _ _ | .calendarSecond _ => [.pwr, .keep, .host]
  | .fuseBlowDone _ _ _ => [.pwr, .fuse, .host]
  | .countModeReadout _ | .featureFrameWritten _ => [.wr, .spool, .sram]
  | .indexCode _ _ _ | .freewheelLimit _ _ | .underspeed _ _ => [.host, .tachs, .wr]
  | .mdCheck _ _ => [.host, .qspi, .free]
  | .bootRecordEnd _ => [.pwr, .host, .tiles]
  | .thmSetTrip _ _ | .ndlTrip _ _ | .ndlFeed _ _ | .feedTimeout _ _ | .fireDone _ _ => [.host, .guard, .free]
  | .psGet _ _ | .windowDataRead _ _ _ | .windowDataWrite _ _ _ _ | .postedWriteDrain _ _ _ => [.host, .spool, .sram]
  | .prForm _ _ | .prPress _ _ | .prInspect _ _ | .prCalibrate _ _ => [.host, .tiles, .store]
  | .lnAck _ _ => [.host, .models, .store]
  | .gather _ _ | .layerOutputReady _ _ => [.models, .spool, .sram]
  | .unloadTakesEffect _ _ => [.tiles, .models, .store]
  | .listenTimeout _ => [.clk, .host, .wr, .link]
  | .sysSync _ _ => [.clk, .host, .wr, .rinse]
  | .tachEdge _ _ => [.host, .tachs, .wr, .free]
  | .tileRestore _ => [.pwr, .host, .tiles, .free]
  | .tedsLog _ _ | .tachStatus _ _ | .wrStatus _ _ | .rnStatus _ _ | .prStatus _ _ | .tileStatus _ _ | .mdStatus _ _
  | .spLedger _ _ | .veStatus _ _ | .lnStatus _ _ | .psStatus _ _ | .psLog _ _ | .lkStatus _ _ | .lkPartners _ _ | .lkLog _ _
  | .bkStatus _ _ => [.host, .spool, .sram, .free]
  | .lkMailRead _ _ => [.host, .spool, .sram, .link]
  | .storeSelection _ => [.pwr, .host, .tiles, .store]
  | .vddpOutOfRange _ => [.pwr, .host, .tiles, .spool]
  | .lnRecommission _ _ => [.host, .models, .spool, .sram]
  | .tilePhase _ _ => [.tiles, .models, .spool, .free]
  | .syncPinEdge _ => [.clk, .host, .wr, .rinse, .free]
  | .wringerCommitApply _ => [.host, .fe, .tachs, .wr, .guard]
  | .cycleStart _ => [.clk, .host, .wr, .rinse, .link]
  | .sample _ _ _ => [.host, .fe, .rinse, .spool, .sram]
  | .floodStart _ _ _ _ => [.host, .tachs, .wr, .spool, .sram]
  | .thmSet _ _ | .thimbleLatchClear _ _ _ _ | .thimbleCrossing _ _ _ | .thimbleTick _ _ _ | .warmUpEnd _ _ _ | .gainHoldEnd _ _ _ => [.pwr, .host, .guard, .rinse, .free]
  | .watchEntry _ => [.pwr, .host, .rinse, .spool, .link]
  | .descriptorComplete _ _ => [.host, .models, .spool, .sram, .free]
  | .storeWriteDone _ _ => [.keep, .host, .tiles, .models, .store]
  | .tagDispatch _ _ | .pressOpStart _ _ | .rowPress _ _ _ _ => [.host, .tiles, .models, .spool, .store]
  | .packetReceive _ _ _ => [.host, .wr, .spool, .sram, .link, .free]
  | .handoff _ => [.wr, .tiles, .models, .spool, .sram, .free]
  | .pressOpClose _ _ => [.host, .tiles, .models, .spool, .store, .free]
  | .mdLoad _ _ => [.host, .tiles, .models, .spool, .sram, .store, .qspi]
  | .runStart _ _ | .layerStart _ _ | .runEnd _ _ | .runDeadline _ _ => [.pwr, .host, .tiles, .models, .spool, .sram, .store, .free]
  | .reloadBlockRead _ _ => [.pwr, .host, .tiles, .models, .spool, .sram, .store, .qspi, .free]
  | .frame1Begins _ => [.clk, .pwr, .host, .fe, .tachs, .wr, .guard, .rinse, .tiles, .link]
  | .holdExit _ => [.clk, .pwr, .host, .fe, .tachs, .wr, .rinse, .spool, .sram, .store, .link]
  | .thermalFault _ => [.pwr, .host, .guard, .rinse, .tiles, .models, .spool, .sram, .store, .link, .free]
  | .frameBoundary _ _ => [.pwr, .host, .fe, .tachs, .wr, .rinse, .tiles, .models, .spool, .sram, .store, .free]
  | .pfailAssert _ => [.pwr, .keep, .host, .guard, .rinse, .tiles, .models, .spool, .sram, .store, .link, .free]
  | .clockFault _ => [.clk, .pwr, .keep, .host, .fe, .guard, .rinse, .tiles, .models, .spool, .sram, .store, .link, .free]
  | .thermalClear _ => [.clk, .pwr, .keep, .host, .fe, .tachs, .wr, .guard, .rinse, .tiles, .spool, .sram, .store, .link, .free]
  | .registerWrite _ _ _ _ | .deviceReset _ _ _ | .resetPin _ | .supplyMonitorReset _ _ | .tapReset _ _ | .resetEnd _ _ _
  | .bootEntry _ | .debugPortAccess _ _ | .tapExtestEntry _ _ => everyPart

/-- The operand t of a row. -/
def Instr.time : Instr → Time
  | .sysSync t _ | .sysSetPower t _ | .sysSetWake t _ | .sysBootRecord t _ | .feSetChannel t _ | .feCalOffset t _ | .feCalGain t _
  | .feSetCoef t _ | .feRestartSensor t _ | .feStatus t _ | .tedsSetScan t _ | .tedsBind t _ | .tedsLog t _ | .tachSet t _
  | .tachSetLoop t _ | .tachSetIndex t _ | .tachStatus t _ | .wrSetPlan t _ | .wrSetChannel t _ | .wrSetFrame t _ | .wrCommit t _
  | .wrStatus t _ | .thmSet t _ | .thmSetTrip t _ | .thmStatus t _ | .ndlSet t _ | .ndlSynthSet t _ | .ndlFire t _ | .ndlArm t _
  | .ndlTrip t _ | .ndlFeed t _ | .ndlStatus t _ | .rnSetChannel t _ | .rnSetCoef t _ | .rnCommit t _ | .rnSwap t _
  | .rnEnable t _ | .rnDcFreeze t _ | .rnSetDetector t _ | .rnDetRead t _ | .rnDetReset t _ | .rnRingSet t _ | .rnRingStart t _
  | .rnRingStop t _ | .rnTrigger t _ | .rnStatus t _ | .rnSetSync t _ | .prForm t _ | .prPress t _ | .prInspect t _
  | .prCalibrate t _ | .prSetUpkeep t _ | .prStatus t _ | .tileStatus t _ | .mdLoad t _ | .mdCheck t _ | .mdUnload t _
  | .mdStatus t _ | .mdSetHorizon t _ | .memStatus t _ | .memClear t _ | .spLedger t _ | .spSetAgeing t _ | .veStatus t _
  | .lnStatus t _ | .lnAck t _ | .lnPatch t _ | .lnRecommission t _ | .lnForget t _ | .psSet t _ | .psStatus t _ | .psLog t _
  | .psPut t _ | .psGet t _ | .psCheckpoint t _ | .lkSet t _ | .lkSetEntry t _ | .lkCommit t _ | .lkStatus t _ | .lkPartners t _
  | .lkSend t _ | .lkClaim t _ | .lkRelease t _ | .lkMailSend t _ | .lkMailRead t _ | .lkRearm t _ | .lkLog t _ | .calSet t _
  | .calGet t _ | .calAlarm t _ | .bkGrant t _ | .bkRevoke t _ | .bkStatus t _ | .fuseArm t _ | .fuseConfirm t _
  | .unknownCommand t _ _ | .commandIgnored t _ _ | .commandComplete t _ | .registerWrite t _ _ _ | .irqPendingClear t _ _
  | .irqEnableWrite t _ _ | .tripStatusClear t _ _ | .thimbleLatchClear t _ _ _ | .overloadStatusClear t _ _ _
  | .resetCauseClear t _ _ | .basketEnableWrite t _ _ | .deviceReset t _ _ | .windowDataRead t _ _ | .windowDataWrite t _ _ _
  | .postedWriteDrain t _ _ | .windowStart t _ _ _ | .windowAbort t _ _ _ | .evtFifoRead t _ | .violationLogRead t _
  | .multiwordSnapshotRead t _ _ | .busConflict t _ _ | .resetPin t | .supplyMonitorReset t _ | .tapReset t _ | .keepPowerUp t
  | .resetEnd t _ _ | .tileRestore t | .storeSelection t | .bootEntry t | .bootRecordEnd t | .frame1Begins t | .pfailAssert t
  | .holdExit t | .vddpOutOfRange ⟨t, _⟩ | .vddpInRange t | .thermalFault t | .clockFault t | .thermalClear t | .watchEntry t
  | .wake t _ | .calendarSecond t | .keepOscillatorStop t | .fuseWindowEnd t | .fuseBlowDone t _ _ | .syncPinEdge t
  | .frameBoundary t _ | .wringerCommitApply t | .handoff t | .countModeReadout t | .featureFrameWritten t | .runStart t _
  | .gather t _ | .layerStart t _ | .tagDispatch t _ | .tagAgeing t _ | .tilePhase t _ | .layerOutputReady t _
  | .descriptorComplete t _ | .cacheRequest t _ _ _ | .cacheWriteback t _ | .runEnd t _ | .runDeadline t _ | .reloadBlockRead t _
  | .unloadTakesEffect t _ | .pressOpStart t _ | .upkeepPrecedence t _ | .rowPress t _ _ _ | .pressOpClose t _
  | .inspectionDue t _ | .storeWriteStart t | .storeWriteDone t _ | .checkpointDue t | .sample t _ _ | .rinseCommitApply t _
  | .overloadStart t _ _ | .overloadEnd t _ | .calWindowEnd t _ | .settleEnd t _ | .tedsScan t _ _ | .tachEdge t _
  | .indexCode t _ _ | .floodStart t _ _ _ | .floodEnd t _ _ | .freewheel t _ | .freewheelLimit t _ | .underspeed t _
  | .thimbleCrossing t _ _ | .thimbleTick t _ _ | .warmUpEnd t _ _ | .gainHoldEnd t _ _ | .pwmPeriodStart t _
  | .heartbeatToggle t _ | .feedTimeout t _ | .synthLock t | .fireStart t _ | .fireDeadline t _ | .fireDone t _ | .cycleStart t
  | .ixwardCommitApply t | .staticTransmit t _ | .dynamicTransmit t _ | .announceDue t | .packetReceive t _ _ | .nitCorrection t
  | .delayRequest t | .listenTimeout t | .syncLoss t | .rootTakeover t | .partnerSilent t _ | .partnerGone t _
  | .claimTakesEffect t _ | .claimRevert t _ | .guardDrift t _ | .guardRelease t _ | .guardViolation ⟨t, _⟩ | .branchCut t _
  | .branchReadmit t _ | .ringBreak t _ | .breakStop t _ | .ringRepair t _ | .pfailDeassert t | .dieTempUpdate t _
  | .driftAgeAdvance t _ | .synthCalibrationEnd t | .ownershipHoldEnd t _ | .debugPortAccess t _ | .tapExtestEntry t _ => t

end Sys2Proof
end

