-- ==== Sys2Proof/Certificates/Slice0/Obligations.lean ====
section
/-!
DEFINITION. The statements for the provers. Each is about the machine, for all states and operands; `Does`, `Completes` and `Begins`
(Safety.lean) say that a row answers a next state and what it leaves unchanged.
-/

open Sys2Proof Sys2Proof.Machine

/-- A step runs the command at the front of the queue; on an empty queue the block idles. (R774, 16_commands_and_errors.md, log entry 6) -/
def Obligations.StepRunsFront : Prop :=
  ∀ (s : State),
    (∀ (c : Instr) (rest : List Instr), s.pending = c :: rest → step s = exec c { s with pending := rest }) ∧
    (s.pending = [] → step s = .next s)

/-- What reset leaves: the state right after step 1 of Table 17-2. (R719, R506, R808, R849, R870, R15, Table 17-2, Table 14-6, log entry 3) -/
def Obligations.ResetState : Prop :=
  let d := State.reset.dev
  State.reset.pending = [] ∧ d.pwr.state = .boot ∧ d.pwr.ready = false ∧ d.pwr.frame1 = false ∧
  d.host.enable = ⟨#[true, false, false, false], rfl⟩ ∧
  d.grants[(0 : Basket)] = Grants.supervisor ∧ (∀ b : Basket, b ≠ 0 → d.grants[b] = Grants.none) ∧
  d.sram.written = [] ∧ d.sram.wf = true ∧
  (∀ b : Basket, d.host.pages[b].cmdState = .idle ∧ d.host.pages[b].cmdCount = 0 ∧ d.host.pages[b].irqEnable = 0) ∧
  d.host.pages[(0 : Basket)].fifo = [{ code := 0x60, seq := 1, subject := 0, tag := 0, stamp := 0, data0 := 1, data1 := 0 }] ∧
  (∀ b : Basket, b ≠ 0 → d.host.pages[b].fifo = []) ∧
  d.link.state = .off ∧ (∀ o : Fin 8, d.guard.outs[o].tripped = false ∧ d.guard.outs[o].tripStatus = false) ∧
  (∀ c : Fin 32, d.guard.comps[c].latch = false) ∧ (∀ h : Fin 16, d.models[h] = none) ∧ d.spool.tags = [] ∧
  State.reset.fuse.blown = false ∧ d.fuse.armed = false ∧ d.keep.valid = false ∧ d.keep.resetCause = 5

/-- What no row changes: identity, queue, fuse outside a blow, and every part of the device that the row does not touch. (R762, R739,
95_what_each_step_holds.md) -/
def Obligations.RowFrames : Prop :=
  ∀ (i : Instr) (s s' : State), exec i s = .next s' →
    s'.chip = s.chip ∧ s'.pending = s.pending ∧ (s.dev.fuse.blowing = none → s'.fuse = s.fuse) ∧
      Keeps (touches i) (here s i.time) s'.dev

/-- Every row answers a next state in every state: nothing stops the machine. (R778, R813, 16_commands_and_errors.md) -/
def Obligations.EveryRowRuns : Prop :=
  ∀ (i : Instr) (s : State), ∃ s', exec i s = .next s' 

/-- Every step keeps the SRAM in its canonical form. (R452, R453, R456, 10_memory_spool_and_engines.md) -/
def Obligations.SramStaysCanonical : Prop :=
  ∀ (s s' : State), s.dev.sram.wf = true → step s = .next s' → s'.dev.sram.wf = true

/-- Every step keeps exclusive resources with at most one basket. (R725, R722, Table 14-1) -/
def Obligations.GrantsStayExclusive : Prop :=
  ∀ (s s' : State), Exclusive s.dev → step s = .next s' → Exclusive s'.dev

/-- Every step keeps each basket's event ledger balanced and its FIFO within 256 records. (R799) -/
def Obligations.EventLedgersBalance : Prop :=
  ∀ (s s' : State), (∀ b : Basket, s.dev.host.pages[b].balanced) → step s = .next s' → ∀ b : Basket, s'.dev.host.pages[b].balanced

/-- The three invariants hold of the state after reset. (R456, R722, R799, Table 14-6) -/
def Obligations.InvariantsHoldAtReset : Prop :=
  State.reset.dev.sram.wf = true ∧ Exclusive State.reset.dev ∧ ∀ b : Basket, State.reset.dev.host.pages[b].balanced

/-- A blown hem fuse is never restored, and the debug access port then does nothing. (R902) -/
def Obligations.BlownFuseStaysBlown : Prop :=
  ∀ (n : Nat) (s u : State), RunTo n s u → s.fuse.blown = true →
    u.fuse.blown = true ∧ ∀ (t : Time) (a : DebugAccess), exec (.debugPortAccess t a) u = .next { u with dev := here u t }

/-- A command marked sup is refused to baskets 1 to 3 with E_NO_SUCH. (R814) -/
def Obligations.SupervisorOnly : Prop :=
  (∀ (s : State) (t : Time) (b : Basket),
    Starts s b →
    b ≠ 0 →
    ∀ x ∈ supCommands t b, NoSuch x.1 s t b x.2)

/-- CMD_CODE writes that start nothing, and codes that no table lists. (R720, R758, R775, R810, R778) -/
def Obligations.IgnoredCommands : Prop :=
  (∀ (s : State) (t : Time) (b : Basket) (code : BitVec 16),
    Reaches s b →
    (s.dev.pwr.ready = false ∨ s.dev.host.pages[b].cmdState = .busy) →
    let p := s.dev.host.pages[b]
    let n : BitVec 8 := if p.ignored = 255 then 255 else p.ignored + 1
    ∀ x ∈ ((.commandIgnored t b code, code) : Instr × Word) :: hostCommands t b,
      Does x.1 s t [.host] (fun d => d.host = withPage s.dev.host b { p with ignored := n })) ∧
  (∀ (s : State) (t : Time) (b : Basket) (code : BitVec 16),
    ¬ Reaches s b →
    ∀ x ∈ ((.commandIgnored t b code, code) : Instr × Word) :: hostCommands t b, Does x.1 s t [] (fun _ => True)) ∧
  (∀ (s : State) (t : Time) (b : Basket) (code : BitVec 16),
    Starts s b →
    code.toNat ∉ listedCodes →
    NoSuch (.unknownCommand t b code) s t b code)

/-- A command that names a channel, tach input, tile, output, comparator or model the basket does not hold is refused. (R738, R739, R815, R730) -/
def Obligations.UnheldResourcesRefused : Prop :=
  (∀ (s : State) (t : Time),
    StartsAwake s 0 →
    ¬ Held s 0 .channels (arg s 0 0) →
    ∀ x ∈ ([(.feSetChannel t 0, 0x0201), (.feCalOffset t 0, 0x0202), (.feCalGain t 0, 0x0203), (.feSetCoef t 0, 0x0204),
        (.feRestartSensor t 0, 0x0205), (.feStatus t 0, 0x0206), (.rnEnable t 0, 0x0405)] : List (Instr × Word)), NoSuch x.1 s t 0 x.2) ∧
  (∀ (s : State) (t : Time),
    StartsAwake s 0 →
    ¬ Held s 0 .tachs (arg s 0 0) →
    ∀ x ∈ ([(.tachSet t 0, 0x020A), (.tachSetLoop t 0, 0x020B), (.tachSetIndex t 0, 0x020C)] : List (Instr × Word)),
      NoSuch x.1 s t 0 x.2) ∧
  (∀ (s : State) (t : Time),
    StartsAwake s 0 →
    ¬ Held s 0 .tiles (arg s 0 0) →
    ∀ x ∈ ([(.prForm t 0, 0x0501), (.prInspect t 0, 0x0503), (.prCalibrate t 0, 0x0504)] : List (Instr × Word)),
      NoSuch x.1 s t 0 x.2) ∧
  (∀ (s : State) (t : Time),
    StartsAwake s 0 →
    ¬ Held s 0 .outputs (arg s 0 0) →
    ∀ x ∈ ([(.ndlSet t 0, 0x0310), (.ndlStatus t 0, 0x0316), (.thmSetTrip t 0, 0x0302)] : List (Instr × Word)),
      NoSuch x.1 s t 0 x.2) ∧
  (∀ (s : State) (t : Time),
    StartsAwake s 0 →
    ¬ Held s 0 .comparators (arg s 0 0) →
    ∀ x ∈ ([(.thmSet t 0, 0x0301), (.thmStatus t 0, 0x0303)] : List (Instr × Word)), NoSuch x.1 s t 0 x.2) ∧
  (∀ (s : State) (t : Time),
    StartsAwake s 0 →
    s.dev.ownsHandle 0 (arg s 0 0) = false →
    ∀ x ∈ ([(.mdUnload t 0, 0x0603), (.lnAck t 0, 0x0702), (.lnPatch t 0, 0x0703), (.lnRecommission t 0, 0x0704)] : List (Instr × Word)),
      NoSuch x.1 s t 0 x.2)

/-- A long command whose action has ended completes at one edge. (R777) -/
def Obligations.CommandsComplete : Prop :=
  (∀ (s : State) (t : Time) (b : Basket) (r : Running) (o : CmdOutcome),
    s.dev.host.pages[b].running = some r →
    r.outcome = some o →
    let p := s.dev.host.pages[b]
    Does (.commandComplete t b) s t [.host] (fun d => d.host = withPage s.dev.host b
      (completedPage p o (instant s t)))) ∧
  (∀ (s : State) (t : Time) (b : Basket),
    (∀ r, s.dev.host.pages[b].running = some r → r.outcome = none) →
    Does (.commandComplete t b) s t [] (fun _ => True))

/-- IRQ_PENDING clears the bits written as 1, set-wins; IRQ_ENABLE takes the value written. (R767, R768, R769, R773, R720) -/
def Obligations.InterruptRegisters : Prop :=
  (∀ (s : State) (t : Time) (b : Basket) (val : BitVec 16),
    Reaches s b →
    let p := s.dev.host.pages[b]
    Does (.irqPendingClear t b val) s t [.host] (fun d =>
      let q := d.host.pages[b].irqPending
      d.host = withPage s.dev.host b { p with irqPending := q } ∧
      ∀ i : Fin 13, q[i] = (p.irqPending[i] && !(bit val.toNat i.val && p.irqSetAt[i] != instant s t)))) ∧
  (∀ (s : State) (t : Time) (b : Basket) (val : BitVec 16),
    Reaches s b →
    Does (.irqEnableWrite t b val) s t [.host] (fun d =>
      d.host = withPage s.dev.host b { s.dev.host.pages[b] with irqEnable := val.setWidth 13 }))

/-- W1C writes of TRIP_STATUS, THIMBLE_LATCH, OVERLOAD_STATUS and RESET_CAUSE. (R228, R197, R199, R802, R766, R768, R805, R718) -/
def Obligations.StatusClears : Prop :=
  (∀ (s : State) (t : Time) (b : Basket) (val : BitVec 16),
    Reaches s b →
    Does (.tripStatusClear t b val) s t [.host, .guard] (fun d =>
      d.guard = { s.dev.guard with outs := d.guard.outs } ∧
      (∀ o : Fin 8, d.guard.outs[o] =
        if bit val.toNat o.val = true ∧ Held s b .outputs o.val ∧ (here s t).tripInput o = false ∧ s.dev.guard.outs[o].tripSetAt ≠ instant s t
        then { s.dev.guard.outs[o] with tripStatus := false } else s.dev.guard.outs[o]) ∧
      d.host.pages[b].violations = s.dev.host.pages[b].violations +
        BitVec.ofNat 32 (foreignBits val 0 8 (fun i => (s.dev.grants[b]).holds .outputs i)))) ∧
  (∀ (s : State) (t : Time) (b : Basket) (word : Fin 2) (val : BitVec 16),
    Reaches s b →
    (∀ i : Fin 32, s.dev.guard.comps[i].latchSetAt ≠ instant s t) →
    Does (.thimbleLatchClear t b word val) s t [.host, .guard] (fun d =>
      d.guard = { s.dev.guard with comps := d.guard.comps } ∧
      (∀ i : Fin 32, d.guard.comps[i] =
        if 16 * word.val ≤ i.val ∧ i.val < 16 * word.val + 16 ∧ bit val.toNat (i.val - 16 * word.val) = true ∧ Held s b .comparators i.val
        then { s.dev.guard.comps[i] with latch := false } else s.dev.guard.comps[i]) ∧
      d.host.pages[b].violations = s.dev.host.pages[b].violations +
        BitVec.ofNat 32 (foreignBits val (16 * word.val) 32 (fun i => (s.dev.grants[b]).holds .comparators i)))) ∧
  (∀ (s : State) (t : Time) (b : Basket) (word : Fin 2) (val : BitVec 16),
    Reaches s b →
    Does (.overloadStatusClear t b word val) s t [.host] (fun d =>
      (∀ i : Fin 24, d.host.pages[b].overload[i] = (s.dev.host.pages[b].overload[i] &&
        !decide (16 * word.val ≤ i.val ∧ i.val < 16 * word.val + 16 ∧ bit val.toNat (i.val - 16 * word.val) = true ∧
          Held s b .channels i.val ∧ s.dev.host.pages[b].overloadSetAt[i] ≠ instant s t))) ∧
      d.host.pages[b].violations = s.dev.host.pages[b].violations +
        BitVec.ofNat 32 (foreignBits val (16 * word.val) 24 (fun i => (s.dev.grants[b]).holds .channels i)) ∧
      (∀ c : Basket, c ≠ b → d.host.pages[c].overload = s.dev.host.pages[c].overload))) ∧
  (∀ (s : State) (t : Time) (val : BitVec 16),
    Reaches s 0 →
    Does (.resetCauseClear t 0 val) s t [.keep] (fun d =>
      d.keep = { s.dev.keep with resetCause := s.dev.keep.resetCause &&& ~~~(val.setWidth 5) })) ∧
  (∀ (s : State) (t : Time) (b : Basket) (val : BitVec 16),
    b ≠ 0 →
    Does (.resetCauseClear t b val) s t [] (fun _ => True))

/-- Writes of the other registers: arguments, tag, window address and length, BASKET_ENABLE; read-only and unlisted offsets ignore writes. (R760,
R761, R774, R776, R719, R718, R779, R786, Table 15-2) -/
def Obligations.RegisterWrites : Prop :=
  (∀ (s : State) (t : Time) (b : Basket) (k : Fin 8) (val : BitVec 16),
    Reaches s b →
    Does (.registerWrite t b (BitVec.ofNat 8 (0x18 + k.val)) val) s t [.host] (fun d =>
      d.host = withPage s.dev.host b { s.dev.host.pages[b] with args := s.dev.host.pages[b].args.set k.val val })) ∧
  (∀ (s : State) (t : Time) (b : Basket) (val : BitVec 16),
    Reaches s b →
    Does (.registerWrite t b 0x13 val) s t [.host] (fun d =>
      d.host = withPage s.dev.host b { s.dev.host.pages[b] with cmdTag := val.setWidth 8 })) ∧
  (∀ (s : State) (t : Time) (b : Basket) (w : Fin 2) (val : BitVec 16),
    Reaches s b →
    let p := s.dev.host.pages[b]
    let x := p.windows[w]
    let off (k : Nat) : BitVec 8 := BitVec.ofNat 8 (0x28 + 8 * w.val + k)
    let lo := x.addr.toNat / 65536 * 65536 + val.toNat / 2 * 2
    let hi := val.toNat % 512 * 65536 + x.addr.toNat % 65536
    Does (.registerWrite t b (off 0) val) s t [.host] (fun d =>
        d.host = withPage s.dev.host b { p with windows := p.windows.set w.val { x with addr := BitVec.ofNat 25 lo } }) ∧
      Does (.registerWrite t b (off 1) val) s t [.host] (fun d =>
        d.host = withPage s.dev.host b { p with windows := p.windows.set w.val { x with addr := BitVec.ofNat 25 hi } }) ∧
      Does (.registerWrite t b (off 4) val) s t [.host] (fun d =>
        d.host = withPage s.dev.host b { p with windows := p.windows.set w.val { x with len := val } })) ∧
  (∀ (s : State) (t : Time) (val : BitVec 16),
    Reaches s 0 →
    Does (.basketEnableWrite t 0 val) s t [.host] (fun d =>
      d.host = { s.dev.host with enable := d.host.enable } ∧ ∀ c : Basket, d.host.enable[c] = (c == 0 || bit val.toNat c.val))) ∧
  (∀ (s : State) (t : Time) (b : Basket) (val : BitVec 16),
    b ≠ 0 →
    Does (.basketEnableWrite t b val) s t [] (fun _ => True)) ∧
  (∀ (s : State) (t : Time) (b : Basket) (off : BitVec 8) (val : BitVec 16),
    (¬ Reaches s b ∨ off.toNat < 0x08 ∨ off = 0x0B ∨ off = 0x11 ∨ off = 0x12 ∨ (0x14 ≤ off.toNat ∧ off.toNat < 0x18) ∨ (0x20 ≤ off.toNat ∧
        off.toNat < 0x28) ∨ (0x2D ≤ off.toNat ∧ off.toNat < 0x30) ∨ (0x35 ≤ off.toNat ∧ off.toNat < 0x80) ∨ (0x82 ≤ off.toNat ∧
        off.toNat < 0x86) ∨ 0x87 ≤ off.toNat ∨ (b ≠ 0 ∧ 0x80 ≤ off.toNat)) →
    Does (.registerWrite t b off val) s t [] (fun _ => True))

/-- Window reads and writes: the word at the window address, posted writes in order, rights, and the address after. (R458, R463, R730, R731, R780,
R782, R783, R787, R499) -/
def Obligations.WindowAccesses : Prop :=
  (∀ (s : State) (t : Time) (b : Basket) (w : Fin 2),
    Reaches s b →
    let p := s.dev.host.pages[b]
    let x := p.windows[w]
    let a := x.addr.toNat
    let m := landed s.dev.sram x.posted
    let right := (here s t).readRight b a
    Does (.windowDataRead t b w) s t [.host, .spool, .sram] (fun d =>
      let q := d.host.pages[b]
      d.sram = m ∧ d.host.dataOut = some (if right = .data then BitVec.ofNat 16 (m.value a 2) else 0) ∧
      q.windows[w].posted = [] ∧ q.windows[w].addr = (if x.inc then x.addr + 2 else x.addr) ∧
      q.violations = p.violations + (if right = .violation then 1 else 0) ∧
      q.uninitRead = p.uninitRead + (if right = .data ∧ 0x80000 ≤ a ∧ granule a ∉ m.written then 1 else 0))) ∧
  (∀ (s : State) (t : Time) (b : Basket) (w : Fin 2) (val : BitVec 16),
    Reaches s b →
    let p := s.dev.host.pages[b]
    let x := p.windows[w]
    let bad := (here s t).writeViolation b x.addr.toNat
    let out := if bad = none ∧ 32 ≤ x.posted.length then x.posted.take 1 else []
    Does (.windowDataWrite t b w val) s t [.host, .spool, .sram] (fun d =>
      let q := d.host.pages[b]
      d.sram = landed s.dev.sram out ∧
      q.windows[w].posted = (if bad = none then x.posted.drop out.length ++ [(x.addr.toNat, val)] else x.posted) ∧
      q.windows[w].addr = (if x.inc then x.addr + 2 else x.addr) ∧
      q.violations = p.violations + (if bad = none then 0 else 1))) ∧
  (∀ (s : State) (t : Time) (b : Basket) (w : Fin 2) (val : BitVec 16),
    Reaches s b →
    s.dev.host.pages[b].windows[w].active = true →
    let x := s.dev.host.pages[b].windows[w]
    let i : Instr := if x.dirWrite then .windowDataWrite t b w val else .windowDataRead t b w
    Does i s t [.host, .spool, .sram] (fun d =>
      let y := d.host.pages[b].windows[w]
      if x.activeLen ≤ x.count + 1 then y.active = false ∧ d.host.pages[b].irqPending[8 + w.val] = true
      else y.active = true ∧ y.count = x.count + 1)) ∧
  (∀ (s : State) (t : Time) (b : Basket) (w : Fin 2) (a : Nat) (v : Word) (rest : List (Nat × Word)),
    s.dev.host.pages[b].windows[w].posted = (a, v) :: rest →
    s.dev.spool.held a (instant s t) = false →
    let p := s.dev.host.pages[b]
    Does (.postedWriteDrain t b w) s t [.host, .spool, .sram] (fun d =>
      d.host = withPage s.dev.host b { p with windows := p.windows.set w.val { p.windows[w] with posted := rest } } ∧
      d.sram = s.dev.sram.setBytes a (leBytes 2 v.toNat) ∧ UnchangedOutside s.dev.sram d.sram a 2))

/-- START and ABORT of a counted window transfer. (R787, R789, R790, R791, R788) -/
def Obligations.WindowTransfers : Prop :=
  (∀ (s : State) (t : Time) (b : Basket) (w : Fin 2) (val : BitVec 16),
    Reaches s b →
    bit val.toNat 0 = true →
    s.dev.host.pages[b].windows[w].active = false →
    s.dev.host.pages[b].windows[w].len ≠ 0 →
    let p := s.dev.host.pages[b]
    let x := p.windows[w]
    let y := { x with dirWrite := bit val.toNat 1, inc := bit val.toNat 2, active := true, activeLen := x.len.toNat, count := 0 }
    Does (.windowStart t b w val) s t [.host] (fun d => d.host = withPage s.dev.host b { p with windows := p.windows.set w.val y })) ∧
  (∀ (s : State) (t : Time) (b : Basket) (w : Fin 2) (val : BitVec 16),
    Reaches s b →
    bit val.toNat 0 = true →
    s.dev.host.pages[b].windows[w].active = false →
    s.dev.host.pages[b].windows[w].len = 0 →
    let x := s.dev.host.pages[b].windows[w]
    let y := { x with dirWrite := bit val.toNat 1, inc := bit val.toNat 2, active := false, activeLen := 0, count := 0 }
    let e : Ev := { event := .winDone, subject := w.val, data0 := 0, data1 := 0 }
    Does (.windowStart t b w val) s t [.host] (fun d =>
      d.host = ((((here s t).onWindow b w (fun _ => y)).postTo b e).raise (toBasket b) (winIrq w)).host)) ∧
  (∀ (s : State) (t : Time) (b : Basket) (w : Fin 2) (val : BitVec 16),
    Reaches s b →
    bit val.toNat 0 = true →
    s.dev.host.pages[b].windows[w].active = true →
    s.dev.host.pages[b].windows[w].len ≠ 0 →
    let x := s.dev.host.pages[b].windows[w]
    let y := { x with dirWrite := bit val.toNat 1, inc := bit val.toNat 2, active := true, activeLen := x.len.toNat, count := 0 }
    let e : Ev := { event := .winDone, subject := w.val, data0 := x.count, data1 := if bit val.toNat 3 then 2 else 1 }
    Does (.windowStart t b w val) s t [.host] (fun d =>
      d.host = ((((here s t).onWindow b w (fun _ => y)).postTo b e).raise (toBasket b) (winIrq w)).host)) ∧
  (∀ (s : State) (t : Time) (b : Basket) (w : Fin 2) (val : BitVec 16),
    Reaches s b →
    bit val.toNat 0 = false →
    bit val.toNat 3 = true →
    let x := s.dev.host.pages[b].windows[w]
    let y := { x with dirWrite := bit val.toNat 1, inc := bit val.toNat 2 }
    let e : Ev := { event := .winDone, subject := w.val, data0 := x.count, data1 := 2 }
    let ended := ((here s t).onWindow b w (fun _ => { y with active := false, count := 0 })).postTo b e
    Does (.windowAbort t b w val) s t [.host] (fun d =>
      d.host = if x.active then (ended.raise (toBasket b) (winIrq w)).host else ((here s t).onWindow b w (fun _ => y)).host))

/-- Reads that change something: snapshots, EVT_FIFO, VIOLATION_LOG; and bus conflicts. (R763, R764, R794, R798, R736, R753, R806, R720) -/
def Obligations.QueueReads : Prop :=
  (∀ (s : State) (t : Time) (b : Basket) (r : Record) (rest : List Record),
    Reaches s b →
    s.dev.host.pages[b].fifo = r :: rest →
    let p := s.dev.host.pages[b]
    Does (.evtFifoRead t b) s t [.host] (fun d =>
      let sh := p.shadows.put 0x38 r.words
      d.host = { withPage s.dev.host b { p with fifo := rest, read := p.read + 1, shadows := sh } with dataOut := r.words[0]? })) ∧
  (∀ (s : State) (t : Time) (b : Basket),
    Reaches s b →
    s.dev.host.pages[b].fifo = [] →
    let p := s.dev.host.pages[b]
    Does (.evtFifoRead t b) s t [.host] (fun d =>
      d.host = { withPage s.dev.host b { p with shadows := p.shadows.put 0x38 [] } with dataOut := some 0 })) ∧
  (∀ (s : State) (t : Time) (v : Violation) (rest : List Violation),
    Reaches s 0 →
    s.dev.host.violLog = v :: rest →
    let p := s.dev.host.pages[(0 : Basket)]
    Does (.violationLogRead t 0) s t [.host] (fun d =>
      let sh := p.shadows.put 0x88 v.words
      d.host = { withPage s.dev.host 0 { p with shadows := sh } with violLog := rest, dataOut := v.words[0]? })) ∧
  (∀ (s : State) (t : Time) (b : Basket) (off : BitVec 8),
    Reaches s b →
    isSnapshotOffset b off.toNat = true →
    let p := s.dev.host.pages[b]
    let ws := (here s t).liveWords s.chip b off.toNat
    Does (.multiwordSnapshotRead t b off) s t [.host] (fun d =>
      d.host = { withPage s.dev.host b { p with shadows := p.shadows.put off.toNat ws } with dataOut := ws[0]? } ∧
      (off = 0x50 → ws = leWords 4 s.dev.wr.num) ∧
      (off = 0x48 → ws = leWords 2 p.posted.toNat ++ leWords 2 p.read.toNat ++ leWords 2 p.lost.toNat ++ leWords 2 p.fifo.length))) ∧
  (∀ (s : State) (t : Time) (selects : BitVec 4) (both : Bool),
    s.dev.pwr.state ≠ .off →
    s.dev.pwr.state ≠ .reset →
    (both = true ∨ ∃ i j : Fin 4, i ≠ j ∧ selects[i] = true ∧ selects[j] = true) →
    Does (.busConflict t selects both) s t [.host] (fun d =>
      d.host = { s.dev.host with pages := d.host.pages } ∧
      ∀ c : Basket, d.host.pages[c] = if selects[c] then { s.dev.host.pages[c] with busConflicts := s.dev.host.pages[c].busConflicts + 1 }
        else s.dev.host.pages[c]))

/-- SYS_SET_POWER, SYS_SET_WAKE, the entry to WATCH and the wake from it. (R871, R876, R877, R903, R870, R872, R285, R507) -/
def Obligations.WatchAndWake : Prop :=
  (∀ (s : State) (t : Time),
    Starts s 0 →
    arg s 0 0 < 8 →
    Completes (.sysSetWake t 0) s t 0 0 0 0 0 [.pwr] (fun d => d.pwr = { s.dev.pwr with wakeMask := BitVec.ofNat 3 (arg s 0 0) })) ∧
  (∀ (s : State) (t : Time),
    Starts s 0 →
    arg s 0 0 = 3 →
    s.dev.pwr.state = .active →
    s.dev.pwr.watchRequest = false →
    (∀ h : Handle, (s.dev.models[h]).map (·.state) ≠ some .loading) →
    let w : BitVec 3 := if s.dev.guard.wakeLatched && s.dev.pwr.wakeMask[0] then 1 else 0
    Completes (.sysSetPower t 0) s t 0 0 0 0 0 [.pwr] (fun d =>
      d.pwr = { s.dev.pwr with watchRequest := true, watchAt := instant s t, wakes := w })) ∧
  (∀ (s : State) (t : Time),
    Starts s 0 →
    arg s 0 0 = 2 →
    s.dev.pwr.state = .watch →
    s.dev.pwr.watchRequest = false →
    (∀ h : Handle, (s.dev.models[h]).map (·.state) ≠ some .loading) →
    CompletesOver ((here s t).postAll { event := .powerState, data0 := 2, data1 := 1 }).host (.sysSetPower t 0) s t 0 0 0 0 0
      [.pwr, .link] (fun d => d.pwr = { s.dev.pwr with state := .active, wakes := 0, watchRequest := false })) ∧
  (∀ (s : State) (t : Time),
    s.dev.pwr.state = .active →
    s.dev.pwr.watchRequest = true →
    s.dev.pwr.wakes = 0 →
    s.dev.quiet = true →
    Does (.watchEntry t) s t [.pwr, .host, .rinse, .spool, .link] (fun d =>
      d.pwr = { s.dev.pwr with state := .watch, watchRequest := false } ∧
      (∀ c : Fin 24, d.rinse.chains[c] = { s.dev.rinse.chains[c] with waiting := s.dev.rinse.chains[c].enabled }) ∧
      { d.spool with lines := s.dev.spool.lines } = s.dev.spool ∧ (∀ l ∈ d.spool.lines, l.state = .uncached ∧ l.waiting ≠ []) ∧
      (s.dev.link.state = .off → d.host = ((here s t).postAll { event := .powerState, data0 := 3, data1 := 1 }).host))) ∧
  (∀ (s : State) (t : Time) (k : WakeSource),
    (s.dev.pwr.state = .watch ∨ (s.dev.pwr.state = .active ∧ s.dev.pwr.watchRequest = true)) →
    s.dev.pwr.wakes.getLsbD (wakeBit k).val = true →
    Does (.wake t k) s t [.pwr, .host, .link] (fun d =>
      d.pwr = { s.dev.pwr with state := .active, wakes := 0, watchRequest := false } ∧
      d.host = ((here s t).postAll { event := .powerState, data0 := 2, data1 := 2 + (wakeBit k).val }).host))

/-- The calendar: setting, reading, alarm, the second, and the KEEP domain losing clock or power. (R886, R887, R888, R889, R890, R891, R904, R805,
Table 16-12) -/
def Obligations.CalendarRows : Prop :=
  (∀ (s : State) (t : Time),
    let x : Date :=
      { year := arg s 0 0, month := arg s 0 1, day := arg s 0 2, hour := arg s 0 3, minute := arg s 0 4, second := arg s 0 5 }
    Starts s 0 →
    x.possible = true →
    (s.dev.keep.alarmOn = true → x ≠ s.dev.keep.alarm) →
    Completes (.calSet t 0) s t 0 0 0 0 0 [.keep] (fun d =>
      d.keep = { s.dev.keep with date := x, valid := true, lastSecond := instant s t })) ∧
  (∀ (s : State) (t : Time) (b : Basket),
    Starts s b →
    let k := s.dev.keep
    Completes (.calGet t b) s t b (BitVec.ofNat 16 k.date.year) (BitVec.ofNat 16 (k.date.month + 256 * k.date.day))
      (BitVec.ofNat 16 (k.date.hour + 256 * k.date.minute)) (BitVec.ofNat 16 (k.date.second + if k.valid then 0x8000 else 0)) [] (fun _ => True)) ∧
  (∀ (s : State) (t : Time),
    let x : Date :=
      { year := arg s 0 0, month := arg s 0 1, day := arg s 0 2, hour := arg s 0 3, minute := arg s 0 4, second := arg s 0 5 }
    Starts s 0 →
    x.possible = true →
    Completes (.calAlarm t 0) s t 0 0 0 0 0 [.keep] (fun d =>
      d.keep = if argBit s 0 6 0 then { s.dev.keep with alarm := x, alarmOn := true } else { s.dev.keep with alarmOn := false })) ∧
  (∀ (s : State) (t : Time),
    let x : Date :=
      { year := arg s 0 0, month := arg s 0 1, day := arg s 0 2, hour := arg s 0 3, minute := arg s 0 4, second := arg s 0 5 }
    Starts s 0 →
    x.possible = false →
    Refuses (.calSet t 0) s t 0 .dateInvalid ∧ Refuses (.calAlarm t 0) s t 0 .dateInvalid) ∧
  (∀ (s : State) (t : Time),
    s.dev.keep.lastSecond + sec 1 ≤ instant s t →
    s.dev.keep.date ≠ Date.last →
    let k := { s.dev.keep with date := s.dev.keep.date.next, lastSecond := s.dev.keep.lastSecond + sec 1 }
    let rings := k.alarmOn && k.valid && k.date == k.alarm
    Does (.calendarSecond t) s t [.keep, .host, .pwr] (fun d =>
      d.keep = (if rings then { k with alarmOn := false } else k) ∧
      d.host = if rings then ((here s t).post (here s t).everyEnabled ((here s t).keepStamp (instant s t)) { event := .calAlarm }).host
        else s.dev.host)) ∧
  (∀ (s : State) (t : Time),
    s.dev.keep.lastSecond + sec 1 ≤ instant s t →
    s.dev.keep.date = Date.last →
    Does (.calendarSecond t) s t [.keep] (fun d =>
      d.keep = { s.dev.keep with valid := false, lastSecond := s.dev.keep.lastSecond + sec 1 })) ∧
  (∀ (s : State) (t : Time),
    Does (.keepOscillatorStop t) s t [.keep] (fun d => d.keep = { s.dev.keep with valid := false }) ∧
    Does (.keepPowerUp t) s t [.keep] (fun d => d.keep = { date := Date.first, valid := false, lastSecond := instant s t, alarm := Date.first,
                                                           alarmOn := false, pfailValid := false, pfailWrite := 0, pfailClean := false,
                                                           resetCause := 1 }))

/-- Arming, confirming and blowing the hem fuse. (R895, R896, R897, R898, R899, R901, R816, R48) -/
def Obligations.HemFuseRows : Prop :=
  (∀ (s : State) (t : Time),
    StartsAwake s 0 →
    s.fuse.blown = false →
    Completes (.fuseArm t 0) s t 0 0 0 0 0 [.fuse] (fun d =>
      d.fuse = { s.dev.fuse with armed := true, lastFailed := false, windowEnd := instant s t + sec 1 })) ∧
  (∀ (s : State) (t : Time),
    StartsAwake s 0 →
    s.fuse.blown = false →
    s.dev.fuse.armed = true →
    instant s t < s.dev.fuse.windowEnd →
    s.dev.pwr.pfail = false →
    s.dev.pwr.vddpOk = true →
    arg32 s 0 0 + 2 ^ 32 * arg32 s 0 2 = s.chip.uniqueId.toNat →
    Begins (.fuseConfirm t 0) s t 0 0x0A11 [.fuse] (fun d => d.fuse = { s.dev.fuse with blowing := some 0 })) ∧
  (∀ (s : State) (t : Time),
    StartsAwake s 0 →
    s.fuse.blown = false →
    s.dev.fuse.armed = true →
    instant s t < s.dev.fuse.windowEnd →
    (s.dev.pwr.pfail = true ∨ s.dev.pwr.vddpOk = false ∨ arg32 s 0 0 + 2 ^ 32 * arg32 s 0 2 ≠ s.chip.uniqueId.toNat) →
    let e : Err := if s.dev.pwr.pfail = true ∨ s.dev.pwr.vddpOk = false then .state else .argRange
    Does (.fuseConfirm t 0) s t [.host, .fuse] (fun d =>
      d.fuse = { s.dev.fuse with armed := false, lastFailed := true } ∧ d.host = doneHost s.dev.host 0 e.code 0 0 0 0 (instant s t))) ∧
  (∀ (s : State) (t : Time),
    StartsAwake s 0 →
    s.fuse.blown = false →
    (s.dev.fuse.armed = false ∨ s.dev.fuse.windowEnd ≤ instant s t) →
    Refuses (.fuseConfirm t 0) s t 0 .state) ∧
  (∀ (s : State) (t : Time),
    StartsAwake s 0 →
    s.fuse.blown = true →
    Refuses (.fuseArm t 0) s t 0 .fused ∧ Refuses (.fuseConfirm t 0) s t 0 .fused) ∧
  (∀ (s : State) (t : Time),
    s.dev.fuse.armed = true →
    s.dev.fuse.blowing = none →
    s.dev.fuse.windowEnd ≤ instant s t →
    Does (.fuseWindowEnd t) s t [.fuse, .host] (fun d =>
      d.fuse = { s.dev.fuse with armed := false, lastFailed := true } ∧ d.host = ((here s t).postAll { event := .fuse, data0 := 0 }).host)) ∧
  (∀ (s : State) (t : Time) (b0 b1 : Bool) (b : Basket) (r : Running),
    s.dev.fuse.blowing = some b →
    s.dev.host.pages[b].running = some r →
    r.code = 0x0A11 →
    r.outcome = none →
    let fuse : Fuse := { element0 := s.fuse.element0 || b0, element1 := s.fuse.element1 || b1 }
    let ok := fuse.element0 || fuse.element1
    let o : CmdOutcome := { error := if ok then 0 else 5, results := Vector.replicate 4 0 }
    DoesTo fuse (.fuseBlowDone t b0 b1) s t [.fuse, .pwr, .host] (fun d =>
      d.fuse = { s.dev.fuse with armed := false, blowing := none, lastFailed := if ok then s.dev.fuse.lastFailed else true } ∧
      d.pwr = (if ok then { s.dev.pwr with halted := false, tapOut := none } else s.dev.pwr) ∧
      d.host.pages[b].running = some { r with outcome := some o } ∧
      (ok = true → ∀ c : Basket, d.host.pages[c].fifo = ((here s t).postAll { event := .fuse, data0 := 2, tag := r.tag }).host.pages[c].fifo)))

/-- The debug access port while the fuse is intact, and the TAP instructions that hold the device in RESET. (R892, R893, R894, R901, R845, Table
17-9, log entry 31) -/
def Obligations.DebugPortRows : Prop :=
  (∀ (s : State) (t : Time) (a : BitVec 25) (v : BitVec 8) (i : Fin 48) (k : Nat),
    s.fuse.blown = false →
    s.dev.pwr.state ≠ .off →
    s.dev.pwr.state ≠ .reset →
    let w := { s.dev.pwr with tapInstruction := 0x10 }
    Does (.debugPortAccess t (.readSram a)) s t [.pwr] (fun d => d.pwr = { w with tapOut := some ((s.dev.sram.get a.toNat).setWidth 16) }) ∧
    Does (.debugPortAccess t (.writeSram a v)) s t [.pwr, .sram, .spool] (fun d =>
      d.pwr = w ∧ d.sram = s.dev.sram.set a.toNat v ∧ UnchangedOutside s.dev.sram d.sram a.toNat 1) ∧
    Does (.debugPortAccess t (.readTileConfig i k)) s t [.pwr] (fun d =>
      d.pwr = { w with tapOut := some ((s.dev.tiles[i].configByte k).setWidth 16) }) ∧
    Does (.debugPortAccess t (.writeTileConfig i k v)) s t [.pwr, .tiles] (fun d =>
      d.pwr = w ∧ d.tiles = s.dev.tiles.set i.val (s.dev.tiles[i].setConfigByte k v)) ∧
    Does (.debugPortAccess t .haltIslands) s t [.pwr, .spool] (fun d => d.pwr = { w with halted := true } ∧
      d.spool = { s.dev.spool with engines := d.spool.engines } ∧ ∀ e : Fin 4, d.spool.engines[e].busy = s.dev.spool.engines[e].busy) ∧
    Does (.debugPortAccess t .resumeIslands) s t [.pwr, .spool] (fun d => d.pwr = { w with halted := false })) ∧
  (∀ (s : State) (t : Time) (b : Basket) (k : Fin 8) (val : BitVec 16),
    s.fuse.blown = false →
    s.dev.pwr.state ≠ .off →
    s.dev.pwr.state ≠ .reset →
    Does (.debugPortAccess t (.writeRegister b (BitVec.ofNat 8 (0x18 + k.val)) val)) s t [.pwr, .host] (fun d =>
      d.host = withPage s.dev.host b { s.dev.host.pages[b] with args := s.dev.host.pages[b].args.set k.val val })) ∧
  (∀ (s : State) (t : Time),
    s.fuse.blown = false →
    s.dev.pwr.state ≠ .off →
    s.dev.pwr.state ≠ .reset →
    s.dev.fuse.blowing = none →
    Does (.debugPortAccess t .requestReset) s t everyPart (fun d => InReset s .tap (instant s t + us 10) d)) ∧
  (∀ (s : State) (t : Time) (a : DebugAccess),
    (s.fuse.blown = true ∨ s.dev.pwr.state = .off ∨ s.dev.pwr.state = .reset) →
    Does (.debugPortAccess t a) s t [] (fun _ => True)) ∧
  (∀ (s : State) (t : Time) (i : BitVec 5),
    tapHolds i = true →
    s.dev.fuse.blowing = none →
    Does (.tapExtestEntry t i) s t everyPart (fun d => InReset s .tap (instant s t) d ∧ d.pwr.tapInstruction = i)) ∧
  (∀ (s : State) (t : Time) (i : BitVec 5),
    tapHolds i = false →
    tapHolds s.dev.pwr.tapInstruction = false →
    Does (.tapExtestEntry t i) s t [.pwr] (fun d => d.pwr = { s.dev.pwr with tapInstruction := i }) ∧
    Does (.tapReset t i) s t [] (fun _ => True) ∧
    (i ≠ 2 → i ≠ 0x10 → (nextOf (exec (.tapExtestEntry t i) s)).map State.tapCapture = some (some (if i = 1 then 0x1B0482D5 else 0)))) ∧
  (∀ (s : State) (t : Time) (i : BitVec 5),
    tapHolds s.dev.pwr.tapInstruction = true →
    tapHolds i = false →
    s.dev.fuse.blowing = none →
    Does (.tapReset t i) s t everyPart (fun d => InReset s .tap (instant s t + us 10) d ∧ d.pwr.tapInstruction = i))

/-- What a reset does, and what its end begins. (R843, R844, R845, R847, R748, R746, R506, R808, R849, R870) -/
def Obligations.ResetRows : Prop :=
  (∀ (s : State) (t : Time),
    s.dev.fuse.blowing = none →
    Does (.resetPin t) s t everyPart (fun d => InReset s .pin (instant s t) d)) ∧
  (∀ (s : State) (t : Time) (m : Supply),
    s.dev.fuse.blowing = none →
    Does (.supplyMonitorReset t m) s t everyPart (fun d => InReset s .supply (instant s t + us 10) d)) ∧
  (∀ (s : State) (t : Time) (val : BitVec 16),
    Reaches s 0 →
    s.dev.fuse.blowing = none →
    bit val.toNat 0 = true →
    val.toNat / 256 = 0x5A →
    Does (.deviceReset t 0 val) s t everyPart (fun d => InReset s .software (instant s t + us 10) d)) ∧
  (∀ (s : State) (t : Time) (b : Basket) (val : BitVec 16),
    (b ≠ 0 ∨ bit val.toNat 0 = false ∨ val.toNat / 256 ≠ 0x5A) →
    Does (.deviceReset t b val) s t [] (fun _ => True)) ∧
  (∀ (s : State) (t : Time) (bootsel vddio : Bool),
    s.dev.pwr.state = .reset →
    s.dev.pwr.resetUntil ≤ instant s t →
    tapHolds s.dev.pwr.tapInstruction = false →
    s.dev.pwr.pfail = false →
    Does (.resetEnd t bootsel vddio) s t
      [.clk, .pwr, .host, .fuse, .grants, .fe, .teds, .tachs, .wr, .guard, .rinse, .upkeep, .horizons, .models, .spool, .link, .qspi] (fun d =>
      (bootsel = false → d.qspi = []) ∧
      (bootsel = true → d.qspi.head? = some { opcode := 0x03, address := 0, bytes := 32, mode := none, dummy := 0, clock := 10 }) ∧
      d.pwr.state = .boot ∧ d.pwr.ready = false ∧ d.pwr.frame1 = false ∧ d.clk.origin = instant s t ∧ d.clk.net = none ∧
      d.pwr.vddioHigh = vddio ∧ d.pwr.bootFlash = bootsel ∧ (d.pwr.exec.isSome = bootsel) ∧ d.host = State.reset.dev.host ∧
      d.grants = State.reset.dev.grants ∧ d.models = State.reset.dev.models ∧ d.spool = State.reset.dev.spool ∧ d.teds = State.reset.dev.teds))

/-- The boot: a boot record in SRAM, tile restore, store selection, entries, the end of a record, and frame 1. (R850, R391, R392, R556, R557, R854,
R855, R857, R860, R863, R868, Table 17-2) -/
def Obligations.BootRows : Prop :=
  (∀ (s : State) (t : Time),
    let a := arg32 s 0 0
    let n := arg32 s 0 2
    let bs := s.dev.sram.bytes a n
    Starts s 0 →
    s.dev.pwr.state = .active →
    HeldRange s 0 a n →
    32 ≤ n →
    n = recordLengthOf bs →
    goodHeader (bs.take 32) bs = true →
    let e := BootExec.start (.sram 0) (a + 32) (field bs 12 2) false
    Begins (.sysBootRecord t 0) s t 0 0x0104 [.pwr] (fun d =>
      d.pwr = { s.dev.pwr with exec := some e, qspiOpcode := BitVec.ofNat 8 (field bs 6 1), qspiClock := field bs 7 1,
                               qspiDummy := field bs 14 1 })) ∧
  (∀ (s : State) (t : Time),
    s.dev.pwr.state = .boot →
    s.dev.pwr.restored = false →
    s.dev.clk.origin + us 20 + s.dev.restoreTime ≤ instant s t →
    Does (.tileRestore t) s t [.pwr, .tiles, .host, .free] (fun d =>
      d.pwr = { s.dev.pwr with restored := true } ∧ ∀ i : Fin 48,
      let x := s.dev.tiles[i]
      let y := d.tiles[i]
      ((x.state = .blank ∨ x.state = .retired) → y = x) ∧
      ((x.state = .ready ∨ x.state = .spare) →
        y.content = x.content ∧ (y.state = .spare ∨ (x.content ≠ none ∧ y.state = .suspect ∧ y.due = (x.due || !x.needsPress)))) ∧
      (x.state = .pressing → y.content = none ∧ y.recorded = none ∧
        (if x.recorded = some .form then y.state = .blank ∧ y.due = false else y.state = .spare ∧ y.due = true)) ∧
      ((x.state = .inspecting ∨ x.state = .suspect) → y.state = .suspect ∧ y.due = (x.due || !x.needsPress)))) ∧
  (∀ (s : State) (t : Time),
    s.dev.pwr.state = .boot →
    s.dev.pwr.selected = false →
    s.dev.clk.origin + us 20 ≤ instant s t →
    let pick := selectBank s.dev.store.banks
    Does (.storeSelection t) s t [.pwr, .host, .tiles, .store] (fun d =>
      d.pwr = { s.dev.pwr with selected := true } ∧ d.store.banks = s.dev.store.banks ∧ d.store.anomaly = pick.2 ∧
      (pick.1 = none → d.store.empty = true ∧ d.store.newest = none ∧ d.store.nextBank = 0 ∧ d.store.nextSeq = 1) ∧
      ∀ b : Fin 2, pick.1 = some b → d.store.empty = false ∧ d.store.nextBank = 1 - b ∧
        d.store.newest = some (b, field s.dev.store.banks[b] 4 4, field s.dev.store.banks[b] 8 4) ∧
        d.store.nextSeq = nextSeqOf (field s.dev.store.banks[b] 4 4))) ∧
  (∀ (s : State) (t : Time) (e : BootExec),
    s.dev.pwr.exec = some e →
    (here s t).entryDue e = true →
    Does (.bootEntry t) s t everyPart (fun d =>
      d.pwr.exec.map (fun x => (x.index, x.executed, x.count, x.source)) = some (e.index + 1, e.executed + 1, e.count, e.source))) ∧
  (∀ (s : State) (t : Time) (e : BootExec),
    let bs := s.dev.entryBytes e e.index
    let b : Basket := Fin.ofNat 4 (field bs 2 1)
    let src := field bs 4 2 + 65536 * field bs 6 2
    let n := field bs 8 2 + 65536 * field bs 10 2
    let a := field bs 12 2 + 65536 * field bs 14 2
    s.dev.pwr.exec = some e →
    (here s t).entryDue e = true →
    field bs 0 2 = 0 →
    b.val = field bs 2 1 →
    n ≠ 0 →
    HeldRange s b a n →
    Does (.bootEntry t) s t [.pwr, .sram, .spool, .qspi] (fun d => d.qspi = [readCommand s src n] ∧
      d.sram = s.dev.sram.setBytes a (s.dev.flashBytes src n) ∧ UnchangedOutside s.dev.sram d.sram a n ∧
      d.pwr = { s.dev.pwr with exec := some { e with index := e.index + 1, executed := e.executed + 1 } })) ∧
  (∀ (s : State) (t : Time) (e : BootExec),
    let bs := s.dev.entryBytes e e.index
    s.dev.pwr.exec = some e →
    (here s t).entryDue e = true →
    3 < field bs 2 1 →
    let f := e.firstRefused.or (some (e.index, Err.argRange.code))
    let e' := { e with index := e.index + 1, executed := e.executed + 1, refused := e.refused + 1, firstRefused := f,
                       stopped := !bit (field bs 3 1) 0 }
    Does (.bootEntry t) s t [.pwr] (fun d => d.pwr = { s.dev.pwr with exec := some e' })) ∧
  (∀ (s : State) (t : Time) (e : BootExec) (b : Basket) (r : Running),
    s.dev.pwr.exec = some e →
    s.dev.active3 = true →
    e.badHeader = false →
    e.ended = true →
    e.source = .sram b →
    s.dev.host.pages[b].running = some r →
    r.code = 0x0104 →
    r.outcome = none →
    let first := e.firstRefused.getD (0xFFFF, 0)
    let w : Nat → Word := BitVec.ofNat 16
    let o : CmdOutcome := { error := first.2, results := ⟨#[w first.1, w e.executed, w e.refused, 0], rfl⟩ }
    Does (.bootRecordEnd t) s t [.pwr, .host] (fun d => d.pwr = { s.dev.pwr with exec := none } ∧
      d.host = withPage s.dev.host b { s.dev.host.pages[b] with running := some { r with outcome := some o } })) ∧
  (∀ (s : State) (t : Time) (e : BootExec),
    s.dev.pwr.exec = some e →
    s.dev.active3 = true →
    e.badHeader = false →
    e.ended = true →
    e.source = .flash →
    s.dev.clk.origin + ns 48800 ≤ instant s t →
    let first := e.firstRefused.getD (0xFFFF, 0)
    let w : Nat → Word := BitVec.ofNat 16
    let o : CmdOutcome := { error := first.2, results := ⟨#[w first.1, w e.executed, w e.refused, 0], rfl⟩ }
    Does (.bootRecordEnd t) s t [.pwr, .host, .tiles] (fun d =>
      d.pwr = { s.dev.pwr with exec := none, ready := true, outcomePlaced := true } ∧
      d.host = withPage s.dev.host 0 (completedPage s.dev.host.pages[(0 : Basket)] o (instant s t)))) ∧
  (∀ (s : State) (t : Time),
    s.dev.frame1Due = true →
    s.dev.pwr.exec = none →
    s.dev.wr.pending = none →
    s.dev.link.pending = none →
    (∀ c : Fin 24, (s.dev.rinse.chains[c]).pending = none) →
    let e := max (instant s t) ((here s t).sampleEdge (instant s t) 0)
    Does (.frame1Begins t) s t [.clk, .pwr, .host, .wr, .tiles] (fun d => d.clk = (here s e).clk ∧
      d.pwr = { s.dev.pwr with state := .active, frame1 := true, ready := true, outcomePlaced := true } ∧
      d.wr.num = 1 ∧ d.wr.start = e ∧ d.wr.running = true ∧ d.wr.live = s.dev.wr.live ∧
      d.host = (((here s e).raise everyBasket .frame).postAll { event := .powerState, data0 := 2, data1 := 0 }).host))

/-- PFAIL: entry to HOLD, what it stops, and the exit. (R878, R879, R881, R883, R875, R805, R564, R223) -/
def Obligations.PfailRows : Prop :=
  (∀ (s : State) (t : Time),
    s.dev.pwr.pfail = false →
    (s.dev.pwr.state = .boot ∨ s.dev.pwr.state = .active ∨ s.dev.pwr.state = .watch) →
    Does (.pfailAssert t) s t (touches (.pfailAssert t)) (fun d =>
      d.pwr = { s.dev.pwr with state := .hold, ready := false, watchRequest := false, wakes := 0, pfail := true, pfailSince := instant s t } ∧
      d.keep.pfailValid = true ∧ d.keep.pfailClean = false ∧ d.keep.date = s.dev.keep.date ∧ d.keep.resetCause = s.dev.keep.resetCause ∧
      (∀ o : Fin 8, d.guard.outs[o].tripped = true ∧ d.guard.outs[o].armed = false ∧ d.guard.outs[o].tripStatus = true ∧
          d.guard.outs[o].reason = .power) ∧
      (∀ c : Fin 24, d.rinse.chains[c].waiting = s.dev.rinse.chains[c].enabled) ∧
      (∀ b : Basket, d.host.pages[b].irqPending[11] = true))) ∧
  (∀ (s : State) (t : Time),
    s.dev.pwr.pfail = false →
    (s.dev.pwr.state = .hold ∨ s.dev.pwr.state = .fault) →
    let due := s.dev.store.writing = none ∧ s.dev.store.trigger = true
    Does (.pfailAssert t) s t [.pwr, .keep, .host, .store] (fun d =>
      d.pwr = { s.dev.pwr with pfail := true, pfailSince := instant s t } ∧ d.keep.pfailValid = true ∧ d.keep.pfailClean = false ∧
      (s.dev.store.writing = none → d.keep.pfailWrite = (if due then 3 else 0)) ∧
      d.store.pfailAt = (if s.dev.pwr.state = .hold then some (instant s t) else s.dev.store.pfailAt) ∧
      (s.dev.store.writing = none → d.host = ((here s t).raise everyBasket .power).host))) ∧
  (∀ (s : State) (t : Time),
    s.dev.pwr.pfail = true →
    Does (.pfailDeassert t) s t [.pwr] (fun d => d.pwr = { s.dev.pwr with pfail := false, pfailLowSince := instant s t })) ∧
  (∀ (s : State) (t : Time),
    s.dev.pwr.state = .hold →
    s.dev.pwr.pfail = false →
    s.dev.pwr.pfailLowSince + ms 1 ≤ instant s t →
    (here s t).storeActionEnded = true →
    Does (.holdExit t) s t (touches (.holdExit t)) (fun d =>
      d.pwr.state = (if s.dev.pwr.frame1 then .active else .boot) ∧ d.pwr.ready = s.dev.pwr.outcomePlaced ∧ d.pwr.fault = none ∧
      d.store.pfailAt = none ∧
      (s.dev.pwr.frame1 = true → s.dev.wr.running = true → d.wr.num = s.dev.wr.num + 1 ∧
          d.wr.start = max (instant s t) ((here s t).sampleEdge (instant s t) 0)) ∧
      (s.dev.pwr.frame1 = false → d.wr = s.dev.wr)))

/-- FAULT: the temperature and the clock, and the return from a thermal fault. (R882, R883, R884, R885, R41, R223, R870, R361, Table 17-7) -/
def Obligations.FaultRows : Prop :=
  (∀ (s : State) (t : Time) (v : BitVec 16),
    s.dev.pwr.state ≠ .off →
    s.dev.pwr.state ≠ .reset →
    let run (on : Bool) (since : Option Time) : Option Time := if on then some (since.getD (instant s t)) else none
    Does (.dieTempUpdate t v) s t [.pwr, .store] (fun d =>
      d.store = (if s.dev.tiles.toList.any (fun x => x.alive && decide (x.saved < x.counter) &&
        decide (x.saved + s.dev.store.stepInForce < x.counter + d.w16)) then { s.dev.store with trigger := true } else s.dev.store) ∧
      d.pwr = { s.dev.pwr with dieTemp := v, hotSince := run (decide (150 * 16 ≤ v.toInt)) s.dev.pwr.hotSince,
                               coolSince := run (decide (v.toInt < 130 * 16)) s.dev.pwr.coolSince })) ∧
  (∀ (s : State) (t : Time) (h : Time),
    (s.dev.active3 = true ∨ s.dev.pwr.state = .hold) →
    s.dev.pwr.hotSince = some h →
    h + ms 1 ≤ instant s t →
    Does (.thermalFault t) s t (touches (.thermalFault t)) (fun d =>
      d.pwr = { s.dev.pwr with state := .fault, fault := some .thermal, ready := false, watchRequest := false, wakes := 0 } ∧
      (∀ o : Fin 8, d.guard.outs[o].tripped = true ∧ d.guard.outs[o].armed = false ∧ d.guard.outs[o].tripStatus = true ∧
          d.guard.outs[o].reason = .power))) ∧
  (∀ (s : State) (t : Time),
    (s.dev.active3 = true ∨ s.dev.pwr.state = .hold) →
    Does (.clockFault t) s t (touches (.clockFault t)) (fun d =>
      d.pwr = { s.dev.pwr with state := .fault, fault := some .clock, ready := false, watchRequest := false, wakes := 0 } ∧
      d.clk = { s.dev.clk with now := instant s t, frozen := some (instant s t) } ∧ d.store.writing = none ∧
      (∀ c : Fin 24, d.fe[c].cal = none) ∧ (∀ o : Fin 8, d.guard.outs[o].tripped = true ∧ d.guard.outs[o].armed = false ∧
          d.guard.outs[o].tripStatus = true ∧ d.guard.outs[o].reason = .power))) ∧
  (∀ (s : State) (t : Time) (h : Time),
    s.dev.pwr.state = .fault →
    s.dev.pwr.fault = some .thermal →
    s.dev.pwr.coolSince = some h →
    h + sec 1 ≤ instant s t →
    Does (.thermalClear t) s t (touches (.thermalClear t)) (fun d => d.pwr.fault = none ∧
      (s.dev.pwr.pfail = true → d.pwr.state = .hold ∧ d.pwr.ready = s.dev.pwr.ready) ∧
      (s.dev.pwr.pfail = false → d.pwr.state = (if s.dev.pwr.frame1 then .active else .boot) ∧ d.pwr.ready = s.dev.pwr.outcomePlaced))) ∧
  (∀ (s : State) (t : Time),
    s.dev.pwr.fault = some .clock →
    Does (.thermalClear t) s t [] (fun _ => True))

/-- BK_GRANT and BK_REVOKE: what a basket holds afterwards, and what is refused. (R722, R724, R725, R726, R727, R739, R834, Table 14-1) -/
def Obligations.GrantRows : Prop :=
  (∀ (s : State) (t : Time) (k : GrantKind),
    let target : Basket := Fin.ofNat 4 (arg s 0 0)
    let first := arg s 0 2
    let count := arg s 0 3
    StartsAwake s 0 →
    arg s 0 0 < 4 →
    GrantKind.ofNumber (arg s 0 1) = some k →
    k.quota = false →
    count ≠ 0 →
    (∀ n, n < count → k.exists_ (n + first) = true) →
    (k.exclusive = true → ∀ b : Basket, b ≠ target → ∀ n, n < count → (s.dev.grants[b]).holds k (n + first) = false) →
    Completes (.bkGrant t 0) s t 0 0 0 0 0 [.grants] (fun d => ∀ (b : Basket) (k' : GrantKind) (n : Fin 512), (k'.exists_ n.val = true →
        (d.grants[b]).holds k' n.val = (if b = target ∧ k' = k ∧ first ≤ n.val ∧
            n.val < first + count then true else (s.dev.grants[b]).holds k' n.val)) ∧
        (d.grants[b]).tagQuota = (s.dev.grants[b]).tagQuota ∧ (d.grants[b]).patchQuota = (s.dev.grants[b]).patchQuota)) ∧
  (∀ (s : State) (t : Time) (k : GrantKind),
    let target : Basket := Fin.ofNat 4 (arg s 0 0)
    let first := arg s 0 2
    let count := arg s 0 3
    StartsAwake s 0 →
    arg s 0 0 < 4 →
    GrantKind.ofNumber (arg s 0 1) = some k →
    k.quota = false →
    count ≠ 0 →
    (∀ n, n < count → k.exists_ (n + first) = true) →
    (∀ n, n < count → (s.dev.grants[target]).holds k (n + first) = true ∧ (here s t).unitInUse target k (n + first) = false) →
    Completes (.bkRevoke t 0) s t 0 0 0 0 0 [.grants] (fun d => ∀ (b : Basket) (k' : GrantKind) (n : Fin 512), (k'.exists_ n.val = true →
        (d.grants[b]).holds k' n.val = (if b = target ∧ k' = k ∧ first ≤ n.val ∧
            n.val < first + count then false else (s.dev.grants[b]).holds k' n.val)) ∧
        (d.grants[b]).tagQuota = (s.dev.grants[b]).tagQuota ∧ (d.grants[b]).patchQuota = (s.dev.grants[b]).patchQuota)) ∧
  (∀ (s : State) (t : Time),
    let target : Basket := Fin.ofNat 4 (arg s 0 0)
    let amount := arg32 s 0 2
    StartsAwake s 0 →
    arg s 0 0 < 4 →
    arg s 0 1 = 2 →
    amount ≠ 0 →
    (s.dev.grants.toList.map (·.tagQuota)).sum + amount ≤ 4096 →
    Completes (.bkGrant t 0) s t 0 0 0 0 0 [.grants] (fun d => ∀ b : Basket,
      d.grants[b] = if b = target then { s.dev.grants[b] with tagQuota := (s.dev.grants[b]).tagQuota + amount } else s.dev.grants[b])) ∧
  (∀ (s : State) (t : Time),
    let target : Basket := Fin.ofNat 4 (arg s 0 0)
    let amount := arg32 s 0 2
    StartsAwake s 0 →
    arg s 0 0 < 4 →
    arg s 0 1 = 3 →
    amount ≠ 0 →
    amount % 1024 = 0 →
    (s.dev.grants[target]).patchQuota + amount ≤ 262144 →
    Completes (.bkGrant t 0) s t 0 0 0 0 0 [.grants] (fun d => ∀ b : Basket,
      d.grants[b] = if b = target then { s.dev.grants[b] with patchQuota := (s.dev.grants[b]).patchQuota + amount } else s.dev.grants[b])) ∧
  (∀ (s : State) (t : Time) (k : GrantKind) (b : Basket) (n : Nat),
    let target : Basket := Fin.ofNat 4 (arg s 0 0)
    let first := arg s 0 2
    let count := arg s 0 3
    StartsAwake s 0 →
    arg s 0 0 < 4 →
    GrantKind.ofNumber (arg s 0 1) = some k →
    k.exclusive = true →
    count ≠ 0 →
    (∀ n, n < count → k.exists_ (n + first) = true) →
    b ≠ target →
    n < count →
    (s.dev.grants[b]).holds k (n + first) = true →
    Refuses (.bkGrant t 0) s t 0 .state) ∧
  (∀ (s : State) (t : Time) (k : GrantKind) (n : Nat),
    let target : Basket := Fin.ofNat 4 (arg s 0 0)
    let first := arg s 0 2
    let count := arg s 0 3
    StartsAwake s 0 →
    arg s 0 0 < 4 →
    GrantKind.ofNumber (arg s 0 1) = some k →
    k.quota = false →
    count ≠ 0 →
    (∀ n, n < count → k.exists_ (n + first) = true) →
    n < count →
    (s.dev.grants[target]).holds k (n + first) = false →
    Refuses (.bkRevoke t 0) s t 0 .state)

/-- FE_SET_CHANNEL, FE_SET_COEF, FE_RESTART_SENSOR and FE_STATUS. (R67, R97, R98, R99, R100, R101, R820, R802, Table 02-6, Table 16-5) -/
def Obligations.FrontEndCommands : Prop :=
  (∀ (s : State) (t : Time) (pos : Fin 24),
    StartsAwake s 0 →
    Held s 0 .channels pos.val →
    arg s 0 0 = pos.val →
    (pos.val < 16 → arg s 0 1 % 8 ≤ 6) →
    (16 ≤ pos.val → arg s 0 1 % 16 = 0) →
    arg s 0 2 ≤ 60000 →
    1 ≤ arg s 0 3 →
    0 < arg s 0 4 →
    arg s 0 4 < 0x7C00 →
    let c := { s.dev.fe[pos] with settleMs := arg s 0 2, calLimit := arg s 0 3, sensitivity := BitVec.ofNat 16 (arg s 0 4) }
    let v : VibSet → VibSet := fun v => { v with gain := arg s 0 1 % 8, ac := argBit s 0 1 3 }
    let vibs := updAt s.dev.wr.staged.vibs pos.val v
    Completes (.feSetChannel t 0) s t 0 0 0 0 0 [.fe, .wr] (fun d =>
      d.fe = s.dev.fe.set pos.val c ∧ d.wr = { s.dev.wr with staged := { s.dev.wr.staged with vibs := vibs } })) ∧
  (∀ (s : State) (t : Time) (pos : Fin 24),
    let o := signed 32 (arg32 s 0 1)
    StartsAwake s 0 →
    Held s 0 .channels pos.val →
    arg s 0 0 = pos.val →
    -8388608 ≤ o →
    o ≤ 8388607 →
    49 * 4194304 ≤ 50 * arg32 s 0 3 →
    50 * arg32 s 0 3 ≤ 51 * 4194304 →
    Completes (.feSetCoef t 0) s t 0 0 0 0 0 [.fe] (fun d => d.fe = s.dev.fe.set pos.val { s.dev.fe[pos] with offset := o, gain := arg32 s 0 3 })) ∧
  (∀ (s : State) (t : Time) (pos : Fin 24),
    StartsAwake s 0 →
    Held s 0 .channels pos.val →
    arg s 0 0 = pos.val →
    let c := s.dev.fe[pos]
    let now := instant s t
    let past := c.settle.map (fun w => if w.has now then { w with stop := some now } else w)
    let left := if c.settleMs = 0 then past else { start := now, stop := some (now + ms c.settleMs) } :: past
    Completes (.feRestartSensor t 0) s t 0 0 0 0 0 [.fe] (fun d => d.fe = s.dev.fe.set pos.val { c with settle := left })) ∧
  (∀ (s : State) (t : Time) (b : Basket) (pos : Fin 24),
    Starts s b →
    Held s b .channels pos.val →
    arg s b 0 = pos.val →
    let c := s.dev.fe[pos]
    let n := c.overloads.toNat
    let flags := packBits [s.dev.host.pages[b].overload[pos], c.settle.any (fun w => w.has (instant s t)), (here s t).identified pos.val,
      (here s t).departed pos.val, c.cal.isSome]
    Completes (.feStatus t b) s t b (BitVec.ofNat 16 flags) (BitVec.ofNat 16 n) (BitVec.ofNat 16 (n / 65536))
      (BitVec.ofNat 16 (s.dev.liveGain pos.val)) [] (fun _ => True))

/-- Calibrations: the 64 ms window, its end, and the end of a settle window. (R90, R91, R92, R94, R96, R97, log entry 10) -/
def Obligations.CalibrationRows : Prop :=
  (∀ (s : State) (t : Time) (pos : Fin 24),
    StartsAwake s 0 →
    Held s 0 .channels pos.val →
    arg s 0 0 = pos.val →
    s.dev.fe[pos].cal = none →
    let k : Calibration := { gain := false, start := instant s t, stop := instant s t + ms 64, basket := 0, n1 := 0, sum1 := 0, sq1 := 0, n2 := 0,
                             sum2 := 0, sq2 := 0, dirty := false }
    Begins (.feCalOffset t 0) s t 0 0x0202 [.fe] (fun d => d.fe = s.dev.fe.set pos.val { s.dev.fe[pos] with cal := some k })) ∧
  (∀ (s : State) (t : Time) (pos : Fin 24),
    StartsAwake s 0 →
    Held s 0 .channels pos.val →
    arg s 0 0 = pos.val →
    s.dev.fe[pos].cal = none →
    let k : Calibration := { gain := true, start := instant s t, stop := instant s t + ms 64, basket := 0, n1 := 0, sum1 := 0, sq1 := 0, n2 := 0,
                             sum2 := 0, sq2 := 0, dirty := false }
    Begins (.feCalGain t 0) s t 0 0x0203 [.fe] (fun d => d.fe = s.dev.fe.set pos.val { s.dev.fe[pos] with cal := some k })) ∧
  (∀ (s : State) (t : Time) (pos : Fin 24),
    StartsAwake s 0 →
    Held s 0 .channels pos.val →
    arg s 0 0 = pos.val →
    s.dev.fe[pos].cal ≠ none →
    Refuses (.feCalOffset t 0) s t 0 .busy ∧ Refuses (.feCalGain t 0) s t 0 .busy) ∧
  (∀ (s : State) (t : Time) (pos : Fin 24) (k : Calibration) (r : Running),
    s.dev.fe[pos].cal = some k →
    k.stop ≤ instant s t →
    s.dev.host.pages[k.basket].running = some r →
    (r.code = if k.gain then 0x0203 else 0x0202) →
    r.outcome = none →
    let c := s.dev.fe[pos]
    let idle := { c with cal := none, taints := { start := k.stop, stop := some (k.stop + us 12) } :: c.taints }
    let mean := k.sum1 / k.n1
    let answered (o : CmdOutcome) := withPage s.dev.host k.basket { s.dev.host.pages[k.basket] with running := some { r with outcome := some o } }
    Does (.calWindowEnd t pos) s t [.fe, .host, .free] (fun d =>
      (∀ p : Fin 24, p ≠ pos → d.fe[p] = s.dev.fe[p]) ∧
      d.fe[pos] = { idle with offset := d.fe[pos].offset, gain := d.fe[pos].gain } ∧
      (k.dirty = true → d.fe[pos] = idle ∧ d.host = answered { error := 0x0009, results := Vector.replicate 4 0 }) ∧
      ((k.gain = false ∧ k.dirty = false ∧ k.n1 ≠ 0 ∧ (k.n1 : Int) * k.sq1 - k.sum1 * k.sum1 ≤ ((k.n1 * c.calLimit : Nat) : Int) ^ 2 ∧
        k.sum1 % k.n1 = 0 ∧ 100 * mean.natAbs ≤ 2 ^ (converterBits pos.val - 1)) →
        d.fe[pos] = { idle with offset := mean } ∧
        d.host = answered { error := 0, results := results4 (leWords 2 (mean % (2 ^ 32 : Nat)).toNat) }))) ∧
  (∀ (s : State) (t : Time) (pos : Fin 24),
    let c := s.dev.fe[pos]
    let left := c.settle.filter (fun w => w.has (instant s t) || (s.dev.wr.running && w.meets s.dev.wr.start (instant s t)))
    Does (.settleEnd t pos) s t [.fe] (fun d => d.fe = s.dev.fe.set pos.val { c with settle := left }))

/-- TEDS: scan period, bindings, an arrival and a departure. (R71, R72, R73, R78, R80, R99, R103, R872) -/
def Obligations.TedsRows : Prop :=
  (∀ (s : State) (t : Time),
    StartsAwake s 0 →
    arg s 0 0 ≤ 600 →
    Completes (.tedsSetScan t 0) s t 0 0 0 0 0 [.teds] (fun d =>
      d.teds = { s.dev.teds with period := arg s 0 0, lines := d.teds.lines } ∧
      ∀ l : Fin 4, d.teds.lines[l] = { s.dev.teds.lines[l] with nextScan := instant s t + ms (100 * arg s 0 0) })) ∧
  (∀ (s : State) (t : Time) (e : Fin 32) (pos : Fin 24),
    StartsAwake s 0 →
    arg s 0 0 = e.val →
    arg s 0 5 = pos.val →
    Held s 0 .channels pos.val →
    let id : BitVec 64 := BitVec.ofNat 64 (arg32 s 0 1 + 2 ^ 32 * arg32 s 0 3)
    Completes (.tedsBind t 0) s t 0 0 0 0 0 [.teds] (fun d =>
      d.teds = { s.dev.teds with bindings := d.teds.bindings } ∧ d.teds.bindings[e] = some (id, pos) ∧
      ∀ f : Fin 32, f ≠ e → d.teds.bindings[f] = (s.dev.teds.bindings[f]).filter (fun x => x.1 != id))) ∧
  (∀ (s : State) (t : Time) (e : Fin 32),
    StartsAwake s 0 →
    arg s 0 0 = e.val →
    arg s 0 5 = 0xFFFF →
    Completes (.tedsBind t 0) s t 0 0 0 0 0 [.teds] (fun d =>
      d.teds = { s.dev.teds with bindings := s.dev.teds.bindings.set e.val none })) ∧
  (∀ (s : State) (t : Time) (l : Fin 4) (r : TedsRead) (n : Nat) (pos : Fin 24),
    s.dev.teds.period ≠ 0 →
    s.dev.teds.lines[l].nextScan ≤ instant s t →
    (s.dev.pwr.state = .active ∨ s.dev.pwr.state = .boot) →
    s.dev.teds.lines[l].memories = [] →
    (r.idCrcOk = true ∧ r.readOk = true ∧ r.checksumOk = true ∧ r.templateOk = true) →
    s.dev.teds.bound r.identity = some (n, pos) →
    let m : TedsMemory := { identity := r.identity, present := true, missed := 0, failedReads := 0, isRead := true, bad := false, departed := false }
    let line := { s.dev.teds.lines[l] with memories := [m], nextScan := instant s t + ms (100 * s.dev.teds.period) }
    Does (.tedsScan t l [r]) s t [.teds, .fe, .host] (fun d =>
      d.teds = { s.dev.teds with lines := s.dev.teds.lines.set l.val line } ∧
      d.fe = s.dev.fe.set pos.val (s.dev.fe[pos].startSettle (instant s t)) ∧
      d.host = ((here s t).postHeld (fun g => g.channels[pos]) { event := .tedsArrive, subject := l.val, data0 := n, data1 := pos.val }).host)) ∧
  (∀ (s : State) (t : Time) (l : Fin 4) (m : TedsMemory) (n : Nat) (pos : Fin 24),
    s.dev.teds.period ≠ 0 →
    s.dev.teds.lines[l].nextScan ≤ instant s t →
    (s.dev.pwr.state = .active ∨ s.dev.pwr.state = .boot) →
    s.dev.teds.lines[l].memories = [m] →
    m.missed = 1 →
    m.departed = false →
    s.dev.teds.bound m.identity = some (n, pos) →
    let gone := { m with present := false, missed := 2, departed := true }
    let line := { s.dev.teds.lines[l] with memories := [gone], nextScan := instant s t + ms (100 * s.dev.teds.period) }
    Does (.tedsScan t l []) s t [.teds, .host] (fun d =>
      d.teds = { s.dev.teds with lines := s.dev.teds.lines.set l.val line } ∧
      d.host = ((here s t).postHeld (fun g => g.channels[pos]) { event := .tedsLeave, subject := l.val, data0 := n, data1 := pos.val }).host)) ∧
  (∀ (s : State) (t : Time) (l : Fin 4) (found : List TedsRead),
    (s.dev.teds.period = 0 ∨ instant s t < s.dev.teds.lines[l].nextScan) →
    Does (.tedsScan t l found) s t [] (fun _ => True))

/-- A sample word, and an overload episode from its start to its end. (R66, R67, R70, R82, R83, R84, R89, R93, R802, R949, R950, R265) -/
def Obligations.SampleRows : Prop :=
  (∀ (s : State) (t : Time) (pos : Fin 24) (level : InputLevel) (raw : Int),
    (here s t).samples pos.val = true →
    (s.dev.fe[pos].cal ≠ none ∨ (1000 * ((here s t).gainOf pos.val * level.diff.natAbs) ≤ 995 * scaleNv pos.val ∧ (pos.val < 16 →
        500000000 ≤ level.common ∧ level.common ≤ 2800000000))) →
    let c := s.dev.fe[pos]
    let full : Int := 2 ^ (converterBits pos.val - 1)
    let code : Int := if c.cal.isSome then 0 else clampInt (-full) (full - 1) (divRoundAway ((raw - c.offset) * c.gain) 0x400000)
    Does (.sample t pos { raw := raw, level := level }) s t [.fe, .host, .rinse, .spool, .sram] (fun d =>
      let w := d.fe[pos].sample
      (w.toNat / 256 : Int) = code * 2 ^ (24 - converterBits pos.val) % 2 ^ 24 ∧
      w.getLsbD 1 = c.settle.any (fun x => x.has (instant s t)) ∧ w.getLsbD 2 = false ∧ w.getLsbD 3 = c.cal.isSome ∧
      w.getLsbD 0 = (c.cal.isSome || (here s t).departed pos.val || ((here s t).taints pos.val).any (fun x => x.has (instant s t))) ∧
      (c.cal = none → d.fe = s.dev.fe.set pos.val { c with sample := w }))) ∧
  (∀ (s : State) (t : Time) (pos : Fin 24) (level : InputLevel) (raw : Int) (neg : Bool),
    (here s t).samples pos.val = true →
    s.dev.fe[pos].cal = none →
    (1005 * scaleNv pos.val < 1000 * ((here s t).gainOf pos.val * level.diff.natAbs) ∧
        neg = decide (level.diff < 0)) ∨ (1000 * ((here s t).gainOf pos.val * level.diff.natAbs) ≤ 995 * scaleNv pos.val ∧ pos.val < 16 ∧
        ((level.common < 500000000 ∧ neg = true) ∨ (2800000000 < level.common ∧ neg = false))) →
    let c := s.dev.fe[pos]
    let full : Int := 2 ^ (converterBits pos.val - 1)
    Does (.sample t pos { raw := raw, level := level }) s t [.fe, .host, .rinse, .spool, .sram] (fun d =>
      let w := d.fe[pos].sample
      (w.toNat / 256 : Int) = (if neg then -full else full - 1) * 2 ^ (24 - converterBits pos.val) % 2 ^ 24 ∧
      w.getLsbD 0 = true ∧ w.getLsbD 1 = c.settle.any (fun x => x.has (instant s t)) ∧ w.getLsbD 2 = true ∧ w.getLsbD 3 = false ∧
      d.fe = s.dev.fe.set pos.val { c with sample := w })) ∧
  (∀ (s : State) (t : Time) (pos : Fin 24) (level : InputLevel) (raw : Int),
    (here s t).samples pos.val = true →
    (s.dev.rinse.chains[pos]).enabled = false →
    (s.dev.rinse.chains[pos]).pending = none →
    let c := s.dev.rinse.chains[pos]
    Does (.sample t pos { raw := raw, level := level }) s t [.fe, .rinse] (fun d =>
      d.rinse = { s.dev.rinse with chains := s.dev.rinse.chains.set pos.val { c with skipped := c.skipped + 1 } })) ∧
  (∀ (s : State) (t : Time) (pos : Fin 24) (level : InputLevel) (raw : Int),
    (here s t).samples pos.val = false →
    Does (.sample t pos { raw := raw, level := level }) s t [] (fun _ => True) ∧ Does (.overloadStart t pos level) s t [] (fun _ => True) ∧
    Does (.overloadEnd t { pos := pos, level := level }) s t [] (fun _ => True)) ∧
  (∀ (s : State) (t : Time) (pos : Fin 24) (level : InputLevel) (neg : Bool),
    (here s t).samples pos.val = true →
    s.dev.fe[pos].inOverload = false →
    s.dev.fe[pos].cal = none →
    (1005 * scaleNv pos.val < 1000 * ((here s t).gainOf pos.val * level.diff.natAbs) ∧
        neg = decide (level.diff < 0)) ∨ (1000 * ((here s t).gainOf pos.val * level.diff.natAbs) ≤ 995 * scaleNv pos.val ∧ pos.val < 16 ∧
        ((level.common < 500000000 ∧ neg = true) ∨ (2800000000 < level.common ∧ neg = false))) →
    let c := s.dev.fe[pos]
    let held := fun g : Grants => g.channels[pos]
    Does (.overloadStart t pos level) s t [.fe, .host] (fun d =>
      d.fe = s.dev.fe.set pos.val { c with episodes := { start := instant s t, stop := none } :: c.episodes, overloads := c.overloads + 1 } ∧
      (∀ b : Basket, d.host.pages[b].overload[pos] = (s.dev.host.pages[b].overload[pos] || held (s.dev.grants[b])) ∧
        d.host.pages[b].irqPending[7] = (s.dev.host.pages[b].irqPending[7] || held (s.dev.grants[b])) ∧
        d.host.pages[b].fifo = ((here s t).postHeld held { event := .overload, subject := pos.val, data0 := neg.toNat,
                                                           data1 := (c.overloads + 1).toNat }).host.pages[b].fifo))) ∧
  (∀ (s : State) (t : Time) (pos : Fin 24) (level : InputLevel),
    (s.dev.fe[pos].inOverload = true ∨ s.dev.fe[pos].cal ≠ none ∨ (1000 * ((here s t).gainOf pos.val * level.diff.natAbs) ≤ 995 * scaleNv pos.val ∧
        (pos.val < 16 → 500000000 ≤ level.common ∧ level.common ≤ 2800000000))) →
    Does (.overloadStart t pos level) s t [] (fun _ => True)) ∧
  (∀ (s : State) (t : Time) (pos : Fin 24) (level : InputLevel),
    (here s t).samples pos.val = true →
    (s.dev.fe[pos].cal ≠ none ∨ (1000 * ((here s t).gainOf pos.val * level.diff.natAbs) ≤ 995 * scaleNv pos.val ∧ (pos.val < 16 →
        500000000 ≤ level.common ∧ level.common ≤ 2800000000))) →
    let c := s.dev.fe[pos]
    let closed := c.episodes.map (fun w => if w.stop = none then { w with stop := some (instant s t) } else w)
    Does (.overloadEnd t { pos := pos, level := level }) s t [.fe] (fun d => d.fe = s.dev.fe.set pos.val { c with episodes := closed })) ∧
  (∀ (s : State) (t : Time) (pos : Fin 24) (level : InputLevel) (neg : Bool),
    s.dev.fe[pos].cal = none →
    (1005 * scaleNv pos.val < 1000 * ((here s t).gainOf pos.val * level.diff.natAbs) ∧
        neg = decide (level.diff < 0)) ∨ (1000 * ((here s t).gainOf pos.val * level.diff.natAbs) ≤ 995 * scaleNv pos.val ∧ pos.val < 16 ∧
        ((level.common < 500000000 ∧ neg = true) ∨ (2800000000 < level.common ∧ neg = false))) →
    Does (.overloadEnd t { pos := pos, level := level }) s t [] (fun _ => True))

/-- TACH_SET, TACH_SET_LOOP and TACH_SET_INDEX stage the settings of one tach input. (R137, R138, R139, R119, Table 03-6) -/
def Obligations.TachSettings : Prop :=
  (∀ (s : State) (t : Time) (i : Fin 4),
    let res := arg s 0 1 / 8 % 32
    let lim := arg s 0 1 / 256 % 16
    let hi := arg32 s 0 3
    let lo := arg32 s 0 5
    StartsAwake s 0 →
    Held s 0 .tachs i.val →
    arg s 0 0 = i.val →
    (6 ≤ res ∧ res ≤ 16) →
    (1 ≤ lim ∧ lim ≤ 8) →
    (1 ≤ arg s 0 2 ∧ arg s 0 2 ≤ 1024) →
    (10 ≤ lo ∧ lo ≤ hi) →
    (10 ≤ hi ∧ hi ≤ 100000) →
    2 ^ res * hi ≤ 256000000 →
    let mode : TachMode := match arg s 0 1 % 4 with | 0 => .off | 1 => .digital | 2 => .analogue | _ => .optical
    let x := { s.dev.wr.staged.tachs[i] with mode := mode, logRes := res, freewheelLimit := lim, ppr := arg s 0 2, maxRate := hi, minRate := lo }
    Completes (.tachSet t 0) s t 0 0 0 0 0 [.wr] (fun d => d.wr = { s.dev.wr with staged := { s.dev.wr.staged with tachs := s.dev.wr.staged.tachs.set i.val x } })) ∧
  (∀ (s : State) (t : Time) (i : Fin 4),
    StartsAwake s 0 →
    Held s 0 .tachs i.val →
    arg s 0 0 = i.val →
    (1 ≤ arg s 0 1 ∧ arg s 0 1 ≤ 500) →
    (1 ≤ arg s 0 2 ∧ arg s 0 2 ≤ 50000) →
    (1 ≤ arg s 0 3 ∧ arg s 0 3 ≤ 50) →
    (1 ≤ arg s 0 4 ∧ arg s 0 4 ≤ 50) →
    (50 ≤ arg s 0 5 ∧ arg s 0 5 ≤ 98) →
    (1000 ≤ arg32 s 0 6 ∧ arg32 s 0 6 ≤ 60000000) →
    let x := { s.dev.wr.staged.tachs[i] with bw := arg s 0 1, amax := arg s 0 2, etol := arg s 0 3, hysteresis := arg s 0 4,
                                             floodThreshold := arg s 0 5, fallback := arg32 s 0 6 }
    Completes (.tachSetLoop t 0) s t 0 0 0 0 0 [.wr] (fun d => d.wr = { s.dev.wr with staged := { s.dev.wr.staged with tachs := s.dev.wr.staged.tachs.set i.val x } })) ∧
  (∀ (s : State) (t : Time) (i : Fin 4),
    StartsAwake s 0 →
    Held s 0 .tachs i.val →
    arg s 0 0 = i.val →
    arg s 0 2 ≤ 0x100 →
    let id : Option (BitVec 8) := if arg s 0 2 = 0x100 then none else some (BitVec.ofNat 8 (arg s 0 2))
    let x := { s.dev.wr.staged.tachs[i] with indexOn := argBit s 0 1 0, expected := id }
    Completes (.tachSetIndex t 0) s t 0 0 0 0 0 [.wr] (fun d => d.wr = { s.dev.wr with staged := { s.dev.wr.staged with tachs := s.dev.wr.staged.tachs.set i.val x } }))

/-- Tach edges, index codes, freewheel and loss of angle. (R113, R116, R117, R118, R123, R126, R127, R128, R129, R109, R55, log entry 11) -/
def Obligations.TachEvents : Prop :=
  (∀ (s : State) (t : Time) (i : Fin 4) (x e : Time),
    let set := s.dev.wr.live.tachs[i]
    let l := s.dev.tachs[i].loop
    s.dev.pwr.state ≠ .off →
    s.dev.pwr.state ≠ .reset →
    s.dev.pwr.fault ≠ some .clock →
    set.mode ≠ .off →
    (here s t).judgeable set x = true →
    (set.mode = .optical → s.dev.tachs[i].flooded x = false) →
    l.state = .locked →
    l.lastEdge = some e →
    set.inGate (((x - e : Nat) : Int) - l.tpred).natAbs l.tpred = true →
    set.over (x - e) = false →
    Does (.tachEdge t { tach := i, edge := x }) s t [.tachs, .free] (fun d => (∀ j : Fin 4, j ≠ i → d.tachs[j] = s.dev.tachs[j]) ∧
      d.tachs[i] = { s.dev.tachs[i] with loop := { l with
        edges := l.edges + 1, lastEdge := some x, lastInterval := some (x - e), lag := d.tachs[i].loop.lag, tpred := d.tachs[i].loop.tpred } } ∧
      0 < d.tachs[i].loop.tpred)) ∧
  (∀ (s : State) (t : Time) (i : Fin 4) (x e : Time),
    let set := s.dev.wr.live.tachs[i]
    let l := s.dev.tachs[i].loop
    s.dev.pwr.state ≠ .off →
    s.dev.pwr.state ≠ .reset →
    s.dev.pwr.fault ≠ some .clock →
    set.mode ≠ .off →
    (here s t).judgeable set x = true →
    (set.mode = .optical → s.dev.tachs[i].flooded x = false) →
    l.state = .locked →
    l.lastEdge = some e →
    set.inGate (((x - e : Nat) : Int) - l.tpred).natAbs l.tpred = false →
    Does (.tachEdge t { tach := i, edge := x }) s t [.tachs] (fun d => (∀ j : Fin 4, j ≠ i → d.tachs[j] = s.dev.tachs[j]) ∧
      d.tachs[i] = { s.dev.tachs[i] with loop := { l with rejectedEdges := l.rejectedEdges + 1 } })) ∧
  (∀ (s : State) (t : Time) (i : Fin 4) (x e : Time),
    let set := s.dev.wr.live.tachs[i]
    let l := s.dev.tachs[i].loop
    s.dev.pwr.state ≠ .off →
    s.dev.pwr.state ≠ .reset →
    s.dev.pwr.fault ≠ some .clock →
    set.mode ≠ .off →
    (here s t).judgeable set x = true →
    (set.mode = .optical → s.dev.tachs[i].flooded x = false) →
    l.state = .locked →
    l.lastEdge = some e →
    set.inGate (((x - e : Nat) : Int) - l.tpred).natAbs l.tpred = true →
    set.over (x - e) = true →
    Does (.tachEdge t { tach := i, edge := x }) s t [.tachs, .host, .wr] (fun d =>
      (∀ j : Fin 4, j ≠ i → d.tachs[j] = s.dev.tachs[j]) ∧
      d.tachs[i].loop.state = .lost ∧ d.tachs[i].loop.abs = false ∧ d.tachs[i].loop.acq = 0 ∧ d.tachs[i].loop.heldWord.getLsbD 1 = true ∧
      d.host = ((here s t).postTach i (here s t).stamp { event := .angleLost, subject := i.val, data0 := 2 }).host ∧
      (s.dev.wr.live.frame.source ≠ .angle ∨ s.dev.wr.live.frame.tach ≠ i → d.wr = { s.dev.wr with clocks := d.wr.clocks }) ∧
      (s.dev.wr.live.frame.source = .angle → s.dev.wr.live.frame.tach = i → d.wr.fallback = true))) ∧
  (∀ (s : State) (t : Time) (i : Fin 4) (x : Time),
    let set := s.dev.wr.live.tachs[i]
    let l := s.dev.tachs[i].loop
    s.dev.pwr.state ≠ .off →
    s.dev.pwr.state ≠ .reset →
    s.dev.pwr.fault ≠ some .clock →
    set.mode ≠ .off →
    (here s t).judgeable set x = true →
    (set.mode = .optical → s.dev.tachs[i].flooded x = false) →
    0 < set.ppr →
    l.state = .lost →
    l.lastEdge = none →
    Does (.tachEdge t { tach := i, edge := x }) s t [.tachs] (fun d => (∀ j : Fin 4, j ≠ i → d.tachs[j] = s.dev.tachs[j]) ∧
      d.tachs[i] = { s.dev.tachs[i] with loop := { l with lastEdge := some x, lastInterval := none, acq := 0 } })) ∧
  (∀ (s : State) (t : Time) (i : Fin 4) (x : Time),
    let set := s.dev.wr.live.tachs[i]
    (set.mode = .off ∨ (set.mode = .optical ∧ s.dev.tachs[i].flooded x = true) ∨ (here s t).judgeable set x = false) →
    Does (.tachEdge t { tach := i, edge := x }) s t [] (fun _ => True)) ∧
  (∀ (s : State) (t : Time) (i : Fin 4) (r : IndexRead) (reason id : Nat),
    let set := s.dev.wr.live.tachs[i]
    s.dev.pwr.state ≠ .off →
    s.dev.pwr.state ≠ .reset →
    s.dev.pwr.fault ≠ some .clock →
    set.mode ≠ .off →
    set.indexOn = true →
    (here s t).sampleEdge (codeStop r + us 2) 1 ≤ instant s t →
    indexFault r set ((s.dev.tachs[i]).floodMeets r.start (codeStop r)) = some (reason, id) →
    let x := s.dev.tachs[i]
    Does (.indexCode t i r) s t [.tachs, .host] (fun d =>
      d.tachs = s.dev.tachs.set i.val { x with rejectedCodes := x.rejectedCodes + 1 } ∧
      d.host = ((here s t).postTach i (here s t).stamp { event := .indexBad, subject := i.val, data0 := reason, data1 := id }).host)) ∧
  (∀ (s : State) (t : Time) (i : Fin 4) (r : IndexRead),
    let set := s.dev.wr.live.tachs[i]
    let l := s.dev.tachs[i].loop
    s.dev.pwr.state ≠ .off →
    s.dev.pwr.state ≠ .reset →
    s.dev.pwr.fault ≠ some .clock →
    set.mode ≠ .off →
    set.indexOn = true →
    (here s t).sampleEdge (codeStop r + us 2) 1 ≤ instant s t →
    indexFault r set ((s.dev.tachs[i]).floodMeets r.start (codeStop r)) = none →
    l.state = .lost →
    l.acq < 2 * set.ppr →
    Does (.indexCode t i r) s t [.tachs] (fun d => (∀ j : Fin 4, j ≠ i → d.tachs[j] = s.dev.tachs[j]) ∧
      d.tachs[i].lastId = codeIdentity r ∧
      d.tachs[i].loop = { l with code := some (codeIdentity r, l.phase r.start), paired := d.tachs[i].loop.paired })) ∧
  (∀ (s : State) (t : Time) (i : Fin 4) (e : Time),
    let l := s.dev.tachs[i].loop
    s.dev.pwr.state ≠ .off →
    s.dev.pwr.state ≠ .reset →
    s.dev.pwr.fault ≠ some .clock →
    l.state = .locked →
    l.lastEdge = some e →
    (here s t).settledTo s.dev.wr.live.tachs[i] (e + (3 * l.tpred + 1) / 2) = true →
    Does (.freewheel t i) s t [.tachs, .host] (fun d => (∀ j : Fin 4, j ≠ i → d.tachs[j] = s.dev.tachs[j]) ∧
      d.tachs[i].loop = { l with state := .freewheel, freeStart := instant s t, resume := 0, resumeK := 0,
                                 freeWins := { start := instant s t, stop := none } :: l.freeWins } ∧
      d.host = ((here s t).postTach i ((here s t).stampAt (instant s t)) { event := .freewheel, subject := i.val }).host)) ∧
  (∀ (s : State) (t : Time) (i : Fin 4),
    let set := s.dev.wr.live.tachs[i]
    let l := s.dev.tachs[i].loop
    s.dev.pwr.state ≠ .off →
    s.dev.pwr.state ≠ .reset →
    s.dev.pwr.fault ≠ some .clock →
    l.state = .freewheel →
    (here s t).settledTo set (l.freeStart + set.freewheelLimit * set.ppr * l.tpred) = true →
    Does (.freewheelLimit t i) s t [.tachs, .host, .wr] (fun d =>
      (∀ j : Fin 4, j ≠ i → d.tachs[j] = s.dev.tachs[j]) ∧
      d.tachs[i].loop.state = .lost ∧ d.tachs[i].loop.abs = false ∧ d.tachs[i].loop.acq = 0 ∧ d.tachs[i].loop.heldWord.getLsbD 1 = true ∧
      d.host = ((here s t).postTach i (here s t).stamp { event := .angleLost, subject := i.val, data0 := 1 }).host ∧
      (s.dev.wr.live.frame.source ≠ .angle ∨ s.dev.wr.live.frame.tach ≠ i → d.wr = { s.dev.wr with clocks := d.wr.clocks }) ∧
      (s.dev.wr.live.frame.source = .angle → s.dev.wr.live.frame.tach = i → d.wr.fallback = true))) ∧
  (∀ (s : State) (t : Time) (i : Fin 4),
    let set := s.dev.wr.live.tachs[i]
    let l := s.dev.tachs[i].loop
    s.dev.pwr.state ≠ .off →
    s.dev.pwr.state ≠ .reset →
    s.dev.pwr.fault ≠ some .clock →
    l.state ≠ .lost →
    set.under l.tpred = true →
    Does (.underspeed t i) s t [.tachs, .host, .wr] (fun d =>
      (∀ j : Fin 4, j ≠ i → d.tachs[j] = s.dev.tachs[j]) ∧
      d.tachs[i].loop.state = .lost ∧ d.tachs[i].loop.abs = false ∧ d.tachs[i].loop.acq = 0 ∧ d.tachs[i].loop.heldWord.getLsbD 1 = true ∧
      d.host = ((here s t).postTach i (here s t).stamp { event := .angleLost, subject := i.val, data0 := 3 }).host ∧
      (s.dev.wr.live.frame.source ≠ .angle ∨ s.dev.wr.live.frame.tach ≠ i → d.wr = { s.dev.wr with clocks := d.wr.clocks }) ∧
      (s.dev.wr.live.frame.source = .angle → s.dev.wr.live.frame.tach = i → d.wr.fallback = true)))

/-- Floods of an optical head or an index input. (R110, R111, R112, R113, R114, R123, R133, R135) -/
def Obligations.FloodRows : Prop :=
  (∀ (s : State) (t : Time) (i : Fin 4) (c : Time),
    let set := s.dev.wr.live.tachs[i]
    let x := s.dev.tachs[i]
    s.dev.pwr.state ≠ .off →
    s.dev.pwr.state ≠ .reset →
    s.dev.pwr.fault ≠ some .clock →
    (set.mode = .digital ∨ set.mode = .analogue) →
    (c + us 2 ≤ instant s t ∧ instant s t ≤ (here s t).sampleEdge (c + us 2) 0) →
    floodAt x.floodIndex (instant s t) = false →
    Does (.floodStart t i true c) s t [.tachs, .host] (fun d =>
      d.tachs = s.dev.tachs.set i.val { x with floodIndex := ({ start := c, stop := none } :: x.floodIndex).take 2 } ∧
      d.host = ((here s t).postTach i ((here s t).stampAt c) { event := .flood, subject := i.val }).host)) ∧
  (∀ (s : State) (t : Time) (i : Fin 4) (c : Time),
    let set := s.dev.wr.live.tachs[i]
    let x := s.dev.tachs[i]
    s.dev.pwr.state ≠ .off →
    s.dev.pwr.state ≠ .reset →
    s.dev.pwr.fault ≠ some .clock →
    set.mode = .optical →
    (c + us 2 ≤ instant s t ∧ instant s t ≤ (here s t).sampleEdge (c + us 2) 0) →
    floodAt x.floodTach (instant s t) = false →
    x.loop.state = .locked →
    let l := { x.loop with state := .freewheel, freeStart := c, resume := 0, resumeK := 0,
                           freeWins := { start := c, stop := none } :: x.loop.freeWins }
    let e : Ev := { event := .flood, subject := i.val }
    let e' : Ev := { event := .freewheel, subject := i.val }
    Does (.floodStart t i false c) s t [.tachs, .host, .wr, .spool, .sram] (fun d =>
      d.tachs = s.dev.tachs.set i.val { x with floodTach := ({ start := c, stop := none } :: x.floodTach).take 2, loop := l } ∧
      d.host = (((here s t).postTach i ((here s t).stampAt c) e).postTach i ((here s t).stampAt c) e').host ∧
      d.wr = { s.dev.wr with ended := d.wr.ended } ∧
      (∀ f, s.dev.wr.ended = some f → f.stop ≤ c → d.wr = s.dev.wr ∧ d.sram = s.dev.sram))) ∧
  (∀ (s : State) (t : Time) (i : Fin 4) (c : Time) (f : EndedFrame),
    let set := s.dev.wr.live.tachs[i]
    let x := s.dev.tachs[i]
    s.dev.pwr.state ≠ .off →
    s.dev.pwr.state ≠ .reset →
    s.dev.pwr.fault ≠ some .clock →
    set.mode = .optical →
    (c + us 2 ≤ instant s t ∧ instant s t ≤ (here s t).sampleEdge (c + us 2) 0) →
    floodAt x.floodTach (instant s t) = false →
    x.loop.state = .locked →
    s.dev.wr.ended = some f →
    c < f.stop →
    f.blanked = false →
    s.dev.wr.live.frame.source = .angle →
    s.dev.wr.live.frame.tach = i →
    Does (.floodStart t i false c) s t [.tachs, .host, .wr, .spool, .sram] (fun d =>
      d.wr.ended.map (·.values) = some (f.values.map (fun v => if v.enabled then { v with flags := v.flags ||| 8 } else v)))) ∧
  (∀ (s : State) (t : Time) (i : Fin 4) (c : Time),
    let x := s.dev.tachs[i]
    (instant s t < c + us 2 ∨ (here s t).sampleEdge (c + us 2) 0 < instant s t ∨ floodAt x.floodTach (instant s t) = true ∨ s.dev.wr.live.tachs[i].mode ≠ .optical) →
    Does (.floodStart t i false c) s t [] (fun _ => True)) ∧
  (∀ (s : State) (t : Time) (i : Fin 4) (below : Time),
    let x := s.dev.tachs[i]
    below + us 100 ≤ instant s t →
    let ended (ws : List Win) := ws.map (fun w => if w.stop.isNone && decide (w.start ≤ below) then { w with stop := some (below + us 100) } else w)
    Does (.floodEnd t i { onIndex := false,
                          below := below }) s t [.tachs] (fun d => d.tachs = s.dev.tachs.set i.val { x with floodTach := ended x.floodTach }) ∧
    Does (.floodEnd t i { onIndex := true,
                          below := below }) s t [.tachs] (fun d => d.tachs = s.dev.tachs.set i.val { x with floodIndex := ended x.floodIndex })) ∧
  (∀ (s : State) (t : Time) (i : Fin 4) (onIndex : Bool) (below : Time),
    instant s t < below + us 100 →
    Does (.floodEnd t i { onIndex := onIndex, below := below }) s t [] (fun _ => True))

/-- WR_SET_PLAN, WR_SET_CHANNEL, WR_SET_FRAME stage settings; WR_COMMIT captures or reverts them. (R50, R51, R52, R170, R172, R174, R175, R820, R822,
Table 16-5, Table 04-3) -/
def Obligations.WringerSettings : Prop :=
  (∀ (s : State) (t : Time) (pl : Fin 8),
    StartsAwake s 0 →
    arg s 0 0 = pl.val →
    arg s 0 1 = 0xFF →
    arg s 0 2 % 32 ≤ 24 →
    arg s 0 2 / 256 % 16 ≤ 8 →
    (128000 ≤ arg32 s 0 3 ∧ arg32 s 0 3 ≤ 10240000) →
    (4 ≤ arg s 0 5 ∧ arg s 0 5 ≤ 40) →
    (100 ≤ arg s 0 6 ∧ arg s 0 6 ≤ 5000) →
    let p := { s.dev.wr.staged.plans[pl] with spectral := arg s 0 2 % 32, envelope := arg s 0 2 / 256 % 16, carrier := arg32 s 0 3,
                                                 carrierQ := arg s 0 5, corner := arg s 0 6 }
    Completes (.wrSetPlan t 0) s t 0 0 0 0 0 [.wr] (fun d => d.wr = { s.dev.wr with staged := { s.dev.wr.staged with plans := s.dev.wr.staged.plans.set pl.val p } })) ∧
  (∀ (s : State) (t : Time) (pl : Fin 8) (n : Fin 32),
    let tach : Fin 4 := Fin.ofNat 4 (arg s 0 2 / 2 % 4)
    StartsAwake s 0 →
    arg s 0 0 = pl.val →
    arg s 0 1 = n.val →
    (8 ≤ arg s 0 5 ∧ arg s 0 5 ≤ 160) →
    (argBit s 0 2 0 = true → Held s 0 .tachs tach.val ∧ 64 ≤ arg32 s 0 3 ∧ arg32 s 0 3 ≤ 131072) →
    (argBit s 0 2 0 = false → 512 ≤ arg32 s 0 3 ∧ arg32 s 0 3 ≤ 10240000) →
    let x : Band := { order := argBit s 0 2 0, tach := if argBit s 0 2 0 then tach else 0, centre := arg32 s 0 3, q := arg s 0 5,
                      square := argBit s 0 2 3, scale := arg s 0 2 / 16 % 8 }
    let p := { s.dev.wr.staged.plans[pl] with bands := s.dev.wr.staged.plans[pl].bands.set n.val x }
    Completes (.wrSetPlan t 0) s t 0 0 0 0 0 [.wr] (fun d => d.wr = { s.dev.wr with staged := { s.dev.wr.staged with plans := s.dev.wr.staged.plans.set pl.val p } })) ∧
  (∀ (s : State) (t : Time) (ch : Fin 16),
    StartsAwake s 0 →
    Held s 0 .channels ch.val →
    arg s 0 0 = ch.val →
    let v := { s.dev.wr.staged.vibs[ch] with plan := Fin.ofNat 8 (arg s 0 1 % 8), count := argBit s 0 1 4 }
    Completes (.wrSetChannel t 0) s t 0 0 0 0 0 [.wr] (fun d => d.wr = { s.dev.wr with staged := { s.dev.wr.staged with vibs := s.dev.wr.staged.vibs.set ch.val v } })) ∧
  (∀ (s : State) (t : Time),
    StartsAwake s 0 →
    arg s 0 0 = 0 →
    (1000 ≤ arg32 s 0 2 ∧ arg32 s 0 2 ≤ 60000000) →
    let f := { s.dev.wr.staged.frame with source := .time, timeLen := arg32 s 0 2 }
    Completes (.wrSetFrame t 0) s t 0 0 0 0 0 [.wr] (fun d => d.wr = { s.dev.wr with staged := { s.dev.wr.staged with frame := f } })) ∧
  (∀ (s : State) (t : Time) (i : Fin 4),
    StartsAwake s 0 →
    arg s 0 0 = 1 →
    arg s 0 1 = i.val →
    Held s 0 .tachs i.val →
    (1 ≤ arg32 s 0 2 ∧ arg32 s 0 2 ≤ 4096) →
    let f := { s.dev.wr.staged.frame with source := .angle, tach := i, angleLen := arg32 s 0 2 }
    Completes (.wrSetFrame t 0) s t 0 0 0 0 0 [.wr] (fun d => d.wr = { s.dev.wr with staged := { s.dev.wr.staged with frame := f } })) ∧
  (∀ (s : State) (t : Time),
    let n := arg32 s 0 2
    StartsAwake s 0 →
    arg s 0 0 = 2 →
    (1 ≤ n ∧ n ≤ 240000) →
    (∀ c ∈ s.dev.cycleLengths, 1000 ≤ n * c ∧ n * c ≤ 60000000) →
    let f := { s.dev.wr.staged.frame with source := .network, netLen := n }
    Completes (.wrSetFrame t 0) s t 0 0 0 0 0 [.wr] (fun d => d.wr = { s.dev.wr with staged := { s.dev.wr.staged with frame := f } })) ∧
  (∀ (s : State) (t : Time),
    StartsAwake s 0 →
    argBit s 0 1 0 = false →
    s.dev.wr.pending = none →
    s.dev.wringerAgrees (BitVec.ofNat 16 (arg s 0 0)) = true →
    let c : WringerCommit := { mask := BitVec.ofNat 16 (arg s 0 0), captured := s.dev.wr.staged, from_ := instant s t + us 50 }
    Completes (.wrCommit t 0) s t 0 0 0 0 0 [.wr] (fun d => d.wr = { s.dev.wr with pending := some c })) ∧
  (∀ (s : State) (t : Time),
    StartsAwake s 0 →
    argBit s 0 1 0 = true →
    s.dev.wr.pending = none →
    Completes (.wrCommit t 0) s t 0 0 0 0 0 [.wr] (fun d => d.wr = { s.dev.wr with staged := d.wr.staged } ∧
      d.wr.staged.plans = s.dev.wr.live.plans ∧ d.wr.staged.frame = s.dev.wr.live.frame ∧ d.wr.staged.tachs = s.dev.wr.live.tachs ∧
      ∀ ch : Fin 16, d.wr.staged.vibs[ch] = if argBit s 0 0 ch.val = true then s.dev.wr.live.vibs[ch] else s.dev.wr.staged.vibs[ch])) ∧
  (∀ (s : State) (t : Time),
    StartsAwake s 0 →
    s.dev.wr.pending ≠ none →
    Refuses (.wrCommit t 0) s t 0 (if argBit s 0 1 0 = true then .busy else .stagedConflict))

/-- A frame boundary ends one frame and begins the next; a Wringer commit applies at one. (R24, R26, R28, R54, R156, R157, R168, R174, R175, R258,
R822, R948) -/
def Obligations.FrameBoundaries : Prop :=
  (∀ (s : State) (t : Time) (means : List (Nat × Nat)),
    (s.dev.pwr.state = .active ∨ s.dev.pwr.state = .watch) →
    s.dev.wr.running = true →
    ((here s t).dueNow = true ∨ (here s t).clockFalls = true) →
    s.dev.wr.start + us 20 ≤ instant s t →
    let w := s.dev.wr
    let cut := (here s t).frameTruncated
    let e : EndedFrame := { num := w.num, start := w.start, stop := instant s t, startStamp := w.startStamp, stopStamp := (here s t).stamp,
                            tref := (here s t).tref, truncated := cut, blanked := false, values := (here s t).bandValues means cut,
                            handedOff := false, counted := false, written := false }
    let i := Instr.frameBoundary t means
    Does i s t (touches i) (fun d =>
      d.wr = ({ w with ended := some e, num := w.num + 1, start := instant s t, startStamp := (here s t).stamp, prevLen := instant s t - w.start,
                       due := none, truncate := false, bridge := false, bandSettle := d.wr.bandSettle,
                           clocks := d.wr.clocks } : Wringer).countOn (instant s t) (here s t).dueNow ∧
      ∀ b : Basket, d.host.pages[b].irqPending[Irq.frame.bit] = true)) ∧
  (∀ (s : State) (t : Time) (means : List (Nat × Nat)),
    (s.dev.pwr.state = .active ∨ s.dev.pwr.state = .watch) →
    s.dev.wr.running = true →
    ((here s t).dueNow = true ∨ (here s t).clockFalls = true) →
    s.dev.wr.start + us 20 ≤ instant s t →
    (∀ h : Fin 16, s.dev.models[h] = none) →
    let k := s.dev.wr.num
    let a := 0x2000 + k % 2 * 0x400
    let e : Ev := { event := .frameEnd, data0 := k % 65536, data1 := (here s t).frameTruncated.toNat }
    Does (.frameBoundary t means) s t [.host, .fe, .tachs, .wr, .rinse, .spool, .sram] (fun d =>
      d.host = (((here s t).postAll e).raise everyBasket .frame).host ∧
      d.sram.bytes (a + 0x300) 8 = w64 k ∧ d.sram.bytes a 0x300 = s.dev.rinse.chains.toList.flatMap (fun c => c.detectorBytes (instant s t)) ∧
      UnchangedOutside s.dev.sram d.sram a 0x308)) ∧
  (∀ (s : State) (t : Time) (means : List (Nat × Nat)),
    (s.dev.pwr.state = .active ∨ s.dev.pwr.state = .watch) →
    s.dev.wr.running = true →
    ((here s t).dueNow = true ∨ (here s t).clockFalls = true) →
    instant s t < s.dev.wr.start + us 20 →
    let w := s.dev.wr
    let mark := w.truncate || w.bridge || (w.live.frame.source == .angle && w.fallback)
    Does (.frameBoundary t means) s t [.wr] (fun d =>
      d.wr = { w.countOn (instant s t) (here s t).dueNow with due := none, truncate := mark, bridge := false })) ∧
  (∀ (s : State) (t : Time) (means : List (Nat × Nat)),
    ((here s t).dueNow = false ∧ (here s t).clockFalls = false) →
    Does (.frameBoundary t means) s t [] (fun _ => True)) ∧
  (∀ (s : State) (t : Time) (c : WringerCommit),
    (s.dev.pwr.state = .active ∨ s.dev.pwr.state = .watch) →
    s.dev.wr.running = true →
    s.dev.wr.pending = some c →
    s.dev.wr.start = instant s t →
    c.from_ ≤ instant s t →
    let live := s.dev.wr.live
    let e : Ev := { event := .commitApplied, subject := 1, data0 := c.mask.toNat }
    Does (.wringerCommitApply t) s t [.host, .fe, .tachs, .wr, .guard] (fun d =>
      d.wr.pending = none ∧ d.wr.staged = s.dev.wr.staged ∧ d.wr.num = s.dev.wr.num ∧ d.wr.live.plans = c.captured.plans ∧
      d.wr.live.frame = c.captured.frame ∧ d.wr.live.tachs = c.captured.tachs ∧
      (∀ ch : Fin 16, d.wr.live.vibs[ch] = if c.mask[ch] = true then c.captured.vibs[ch] else live.vibs[ch]) ∧
      (∀ i : Fin 4, live.tachs[i].reconfigures c.captured.tachs[i] = false → d.tachs[i] = s.dev.tachs[i]) ∧
      (∀ ch : Fin 16, (c.mask[ch] = false ∨ (c.captured.vibs[ch].gain = live.vibs[ch].gain ∧ c.captured.vibs[ch].ac = live.vibs[ch].ac)) →
        d.fe[ch.val] = s.dev.fe[ch.val]) ∧
      ((∀ i : Fin 4, live.tachs[i].reconfigures c.captured.tachs[i] = false) → d.host = ((here s t).postAll e).host))) ∧
  (∀ (s : State) (t : Time),
    (s.dev.wr.start ≠ instant s t ∨ s.dev.wr.pending = none) →
    Does (.wringerCommitApply t) s t [] (fun _ => True))

/-- The readout of an ended frame: pulses at the handoff, counts, then timestamps and number. (R29, R31, R32, R158, R159, R161, R163, R164, R165,
R167, R168, log entry 12) -/
def Obligations.Readout : Prop :=
  (∀ (s : State) (t : Time) (e : EndedFrame),
    (s.dev.pwr.state = .active ∨ s.dev.pwr.state = .watch) →
    s.dev.wr.ended = some e →
    e.handedOff = false →
    e.stop + ns 1400 ≤ instant s t →
    instant s t ≤ e.stop + ns 1600 →
    e.values.length = 512 →
    let word := fun (d : Dev) (f : Nat) => d.sram.value (recordAddr e.num f) 4
    Does (.handoff t) s t [.wr, .tiles, .models, .spool, .sram, .free] (fun d =>
      d.wr = { s.dev.wr with ended := some { e with handedOff := true }, clips := d.wr.clips } ∧
      UnchangedOutside s.dev.sram d.sram (recordAddr e.num 0) 2048 ∧
      (∀ ch : Fin 16, d.wr.clips[ch] = s.dev.wr.clips[ch] + BitVec.ofNat 32 ((List.range 32).filter (fun i =>
        (e.values[32 * ch.val + i]?).any (fun v => v.enabled && !v.count && bit (word d (32 * ch.val + i)) 2))).length) ∧
      ∀ (f : Fin 512), ∀ v ∈ e.values[f.val]?,
        (v.enabled = false → word d f.val = 0) ∧
        (v.enabled = true → v.count = true → word d f.val = word s.dev f.val) ∧
        (v.enabled = true → v.count = false → e.blanked = true → word d f.val = 16) ∧
        (v.enabled = true → v.count = false → e.blanked = false →
          5 * (((word d f.val / 256 * 2 ^ 32 : Nat) : Int) - (e.pulse v : Nat)).natAbs ≤ 3 * 2 ^ 32 ∧
          word d f.val / 256 ≤ 255 ∧ word d f.val % 256 = 64 + (addClip v.flags (e.pulseClips v)).toNat))) ∧
  (∀ (s : State) (t : Time) (e : EndedFrame) (h : Handle),
    s.dev.wr.ended = some e →
    ((s.dev.models[h]).bind (·.run)).any (fun r => r.frame == e.num) = false →
    Does (.handoff t) s t [.wr, .tiles, .models, .spool, .sram, .free] (fun d => d.models[h] = s.dev.models[h])) ∧
  (∀ (s : State) (t : Time) (e : EndedFrame),
    (s.dev.pwr.state = .active ∨ s.dev.pwr.state = .watch) →
    s.dev.wr.ended = some e →
    e.counted = false →
    instant s t ≤ e.stop + us 12 →
    e.values.length = 512 →
    let word := fun (d : Dev) (f : Nat) => d.sram.value (recordAddr e.num f) 4
    Does (.countModeReadout t) s t [.wr, .spool, .sram] (fun d =>
      d.wr = { s.dev.wr with ended := some { e with counted := true }, clips := d.wr.clips } ∧
      UnchangedOutside s.dev.sram d.sram (recordAddr e.num 0) 2048 ∧
      (∀ ch : Fin 16, d.wr.clips[ch] = s.dev.wr.clips[ch] + BitVec.ofNat 32 ((List.range 32).filter (fun i =>
        (e.values[32 * ch.val + i]?).any (fun v => v.enabled && v.count && bit (word d (32 * ch.val + i)) 2))).length) ∧
      ∀ (f : Fin 512), ∀ v ∈ e.values[f.val]?,
        (v.enabled = false ∨ v.count = false → word d f.val = word s.dev f.val) ∧
        (v.enabled = true → v.count = true → e.blanked = true → word d f.val = 48) ∧
        (v.enabled = true → v.count = true → e.blanked = false →
          d.sram.bytes (recordAddr e.num f.val) 4 = bandRecord (e.countWord v).1 true true (addClip v.flags (e.countWord v).2)))) ∧
  (∀ (s : State) (t : Time) (e : EndedFrame),
    (s.dev.pwr.state = .active ∨ s.dev.pwr.state = .watch) →
    s.dev.wr.ended = some e →
    e.handedOff = true →
    e.counted = true →
    e.written = false →
    instant s t ≤ e.stop + us 12 →
    let a := e.num % 2 * 0x1000 + 0x800
    Does (.featureFrameWritten t) s t [.wr, .spool, .sram] (fun d =>
      d.wr = { s.dev.wr with ended := some { e with written := true } } ∧ UnchangedOutside s.dev.sram d.sram a 24 ∧
      d.sram.bytes a 8 = w64 e.startStamp.toNat ∧ d.sram.bytes (a + 8) 8 = w64 e.stopStamp.toNat ∧ d.sram.bytes (a + 16) 8 = w64 e.num)) ∧
  (∀ (s : State) (t : Time) (e : EndedFrame),
    s.dev.wr.ended = some e →
    (instant s t < e.stop + ns 1400 ∨ e.handedOff = true) →
    (e.counted = true ∨ e.stop + us 12 < instant s t) →
    (e.written = true ∨ e.stop + us 12 < instant s t) →
    Does (.handoff t) s t [] (fun _ => True) ∧ Does (.countModeReadout t) s t [] (fun _ => True) ∧
        Does (.featureFrameWritten t) s t [] (fun _ => True))

/-- The sixteen commands marked block store their report and answer its length. (R77, R131, R274, R332, R440, R476, R497, R569, R570, R631, R817,
Table 16-3) -/
def Obligations.BlockReports : Prop :=
  (∀ (s : State) (t : Time) (l : Fin 4),
    let line := s.dev.teds.lines[l]
    let items := w32 line.overwrites.toNat ++ line.log.flatMap TedsEntry.bytes ++ List.replicate (24 * (16 - line.log.length)) 0
    StartsAwake s 0 →
    arg s 0 0 = l.val →
    Room s 0 items.length →
    Reports (.tedsLog t 0) s t 0 items) ∧
  (∀ (s : State) (t : Time) (b : Basket) (i : Fin 4),
    let items := (here s t).tachReport i
    Starts s b →
    Held s b .tachs i.val →
    arg s b 0 = i.val →
    Room s b items.length →
    Reports (.tachStatus t b) s t b items) ∧
  (∀ (s : State) (t : Time) (b : Basket) (ch : Fin 16),
    let set := if argBit s b 1 0 = true then s.dev.wr.staged else s.dev.wr.live
    let v := set.vibs[ch]
    let pending := s.dev.wr.pending.any (fun p => p.mask[ch])
    let items := w32 v.plan.val ++ w32 v.count.toNat ++ w32 s.dev.wr.clips[ch].toNat ++ w32 pending.toNat ++ w32 v.gain ++ w32 v.ac.toNat
    Starts s b →
    Held s b .channels ch.val →
    arg s b 0 = ch.val →
    Room s b items.length →
    Reports (.wrStatus t b) s t b items) ∧
  (∀ (s : State) (t : Time) (b : Basket) (pos : Fin 24),
    let c := s.dev.rinse.chains[pos]
    let items := ringReport s.dev.free c.rings[b] ++ w64 c.epochIn.toNat ++ w64 c.epochOut.toNat ++ w64 c.totalIn.toNat ++ w64 c.skipped.toNat ++
      w64 c.totalOut.toNat ++ w32 (packBits [c.pending.isSome, c.swapArmed]) ++ c.settingsReport (argBit s b 1 0) s.dev.rinse.source
    StartsAwake s b →
    Held s b .channels pos.val →
    arg s b 0 = pos.val →
    Room s b items.length →
    Reports (.rnStatus t b) s t b items) ∧
  (∀ (s : State) (t : Time) (b : Basket) (i : Fin 48),
    let items := (here s t).prReport i
    StartsAwake s b →
    Held s b .tiles i.val →
    arg s b 0 = i.val →
    Room s b items.length →
    Reports (.prStatus t b) s t b items) ∧
  (∀ (s : State) (t : Time) (b : Basket) (i : Fin 48),
    let items := s.dev.tiles[i].report
    StartsAwake s b →
    Held s b .tiles i.val →
    arg s b 0 = i.val →
    Room s b items.length →
    Reports (.tileStatus t b) s t b items) ∧
  (∀ (s : State) (t : Time) (b : Basket) (h : Handle) (m : Model),
    let learning := m.learn.map (fun l => l.state.number)
    let items := w32 m.image.modelId.toNat ++ w32 m.state.number ++ w32 m.firstUnit ++ w32 m.unitCount ++ w32 m.wUs ++ w32 m.tags ++ w32 m.margin ++
      w32 (learning.getD (Config.noLearnState s.dev.free))
    StartsAwake s b →
    s.dev.models[h] = some m →
    m.basket = b →
    arg s b 0 = h.val →
    Room s b items.length →
    Reports (.mdStatus t b) s t b items) ∧
  (∀ (s : State) (t : Time) (b : Basket) (c : Basket),
    let items := s.dev.spool.device.report s.dev.spool.inFlight ++ s.dev.spool.baskets[c].report (s.dev.spool.inFlightOf c)
    StartsAwake s b →
    arg s b 0 = c.val →
    (b = 0 ∨ c = b) →
    Room s b items.length →
    Reports (.spLedger t b) s t b items) ∧
  (∀ (s : State) (t : Time) (b : Basket) (e : Fin 4),
    let v := s.dev.spool.engines[e]
    let idle := w32 (Config.idleWord s.dev.free) ++ w32 (Config.idleWord (s.dev.free + 1))
    let working := (v.busy.map (fun x => w32 x.1.val ++ w32 x.2.1)).getD idle
    let items := working ++ w64 v.descriptors.toNat ++ w64 (v.cycles.toNat + (here s t).busyCycles v)
    StartsAwake s b →
    arg s b 0 = e.val →
    Room s b items.length →
    Reports (.veStatus t b) s t b items) ∧
  (∀ (s : State) (t : Time) (b : Basket) (h : Handle),
    let items := (here s t).lnReport h
    StartsAwake s b →
    Machine.Dev.ownsHandle s.dev b h.val = true →
    arg s b 0 = h.val →
    Room s b items.length →
    Reports (.lnStatus t b) s t b items) ∧
  (∀ (s : State) (t : Time) (b : Basket),
    let items := (here s t).psReport b
    StartsAwake s b →
    Room s b items.length →
    Reports (.psStatus t b) s t b items) ∧
  (∀ (s : State) (t : Time) (b : Basket) (e : Entry),
    let items := w32 e.log.length ++ e.log.flatMap PatchLog.bytes
    StartsAwake s b →
    (here s t).namedEntry b (arg32 s b 0) = some e →
    Room s b items.length →
    Reports (.psLog t b) s t b items) ∧
  (∀ (s : State) (t : Time) (b : Basket),
    let items := (here s t).linkReport (argBit s b 1 0)
    StartsAwake s b →
    Room s b items.length →
    Reports (.lkStatus t b) s t b items) ∧
  (∀ (s : State) (t : Time) (b : Basket) (p : Fin 64),
    let items := s.dev.link.partners[p].report
    StartsAwake s b →
    arg s b 0 = p.val + 1 →
    Room s b items.length →
    Reports (.lkPartners t b) s t b items) ∧
  (∀ (s : State) (t : Time),
    let items := (here s t).linkLogReport
    StartsAwake s 0 →
    Room s 0 items.length →
    Reports (.lkLog t 0) s t 0 items) ∧
  (∀ (s : State) (t : Time) (c : Basket),
    let items := (here s t).basketReport c
    Starts s 0 →
    arg s 0 0 = c.val →
    Room s 0 items.length →
    Reports (.bkStatus t 0) s t 0 items) ∧
  (∀ (s : State) (t : Time) (b : Basket),
    Starts s b →
    s.dev.grants[b].unit (unitOf (arg32 s b 6)) = false →
    arg s b 0 = 1 →
    b = 0 →
    ∀ x ∈ [(Instr.tedsLog t b, (0x0209 : Word)), (.tachStatus t b, 0x020D), (.wrStatus t b, 0x0214), (.rnStatus t b, 0x040E), (.prStatus t b, 0x0506),
            (.tileStatus t b, 0x0507), (.spLedger t b, 0x0612), (.veStatus t b, 0x0614), (.psStatus t b, 0x0711), (.lkStatus t b, 0x0804),
            (.lkPartners t b, 0x0805), (.lkLog t b, 0x080C), (.bkStatus t b, 0x0A03), (.mdStatus t b, 0x0604), (.lnStatus t b, 0x0701), (.psLog t b,
                0x0712)],
      NoSuch x.1 s t b x.2)

/-- THM_SET, THM_SET_TRIP and THM_STATUS. (R185, R190, R191, R196, R200, R202, R203, R206, R223, R233, Table 16-6) -/
def Obligations.ThimbleCommands : Prop :=
  (∀ (s : State) (t : Time) (b : Basket) (i : Fin 32),
    let new : CompSet := { enabled := argBit s b 1 0,
                           source := if arg s b 1 / 2 % 4 = 0 then .channel else if arg s b 1 / 2 % 4 = 1 then .band else .envelope,
                           vib := Fin.ofNat 16 (arg s b 2 % 16), band := Fin.ofNat 32 (arg s b 2 / 256 % 32), low := arg s b 3, high := arg s b 4,
                           hyst := arg s b 5, sampled := argBit s b 1 3, tickKeep := argBit s b 1 4, divider := arg s b 6,
                               maskAbove := argBit s b 1 5,
                           maskBelow := argBit s b 1 6, nextPeriod := argBit s b 1 7, wake := argBit s b 1 8 }
    let c := s.dev.guard.comps[i]
    Starts s b →
    arg s b 0 = i.val →
    Held s b .comparators i.val →
    arg s b 1 / 2 % 4 ≤ 2 →
    (i.val < 24 ↔ new.source = .channel) →
    (new.source ≠ .channel → Held s b .channels new.vib.val) →
    (new.high ≤ 1023 ∧ new.hyst ≤ 63 ∧ new.low < new.high ∧ 2 * new.hyst < new.high - new.low) →
    (new.maskAbove = true ∨ new.maskBelow = true) →
    (new.tickKeep = true → 1 ≤ new.divider ∧ new.divider ≤ 32) →
    (new.tickKeep = false → 50 ≤ new.divider ∧ new.divider ≤ 49152) →
    (new.enabled = true → new.source = .band → s.dev.directMode new.vib.val = true) →
    new.enabled = false →
    Completes (.thmSet t b) s t b 0 0 0 0 [.guard] (fun d =>
      d.guard = { s.dev.guard with comps := s.dev.guard.comps.set i.val { c with set := new, waiting := none, state := .inside, evaluated := false,
                                                                                 warmUp := false, warmUpTick := none } })) ∧
  (∀ (s : State) (t : Time) (b : Basket) (i : Fin 32),
    let new : CompSet := { enabled := argBit s b 1 0,
                           source := if arg s b 1 / 2 % 4 = 0 then .channel else if arg s b 1 / 2 % 4 = 1 then .band else .envelope,
                           vib := Fin.ofNat 16 (arg s b 2 % 16), band := Fin.ofNat 32 (arg s b 2 / 256 % 32), low := arg s b 3, high := arg s b 4,
                           hyst := arg s b 5, sampled := argBit s b 1 3, tickKeep := argBit s b 1 4, divider := arg s b 6,
                               maskAbove := argBit s b 1 5,
                           maskBelow := argBit s b 1 6, nextPeriod := argBit s b 1 7, wake := argBit s b 1 8 }
    let c := s.dev.guard.comps[i]
    Starts s b →
    arg s b 0 = i.val →
    Held s b .comparators i.val →
    arg s b 1 / 2 % 4 ≤ 2 →
    (i.val < 24 ↔ new.source = .channel) →
    (new.source ≠ .channel → Held s b .channels new.vib.val) →
    (new.high ≤ 1023 ∧ new.hyst ≤ 63 ∧ new.low < new.high ∧ 2 * new.hyst < new.high - new.low) →
    (new.maskAbove = true ∨ new.maskBelow = true) →
    (new.tickKeep = true → 1 ≤ new.divider ∧ new.divider ≤ 32) →
    (new.tickKeep = false → 50 ≤ new.divider ∧ new.divider ≤ 49152) →
    (new.enabled = true → new.source = .band → s.dev.directMode new.vib.val = true) →
    new.enabled = true →
    (c.set.enabled = false ∨ new.source ≠ c.set.source ∨ new.sampled ≠ c.set.sampled ∨ new.tickKeep ≠ c.set.tickKeep ∨ new.divider ≠ c.set.divider) →
    Completes (.thmSet t b) s t b 0 0 0 0 [.guard] (fun d =>
      d.guard = { s.dev.guard with comps := s.dev.guard.comps.set i.val { c with set := new, waiting := none, evaluated := c.evaluated &&
                                                                                 c.set.enabled, warmUp := true, warmUpTick := none } })) ∧
  (∀ (s : State) (t : Time) (b : Basket) (i : Fin 32),
    let new : CompSet := { enabled := argBit s b 1 0,
                           source := if arg s b 1 / 2 % 4 = 0 then .channel else if arg s b 1 / 2 % 4 = 1 then .band else .envelope,
                           vib := Fin.ofNat 16 (arg s b 2 % 16), band := Fin.ofNat 32 (arg s b 2 / 256 % 32), low := arg s b 3, high := arg s b 4,
                           hyst := arg s b 5, sampled := argBit s b 1 3, tickKeep := argBit s b 1 4, divider := arg s b 6,
                               maskAbove := argBit s b 1 5,
                           maskBelow := argBit s b 1 6, nextPeriod := argBit s b 1 7, wake := argBit s b 1 8 }
    let c := s.dev.guard.comps[i]
    Starts s b →
    arg s b 0 = i.val →
    Held s b .comparators i.val →
    arg s b 1 / 2 % 4 ≤ 2 →
    (i.val < 24 ↔ new.source = .channel) →
    (new.source ≠ .channel → Held s b .channels new.vib.val) →
    (new.high ≤ 1023 ∧ new.hyst ≤ 63 ∧ new.low < new.high ∧ 2 * new.hyst < new.high - new.low) →
    (new.maskAbove = true ∨ new.maskBelow = true) →
    (new.tickKeep = true → 1 ≤ new.divider ∧ new.divider ≤ 32) →
    (new.tickKeep = false → 50 ≤ new.divider ∧ new.divider ≤ 49152) →
    (new.enabled = true → new.source = .band → s.dev.directMode new.vib.val = true) →
    new.enabled = true →
    c.set.warms new = false →
    new.sampled = false →
    s.dev.pwr.state ≠ .watch →
    new.present c.state = false →
    Completes (.thmSet t b) s t b 0 0 0 0 [.guard] (fun d =>
      d.guard = { s.dev.guard with comps := s.dev.guard.comps.set i.val { c with set := new, waiting := none } })) ∧
  (∀ (s : State) (t : Time) (b : Basket) (i : Fin 32),
    let new : CompSet := { enabled := argBit s b 1 0,
                           source := if arg s b 1 / 2 % 4 = 0 then .channel else if arg s b 1 / 2 % 4 = 1 then .band else .envelope,
                           vib := Fin.ofNat 16 (arg s b 2 % 16), band := Fin.ofNat 32 (arg s b 2 / 256 % 32), low := arg s b 3, high := arg s b 4,
                           hyst := arg s b 5, sampled := argBit s b 1 3, tickKeep := argBit s b 1 4, divider := arg s b 6,
                               maskAbove := argBit s b 1 5,
                           maskBelow := argBit s b 1 6, nextPeriod := argBit s b 1 7, wake := argBit s b 1 8 }
    let c := s.dev.guard.comps[i]
    Starts s b →
    arg s b 0 = i.val →
    Held s b .comparators i.val →
    arg s b 1 / 2 % 4 ≤ 2 →
    (i.val < 24 ↔ new.source = .channel) →
    (new.source ≠ .channel → Held s b .channels new.vib.val) →
    (new.high ≤ 1023 ∧ new.hyst ≤ 63 ∧ new.low < new.high ∧ 2 * new.hyst < new.high - new.low) →
    (new.maskAbove = true ∨ new.maskBelow = true) →
    (new.tickKeep = true → 1 ≤ new.divider ∧ new.divider ≤ 32) →
    (new.tickKeep = false → 50 ≤ new.divider ∧ new.divider ≤ 49152) →
    (new.enabled = true → new.source = .band → s.dev.directMode new.vib.val = true) →
    new.enabled = true →
    c.set.warms new = false →
    (new.sampled = true ∨ s.dev.pwr.state = .watch) →
    Completes (.thmSet t b) s t b 0 0 0 0 [.guard] (fun d =>
      d.guard = { s.dev.guard with comps := s.dev.guard.comps.set i.val { c with set := { c.set with wake := new.wake }, waiting := some new } })) ∧
  (∀ (s : State) (t : Time) (o : Fin 8),
    let m : BitVec 32 := BitVec.ofNat 32 (arg32 s 0 1)
    Starts s 0 →
    arg s 0 0 = o.val →
    (∀ i : Fin 32, m[i] = true → s.dev.maskable o i.val = true) →
    ((∀ i : Fin 32, m[i] = true → s.dev.guard.comps[i].latch = false) ∨ s.dev.tripInput o = true) →
    Completes (.thmSetTrip t 0) s t 0 0 0 0 0 [.guard] (fun d =>
      d.guard = { s.dev.guard with tripMasks := s.dev.guard.tripMasks.set o.val m })) ∧
  (∀ (s : State) (t : Time) (o : Fin 8) (i : Fin 32),
    let m : BitVec 32 := BitVec.ofNat 32 (arg32 s 0 1)
    Starts s 0 →
    arg s 0 0 = o.val →
    (∀ j : Fin 32, m[j] = true → s.dev.maskable o j.val = true) →
    m[i] = true →
    s.dev.guard.comps[i].latch = true →
    s.dev.tripInput o = false →
    s.dev.guard.outs[o].firing = none →
    (∀ c : Basket, s.dev.guard.held[c] = none) →
    let x := { s.dev.guard.outs[o] with tripped := true, armed := false, tripStatus := true, tripSetAt := instant s t, reason := .thimble,
                                        trips := s.dev.guard.outs[o].trips + 1 }
    let held := fun g : Grants => g.outputs[o]
    let e : Ev := { event := .trip, subject := o.val, data0 := 1, data1 := (s.dev.guard.outs[o].trips + 1).toNat % 65536 }
    CompletesOver (((here s t).raise ((here s t).holdersOnly held) .trip).postHeld held e).host (.thmSetTrip t 0) s t 0 0 0 0 0 [.guard] (fun d =>
      d.guard = { s.dev.guard with tripMasks := s.dev.guard.tripMasks.set o.val m, outs := s.dev.guard.outs.set o.val x })) ∧
  (∀ (s : State) (t : Time) (b : Basket) (i : Fin 32),
    Starts s b →
    arg s b 0 = i.val →
    Held s b .comparators i.val →
    let c := s.dev.guard.comps[i]
    let n := c.state.number + 4 * packBits [c.latch, c.set.enabled, c.warmUp]
    Completes (.thmStatus t b) s t b (BitVec.ofNat 16 n) (BitVec.ofNat 16 c.latches.toNat) (BitVec.ofNat 16 (c.latches.toNat / 65536)) 0 [] (fun _ => True))

/-- A comparator follows its input; a new condition sets its latch, counts, posts and trips. (R186, R187, R191, R192, R193, R194, R195, R196, R198,
R200, R201, R205) -/
def Obligations.ThimbleEvents : Prop :=
  (∀ (s : State) (t : Time) (i : Fin 32) (v : Int),
    let c := s.dev.guard.comps[i]
    let src := if c.set.source = .envelope then c.set.vib.val else i.val
    let u := (here s t).bandLevel c v
    let scale := (s.dev.watchedBand c.set).scale
    let beyond := fun (k : Int) => if c.set.source = .band then k * 2 ^ 32 < u * 1020 * 2 ^ scale else (k - 512) * (scaleNv src : Int) < 512 * (v * s.dev.gainOf src)
    let beneath := fun (k : Int) => if c.set.source = .band then u * 1020 * 2 ^ scale < k * 2 ^ 32 else 512 * (v * s.dev.gainOf src) < (k - 512) * (scaleNv src : Int)
    let next := if c.evaluated = false ∨ c.state = .inside then (if beyond c.set.high then CompState.above else if beneath c.set.low then .below else .inside)
      else if c.state = .above then (if beneath c.set.low then .below else if beneath ((c.set.high : Int) - c.set.hyst) then .inside else .above)
      else (if beyond c.set.high then .above else if beyond ((c.set.low : Int) + c.set.hyst) then .inside else .below)
    let stood := if (s.dev.bandLost c.set).isSome = true then some u else none
    let shown := fun (st : CompState) => (st = .above ∧ c.set.maskAbove = true) ∨ (st = .below ∧ c.set.maskBelow = true)
    s.dev.pwr.state ≠ .off →
    s.dev.pwr.state ≠ .reset →
    c.set.enabled = true →
    (c.set.sampled = false ∧ s.dev.pwr.state ≠ .watch) →
    (here s t).compHeld i = false →
    c.warmUp = false →
    c.latch = false →
    shown next →
    ¬ shown c.state →
    (∀ o : Fin 8, s.dev.guard.tripMasks[o][i] = false) →
    (∀ (pos : Fin 24) (b : Basket), ∀ r ∈ (s.dev.rinse.chains[pos]).rings[b], (s.dev.grants[b]).comparators[i] = true → r.comp = some i →
        r.total = 0 ∨ r.newest ≠ (here s t).stamp) →
    let x := { c with state := next, evaluated := true, stood := stood, latch := true, latchFrom := instant s t, latchSetAt := instant s t,
                      latches := c.latches + 1 }
    let held := fun g : Grants => g.comparators[i]
    let e : Ev := { event := .thimble, subject := i.val, data0 := next.number, data1 := (c.latches + 1).toNat % 65536 }
    Does (.thimbleCrossing t i v) s t [.pwr, .host, .guard, .rinse] (fun d =>
      d.guard = { s.dev.guard with comps := s.dev.guard.comps.set i.val x } ∧
      d.host = (((here s t).raise ((here s t).holdersOnly held) .thimble).post ((here s t).holders held) (here s t).stamp e).host ∧
      d.pwr = (if c.set.wake = true then (here s t).wakeBy 0 else here s t).pwr ∧
      ∀ (pos : Fin 24) (b : Basket), ∀ r ∈ (s.dev.rinse.chains[pos]).rings[b], (d.rinse.chains[pos]).rings[b] =
        some (if (s.dev.grants[b]).comparators[i] = true ∧ r.comp = some i ∧ r.state = .running ∧ r.mode = .triggered ∧ r.trigAt = none then
          { r with trigAt := some (instant s t) } else r))) ∧
  (∀ (s : State) (t : Time) (i : Fin 32) (v : Int),
    let c := s.dev.guard.comps[i]
    let src := if c.set.source = .envelope then c.set.vib.val else i.val
    let u := (here s t).bandLevel c v
    let scale := (s.dev.watchedBand c.set).scale
    let beyond := fun (k : Int) => if c.set.source = .band then k * 2 ^ 32 < u * 1020 * 2 ^ scale else (k - 512) * (scaleNv src : Int) < 512 * (v * s.dev.gainOf src)
    let beneath := fun (k : Int) => if c.set.source = .band then u * 1020 * 2 ^ scale < k * 2 ^ 32 else 512 * (v * s.dev.gainOf src) < (k - 512) * (scaleNv src : Int)
    let next := if c.evaluated = false ∨ c.state = .inside then (if beyond c.set.high then CompState.above else if beneath c.set.low then .below else .inside)
      else if c.state = .above then (if beneath c.set.low then .below else if beneath ((c.set.high : Int) - c.set.hyst) then .inside else .above)
      else (if beyond c.set.high then .above else if beyond ((c.set.low : Int) + c.set.hyst) then .inside else .below)
    let stood := if (s.dev.bandLost c.set).isSome = true then some u else none
    let shown := fun (st : CompState) => (st = .above ∧ c.set.maskAbove = true) ∨ (st = .below ∧ c.set.maskBelow = true)
    s.dev.pwr.state ≠ .off →
    s.dev.pwr.state ≠ .reset →
    c.set.enabled = true →
    (c.set.sampled = false ∧ s.dev.pwr.state ≠ .watch) →
    (here s t).compHeld i = false →
    (¬ shown next ∨ shown c.state) →
    Does (.thimbleCrossing t i v) s t [.guard] (fun d =>
      d.guard = { s.dev.guard with comps := s.dev.guard.comps.set i.val { c with state := next, evaluated := true, stood := stood } })) ∧
  (∀ (s : State) (t : Time) (i : Fin 32) (v : Int),
    (here s t).compHeld i = true →
    Does (.thimbleCrossing t i v) s t [] (fun _ => True)) ∧
  (∀ (s : State) (t : Time) (i : Fin 32) (v : Int) (o : Fin 8),
    let c := s.dev.guard.comps[i]
    let src := if c.set.source = .envelope then c.set.vib.val else i.val
    let u := (here s t).bandLevel c v
    let scale := (s.dev.watchedBand c.set).scale
    let beyond := fun (k : Int) => if c.set.source = .band then k * 2 ^ 32 < u * 1020 * 2 ^ scale else (k - 512) * (scaleNv src : Int) < 512 * (v * s.dev.gainOf src)
    let beneath := fun (k : Int) => if c.set.source = .band then u * 1020 * 2 ^ scale < k * 2 ^ 32 else 512 * (v * s.dev.gainOf src) < (k - 512) * (scaleNv src : Int)
    let next := if c.evaluated = false ∨ c.state = .inside then (if beyond c.set.high then CompState.above else if beneath c.set.low then .below else .inside)
      else if c.state = .above then (if beneath c.set.low then .below else if beneath ((c.set.high : Int) - c.set.hyst) then .inside else .above)
      else (if beyond c.set.high then .above else if beyond ((c.set.low : Int) + c.set.hyst) then .inside else .below)
    let stood := if (s.dev.bandLost c.set).isSome = true then some u else none
    let shown := fun (st : CompState) => (st = .above ∧ c.set.maskAbove = true) ∨ (st = .below ∧ c.set.maskBelow = true)
    s.dev.pwr.state ≠ .off →
    s.dev.pwr.state ≠ .reset →
    c.set.enabled = true →
    (c.set.sampled = false ∧ s.dev.pwr.state ≠ .watch) →
    (here s t).compHeld i = false →
    c.warmUp = false →
    c.latch = false →
    shown next →
    ¬ shown c.state →
    Does (.thimbleCrossing t i v) s t [.pwr, .host, .guard, .rinse, .free] (fun d =>
      d.guard.comps[i].latch = true ∧ (∀ j : Fin 32, j ≠ i → d.guard.comps[j] = s.dev.guard.comps[j]) ∧
      (s.dev.guard.tripMasks[o][i] = false ∨ s.dev.tripInput o = true → d.guard.outs[o] = s.dev.guard.outs[o]) ∧
      (s.dev.guard.tripMasks[o][i] = true → s.dev.tripInput o = false →
        d.guard.outs[o] = { { s.dev.guard.outs[o] with tripped := true, armed := false, tripStatus := true, tripSetAt := instant s t,
                                                       reason := .thimble, trips := s.dev.guard.outs[o].trips + 1 } with firing := none }))) ∧
  (∀ (s : State) (t : Time) (i : Fin 32) (v : Int),
    let c := s.dev.guard.comps[i]
    let src := if c.set.source = .envelope then c.set.vib.val else i.val
    let u := (here s t).bandLevel c v
    let scale := (s.dev.watchedBand c.set).scale
    let beyond := fun (k : Int) => if c.set.source = .band then k * 2 ^ 32 < u * 1020 * 2 ^ scale else (k - 512) * (scaleNv src : Int) < 512 * (v * s.dev.gainOf src)
    let beneath := fun (k : Int) => if c.set.source = .band then u * 1020 * 2 ^ scale < k * 2 ^ 32 else 512 * (v * s.dev.gainOf src) < (k - 512) * (scaleNv src : Int)
    let next := if c.evaluated = false ∨ c.state = .inside then (if beyond c.set.high then CompState.above else if beneath c.set.low then .below else .inside)
      else if c.state = .above then (if beneath c.set.low then .below else if beneath ((c.set.high : Int) - c.set.hyst) then .inside else .above)
      else (if beyond c.set.high then .above else if beyond ((c.set.low : Int) + c.set.hyst) then .inside else .below)
    let stood := if (s.dev.bandLost c.set).isSome = true then some u else none
    let shown := fun (st : CompState) => (st = .above ∧ c.set.maskAbove = true) ∨ (st = .below ∧ c.set.maskBelow = true)
    s.dev.pwr.state ≠ .off →
    s.dev.pwr.state ≠ .reset →
    c.set.enabled = true →
    (c.set.sampled = true ∧ s.dev.pwr.fault ≠ some .clock) →
    c.waiting = none →
    (if c.set.tickKeep = true then (instant s t - s.dev.clk.origin) % (max 1 c.set.divider * 23437500) = 0 else (here s t).sampling = true ∧
        (here s t).onEdge = true ∧ (here s t).clk.edgeFrom (instant s t) % max 1 c.set.divider = 0) →
    (here s t).compHeld i = false →
    c.warmUp = false →
    c.latch = false →
    shown next →
    (∀ o : Fin 8, s.dev.guard.tripMasks[o][i] = false) →
    (∀ (pos : Fin 24) (b : Basket), ∀ r ∈ (s.dev.rinse.chains[pos]).rings[b], (s.dev.grants[b]).comparators[i] = true → r.comp = some i →
        r.total = 0 ∨ r.newest ≠ (here s t).stamp) →
    let x := { c with state := next, evaluated := true, stood := stood, latch := true, latchFrom := instant s t, latchSetAt := instant s t,
                      latches := c.latches + 1 }
    let held := fun g : Grants => g.comparators[i]
    let e : Ev := { event := .thimble, subject := i.val, data0 := next.number, data1 := (c.latches + 1).toNat % 65536 }
    Does (.thimbleTick t i v) s t [.pwr, .host, .guard, .rinse] (fun d =>
      d.guard = { s.dev.guard with comps := s.dev.guard.comps.set i.val x } ∧
      d.host = (((here s t).raise ((here s t).holdersOnly held) .thimble).post ((here s t).holders held) (if c.set.tickKeep = true then (here s t).keepStamp (instant s t) else (here s t).stamp) e).host ∧
      d.pwr = (if c.set.wake = true then (here s t).wakeBy 0 else here s t).pwr ∧
      ∀ (pos : Fin 24) (b : Basket), ∀ r ∈ (s.dev.rinse.chains[pos]).rings[b], (d.rinse.chains[pos]).rings[b] =
        some (if (s.dev.grants[b]).comparators[i] = true ∧ r.comp = some i ∧ r.state = .running ∧ r.mode = .triggered ∧ r.trigAt = none then
          { r with trigAt := some (instant s t) } else r))) ∧
  (∀ (s : State) (t : Time) (i : Fin 32) (v : Int),
    let c := s.dev.guard.comps[i]
    let src := if c.set.source = .envelope then c.set.vib.val else i.val
    let u := (here s t).bandLevel c v
    let scale := (s.dev.watchedBand c.set).scale
    let beyond := fun (k : Int) => if c.set.source = .band then k * 2 ^ 32 < u * 1020 * 2 ^ scale else (k - 512) * (scaleNv src : Int) < 512 * (v * s.dev.gainOf src)
    let beneath := fun (k : Int) => if c.set.source = .band then u * 1020 * 2 ^ scale < k * 2 ^ 32 else 512 * (v * s.dev.gainOf src) < (k - 512) * (scaleNv src : Int)
    let next := if c.evaluated = false ∨ c.state = .inside then (if beyond c.set.high then CompState.above else if beneath c.set.low then .below else .inside)
      else if c.state = .above then (if beneath c.set.low then .below else if beneath ((c.set.high : Int) - c.set.hyst) then .inside else .above)
      else (if beyond c.set.high then .above else if beyond ((c.set.low : Int) + c.set.hyst) then .inside else .below)
    let stood := if (s.dev.bandLost c.set).isSome = true then some u else none
    let shown := fun (st : CompState) => (st = .above ∧ c.set.maskAbove = true) ∨ (st = .below ∧ c.set.maskBelow = true)
    s.dev.pwr.state ≠ .off →
    s.dev.pwr.state ≠ .reset →
    c.set.enabled = true →
    (c.set.sampled = true ∧ s.dev.pwr.fault ≠ some .clock) →
    c.waiting = none →
    (if c.set.tickKeep = true then (instant s t - s.dev.clk.origin) % (max 1 c.set.divider * 23437500) = 0 else (here s t).sampling = true ∧
        (here s t).onEdge = true ∧ (here s t).clk.edgeFrom (instant s t) % max 1 c.set.divider = 0) →
    (here s t).compHeld i = false →
    ¬ shown next →
    c.set.nextPeriod = true →
    let tickAt := if c.warmUp = true ∧ c.warmUpTick = none then some (instant s t) else c.warmUpTick
    Does (.thimbleTick t i v) s t [.guard] (fun d =>
      d.guard = { s.dev.guard with comps := s.dev.guard.comps.set i.val { c with state := next, evaluated := true, stood := stood, latch := false,
                                                                                 warmUpTick := tickAt } })) ∧
  (∀ (s : State) (t : Time) (i : Fin 32) (v : Int) (w : CompSet),
    let c := s.dev.guard.comps[i]
    s.dev.pwr.state ≠ .off →
    s.dev.pwr.state ≠ .reset →
    c.set.enabled = true →
    (if c.set.tickKeep = true then (instant s t - s.dev.clk.origin) % (max 1 c.set.divider * 23437500) = 0 else (here s t).sampling = true ∧
        (here s t).onEdge = true ∧ (here s t).clk.edgeFrom (instant s t) % max 1 c.set.divider = 0) →
    c.waiting = some w →
    s.dev.pwr.fault ≠ some .clock →
    s.dev.pwr.state = .active →
    Does (.thimbleTick t i v) s t [.pwr, .host, .guard, .rinse, .free] (fun d =>
      d.guard.comps[i].set = w ∧ d.guard.comps[i].waiting = none ∧ ∀ j : Fin 32, j ≠ i → d.guard.comps[j] = s.dev.guard.comps[j])) ∧
  (∀ (s : State) (t : Time) (i : Fin 32) (v : Int),
    let c := s.dev.guard.comps[i]
    (¬ (if c.set.tickKeep = true then (instant s t - s.dev.clk.origin) % (max 1 c.set.divider * 23437500) = 0 else (here s t).sampling = true ∧
        (here s t).onEdge = true ∧ (here s t).clk.edgeFrom (instant s t) % max 1 c.set.divider = 0)) →
    Does (.thimbleTick t i v) s t [] (fun _ => True)) ∧
  (∀ (s : State) (t : Time) (i : Fin 32) (v : Int) (pos : Fin 24) (b : Basket) (r : Ring),
    let c := s.dev.guard.comps[i]
    let src := if c.set.source = .envelope then c.set.vib.val else i.val
    let u := (here s t).bandLevel c v
    let scale := (s.dev.watchedBand c.set).scale
    let beyond := fun (k : Int) => if c.set.source = .band then k * 2 ^ 32 < u * 1020 * 2 ^ scale else (k - 512) * (scaleNv src : Int) < 512 * (v * s.dev.gainOf src)
    let beneath := fun (k : Int) => if c.set.source = .band then u * 1020 * 2 ^ scale < k * 2 ^ 32 else 512 * (v * s.dev.gainOf src) < (k - 512) * (scaleNv src : Int)
    let next := if c.evaluated = false ∨ c.state = .inside then (if beyond c.set.high then CompState.above else if beneath c.set.low then .below else .inside)
      else if c.state = .above then (if beneath c.set.low then .below else if beneath ((c.set.high : Int) - c.set.hyst) then .inside else .above)
      else (if beyond c.set.high then .above else if beyond ((c.set.low : Int) + c.set.hyst) then .inside else .below)
    let stood := if (s.dev.bandLost c.set).isSome = true then some u else none
    let shown := fun (st : CompState) => (st = .above ∧ c.set.maskAbove = true) ∨ (st = .below ∧ c.set.maskBelow = true)
    s.dev.pwr.state ≠ .off →
    s.dev.pwr.state ≠ .reset →
    c.set.enabled = true →
    (c.set.sampled = false ∧ s.dev.pwr.state ≠ .watch) →
    (here s t).compHeld i = false →
    c.warmUp = false →
    c.latch = false →
    shown next →
    ¬ shown c.state →
    (s.dev.rinse.chains[pos]).rings[b] = some r →
    (s.dev.grants[b]).comparators[i] = true →
    r.comp = some i →
    r.state = .running →
    r.mode = .triggered →
    r.trigAt = none →
    r.total ≠ 0 →
    r.newest = (here s t).stamp →
    let k := (r.next + r.length - 1) % max 1 r.length
    let r' := { r with trigAt := some (instant s t) }
    Does (.thimbleCrossing t i v) s t [.pwr, .host, .guard, .rinse, .free] (fun d => (d.rinse.chains[pos]).rings[b] = some (
      if r.post = 0 then { r' with next := k, total := r.total - 1, state := .stopped }
      else if r.post = 1 then { r' with trigIndex := some k, postLeft := 0, state := .stopped }
      else { r' with trigIndex := some k, postLeft := r.post - 1, state := .post }))) ∧
  (∀ (s : State) (t : Time) (i : Fin 32) (v : Int),
    (s.dev.guard.comps[i]).set.enabled = false →
    Does (.thimbleCrossing t i v) s t [] (fun _ => True) ∧ Does (.thimbleTick t i v) s t [] (fun _ => True)) ∧
  (∀ (s : State) (t : Time) (i : Fin 32) (v : Int) (k : Time),
    let c := s.dev.guard.comps[i]
    let src := if c.set.source = .envelope then c.set.vib.val else i.val
    let u := (here s t).bandLevel c v
    let scale := (s.dev.watchedBand c.set).scale
    let beyond := fun (k : Int) => if c.set.source = .band then k * 2 ^ 32 < u * 1020 * 2 ^ scale else (k - 512) * (scaleNv src : Int) < 512 * (v * s.dev.gainOf src)
    let beneath := fun (k : Int) => if c.set.source = .band then u * 1020 * 2 ^ scale < k * 2 ^ 32 else 512 * (v * s.dev.gainOf src) < (k - 512) * (scaleNv src : Int)
    let next := if c.evaluated = false ∨ c.state = .inside then (if beyond c.set.high then CompState.above else if beneath c.set.low then .below else .inside)
      else if c.state = .above then (if beneath c.set.low then .below else if beneath ((c.set.high : Int) - c.set.hyst) then .inside else .above)
      else (if beyond c.set.high then .above else if beyond ((c.set.low : Int) + c.set.hyst) then .inside else .below)
    let stood := if (s.dev.bandLost c.set).isSome = true then some u else none
    let shown := fun (st : CompState) => (st = .above ∧ c.set.maskAbove = true) ∨ (st = .below ∧ c.set.maskBelow = true)
    s.dev.pwr.state ≠ .off →
    s.dev.pwr.state ≠ .reset →
    c.set.enabled = true →
    (c.set.sampled = false ∧ s.dev.pwr.state ≠ .watch) →
    (here s t).compHeld i = false →
    c.warmUp = true →
    c.warmUpTick = some k →
    k + ns 1500 ≤ instant s t →
    c.latch = false →
    shown next →
    (∀ o : Fin 8, s.dev.guard.tripMasks[o][i] = false) →
    (∀ (pos : Fin 24) (b : Basket), ∀ r ∈ (s.dev.rinse.chains[pos]).rings[b], (s.dev.grants[b]).comparators[i] = true → r.comp = some i →
        r.total = 0 ∨ r.newest ≠ (here s t).stamp) →
    let x := { c with state := next, evaluated := true, stood := stood, warmUp := false, warmUpTick := none, latch := true, latchFrom := instant s t,
                      latchSetAt := instant s t, latches := c.latches + 1 }
    let held := fun g : Grants => g.comparators[i]
    let e : Ev := { event := .thimble, subject := i.val, data0 := next.number, data1 := (c.latches + 1).toNat % 65536 }
    Does (.warmUpEnd t i v) s t [.pwr, .host, .guard, .rinse] (fun d =>
      d.guard = { s.dev.guard with comps := s.dev.guard.comps.set i.val x } ∧
      d.host = (((here s t).raise ((here s t).holdersOnly held) .thimble).post ((here s t).holders held) (here s t).stamp e).host ∧
      d.pwr = (if c.set.wake = true then (here s t).wakeBy 0 else here s t).pwr ∧
      ∀ (pos : Fin 24) (b : Basket), ∀ r ∈ (s.dev.rinse.chains[pos]).rings[b], (d.rinse.chains[pos]).rings[b] =
        some (if (s.dev.grants[b]).comparators[i] = true ∧ r.comp = some i ∧ r.state = .running ∧ r.mode = .triggered ∧ r.trigAt = none then
          { r with trigAt := some (instant s t) } else r))) ∧
  (∀ (s : State) (t : Time) (i : Fin 32) (v : Int) (k : Time),
    let c := s.dev.guard.comps[i]
    let src := if c.set.source = .envelope then c.set.vib.val else i.val
    let u := (here s t).bandLevel c v
    let scale := (s.dev.watchedBand c.set).scale
    let beyond := fun (k : Int) => if c.set.source = .band then k * 2 ^ 32 < u * 1020 * 2 ^ scale else (k - 512) * (scaleNv src : Int) < 512 * (v * s.dev.gainOf src)
    let beneath := fun (k : Int) => if c.set.source = .band then u * 1020 * 2 ^ scale < k * 2 ^ 32 else 512 * (v * s.dev.gainOf src) < (k - 512) * (scaleNv src : Int)
    let next := if c.evaluated = false ∨ c.state = .inside then (if beyond c.set.high then CompState.above else if beneath c.set.low then .below else .inside)
      else if c.state = .above then (if beneath c.set.low then .below else if beneath ((c.set.high : Int) - c.set.hyst) then .inside else .above)
      else (if beyond c.set.high then .above else if beyond ((c.set.low : Int) + c.set.hyst) then .inside else .below)
    let stood := if (s.dev.bandLost c.set).isSome = true then some u else none
    let shown := fun (st : CompState) => (st = .above ∧ c.set.maskAbove = true) ∨ (st = .below ∧ c.set.maskBelow = true)
    s.dev.pwr.state ≠ .off →
    s.dev.pwr.state ≠ .reset →
    c.set.enabled = true →
    (c.set.sampled = false ∧ s.dev.pwr.state ≠ .watch) →
    (here s t).compHeld i = false →
    c.warmUp = true →
    c.warmUpTick = some k →
    k + ns 1500 ≤ instant s t →
    ¬ shown next →
    Does (.warmUpEnd t i v) s t [.guard] (fun d =>
      d.guard = { s.dev.guard with comps := s.dev.guard.comps.set i.val { c with state := next, evaluated := true, stood := stood, warmUp := false,
                                                                                 warmUpTick := none } })) ∧
  (∀ (s : State) (t : Time) (i : Fin 32) (v : Int),
    let c := s.dev.guard.comps[i]
    (c.warmUp = false ∨ (∀ k ∈ c.warmUpTick, instant s t < k + ns 1500)) →
    Does (.warmUpEnd t i v) s t [] (fun _ => True)) ∧
  (∀ (s : State) (t : Time) (i : Fin 32) (v : Int),
    let c := s.dev.guard.comps[i]
    let src := if c.set.source = .envelope then c.set.vib.val else i.val
    let u := (here s t).bandLevel c v
    let scale := (s.dev.watchedBand c.set).scale
    let beyond := fun (k : Int) => if c.set.source = .band then k * 2 ^ 32 < u * 1020 * 2 ^ scale else (k - 512) * (scaleNv src : Int) < 512 * (v * s.dev.gainOf src)
    let beneath := fun (k : Int) => if c.set.source = .band then u * 1020 * 2 ^ scale < k * 2 ^ 32 else 512 * (v * s.dev.gainOf src) < (k - 512) * (scaleNv src : Int)
    let next := if c.evaluated = false ∨ c.state = .inside then (if beyond c.set.high then CompState.above else if beneath c.set.low then .below else .inside)
      else if c.state = .above then (if beneath c.set.low then .below else if beneath ((c.set.high : Int) - c.set.hyst) then .inside else .above)
      else (if beyond c.set.high then .above else if beyond ((c.set.low : Int) + c.set.hyst) then .inside else .below)
    let stood := if (s.dev.bandLost c.set).isSome = true then some u else none
    let shown := fun (st : CompState) => (st = .above ∧ c.set.maskAbove = true) ∨ (st = .below ∧ c.set.maskBelow = true)
    s.dev.pwr.state ≠ .off →
    s.dev.pwr.state ≠ .reset →
    c.set.enabled = true →
    (c.set.sampled = false ∧ s.dev.pwr.state ≠ .watch) →
    c.holdUntil ≠ 0 →
    c.holdUntil ≤ instant s t →
    (∀ pos : Fin 24, pos.val = i.val → s.dev.fe[pos].cal = none) →
    (¬ shown next ∨ shown c.state) →
    Does (.gainHoldEnd t i v) s t [.guard] (fun d =>
      d.guard = { s.dev.guard with comps := s.dev.guard.comps.set i.val { c with state := next, evaluated := true, stood := stood,
                                                                                 holdUntil := 0 } })) ∧
  (∀ (s : State) (t : Time) (i : Fin 32) (v : Int),
    ((s.dev.guard.comps[i]).holdUntil = 0 ∨ instant s t < (s.dev.guard.comps[i]).holdUntil) →
    Does (.gainHoldEnd t i v) s t [] (fun _ => True))

/-- NDL_SET, NDL_SYNTH_SET, NDL_FIRE, NDL_ARM, NDL_TRIP, NDL_FEED and NDL_STATUS. (R209, R211, R214, R215, R217, R219, R223, R229, R231, R236, R238,
Table 05-7) -/
def Obligations.NeedleCommands : Prop :=
  (∀ (s : State) (t : Time) (b : Basket) (o : Fin 8),
    let x := s.dev.guard.outs[o]
    let old := x.waiting.getD x.set
    let a := arg32 s b 2
    let c := arg32 s b 4
    let mode := arg s b 1 % 8
    let safe := if arg s b 1 / 16 % 4 = 0 then SafeLevel.low else if arg s b 1 / 16 % 4 = 1 then SafeLevel.high else SafeLevel.highz
    let plain := { old with activeLow := argBit s b 1 3, safe := safe }
    let new : NeedleSet := if mode = 0 then { plain with mode := .off } else if mode = 1 then { plain with mode := .pwm, period := a, active := c }
      else if mode = 2 then { plain with mode := .burst,
                                         burst := arg s b 6 } else if mode = 3 then { plain with mode := .heartbeat, halfUs := a, feedMs := c }
      else { plain with mode := .oneshot, width := a }
    Starts s b →
    arg s b 0 = o.val →
    Held s b .outputs o.val →
    mode ≤ 4 →
    arg s b 1 / 16 % 4 ≤ 2 →
    (mode = 1 → 2 ≤ a ∧ a ≤ 16777215 ∧ c ≤ a) →
    (mode = 2 → 1 ≤ arg s b 6) →
    (mode = 3 → 100 ≤ a ∧ a ≤ 1000000 ∧ c ≤ 60000) →
    (mode = 4 → 1 ≤ a ∧ a ≤ 16777215) →
    (x.firing = none ∨ new.mode = x.set.mode) →
    let late := !x.tripped && new.mode == .pwm && x.set.mode == .pwm && x.armed
    Completes (.ndlSet t b) s t b 0 0 0 0 [.guard] (fun d => d.guard = { s.dev.guard with outs := d.guard.outs } ∧
      (∀ p : Fin 8, p ≠ o → d.guard.outs[p] = s.dev.guard.outs[p]) ∧
      (x.tripped = true → d.guard.outs[o] = { x with configured := true, waiting := some new }) ∧
      (x.tripped = false → new.mode ≠ x.set.mode →
        d.guard.outs[o] = { x with configured := true, set := new, armed := false, nextPH := none, phase := false }) ∧
      (late = true → d.guard.outs[o] = { x with configured := true, set := { new with period := x.set.period, active := x.set.active },
                                                nextPH := some (a, c) }) ∧
      (x.tripped = false → new.mode = x.set.mode → late = false → d.guard.outs[o] = { x with configured := true, set := new }))) ∧
  (∀ (s : State) (t : Time) (b : Basket),
    let f := arg32 s b 0
    let y := s.dev.guard.synth
    Starts s b →
    (s.dev.grants[b]).synth = true →
    (1000 ≤ f ∧ f ≤ 5000000) →
    let state := if y.state = .calibrating ∨ synthRange f ≠ synthRange y.freq then SynthState.calibrating else .settling
    let retuned : Synth := { freq := f, waiting := none, since := instant s t, state := state }
    let burst := ∃ o : Fin 8, (s.dev.guard.outs[o]).firing ≠ none ∧ (s.dev.guard.outs[o]).set.mode = .burst
    Completes (.ndlSynthSet t b) s t b 0 0 0 0 [.guard] (fun d => d.guard = { s.dev.guard with synth := d.guard.synth } ∧
      (¬ burst → d.guard.synth = retuned) ∧ (burst → d.guard.synth = { y with waiting := some f }))) ∧
  (∀ (s : State) (t : Time) (b : Basket),
    let m := arg s b 0
    let n := arg32 s b 5
    let at_ := arg32 s b 1 + 2 ^ 32 * arg32 s b 3
    let now := (here s t).stamp.toNat
    Starts s b →
    (1 ≤ m ∧ m < 256) →
    (∀ o : Fin 8, bit m o.val = true → Held s b .outputs o.val) →
    1 ≤ n →
    (at_ ≤ now ∨ at_ < now + 1000 * n) →
    (∀ o : Fin 8, bit m o.val = true → (s.dev.guard.outs[o]).tripped = false ∧ (s.dev.guard.outs[o]).firing = none ∧
        ((s.dev.guard.outs[o]).set.mode = .burst ∨ (s.dev.guard.outs[o]).set.mode = .oneshot)) →
    let h : HeldFire := { mask := m, start := if at_ ≤ now then none else some at_, deadline := instant s t + us n,
                          tag := s.dev.host.pages[b].cmdTag }
    Begins (.ndlFire t b) s t b 0x0312 [.guard] (fun d => d.guard = { s.dev.guard with held := s.dev.guard.held.set b.val (some h) })) ∧
  (∀ (s : State) (t : Time) (b : Basket),
    let m := arg s b 0
    Starts s b →
    (1 ≤ m ∧ m < 256) →
    (∀ o : Fin 8, bit m o.val = true → Held s b .outputs o.val) →
    (s.dev.pwr.state ≠ .hold ∧ s.dev.pwr.state ≠ .fault) →
    (∀ o : Fin 8, bit m o.val = true → (s.dev.guard.outs[o]).tripStatus = false ∧ s.dev.tripInput o = false) →
    Completes (.ndlArm t b) s t b 0 0 0 0 [.guard] (fun d => d.guard = { s.dev.guard with outs := d.guard.outs } ∧ ∀ o : Fin 8,
        (bit m o.val = false → d.guard.outs[o] = s.dev.guard.outs[o]) ∧
      (bit m o.val = true →
        let x := s.dev.guard.outs[o]
        let set := x.waiting.getD { x.set with period := (x.nextPH.map (·.1)).getD x.set.period, active := (x.nextPH.map (·.2)).getD x.set.active }
        let ready := { x with set := set, waiting := none, nextPH := none, tripped := false, armed := set.mode != NeedleMode.off, phase := true }
        ((x.armed = true ∧ x.tripped = false) → d.guard.outs[o] = x) ∧
        ((x.armed = false ∨ x.tripped = true) → d.guard.outs[o] = { ready with mark := instant s t, lastFeed := instant s t })))) ∧
  (∀ (s : State) (t : Time) (b : Basket) (o : Fin 8),
    let x := s.dev.guard.outs[o]
    Starts s b →
    Held s b .outputs o.val →
    arg s b 0 = 2 ^ o.val →
    x.firing = none →
    (∀ c : Basket, s.dev.guard.held[c] = none) →
    let held := fun g : Grants => g.outputs[o]
    let e : Ev := { event := .trip, subject := o.val, data0 := 2, data1 := (x.trips + 1).toNat % 65536 }
    CompletesOver (((here s t).raise ((here s t).holdersOnly held) .trip).postHeld held e).host (.ndlTrip t b) s t b 0 0 0 0 [.guard] (fun d =>
      d.guard = { s.dev.guard with outs := s.dev.guard.outs.set o.val { x with tripped := true, armed := false, tripStatus := true,
                                                                               tripSetAt := instant s t, reason := .software,
                                                                               trips := x.trips + 1 } })) ∧
  (∀ (s : State) (t : Time) (b : Basket),
    let m := arg s b 0
    Starts s b →
    (1 ≤ m ∧ m < 256) →
    (∀ o : Fin 8, bit m o.val = true → Held s b .outputs o.val) →
    Does (.ndlTrip t b) s t [.host, .guard, .free] (fun d =>
      d.host.pages[b].cmdState = .done ∧ d.host.pages[b].cmdError = 0 ∧ d.host.pages[b].cmdCount = s.dev.host.pages[b].cmdCount + 1 ∧
      d.guard.comps = s.dev.guard.comps ∧ d.guard.tripMasks = s.dev.guard.tripMasks ∧
      ∀ o : Fin 8, (bit m o.val = false → d.guard.outs[o] = s.dev.guard.outs[o]) ∧
        (bit m o.val = true → d.guard.outs[o] = { { s.dev.guard.outs[o] with tripped := true, armed := false, tripStatus := true,
                                                                             tripSetAt := instant s t, reason := .software,
                                                                             trips := s.dev.guard.outs[o].trips + 1 } with firing := none }))) ∧
  (∀ (s : State) (t : Time) (b : Basket),
    let m := arg s b 0
    Starts s b →
    (1 ≤ m ∧ m < 256) →
    (∀ o : Fin 8, bit m o.val = true → Held s b .outputs o.val) →
    (∀ o : Fin 8, bit m o.val = true → (s.dev.guard.outs[o]).armed = true ∧ (s.dev.guard.outs[o]).tripped = false ∧
        (s.dev.guard.outs[o]).set.mode = .heartbeat) →
    (∀ o : Fin 8, bit m o.val = true →
        (s.dev.guard.outs[o]).set.feedMs = 0 ∨ instant s t < (s.dev.guard.outs[o]).lastFeed + ms (s.dev.guard.outs[o]).set.feedMs) →
    Completes (.ndlFeed t b) s t b 0 0 0 0 [.guard] (fun d => d.guard = { s.dev.guard with outs := d.guard.outs } ∧ ∀ o : Fin 8,
        (bit m o.val = false → d.guard.outs[o] = s.dev.guard.outs[o]) ∧
      (bit m o.val = true → d.guard.outs[o] = { s.dev.guard.outs[o] with lastFeed := instant s t }))) ∧
  (∀ (s : State) (t : Time) (b : Basket) (o : Fin 8),
    let x := s.dev.guard.outs[o]
    Starts s b →
    Held s b .outputs o.val →
    arg s b 0 = 2 ^ o.val →
    (x.armed = true ∧ x.tripped = false ∧ x.set.mode = .heartbeat) →
    (x.set.feedMs ≠ 0 ∧ x.lastFeed + ms x.set.feedMs ≤ instant s t) →
    Does (.ndlFeed t b) s t [.host, .guard, .free] (fun d =>
      d.host.pages[b].cmdState = .done ∧ d.host.pages[b].cmdError = 0 ∧
          d.guard.outs[o] = { { x with tripped := true, armed := false, tripStatus := true, tripSetAt := instant s t, reason := .feed,
                                       trips := x.trips + 1 } with firing := none })) ∧
  (∀ (s : State) (t : Time) (b : Basket) (o : Fin 8),
    let x := s.dev.guard.outs[o]
    Starts s b →
    arg s b 0 = o.val →
    Held s b .outputs o.val →
    let n := x.set.mode.number + (if x.tripped = true then 8 else 0) + 16 * x.reason.number + (if x.firing.isSome = true then 128 else 0)
    Completes (.ndlStatus t b) s t b (BitVec.ofNat 16 n) (BitVec.ofNat 16 x.trips.toNat) (BitVec.ofNat 16 (x.trips.toNat / 65536))
      (BitVec.ofNat 16 s.dev.guard.synth.state.number) [] (fun _ => True))

/-- Needle timing: PWM periods, heartbeats, feed timeout, the synthesiser and firing. (R208, R209, R210, R211, R212, R213, R214, R217, R218, R220,
R222, R226) -/
def Obligations.NeedleEvents : Prop :=
  (∀ (s : State) (t : Time) (o : Fin 8),
    let x := s.dev.guard.outs[o]
    s.dev.pwr.state ≠ .off →
    s.dev.pwr.state ≠ .reset →
    s.dev.pwr.fault ≠ some .clock →
    (x.armed = true ∧ x.tripped = false ∧ x.set.mode = .pwm) →
    x.mark + stretched s.dev.clk.edgeRate (x.set.period * 15625) ≤ instant s t →
    let set := { x.set with period := (x.nextPH.map (·.1)).getD x.set.period, active := (x.nextPH.map (·.2)).getD x.set.active }
    Does (.pwmPeriodStart t o) s t [.guard] (fun d => d.guard = { s.dev.guard with outs := s.dev.guard.outs.set o.val { x with mark := x.mark + stretched s.dev.clk.edgeRate (x.set.period * 15625), nextPH := none, set := set } })) ∧
  (∀ (s : State) (t : Time) (o : Fin 8),
    let x := s.dev.guard.outs[o]
    s.dev.pwr.state ≠ .off →
    s.dev.pwr.state ≠ .reset →
    s.dev.pwr.fault ≠ some .clock →
    (x.armed = true ∧ x.tripped = false ∧ x.set.mode = .heartbeat) →
    x.mark + us x.set.halfUs ≤ instant s t →
    Does (.heartbeatToggle t o) s t [.guard] (fun d => d.guard = { s.dev.guard with outs := s.dev.guard.outs.set o.val { x with mark := x.mark + us x.set.halfUs, phase := !x.phase } })) ∧
  (∀ (s : State) (t : Time) (o : Fin 8),
    let x := s.dev.guard.outs[o]
    (x.armed = true ∧ x.tripped = false ∧ x.set.mode = .heartbeat) →
    (x.set.feedMs ≠ 0 ∧ x.lastFeed + ms x.set.feedMs ≤ instant s t) →
    x.firing = none →
    (∀ c : Basket, s.dev.guard.held[c] = none) →
    let held := fun g : Grants => g.outputs[o]
    let e : Ev := { event := .trip, subject := o.val, data0 := 3, data1 := (x.trips + 1).toNat % 65536 }
    Does (.feedTimeout t o) s t [.host,
        .guard] (fun d => d.guard = { s.dev.guard with outs := s.dev.guard.outs.set o.val { x with tripped := true, armed := false, tripStatus := true, tripSetAt := instant s t, reason := .feed, trips := x.trips + 1 } } ∧
      d.host = (((here s t).raise ((here s t).holdersOnly held) .trip).postHeld held e).host)) ∧
  (∀ (s : State) (t : Time) (o : Fin 8),
    let x := s.dev.guard.outs[o]
    (x.armed = false ∨ x.tripped = true ∨ instant s t < x.mark + stretched s.dev.clk.edgeRate (x.set.period * 15625)) →
    (x.armed = false ∨ x.tripped = true ∨ instant s t < x.mark + us x.set.halfUs) →
    (x.armed = false ∨ x.tripped = true ∨ instant s t < x.lastFeed + ms x.set.feedMs) →
    Does (.pwmPeriodStart t o) s t [] (fun _ => True) ∧ Does (.heartbeatToggle t o) s t [] (fun _ => True) ∧
        Does (.feedTimeout t o) s t [] (fun _ => True)) ∧
  (∀ (s : State) (t : Time),
    let y := s.dev.guard.synth
    s.dev.pwr.state ≠ .off →
    s.dev.pwr.state ≠ .reset →
    s.dev.pwr.fault ≠ some .clock →
    y.state = .settling →
    let e : Ev := { event := .synthLock, data0 := y.freq % 65536, data1 := y.freq / 65536 }
    Does (.synthLock t) s t [.host, .guard] (fun d => d.guard = { s.dev.guard with synth := { y with state := .locked, since := instant s t } } ∧
      d.host = ((here s t).postHeld (fun g => g.synth) e).host)) ∧
  (∀ (s : State) (t : Time),
    let y := s.dev.guard.synth
    s.dev.pwr.state ≠ .off →
    s.dev.pwr.state ≠ .reset →
    s.dev.pwr.fault ≠ some .clock →
    y.state = .calibrating →
    Does (.synthCalibrationEnd t) s t [.guard] (fun d => d.guard = { s.dev.guard with synth := { y with state := .settling, since := instant s t } })) ∧
  (∀ (s : State) (t : Time) (b : Basket) (h : HeldFire) (r : Running),
    let y := s.dev.guard.synth
    let now := (here s t).stamp
    s.dev.guard.held[b] = some h →
    (∀ o : Fin 8, bit h.mask o.val = true → (s.dev.guard.outs[o]).tripped = false ∧ (s.dev.guard.outs[o]).firing = none ∧
        ((s.dev.guard.outs[o]).set.mode = .oneshot ∨ ((s.dev.guard.outs[o]).set.mode = .burst ∧ y.state = .locked ∧ y.waiting = none))) →
    (∀ st ∈ h.start, st ≤ now.toNat) →
    instant s t < h.deadline →
    s.dev.host.pages[b].running = some r →
    (r.code = 0x0312 ∧ r.outcome = none) →
    Does (.fireStart t b) s t [.host, .guard] (fun d =>
      d.guard = { s.dev.guard with held := s.dev.guard.held.set b.val none, outs := d.guard.outs } ∧
      d.host = withPage s.dev.host b { s.dev.host.pages[b] with running := some { r with outcome := some { error := 0, results := results4 (leWords 4 now.toNat) } } } ∧
      ∀ o : Fin 8, (bit h.mask o.val = false → d.guard.outs[o] = s.dev.guard.outs[o]) ∧
        (bit h.mask o.val = true →
          let x := s.dev.guard.outs[o]
          let len := if x.set.mode = .burst then (x.set.burst * unitsPerSec + y.freq - 1) / max 1 y.freq else stretched s.dev.clk.edgeRate (x.set.width * 15625)
          let f : Firing := { start := instant s t, stamp := now, stop := instant s t + len, tag := h.tag, cycles := x.set.burst }
          d.guard.outs[o] = { x with firing := some f }))) ∧
  (∀ (s : State) (t : Time) (b : Basket) (h : HeldFire),
    s.dev.guard.held[b] = some h →
    (∃ o : Fin 8, bit h.mask o.val = true ∧ ((s.dev.guard.outs[o]).tripped = true ∨ ((s.dev.guard.outs[o]).set.mode = .burst ∧
        s.dev.guard.synth.state ≠ .locked))) ∨ (∃ st ∈ h.start, (here s t).stamp.toNat < st) →
    instant s t < h.deadline →
    Does (.fireStart t b) s t [] (fun _ => True) ∧ Does (.fireDeadline t b) s t [] (fun _ => True)) ∧
  (∀ (s : State) (t : Time) (b : Basket) (h : HeldFire) (r : Running),
    s.dev.guard.held[b] = some h →
    h.deadline ≤ instant s t →
    s.dev.host.pages[b].running = some r →
    (r.code = 0x0312 ∧ r.outcome = none) →
    Does (.fireStart t b) s t [] (fun _ => True) ∧
    Does (.fireDeadline t b) s t [.host, .guard] (fun d =>
      d.guard = { s.dev.guard with held := s.dev.guard.held.set b.val none } ∧
      d.host = withPage s.dev.host b { s.dev.host.pages[b] with running := some { r with outcome := some { error := Err.synthBusy.code, results := Vector.replicate 4 0 } } })) ∧
  (∀ (s : State) (t : Time) (o : Fin 8) (f : Firing),
    let x := s.dev.guard.outs[o]
    let y := s.dev.guard.synth
    x.firing = some f →
    x.set.mode = .burst →
    f.stop ≤ instant s t →
    (y.waiting = none ∨ (∀ p : Fin 8, p ≠ o → (s.dev.guard.outs[p]).firing = none)) →
    let e : Ev := { event := .fireDone, subject := o.val, data0 := f.cycles, data1 := 0, tag := f.tag }
    let held := fun g : Grants => g.outputs[o]
    let synth := (y.waiting.map (fun g => y.retune g (instant s t))).getD y
    Does (.fireDone t o) s t [.host, .guard, .free] (fun d =>
      d.guard = { s.dev.guard with outs := s.dev.guard.outs.set o.val { x with firing := none }, synth := synth } ∧
      d.host = ((here s t).post ((here s t).holders held) f.stamp e).host)) ∧
  (∀ (s : State) (t : Time) (o : Fin 8) (f : Firing),
    (s.dev.guard.outs[o]).firing = some f →
    instant s t < f.stop →
    Does (.fireDone t o) s t [] (fun _ => True))

/-- Settings, coefficients, commits and swaps of a Rinse chain. (R245, R249, R251, R271, R276, R278, R280, R281, R283, R284, R822, R859) -/
def Obligations.RinseChains : Prop :=
  (∀ (s : State) (t : Time) (pos : Fin 24),
    let c := s.dev.rinse.chains[pos]
    let sh := arg s 0 3 / 256 % 32
    StartsAwake s 0 →
    arg s 0 0 = pos.val →
    Held s 0 .channels pos.val →
    (1 ≤ arg s 0 1 ∧ arg s 0 1 ≤ 4096) →
    (4 ≤ sh ∧ sh ≤ 24) →
    let set : ChainSet := { dec := arg s 0 1, bank1 := argBit s 0 2 0, bank2 := argBit s 0 2 1 }
    let est := if argBit s 0 3 0 = true ∧ c.dcOn = true then c.dcEst else 0
    Completes (.rnSetChannel t 0) s t 0 0 0 0 0 [.rinse] (fun d => d.rinse = { s.dev.rinse with chains := s.dev.rinse.chains.set pos.val { c with staged := set, dcOn := argBit s 0 3 0, dcEst := est, autoFreeze := argBit s 0 3 1, shift := sh, swapArmed := argBit s 0 4 0 } })) ∧
  (∀ (s : State) (t : Time) (pos : Fin 24),
    let c := s.dev.rinse.chains[pos]
    let n := arg s 0 2
    StartsAwake s 0 →
    arg s 0 0 = pos.val →
    Held s 0 .channels pos.val →
    HeldRange s 0 (arg32 s 0 3) (2 * n) →
    (n ≤ if argBit s 0 1 0 = true then 64 else 128) →
    (if argBit s 0 1 0 = true then c.live.bank2 else c.live.bank1) ≠ argBit s 0 1 1 →
    c.willActivate (argBit s 0 1 0) (argBit s 0 1 1) = false →
    let h := (List.range n).map (fun i => signed 16 (s.dev.sram.value (arg32 s 0 3 + 2 * i) 2))
    let bank := (argBit s 0 1 1).toNat
    Completes (.rnSetCoef t 0) s t 0 0 0 0 0 [.rinse] (fun d =>
      (argBit s 0 1 0 = true → d.rinse = { s.dev.rinse with chains := s.dev.rinse.chains.set pos.val { c with second := updAt c.second bank (fun _ => h) } }) ∧
      (argBit s 0 1 0 = false → d.rinse = { s.dev.rinse with chains := s.dev.rinse.chains.set pos.val { c with comp := updAt c.comp bank (fun _ => h) } }))) ∧
  (∀ (s : State) (t : Time) (pos : Fin 24),
    let c := s.dev.rinse.chains[pos]
    StartsAwake s 0 →
    arg s 0 0 = pos.val →
    Held s 0 .channels pos.val →
    argBit s 0 1 0 = false →
    (c.enabled = true ∨ s.dev.pwr.state = .boot) →
    c.fits pos.val c.staged = true →
    (c.staged.dec = c.live.dec ∨ s.dev.detectorBound pos.val = false) →
    c.pending = none →
    let p : ChainCommit := { swap := false, target := c.staged, from_ := instant s t + us 2 }
    Completes (.rnCommit t 0) s t 0 0 0 0 0 [.rinse] (fun d => d.rinse = { s.dev.rinse with chains := s.dev.rinse.chains.set pos.val { c with pending := some p } })) ∧
  (∀ (s : State) (t : Time) (pos : Fin 24),
    let c := s.dev.rinse.chains[pos]
    StartsAwake s 0 →
    arg s 0 0 = pos.val →
    Held s 0 .channels pos.val →
    argBit s 0 1 0 = false →
    c.enabled = false →
    s.dev.pwr.state ≠ .boot →
    c.fits pos.val c.staged = true →
    (c.staged.dec = c.live.dec ∨ s.dev.detectorBound pos.val = false) →
    c.pending = none →
    let e : Ev := { event := .commitApplied, subject := 2, data0 := pos.val }
    CompletesOver ((here s t).postHeld (fun g => g.channels[pos]) e).host (.rnCommit t 0) s t 0 0 0 0 0 [.rinse] (fun d => d.rinse = { s.dev.rinse with chains := s.dev.rinse.chains.set pos.val { c with live := c.staged } })) ∧
  (∀ (s : State) (t : Time) (pos : Fin 24),
    let c := s.dev.rinse.chains[pos]
    StartsAwake s 0 →
    arg s 0 0 = pos.val →
    Held s 0 .channels pos.val →
    argBit s 0 1 0 = true →
    c.pending = none →
    Completes (.rnCommit t 0) s t 0 0 0 0 0 [.rinse] (fun d => d.rinse = { s.dev.rinse with chains := s.dev.rinse.chains.set pos.val { c with staged := c.live } })) ∧
  (∀ (s : State) (t : Time) (pos : Fin 24),
    let c := s.dev.rinse.chains[pos]
    StartsAwake s 0 →
    arg s 0 0 = pos.val →
    Held s 0 .channels pos.val →
    c.enabled = true →
    c.fits pos.val c.live.toggled = true →
    (c.live.toggled.dec = c.live.dec ∨ s.dev.detectorBound pos.val = false) →
    c.pending = none →
    let p : ChainCommit := { swap := true, target := c.staged, from_ := instant s t + us 2 }
    Completes (.rnSwap t 0) s t 0 0 0 0 0 [.rinse] (fun d => d.rinse = { s.dev.rinse with chains := s.dev.rinse.chains.set pos.val { c with pending := some p } })) ∧
  (∀ (s : State) (t : Time) (pos : Fin 24),
    let c := s.dev.rinse.chains[pos]
    StartsAwake s 0 →
    arg s 0 0 = pos.val →
    Held s 0 .channels pos.val →
    c.enabled = false →
    c.fits pos.val c.live.toggled = true →
    (c.live.toggled.dec = c.live.dec ∨ s.dev.detectorBound pos.val = false) →
    c.pending = none →
    let e : Ev := { event := .commitApplied, subject := 2, data0 := pos.val }
    CompletesOver ((here s t).postHeld (fun g => g.channels[pos]) e).host (.rnSwap t 0) s t 0 0 0 0 0 [.rinse] (fun d => d.rinse = { s.dev.rinse with chains := s.dev.rinse.chains.set pos.val { c with live := { c.live with bank1 := !c.live.bank1, bank2 := !c.live.bank2 } } })) ∧
  (∀ (s : State) (t : Time) (pos : Fin 24),
    let c := s.dev.rinse.chains[pos]
    StartsAwake s 0 →
    arg s 0 0 = pos.val →
    Held s 0 .channels pos.val →
    c.pending ≠ none →
    Refuses (.rnSwap t 0) s t 0 .stagedConflict ∧ Refuses (.rnCommit t 0) s t 0 (if argBit s 0 1 0 = true then .busy else .stagedConflict)) ∧
  (∀ (s : State) (t : Time) (pos : Fin 24),
    let c := s.dev.rinse.chains[pos]
    StartsAwake s 0 →
    arg s 0 0 = pos.val →
    Held s 0 .channels pos.val →
    argBit s 0 1 0 = true →
    let on := if c.enabled = true then c else { c with enabled := true, waiting := true }
    Completes (.rnEnable t 0) s t 0 0 0 0 0 [.rinse] (fun d => d.rinse = { s.dev.rinse with chains := s.dev.rinse.chains.set pos.val on })) ∧
  (∀ (s : State) (t : Time) (pos : Fin 24),
    let c := s.dev.rinse.chains[pos]
    StartsAwake s 0 →
    arg s 0 0 = pos.val →
    Held s 0 .channels pos.val →
    argBit s 0 1 0 = false →
    (∀ b : Basket, ∀ r ∈ c.rings[b], r.state = .stopped) →
    c.pending = none →
    let off := if c.enabled = true then { c with enabled := false, waiting := false } else c
    Completes (.rnEnable t 0) s t 0 0 0 0 0 [.rinse] (fun d => d.rinse = { s.dev.rinse with chains := s.dev.rinse.chains.set pos.val off })) ∧
  (∀ (s : State) (t : Time) (pos : Fin 24),
    let c := s.dev.rinse.chains[pos]
    StartsAwake s 0 →
    arg s 0 0 = pos.val →
    Held s 0 .channels pos.val →
    Completes (.rnDcFreeze t 0) s t 0 0 0 0 0 [.rinse] (fun d => d.rinse = { s.dev.rinse with chains := s.dev.rinse.chains.set pos.val { c with dcFreeze := argBit s 0 1 0 } })) ∧
  (∀ (s : State) (t : Time) (pos : Fin 24) (p : ChainCommit),
    let c := s.dev.rinse.chains[pos]
    c.pending = some p →
    p.from_ ≤ instant s t →
    (s.dev.pwr.state = .active ∨ (s.dev.pwr.state = .boot ∧ p.swap = true)) →
    (here s t).boundary pos.val c.live.dec = true →
    (here s t).atSync = false →
    let set := if p.swap = true then c.live.toggled else p.target
    let ends := c.waiting || (c.enabled && set.dec != c.live.dec)
    let e : Ev := { event := .commitApplied, subject := 2, data0 := pos.val }
    Does (.rinseCommitApply t pos) s t [.host,
        .rinse] (fun d => d.rinse = { s.dev.rinse with chains := s.dev.rinse.chains.set pos.val { c with live := set, pending := none, waiting := ends } } ∧
      d.host = ((here s t).postHeld (fun g => g.channels[pos]) e).host)) ∧
  (∀ (s : State) (t : Time) (pos : Fin 24),
    let c := s.dev.rinse.chains[pos]
    (∀ p ∈ c.pending, instant s t < p.from_ ∨ (here s t).boundary pos.val c.live.dec = false ∨ (here s t).atSync = true) →
    Does (.rinseCommitApply t pos) s t [] (fun _ => True))

/-- The detectors and the ring taps of a chain. (R256, R257, R261, R262, R263, R286, R287, R288, Table 06-5, Table 06-6, Table 16-7) -/
def Obligations.DetectorsRings : Prop :=
  (∀ (s : State) (t : Time) (pos : Fin 24),
    let c := s.dev.rinse.chains[pos]
    let ae := 16 ≤ pos.val ∧ pos.val < 20
    StartsAwake s 0 →
    arg s 0 0 = pos.val →
    Held s 0 .channels pos.val →
    arg s 0 2 ≤ 24 →
    1 ≤ arg s 0 3 →
    (1 ≤ arg s 0 4 ∧ arg s 0 4 ≤ 24) →
    (ae → 1 ≤ arg32 s 0 5 ∧ arg32 s 0 5 ≤ 8388607 ∧ 1 ≤ arg s 0 7) →
    (¬ ae → argBit s 0 1 3 = false ∧ arg32 s 0 5 = 0 ∧ arg s 0 7 = 0) →
    let set : DetSet := { c.detSet with peakOn := argBit s 0 1 0, rmsOn := argBit s 0 1 1, envOn := argBit s 0 1 2, hitsOn := argBit s 0 1 3,
                                        decay := arg s 0 2, n := arg s 0 3, eshift := arg s 0 4 }
    Completes (.rnSetDetector t 0) s t 0 0 0 0 0 [.rinse] (fun d => d.rinse = { s.dev.rinse with chains := s.dev.rinse.chains.set pos.val { c with detSet := (if ae then { set with threshold := arg32 s 0 5, dead := arg s 0 7 } else set) } })) ∧
  (∀ (s : State) (t : Time) (b : Basket) (pos : Fin 24),
    let c := s.dev.rinse.chains[pos]
    StartsAwake s b →
    arg s b 0 = pos.val →
    Held s b .channels pos.val →
    arg s b 1 ≤ 3 →
    let v := c.det.value (arg s b 1)
    Completes (.rnDetRead t b) s t b (BitVec.ofNat 16 v) (BitVec.ofNat 16 (v / 65536)) ((at? c.det.flags (arg s b 1) 0).setWidth 16) 0 [] (fun _ => True)) ∧
  (∀ (s : State) (t : Time) (pos : Fin 24),
    let c := s.dev.rinse.chains[pos]
    StartsAwake s 0 →
    arg s 0 0 = pos.val →
    Held s 0 .channels pos.val →
    let peak := if argBit s 0 1 0 = true then { c.det with peak := 0 } else c.det
    let rms := if argBit s 0 1 1 = true then { peak with rms := 0, rmsSum := 0, rmsCount := 0 } else peak
    let env := if argBit s 0 1 2 = true then { rms with env := 0 } else rms
    let det := if argBit s 0 1 3 = true then { env with hits := 0, hitPeak := 0, hitStamp := 0 } else env
    Completes (.rnDetReset t 0) s t 0 0 0 0 0 [.rinse] (fun d => d.rinse = { s.dev.rinse with chains := s.dev.rinse.chains.set pos.val { c with det := det } })) ∧
  (∀ (s : State) (t : Time) (b : Basket) (pos : Fin 24) (k : Nat),
    let c := s.dev.rinse.chains[pos]
    let mode := arg s b 4 % 4
    StartsAwake s b →
    arg s b 0 = pos.val →
    Held s b .channels pos.val →
    (k < 15 ∧ arg s b 3 = 2 ^ k) →
    arg32 s b 1 % 64 = 0 →
    mode ≤ 2 →
    arg32 s b 6 ≤ 64 * 2 ^ k →
    HeldRange s b (arg32 s b 1) (64 * 2 ^ k * (if argBit s b 4 2 = true then 8 else 4)) →
    (argBit s b 4 2 = true → Held s b .tachs (arg s b 4 / 16 % 4)) →
    (mode = 2 → arg s b 5 = 0xFF ∨ Held s b .comparators (arg s b 5)) →
    (∀ r ∈ c.rings[b], r.state = .stopped) →
    let comp : Option (Fin 32) := if mode = 2 ∧ arg s b 5 < 32 then some (Fin.ofNat 32 (arg s b 5)) else none
    let kind := if mode = 0 then RingMode.continuous else if mode = 1 then .once else .triggered
    let r : Ring := { base := arg32 s b 1, length := 64 * 2 ^ k, mode := kind, withAngle := argBit s b 4 2, tach := Fin.ofNat 4 (arg s b 4 / 16 % 4),
                      comp := comp,
                      post := arg32 s b 6, tag := 0, state := .stopped, next := 0, total := 0, newest := 0, trigAt := none, trigIndex := none,
                          postLeft := 0 }
    Completes (.rnRingSet t b) s t b 0 0 0 0 [.rinse] (fun d => d.rinse = { s.dev.rinse with chains := s.dev.rinse.chains.set pos.val { c with rings := c.rings.set b.val (some r) } })) ∧
  (∀ (s : State) (t : Time) (b : Basket) (pos : Fin 24) (r : Ring),
    let c := s.dev.rinse.chains[pos]
    StartsAwake s b →
    arg s b 0 = pos.val →
    Held s b .channels pos.val →
    c.rings[b] = some r →
    HeldRange s b r.base (r.length * (if r.withAngle = true then 8 else 4)) →
    let on := { r with state := .running, next := 0, total := 0, newest := 0, trigAt := none, trigIndex := none, postLeft := 0,
                       tag := s.dev.host.pages[b].cmdTag }
    Completes (.rnRingStart t b) s t b 0 0 0 0 [.rinse] (fun d => d.rinse = { s.dev.rinse with chains := s.dev.rinse.chains.set pos.val { c with rings := c.rings.set b.val (some on) } })) ∧
  (∀ (s : State) (t : Time) (b : Basket) (pos : Fin 24) (r : Ring),
    let c := s.dev.rinse.chains[pos]
    StartsAwake s b →
    arg s b 0 = pos.val →
    Held s b .channels pos.val →
    c.rings[b] = some r →
    r.state ≠ .stopped →
    let e : Ev := { event := .ringDone, subject := pos.val, data0 := 1, data1 := r.total.toNat % 65536, tag := r.tag }
    let h := if r.mode = .continuous then s.dev.host else ((here s t).post (fun i => i == 0 || i == b.val) (here s t).stamp e).host
    CompletesOver h (.rnRingStop t b) s t b 0 0 0 0 [.rinse] (fun d => d.rinse = { s.dev.rinse with chains := s.dev.rinse.chains.set pos.val { c with rings := c.rings.set b.val (some { r with state := .stopped }) } })) ∧
  (∀ (s : State) (t : Time) (b : Basket) (pos : Fin 24),
    let c := s.dev.rinse.chains[pos]
    StartsAwake s b →
    arg s b 0 = pos.val →
    Held s b .channels pos.val →
    (∀ r ∈ c.rings[b], r.state = .stopped) →
    Completes (.rnRingStop t b) s t b 0 0 0 0 [] (fun _ => True)) ∧
  (∀ (s : State) (t : Time) (b : Basket) (pos : Fin 24) (r : Ring),
    let c := s.dev.rinse.chains[pos]
    StartsAwake s b →
    arg s b 0 = pos.val →
    Held s b .channels pos.val →
    c.rings[b] = some r →
    r.state ≠ .stopped →
    r.mode = .triggered →
    (r.state ≠ .running ∨ r.trigAt ≠ none ∨ r.total = 0 ∨ r.newest ≠ (here s t).stamp) →
    let r' := if r.state = .running ∧ r.trigAt = none then { r with trigAt := some (instant s t) } else r
    Completes (.rnTrigger t b) s t b 0 0 0 0 [.rinse] (fun d => d.rinse = { s.dev.rinse with chains := s.dev.rinse.chains.set pos.val { c with rings := c.rings.set b.val (some r') } })) ∧
  (∀ (s : State) (t : Time) (b : Basket) (pos : Fin 24) (r : Ring),
    let c := s.dev.rinse.chains[pos]
    StartsAwake s b →
    arg s b 0 = pos.val →
    Held s b .channels pos.val →
    c.rings[b] = some r →
    r.state = .running →
    r.mode = .triggered →
    r.trigAt = none →
    (r.total ≠ 0 ∧ r.newest = (here s t).stamp) →
    let k := (r.next + r.length - 1) % max 1 r.length
    let r1 := { r with trigAt := some (instant s t) }
    let r2 := if r.post = 0 then { r1 with next := k, total := r.total - 1, state := .stopped }
      else if r.post = 1 then { r1 with trigIndex := some k, postLeft := 0, state := .stopped }
      else { r1 with trigIndex := some k, postLeft := r.post - 1, state := .post }
    let e : Ev := { event := .ringDone, subject := pos.val, data0 := 0, data1 := r2.total.toNat % 65536, tag := r.tag }
    let h := if r.post ≤ 1 then ((here s t).post (fun i => i == 0 || i == b.val) (here s t).stamp e).host else s.dev.host
    CompletesOver h (.rnTrigger t b) s t b 0 0 0 0 [.rinse] (fun d => d.rinse = { s.dev.rinse with chains := s.dev.rinse.chains.set pos.val { c with rings := c.rings.set b.val (some r2) } })) ∧
  (∀ (s : State) (t : Time) (b : Basket) (pos : Fin 24),
    let c := s.dev.rinse.chains[pos]
    StartsAwake s b →
    arg s b 0 = pos.val →
    Held s b .channels pos.val →
    (∀ r ∈ c.rings[b], r.state = .stopped ∨ r.mode ≠ .triggered) →
    Refuses (.rnTrigger t b) s t b .state)

/-- RN_SET_SYNC, SYS_SYNC and an edge on the SYNC pin. (R56, R157, R265, R267, R268, R270, R271, R276, R934, R935, R948, log entry 13) -/
def Obligations.SyncRows : Prop :=
  (∀ (s : State) (t : Time),
    StartsAwake s 0 →
    arg s 0 0 ≤ 2 →
    let x := if arg s 0 0 = 0 then SyncSource.pin else if arg s 0 0 = 1 then .everyCycle else .cycle0
    Completes (.rnSetSync t 0) s t 0 0 0 0 0 [.rinse] (fun d => d.rinse = { s.dev.rinse with source := x })) ∧
  (∀ (s : State) (t : Time),
    Starts s 0 →
    s.dev.pwr.fault ≠ some .clock →
    (∀ p : Fin 24, (s.dev.rinse.chains[p]).pending = none ∧ (s.dev.rinse.chains[p]).swapArmed = false) →
    let at_ := max (instant s t) ((here s t).sampleEdge (instant s t + 1) 0)
    let e := here s at_
    let stamp := e.stamp
    let edge := e.clk.edgeFrom at_
    let r := s.dev.rinse
    let w := s.dev.wr
    Does (.sysSync t 0) s t [.clk, .host, .wr, .rinse] (fun d =>
      d.clk = { s.dev.clk with now := at_ } ∧
      d.host = doneHost s.dev.host 0 0 (BitVec.ofNat 16 stamp.toNat) (BitVec.ofNat 16 (stamp.toNat / 65536)) (BitVec.ofNat 16 (stamp.toNat / 2 ^ 32))
        (BitVec.ofNat 16 (stamp.toNat / 2 ^ 48)) at_ ∧
      d.rinse = { r with zeroEdge := if e.atSync = true then r.zeroEdge else edge, oldPhase := if e.atSync = true then r.oldPhase else r.phase edge,
                         syncStamp := stamp, chains := d.rinse.chains } ∧
      (∀ p : Fin 24, d.rinse.chains[p] = if (s.dev.rinse.chains[p]).enabled = false ∨ (s.dev.pwr.state ≠ .boot ∧
          s.dev.pwr.state ≠ .active) then s.dev.rinse.chains[p]
        else if (s.dev.rinse.chains[p]).waiting = true ∨ e.boundary p.val (s.dev.rinse.chains[p]).live.dec = false then (s.dev.rinse.chains[p]).breakEpoch
        else { s.dev.rinse.chains[p] with epochIn := BitVec.ofNat 64 ((s.dev.rinse.chains[p]).epochIn.toNat % max 1 (s.dev.rinse.chains[p]).live.dec),
                                          epochOut := 0, firstOut := true }) ∧
      d.wr = (if w.running = false ∨ w.live.frame.source ≠ .time ∨ (s.dev.pwr.state ≠ .active ∧ s.dev.pwr.state ≠ .watch) then w
        else if at_ < w.start + us 20 then { w with gridOrigin := at_, gridCount := 0 }
        else { w with due := some { at_ := at_, cut := decide (at_ ≠ e.gridNext) } }))) ∧
  (∀ (s : State) (t : Time) (pos : Fin 24),
    let c := s.dev.rinse.chains[pos]
    Starts s 0 →
    s.dev.pwr.fault ≠ some .clock →
    (∀ p : Fin 24, (s.dev.rinse.chains[p]).pending = none) →
    c.swapArmed = true →
    Does (.sysSync t 0) s t [.clk, .host, .wr, .rinse] (fun d => (d.rinse.chains[pos]).swapArmed = false ∧
        d.host.pages[(0 : Basket)].cmdState = .done ∧
      (d.rinse.chains[pos]).live = if c.fits pos.val c.live.toggled = true then c.live.toggled else c.live)) ∧
  (∀ (s : State) (t : Time),
    (s.dev.pwr.state ≠ .off ∧ s.dev.pwr.state ≠ .reset) →
    s.dev.pwr.fault ≠ some .clock →
    s.dev.rinse.source = .pin →
    s.dev.link.live.set.syncOut = false →
    (∀ e ∈ s.dev.rinse.lastPinEdge, e + us 10 ≤ instant s t) →
    (∀ p : Fin 24, (s.dev.rinse.chains[p]).pending = none ∧ (s.dev.rinse.chains[p]).swapArmed = false) →
    let first := (here s t).sampleEdge (instant s t + ns 1 + 1) 0
    let last := (here s t).sampleEdge (instant s t + ns 5) 0
    let w := s.dev.wr
    let r := s.dev.rinse
    Does (.syncPinEdge t) s t [.clk, .wr, .rinse, .free] (fun d =>
      let at_ := d.clk.now
      let e := here s at_
      let edge := e.clk.edgeFrom at_
      (at_ = max (instant s t) first ∨ at_ = max (instant s t) last) ∧ d.clk = { s.dev.clk with now := at_ } ∧
      d.rinse = { r with zeroEdge := if e.atSync = true then r.zeroEdge else edge, oldPhase := if e.atSync = true then r.oldPhase else r.phase edge,
                         syncStamp := e.stamp, lastPinEdge := some (instant s t), chains := d.rinse.chains } ∧
      (∀ p : Fin 24, d.rinse.chains[p] = if (s.dev.rinse.chains[p]).enabled = false ∨ (s.dev.pwr.state ≠ .boot ∧
          s.dev.pwr.state ≠ .active) then s.dev.rinse.chains[p]
        else if (s.dev.rinse.chains[p]).waiting = true ∨ e.boundary p.val (s.dev.rinse.chains[p]).live.dec = false then (s.dev.rinse.chains[p]).breakEpoch
        else { s.dev.rinse.chains[p] with epochIn := BitVec.ofNat 64 ((s.dev.rinse.chains[p]).epochIn.toNat % max 1 (s.dev.rinse.chains[p]).live.dec),
                                          epochOut := 0, firstOut := true }) ∧
      d.wr = (if w.running = false ∨ w.live.frame.source ≠ .time ∨ (s.dev.pwr.state ≠ .active ∧ s.dev.pwr.state ≠ .watch) then w
        else if at_ < w.start + us 20 then { w with gridOrigin := at_, gridCount := 0 }
        else { w with due := some { at_ := at_, cut := decide (at_ ≠ e.gridNext) } }))) ∧
  (∀ (s : State) (t : Time),
    (s.dev.rinse.source ≠ .pin ∨ s.dev.link.live.set.syncOut = true ∨ s.dev.pwr.fault = some .clock ∨ (∃ e ∈ s.dev.rinse.lastPinEdge,
        instant s t < e + us 10)) →
    Does (.syncPinEdge t) s t [.rinse] (fun d => d.rinse = { s.dev.rinse with lastPinEdge := some (instant s t) }))

/-- PR_FORM, PR_PRESS, PR_INSPECT, PR_CALIBRATE and PR_SET_UPKEEP. (R354, R355, R357, R358, R363, R373, R384, R396, R397, R399, R479, Table 08-1) -/
def Obligations.PressCommands : Prop :=
  (∀ (s : State) (t : Time) (i : Fin 48),
    let x := s.dev.tiles[i]
    let w := (here s t).w16
    StartsAwake s 0 →
    arg s 0 0 = i.val →
    Held s 0 .tiles i.val →
    x.state = .blank →
    0 < (here s t).freeTags 0 →
    x.counter + 528 * w ≤ 1622016000 →
    let op := PressOp.of .form 0 s.dev.host.pages[(0 : Basket)].cmdTag none .zero [] (instant s t)
    Completes (.prForm t 0) s t 0 0 0 0 0 [.tiles, .store] (fun d =>
      d.tiles = s.dev.tiles.set i.val { x with queue := x.queue ++ [op] } ∧ d.store = (if x.armed = true ∧
          x.counter + w ≤ x.saved + s.dev.store.stepInForce ∧
          s.dev.disarming i = false then s.dev.store else { s.dev.store with trigger := true }))) ∧
  (∀ (s : State) (t : Time) (b : Basket) (i : Fin 48),
    let x := s.dev.tiles[i]
    let w := (here s t).w16
    let a := arg s b 1
    let n := arg s b 2
    StartsAwake s b →
    arg s b 0 = i.val →
    Held s b .tiles i.val →
    (1 ≤ n ∧ a + n ≤ 512) →
    HeldRange s b (arg32 s b 3) (256 * n) →
    (x.state ≠ .blank ∧ x.state ≠ .retired) →
    0 < (here s t).freeTags b →
    x.counter + n * w ≤ 1622016000 →
    let op := PressOp.of .press b s.dev.host.pages[b].cmdTag none (.records (arg32 s b 3) a) ((List.range n).map (a + ·)) (instant s t)
    Completes (.prPress t b) s t b 0 0 0 0 [.tiles, .store] (fun d =>
      d.tiles = s.dev.tiles.set i.val { x with queue := x.queue ++ [op] } ∧ d.store = (if x.armed = true ∧
          x.counter + w ≤ x.saved + s.dev.store.stepInForce ∧
          s.dev.disarming i = false then s.dev.store else { s.dev.store with trigger := true }))) ∧
  (∀ (s : State) (t : Time) (b : Basket) (i : Fin 48),
    let x := s.dev.tiles[i]
    let w := (here s t).w16
    StartsAwake s b →
    arg s b 0 = i.val →
    Held s b .tiles i.val →
    (x.state ≠ .blank ∧ x.state ≠ .retired) →
    let due := if x.due = true then x else { x with due := true, dueSince := instant s t }
    let asked := { due with dueTag := s.dev.host.pages[b].cmdTag }
    Completes (.prInspect t b) s t b 0 0 0 0 [.tiles, .store] (fun d => d.tiles = s.dev.tiles.set i.val asked ∧ d.store = (if x.armed = true ∧
        x.counter + w ≤ x.saved + s.dev.store.stepInForce ∧ s.dev.disarming i = false then s.dev.store else { s.dev.store with trigger := true }))) ∧
  (∀ (s : State) (t : Time) (b : Basket) (i : Fin 48),
    let x := s.dev.tiles[i]
    let w := (here s t).w16
    StartsAwake s b →
    arg s b 0 = i.val →
    Held s b .tiles i.val →
    (x.state ≠ .blank ∧ x.state ≠ .retired) →
    let op := PressOp.of .calibrate b s.dev.host.pages[b].cmdTag none .nearest [] (instant s t)
    Completes (.prCalibrate t b) s t b 0 0 0 0 [.tiles, .store] (fun d =>
      d.tiles = s.dev.tiles.set i.val { x with queue := x.queue ++ [op] } ∧ d.store = (if x.armed = true ∧
          x.counter + w ≤ x.saved + s.dev.store.stepInForce ∧
          s.dev.disarming i = false then s.dev.store else { s.dev.store with trigger := true }))) ∧
  (∀ (s : State) (t : Time) (b : Basket) (i : Fin 48),
    let x := s.dev.tiles[i]
    let w := (here s t).w16
    StartsAwake s b →
    arg s b 0 = i.val →
    Held s b .tiles i.val →
    (1 ≤ arg s b 2 ∧ arg s b 1 + arg s b 2 ≤ 512) →
    HeldRange s b (arg32 s b 3) (256 * arg s b 2) →
    (x.state ≠ .blank ∧ x.state ≠ .retired) →
    0 < (here s t).freeTags b →
    (1622016000 < x.counter + arg s b 2 * w ∧ x.counter ≤ 1622016000) →
    Refuses (.prPress t b) s t b .tileWorn) ∧
  (∀ (s : State) (t : Time) (b : Basket) (i : Fin 48),
    let x := s.dev.tiles[i]
    StartsAwake s b →
    arg s b 0 = i.val →
    Held s b .tiles i.val →
    (x.state = .blank ∨ x.state = .retired) →
    Refuses (.prInspect t b) s t b .state ∧ Refuses (.prCalibrate t b) s t b .state) ∧
  (∀ (s : State) (t : Time),
    StartsAwake s 0 →
    (1 ≤ arg s 0 0 ∧ arg s 0 0 ≤ 168) →
    (1 ≤ arg s 0 1 ∧ arg s 0 1 ≤ 100) →
    let u : Upkeep := { baseHours := arg s 0 0, commitFte := arg s 0 1, auto := argBit s 0 2 0 }
    Completes (.prSetUpkeep t 0) s t 0 0 0 0 0 [.upkeep] (fun d => d.upkeep = u))

/-- Pressing operations begin, press their rows and close; drift, due inspections and VDDP. (R345, R348, R349, R368, R369, R376, R385, R386, R387,
R388, R395, Table 08-6) -/
def Obligations.PressEvents : Prop :=
  (∀ (s : State) (t : Time) (i : Fin 48) (op : PressOp) (r : List PressOp) (a first : Nat),
    let x := s.dev.tiles[i]
    let w := (here s t).w16
    (s.dev.pwr.state = .active ∨ s.dev.pwr.state = .boot) →
    s.dev.pwr.restored = true →
    x.queue = op :: r →
    x.op = none →
    (x.state = .spare ∨ x.state = .ready) →
    (op.kind = .press ∧ op.source = .records a first ∧ op.rows ≠ [] ∧ op.selfFails = 0) →
    ((here s t).freeFor i op = true ∧ (here s t).groupBusy i op = false) →
    x.counter + op.rows.length * w ≤ 1622016000 →
    let n := op.rows.length
    let begun := { op with targets := rowRecords (s.dev.sram.bytes a (256 * n)) first n, step := .rows }
    Does (.pressOpStart t i) s t [.tiles, .store] (fun d => d.store = (if x.armed = true ∧ x.counter + w ≤ x.saved + s.dev.store.stepInForce ∧
        s.dev.disarming i = false then s.dev.store else { s.dev.store with trigger := true }) ∧
      d.tiles = s.dev.tiles.set i.val { x with queue := r, precedence := false, state := .pressing, recorded := some .press, op := some begun })) ∧
  (∀ (s : State) (t : Time) (i : Fin 48),
    let x := s.dev.tiles[i]
    (s.dev.pwr.state = .active ∨ s.dev.pwr.state = .boot) →
    s.dev.pwr.restored = true →
    x.queue = [] →
    x.op = none →
    x.state = .suspect →
    x.due = true →
    (∀ h : Fin 16, s.dev.models[h] = none) →
    (∀ j : Fin 48, j ≠ i → (s.dev.tiles[j]).op = none ∧ (s.dev.tiles[j]).state ≠ .suspect) →
    x.counter < enduranceBudget →
    Does (.pressOpStart t i) s t [.tiles, .store] (fun d => (∀ j : Fin 48, j ≠ i → d.tiles[j] = s.dev.tiles[j]) ∧
      d.tiles[i].state = .inspecting ∧ d.tiles[i].due = false ∧ d.tiles[i].recorded = some .inspect ∧ d.tiles[i].cells = x.cells ∧
      d.tiles[i].op.any (fun op => op.kind == .inspect && op.since == x.dueSince && op.tag == x.dueTag) = true)) ∧
  (∀ (s : State) (t : Time) (i : Fin 48),
    let x := s.dev.tiles[i]
    (x.queue = [] ∧ x.due = false) →
    Does (.pressOpStart t i) s t [] (fun _ => True) ∧ Does (.upkeepPrecedence t i) s t [] (fun _ => True)) ∧
  (∀ (s : State) (t : Time) (i : Fin 48) (op : PressOp),
    let x := s.dev.tiles[i]
    x.state ≠ .suspect →
    x.op = none →
    x.queue.head? = some op →
    (here s t).freeFor i op = false →
    op.since + sec 1 ≤ instant s t →
    Does (.upkeepPrecedence t i) s t [.tiles] (fun d => d.tiles = s.dev.tiles.set i.val { x with precedence := true })) ∧
  (∀ (s : State) (t : Time) (i : Fin 48) (iters : Nat) (after : List CellRead) (op : PressOp) (f : RowFlight),
    let x := s.dev.tiles[i]
    let w := (here s t).w16
    let y := x.setLevels f.row (after.filter (fun c => f.outs.contains c.column))
    (s.dev.pwr.state = .active ∨ s.dev.pwr.state = .boot ∨ s.dev.pwr.state = .hold ∨ s.dev.pwr.state = .fault) →
    x.op = some op →
    op.inFlight = some f →
    (op.step = .rows ∧ op.darnQueue = [] ∧ 1 < op.rows.length) →
    instant s t = f.start + max (us 12) (us (5 * iters)) →
    (f.outs ≠ [] ∧ 2 ≤ iters ∧ iters ≤ 12) →
    y.outCells op f.row = [] →
    (∀ u ∈ s.dev.spool.tags, u.id = f.tag → u.aborting = false) →
    let next := { op with inFlight := none, rows := op.rows.drop 1, pressed := op.pressed + 1, repressed := op.repressed + f.outs.length,
                          written := op.written ++ [f.row] }
    let z : Tile := if op.inspects = true then { y with op := some next, state := .inspecting, recorded := some .inspect }
      else { y with op := some next, state := .pressing, recorded := some op.kind }
    Does (.rowPress t i iters after) s t [.tiles, .spool, .store] (fun d =>
      d.tiles = s.dev.tiles.set i.val z ∧ d.spool = s.dev.spool.retire (instant s t) f.tag true ∧ d.store = (if x.armed = true ∧
          x.counter + w ≤ x.saved + s.dev.store.stepInForce ∧
          s.dev.disarming i = false then s.dev.store else { s.dev.store with trigger := true }))) ∧
  (∀ (s : State) (t : Time) (i : Fin 48) (op : PressOp) (f : RowFlight),
    let x := s.dev.tiles[i]
    let w := (here s t).w16
    (s.dev.pwr.state = .active ∨ s.dev.pwr.state = .boot) →
    x.op = some op →
    op.inFlight = some f →
    (op.step = .rows ∧ op.darnQueue = [] ∧ 1 < op.rows.length) →
    instant s t = f.start + us 12 →
    f.outs = [] →
    op.inspects = false →
    let next := { op with inFlight := none, rows := op.rows.drop 1, pressed := op.pressed + 1, written := op.written ++ [f.row] }
    Does (.rowPress t i 1 []) s t [.tiles, .spool, .store] (fun d =>
      d.tiles = s.dev.tiles.set i.val { x with op := some next, state := .pressing, recorded := some op.kind } ∧ d.store = (if x.armed = true ∧
          x.counter + w ≤ x.saved + s.dev.store.stepInForce ∧
          s.dev.disarming i = false then s.dev.store else { s.dev.store with trigger := true }))) ∧
  (∀ (s : State) (t : Time) (i : Fin 48) (iters : Nat) (after : List CellRead) (op : PressOp) (f : RowFlight),
    let x := s.dev.tiles[i]
    x.op = some op →
    op.inFlight = some f →
    instant s t ≠ f.start + max (us 12) (us (5 * iters)) →
    Does (.rowPress t i iters after) s t [] (fun _ => True)) ∧
  (∀ (s : State) (t : Time) (i : Fin 48),
    let x := s.dev.tiles[i]
    (∀ op ∈ x.op, op.inFlight = none) →
    ∀ (iters : Fin 16), Does (.rowPress t i iters.val []) s t [] (fun _ => True)) ∧
  (∀ (s : State) (t : Time) (i : Fin 48) (op : PressOp),
    let x := s.dev.tiles[i]
    let y := x.effective op
    (s.dev.pwr.state = .active ∨ s.dev.pwr.state = .boot) →
    x.op = some op →
    (op.step = .closing ∧ op.kind = .press) →
    (op.darnQueue = [] ∧ op.selfFails = 0 ∧ op.inconsistent = [] ∧ op.stopped = false ∧ op.report = none) →
    (y.selfCheck s.dev.free).passes = true →
    let result : Ev := { event := .pressDone, subject := i.val, data0 := op.units, tag := op.tag,
                         data1 := min 1023 op.pressed + 1024 * min 15 op.pairsFailed }
    let state := if (here s t).inService i op = true then TileState.ready else .spare
    Does (.pressOpClose t i) s t [.host, .tiles, .free] (fun d => (∀ j : Fin 48, j ≠ i → d.tiles[j] = s.dev.tiles[j]) ∧
      d.tiles[i].state = state ∧ d.tiles[i].op = none ∧ d.tiles[i].content = x.content ∧ d.tiles[i].recorded = none ∧
          d.tiles[i].remainders = y.remainders ∧
      d.tiles[i].compared = x.compared + 64 ∧ d.tiles[i].cells = x.cells ∧ d.tiles[i].age = x.age ∧ d.tiles[i].counter = x.counter ∧
      d.host = ((here s t).postHeld (fun g => g.tiles[i]) result).host)) ∧
  (∀ (s : State) (t : Time) (i : Fin 48) (op : PressOp),
    let x := s.dev.tiles[i]
    (s.dev.pwr.state = .active ∨ s.dev.pwr.state = .boot) →
    x.op = some op →
    (op.step = .closing ∧ op.kind = .press) →
    (op.darnQueue = [] ∧ op.selfFails = 0 ∧ op.serving = false) →
    ((x.effective op).selfCheck s.dev.free).passes = false →
    Does (.pressOpClose t i) s t [.tiles, .free] (fun d => (∀ j : Fin 48, j ≠ i → d.tiles[j] = s.dev.tiles[j]) ∧
      d.tiles[i].state = .inspecting ∧ d.tiles[i].recorded = some .inspect ∧ d.tiles[i].cells = x.cells ∧ d.tiles[i].trims = x.trims ∧
          d.tiles[i].remap = x.remap ∧
      d.tiles[i].remainders = x.remainders ∧
      d.tiles[i].op.any (fun o => o.selfFails == 1 && o.repressed == 0 && o.pairsFailed == 0 && o.report == some (op.pressed, op.units,
          op.pairsFailed)) = true)) ∧
  (∀ (s : State) (t : Time) (i : Fin 48),
    let x := s.dev.tiles[i]
    (∀ op ∈ x.op, op.step ≠ .closing) →
    Does (.pressOpClose t i) s t [] (fun _ => True)) ∧
  (∀ (s : State) (t : Time) (i : Fin 48),
    let x := s.dev.tiles[i]
    let w := (here s t).w16
    (x.state ≠ .blank ∧ x.state ≠ .retired) →
    (s.dev.upkeep.auto = true ∧ x.needsPress = false ∧ x.op = none) →
    s.dev.upkeep.baseHours * 7200 ≤ x.age →
    x.due = false →
    Does (.inspectionDue t i) s t [.tiles, .store] (fun d => d.tiles = s.dev.tiles.set i.val { x with due := true, dueSince := instant s t } ∧
        d.store = (if x.armed = true ∧ x.counter + w ≤ x.saved + s.dev.store.stepInForce ∧
        s.dev.disarming i = false then s.dev.store else { s.dev.store with trigger := true }))) ∧
  (∀ (s : State) (t : Time) (i : Fin 48),
    let x := s.dev.tiles[i]
    (s.dev.upkeep.auto = false ∨ x.age < s.dev.upkeep.baseHours * 7200) →
    Does (.inspectionDue t i) s t [] (fun _ => True)) ∧
  (∀ (s : State) (t : Time) (moved : List CellDrift),
    (s.dev.pwr.state ≠ .off ∧ s.dev.pwr.state ≠ .reset) →
    s.dev.pwr.driftAt + sec 1 ≤ instant s t →
    let c := s.dev.pwr.dieTemp.toInt
    let rate := if c ≤ 1360 then 2 else if c ≤ 1520 then 3 else if c ≤ 1680 then 4 else if c ≤ 1840 then 6 else if c ≤ 2000 then 8 else 16
    Does (.driftAgeAdvance t moved) s t [.pwr, .tiles] (fun d => d.pwr = { s.dev.pwr with driftAt := s.dev.pwr.driftAt + sec 1 } ∧ ∀ i : Fin 48,
      let x := s.dev.tiles[i]
      let age := if x.state = .blank ∨ x.state = .retired then x.age else x.age + rate
      (moved.all (fun m => m.tile != i) = true → d.tiles[i] = { x with age := age }) ∧
          d.tiles[i] = { x with age := age, cells := d.tiles[i].cells })) ∧
  (∀ (s : State) (t : Time) (moved : List CellDrift),
    instant s t < s.dev.pwr.driftAt + sec 1 →
    Does (.driftAgeAdvance t moved) s t [] (fun _ => True)) ∧
  (∀ (s : State) (t : Time) (pulsed : List CellDrift),
    s.dev.pwr.vddpOk = true →
    (s.dev.pwr.state ≠ .off ∧ s.dev.pwr.state ≠ .reset) →
    let e : Ev := { event := .vddp, data0 := 1 }
    Does (.vddpOutOfRange { t := t, pulsed := pulsed }) s t [.pwr, .host, .tiles, .spool] (fun d => d.pwr = { s.dev.pwr with vddpOk := false } ∧
        d.host = ((here s t).postAll e).host ∧
      ∀ i : Fin 48,
        let x := s.dev.tiles[i]
        let back := x.op.map (fun o => { o with inFlight := none })
        ((∀ c ∈ pulsed, c.tile ≠ i ∨ ∀ f ∈ x.op.bind (·.inFlight), c.row ≠ f.row ∨ f.outs.contains c.column = false) →
            d.tiles[i] = { x with op := back }) ∧
        d.tiles[i] = { x with op := back, cells := d.tiles[i].cells })) ∧
  (∀ (s : State) (t : Time) (c : CellDrift) (f : RowFlight),
    s.dev.pwr.vddpOk = true →
    (s.dev.pwr.state ≠ .off ∧ s.dev.pwr.state ≠ .reset) →
    ((s.dev.tiles[c.tile]).op.bind (·.inFlight)) = some f →
    (c.row = f.row ∧ c.column ∈ f.outs) →
    Does (.vddpOutOfRange { t := t, pulsed := [c] }) s t [.pwr, .host, .tiles, .spool] (fun d => (d.tiles[c.tile]).level c.row c.column = c.level)) ∧
  (∀ (s : State) (t : Time),
    s.dev.pwr.vddpOk = false →
    (s.dev.pwr.state ≠ .off ∧ s.dev.pwr.state ≠ .reset) →
    let e : Ev := { event := .vddp, data0 := 0 }
    Does (.vddpInRange t) s t [.pwr, .host] (fun d => d.pwr = { s.dev.pwr with vddpOk := true } ∧ d.host = ((here s t).postAll e).host))

/-- MD_LOAD, MD_CHECK, MD_UNLOAD, MD_SET_HORIZON and the instant an unload takes effect. (R434, R435, R436, R437, R440, R441, R442, R448, R553, R554,
R831, log entry 19) -/
def Obligations.ModelCommands : Prop :=
  (∀ (s : State) (t : Time) (b : Basket) (h : Handle) (m : Model),
    let f := (here s t).fit ((here s t).ctx s.chip s.fuse.blown b)
    StartsAwake s b →
    Held s b .units (arg s b 5) →
    (argBit s b 0 0 = false → HeldRange s b (arg32 s b 1) (arg32 s b 3)) →
    (here s t).modelCount b < 4 →
    (here s t).freeHandle = some h →
    (f.refused = none ∧ f.model = some m ∧ f.mismatch = false) →
    (here s t).storeTakes m f.entry = true →
    (∀ i : Fin 48, i ∈ m.place → (s.dev.tiles[i]).counter + 512 * (here s t).w16 ≤ 1622016000) →
    let run : Running := { code := 0x0601, args := s.dev.host.pages[b].args, tag := s.dev.host.pages[b].cmdTag, since := instant s t,
                           outcome := none }
    let load := fun (i : Fin 48) => PressOp.of .load m.basket m.loadTag (some h) (.block h i.val) (List.range 512) (instant s t)
    let i := Instr.mdLoad t b
    Does i s t [.host, .tiles, .models, .spool, .sram, .store, .qspi] (fun d =>
      d.qspi = (if argBit s b 0 0 = true then [readCommand s (arg32 s b 1) (arg32 s b 3)] else s.dev.qspi) ∧
      d.host = withPage s.dev.host b { s.dev.host.pages[b] with cmdState := .busy, ignored := 0,
                                                                running := some { run with outcome := some (success [BitVec.ofNat 16 h.val]) } } ∧
      d.models = s.dev.models.set h.val (some m) ∧
      ∀ i : Fin 48, d.tiles[i] = { s.dev.tiles[i] with queue := s.dev.tiles[i].queue ++ List.replicate (m.place.count i) (load i) })) ∧
  (∀ (s : State) (t : Time) (b : Basket) (e : Err),
    let f := (here s t).fit ((here s t).ctx s.chip s.fuse.blown b)
    StartsAwake s b →
    Held s b .units (arg s b 5) →
    (argBit s b 0 0 = false → HeldRange s b (arg32 s b 1) (arg32 s b 3)) →
    (here s t).modelCount b < 4 →
    (here s t).freeHandle ≠ none →
    f.refused = some e →
    let run : Running := { code := 0x0601, args := s.dev.host.pages[b].args, tag := s.dev.host.pages[b].cmdTag, since := instant s t,
                           outcome := none }
    Does (.mdLoad t b) s t [.host, .qspi] (fun d => (argBit s b 0 0 = false → d.qspi = s.dev.qspi) ∧
        d.host = withPage s.dev.host b { s.dev.host.pages[b] with cmdState := .busy, ignored := 0,
                                                                  running := some { run with outcome := some (refusal e) } })) ∧
  (∀ (s : State) (t : Time) (b : Basket),
    let f := (here s t).fit ((here s t).ctx s.chip s.fuse.blown b)
    StartsAwake s b →
    Held s b .units (arg s b 5) →
    (argBit s b 0 0 = false → HeldRange s b (arg32 s b 1) (arg32 s b 3)) →
    let code : Word := (f.refused.map Err.code).getD 0
    let figures := (f.model.map (fun m => [saturate16 m.wUs, BitVec.ofNat 16 m.tags, saturate16 m.margin])).getD
      ((List.range 3).map (fun i => BitVec.ofNat 16 (Config.noFigure (s.dev.free + i))))
    let run : Running := { code := 0x0602, args := s.dev.host.pages[b].args, tag := s.dev.host.pages[b].cmdTag, since := instant s t,
                           outcome := none }
    Does (.mdCheck t b) s t [.host, .qspi, .free] (fun d => (argBit s b 0 0 = false → d.qspi = s.dev.qspi) ∧
        d.host = withPage s.dev.host b { s.dev.host.pages[b] with cmdState := .busy, ignored := 0,
                                                                  running := some { run with outcome := some (success (code :: figures)) } })) ∧
  (∀ (s : State) (t : Time) (b : Basket) (h : Handle) (m : Model),
    StartsAwake s b →
    arg s b 0 = h.val →
    s.dev.models[h] = some m →
    m.basket = b →
    let out := { m with state := .unloading }
    (m.state = .loaded → Completes (.mdUnload t b) s t b 0 0 0 0 [.models] (fun d => d.models = s.dev.models.set h.val (some out))) ∧
    (m.state ≠ .loaded → Refuses (.mdUnload t b) s t b .state)) ∧
  (∀ (s : State) (t : Time) (c : Basket),
    StartsAwake s 0 →
    arg s 0 0 = c.val →
    (1 ≤ arg s 0 1 ∧ arg s 0 1 ≤ 18262) →
    (25 ≤ arg s 0 2 ∧ arg s 0 2 ≤ 140) →
    Completes (.mdSetHorizon t 0) s t 0 0 0 0 0 [.horizons] (fun d => d.horizons = s.dev.horizons.set c.val (arg s 0 1, arg s 0 2))) ∧
  (∀ (s : State) (t : Time) (h : Handle) (m : Model),
    s.dev.models[h] = some m →
    m.state = .unloading →
    m.run = none →
    (∀ i : Fin 48, (s.dev.tiles[i]).op.all (fun o => o.handle != some h) = true) →
    Does (.unloadTakesEffect t h) s t [.tiles, .models, .store] (fun d => d.models = s.dev.models.set h.val none ∧
      ∀ i : Fin 48, let x := s.dev.tiles[i]
        let used := (List.finRange 16).any (fun k => k != h && (s.dev.models[k]).any (fun o => o.place.contains i))
        let st := if x.state = .ready ∧ used = false then TileState.spare else x.state
        let left := x.queue.filter (fun o => o.handle != some h)
        d.tiles[i] = { x with state := st, queue := left, precedence := decide (x.precedence = true ∧ (x.due = true ∨ left ≠ [])) })) ∧
  (∀ (s : State) (t : Time) (h : Handle),
    (∀ m ∈ s.dev.models[h], m.state ≠ .unloading ∨ m.run ≠ none) →
    Does (.unloadTakesEffect t h) s t [] (fun _ => True))

/-- MEM_STATUS, MEM_CLEAR and SP_SET_AGEING. (R452, R456, R457, R460, R461, R503, R504, R505) -/
def Obligations.MemoryCommands : Prop :=
  (∀ (s : State) (t : Time) (b : Basket),
    StartsAwake s b →
    let n := s.dev.host.pages[b].uninitRead.toNat
    Completes (.memStatus t b) s t b (BitVec.ofNat 16 n) (BitVec.ofNat 16 (n / 65536)) (BitVec.ofNat 16 (s.dev.writtenGranules b)) 0 [] (fun _ => True)) ∧
  (∀ (s : State) (t : Time) (b : Basket) (a : Nat),
    let first := arg s b 0
    let n := arg s b 1
    StartsAwake s b →
    1 ≤ n →
    (∀ i ∈ List.range n, Held s b .units (first + i)) →
    s.dev.unitsBusy first n = false →
    Completes (.memClear t b) s t b 0 0 0 0 [.sram] (fun d =>
      d.sram.cells = s.dev.sram.cells ∧ (65536 * first ≤ a → a < 65536 * (first + n) → d.sram.get a = 0) ∧
      (a < 65536 * first ∨ 65536 * (first + n) ≤ a → d.sram.get a = s.dev.sram.get a))) ∧
  (∀ (s : State) (t : Time) (b : Basket),
    let first := arg s b 0
    let n := arg s b 1
    StartsAwake s b →
    1 ≤ n →
    (∀ i ∈ List.range n, Held s b .units (first + i)) →
    s.dev.unitsBusy first n = true →
    Refuses (.memClear t b) s t b .busy) ∧
  (∀ (s : State) (t : Time),
    StartsAwake s 0 →
    arg s 0 0 ≠ 0 →
    (arg s 0 0 ≤ 1000 ∨ arg s 0 0 = 0xFFFF) →
    let x := if arg s 0 0 = 0xFFFF then none else some (arg s 0 0)
    Completes (.spSetAgeing t 0) s t 0 0 0 0 0 [.spool] (fun d => d.spool = { s.dev.spool with ageing := x }))

/-- A run starts at its frame's end, its bindings are gathered, and it ends with its record, its event and its code. (R33, R430, R432, R438, R480,
R483, R484, R487, R493, R494, Table 07-4, Table 10-4) -/
def Obligations.Runs : Prop :=
  (∀ (s : State) (t : Time) (h : Handle) (m : Model) (e : EndedFrame),
    let pol := if (m.image.layers[0]?).any (fun l => !l.vector) = true then m.policy 0 (here s t).foundState else Busy.go []
    s.dev.models[h] = some m →
    s.dev.wr.ended = some e →
    (m.state = .loaded ∧ m.run = none ∧ m.dueFor e.num = true ∧ m.lastRun ≠ e.num) →
    (e.stop = instant s t ∧ e.blanked = false) →
    s.dev.pwr.state = .active →
    s.dev.spool.tags.length + m.image.bindings.length ≤ 4096 →
    pol ≠ Busy.stop →
    (∀ i : Fin 48, (s.dev.tiles[i]).counter + 512 * (here s t).w16 ≤ 1622016000) →
    m.image.blocks.all (fun b => decide (b.rowCount ≤ 512)) = true →
    let us := match pol with | .go us => us | _ => []
    let tr := e.stopStamp.toNat
    let learn := m.learn.map (fun l => (m.image.learn.map (fun sp => l.atStart sp tr)).getD l)
    let label := learn.bind ((here s t).pendingLabel h)
    let found := m.place.map (fun i => (i, (here s t).foundState i))
    let new := Run.new e.num tr (here s t).stamp ((here s t).deadlineOf m e.stop) found label
    let pass := (m.image.reload.map (fun r => (r.passes[0]?).getD [])).getD []
    let qspi := m.image.reload.any (·.qspi)
    let rows := fun (b : Block) => (List.range b.rowCount).map (b.rowFirst + ·)
    let reload := fun (k : Nat) (b : Block) => PressOp.of .reload m.basket 0 (some h) (.block h k) (rows b) (instant s t)
    let staged := if qspi = true then [] else pass
    let ops := fun (i : Fin 48) => staged.filterMap (fun p => if m.place[p.1]? = some i then (m.image.blocks[p.2]?).map (reload p.2) else none)
    let l := s.dev.spool.tags.length
    let goes := fun (r : Run) => { r with usable := us, waitFor := decide (pol = Busy.wait) }
    let withPass := fun (r : Run) => { r with passDone := m.image.reload.isSome.toNat, reloadQueue := if qspi = true then pass else [] }
    Does (.runStart t h) s t [.tiles, .models, .spool, .store] (fun d =>
      d.models = s.dev.models.set h.val
        (some { m with learn := learn, lastRun := e.num, run := some { goes (withPass new) with tagsPeak := (d.spool.ofRun h).length } }) ∧
      d.spool.tags.take l = s.dev.spool.tags ∧ d.spool.tags.length = l + m.image.bindings.length ∧
      (d.spool.tags.drop l).zipIdx.all (fun x => x.1.kind == .gather && x.1.index == x.2 && x.1.status == .ready && x.1.handle == some h &&
        x.1.priority == m.image.priority && x.1.deadline == some new.deadline && x.1.basket == m.basket) = true ∧
      d.spool.device.allocated = s.dev.spool.device.allocated + BitVec.ofNat 64 m.image.bindings.length ∧
      ∀ i : Fin 48, let x := s.dev.tiles[i]
        d.tiles[i] = { x with queue := x.queue ++ ops i })) ∧
  (∀ (s : State) (t : Time) (h : Handle) (m : Model) (e : EndedFrame),
    let pol := if (m.image.layers[0]?).any (fun l => !l.vector) = true then m.policy 0 (here s t).foundState else Busy.go []
    s.dev.models[h] = some m →
    s.dev.wr.ended = some e →
    (m.state = .loaded ∧ m.run = none ∧ m.dueFor e.num = true ∧ m.lastRun ≠ e.num) →
    (e.stop = instant s t ∧ e.blanked = false) →
    s.dev.pwr.state = .active →
    s.dev.spool.tags.length + m.image.bindings.length ≤ 4096 →
    (m.image.reload = none ∧ m.learn = none) →
    pol = Busy.stop →
    let ev : Ev := { event := .runEnd, subject := h.val, data0 := Err.tileBusy.code.toNat, data1 := e.num % 65536 }
    Does (.runStart t h) s t [.host, .tiles, .models, .spool, .sram] (fun d =>
      d.models = s.dev.models.set h.val (some { m with lastRun := e.num, lastResult := Err.tileBusy.code, update := m.update + 2,
                                                       runsEarly := m.runsEarly + 1 }) ∧
      d.spool.ofRun h = [] ∧ UnchangedOutside s.dev.sram d.sram (0x70000 + 0x400 * h.val) 320 ∧
      (∀ i : Fin 48, let x := s.dev.tiles[i]
        let left := x.queue.filter (fun o => !(o.kind == .reload && o.handle == some h))
        let clear := if m.place.contains i = true then { x with clipsRun := 0, uncheckedRun := 0 } else x
        d.tiles[i] = { clear with queue := left }) ∧
      d.host = (((here s t).postTo m.basket ev).raise (toBasket m.basket) .runEnd).host)) ∧
  (∀ (s : State) (t : Time) (h : Handle),
    (s.dev.wr.ended = none ∨ s.dev.models[h] = none ∨ s.dev.pwr.state = .hold) →
    Does (.runStart t h) s t [] (fun _ => True)) ∧
  (∀ (s : State) (t : Time) (h : Handle) (m : Model) (r : Run) (x : Tag) (bd : Binding),
    let g := (here s t).gatherBinding m r.frame x.index bd
    let a := m.targetAddr h bd
    s.dev.models[h] = some m →
    m.run = some r →
    (s.dev.spool.ofRun h).filter (fun u => u.kind == .gather && u.status == .issued) = [x] →
    (∀ u ∈ s.dev.spool.tags, u.id = x.id → u = x) →
    (m.image.bindings[x.index]? = some bd ∧ bd.kind ≤ 2) →
    (here s t).gatherable r.frame bd = true →
    (8 ≤ m.firstUnit ∧ a + g.bytes.length ≤ 0x1800000) →
    (bd.isFp = false → bd.target + bd.count ≤ 8192) →
    r.gathered = false →
    let last := (s.dev.spool.ofRun h).all (fun u => u.kind != .gather || u.id == x.id)
    let input := 0x50000 + 0x2000 * h.val
    Does (.gather t h) s t [.models, .spool, .sram] (fun d => d.sram.bytes a g.bytes.length = g.bytes ∧
        UnchangedOutsideBoth s.dev.sram d.sram a g.bytes.length input 8192 ∧
      d.models = s.dev.models.set h.val (some { m with run := some { r with flags := r.flags ||| BitVec.ofNat 7 g.flags, gathered := last } }) ∧
      d.spool.tags.all (fun u => u.id != x.id) = true ∧ d.spool.device.completed = s.dev.spool.device.completed + 1 ∧
      (last = true → ∀ e : Fin 8192, m.image.bound e.val = false → d.sram.get (input + e.val) = 0) ∧
      (∀ e : Fin 8192, m.image.bound e.val = true → input + e.val < a ∨ a + g.bytes.length ≤ input + e.val →
          d.sram.get (input + e.val) = s.dev.sram.get (input + e.val)))) ∧
  (∀ (s : State) (t : Time) (m : Model) (k i : Nat) (bd : Binding),
    (bd.kind = 0 ∧ bd.source = 1 ∧ bd.frame = 0) →
    let v := fun (i : Nat) => s.dev.sram.value (k % 2 * 0x1000 + 4 * (bd.first + i)) 4
    let g := (here s t).gatherBinding m k i bd
    g.bytes = (List.range bd.count).map (fun i => BitVec.ofNat 8 (v i / 256)) ∧ g.flags = (List.range bd.count).foldl (fun f i => f ||| v i % 32) 0) ∧
  (∀ (s : State) (t : Time) (h : Handle),
    (∀ m ∈ s.dev.models[h], m.run = none) →
    Does (.gather t h) s t [] (fun _ => True) ∧ Does (.reloadBlockRead t h) s t [] (fun _ => True) ∧ Does (.runEnd t h) s t [] (fun _ => True) ∧
        Does (.runDeadline t h) s t [] (fun _ => True)) ∧
  (∀ (s : State) (t : Time) (h : Handle) (m : Model) (r : Run) (e : Nat × Nat) (es : List (Nat × Nat)) (bk : Block) (i : Fin 48),
    let bs := (here s t).blockBytes m bk
    s.dev.models[h] = some m →
    m.run = some r →
    r.reloadQueue = e :: es →
    (here s t).reloading h { r with reloadQueue := [] } = false →
    (m.image.blocks[e.2]? = some bk ∧ m.place[e.1]? = some i) →
    crc32 bs = bk.dataCrc →
    m.bufferAddr m.image.stagingBuffer + bs.length ≤ 0x1800000 →
    (s.dev.tiles[i]).counter + bk.rowCount * (here s t).w16 ≤ 1622016000 →
    let a := m.bufferAddr m.image.stagingBuffer
    let op := PressOp.of .reload m.basket 0 (some h) (.block h e.2) ((List.range bk.rowCount).map (bk.rowFirst + ·)) (instant s t)
    Does (.reloadBlockRead t h) s t [.tiles, .models, .spool, .sram, .store, .qspi] (fun d =>
      (m.qspi = true → bk.rowCount ≠ 0 → d.qspi = [readCommand s (m.imageAddr + m.image.weights + bk.dataOffset) (256 * bk.rowCount)]) ∧
      d.sram.bytes a bs.length = bs ∧ UnchangedOutside s.dev.sram d.sram a bs.length ∧
      d.models = s.dev.models.set h.val (some { m with run := some { r with reloadQueue := es } }) ∧
      d.tiles = s.dev.tiles.set i.val { s.dev.tiles[i] with queue := s.dev.tiles[i].queue ++ [op] })) ∧
  (∀ (s : State) (t : Time) (h : Handle) (m : Model) (r : Run) (e : Nat × Nat) (es : List (Nat × Nat)) (bk : Block),
    let bs := (here s t).blockBytes m bk
    let a := m.bufferAddr m.image.stagingBuffer
    s.dev.models[h] = some m →
    m.run = some r →
    r.reloadQueue = e :: es →
    (here s t).reloading h { r with reloadQueue := [] } = false →
    m.image.blocks[e.2]? = some bk →
    crc32 ((here s t).blockBytes m bk) ≠ bk.dataCrc →
    (m.learn = none ∧ r.seamFailed = []) →
    (8 ≤ m.firstUnit ∧ a + bs.length ≤ 0x1800000) →
    let ev : Ev := { event := .runEnd, subject := h.val, data0 := Err.fitImage.code.toNat, data1 := r.frame % 65536 }
    let bad : Ev := { event := .reloadBad, subject := h.val, data0 := e.2 }
    Does (.reloadBlockRead t h) s t [.host, .tiles, .models, .spool, .sram, .qspi] (fun d =>
      d.models = s.dev.models.set h.val (some { m with run := none, leaving := m.leaving ++ (here s t).phasesLeft r, lastResult := Err.fitImage.code,
                                                       update := m.update + 2, runsEarly := m.runsEarly + 1 }) ∧
      d.spool.ofRun h = [] ∧ d.sram.bytes a bs.length = bs ∧ UnchangedOutsideBoth s.dev.sram d.sram a bs.length (0x70000 + 0x400 * h.val) 320 ∧
      d.host = ((((here s t).postTo m.basket bad).postTo m.basket ev).raise (toBasket m.basket) .runEnd).host)) ∧
  (∀ (s : State) (t : Time) (h : Handle) (m : Model) (r : Run),
    s.dev.models[h] = some m →
    (m.run = some r ∧ m.learn = none) →
    (r.finished = true ∧ r.seamFailed = []) →
    (s.dev.spool.ofRun h).all (fun u => u.kind == .learn && u.status == .issued) = true →
    instant s t < r.deadline →
    s.dev.pwr.state ≠ .watch →
    let code := Err.ok.code
    let m' := { m with run := none, lastResult := code, update := m.update + 2, runsDone := m.runsDone + 1, verdict := r.verdict.getD m.verdict,
                       novelty := r.novelty.getD m.novelty }
    let cnt := fun (i : Fin 48) =>
      let x := s.dev.tiles[i]
      let c := r.counts.find? (fun c => c.tile == i)
      let clips := BitVec.ofNat 32 ((c.map (·.clips)).getD 0)
      if m.place.contains i = true then { x with clipsRun := clips, uncheckedRun := BitVec.ofNat 32 ((c.map (·.unchecked)).getD 0) } else x
    let e : Ev := { event := .runEnd, subject := h.val, data0 := 0, data1 := r.frame % 65536 }
    let record := w64 r.frame ++ w64 r.start.toNat ++ w64 (here s t).stamp.toNat ++ leBytes 2 code.toNat ++ leBytes 2 r.flags.toNat ++
      w32 r.clips ++ w32 r.saturations ++ w32 r.unchecked ++ w32 m'.runsDone.toNat ++ w32 m'.runsEarly.toNat ++ w32 m'.runsMissed.toNat ++
      leBytes 2 r.tagsPeak ++ [0, 0] ++ w32 m'.update.toNat ++ w32 0 ++ ((r.replicas ++ List.replicate 256 0).take 256).map (BitVec.ofNat 8)
    Does (.runEnd t h) s t [.host, .tiles, .models, .spool, .sram] (fun d => (∀ i : Fin 48, d.tiles[i] = cnt i) ∧
        d.models = s.dev.models.set h.val (some m') ∧ d.sram.bytes (0x70000 + 0x400 * h.val) record.length = record ∧
        UnchangedOutside s.dev.sram d.sram (0x70000 + 0x400 * h.val) record.length ∧
      d.spool.ofRun h = [] ∧ d.host = (((here s t).postTo m.basket e).raise (toBasket m.basket) .runEnd).host)) ∧
  (∀ (s : State) (t : Time) (h : Handle) (m : Model) (r : Run) (v : BitVec 16),
    s.dev.models[h] = some m →
    (m.run = some r ∧ m.learn = none) →
    (r.finished = true ∧ r.seamFailed = []) →
    s.dev.spool.ofRun h = [] →
    instant s t < r.deadline →
    s.dev.pwr.state = .watch →
    (r.verdict = some v ∧ v.toNat % 256 ≠ 0 ∧ s.dev.pwr.wakeMask[2] = true) →
    Does (.runEnd t h) s t [.pwr, .host, .tiles, .models, .spool, .sram] (fun d => d.pwr = { s.dev.pwr with wakes := s.dev.pwr.wakes ||| 4 })) ∧
  (∀ (s : State) (t : Time) (h : Handle) (m : Model) (r : Run),
    s.dev.models[h] = some m →
    (m.run = some r ∧ m.learn = none) →
    r.seamFailed = [] →
    r.deadline ≤ instant s t →
    let code := if r.waitFor = true then Err.tileBusy.code else Err.runLate.code
    let m' := { m with run := none, leaving := m.leaving ++ (here s t).phasesLeft r, lastResult := code, update := m.update + 2,
                       runsEarly := m.runsEarly + 1 }
    let cnt := fun (i : Fin 48) =>
      let x := s.dev.tiles[i]
      let c := r.counts.find? (fun c => c.tile == i)
      let clips := BitVec.ofNat 32 ((c.map (·.clips)).getD 0)
      if m.place.contains i = true then { x with clipsRun := clips, uncheckedRun := BitVec.ofNat 32 ((c.map (·.unchecked)).getD 0) } else x
    let e : Ev := { event := .runEnd, subject := h.val, data0 := code.toNat, data1 := r.frame % 65536 }
    let record := w64 r.frame ++ w64 r.start.toNat ++ w64 (here s t).stamp.toNat ++ leBytes 2 code.toNat ++ leBytes 2 (r.flags ||| 32).toNat ++
      w32 r.clips ++ w32 r.saturations ++ w32 r.unchecked ++ w32 m'.runsDone.toNat ++ w32 m'.runsEarly.toNat ++ w32 m'.runsMissed.toNat ++
      leBytes 2 r.tagsPeak ++ [0, 0] ++ w32 m'.update.toNat ++ w32 0 ++ ((r.replicas ++ List.replicate 256 0).take 256).map (BitVec.ofNat 8)
    Does (.runDeadline t h) s t [.host, .tiles, .models, .spool, .sram] (fun d => d.models = s.dev.models.set h.val (some m') ∧
        d.sram.bytes (0x70000 + 0x400 * h.val) record.length = record ∧ UnchangedOutside s.dev.sram d.sram (0x70000 + 0x400 * h.val) record.length ∧
      d.spool.ofRun h = [] ∧ d.host = (((here s t).postTo m.basket e).raise (toBasket m.basket) .runEnd).host ∧
      ∀ i : Fin 48, d.tiles[i] = { cnt i with queue := (s.dev.tiles[i]).queue.filter (fun o => !(o.kind == .reload && o.handle == some h)) })) ∧
  (∀ (s : State) (t : Time) (h : Handle) (m : Model) (r : Run),
    s.dev.models[h] = some m →
    (m.run = some r ∧ m.learn = none) →
    (r.seamFailed = [] ∧ r.finished = true) →
    s.dev.spool.ofRun h = [] →
    r.deadline ≤ instant s t →
    Does (.runEnd t h) s t [.host, .tiles, .models, .spool, .sram] (fun d => d.models = s.dev.models.set h.val
      (some { m with run := none, leaving := m.leaving ++ (here s t).phasesLeft r, lastResult := Err.runLate.code, update := m.update + 2,
                     runsEarly := m.runsEarly + 1 }))) ∧
  (∀ (s : State) (t : Time) (h : Handle) (m : Model) (r : Run),
    s.dev.models[h] = some m →
    m.run = some r →
    (instant s t < r.deadline ∧ r.finished = false) →
    Does (.runDeadline t h) s t [] (fun _ => True) ∧ Does (.runEnd t h) s t [] (fun _ => True)) ∧
  (∀ (s : State) (t : Time) (h : Handle) (m : Model) (r : Run) (i : Fin 48) (n : Nat),
    let x := s.dev.tiles[i]
    s.dev.models[h] = some m →
    (m.run = some r ∧ m.learn = none) →
    (r.finished = true ∧ r.seamFailed = [(i, n)]) →
    s.dev.spool.ofRun h = [] →
    instant s t < r.deadline →
    s.dev.pwr.state ≠ .watch →
    (x.state = .ready ∧ x.due = false ∧ x.needsPress = false) →
    let cnt := fun (i : Fin 48) =>
      let x := s.dev.tiles[i]
      let c := r.counts.find? (fun c => c.tile == i)
      let clips := BitVec.ofNat 32 ((c.map (·.clips)).getD 0)
      if m.place.contains i = true then { x with clipsRun := clips, uncheckedRun := BitVec.ofNat 32 ((c.map (·.unchecked)).getD 0) } else x
    let fail : Ev := { event := .seamFail, subject := i.val, data0 := h.val, data1 := n }
    let e : Ev := { event := .runEnd, subject := h.val, data0 := 0, data1 := r.frame % 65536 }
    Does (.runEnd t h) s t [.host, .tiles, .models, .spool, .sram] (fun d =>
      (∀ j : Fin 48, j ≠ i → d.tiles[j] = cnt j) ∧ d.tiles[i] = { cnt i with state := .suspect, due := true, dueSince := instant s t } ∧
      d.sram.value (0x70000 + 0x400 * h.val + 26) 2 = (r.flags ||| 64).toNat ∧
      d.host = ((((here s t).postHeld (fun g => g.tiles[i]) fail).postTo m.basket e).raise (toBasket m.basket) .runEnd).host))

/-- Layers start, tags are dispatched and age, tiles run phases, layer outputs and descriptors complete. (R302, R315, R316, R325, R422, R480, R481,
R482, R488, R489, R490, R497) -/
def Obligations.Layers : Prop :=
  (∀ (s : State) (t : Time) (h : Handle) (m : Model) (r : Run) (l : Layer) (us : List Nat),
    let st := (here s t).layerState r
    let pol := if l.vector = true then Busy.go r.usable else m.policy r.layer st
    let seen := if r.waitFor = true ∧ l.vector = false then r.states ++ (m.layerTiles r.layer).map (fun i => (i, st i)) else r.states
    let able := fun (x : Slice) (k : Nat) => (m.replicaTile x k).any (fun i => ({ r with states := seen }.stateOf i).computes)
    let tiled := fun (x : Nat × Slice) (k : Nat) => if able x.2 k = true then [(TagKind.phases, x.1, k), (TagKind.move, x.1, k)] else []
    let slices := if l.vector = true then [] else m.image.layerSlices r.layer
    let work := slices.flatMap (fun x => (List.range x.2.tiles.length).flatMap (tiled x)) ++ (m.image.layerDescs l).map (fun x => (TagKind.vector,
        x.1, 0))
    s.dev.models[h] = some m →
    m.run = some r →
    m.image.layers[r.layer]? = some l →
    (r.layerOn = false ∧ r.gathered = true ∧ r.finished = false) →
    instant s t < r.deadline →
    (m.image.reload = none ∧ (here s t).reloading h r = false) →
    (l.vector = true → r.waitFor = false) →
    pol = .go us →
    s.dev.spool.tags.length + work.length ≤ 4096 →
    let old := s.dev.spool.tags.length
    let next := { r with layerOn := true, planned := [], accums := [], usable := us, waitFor := false, states := seen,
                         passTaken := max r.passTaken r.passDone }
    Does (.layerStart t h) s t [.models, .spool] (fun d =>
      d.models = s.dev.models.set h.val (some { m with run := some { next with tagsPeak := max r.tagsPeak (d.spool.ofRun h).length } }) ∧
      d.spool.tags.take old = s.dev.spool.tags ∧
      (let new := d.spool.tags.drop old
       new.map (fun x => (x.kind, x.index, x.replica)) = work ∧
       new.all (fun x => x.handle == some h && x.status == (if x.deps.isEmpty then .ready else .allocated)) = true ∧
       new.all (fun x => new.all (fun y => !(x.kind == .phases && y.kind == .move && x.index == y.index &&
           x.replica == y.replica) || y.deps == [x.id])) = true ∧
       new.all (fun x => new.all (fun y => !(x.kind == .move && y.kind == .vector) || y.deps.contains x.id)) = true ∧
       new.all (fun x => x.kind != .phases || x.deps.isEmpty) = true))) ∧
  (∀ (s : State) (t : Time) (h : Handle) (m : Model) (r : Run) (l : Layer),
    let st := (here s t).layerState r
    let pol := if l.vector = true then Busy.go r.usable else m.policy r.layer st
    s.dev.models[h] = some m →
    m.run = some r →
    m.image.layers[r.layer]? = some l →
    (r.layerOn = false ∧ r.gathered = true ∧ r.finished = false) →
    instant s t < r.deadline →
    (m.image.reload = none ∧ (here s t).reloading h r = false) →
    (l.vector = false ∧ pol = .wait) →
    Does (.layerStart t h) s t [.models] (fun d => d.models = s.dev.models.set h.val (some { m with run := some { r with waitFor := true, passTaken := max r.passTaken r.passDone } }))) ∧
  (∀ (s : State) (t : Time) (h : Handle) (m : Model) (r : Run) (l : Layer),
    let st := (here s t).layerState r
    let pol := if l.vector = true then Busy.go r.usable else m.policy r.layer st
    s.dev.models[h] = some m →
    m.run = some r →
    m.image.layers[r.layer]? = some l →
    (r.layerOn = false ∧ r.gathered = true ∧ r.finished = false) →
    instant s t < r.deadline →
    (m.image.reload = none ∧ (here s t).reloading h r = false) →
    (l.vector = false ∧ pol = .stop) →
    (m.learn = none ∧ r.seamFailed = []) →
    let e : Ev := { event := .runEnd, subject := h.val, data0 := Err.tileBusy.code.toNat, data1 := r.frame % 65536 }
    Does (.layerStart t h) s t [.host, .tiles, .models, .spool, .sram] (fun d =>
      d.models = s.dev.models.set h.val (some { m with run := none, leaving := m.leaving ++ (here s t).phasesLeft r, lastResult := Err.tileBusy.code,
                                                       update := m.update + 2, runsEarly := m.runsEarly + 1 }) ∧
      d.spool.ofRun h = [] ∧ UnchangedOutside s.dev.sram d.sram (0x70000 + 0x400 * h.val) 320 ∧
      d.host = (((here s t).postTo m.basket e).raise (toBasket m.basket) .runEnd).host)) ∧
  (∀ (s : State) (t : Time) (h : Handle) (m : Model) (r : Run) (l : Layer) (p : Reload),
    s.dev.models[h] = some m →
    m.run = some r →
    m.image.layers[r.layer]? = some l →
    (r.layerOn = false ∧ r.gathered = true ∧ r.finished = false) →
    instant s t < r.deadline →
    (m.image.reload = some p ∧ p.qspi = true) →
    r.passDone ≤ l.pass →
    (here s t).reloading h r = false →
    Does (.layerStart t h) s t [.models] (fun d => d.models = s.dev.models.set h.val
      (some { m with run := some { r with passDone := l.pass + 1, reloadQueue := (p.passes[l.pass]?).getD [] } }))) ∧
  (∀ (s : State) (t : Time) (h : Handle) (m : Model) (r : Run) (l : Layer),
    s.dev.models[h] = some m →
    m.run = some r →
    m.image.layers[r.layer]? = some l →
    (r.layerOn = true ∨ r.gathered = false ∨ r.finished = true ∨ r.deadline ≤ instant s t) →
    Does (.layerStart t h) s t [] (fun _ => True)) ∧
  (∀ (a b : Tag) (x y : Time),
    (a.level < b.level → a.before b = true) ∧
    (a.level = b.level → a.deadline = some x → b.deadline = none → a.before b = true ∧ b.before a = false) ∧
    (a.level = b.level → a.deadline = some x → b.deadline = some y → x < y → a.before b = true) ∧
    (a.level = b.level → a.deadline = b.deadline → a.allocAt < b.allocAt → a.before b = true)) ∧
  (∀ (s : State) (t : Time) (u : UnitId) (x : Tag),
    s.dev.pwr.halted = false →
    s.dev.spool.unitFree u = true →
    (x ∈ s.dev.spool.tags ∧ x.waitsFor u = true) →
    (s.dev.spool.tags.all (fun y => !y.waitsFor u || y == x || x.before y)) = true →
    (u = .gatherer ∨ u = .store ∨ (∃ i : Fin 48, u = .path i)) →
    let tags := s.dev.spool.tags.map (fun y => if y.id = x.id then { y with status := .issued, level := y.priority } else y)
    Does (.tagDispatch t u) s t [.spool] (fun d => d.spool = { s.dev.spool with tags := tags })) ∧
  (∀ (s : State) (t : Time) (e : Fin 4) (x : Tag) (h : Handle),
    s.dev.pwr.halted = false →
    s.dev.spool.engines[e].busy = none →
    (x ∈ s.dev.spool.tags ∧ x.waitsFor (.engine e) = true ∧ x.handle = some h) →
    (s.dev.spool.tags.all (fun y => !y.waitsFor (.engine e) || y == x || x.before y)) = true →
    let tags := s.dev.spool.tags.map (fun y => if y.id = x.id then { y with status := .issued, level := y.priority } else y)
    let v := { s.dev.spool.engines[e] with busy := some (h, x.index, x.id, instant s t) }
    (x.engine = none ∨ x.engine = some e) ∧
    Does (.tagDispatch t (.engine e)) s t [.spool] (fun d => d.spool = { s.dev.spool with tags := tags,
                                                                                          engines := s.dev.spool.engines.set e.val v })) ∧
  (∀ (s : State) (t : Time) (i : Fin 48) (x : Tag) (h : Handle) (m : Model) (r : Run) (sl : Slice) (l : Layer),
    s.dev.pwr.halted = false →
    s.dev.spool.unitFree (.tile i) = true →
    (x ∈ s.dev.spool.tags ∧ x.waitsFor (.tile i) = true ∧ x.handle = some h) →
    (s.dev.spool.tags.all (fun y => !y.waitsFor (.tile i) || y == x || x.before y)) = true →
    s.dev.models[h] = some m →
    m.run = some r →
    (m.image.slices[x.index]? = some sl ∧ m.image.layers[sl.layer]? = some l) →
    let taken := r.handed.find? (fun y => y.slice == x.index && y.tile == i)
    let phases := (here s t).planPhases h m sl l taken
    let tags := s.dev.spool.tags.map (fun y => if y.id = x.id then { y with status := .issued, level := y.priority } else y)
    let accum : Accum := { slice := x.index, replica := x.replica, sums := List.replicate (sl.delivers l) 0 }
    let plan : Planned := { tag := x.id, accepted := instant s t, handed := taken, tile := i, slice := x.index, replica := x.replica,
                            phases := phases }
    let issued := { s.dev.spool with tags := tags }
    let spool := if phases.isEmpty = true then issued.retire (instant s t) x.id true else issued
    Does (.tagDispatch t (.tile i)) s t [.models, .spool] (fun d => d.spool = spool ∧
      d.models = s.dev.models.set h.val (some { m with run := some { r with accums := r.accums ++ [accum], planned := r.planned ++ [plan] } }))) ∧
  (∀ (s : State) (t : Time) (u : UnitId),
    (s.dev.spool.tags = [] ∧ (∀ i : Fin 48, (s.dev.tiles[i]).op = none)) →
    Does (.tagDispatch t u) s t [] (fun _ => True)) ∧
  (∀ (s : State) (t : Time) (i : Fin 48) (g : Fin 8) (op : PressOp) (row : Nat) (rest : List Nat),
    let x := s.dev.tiles[i]
    (s.dev.pwr.halted = false ∧ s.dev.pwr.vddpOk = true) →
    (s.dev.pwr.state = .active ∨ s.dev.pwr.state = .boot) →
    (here s t).rowWaiting g.val = some i →
    s.dev.spool.unitFree (.press g) = true →
    (x.op = some op ∧ op.rows = row :: rest) →
    (x.counter < 1638400000 ∧ (here s t).recorded i x = true ∧ (here s t).tagAvailable op = true) →
    s.dev.spool.tags.length < 4096 →
    let outs := x.outCells op row
    let w := if outs = [] then 0 else (here s t).w16
    let flight := fun (u : Tag) => ({ row := row, tag := u.id, start := instant s t, outs := outs } : RowFlight)
    Does (.tagDispatch t (.press g)) s t [.tiles, .models, .spool] (fun d =>
      d.spool.tags.take s.dev.spool.tags.length = s.dev.spool.tags ∧
      d.spool.tags.drop s.dev.spool.tags.length ≠ [] ∧
      (d.spool.tags.drop s.dev.spool.tags.length).all (fun u => u.kind == .press && u.tile == some i && u.status == .issued &&
        d.tiles == s.dev.tiles.set i.val { x with counter := x.counter + w,
                                                  op := some { op with inFlight := some (flight u), units := op.units + w } }) = true ∧
      ∀ k : Handle, op.kind ≠ .reload ∨ op.handle ≠ some k → d.models[k] = s.dev.models[k])) ∧
  (∀ (s : State) (t : Time) (i : Fin 48) (g : Fin 8) (op : PressOp),
    let x := s.dev.tiles[i]
    (s.dev.pwr.halted = false ∧ s.dev.pwr.vddpOk = true) →
    (s.dev.pwr.state = .active ∨ s.dev.pwr.state = .boot) →
    (here s t).rowWaiting g.val = some i →
    s.dev.spool.unitFree (.press g) = true →
    (x.op = some op ∧ op.inspects = false) →
    1638400000 ≤ x.counter →
    let kept := op.darned.filter (fun e => !op.darnQueue.contains e.1)
    Does (.tagDispatch t (.press g)) s t [.tiles] (fun d =>
      d.tiles = s.dev.tiles.set i.val { x with op := some { op with rows := [], darned := kept, darnQueue := [], step := .closing,
                                                                    stopped := true } })) ∧
  (∀ (s : State) (t : Time) (x : Tag) (n : Nat),
    s.dev.spool.tags.find? (fun y => y.id == x.id) = some x →
    s.dev.spool.ageing = some n →
    (x.status = .ready ∧ x.aborting = false ∧ 0 < x.level) →
    x.readyAt + (x.priority - x.level + 1) * us (100 * n) ≤ instant s t →
    let tags := s.dev.spool.tags.map (fun y => if y.id = x.id then { y with level := y.level - 1 } else y)
    Does (.tagAgeing t x.id) s t [.spool] (fun d => d.spool = { s.dev.spool with tags := tags })) ∧
  (∀ (s : State) (t : Time) (x : Fin 4096),
    (s.dev.spool.ageing = none ∨ s.dev.spool.tags = []) →
    Does (.tagAgeing t x) s t [] (fun _ => True)) ∧
  (∀ (s : State) (t : Time) (i : Fin 48) (x : Tag) (h : Handle) (m : Model) (r : Run) (p : Planned) (ph : Phase) (rest : List Phase) (sl : Slice) (l : Layer),
    let y := s.dev.tiles[i]
    let int8 := l.weightFormat == 2
    let out := (p.handed.map (·.yields)).getD (y.phase sl int8 l.inFormat ph s.dev.free)
    let begins := max p.accepted (y.phaseEnd + if y.lastMode = some (!sl.dMode) then ns 200 else 0)
    let due := (p.handed.map (fun x => x.opened + ns 800)).getD (begins + if sl.dMode = true then ns 120 else ns 800)
    let driven : Tile := if p.handed = none then { y with lastMode := some sl.dMode, phaseEnd := instant s t } else y
    let z := { driven with clipped := y.clipped + BitVec.ofNat 32 out.clips, compared := y.compared + BitVec.ofNat 32 out.made,
                           seamFailures := y.seamFailures + BitVec.ofNat 32 out.failed }
    s.dev.pwr.halted = false →
    s.dev.spool.tags.find? (fun u => u.kind == .phases && u.tile == some i && u.status == .issued) = some x →
    (x.aborting = false ∧ x.handle = some h) →
    s.dev.models[h] = some m →
    m.run = some r →
    r.planned.find? (fun q => q.tag == x.id) = some p →
    (p.tile = i ∧ p.phases = ph :: rest) →
    (m.image.slices[x.index]? = some sl ∧ m.image.layers[sl.layer]? = some l) →
    due ≤ instant s t →
    let next := { r with accums := addAccum p.slice p.replica out.sums r.accums, clips := r.clips + out.clips, unchecked := r.unchecked + out.unmade,
                         seamFailed := addFailures i out.failed r.seamFailed, counts := addCounts i out r.counts,
                         planned := r.planned.map (fun q => if q.tag == x.id then { q with phases := rest } else q) }
    let spool := if rest = [] then s.dev.spool.retire (instant s t) x.id true else s.dev.spool
    Does (.tilePhase t i) s t [.tiles, .models, .spool, .free] (fun d => d.spool = spool ∧ d.tiles = s.dev.tiles.set i.val z ∧
      d.models = s.dev.models.set h.val (some { m with run := some next }))) ∧
  (∀ (s : State) (t : Time) (i : Fin 48) (x : Tag) (h : Handle) (m : Model) (r : Run) (p : Planned) (ph : Phase) (rest : List Phase) (sl : Slice) (l : Layer),
    let y := s.dev.tiles[i]
    let int8 := l.weightFormat == 2
    let out := (p.handed.map (·.yields)).getD (y.phase sl int8 l.inFormat ph s.dev.free)
    let begins := max p.accepted (y.phaseEnd + if y.lastMode = some (!sl.dMode) then ns 200 else 0)
    let due := (p.handed.map (fun x => x.opened + ns 800)).getD (begins + if sl.dMode = true then ns 120 else ns 800)
    let driven : Tile := if p.handed = none then { y with lastMode := some sl.dMode, phaseEnd := instant s t } else y
    let z := { driven with clipped := y.clipped + BitVec.ofNat 32 out.clips, compared := y.compared + BitVec.ofNat 32 out.made,
                           seamFailures := y.seamFailures + BitVec.ofNat 32 out.failed }
    s.dev.spool.tags.find? (fun u => u.kind == .phases && u.tile == some i && u.status == .issued) = some x →
    (x.aborting = false ∧ x.handle = some h) →
    s.dev.models[h] = some m →
    m.run = some r →
    r.planned.find? (fun q => q.tag == x.id) = some p →
    (p.tile = i ∧ p.phases = ph :: rest) →
    (m.image.slices[x.index]? = some sl ∧ m.image.layers[sl.layer]? = some l) →
    instant s t < due →
    Does (.tilePhase t i) s t [] (fun _ => True)) ∧
  (∀ (s : State) (t : Time) (i : Fin 48) (x : Tag) (h : Handle) (m : Model) (p : Planned) (ph : Phase) (rest : List Phase) (sl : Slice) (l : Layer),
    let y := s.dev.tiles[i]
    let int8 := l.weightFormat == 2
    let out := (p.handed.map (·.yields)).getD (y.phase sl int8 l.inFormat ph s.dev.free)
    let begins := max p.accepted (y.phaseEnd + if y.lastMode = some (!sl.dMode) then ns 200 else 0)
    let due := (p.handed.map (fun x => x.opened + ns 800)).getD (begins + if sl.dMode = true then ns 120 else ns 800)
    let driven : Tile := if p.handed = none then { y with lastMode := some sl.dMode, phaseEnd := instant s t } else y
    let z := { driven with clipped := y.clipped + BitVec.ofNat 32 out.clips, compared := y.compared + BitVec.ofNat 32 out.made,
                           seamFailures := y.seamFailures + BitVec.ofNat 32 out.failed }
    s.dev.pwr.halted = false →
    s.dev.spool.tags.find? (fun u => u.kind == .phases && u.tile == some i && u.status == .issued) = some x →
    (x.aborting = true ∧ x.handle = some h) →
    s.dev.models[h] = some m →
    m.leaving.find? (fun q => q.tag == x.id) = some p →
    (p.tile = i ∧ p.phases = ph :: rest) →
    (m.image.slices[x.index]? = some sl ∧ m.image.layers[sl.layer]? = some l) →
    due ≤ instant s t →
    let left := m.leaving.filter (fun q => q.tag != x.id)
    Does (.tilePhase t i) s t [.tiles, .models, .spool, .free] (fun d => d.spool = s.dev.spool.retire (instant s t) x.id false ∧
      d.tiles = s.dev.tiles.set i.val z ∧ d.models = s.dev.models.set h.val (some { m with leaving := left }))) ∧
  (∀ (s : State) (t : Time) (i : Fin 48) (x : Tag),
    s.dev.pwr.halted = false →
    s.dev.spool.tags.find? (fun u => u.kind == .phases && u.tile == some i && u.status == .issued) = some x →
    x.aborting = true →
    (∀ h ∈ x.handle, ∀ m ∈ s.dev.models[h], m.leaving.all (fun q => q.tag != x.id) = true) →
    Does (.tilePhase t i) s t [.spool] (fun d => d.spool = s.dev.spool.retire (instant s t) x.id false)) ∧
  (∀ (s : State) (t : Time) (i : Fin 48),
    s.dev.spool.tags.all (fun u => u.tile != some i) = true →
    Does (.tilePhase t i) s t [] (fun _ => True)) ∧
  (∀ (s : State) (t : Time) (h : Handle) (m : Model) (r : Run) (l : Layer),
    let mine := s.dev.spool.ofRun h
    let moves := mine.filter (fun u => u.kind == .move)
    let a := m.addrOf 0x202
    let b := m.bufferAddr r.layer
    s.dev.models[h] = some m →
    m.run = some r →
    m.image.layers[r.layer]? = some l →
    (r.layerOn = true ∧ l.vector = false ∧ m.learn = none) →
    (moves ≠ [] ∧ mine.all (fun u => u.kind != .phases) = true ∧ moves.all (fun u => u.status == .issued) = true) →
    (a + 2 * l.outCount ≤ 0x1800000 ∧ b + 2 * l.outCount ≤ 0x1800000) →
    (a + 2 * l.outCount ≤ b ∨ b + 2 * l.outCount ≤ a) →
    let sums := m.layerSums r l
    let n := 2 * l.outCount
    let last := decide (m.image.layers.length ≤ r.layer + 1)
    let beyond := (sums.filter saturates16).length
    let count := (r.replicas ++ List.replicate (r.layer - r.replicas.length) 0).take r.layer ++ [(m.contributing r).length]
    let top := if l.softHead = true then some (topOne (intsOf (int16Bytes sums) l.outCount)) else r.verdictTop
    let r' := { r with saturations := r.saturations + beyond, replicas := count, verdictTop := top }
    let next := { r' with layer := r.layer + 1, layerOn := false, usable := [], planned := [], accums := [], finished := last }
    Does (.layerOutputReady t h) s t [.models, .spool, .sram] (fun d =>
      d.sram.bytes a n = int16Bytes sums ∧ (l.descCount = 0 → d.sram.bytes b n = int16Bytes sums ∧ UnchangedOutsideBoth s.dev.sram d.sram a n b n) ∧
      (l.descCount ≠ 0 → UnchangedOutside s.dev.sram d.sram a n) ∧ (d.spool.ofRun h).all (fun u => u.kind != .move) = true ∧
      d.models = s.dev.models.set h.val (some { m with run := some (if (d.spool.ofRun h).any (fun u => u.kind == .vector) = true then r' else next) }))) ∧
  (∀ (s : State) (t : Time) (h : Handle) (m : Model) (r : Run) (l : Layer),
    s.dev.models[h] = some m →
    m.run = some r →
    m.image.layers[r.layer]? = some l →
    (r.layerOn = false ∨ l.vector = true) →
    Does (.layerOutputReady t h) s t [] (fun _ => True)) ∧
  (∀ (s : State) (t : Time) (e : Fin 4) (h : Handle) (m : Model) (i : Nat) (x : Desc) (l : Layer) (k : Nat) (g : Tag) (start : Time),
    s.dev.spool.engines[e].busy = some (h, i, g.id, start) →
    s.dev.pwr.halted = false →
    (start < instant s t ∧ instant s t ≤ start + 960 * x.cycles) →
    (s.dev.spool.tag g.id = some g ∧ g.aborting = false) →
    s.dev.models[h] = some m →
    (m.image.descs[i]? = some x ∧ m.image.descLayer i = some (l, k)) →
    let v := s.dev.spool.engines[e]
    let out := (here s t).descriptor m m.runOr l x s.dev.free
    let worked := BitVec.ofNat 64 ((instant s t - start + 959) / 960)
    let reads := ((linesOf ((here s t).readRanges m m.runOr l x)).filter (fun k => (here s t).uninit (64 * k))).length
    let p := s.dev.host.pages[m.basket]
    Does (.descriptorComplete t e) s t [.host, .models, .spool, .sram, .free] (fun d =>
      d.sram = out.writes.foldl (fun y w => y.setBytes w.1 w.2) s.dev.sram ∧
      d.host = withPage s.dev.host m.basket { p with uninitRead := p.uninitRead + BitVec.ofNat 32 reads } ∧
      d.spool.engines = s.dev.spool.engines.set e.val { busy := none, descriptors := v.descriptors + 1, cycles := v.cycles + worked } ∧
      d.spool.tags.all (fun u => u.id != g.id || u.kind == .learn) = true ∧
      d.models[h].any (fun m' => m'.run.isSome == m.run.isSome && m'.run.all (fun r' => r'.verdict == out.run.verdict &&
          r'.novelty == out.run.novelty &&
        r'.baseShadow == out.run.baseShadow && r'.headShadow == out.run.headShadow)) = true)) ∧
  (∀ (s : State) (t : Time) (m : Model) (r : Run) (l : Layer) (x : Desc) (n : Nat),
    (x.op = 3 ∧ x.inFormat = 3) →
    (x.src ≠ 0x203 ∧ x.src2 ≠ 0x203) →
    let word := fun (id i : Nat) => signed 16 (s.dev.sram.value (m.addrOf id + 2 * i) 2)
    let sum := fun (i : Nat) => leInt 2 (clampInt (-32768) 32767 (word x.src i + word x.src2 i))
    ((here s t).descriptor m r l x n).writes = [(m.addrOf x.dst, (List.range x.count).flatMap sum)]) ∧
  (∀ (s : State) (t : Time) (e : Fin 4),
    s.dev.spool.engines[e].busy = none →
    Does (.descriptorComplete t e) s t [] (fun _ => True)) ∧
  (∀ (s : State) (t : Time) (h : Handle) (m : Model) (r : Run) (l : Layer),
    let mine := s.dev.spool.ofRun h
    let moves := mine.filter (fun u => u.kind == .move)
    s.dev.models[h] = some m →
    m.run = some r →
    m.image.layers[r.layer]? = some l →
    (r.layerOn = true ∧ l.vector = false ∧ m.learn ≠ none) →
    m.image.layers.length = r.layer + 1 →
    (moves ≠ [] ∧ mine = moves ∧ moves.all (fun u => u.status == .issued) = true) →
    s.dev.spool.tags.length ≤ 4096 →
    Does (.layerOutputReady t h) s t [.models, .spool, .sram] (fun d => (d.spool.ofRun h).map (·.kind) = [.learn] ∧
      d.models[h].any (fun m' => m'.run.any (fun r' => r'.finished)) = true))

/-- The directory of the operand caches serves requests, write-backs and the ends of holds. (R498, R499, R500, R501, R502, R507, Table 10-5) -/
def Obligations.Caches : Prop :=
  (∀ (s : State) (t : Time) (e : Fin 4) (n : Fin 393216) (own : Bool) (o : List (Fin 4)),
    let l := s.dev.spool.line n.val
    (s.dev.pwr.state = .active ∨ (s.dev.pwr.state = .watch ∧ ∃ h : Handle, (s.dev.models[h]).any (fun m => m.run.isSome) = true)) →
    (l.writeback = false ∧ l.waiting = [] ∧ own = false) →
    (l.state = .uncached ∨ l.state = .shared o ∧ o.contains e = false) →
    (s.dev.spool.lines.filter (fun x => x.line % 64 == n.val % 64 && x.line != n.val && x.cachedBy e)).length < 4 →
    let sharers := if l.state = .uncached then [e] else o ++ [e]
    Does (.cacheRequest t e n own) s t [.spool, .free] (fun d => d.spool = s.dev.spool.putLine { l with state := .shared sharers })) ∧
  (∀ (s : State) (t : Time) (e : Fin 4) (n : Fin 393216) (own : Bool) (o : List (Fin 4)),
    let l := s.dev.spool.line n.val
    (s.dev.pwr.state = .active ∨ (s.dev.pwr.state = .watch ∧ ∃ h : Handle, (s.dev.models[h]).any (fun m => m.run.isSome) = true)) →
    (l.writeback = false ∧ l.waiting = [] ∧ own = true) →
    (l.state = .uncached ∨ l.state = .shared o) →
    (s.dev.spool.lines.filter (fun x => x.line % 64 == n.val % 64 && x.line != n.val && x.cachedBy e)).length < 4 →
    let sharers := if l.state = .uncached then [] else o
    let cycles := (if sharers.any (· != e) = true then 2 else 0) + (if sharers.contains e = true then 0 else 6)
    Does (.cacheRequest t e n own) s t [.spool, .free] (fun d =>
      d.spool = s.dev.spool.putLine { l with state := .owned e (instant s t + 960 * cycles) })) ∧
  (∀ (s : State) (t : Time) (e : Fin 4) (n : Fin 393216) (own : Bool) (by_ : Fin 4) (since : Time),
    let l := s.dev.spool.line n.val
    (s.dev.pwr.state = .active ∨ (s.dev.pwr.state = .watch ∧ ∃ h : Handle, (s.dev.models[h]).any (fun m => m.run.isSome) = true)) →
    (l.writeback = false ∧ l.waiting = []) →
    (l.state = .owned by_ since ∧ by_ ≠ e) →
    (s.dev.spool.lines.filter (fun x => x.line % 64 == n.val % 64 && x.line != n.val && x.cachedBy e)).length < 4 →
    let ended := decide (since + 15360 ≤ instant s t)
    let recalled := { l with waiting := [(e, own)], writeback := true, writeFrom := instant s t, keepShared := !own && !l.purge, purge := false }
    Does (.cacheRequest t e n own) s t [.spool, .free] (fun d =>
      d.spool = s.dev.spool.putLine (if ended = true then recalled else { l with waiting := [(e, own)] }))) ∧
  (∀ (s : State) (t : Time) (e : Fin 4) (n : Fin 393216) (own : Bool),
    let l := s.dev.spool.line n.val
    (s.dev.pwr.state = .active ∨ (s.dev.pwr.state = .watch ∧ ∃ h : Handle, (s.dev.models[h]).any (fun m => m.run.isSome) = true)) →
    l.writeback = true →
    l.waiting.any (fun w => w.1 == e) = false →
    (s.dev.spool.lines.filter (fun x => x.line % 64 == n.val % 64 && x.line != n.val && x.cachedBy e)).length < 4 →
    Does (.cacheRequest t e n own) s t [.spool, .free] (fun d => d.spool = s.dev.spool.putLine { l with waiting := l.waiting ++ [(e, own)] })) ∧
  (∀ (s : State) (t : Time) (e : Fin 4) (n : Fin 393216) (own : Bool),
    let l := s.dev.spool.line n.val
    let held := s.dev.spool.lines.filter (fun x => x.line % 64 == n.val % 64 && x.line != n.val && x.cachedBy e)
    (s.dev.pwr.state = .active ∨ (s.dev.pwr.state = .watch ∧ ∃ h : Handle, (s.dev.models[h]).any (fun m => m.run.isSome) = true)) →
    (l.writeback = false ∧ l.waiting = [] ∧ l.state = .uncached) →
    4 ≤ held.length →
    let next := if own = true then LineState.owned e (instant s t + 5760) else .shared [e]
    Does (.cacheRequest t e n own) s t [.spool, .free] (fun d =>
      held.any (fun v => d.spool == (s.dev.spool.putLine (v.evict (instant s t) e)).putLine { l with state := next }) = true)) ∧
  (∀ (s : State) (t : Time) (e : Fin 4) (n : Fin 393216) (own : Bool),
    let l := s.dev.spool.line n.val
    (s.dev.pwr.state = .active ∨ (s.dev.pwr.state = .watch ∧ ∃ h : Handle, (s.dev.models[h]).any (fun m => m.run.isSome) = true)) →
    (l.writeback = false ∧ l.serves e own = true) →
    Does (.cacheRequest t e n own) s t [.free] (fun _ => True)) ∧
  (∀ (s : State) (t : Time) (e : Fin 4) (n : Fin 393216) (own : Bool),
    s.dev.pwr.state ≠ .active →
    (s.dev.pwr.state = .watch → ∀ h : Handle, (s.dev.models[h]).any (fun m => m.run.isSome) = false) →
    Does (.cacheRequest t e n own) s t [] (fun _ => True)) ∧
  (∀ (s : State) (t : Time) (n : Fin 393216) (by_ : Fin 4) (since : Time),
    let l := s.dev.spool.line n.val
    (l.writeback = true ∧ l.writeFrom + 3840 ≤ instant s t) →
    (l.waiting = [] ∧ l.state = .owned by_ since) →
    let next := if l.keepShared = true then LineState.shared [by_] else .uncached
    Does (.cacheWriteback t n) s t [.spool] (fun d => d.spool = s.dev.spool.putLine { l with writeback := false, keepShared := false,
                                                                                             state := next })) ∧
  (∀ (s : State) (t : Time) (n : Fin 393216) (by_ e : Fin 4) (since : Time) (own : Bool),
    let l := s.dev.spool.line n.val
    (l.writeback = true ∧ l.writeFrom + 3840 ≤ instant s t) →
    (l.waiting = [(e, own)] ∧ l.state = .owned by_ since ∧ by_ ≠ e) →
    let sharers := if l.keepShared = true then [by_] else []
    let cycles := if l.keepShared = true then 8 else 6
    let next := if own = true then LineState.owned e (instant s t + 960 * cycles) else .shared (sharers ++ [e])
    Does (.cacheWriteback t n) s t [.spool] (fun d =>
      d.spool = ({ s.dev.spool with pointer := e + 1 }).putLine { l with writeback := false, keepShared := false, waiting := [], state := next })) ∧
  (∀ (s : State) (t : Time) (n : Fin 393216) (e f : Fin 4) (by_ : Fin 4) (since : Time),
    let l := s.dev.spool.line n.val
    (l.writeback = true ∧ l.writeFrom + 3840 ≤ instant s t) →
    (l.waiting = [(e, true), (f, true)] ∧ l.keepShared = false ∧ l.state = .owned by_ since) →
    e ≠ f →
    let p := s.dev.spool.pointer
    let first := if (e - p).val < (f - p).val then (e, f) else (f, e)
    Does (.cacheWriteback t n) s t [.spool] (fun d => d.spool = ({ s.dev.spool with pointer := first.1 + 1 }).putLine
      { l with writeback := false, keepShared := false, waiting := [(first.2, true)], state := .owned first.1 (instant s t + 5760) })) ∧
  (∀ (s : State) (t : Time) (n : Fin 393216),
    let l := s.dev.spool.line n.val
    (l.writeback = false ∨ instant s t < l.writeFrom + 3840) →
    Does (.cacheWriteback t n) s t [] (fun _ => True)) ∧
  (∀ (s : State) (t : Time) (n : Fin 393216) (by_ e : Fin 4) (since : Time) (own : Bool),
    let l := s.dev.spool.line n.val
    (l.state = .owned by_ since ∧ l.waiting = [(e, own)] ∧ l.writeback = false) →
    since + 15360 ≤ instant s t →
    Does (.ownershipHoldEnd t n) s t [.spool] (fun d => d.spool = s.dev.spool.putLine
      { l with writeback := true, writeFrom := instant s t, keepShared := !own && !l.purge, purge := false })) ∧
  (∀ (s : State) (t : Time) (n : Fin 393216) (by_ : Fin 4) (since : Time),
    let l := s.dev.spool.line n.val
    (l.state = .owned by_ since ∧ l.waiting = [] ∧ l.writeback = false ∧ l.purge = true) →
    since + 15360 ≤ instant s t →
    Does (.ownershipHoldEnd t n) s t [.spool] (fun d => d.spool = s.dev.spool.putLine
      { l with writeback := true, writeFrom := instant s t, keepShared := false, purge := false })) ∧
  (∀ (s : State) (t : Time) (n : Fin 393216) (by_ : Fin 4) (since : Time),
    let l := s.dev.spool.line n.val
    l.state = .owned by_ since →
    (instant s t < since + 15360 ∨ (l.waiting = [] ∧ l.purge = false)) →
    Does (.ownershipHoldEnd t n) s t [.spool] (fun d => d.spool = s.dev.spool.putLine l))

/-- LN_ACK, LN_PATCH, LN_RECOMMISSION and LN_FORGET. (R528, R537, R539, R554, R559, Table 16-10) -/
def Obligations.LearnCommands : Prop :=
  (∀ (s : State) (t : Time) (b : Basket) (h : Handle) (m : Model) (l : Learn) (sp : LearnSpec),
    StartsAwake s b →
    arg s b 0 = h.val →
    (s.dev.models[h] = some m ∧ m.learn = some l ∧ m.image.learn = some sp) →
    (m.basket = b ∨ b = 0) →
    l.state = .frozen →
    let next := { l with state := .adopting, winStart := some (here s t).stamp.toNat, winLen := sp.releaseTime * 1000000000 }
    let e : Ev := { event := .learnAdopt, subject := h.val }
    let posted := ((here s t).postTo m.basket e).host
    CompletesOver posted (.lnAck t b) s t b 0 0 0 0 [.models,
        .store] (fun d => d.models = s.dev.models.set h.val (some { m with learn := some next }) ∧
      d.store = { s.dev.store with trigger := true })) ∧
  (∀ (s : State) (t : Time) (b : Basket) (h : Handle) (m : Model) (l : Learn) (sp : LearnSpec),
    StartsAwake s b →
    arg s b 0 = h.val →
    (s.dev.models[h] = some m ∧ m.learn = some l ∧ m.image.learn = some sp) →
    (m.basket = b ∨ b = 0) →
    (l.state = .learning ∧ l.doubt = true) →
    Completes (.lnAck t b) s t b 0 0 0 0 [.models] (fun d => d.models = s.dev.models.set h.val (some { m with learn := some { l with doubt := false } }))) ∧
  (∀ (s : State) (t : Time) (b : Basket) (h : Handle) (m : Model) (l : Learn) (sp : LearnSpec),
    StartsAwake s b →
    arg s b 0 = h.val →
    (s.dev.models[h] = some m ∧ m.learn = some l ∧ m.image.learn = some sp) →
    (m.basket = b ∨ b = 0) →
    (l.state ≠ .frozen ∧ (l.state ≠ .learning ∨ l.doubt = false)) →
    Refuses (.lnAck t b) s t b .state) ∧
  (∀ (s : State) (t : Time) (b : Basket) (h : Handle) (m : Model) (l : Learn) (sp : LearnSpec),
    StartsAwake s b →
    arg s b 0 = h.val →
    (s.dev.models[h] = some m ∧ m.learn = some l ∧ m.image.learn = some sp) →
    m.basket = b →
    Completes (.lnPatch t b) s t b 0 0 0 0 [.models] (fun d => d.models = s.dev.models.set h.val (some { m with learn := some { l with patchDue := some 1 } }))) ∧
  (∀ (s : State) (t : Time) (b : Basket) (h : Handle) (m : Model) (l : Learn) (sp : LearnSpec),
    let base := m.addrOf m.image.baselineId
    let n := m.image.baselineCount
    let head := m.addrOf 0x201
    let codes := codeWords l.imageCodes
    StartsAwake s b →
    arg s b 0 = h.val →
    (s.dev.models[h] = some m ∧ m.learn = some l ∧ m.image.learn = some sp) →
    m.basket = b →
    (base + 8 * n ≤ 0x1800000 ∧ head + codes.length ≤ 0x1800000) →
    (m.image.stats.isSome = true → base + 8 * n ≤ head ∨ head + codes.length ≤ base) →
    Completes (.lnRecommission t b) s t b 0 0 0 0 [.models, .spool, .sram] (fun d =>
      d.models = s.dev.models.set h.val (some { m with learn := some { l with recommission := true, doubt := false,
                                                                              base := List.replicate (8 * n) 0 } }) ∧
      d.sram.bytes head codes.length = codes ∧
      (m.image.stats.isSome = true → d.sram.bytes base (8 * n) = List.replicate (8 * n) 0 ∧
          UnchangedOutsideBoth s.dev.sram d.sram base (8 * n) head codes.length) ∧
      (m.image.stats.isSome = false → UnchangedOutside s.dev.sram d.sram head codes.length))) ∧
  (∀ (s : State) (t : Time) (b : Basket) (h : Handle) (m : Model),
    StartsAwake s b →
    arg s b 0 = h.val →
    (s.dev.models[h] = some m ∧ m.learn = none ∧ m.basket = b) →
    Refuses (.lnAck t b) s t b .state ∧ Refuses (.lnPatch t b) s t b .state ∧ Refuses (.lnRecommission t b) s t b .state) ∧
  (∀ (s : State) (t : Time) (b : Basket),
    let id := arg32 s b 0
    StartsAwake s b →
    ((here s t).namedEntry b id).isSome = true →
    (∀ h : Handle, (s.dev.models[h]).all (fun m => m.basket != b || m.image.modelId.toNat != id) = true) →
    let a := s.dev.store.area b
    let rest := a.1.filter (fun e => e.modelId.toNat != id)
    let area := if rest = [] ∧ a.2 = [] then none else some (rest, a.2)
    Completes (.lnForget t b) s t b 0 0 0 0 [.store] (fun d => d.store = { s.dev.store with areas := s.dev.store.areas.set b.val area,
                                                                                            trigger := true })) ∧
  (∀ (s : State) (t : Time) (b : Basket),
    let id := arg32 s b 0
    StartsAwake s b →
    ((here s t).namedEntry b id).isSome = true →
    (∃ h : Fin 16, (s.dev.models[h]).any (fun m => m.basket == b && m.image.modelId.toNat == id) = true) →
    Refuses (.lnForget t b) s t b .busy)

/-- PS_SET, PS_PUT, PS_GET and PS_CHECKPOINT; a record write starts, is verified or fails; a checkpoint falls due. (R366, R555, R558, R559, R560,
R561, R562, R563, R564, R567, R571, R813) -/
def Obligations.PatchStore : Prop :=
  (∀ (s : State) (t : Time),
    StartsAwake s 0 →
    (1 ≤ arg s 0 0 ∧ arg s 0 0 ≤ 168) →
    (20 ≤ arg s 0 1 ∧ arg s 0 1 ≤ 1000) →
    Completes (.psSet t 0) s t 0 0 0 0 0 [.store] (fun d => d.store = { s.dev.store with checkpointHours := arg s 0 0, holdUp := arg s 0 1 })) ∧
  (∀ (s : State) (t : Time) (b : Basket),
    let a := arg32 s b 0
    let n := arg32 s b 2
    StartsAwake s b →
    (0 < n ∧ HeldRange s b a n) →
    n ≤ (here s t).freePatchQuota b + (s.dev.store.area b).2.length →
    let area := some ((s.dev.store.area b).1, s.dev.sram.bytes a n)
    Completes (.psPut t b) s t b 0 0 0 0 [.store] (fun d => d.store = { s.dev.store with areas := s.dev.store.areas.set b.val area,
                                                                                         trigger := true })) ∧
  (∀ (s : State) (t : Time) (b : Basket),
    let a := arg32 s b 0
    let n := arg32 s b 2
    StartsAwake s b →
    (0 < n ∧ HeldRange s b a n) →
    (here s t).freePatchQuota b + (s.dev.store.area b).2.length < n →
    Refuses (.psPut t b) s t b .quota) ∧
  (∀ (s : State) (t : Time) (b : Basket),
    let a := arg32 s b 0
    let blob := (s.dev.store.area b).2
    StartsAwake s b →
    HeldRange s b a blob.length →
    let n := blob.length
    Completes (.psGet t b) s t b (BitVec.ofNat 16 n) (BitVec.ofNat 16 (n / 65536)) 0 0 [.spool, .sram] (fun d =>
      d.sram.bytes a n = blob ∧ UnchangedOutside s.dev.sram d.sram a n)) ∧
  (∀ (s : State) (t : Time) (b : Basket),
    StartsAwake s b →
    Begins (.psCheckpoint t b) s t b 0x0715 [.store] (fun d => d.store = { s.dev.store with waiting := s.dev.store.waiting.set b.val true,
                                                                                            trigger := true })) ∧
  (∀ (s : State) (t : Time),
    let old := s.dev.store
    (s.dev.pwr.state = .active ∨ s.dev.pwr.state = .boot) →
    (s.dev.pwr.selected = true ∧ old.writing = none ∧ old.trigger = true ∧ old.pfailAt = none) →
    old.writes[old.nextBank] ≠ 99999 →
    let bank := old.nextBank
    Does (.storeWriteStart t) s t [.store] (fun d => d.store.writes = old.writes.set bank.val (old.writes[bank] + 1) ∧ d.store.trigger = false ∧
      d.store.serving = old.waiting ∧ d.store.waiting = Vector.replicate 4 false ∧ d.store.newest = old.newest ∧
      d.store.banks[1 - bank] = old.banks[1 - bank] ∧ (d.store.banks[bank]).take 4 = [0, 0, 0, 0] ∧
      d.store.writing.any (fun w => w.bank == bank && w.seq == old.nextSeq && !w.clean && !w.again && w.started == instant s t &&
        w.ends == instant s t + us 40 + ns (10 * w.bytes.length) && w.bytes.drop 4 == (d.store.banks[bank]).drop 4 &&
        w.bytes.take 4 == [0x50, 0x54, 0x43, 0x48]) = true)) ∧
  (∀ (s : State) (t : Time),
    let old := s.dev.store
    s.dev.pwr.state = .active →
    (s.dev.pwr.selected = true ∧ old.writing = none ∧ old.trigger = true ∧ old.pfailAt = none) →
    old.writes[old.nextBank] = 99999 →
    let e : Ev := { event := .storeWorn, subject := old.nextBank.val }
    Does (.storeWriteStart t) s t [.host, .store] (fun d => d.store.writes = old.writes.set old.nextBank.val 100000 ∧ d.store.writing.isSome = true ∧
      d.host = ((here s t).postAll e).host)) ∧
  (∀ (s : State) (t : Time),
    (s.dev.store.writing ≠ none ∨ (s.dev.pwr.state = .active ∧ s.dev.store.trigger = false) ∨ s.dev.pwr.state = .watch) →
    Does (.storeWriteStart t) s t [] (fun _ => True)) ∧
  (∀ (s : State) (t : Time) (w : StoreWrite),
    let old := s.dev.store
    old.writing = some w →
    (w.started < instant s t ∧ instant s t ≤ w.ends) →
    (old.pfailAt = none ∧ w.patches = [] ∧ old.serving = Vector.replicate 4 false) →
    Does (.storeWriteDone t true) s t [.keep, .tiles,
        .store] (fun d => d.keep = { s.dev.keep with pfailWrite := if w.atPfail = true then 1 else s.dev.keep.pfailWrite,
                                                     pfailClean := s.dev.keep.pfailClean || w.clean } ∧
      d.store = { old with banks := old.banks.set w.bank.val w.bytes, newest := some (w.bank, w.seq, w.bytes.length), newestClean := w.clean,
                           writing := none, nextBank := 1 - w.bank, nextSeq := nextSeqOf w.seq, empty := false, stepInForce := w.step,
                           lastAt := instant s t, actionDone := old.actionDone || w.clean } ∧
      ∀ i : Fin 48, let x := s.dev.tiles[i]
        d.tiles[i] = ((w.arms[i.val]?).map (fun a => { x with armed := a.1, saved := a.2 })).getD x)) ∧
  (∀ (s : State) (t : Time) (w : StoreWrite) (b : Basket) (run : Running),
    let old := s.dev.store
    old.writing = some w →
    (w.started < instant s t ∧ instant s t ≤ w.ends) →
    (old.pfailAt = none ∧ w.patches = []) →
    (∀ c : Basket, old.serving[c] = decide (c = b)) →
    (s.dev.host.pages[b].running = some run ∧ run.code = 0x0715 ∧ run.outcome = none) →
    let good := withPage s.dev.host b { s.dev.host.pages[b] with running := some { run with outcome := some (success []) } }
    Does (.storeWriteDone t true) s t [.keep, .host, .tiles,
        .store] (fun d => d.keep = { s.dev.keep with pfailWrite := if w.atPfail = true then 1 else s.dev.keep.pfailWrite,
                                                     pfailClean := s.dev.keep.pfailClean || w.clean } ∧
      d.store.newest = some (w.bank, w.seq, w.bytes.length) ∧
      d.store.serving = Vector.replicate 4 false ∧ d.host = good)) ∧
  (∀ (s : State) (t : Time) (w : StoreWrite),
    let old := s.dev.store
    old.writing = some w →
    (w.started < instant s t ∧ instant s t ≤ w.ends) →
    (w.again = false ∧ old.pfailAt = none ∧ s.dev.pwr.state ≠ .fault) →
    old.writes[old.nextBank] ≠ 99999 →
    let bank := old.nextBank
    Does (.storeWriteDone t false) s t [.store] (fun d => d.store.writes = old.writes.set bank.val (old.writes[bank] + 1) ∧
        d.store.newest = old.newest ∧
      d.store.trigger = old.trigger ∧ d.store.serving = old.serving ∧ d.store.waiting = old.waiting ∧ d.store.nextSeq = old.nextSeq ∧
      d.store.banks[1 - bank] = old.banks[1 - bank] ∧ (d.store.banks[bank]).take 4 = [0, 0, 0, 0] ∧
      d.store.writing.any (fun x => x.bank == bank && x.seq == old.nextSeq && x.clean == w.clean && x.again && x.started == instant s t &&
        x.ends == instant s t + us 40 + ns (10 * x.bytes.length) && x.bytes.drop 4 == (d.store.banks[bank]).drop 4) = true)) ∧
  (∀ (s : State) (t : Time) (w : StoreWrite),
    let old := s.dev.store
    old.writing = some w →
    (w.started < instant s t ∧ instant s t ≤ w.ends) →
    (w.again = true ∨ old.pfailAt ≠ none ∨ s.dev.pwr.state = .fault) →
    old.serving = Vector.replicate 4 false →
    let e : Ev := { event := .patchWrite, subject := w.bank.val, data0 := Err.patchWrite.code.toNat }
    Does (.storeWriteDone t false) s t [.keep, .host, .store] (fun d => d.store = { old with writing := none,
                                                                                             actionDone := old.actionDone || w.clean } ∧
      d.keep = { s.dev.keep with pfailWrite := if w.atPfail = true then 2 else s.dev.keep.pfailWrite } ∧ d.host = ((here s t).postAll e).host)) ∧
  (∀ (s : State) (t : Time) (v : Bool),
    s.dev.store.writing = none →
    Does (.storeWriteDone t v) s t [] (fun _ => True)) ∧
  (∀ (s : State) (t : Time),
    s.dev.pwr.selected = true →
    let due := decide (s.dev.store.lastAt + sec (3600 * s.dev.store.checkpointHours) ≤ instant s t)
    Does (.checkpointDue t) s t [.store] (fun d => d.store = { s.dev.store with trigger := due || s.dev.store.trigger })) ∧
  (∀ (s : State) (t : Time),
    s.dev.pwr.selected = false →
    Does (.checkpointDue t) s t [] (fun _ => True) ∧ Does (.storeWriteStart t) s t [] (fun _ => True))

/-- LK_SET, LK_SET_ENTRY and LK_COMMIT, and the instant the Ixward group takes effect. (R589, R592, R598, R599, R601, R639, R640, R641, R819, R822,
R832, Table 13-7) -/
def Obligations.LinkSettings : Prop :=
  (∀ (s : State) (t : Time) (set : LinkSet),
    StartsAwake s 0 →
    zeroSetting (arg s 0 0) (arg32 s 0 1) (arg s 0 1) (arg s 0 2) = false →
    s.dev.link.staged.set.put (arg s 0 0) (arg32 s 0 1) (arg s 0 1) (arg s 0 2) = some set →
    Completes (.lkSet t 0) s t 0 0 0 0 0 [.link] (fun d => d.link = { s.dev.link with staged := { s.dev.link.staged with set := set } })) ∧
  (∀ (c : LinkSet) (v : Nat),
    (1 ≤ v → v ≤ 64 → c.put 2 v v 0 = some { c with node := v }) ∧ (250 ≤ v → v ≤ 16000 → c.put 3 v v 0 = some { c with cycleUs := v }) ∧
    (2 ≤ v → v ≤ 255 → c.put 4 v v 0 = some { c with slots := v }) ∧ (v ≤ 1023 → c.put 6 v v 0 = some { c with minislots := v }) ∧
    (1 ≤ v → v ≤ 16 → c.put 7 v v 0 = some { c with miniUs := v }) ∧ (1 ≤ v → v ≤ 63 → c.put 8 v v 0 = some { c with apoUs := v }) ∧
    (v ≤ 128 → c.put 9 v v 0 = some { c with maxDyn := v }) ∧ (1 ≤ v → v ≤ 100 → c.put 35 v v 0 = some { c with offsetLimit := v }) ∧
    (64 < v → v < 65536 → c.put 2 v v 0 = none ∧ c.put 36 v v 0 = none) ∧ (c.put 1 0xFFFF 0xFFFF 0).isSome = decide (4 ≤ c.slotUs)) ∧
  (∀ (s : State) (t : Time),
    StartsAwake s 0 →
    zeroSetting (arg s 0 0) (arg32 s 0 1) (arg s 0 1) (arg s 0 2) = true →
    Refuses (.lkSet t 0) s t 0 .argZero) ∧
  (∀ (s : State) (t : Time),
    StartsAwake s 0 →
    zeroSetting (arg s 0 0) (arg32 s 0 1) (arg s 0 1) (arg s 0 2) = false →
    s.dev.link.staged.set.put (arg s 0 0) (arg32 s 0 1) (arg s 0 1) (arg s 0 2) = none →
    Refuses (.lkSet t 0) s t 0 .argRange) ∧
  (∀ (s : State) (t : Time) (e : SlotEntry),
    StartsAwake s 0 →
    (arg s 0 0 < 512 ∧ argBit s 0 5 15 = false ∧ arg s 0 5 % 4 ≤ 2) →
    (arg s 0 1 = e.slot + 256 * e.owner ∧ arg s 0 2 = (e.basket.val + 4 * e.kind + 16 * e.use + 64 * e.silent.toNat) + 256 * e.base) →
    (arg s 0 3 = e.repExp + 256 * e.span ∧ arg s 0 4 = e.maxLen + 256 * e.rank) →
    (e.source = if arg s 0 5 % 4 = 1 then .features (arg s 0 6) (arg s 0 7) else if arg s 0 5 % 4 = 2 then .buffer else .none) →
    (arg s 0 5 % 4 = 1 → 1 ≤ arg s 0 7 ∧ arg s 0 7 ≤ 256) →
    (e.slot ≤ 254 ∧ e.owner ≤ 64 ∧ e.kind ≤ 2 ∧ e.use ≤ 2 ∧ e.repExp ≤ 6 ∧ e.base < 2 ^ e.repExp ∧ 1 ≤ e.span ∧ e.span ≤ 8 ∧ e.maxLen ≤ 128 ∧
        e.rank ≤ 4) →
    let c := s.dev.link.staged
    Completes (.lkSetEntry t 0) s t 0 0 0 0 0 [.link] (fun d => d.link = { s.dev.link with staged := { c with entries := assocSet (arg s 0 0) e c.entries } })) ∧
  (∀ (s : State) (t : Time),
    StartsAwake s 0 →
    (arg s 0 0 < 512 ∧ argBit s 0 5 15 = true) →
    let c := s.dev.link.staged
    Completes (.lkSetEntry t 0) s t 0 0 0 0 0 [.link] (fun d => d.link = { s.dev.link with staged := { c with entries := assocErase (arg s 0 0) c.entries } })) ∧
  (∀ (s : State) (t : Time),
    StartsAwake s 0 →
    argBit s 0 4 0 = true →
    s.dev.link.pending = none →
    Completes (.lkCommit t 0) s t 0 0 0 0 0 [.link] (fun d => d.link = { s.dev.link with staged := s.dev.link.live })) ∧
  (∀ (s : State) (t : Time),
    let l := s.dev.link
    StartsAwake s 0 →
    argBit s 0 4 0 = false →
    (l.pending = none ∧ (here s t).linkAgrees l.staged = true) →
    (l.synced = true ∧ l.live.set.topology ≠ .off) →
    let p : LinkCommit := { copy := l.staged, from_ := instant s t + us 100, at_ := arg32 s 0 0 + 4294967296 * arg32 s 0 2 }
    Completes (.lkCommit t 0) s t 0 0 0 0 0 [.link] (fun d => d.link = { l with pending := some p })) ∧
  (∀ (s : State) (t : Time),
    let l := s.dev.link
    StartsAwake s 0 →
    argBit s 0 4 0 = false →
    (l.pending ≠ none ∨ (here s t).linkAgrees l.staged = false) →
    Refuses (.lkCommit t 0) s t 0 .stagedConflict) ∧
  (∀ (s : State) (t : Time),
    let l := s.dev.link
    let c := (here s t).clk
    let n := c.edgeFrom (instant s t)
    let free := { c with edgeNo := n, edgeAt := c.edgeTime n, edgeRate := 0 }
    StartsAwake s 0 →
    argBit s 0 4 0 = false →
    (l.pending = none ∧ (here s t).linkAgrees l.staged = true) →
    s.dev.pwr.state = .active →
    (l.live.set.topology = .off ∧ l.state = .off ∧ l.claims = []) →
    l.staged.set.topology = .bus →
    let kept := l.buffers.filter (fun b => match assocGet? b.1 l.staged.entries with | none => false | some e => e.owner == l.staged.set.node || e.kind == 2)
    let l' := { l with live := l.staged, pending := none, nextCycle := l.cycleAt + stretched l.rate (us l.staged.set.cycleUs), buffers := kept,
                       root := 0 }
    let h := (((here s t).postLink { event := .commitApplied, subject := 3 }).raise everyBasket .link).postLink { event := .linkState, data0 := 1 }
    CompletesOver h.host (.lkCommit t 0) s t 0 0 0 0 0 [.clk,
        .link] (fun d => d.link = { l' with state := .listen, stateAt := instant s t, adopting := true, missCycles := 0, offCycles := 0,
                                            clampCycles := 0, coldCycles := 0, noStartup := 0, joinedFor := 0, fullCycle := false, fence := .none } ∧
      d.clk = (if l.staged.set.discipline then c else free))) ∧
  (∀ (s : State) (t : Time) (p : LinkCommit),
    let l := s.dev.link
    let c := (here s t).clk
    let n := c.edgeFrom (instant s t)
    let free := { c with edgeNo := n, edgeAt := c.edgeTime n, edgeRate := 0 }
    s.dev.pwr.state = .active →
    (l.pending = some p ∧ (here s t).linkCommitDue p = true) →
    (l.claims = [] ∧ l.state = .joined) →
    (p.copy.set.topology ≠ .off ∧ p.copy.set.topology ≠ .ring ∧ l.live.set.leaves p.copy.set = false) →
    let kept := l.buffers.filter (fun b => match assocGet? b.1 p.copy.entries with | none => false | some e => e.owner == p.copy.set.node || e.kind == 2)
    Does (.ixwardCommitApply t) s t [.clk, .host, .link] (fun d => d.host = ((here s t).postLink { event := .commitApplied, subject := 3 }).host ∧
      d.link = { l with live := p.copy, pending := none, nextCycle := l.cycleAt + stretched l.rate (us p.copy.set.cycleUs), buffers := kept,
                        root := 0 } ∧ d.clk = (if p.copy.set.discipline then c else free))) ∧
  (∀ (s : State) (t : Time) (p : LinkCommit),
    let l := s.dev.link
    let c := (here s t).clk
    let n := c.edgeFrom (instant s t)
    let free := { c with edgeNo := n, edgeAt := c.edgeTime n, edgeRate := 0 }
    s.dev.pwr.state = .active →
    (l.pending = some p ∧ (here s t).linkCommitDue p = true) →
    (l.claims = [] ∧ l.state = .joined) →
    (p.copy.set.topology ≠ .off ∧ l.live.set.leaves p.copy.set = true) →
    let h := (((here s t).postLink { event := .commitApplied, subject := 3 }).raise everyBasket .link).postLink { event := .linkState, data0 := 1 }
    Does (.ixwardCommitApply t) s t [.clk, .host, .link] (fun d => d.host = h.host ∧ d.clk = (if p.copy.set.discipline then c else free) ∧
        d.link.live = p.copy ∧ d.link.pending = none ∧ d.link.state = .listen ∧ d.link.stateAt = instant s t)) ∧
  (∀ (s : State) (t : Time),
    (∀ p ∈ s.dev.link.pending, (here s t).linkCommitDue p = false) →
    Does (.ixwardCommitApply t) s t [] (fun _ => True))

/-- LK_SEND, LK_CLAIM, LK_RELEASE, LK_MAIL_SEND, LK_MAIL_READ and LK_REARM. (R606, R607, R618, R619, R632, R638, R687, R707, R812, R833) -/
def Obligations.LinkCommands : Prop :=
  (∀ (s : State) (t : Time) (b : Basket) (e : SlotEntry),
    let l := s.dev.link
    let n := arg s b 0
    let a := arg32 s b 1
    let k := arg s b 3
    StartsAwake s b →
    l.pending = none →
    assocGet? n l.live.entries = some e →
    ((l.treat n e).kind = 0 ∧ (l.treat n e).owner = l.live.set.node ∧ (l.treat n e).basket = b) →
    k ≤ e.maxLen →
    HeldRange s b a (2 * k) →
    let words := packetWords (s.dev.sram.bytes a (2 * k))
    Completes (.lkSend t b) s t b 0 0 0 0 [.link] (fun d => d.link = { l with buffers := assocSet n (words, instant s t) l.buffers })) ∧
  (∀ (s : State) (t : Time) (b : Basket),
    StartsAwake s b →
    ((assocGet? (arg s b 0) s.dev.link.live.entries).all (fun e => (s.dev.link.treat (arg s b 0) e).owner != s.dev.link.live.set.node)) = true →
    NoSuch (.lkSend t b) s t b 0x0806) ∧
  (∀ (s : State) (t : Time) (c : Basket) (e : SlotEntry),
    let l := s.dev.link
    let n := arg s 0 0
    StartsAwake s 0 →
    arg s 0 1 = c.val →
    (assocGet? n l.live.entries = some e ∧ e.kind = 2 ∧ l.pending = none) →
    (l.state = .joined ∧ 0 < l.live.set.minislots) →
    (l.claims.all (fun k => k.entry != n || (!k.inForce && k.node != l.live.set.node))) = true →
    let own : Claim := { entry := n, node := l.live.set.node, basket := c, seen := false, opposed := false, unopposed := 0, inForce := false,
                         released := false, silentFor := 0, heard := false }
    Completes (.lkClaim t 0) s t 0 0 0 0 0 [.link] (fun d => d.link = { l with claims := l.claims ++ [own] })) ∧
  (∀ (s : State) (t : Time),
    let l := s.dev.link
    StartsAwake s 0 →
    arg s 0 1 < 4 →
    (assocGet? (arg s 0 0) l.live.entries).isSome = true →
    (l.state ≠ .joined → Refuses (.lkClaim t 0) s t 0 .linkState) ∧
    (l.state = .joined → 0 < l.live.set.minislots → (assocGet? (arg s 0 0) l.live.entries).any (fun e => e.kind != 2) = true →
        Refuses (.lkClaim t 0) s t 0 .slotTaken)) ∧
  (∀ (s : State) (t : Time) (c : Claim),
    let l := s.dev.link
    StartsAwake s 0 →
    (assocGet? (arg s 0 0) l.live.entries).isSome = true →
    (l.claimOn (arg s 0 0) = some c ∧ c.node = l.live.set.node) →
    Completes (.lkRelease t 0) s t 0 0 0 0 0 [.link] (fun d => d.link = { l with claims := l.claims.map (fun k => if k.entry == arg s 0 0 &&
                                                                                 k.inForce then { k with released := true } else k) })) ∧
  (∀ (s : State) (t : Time),
    let l := s.dev.link
    StartsAwake s 0 →
    (assocGet? (arg s 0 0) l.live.entries).isSome = true →
    l.claimOn (arg s 0 0) = none →
    Refuses (.lkRelease t 0) s t 0 .state) ∧
  (∀ (s : State) (t : Time) (b : Basket),
    let l := s.dev.link
    let a := arg32 s b 1
    let k := arg s b 3
    StartsAwake s b →
    (here s t).mailRight b = true →
    HeldRange s b a (2 * k) →
    (arg s b 0 % 256 ≤ 64 ∧ k + 1 ≤ l.live.set.maxDyn) →
    (l.state = .joined ∧ 0 < l.live.set.minislots) →
    l.mailOut[b] = none →
    let head := BitVec.ofNat 16 (arg s b 0 % 256 + 256 * (arg s b 0 / 256 % 4) + 1024 * b.val)
    let words := packetWords (s.dev.sram.bytes a (2 * k))
    Completes (.lkMailSend t b) s t b 0 0 0 0 [.link] (fun d => d.link = { l with mailOut := l.mailOut.set b.val (some (head :: words)) })) ∧
  (∀ (s : State) (t : Time) (b : Basket),
    let l := s.dev.link
    let a := arg32 s b 1
    let k := arg s b 3
    StartsAwake s b →
    (here s t).mailRight b = true →
    HeldRange s b a (2 * k) →
    (arg s b 0 % 256 ≤ 64 ∧ k + 1 ≤ l.live.set.maxDyn) →
    (l.state = .joined ∧ 0 < l.live.set.minislots) →
    l.mailOut[b] ≠ none →
    Refuses (.lkMailSend t b) s t b .busy) ∧
  (∀ (s : State) (t : Time) (b : Basket) (m : Mail) (r : List Mail),
    let l := s.dev.link
    let a := arg32 s b 0
    let bytes := wordBytes m.words
    StartsAwake s b →
    (here s t).mailRight b = true →
    l.mailIn[b] = m :: r →
    HeldRange s b a bytes.length →
    Completes (.lkMailRead t b) s t b (BitVec.ofNat 16 m.words.length) (BitVec.ofNat 16 m.node) (BitVec.ofNat 16 m.basket.val) 0 [.spool, .sram,
        .link] (fun d =>
      d.link = { l with mailIn := l.mailIn.set b.val r } ∧ d.sram.bytes a bytes.length = bytes ∧ UnchangedOutside s.dev.sram d.sram a bytes.length)) ∧
  (∀ (s : State) (t : Time) (b : Basket),
    StartsAwake s b →
    (here s t).mailRight b = true →
    s.dev.link.mailIn[b] = [] →
    HeldRange s b (arg32 s b 0) 0 →
    Completes (.lkMailRead t b) s t b 0 0 0 0 [] (fun _ => True)) ∧
  (∀ (s : State) (t : Time),
    let l := s.dev.link
    StartsAwake s 0 →
    (l.state = .fenced ∧ l.fence = .guard) →
    let l' := { l with guardViolations := 0 }
    CompletesOver ((((here s t).raise everyBasket .link).postLink { event := .linkState, data0 := 3,
                                                                    data1 := 0 }).host) (.lkRearm t 0) s t 0 0 0 0 0 [.link] (fun d => d.link = { l' with state := .integrate, stateAt := instant s t, adopting := true, missCycles := 0, offCycles := 0, clampCycles := 0, coldCycles := 0, noStartup := 0, joinedFor := 0, fullCycle := false, fence := .none })) ∧
  (∀ (s : State) (t : Time),
    StartsAwake s 0 →
    (s.dev.link.state ≠ .fenced ∨ s.dev.link.fence ≠ .guard) →
    Refuses (.lkRearm t 0) s t 0 .linkState)

/-- Cycle starts, corrections in the NIT, delay requests, the listen timeout, sync loss and root takeover. (R577, R646, R647, R651, R656, R657, R660,
R667, R670, R672, R681, R686) -/
def Obligations.LinkTiming : Prop :=
  (∀ (s : State) (t : Time),
    let l := s.dev.link
    (s.dev.pwr.state = .active ∨ s.dev.pwr.state = .boot) →
    (l.everSynced = true ∧ instant s t = l.nextCycle) →
    l.state = .joined →
    (s.dev.wr.live.frame.source ≠ .network ∧ s.dev.rinse.source = .pin) →
    let at_ := instant s t
    Does (.cycleStart t) s t [.clk, .host, .link] (fun d => d.link.cycleAt = at_ ∧ d.link.rate = l.rho ∧
        d.link.nextCycle = at_ + stretched l.rho (us l.live.set.cycleUs) ∧
      d.link.cst = l.cst + 1000 * l.live.set.cycleUs ∧ d.link.cycleIndex = (l.cycleIndex + 1) % 2 ^ 48 ∧ d.link.state = .joined ∧
          d.link.live = l.live ∧
      d.link.cycleE = none ∧ d.link.timeNow = [] ∧ d.link.timeLast = l.timeNow ∧ d.link.heard = [] ∧ d.link.sent = [] ∧
          d.link.joinedFor = l.joinedFor + 1 ∧
      d.clk.net = some d.link.cst ∧ d.clk.netAt = at_ ∧ d.clk.slew = none ∧ d.clk.rate = l.rho ∧ d.link.rho = l.rho ∧
      (l.live.set.discipline = true → d.clk.edgeRate = l.rho ∧ (l.live.set.cycleUs % 125 = 0 → d.clk.edgeAt = at_)) ∧
      (l.live.set.discipline = false → d.clk.edgeAt = s.dev.clk.edgeAt ∧ d.clk.edgeNo = s.dev.clk.edgeNo ∧ d.clk.edgeRate = s.dev.clk.edgeRate) ∧
          d.link.mailIn = l.mailIn ∧ d.link.log = l.log)) ∧
  (∀ (s : State) (t : Time),
    let l := s.dev.link
    (s.dev.pwr.state = .active ∨ s.dev.pwr.state = .boot) →
    (l.everSynced = true ∧ instant s t = l.nextCycle) →
    (l.state = .integrate ∧ l.fullCycle = true ∧ l.badPacket = false) →
    (l.timeNow ≠ [] ∧ l.timeLast.all (fun n => l.timeNow.contains n) = true) →
    l.cycleE.any (fun e => decide (e.2.natAbs ≤ l.live.set.offsetLimit * 76800)) = true →
    Does (.cycleStart t) s t [.clk, .host, .wr, .rinse, .link] (fun d => d.link.state = .joined ∧ d.link.announceDue = true ∧
        d.clk.net = some d.link.cst)) ∧
  (∀ (s : State) (t : Time),
    let l := s.dev.link
    (s.dev.pwr.state = .watch ∨ s.dev.pwr.state = .hold) →
    (l.everSynced = true ∧ instant s t = l.nextCycle) →
    s.dev.wr.live.frame.source ≠ .network →
    Does (.cycleStart t) s t [.link] (fun d => d.link = { l with rate := l.rho, cycleAt := instant s t,
                                                                 nextCycle := instant s t + stretched l.rho (us l.live.set.cycleUs),
                                                                 cst := l.cst + 1000 * l.live.set.cycleUs, cycleIndex := (l.cycleIndex + 1) % 2 ^ 48,
                                                                 fullCycle := true, timeLast := l.timeNow, timeNow := [], cycleE := none,
                                                                 corrected := false, badPacket := false, gotSlots := [],
                                                                 dyn := Vector.replicate 2 DynChannel.reset, dynPacket := none,
                                                                 sentThisCycle := false, violatedThisCycle := false,
                                                                 branchBlockedNow := Vector.replicate 4 false, heard := [], sent := [] })) ∧
  (∀ (s : State) (t : Time),
    let l := s.dev.link
    (l.everSynced = false ∨ instant s t ≠ l.nextCycle) →
    Does (.cycleStart t) s t [] (fun _ => True)) ∧
  (∀ (s : State) (t : Time) (k : Nat) (e : Int),
    let l := s.dev.link
    (s.dev.pwr.state = .active ∨ s.dev.pwr.state = .boot) →
    l.cycleE = some (k, e) →
    (l.synced = true ∧ l.corrected = false) →
    (l.at l.live.set.nitAt ≤ instant s t ∧ instant s t < l.nextCycle) →
    let nit := us l.live.set.nitUs
    let rho := clampInt (-200000) 200000 (l.rho - divRoundAway (e * 15625) (96 * max 1 l.live.set.cycleUs))
    let move := clampInt (-(nit / 3 : Nat)) nit (e / 2)
    let next := max (instant s t + 1) (((l.nextCycle : Int) + move).toNat)
    let was := (here s t).clk.ns (instant s t)
    let slew := { (here s t).clk with net := some was, netAt := instant s t, hold := max s.dev.clk.hold was, slew := some (next,
                                      l.cst + 1000 * l.live.set.cycleUs) }
    Does (.nitCorrection t) s t [.clk, .link] (fun d => d.link = { l with corrected := true, rho := rho, nextCycle := next } ∧
      d.clk = if l.state = .joined then slew else (here s t).clk)) ∧
  (∀ (s : State) (t : Time),
    s.dev.link.cycleE = none →
    Does (.nitCorrection t) s t [] (fun _ => True)) ∧
  (∀ (s : State) (t : Time),
    let l := s.dev.link
    (s.dev.pwr.state = .active ∨ s.dev.pwr.state = .boot) →
    (l.live.set.topology = .ring ∧ l.everSynced = true ∧ l.guardBlocked = false) →
    (l.state = .joined ∨ l.state = .listen) →
    (l.counter % 8 = 0 ∧ instant s t = l.at l.live.set.staticUs) →
    let req := fun (n : BitVec 16) => (l.delayCycle (l.mine 7 0x7FF 0 0 [n])).bytes
    let sent := l.sent ++ [{ ports := [0], bytes := req (l.reqSeq + 1) }, { ports := [2], bytes := req (l.reqSeq + 2) }]
    let ask := fun (q : Port) (n : BitVec 16) => { q with pendingReq := some (n.toNat, instant s t + ns 100) }
    let ports := (l.ports.set 0 (ask l.ports[0] (l.reqSeq + 1))).set 2 (ask l.ports[2] (l.reqSeq + 2))
    Does (.delayRequest t) s t [.link] (fun d => d.link = { l with reqSeq := l.reqSeq + 2, ports := ports, sent := sent, sentThisCycle := true })) ∧
  (∀ (s : State) (t : Time),
    let l := s.dev.link
    (l.live.set.topology ≠ .ring ∨ l.counter % 8 ≠ 0) →
    Does (.delayRequest t) s t [] (fun _ => True)) ∧
  (∀ (s : State) (t : Time) (p : Nat),
    let l := s.dev.link
    (s.dev.pwr.state = .active ∨ s.dev.pwr.state = .boot) →
    (l.state = .listen ∧ l.live.set.coldstart = some p) →
    l.stateAt + us ((2 + p) * l.live.set.cycleUs) ≤ instant s t →
    l.everSynced = true →
    let l' := { l with state := .coldstart, stateAt := instant s t, adopting := true, missCycles := 0, offCycles := 0, clampCycles := 0,
                       coldCycles := 0, noStartup := 0, joinedFor := 0, fullCycle := false, fence := .none }
    let root := if l.live.set.topology = .ring then l.live.set.node else 0
    Does (.listenTimeout t) s t [.host,
        .link] (fun d => d.host = (((here s t).raise everyBasket .link).postLink { event := .linkState, data0 := 2, data1 := 0 }).host ∧
        d.link = { l' with adopting := false, root := root })) ∧
  (∀ (s : State) (t : Time) (p : Nat),
    let l := s.dev.link
    (s.dev.pwr.state = .active ∨ s.dev.pwr.state = .boot) →
    (l.state = .listen ∧ l.live.set.coldstart = some p) →
    l.stateAt + us ((2 + p) * l.live.set.cycleUs) ≤ instant s t →
    l.everSynced = false →
    Does (.listenTimeout t) s t [.clk, .host, .wr, .link] (fun d => d.link.state = .coldstart ∧ d.link.everSynced = true ∧ d.link.cst = 2 ^ 62 ∧
        d.link.cycleIndex = 0 ∧
      d.link.cycleAt = instant s t ∧ d.link.nextCycle = instant s t + stretched l.rho (us l.live.set.cycleUs) ∧ d.link.rate = l.rho ∧
          d.clk.net = some (2 ^ 62) ∧ d.clk.netAt = instant s t)) ∧
  (∀ (s : State) (t : Time),
    let l := s.dev.link
    (s.dev.pwr.state = .active ∨ s.dev.pwr.state = .boot) →
    (l.state = .listen ∧ l.live.set.coldstart = none) →
    l.stateAt + us (2 * l.live.set.cycleUs) ≤ instant s t →
    Does (.listenTimeout t) s t [.link] (fun d => d.link = { l with stateAt := instant s t })) ∧
  (∀ (s : State) (t : Time),
    s.dev.link.state ≠ .listen →
    Does (.listenTimeout t) s t [] (fun _ => True)) ∧
  (∀ (s : State) (t : Time) (r : Nat),
    let l := s.dev.link
    (s.dev.pwr.state = .active ∨ s.dev.pwr.state = .boot) →
    l.state = .joined →
    (l.live.set.syncLoss ≤ l.missCycles ∧ r = 1) ∨ (l.missCycles < l.live.set.syncLoss ∧ 2 ≤ l.offCycles ∧
        r = 2) ∨ (l.missCycles < l.live.set.syncLoss ∧ l.offCycles < 2 ∧ 64 ≤ l.clampCycles ∧ r = 3) →
    Does (.syncLoss t) s t [.host,
        .link] (fun d => d.host = (((here s t).raise everyBasket .link).postLink { event := .linkState, data0 := 3, data1 := r }).host ∧
        d.link = { l with state := .integrate, stateAt := instant s t, adopting := true, missCycles := 0, offCycles := 0, clampCycles := 0,
                          coldCycles := 0, noStartup := 0, joinedFor := 0, fullCycle := false, fence := .none })) ∧
  (∀ (s : State) (t : Time),
    let l := s.dev.link
    (s.dev.link.state ≠ .joined ∨ (l.missCycles < l.live.set.syncLoss ∧ l.offCycles < 2 ∧ l.clampCycles < 64)) →
    Does (.syncLoss t) s t [] (fun _ => True)) ∧
  (∀ (s : State) (t : Time) (p : Nat),
    let l := s.dev.link
    (s.dev.pwr.state = .active ∨ s.dev.pwr.state = .boot) →
    (l.live.set.coldstart = some p ∧ l.live.set.topology = .ring ∧ l.state = .joined) →
    (l.root ≠ l.live.set.node ∧ 2 + p ≤ l.noStartup) →
    Does (.rootTakeover t) s t [.host, .link] (fun d => d.link = { l with root := l.live.set.node, noStartup := 0 } ∧
      d.host = ((here s t).postLink { event := .rootChange, subject := l.live.set.node }).host)) ∧
  (∀ (s : State) (t : Time),
    (s.dev.link.live.set.coldstart = none ∨ s.dev.link.root = s.dev.link.live.set.node) →
    Does (.rootTakeover t) s t [] (fun _ => True))

/-- What a node sends at its own instants and what a received packet does. (R467, R594, R606, R608, R611, R615, R620, R621, R627, R650, R702, Table
12-5) -/
def Obligations.LinkTraffic : Prop :=
  (∀ (s : State) (t : Time) (n : Fin 512) (e : SlotEntry),
    let l := s.dev.link
    (s.dev.pwr.state = .active ∨ s.dev.pwr.state = .boot) →
    (assocGet? n.val l.entries = some e ∧ e.owner = l.live.set.node ∧ e.inCycle l.counter = true) →
    instant s t = l.at (e.slot * l.live.set.slotUs + l.live.set.apoUs) →
    (l.guardBlocked = false ∧ l.live.set.topology ≠ .ring ∧ l.claims = [] ∧ l.entryPorts e ≠ []) →
    e.kind = 1 →
    (l.state = .joined ∨ l.state = .coldstart) →
    let p := l.mine (if l.state = .joined then 2 else 3) e.slot 0 e.basket.val (leWords 4 l.cst ++ leWords 3 l.cycleIndex ++ [BitVec.ofNat 16 e.rank])
    let sent := l.sent ++ [{ ports := l.entryPorts e, bytes := p.bytes }]
    Does (.staticTransmit t n) s t [.link] (fun d => d.link = { l with sent := sent, sentThisCycle := true })) ∧
  (∀ (s : State) (t : Time) (n : Fin 512) (e : SlotEntry) (ws : List Word) (at_ : Time),
    let l := s.dev.link
    (s.dev.pwr.state = .active ∨ s.dev.pwr.state = .boot) →
    (assocGet? n.val l.entries = some e ∧ e.owner = l.live.set.node ∧ e.inCycle l.counter = true) →
    instant s t = l.at (e.slot * l.live.set.slotUs + l.live.set.apoUs) →
    (l.guardBlocked = false ∧ l.live.set.topology ≠ .ring ∧ l.claims = [] ∧ l.entryPorts e ≠ []) →
    (e.kind = 0 ∧ l.state = .joined ∧ e.source = .buffer) →
    (assocGet? n.val l.buffers = some (ws, at_) ∧ at_ + us 10 ≤ instant s t) →
    let p := l.mine 1 e.slot 0 e.basket.val ws
    let sent := l.sent ++ [{ ports := l.entryPorts e, bytes := p.bytes }]
    Does (.staticTransmit t n) s t [.link] (fun d => d.link = { l with buffers := assocErase n.val l.buffers, sent := sent,
                                                                       sentThisCycle := true })) ∧
  (∀ (s : State) (t : Time) (n : Fin 512) (e : SlotEntry),
    let l := s.dev.link
    (s.dev.pwr.state = .active ∨ s.dev.pwr.state = .boot) →
    (assocGet? n.val l.entries = some e ∧ e.owner = l.live.set.node ∧ e.inCycle l.counter = true) →
    instant s t = l.at (e.slot * l.live.set.slotUs + l.live.set.apoUs) →
    (l.guardBlocked = false ∧ l.live.set.topology ≠ .ring ∧ l.claims = [] ∧ l.entryPorts e ≠ []) →
    (e.kind = 0 ∧ l.state = .joined ∧ e.source = .buffer) →
    (assocGet? n.val l.buffers = none ∧ e.silent = false) →
    let p := l.mine 0 e.slot 0 e.basket.val []
    let sent := l.sent ++ [{ ports := l.entryPorts e, bytes := p.bytes }]
    Does (.staticTransmit t n) s t [.link] (fun d => d.link = { l with sent := sent, sentThisCycle := true })) ∧
  (∀ (s : State) (t : Time) (n : Fin 512) (e : SlotEntry),
    let l := s.dev.link
    (s.dev.pwr.state = .active ∨ s.dev.pwr.state = .boot) →
    (assocGet? n.val l.entries = some e ∧ e.owner = l.live.set.node ∧ e.inCycle l.counter = true) →
    instant s t = l.at (e.slot * l.live.set.slotUs + l.live.set.apoUs) →
    (l.guardBlocked = false ∧ l.live.set.topology ≠ .ring ∧ l.claims = [] ∧ l.entryPorts e ≠ []) →
    (e.kind = 0 ∧ l.state = .joined ∧ e.source = .buffer) →
    (assocGet? n.val l.buffers = none ∧ e.silent = true) →
    Does (.staticTransmit t n) s t [] (fun _ => True)) ∧
  (∀ (s : State) (t : Time) (n : Fin 512),
    let l := s.dev.link
    (s.dev.pwr.state = .active ∨ s.dev.pwr.state = .boot) →
    (l.live.set.topology = .ring ∧ l.root = l.live.set.node) →
    (l.state = .joined ∨ l.state = .coldstart) →
    (instant s t = l.at (l.live.set.nitAt + l.live.set.apoUs) ∧ l.guardBlocked = false) →
    ((l.ports[1]).sendingBreak = false ∧ (l.ports[3]).sendingBreak = false) →
    let flag : Word := if l.state = .coldstart then 0x100 else 0
    let p := l.mine 3 0x7FE 0 0 (leWords 4 l.cst ++ leWords 3 l.cycleIndex ++ [flag, 0, 0, BitVec.ofNat 16 l.live.set.node])
    let sent := l.sent ++ [{ ports := [1, 3], bytes := p.bytes }]
    Does (.staticTransmit t n) s t [.link] (fun d => d.link = { l with sent := sent, sentThisCycle := true })) ∧
  (∀ (s : State) (t : Time) (n : Fin 512),
    let l := s.dev.link
    (l.state = .listen ∨ l.state = .integrate ∨ l.state = .fenced ∨ l.state = .off) →
    Does (.staticTransmit t n) s t [] (fun _ => True) ∧ Does (.dynamicTransmit t n.val) s t [] (fun _ => True) ∧
        Does (.announceDue t) s t [] (fun _ => True)) ∧
  (∀ (s : State) (t : Time) (m : Nat),
    let l := s.dev.link
    let ws := (here s t).announcePayload
    let len := l.live.set.packetNs ws.length
    (s.dev.pwr.state = .active ∨ s.dev.pwr.state = .boot) →
    (l.state = .joined ∧ l.live.set.topology = .bus ∧ l.guardBlocked = false) →
    (m < l.live.set.minislots ∧ instant s t = l.at (l.live.set.staticUs + m * l.live.set.miniUs)) →
    (l.dynOwner 0 m = some l.live.set.node ∧ (l.dyn[(0 : Fin 2)]).sent = false ∧ l.dynOwner 1 m ≠ some l.live.set.node) →
    (l.dynPacket = none ∧ l.notices = [] ∧ l.claims = [] ∧ l.announceDue = true) →
    ws.length ≤ l.live.set.maxDyn →
    (m + (len + 1000 * l.live.set.miniUs - 1) / (1000 * l.live.set.miniUs) + 1 ≤ l.live.set.minislots ∧ 1 ≤ l.live.set.miniUs) →
    let sent := l.sent ++ [{ ports := [0], bytes := (l.mine 5 (0x100 + m) 0 0 ws).bytes }]
    Does (.dynamicTransmit t m) s t [.link] (fun d => d.link.sent = sent ∧ d.link.announceDue = false ∧ d.link.dynPacket = some (5, ws) ∧
      d.link.dyn[(0 : Fin 2)].sent = true ∧ m < d.link.dyn[(0 : Fin 2)].next ∧ d.link.dyn[(1 : Fin 2)] = l.dyn[(1 : Fin 2)] ∧
          d.link.mailOut = l.mailOut)) ∧
  (∀ (s : State) (t : Time) (m : Nat),
    ((here s t).lset.minislots ≤ m ∨ s.dev.link.live.set.channels.all (fun c => s.dev.link.dynOwner c m != some s.dev.link.live.set.node) = true) →
    Does (.dynamicTransmit t m) s t [] (fun _ => True)) ∧
  (∀ (s : State) (t : Time),
    let l := s.dev.link
    (s.dev.pwr.state = .active ∨ s.dev.pwr.state = .boot) →
    (l.state = .joined ∧ l.announceAt + l.live.set.announce ≤ l.cycleIndex) →
    Does (.announceDue t) s t [.link] (fun d => d.link = { l with announceDue := true, announceAt := l.cycleIndex })) ∧
  (∀ (s : State) (t : Time),
    s.dev.link.cycleIndex < s.dev.link.announceAt + s.dev.link.live.set.announce →
    Does (.announceDue t) s t [] (fun _ => True)) ∧
  (∀ (s : State) (t : Time) (rx : Reception) (k : Nat),
    let l := s.dev.link
    let p := Packet.read rx.bytes
    (s.dev.pwr.state = .active ∨ s.dev.pwr.state = .boot) →
    (l.state = .joined ∧ l.live.set.topology = .bus) →
    (frameFault false rx p = none ∧ (here s t).placeFault 0 rx p = none) →
    (p.type = 1 ∧ p.node ≠ l.live.set.node ∧ p.slot < 255) →
    (l.partners.toList[p.node - 1]?).any (fun q => q.state == .present) = true →
    (∀ h : Fin 16, s.dev.models[h] = none) →
    (here s t).blockFrame p.slot = some k →
    l.minislotAt rx.sop = none →
    let a := 0x10000 + k % 2 * 0x20000 + p.slot * 0x200
    let header := w64 (l.cst + p.slot * l.live.set.slotUs * 1000) ++ leBytes 1 p.node ++ leBytes 1 p.length ++ leBytes 2 k ++ leBytes 2 p.flags
    let q := l.ports[(0 : Fin 4)]
    Does (.packetReceive t 0 rx) s t [.spool, .sram, .link] (fun d => d.sram.bytes a (2 * p.length) = wordBytes p.payload ∧
      d.sram.bytes (a + 0x100) header.length = header ∧ UnchangedOutsideBoth s.dev.sram d.sram a (2 * p.length) (a + 0x100) header.length ∧
      d.link.ports[(0 : Fin 4)].received = q.received + 1 ∧ d.link.ports[(0 : Fin 4)].delivered = q.delivered + 1 ∧
      d.link.ports[(0 : Fin 4)].discards = q.discards ∧ d.link.heard = l.heard ++ [{ bytes := rx.bytes, port := 0 }] ∧
      d.link.gotSlots = (p.slot, 0) :: l.gotSlots ∧ d.link.sent = l.sent ∧ d.link.state = .joined ∧
      d.link.partners[p.node - 1]? = (l.partners[p.node - 1]?).map (fun x => { x with lastCycle := p.cycle, quiet := 0,
                                                                                      delivered := x.delivered + 1 }))) ∧
  (∀ (s : State) (t : Time) (rx : Reception),
    let l := s.dev.link
    (s.dev.pwr.state = .active ∨ s.dev.pwr.state = .boot) →
    (l.state = .joined ∧ l.live.set.topology = .bus) →
    rx.codeOk = false →
    l.minislotAt rx.sop = none →
    let p := Packet.read rx.bytes
    let q := l.ports[(0 : Fin 4)]
    let e : LinkLog := { stamp := (here s t).linkStamp, port := 0, kind := 1, node := p.node, slot := p.slot, cycle := p.cycle, noticed := false }
    let kept := if l.log.length < 64 then l.log else l.log.drop 1
    let lost := if l.log.length < 64 then l.logOverwrites else l.logOverwrites + 1
    let port := { q with received := q.received + 1, discards := q.discards.set 0 (q.discards[(0 : Fin 11)] + 1) }
    Does (.packetReceive t 0 rx) s t [.link] (fun d => d.link.log = kept ++ [e] ∧ d.link.logOverwrites = lost ∧
        d.link.kinds[(1 : Fin 128)] = l.kinds[(1 : Fin 128)] + 1 ∧
      d.link.ports[(0 : Fin 4)].received = port.received ∧ d.link.ports[(0 : Fin 4)].delivered = q.delivered ∧
          d.link.ports[(0 : Fin 4)].discards = port.discards ∧
      d.link.state = .joined ∧ d.link.heard = l.heard ∧ d.link.sent = l.sent ∧ d.link.partners = l.partners ∧ d.link.badPacket = l.badPacket)) ∧
  (∀ (s : State) (t : Time) (port : Fin 4) (rx : Reception),
    let l := s.dev.link
    (l.state = .off ∨ l.live.set.uses port = false) →
    Does (.packetReceive t port rx) s t [] (fun _ => True))

/-- Partners fall silent, claims take effect and revert, and the guardian, the hub and the ring act. (R630, R635, R637, R670, R689, R691, R941, R695,
R698, R699, R700, R701) -/
def Obligations.PartnersAndGuards : Prop :=
  (∀ (s : State) (t : Time) (i : Fin 64),
    let l := s.dev.link
    let q := l.partners[i]
    (s.dev.pwr.state = .active ∨ s.dev.pwr.state = .boot) →
    (q.state = .present ∧ l.live.set.silence < q.quiet) →
    Does (.partnerSilent t i) s t [.host, .link] (fun d => d.link = { l with partners := l.partners.set i.val { q with state := .silent } } ∧
      d.host = ((here s t).postLink { event := .partner, subject := i.val + 1, data0 := 1 }).host)) ∧
  (∀ (s : State) (t : Time) (i : Fin 64),
    let l := s.dev.link
    let q := l.partners[i]
    (s.dev.pwr.state = .active ∨ s.dev.pwr.state = .boot) →
    (q.state ≠ .gone ∧ l.live.set.gone < q.quiet) →
    Does (.partnerGone t i) s t [.host, .link] (fun d => d.link = { l with partners := l.partners.set i.val { q with state := .gone } } ∧
      d.host = ((here s t).postLink { event := .partner, subject := i.val + 1, data0 := 0 }).host)) ∧
  (∀ (s : State) (t : Time) (i : Fin 64),
    let l := s.dev.link
    (l.partners[i].quiet ≤ l.live.set.silence ∧ l.partners[i].quiet ≤ l.live.set.gone) →
    Does (.partnerSilent t i) s t [] (fun _ => True) ∧ Does (.partnerGone t i) s t [] (fun _ => True)) ∧
  (∀ (s : State) (t : Time) (n : Fin 512) (c : Claim) (e : SlotEntry),
    let l := s.dev.link
    (s.dev.pwr.state = .active ∨ s.dev.pwr.state = .boot) →
    (l.synced = true ∧ l.counter = 0 ∧ instant s t = l.cycleAt) →
    l.claims.find? (fun k => k.entry == n.val && !k.inForce && decide (2 ≤ k.unopposed)) = some c →
    (assocGet? n.val l.live.entries = some e ∧ e.kind = 2 ∧ l.claimOn n.val = none) →
    let now : Claim := { c with inForce := true, silentFor := 0, heard := false }
    let ev : Ev := { event := .claimDone, subject := e.slot, data0 := c.node, data1 := c.basket.val }
    Does (.claimTakesEffect t n) s t [.host, .link] (fun d => d.link = { l with claims := l.claims.filter (fun k => k.entry != n.val) ++ [now] } ∧
      d.host = ((here s t).postSlot e.slot ev).host)) ∧
  (∀ (s : State) (t : Time) (n : Fin 512) (c : Claim) (e : SlotEntry),
    let l := s.dev.link
    (s.dev.pwr.state = .active ∨ s.dev.pwr.state = .boot) →
    (l.synced = true ∧ l.counter = 0 ∧ instant s t = l.cycleAt) →
    (l.claimOn n.val = some c ∧ l.live.set.revert ≤ c.silentFor) →
    assocGet? n.val l.live.entries = some e →
    let ev : Ev := { event := .claimRevert, subject := e.slot, data0 := c.node }
    Does (.claimRevert t n) s t [.host, .link] (fun d => d.link = { l with claims := l.claims.filter (fun k => !(k.entry == n.val && k.inForce)) } ∧
      d.host = ((here s t).postSlot e.slot ev).host)) ∧
  (∀ (s : State) (t : Time) (n : Fin 512),
    s.dev.link.claims = [] →
    Does (.claimTakesEffect t n) s t [] (fun _ => True) ∧ Does (.claimRevert t n) s t [] (fun _ => True)) ∧
  (∀ (s : State) (t : Time) (v : Nat),
    let l := s.dev.link
    let n := 40 * l.live.set.cycleUs
    let off := (v - n) + (n - v)
    let dev := off * 10000 / max 1 n
    (s.dev.pwr.state = .active ∨ s.dev.pwr.state = .boot) →
    (n < 200 * off ∧ l.state = .joined ∧ l.guardBlocked = false) →
    let l' := { l with guardCount := v, guardExpected := n, guardBlocked := true, guardGood := 0 }
    let h := ((here s t).postLink { event := .guard, data0 := 1, data1 := dev }).raise everyBasket .link
    Does (.guardDrift t v) s t [.host, .link] (fun d => d.link = { l' with state := .integrate, stateAt := instant s t, adopting := true,
                                                                           missCycles := 0, offCycles := 0, clampCycles := 0, coldCycles := 0,
                                                                           noStartup := 0, joinedFor := 0, fullCycle := false, fence := .none } ∧
      d.host = (h.postLink { event := .linkState, data0 := 3, data1 := 4 }).host)) ∧
  (∀ (s : State) (t : Time) (v : Nat),
    let l := s.dev.link
    let n := 40 * l.live.set.cycleUs
    let off := (v - n) + (n - v)
    let dev := off * 10000 / max 1 n
    (s.dev.pwr.state = .active ∨ s.dev.pwr.state = .boot) →
    (n < 200 * off ∧ l.state ≠ .joined ∧ l.state ≠ .off ∧ l.guardBlocked = false) →
    Does (.guardDrift t v) s t [.host, .link] (fun d => d.link = { l with guardCount := v, guardExpected := n, guardBlocked := true,
                                                                          guardGood := 0 } ∧
      d.host = ((here s t).postLink { event := .guard, data0 := 1, data1 := dev }).host)) ∧
  (∀ (s : State) (t : Time) (v : Nat),
    let l := s.dev.link
    let n := 40 * l.live.set.cycleUs
    let off := (v - n) + (n - v)
    let dev := off * 10000 / max 1 n
    (s.dev.pwr.state = .active ∨ s.dev.pwr.state = .boot) →
    (200 * off ≤ n ∧ l.state ≠ .off) →
    Does (.guardDrift t v) s t [.link] (fun d => d.link = { l with guardCount := v, guardExpected := n })) ∧
  (∀ (s : State) (t : Time) (v : Nat),
    let l := s.dev.link
    let n := 40 * l.live.set.cycleUs
    let off := (v - n) + (n - v)
    let dev := off * 10000 / max 1 n
    (s.dev.pwr.state = .active ∨ s.dev.pwr.state = .boot) →
    (200 * off ≤ n ∧ l.guardBlocked = true ∧ 64 ≤ l.guardGood) →
    Does (.guardRelease t v) s t [.host, .link] (fun d => d.link = { l with guardCount := v, guardExpected := n, guardBlocked := false } ∧
      d.host = ((here s t).postLink { event := .guard, data0 := 0, data1 := dev }).host)) ∧
  (∀ (s : State) (t : Time) (v : Nat),
    let l := s.dev.link
    let n := 40 * l.live.set.cycleUs
    let off := (v - n) + (n - v)
    let dev := off * 10000 / max 1 n
    (l.guardBlocked = false ∨ l.guardGood < 64 ∨ n < 200 * off) →
    Does (.guardRelease t v) s t [] (fun _ => True)) ∧
  (∀ (s : State) (t : Time) (v : Nat),
    let l := s.dev.link
    let at_ := v * 19200 * l.guardExpected / max 1 l.guardCount
    (s.dev.pwr.state = .active ∨ s.dev.pwr.state = .boot) →
    (l.state ≠ .off ∧ l.state ≠ .fenced ∧ l.guardViolations < 7) →
    l.live.set.channels.any (fun c => !l.gateOpen c at_ none) = true →
    Does (.guardViolation { t := t, count := v }) s t [.link] (fun d => d.link = { l with guardViolations := l.guardViolations + 1,
                                                                                          violatedThisCycle := true })) ∧
  (∀ (s : State) (t : Time) (v : Nat),
    let l := s.dev.link
    let at_ := v * 19200 * l.guardExpected / max 1 l.guardCount
    (s.dev.pwr.state = .active ∨ s.dev.pwr.state = .boot) →
    (l.state ≠ .off ∧ l.state ≠ .fenced ∧ l.guardViolations = 7) →
    l.live.set.channels.any (fun c => !l.gateOpen c at_ none) = true →
    let h := ((here s t).raise everyBasket .link).postLink { event := .linkState, data0 := 5, data1 := 5 }
    Does (.guardViolation { t := t, count := v }) s t [.host, .link] (fun d => d.link.state = .fenced ∧ d.link.fence = .guard ∧
        d.link.guardViolations = 8 ∧ d.host = h.host)) ∧
  (∀ (s : State) (t : Time) (v : Nat),
    let l := s.dev.link
    let at_ := v * 19200 * l.guardExpected / max 1 l.guardCount
    l.live.set.channels.all (fun c => l.gateOpen c at_ none) = true →
    Does (.guardViolation { t := t, count := v }) s t [] (fun _ => True)) ∧
  (∀ (s : State) (t : Time) (i : Fin 4),
    let l := s.dev.link
    (s.dev.pwr.state = .active ∨ s.dev.pwr.state = .boot) →
    (l.live.set.isHub = true ∧ l.branchCut[i] = none ∧ 3 ≤ l.branchBlocked[i]) →
    let cut := l.branchCut.set i.val (some l.live.set.cutCycles)
    Does (.branchCut t i) s t [.host, .link] (fun d => d.link.branchCut = cut ∧ (l.branchLast[i].1 = 0 → d.link = { l with branchCut := cut }) ∧
      d.host = ((here s t).postLink { event := .branchCut, subject := i.val }).host)) ∧
  (∀ (s : State) (t : Time) (i : Fin 4),
    let l := s.dev.link
    (l.live.set.isHub = false ∨ l.branchBlocked[i] < 3) →
    Does (.branchCut t i) s t [] (fun _ => True)) ∧
  (∀ (s : State) (t : Time) (i : Fin 4),
    let l := s.dev.link
    (s.dev.pwr.state = .active ∨ s.dev.pwr.state = .boot) →
    (l.branchCut[i] = some 0 ∧ instant s t = l.cycleAt) →
    Does (.branchReadmit t i) s t [.link] (fun d => d.link = { l with branchCut := l.branchCut.set i.val none,
                                                                      branchBlocked := l.branchBlocked.set i.val 0 })) ∧
  (∀ (s : State) (t : Time) (i : Fin 4),
    let l := s.dev.link
    l.branchCut[i] ≠ some 0 →
    Does (.branchReadmit t i) s t [] (fun _ => True)) ∧
  (∀ (s : State) (t : Time) (up_ : Bool),
    let l := s.dev.link
    let p : Fin 4 := if up_ = true then 0 else 2
    let q : Fin 4 := if up_ = true then 3 else 1
    (s.dev.pwr.state = .active ∨ s.dev.pwr.state = .boot) →
    (l.live.set.topology = .ring ∧ l.state ≠ .off) →
    l.ports[p].broken = false →
    let ports := (l.ports.set p.val { l.ports[p] with broken := true, breakFree := 0,
                                                      refold := 2 }).set q.val { l.ports[q] with sendingBreak := true }
    Does (.ringBreak t p) s t [.host, .link] (fun d => d.link = { l with ports := ports } ∧
        d.host = ((here s t).postLink { event := .ringBreak, subject := p.val }).host)) ∧
  (∀ (s : State) (t : Time) (up_ : Bool),
    let l := s.dev.link
    let p : Fin 4 := if up_ = true then 0 else 2
    (s.dev.pwr.state = .active ∨ s.dev.pwr.state = .boot) →
    (l.live.set.topology = .ring ∧ l.state ≠ .off) →
    l.ports[p].broken = true →
    Does (.ringBreak t p) s t [.link] (fun d => d.link = { l with ports := l.ports.set p.val { l.ports[p] with breakFree := 0 } })) ∧
  (∀ (s : State) (t : Time) (up_ : Bool),
    let l := s.dev.link
    let p : Fin 4 := if up_ = true then 0 else 2
    let q : Fin 4 := if up_ = true then 3 else 1
    (s.dev.pwr.state = .active ∨ s.dev.pwr.state = .boot) →
    (l.ports[p].broken = true ∧ l.ports[q].sendingBreak = true ∧ 64 ≤ l.ports[p].breakFree) →
    let ports := (l.ports.set p.val { l.ports[p] with breakFree := 0 }).set q.val { l.ports[q] with sendingBreak := false }
    Does (.breakStop t p) s t [.link] (fun d => d.link = { l with ports := ports })) ∧
  (∀ (s : State) (t : Time) (up_ : Bool),
    let l := s.dev.link
    let p : Fin 4 := if up_ = true then 0 else 2
    let q : Fin 4 := if up_ = true then 3 else 1
    (s.dev.pwr.state = .active ∨ s.dev.pwr.state = .boot) →
    (l.counter = 0 ∧ instant s t = l.cycleAt) →
    (l.ports[p].broken = true ∧ l.ports[q].sendingBreak = false ∧ 64 ≤ l.ports[p].breakFree) →
    let ports := l.ports.set p.val { l.ports[p] with broken := false, breakFree := 0, refold := 2 }
    Does (.ringRepair t p) s t [.host, .link] (fun d => d.link = { l with ports := ports } ∧
        d.host = ((here s t).postLink { event := .ringRepair, subject := p.val }).host)) ∧
  (∀ (s : State) (t : Time) (p : Fin 4),
    let l := s.dev.link
    (l.live.set.topology ≠ .ring ∧ l.ports[p].broken = false) →
    Does (.ringBreak t p) s t [] (fun _ => True) ∧ Does (.breakStop t p) s t [] (fun _ => True) ∧ Does (.ringRepair t p) s t [] (fun _ => True))
end

