-- ==== Sys2Proof/Laws/Commands.lean ====
section
/-!
SUPPORT. What a host command row does, said once: a command that starts, passes every check of R815 and completes in its step
(R774, R777), one that stays BUSY (R813), and one that is refused (R778).
-/

namespace Sys2Proof.Laws

open Machine

/-- The device at which a command is judged: at the row's instant, with the command accepted. -/
def judged (c : Command) (s : State) (t : Time) (b : Basket) : Dev :=
  (s.dev.tick t).onPage b (fun p => p.accept c.code (instant s t))

/-- The operands with which it is judged. -/
def operands (s : State) (t : Time) (b : Basket) : Ctx := (s.dev.tick t).ctx s.chip s.fuse.blown b

@[simp] theorem tick_now (d : Dev) (t : Time) : (d.tick t).now = max d.clk.now t := rfl

theorem answers_of (p : Power) (h1 : p ≠ .off) (h2 : p ≠ .reset) : p.answers = true := by
  cases p <;> simp_all [Power.answers]

theorem notBusy_of (c : CmdState) (h : c ≠ .busy) : (c != .busy) = true := by cases c <;> simp_all

theorem upd_eq_set {α : Type} {n : Nat} (v : Vector α n) (i : Fin n) (f : α → α) : upd v i f = v.set i.val (f v[i]) := rfl

@[simp] theorem at?_fin {α : Type} {n : Nat} (v : Vector α n) (i : Fin n) (x : α) : at? v i.val x = v[i] := by
  simp [at?]

@[simp] theorem updAt_fin {α : Type} {n : Nat} (v : Vector α n) (i : Fin n) (f : α → α) : updAt v i.val f = v.set i.val (f v[i]) := by
  simp [updAt, upd]

/-- The checks of R815, one by one. -/
theorem judge_none (c : Command) (x : Ctx) (d : Dev) (h0 : c.sup = true → x.b = 0) (h1 : c.names x d = true) (h2 : c.zero x d = false)
    (h3 : c.range x d = none) (hw : d.pwr.state = .watch → watchAccepts c.code = true)
    (hb : x.boot = true → c.long = true → c.code = 0x0601) (h4 : c.state x d = none) : c.judge x d = none := by
  have e0 : (c.sup && x.b != 0) = false := by
    cases hs : c.sup
    · rfl
    · simp [h0 hs]
  have e1 : (d.pwr.state == .watch && !watchAccepts c.code) = false := by
    by_cases hp : d.pwr.state = .watch
    · simp [hw hp]
    · simp [hp]
  have e2 : (x.boot && c.long && c.code != 0x0601) = false := by
    cases hx : x.boot
    · rfl
    · cases hl : c.long
      · rfl
      · simp [hb hx hl]
  simp only [Command.judge, e0, h1, h2, h3, e1, e2, h4, Bool.not_true, Bool.false_eq_true, if_false]

/-- A command that starts is judged and acted on. -/
theorem hostCommand_starts (c : Command) (s : State) (t : Time) (b : Basket) (hs : Starts s b) :
    hostCommand c t b s = .next { s with dev :=
      match (c.run (operands s t b) (judged c s t b)).2 with
      | .ok rs => (c.run (operands s t b) (judged c s t b)).1.complete b (success rs)
      | .refuse e => (c.run (operands s t b) (judged c s t b)).1.complete b (refusal e)
      | .wait => (c.run (operands s t b) (judged c s t b)).1 } := by
  obtain ⟨⟨h1, h2, h3⟩, h4, h5⟩ := hs
  have e1 : (s.dev.tick t).pwr.state.answers = true := answers_of _ h1 h2
  have e2 : (s.dev.tick t).enabled b = true := by
    show at? s.dev.host.enable b.val false = true
    rw [at?_fin]; exact h3
  have e3 : (s.dev.tick t).starts b = true := by
    show (s.dev.pwr.ready && s.dev.host.pages[b].cmdState != .busy) = true
    rw [h4, notBusy_of _ h5]; rfl
  simp only [hostCommand, onDev, Dev.command, e1, e2, e3, Bool.not_true, Bool.or_self, Bool.false_eq_true, if_false]
  rfl

/-- A command that passes every check and completes. -/
theorem hostCommand_ok (c : Command) (s : State) (t : Time) (b : Basket) (d : Dev) (rs : List Word) (hs : Starts s b)
    (hj : c.judge (operands s t b) (judged c s t b) = none) (ha : c.act (operands s t b) (judged c s t b) = (d, .ok rs)) :
    hostCommand c t b s = .next { s with dev := d.complete b (success rs) } := by
  rw [hostCommand_starts c s t b hs]
  simp only [Command.run, hj, ha]

/-- A command that passes every check and stays BUSY. -/
theorem hostCommand_wait (c : Command) (s : State) (t : Time) (b : Basket) (d : Dev) (hs : Starts s b)
    (hj : c.judge (operands s t b) (judged c s t b) = none) (ha : c.act (operands s t b) (judged c s t b) = (d, .wait)) :
    hostCommand c t b s = .next { s with dev := d } := by
  rw [hostCommand_starts c s t b hs]
  simp only [Command.run, hj, ha]

/-- A command that a check refuses; E_NO_SUCH is also a violation. -/
theorem hostCommand_refused (c : Command) (s : State) (t : Time) (b : Basket) (e : Err) (hs : Starts s b)
    (hj : c.judge (operands s t b) (judged c s t b) = some e) :
    hostCommand c t b s = .next { s with dev :=
      (if e = .noSuch then (judged c s t b).violate b 5 c.code.toNat else judged c s t b).complete b (refusal e) } := by
  rw [hostCommand_starts c s t b hs]
  simp only [Command.run, hj]
  cases e <;> rfl

/-- Acceptance and completion leave the page of R777 behind. -/
theorem complete_host (c : Command) (s : State) (t : Time) (b : Basket) (d : Dev) (r0 r1 r2 r3 : Word)
    (hd : d.host = (judged c s t b).host) (hn : d.clk.now = instant s t) (o : CmdOutcome)
    (ho : o = { error := 0, results := ⟨#[r0, r1, r2, r3], rfl⟩ }) :
    (d.complete b o).host = doneHost s.dev.host b 0 r0 r1 r2 r3 (instant s t) := by
  subst ho
  show ({ d.host with pages := upd d.host.pages b (fun p => p.complete _ d.clk.now) } : HostSide) = _
  rw [hd, hn]
  simp only [judged, Dev.onPage, Dev.onHost, upd_eq_set, Dev.tick, doneHost, donePage, Page.complete, Page.accept, Page.raise, Irq.bit,
    Fin.getElem_fin, Vector.getElem_set_self, Vector.set_set]
  rfl

/-- A row that is a host command completes as the statements say: from its checks and its action. -/
theorem completes_of (i : Instr) (c : Command) (s : State) (t : Time) (b : Basket) (r0 r1 r2 r3 : Word) (changed : List Part)
    (effect : Dev → Prop) (d : Dev) (rs : List Word) (hi : exec i s = hostCommand c t b s) (hs : Starts s b)
    (hj : c.judge (operands s t b) (judged c s t b) = none) (ha : c.act (operands s t b) (judged c s t b) = (d, .ok rs))
    (hr : results4 rs = ⟨#[r0, r1, r2, r3], rfl⟩) (hh : d.host = (judged c s t b).host)
    (hk : Keeps (.host :: changed) (judged c s t b) d) (hclk : d.clk = (judged c s t b).clk)
    (he : effect (d.complete b (success rs))) : Completes i s t b r0 r1 r2 r3 changed effect := by
  refine ⟨_, hi.trans (hostCommand_ok c s t b d rs hs hj ha), rfl, rfl, rfl, ?_, ?_, he⟩
  · intro p hp
    have := hk p hp
    cases p <;> first | exact this | exact absurd (List.mem_cons_self) hp
  · exact complete_host c s t b d r0 r1 r2 r3 hh (by rw [hclk]; rfl) _ (by simp only [success, hr, Err.code])

end Sys2Proof.Laws
end

