-- ==== Sys2Proof/Laws/Keeps.lean ====
section
/-!
SUPPORT. A calculus of frames: which parts of the device a function leaves unchanged, composed from what its steps leave unchanged.
-/

namespace Sys2Proof.Laws

open Machine

/-- Nothing has changed. -/
theorem Keeps.refl (ps : List Part) (d : Dev) : Keeps ps d d := by
  intro p _; cases p <;> rfl

theorem Part.same_trans {a b c : Dev} (p : Part) (h : p.same a b) (h' : p.same b c) : p.same a c := by
  cases p <;> exact Eq.trans h' h

/-- One more step, whose changes are allowed. -/
theorem Keeps.andThen {ps qs : List Part} {d e f : Dev} (h : Keeps qs e f) (hs : ∀ p ∈ qs, p ∈ ps) (h' : Keeps ps d e) : Keeps ps d f :=
  fun p hp => Part.same_trans p (h' p hp) (h p (fun hq => hp (hs p hq)))

/-- The same frame with more parts allowed to change. -/
theorem Keeps.mono {ps qs : List Part} {d e : Dev} (h : Keeps qs d e) (hs : ∀ p ∈ qs, p ∈ ps) : Keeps ps d e :=
  Keeps.andThen h hs (Keeps.refl ps d)

/-- A fold keeps what each of its steps keeps. -/
theorem Keeps.foldl {α : Type} {ps : List Part} {f : Dev → α → Dev} (l : List α) (h : ∀ e x, Keeps ps e (f e x)) (d : Dev) :
    Keeps ps d (l.foldl f d) := by
  induction l generalizing d with
  | nil => exact Keeps.refl _ _
  | cons x xs ih => exact Keeps.andThen (ih (f d x)) (fun _ hp => hp) (h d x)

end Sys2Proof.Laws
end

