-- ==== Sys2Proof/Laws/FramesHost.lean ====
section
/-!
SUPPORT. What the functions of the named operations and the register pages leave unchanged: one frame for each.
-/

namespace Sys2Proof.Laws

open Machine

theorem onClk_keeps (d : Dev) (f : Clock → Clock) : Keeps [.clk] d (d.onClk f) := by
  intro p hp; cases p <;> first | rfl | exact absurd (by decide) hp

theorem onPwr_keeps (d : Dev) (f : Pwr → Pwr) : Keeps [.pwr] d (d.onPwr f) := by
  intro p hp; cases p <;> first | rfl | exact absurd (by decide) hp

theorem onKeep_keeps (d : Dev) (f : Keep → Keep) : Keeps [.keep] d (d.onKeep f) := by
  intro p hp; cases p <;> first | rfl | exact absurd (by decide) hp

theorem onFuse_keeps (d : Dev) (f : FusePort → FusePort) : Keeps [.fuse] d (d.onFuse f) := by
  intro p hp; cases p <;> first | rfl | exact absurd (by decide) hp

theorem onHost_keeps (d : Dev) (f : HostSide → HostSide) : Keeps [.host] d (d.onHost f) := by
  intro p hp; cases p <;> first | rfl | exact absurd (by decide) hp

theorem onGrants_keeps (d : Dev) (f : Vector Grants 4 → Vector Grants 4) : Keeps [.grants] d (d.onGrants f) := by
  intro p hp; cases p <;> first | rfl | exact absurd (by decide) hp

theorem onFe_keeps (d : Dev) (f : Vector Channel 24 → Vector Channel 24) : Keeps [.fe] d (d.onFe f) := by
  intro p hp; cases p <;> first | rfl | exact absurd (by decide) hp

theorem onTeds_keeps (d : Dev) (f : Teds → Teds) : Keeps [.teds] d (d.onTeds f) := by
  intro p hp; cases p <;> first | rfl | exact absurd (by decide) hp

theorem onTachs_keeps (d : Dev) (f : Vector Tach 4 → Vector Tach 4) : Keeps [.tachs] d (d.onTachs f) := by
  intro p hp; cases p <;> first | rfl | exact absurd (by decide) hp

theorem onWr_keeps (d : Dev) (f : Wringer → Wringer) : Keeps [.wr] d (d.onWr f) := by
  intro p hp; cases p <;> first | rfl | exact absurd (by decide) hp

theorem onGuard_keeps (d : Dev) (f : Guard → Guard) : Keeps [.guard] d (d.onGuard f) := by
  intro p hp; cases p <;> first | rfl | exact absurd (by decide) hp

theorem onRinse_keeps (d : Dev) (f : Rinse → Rinse) : Keeps [.rinse] d (d.onRinse f) := by
  intro p hp; cases p <;> first | rfl | exact absurd (by decide) hp

theorem onTiles_keeps (d : Dev) (f : Vector Tile 48 → Vector Tile 48) : Keeps [.tiles] d (d.onTiles f) := by
  intro p hp; cases p <;> first | rfl | exact absurd (by decide) hp

theorem onUpkeep_keeps (d : Dev) (f : Upkeep → Upkeep) : Keeps [.upkeep] d (d.onUpkeep f) := by
  intro p hp; cases p <;> first | rfl | exact absurd (by decide) hp

theorem onHorizons_keeps (d : Dev) (f : Vector (Nat × Nat) 4 → Vector (Nat × Nat) 4) : Keeps [.horizons] d (d.onHorizons f) := by
  intro p hp; cases p <;> first | rfl | exact absurd (by decide) hp

theorem onModels_keeps (d : Dev) (f : Vector (Option Model) 16 → Vector (Option Model) 16) : Keeps [.models] d (d.onModels f) := by
  intro p hp; cases p <;> first | rfl | exact absurd (by decide) hp

theorem onSpool_keeps (d : Dev) (f : Spool → Spool) : Keeps [.spool] d (d.onSpool f) := by
  intro p hp; cases p <;> first | rfl | exact absurd (by decide) hp

theorem onSram_keeps (d : Dev) (f : Sram → Sram) : Keeps [.sram] d (d.onSram f) := by
  intro p hp; cases p <;> first | rfl | exact absurd (by decide) hp

theorem onStore_keeps (d : Dev) (f : Store → Store) : Keeps [.store] d (d.onStore f) := by
  intro p hp; cases p <;> first | rfl | exact absurd (by decide) hp

theorem onLink_keeps (d : Dev) (f : Link → Link) : Keeps [.link] d (d.onLink f) := by
  intro p hp; cases p <;> first | rfl | exact absurd (by decide) hp

theorem onQspi_keeps (d : Dev) (f : List QspiRead → List QspiRead) : Keeps [.qspi] d (d.onQspi f) := by
  intro p hp; cases p <;> first | rfl | exact absurd (by decide) hp

theorem onFree_keeps (d : Dev) (f : Nat → Nat) : Keeps [.free] d (d.onFree f) := by
  intro p hp; cases p <;> first | rfl | exact absurd (by decide) hp

theorem tick_keeps (d : Dev) (t : Time) : Keeps [.clk] d (d.tick t) := by
  intro p hp; cases p <;> first | rfl | exact absurd (by decide) hp

theorem memWrite_keeps (d : Dev) (a : Nat) (vs : List Byte) : Keeps [.spool, .sram] d (d.memWrite a vs) := by
  unfold Dev.memWrite
  try dsimp only
  repeat' first
    | with_reducible exact Keeps.refl _ _
    | (with_reducible apply Keeps.andThen (onSpool_keeps _ _); decide)
    | (with_reducible apply Keeps.andThen (onSram_keeps _ _); decide)

theorem memEngine_keeps (d : Dev) (a : Nat) (vs : List Byte) : Keeps [.sram] d (d.memEngine a vs) := by
  unfold Dev.memEngine
  try dsimp only
  repeat' first
    | with_reducible exact Keeps.refl _ _
    | (with_reducible apply Keeps.andThen (onSram_keeps _ _); decide)

theorem toEdge_keeps (d : Dev) : Keeps [.clk] d (d.toEdge) := by
  unfold Dev.toEdge
  try dsimp only
  repeat' first
    | with_reducible exact Keeps.refl _ _
    | (with_reducible apply Keeps.andThen (tick_keeps _ _); decide)

theorem wakeBy_keeps (d : Dev) (source : Fin 3) : Keeps [.pwr] d (d.wakeBy source) := by
  unfold Dev.wakeBy
  try dsimp only
  repeat' first
    | with_reducible exact Keeps.refl _ _
    | (with_reducible apply Keeps.andThen (onPwr_keeps _ _); decide)
    | split

theorem onPage_keeps (d : Dev) (b : Basket) (f : Page → Page) : Keeps [.host] d (d.onPage b f) := by
  unfold Dev.onPage
  try dsimp only
  repeat' first
    | with_reducible exact Keeps.refl _ _
    | (with_reducible apply Keeps.andThen (onHost_keeps _ _); decide)

theorem onPages_keeps (d : Dev) (to_ : Nat → Bool) (f : Nat → Page → Page) : Keeps [.host] d (d.onPages to_ f) := by
  unfold Dev.onPages
  try dsimp only
  repeat' first
    | with_reducible exact Keeps.refl _ _
    | (with_reducible apply Keeps.andThen (onHost_keeps _ _); decide)

theorem post_keeps (d : Dev) (to_ : Nat → Bool) (stamp : BitVec 64) (e : Ev) : Keeps [.host] d (d.post to_ stamp e) := by
  unfold Dev.post
  try dsimp only
  repeat' first
    | with_reducible exact Keeps.refl _ _
    | (with_reducible apply Keeps.andThen (onPages_keeps _ _ _); decide)

theorem raise_keeps (d : Dev) (to_ : Nat → Bool) (i : Irq) : Keeps [.host] d (d.raise to_ i) := by
  unfold Dev.raise
  try dsimp only
  repeat' first
    | with_reducible exact Keeps.refl _ _
    | (with_reducible apply Keeps.andThen (onPages_keeps _ _ _); decide)

theorem postAll_keeps (d : Dev) (e : Ev) : Keeps [.host] d (d.postAll e) := by
  unfold Dev.postAll
  try dsimp only
  repeat' first
    | with_reducible exact Keeps.refl _ _
    | (with_reducible apply Keeps.andThen (post_keeps _ _ _ _); decide)

theorem postHeld_keeps (d : Dev) (held : Grants → Bool) (e : Ev) : Keeps [.host] d (d.postHeld held e) := by
  unfold Dev.postHeld
  try dsimp only
  repeat' first
    | with_reducible exact Keeps.refl _ _
    | (with_reducible apply Keeps.andThen (post_keeps _ _ _ _); decide)

theorem postTo_keeps (d : Dev) (b : Basket) (e : Ev) : Keeps [.host] d (d.postTo b e) := by
  unfold Dev.postTo
  try dsimp only
  repeat' first
    | with_reducible exact Keeps.refl _ _
    | (with_reducible apply Keeps.andThen (post_keeps _ _ _ _); decide)

theorem violate_keeps (d : Dev) (b : Basket) (kind : BitVec 4) (addr : Nat) : Keeps [.host] d (d.violate b kind addr) := by
  unfold Dev.violate
  try dsimp only
  repeat' first
    | with_reducible exact Keeps.refl _ _
    | (with_reducible apply Keeps.andThen (onHost_keeps _ _); decide)
    | (with_reducible apply Keeps.andThen (onPage_keeps _ _ _); decide)
    | (with_reducible apply Keeps.andThen (raise_keeps _ _ _); decide)
    | split

theorem complete_keeps (d : Dev) (b : Basket) (o : CmdOutcome) : Keeps [.host] d (d.complete b o) := by
  unfold Dev.complete
  try dsimp only
  repeat' first
    | with_reducible exact Keeps.refl _ _
    | (with_reducible apply Keeps.andThen (onPage_keeps _ _ _); decide)

theorem finish_keeps (d : Dev) (b : Basket) (code : Word) (o : CmdOutcome) : Keeps [.host] d (d.finish b code o) := by
  unfold Dev.finish
  try dsimp only
  repeat' first
    | with_reducible exact Keeps.refl _ _
    | (with_reducible apply Keeps.andThen (onPage_keeps _ _ _); decide)

theorem drive_keeps (d : Dev) (w : Word) : Keeps [.host] d (d.drive w) := by
  unfold Dev.drive
  try dsimp only
  repeat' first
    | with_reducible exact Keeps.refl _ _
    | (with_reducible apply Keeps.andThen (onHost_keeps _ _); decide)

theorem violateBits_keeps (d : Dev) (b : Basket) (off : Nat) (a0 : Nat) : Keeps [.host] d (d.violateBits b off a0) := by
  induction a0 generalizing d b off with
  | zero =>
    unfold Dev.violateBits
    try dsimp only
    repeat' first
      | with_reducible exact Keeps.refl _ _
  | succ k ih =>
    unfold Dev.violateBits
    try dsimp only
    repeat' first
      | with_reducible exact ih _ _ _ 
      | (with_reducible apply Keeps.andThen (ih _ _ _); decide)
      | with_reducible exact Keeps.refl _ _
      | (with_reducible apply Keeps.andThen (violate_keeps _ _ _ _); decide)

theorem clearOverload_keeps (d : Dev) (b : Basket) (word : Fin 2) (val : Word) : Keeps [.host] d (d.clearOverload b word val) := by
  unfold Dev.clearOverload
  try dsimp only
  repeat' first
    | with_reducible exact Keeps.refl _ _
    | (with_reducible apply Keeps.andThen (violateBits_keeps _ _ _ _); decide)
    | (with_reducible apply Keeps.andThen (onPage_keeps _ _ _); decide)

theorem onWindow_keeps (d : Dev) (b : Basket) (w : Fin 2) (f : Window → Window) : Keeps [.host] d (d.onWindow b w f) := by
  unfold Dev.onWindow
  try dsimp only
  repeat' first
    | with_reducible exact Keeps.refl _ _
    | (with_reducible apply Keeps.andThen (onPage_keeps _ _ _); decide)

theorem winDone_keeps (d : Dev) (b : Basket) (w : Fin 2) (reason : Nat) : Keeps [.host] d (d.winDone b w reason) := by
  unfold Dev.winDone
  try dsimp only
  repeat' first
    | with_reducible exact Keeps.refl _ _
    | (with_reducible apply Keeps.andThen (raise_keeps _ _ _); decide)
    | (with_reducible apply Keeps.andThen (onWindow_keeps _ _ _ _); decide)
    | (with_reducible apply Keeps.andThen (postTo_keeps _ _ _); decide)

theorem winAdvance_keeps (d : Dev) (b : Basket) (w : Fin 2) (write : Bool) : Keeps [.host] d (d.winAdvance b w write) := by
  unfold Dev.winAdvance
  try dsimp only
  repeat' first
    | with_reducible exact Keeps.refl _ _
    | (with_reducible apply Keeps.andThen (onWindow_keeps _ _ _ _); decide)
    | (with_reducible apply Keeps.andThen (winDone_keeps _ _ _ _); decide)
    | split

theorem drainOne_keeps (d : Dev) (b : Basket) (w : Fin 2) : Keeps [.host, .spool, .sram] d (d.drainOne b w) := by
  unfold Dev.drainOne
  try dsimp only
  repeat' first
    | with_reducible exact Keeps.refl _ _
    | (with_reducible apply Keeps.andThen (onWindow_keeps _ _ _ _); decide)
    | (with_reducible apply Keeps.andThen (memWrite_keeps _ _ _); decide)
    | split

theorem drain_keeps (d : Dev) (b : Basket) (w : Fin 2) (a0 : Nat) : Keeps [.host, .spool, .sram] d (d.drain b w a0) := by
  induction a0 generalizing d b w with
  | zero =>
    unfold Dev.drain
    try dsimp only
    repeat' first
      | with_reducible exact Keeps.refl _ _
  | succ k ih =>
    unfold Dev.drain
    try dsimp only
    repeat' first
      | with_reducible exact ih _ _ _ 
      | (with_reducible apply Keeps.andThen (ih _ _ _); decide)
      | with_reducible exact Keeps.refl _ _
      | (with_reducible apply Keeps.andThen (drainOne_keeps _ _ _); decide)

theorem winRead_keeps (d : Dev) (b : Basket) (w : Fin 2) : Keeps [.host, .spool, .sram] d (d.winRead b w) := by
  unfold Dev.winRead
  try dsimp only
  repeat' first
    | with_reducible exact Keeps.refl _ _
    | (with_reducible apply Keeps.andThen (onWindow_keeps _ _ _ _); decide)
    | (with_reducible apply Keeps.andThen (drain_keeps _ _ _ _); decide)
    | (with_reducible apply Keeps.andThen (drive_keeps _ _); decide)
    | (with_reducible apply Keeps.andThen (violate_keeps _ _ _ _); decide)
    | (with_reducible apply Keeps.andThen (winAdvance_keeps _ _ _ _); decide)
    | (with_reducible apply Keeps.andThen (onPage_keeps _ _ _); decide)
    | split

theorem winWrite_keeps (d : Dev) (b : Basket) (w : Fin 2) (val : Word) : Keeps [.host, .spool, .sram] d (d.winWrite b w val) := by
  unfold Dev.winWrite
  try dsimp only
  repeat' first
    | with_reducible exact Keeps.refl _ _
    | (with_reducible apply Keeps.andThen (drainOne_keeps _ _ _); decide)
    | (with_reducible apply Keeps.andThen (onWindow_keeps _ _ _ _); decide)
    | (with_reducible apply Keeps.andThen (violate_keeps _ _ _ _); decide)
    | (with_reducible apply Keeps.andThen (winAdvance_keeps _ _ _ _); decide)
    | split

theorem winCtrl_keeps (d : Dev) (b : Basket) (w : Fin 2) (val : Word) : Keeps [.host] d (d.winCtrl b w val) := by
  unfold Dev.winCtrl
  try dsimp only
  repeat' first
    | with_reducible exact Keeps.refl _ _
    | (with_reducible apply Keeps.andThen (onWindow_keeps _ _ _ _); decide)
    | (with_reducible apply Keeps.andThen (winDone_keeps _ _ _ _); decide)
    | split

theorem winRegister_keeps (d : Dev) (b : Basket) (w : Fin 2) (k : Nat) (val : Word) : Keeps [.host, .spool, .sram] d (d.winRegister b w k val) := by
  unfold Dev.winRegister
  try dsimp only
  repeat' first
    | with_reducible exact Keeps.refl _ _
    | (with_reducible apply Keeps.andThen (winWrite_keeps _ _ _ _); decide)
    | (with_reducible apply Keeps.andThen (onWindow_keeps _ _ _ _); decide)
    | (with_reducible apply Keeps.andThen (winCtrl_keeps _ _ _ _); decide)
    | split

theorem clearCause_keeps (d : Dev) (b : Basket) (val : Word) : Keeps [.keep] d (d.clearCause b val) := by
  unfold Dev.clearCause
  try dsimp only
  repeat' first
    | with_reducible exact Keeps.refl _ _
    | (with_reducible apply Keeps.andThen (onKeep_keeps _ _); decide)
    | split

theorem writeEnable_keeps (d : Dev) (b : Basket) (val : Word) : Keeps [.host] d (d.writeEnable b val) := by
  unfold Dev.writeEnable
  try dsimp only
  repeat' first
    | with_reducible exact Keeps.refl _ _
    | (with_reducible apply Keeps.andThen (onHost_keeps _ _); decide)
    | split

end Sys2Proof.Laws
end

