-- ==== Sys2Proof/Laws/FramesFront.lean ====
section
/-!
SUPPORT. What the functions of the front end, the Wringer, the Rinse and the Thimble leave unchanged: one frame for each.
-/

namespace Sys2Proof.Laws

open Machine

theorem onChannel_keeps (d : Dev) (pos : Nat) (f : Channel → Channel) : Keeps [.fe] d (d.onChannel pos f) := by
  unfold Dev.onChannel
  try dsimp only
  repeat' first
    | with_reducible exact Keeps.refl _ _
    | (with_reducible apply Keeps.andThen (onFe_keeps _ _); decide)

theorem overloadStart_keeps (d : Dev) (pos : Fin 24) (negative : Bool) : Keeps [.host, .fe] d (d.overloadStart pos negative) := by
  unfold Dev.overloadStart
  try dsimp only
  repeat' first
    | with_reducible exact Keeps.refl _ _
    | (with_reducible apply Keeps.andThen (onChannel_keeps _ _ _); decide)
    | (with_reducible apply Keeps.andThen (onPages_keeps _ _ _); decide)
    | (with_reducible apply Keeps.andThen (postHeld_keeps _ _ _); decide)
    | (with_reducible apply Keeps.andThen (raise_keeps _ _ _); decide)
    | split

theorem calSample_keeps (d : Dev) (pos : Nat) (raw : Int) : Keeps [.fe] d (d.calSample pos raw) := by
  unfold Dev.calSample
  try dsimp only
  repeat' first
    | with_reducible exact Keeps.refl _ _
    | (with_reducible apply Keeps.andThen (onChannel_keeps _ _ _); decide)
    | split

theorem calEnd_keeps (d : Dev) (pos : Fin 24) (k : Calibration) : Keeps [.host, .fe, .free] d (d.calEnd pos k) := by
  unfold Dev.calEnd
  unfold Dev.draw
  try dsimp only
  repeat' first
    | with_reducible exact Keeps.refl _ _
    | (with_reducible apply Keeps.andThen (onFree_keeps _ _); decide)
    | (with_reducible apply Keeps.andThen (onChannel_keeps _ _ _); decide)
    | (with_reducible apply Keeps.andThen (finish_keeps _ _ _ _); decide)
    | split

theorem onLine_keeps (d : Dev) (line : Fin 4) (f : TedsLine → TedsLine) : Keeps [.teds] d (d.onLine line f) := by
  unfold Dev.onLine
  try dsimp only
  repeat' first
    | with_reducible exact Keeps.refl _ _
    | (with_reducible apply Keeps.andThen (onTeds_keeps _ _); decide)

theorem tedsBad_keeps (d : Dev) (line : Fin 4) (identity : BitVec 64) (reason : Nat) (post : Bool) : Keeps [.host, .teds] d (d.tedsBad line identity reason post) := by
  unfold Dev.tedsBad
  try dsimp only
  repeat' first
    | with_reducible exact Keeps.refl _ _
    | (with_reducible apply Keeps.andThen (postHeld_keeps _ _ _); decide)
    | (with_reducible apply Keeps.andThen (onLine_keeps _ _ _); decide)
    | split

theorem tedsMove_keeps (d : Dev) (line : Fin 4) (identity : BitVec 64) (e : Event) : Keeps [.host] d (d.tedsMove line identity e) := by
  unfold Dev.tedsMove
  try dsimp only
  repeat' first
    | with_reducible exact Keeps.refl _ _
    | (with_reducible apply Keeps.andThen (postHeld_keeps _ _ _); decide)

theorem tedsFound_keeps (d : Dev) (line : Fin 4) (k : Nat) (r : TedsRead) : Keeps [.host, .fe, .teds] d (d.tedsFound line k r) := by
  unfold Dev.tedsFound
  try dsimp only
  repeat' first
    | with_reducible exact Keeps.refl _ _
    | (with_reducible apply Keeps.andThen (onLine_keeps _ _ _); decide)
    | (with_reducible apply Keeps.andThen (onChannel_keeps _ _ _); decide)
    | (with_reducible apply Keeps.andThen (tedsMove_keeps _ _ _ _); decide)
    | (with_reducible apply Keeps.andThen (tedsBad_keeps _ _ _ _ _); decide)
    | split

theorem tedsFoundAll_keeps (d : Dev) (line : Fin 4) (a0 : Nat) (a1 : List TedsRead) : Keeps [.host, .fe, .teds] d (d.tedsFoundAll line a0 a1) := by
  induction a1 generalizing d line a0 with
  | nil =>
    unfold Dev.tedsFoundAll
    try dsimp only
    repeat' first
      | with_reducible exact Keeps.refl _ _
  | cons x xs ih =>
    unfold Dev.tedsFoundAll
    try dsimp only
    repeat' first
      | with_reducible exact ih _ _ _ 
      | (with_reducible apply Keeps.andThen (ih _ _ _); decide)
      | with_reducible exact Keeps.refl _ _
      | (with_reducible apply Keeps.andThen (tedsFound_keeps _ _ _ _); decide)

theorem tedsWrongIds_keeps (d : Dev) (line : Fin 4) (a0 : Bool) (a1 : List TedsRead) : Keeps [.host, .teds] d (d.tedsWrongIds line a0 a1) := by
  induction a1 generalizing d line a0 with
  | nil =>
    unfold Dev.tedsWrongIds
    try dsimp only
    repeat' first
      | with_reducible exact Keeps.refl _ _
  | cons x xs ih =>
    unfold Dev.tedsWrongIds
    try dsimp only
    repeat' first
      | with_reducible exact ih _ _ _ 
      | (with_reducible apply Keeps.andThen (ih _ _ _); decide)
      | with_reducible exact Keeps.refl _ _
      | (with_reducible apply Keeps.andThen (tedsBad_keeps _ _ _ _ _); decide)

theorem tedsMissed_keeps (d : Dev) (line : Fin 4) (m : TedsMemory) : Keeps [.host, .teds] d (d.tedsMissed line m) := by
  unfold Dev.tedsMissed
  try dsimp only
  repeat' first
    | with_reducible exact Keeps.refl _ _
    | (with_reducible apply Keeps.andThen (onLine_keeps _ _ _); decide)
    | (with_reducible apply Keeps.andThen (tedsMove_keeps _ _ _ _); decide)
    | split

theorem tedsMissedAll_keeps (d : Dev) (line : Fin 4) (a0 : List TedsMemory) : Keeps [.host, .teds] d (d.tedsMissedAll line a0) := by
  induction a0 generalizing d line with
  | nil =>
    unfold Dev.tedsMissedAll
    try dsimp only
    repeat' first
      | with_reducible exact Keeps.refl _ _
  | cons x xs ih =>
    unfold Dev.tedsMissedAll
    try dsimp only
    repeat' first
      | with_reducible exact ih _ _ 
      | (with_reducible apply Keeps.andThen (ih _ _); decide)
      | with_reducible exact Keeps.refl _ _
      | (with_reducible apply Keeps.andThen (tedsMissed_keeps _ _ _); decide)

theorem tedsScan_keeps (d : Dev) (line : Fin 4) (found : List TedsRead) : Keeps [.host, .fe, .teds] d (d.tedsScan line found) := by
  unfold Dev.tedsScan
  try dsimp only
  repeat' first
    | with_reducible exact Keeps.refl _ _
    | (with_reducible apply Keeps.andThen (tedsWrongIds_keeps _ _ _ _); decide)
    | (with_reducible apply Keeps.andThen (onLine_keeps _ _ _); decide)
    | (with_reducible apply Keeps.andThen (tedsFoundAll_keeps _ _ _ _); decide)
    | (with_reducible apply Keeps.andThen (tedsMissedAll_keeps _ _ _); decide)

theorem openBandSettle_keeps (d : Dev) (feature : Nat) (b : Band) : Keeps [.wr] d (d.openBandSettle feature b) := by
  unfold Dev.openBandSettle
  try dsimp only
  repeat' first
    | with_reducible exact Keeps.refl _ _
    | (with_reducible apply Keeps.andThen (onWr_keeps _ _); decide)

theorem onClock_keeps (d : Dev) (n : Nat) (f : BandClock → BandClock) : Keeps [.wr] d (d.onClock n f) := by
  unfold Dev.onClock
  try dsimp only
  repeat' first
    | with_reducible exact Keeps.refl _ _
    | (with_reducible apply Keeps.andThen (onWr_keeps _ _); decide)

theorem holdClocks_keeps (d : Dev) (a0 : List (Nat × Band)) : Keeps [.wr] d (d.holdClocks a0) := by
  induction a0 generalizing d with
  | nil =>
    unfold Dev.holdClocks
    try dsimp only
    repeat' first
      | with_reducible exact Keeps.refl _ _
  | cons x xs ih =>
    unfold Dev.holdClocks
    try dsimp only
    repeat' first
      | with_reducible exact ih _ 
      | (with_reducible apply Keeps.andThen (ih _); decide)
      | with_reducible exact Keeps.refl _ _
      | (with_reducible apply Keeps.andThen (onClock_keeps _ _ _); decide)

theorem startClocks_keeps (d : Dev) (a0 : List (Nat × Band)) : Keeps [.wr] d (d.startClocks a0) := by
  induction a0 generalizing d with
  | nil =>
    unfold Dev.startClocks
    try dsimp only
    repeat' first
      | with_reducible exact Keeps.refl _ _
  | cons x xs ih =>
    unfold Dev.startClocks
    try dsimp only
    repeat' first
      | with_reducible exact ih _ 
      | (with_reducible apply Keeps.andThen (ih _); decide)
      | with_reducible exact Keeps.refl _ _
      | (with_reducible apply Keeps.andThen (onClock_keeps _ _ _); decide)

theorem prefilter_keeps (d : Dev) (a0 : List (Nat × Band)) : Keeps [.wr] d (d.prefilter a0) := by
  induction a0 generalizing d with
  | nil =>
    unfold Dev.prefilter
    try dsimp only
    repeat' first
      | with_reducible exact Keeps.refl _ _
  | cons x xs ih =>
    unfold Dev.prefilter
    try dsimp only
    repeat' first
      | with_reducible exact ih _ 
      | (with_reducible apply Keeps.andThen (ih _); decide)
      | with_reducible exact Keeps.refl _ _
      | (with_reducible apply Keeps.andThen (onClock_keeps _ _ _); decide)

theorem makeDue_keeps (d : Dev) (cut : Bool) : Keeps [.wr] d (d.makeDue cut) := by
  unfold Dev.makeDue
  try dsimp only
  repeat' first
    | with_reducible exact Keeps.refl _ _
    | (with_reducible apply Keeps.andThen (onWr_keeps _ _); decide)
    | split

theorem onTach_keeps (d : Dev) (i : Fin 4) (f : Tach → Tach) : Keeps [.tachs] d (d.onTach i f) := by
  unfold Dev.onTach
  try dsimp only
  repeat' first
    | with_reducible exact Keeps.refl _ _
    | (with_reducible apply Keeps.andThen (onTachs_keeps _ _); decide)

theorem onLoop_keeps (d : Dev) (i : Fin 4) (f : TachLoop → TachLoop) : Keeps [.tachs] d (d.onLoop i f) := by
  unfold Dev.onLoop
  try dsimp only
  repeat' first
    | with_reducible exact Keeps.refl _ _
    | (with_reducible apply Keeps.andThen (onTach_keeps _ _ _); decide)

theorem postTach_keeps (d : Dev) (i : Fin 4) (stamp : BitVec 64) (e : Ev) : Keeps [.host] d (d.postTach i stamp e) := by
  unfold Dev.postTach
  try dsimp only
  repeat' first
    | with_reducible exact Keeps.refl _ _
    | (with_reducible apply Keeps.andThen (post_keeps _ _ _ _); decide)

theorem angleLost_keeps (d : Dev) (i : Fin 4) (reason : Nat) : Keeps [.host, .tachs, .wr] d (d.angleLost i reason) := by
  unfold Dev.angleLost
  try dsimp only
  repeat' first
    | with_reducible exact Keeps.refl _ _
    | (with_reducible apply Keeps.andThen (holdClocks_keeps _ _); decide)
    | (with_reducible apply Keeps.andThen (makeDue_keeps _ _); decide)
    | (with_reducible apply Keeps.andThen (onLoop_keeps _ _ _); decide)
    | (with_reducible apply Keeps.andThen (onWr_keeps _ _); decide)
    | (with_reducible apply Keeps.andThen (postTach_keeps _ _ _ _); decide)
    | split

theorem openOrderBands_keeps (d : Dev) (a0 : List (Nat × Band)) : Keeps [.wr] d (d.openOrderBands a0) := by
  induction a0 generalizing d with
  | nil =>
    unfold Dev.openOrderBands
    try dsimp only
    repeat' first
      | with_reducible exact Keeps.refl _ _
  | cons x xs ih =>
    unfold Dev.openOrderBands
    try dsimp only
    repeat' first
      | with_reducible exact ih _ 
      | (with_reducible apply Keeps.andThen (ih _); decide)
      | with_reducible exact Keeps.refl _ _
      | (with_reducible apply Keeps.andThen (openBandSettle_keeps _ _ _); decide)

theorem angleLock_keeps (d : Dev) (i : Fin 4) (at_ : Time) : Keeps [.host, .tachs, .wr] d (d.angleLock i at_) := by
  unfold Dev.angleLock
  try dsimp only
  repeat' first
    | with_reducible exact Keeps.refl _ _
    | (with_reducible apply Keeps.andThen (openOrderBands_keeps _ _); decide)
    | (with_reducible apply Keeps.andThen (onLoop_keeps _ _ _); decide)
    | (with_reducible apply Keeps.andThen (onWr_keeps _ _); decide)
    | (with_reducible apply Keeps.andThen (postTach_keeps _ _ _ _); decide)
    | (with_reducible apply Keeps.andThen (startClocks_keeps _ _); decide)
    | split

theorem tachEdge_keeps (d : Dev) (i : Fin 4) (edge : Time) : Keeps [.host, .tachs, .wr, .free] d (d.tachEdge i edge) := by
  unfold Dev.tachEdge
  unfold Dev.draw
  try dsimp only
  repeat' first
    | with_reducible exact Keeps.refl _ _
    | (with_reducible apply Keeps.andThen (onLoop_keeps _ _ _); decide)
    | (with_reducible apply Keeps.andThen (onFree_keeps _ _); decide)
    | (with_reducible apply Keeps.andThen (angleLost_keeps _ _ _); decide)
    | (with_reducible apply Keeps.andThen (angleLock_keeps _ _ _); decide)
    | split

theorem indexBad_keeps (d : Dev) (i : Fin 4) (reason : Nat) (id : Nat) : Keeps [.host, .tachs] d (d.indexBad i reason id) := by
  unfold Dev.indexBad
  try dsimp only
  repeat' first
    | with_reducible exact Keeps.refl _ _
    | (with_reducible apply Keeps.andThen (onTach_keeps _ _ _); decide)
    | (with_reducible apply Keeps.andThen (postTach_keeps _ _ _ _); decide)

theorem indexGood_keeps (d : Dev) (i : Fin 4) (r : IndexRead) : Keeps [.host, .tachs, .wr] d (d.indexGood i r) := by
  unfold Dev.indexGood
  try dsimp only
  repeat' first
    | with_reducible exact Keeps.refl _ _
    | (with_reducible apply Keeps.andThen (onTach_keeps _ _ _); decide)
    | (with_reducible apply Keeps.andThen (angleLost_keeps _ _ _); decide)
    | (with_reducible apply Keeps.andThen (onLoop_keeps _ _ _); decide)
    | (with_reducible apply Keeps.andThen (indexBad_keeps _ _ _ _); decide)
    | (with_reducible apply Keeps.andThen (angleLock_keeps _ _ _); decide)
    | split

theorem enterFreewheel_keeps (d : Dev) (i : Fin 4) (start : Time) : Keeps [.host, .tachs] d (d.enterFreewheel i start) := by
  unfold Dev.enterFreewheel
  try dsimp only
  repeat' first
    | with_reducible exact Keeps.refl _ _
    | (with_reducible apply Keeps.andThen (onLoop_keeps _ _ _); decide)
    | (with_reducible apply Keeps.andThen (postTach_keeps _ _ _ _); decide)

theorem markFree_keeps (d : Dev) (e : EndedFrame) (f : Nat) (v : BandValue) : Keeps [.wr, .spool, .sram] d (d.markFree e f v) := by
  unfold Dev.markFree
  try dsimp only
  repeat' first
    | with_reducible exact Keeps.refl _ _
    | (with_reducible apply Keeps.andThen (onWr_keeps _ _); decide)
    | (with_reducible apply Keeps.andThen (memWrite_keeps _ _ _); decide)
    | split

theorem markEnded_keeps (d : Dev) (i : Fin 4) (start : Time) : Keeps [.wr, .spool, .sram] d (d.markEnded i start) := by
  unfold Dev.markEnded
  try dsimp only
  repeat' first
    | with_reducible exact Keeps.refl _ _
    | (with_reducible apply Keeps.andThen (markFree_keeps _ _ _ _); decide)
    | with_reducible refine Keeps.foldl _ (fun d x => ?_) _
    | split

theorem floodStart_keeps (d : Dev) (i : Fin 4) (onIndex : Bool) (crossed : Time) : Keeps [.host, .tachs, .wr, .spool, .sram] d (d.floodStart i onIndex crossed) := by
  unfold Dev.floodStart
  try dsimp only
  repeat' first
    | with_reducible exact Keeps.refl _ _
    | (with_reducible apply Keeps.andThen (enterFreewheel_keeps _ _ _); decide)
    | (with_reducible apply Keeps.andThen (onTach_keeps _ _ _); decide)
    | (with_reducible apply Keeps.andThen (postTach_keeps _ _ _ _); decide)
    | (with_reducible apply Keeps.andThen (markEnded_keeps _ _ _); decide)
    | split

theorem stageTach_keeps (d : Dev) (i : Nat) (f : TachSet → TachSet) : Keeps [.wr] d (d.stageTach i f) := by
  unfold Dev.stageTach
  try dsimp only
  repeat' first
    | with_reducible exact Keeps.refl _ _
    | (with_reducible apply Keeps.andThen (onWr_keeps _ _); decide)

theorem stageWr_keeps (d : Dev) (f : WringerSet → WringerSet) : Keeps [.wr] d (d.stageWr f) := by
  unfold Dev.stageWr
  try dsimp only
  repeat' first
    | with_reducible exact Keeps.refl _ _
    | (with_reducible apply Keeps.andThen (onWr_keeps _ _); decide)

theorem countClip_keeps (d : Dev) (ch : Nat) (clip : Bool) : Keeps [.wr] d (d.countClip ch clip) := by
  unfold Dev.countClip
  try dsimp only
  repeat' first
    | with_reducible exact Keeps.refl _ _
    | (with_reducible apply Keeps.andThen (onWr_keeps _ _); decide)
    | split

theorem writeRecords_keeps (d : Dev) (e : EndedFrame) (draw : Nat) (countMode : Bool) (a0 : Nat) (a1 : List BandValue) : Keeps [.wr, .spool, .sram] d (d.writeRecords e draw countMode a0 a1) := by
  induction a1 generalizing d e draw countMode a0 with
  | nil =>
    unfold Dev.writeRecords
    try dsimp only
    repeat' first
      | with_reducible exact Keeps.refl _ _
  | cons x xs ih =>
    unfold Dev.writeRecords
    try dsimp only
    repeat' first
      | with_reducible exact ih _ _ _ _ _ 
      | (with_reducible apply Keeps.andThen (ih _ _ _ _ _); decide)
      | with_reducible exact Keeps.refl _ _
      | (with_reducible apply Keeps.andThen (countClip_keeps _ _ _); decide)
      | (with_reducible apply Keeps.andThen (memWrite_keeps _ _ _); decide)
      | split

theorem frameWritten_keeps (d : Dev) (e : EndedFrame) : Keeps [.wr, .spool, .sram] d (d.frameWritten e) := by
  unfold Dev.frameWritten
  try dsimp only
  repeat' first
    | with_reducible exact Keeps.refl _ _
    | (with_reducible apply Keeps.andThen (onWr_keeps _ _); decide)
    | (with_reducible apply Keeps.andThen (memWrite_keeps _ _ _); decide)

theorem onChain_keeps (d : Dev) (pos : Nat) (f : Chain → Chain) : Keeps [.rinse] d (d.onChain pos f) := by
  unfold Dev.onChain
  try dsimp only
  repeat' first
    | with_reducible exact Keeps.refl _ _
    | (with_reducible apply Keeps.andThen (onRinse_keeps _ _); decide)

theorem putRing_keeps (d : Dev) (pos : Nat) (b : Basket) (r : Ring) : Keeps [.rinse] d (d.putRing pos b r) := by
  unfold Dev.putRing
  try dsimp only
  repeat' first
    | with_reducible exact Keeps.refl _ _
    | (with_reducible apply Keeps.andThen (onChain_keeps _ _ _); decide)

theorem ringStop_keeps (d : Dev) (pos : Nat) (b : Basket) (r : Ring) (reason : Nat) : Keeps [.host, .rinse] d (d.ringStop pos b r reason) := by
  unfold Dev.ringStop
  try dsimp only
  repeat' first
    | with_reducible exact Keeps.refl _ _
    | (with_reducible apply Keeps.andThen (post_keeps _ _ _ _); decide)
    | (with_reducible apply Keeps.andThen (putRing_keeps _ _ _ _); decide)
    | split

theorem ringWrite_keeps (d : Dev) (pos : Nat) (b : Basket) (r : Ring) (word : BitVec 32) : Keeps [.rinse, .spool, .sram] d (d.ringWrite pos b r word).1 := by
  unfold Dev.ringWrite
  try dsimp only
  repeat' first
    | with_reducible exact Keeps.refl _ _
    | (with_reducible apply Keeps.andThen (putRing_keeps _ _ _ _); decide)
    | (with_reducible apply Keeps.andThen (memWrite_keeps _ _ _); decide)

theorem ringTake_keeps (d : Dev) (pos : Nat) (b : Basket) (word : BitVec 32) : Keeps [.host, .rinse, .spool, .sram] d (d.ringTake pos b word) := by
  unfold Dev.ringTake
  try dsimp only
  repeat' first
    | with_reducible exact Keeps.refl _ _
    | (with_reducible apply Keeps.andThen (ringStop_keeps _ _ _ _ _); decide)
    | (with_reducible apply Keeps.andThen (ringWrite_keeps _ _ _ _ _); decide)
    | split

theorem ringsTake_keeps (d : Dev) (pos : Nat) (word : BitVec 32) : Keeps [.host, .rinse, .spool, .sram] d (d.ringsTake pos word) := by
  unfold Dev.ringsTake
  try dsimp only
  repeat' first
    | with_reducible exact Keeps.refl _ _
    | (with_reducible apply Keeps.andThen (ringTake_keeps _ _ _ _); decide)

theorem ringTrigger_keeps (d : Dev) (pos : Nat) (b : Basket) (r : Ring) : Keeps [.host, .rinse] d (d.ringTrigger pos b r) := by
  unfold Dev.ringTrigger
  try dsimp only
  repeat' first
    | with_reducible exact Keeps.refl _ _
    | (with_reducible apply Keeps.andThen (ringStop_keeps _ _ _ _ _); decide)
    | (with_reducible apply Keeps.andThen (putRing_keeps _ _ _ _); decide)
    | split

theorem latchTrigger_keeps (d : Dev) (comp : Fin 32) (pos : Nat) (b : Basket) : Keeps [.host, .rinse] d (d.latchTrigger comp pos b) := by
  unfold Dev.latchTrigger
  try dsimp only
  repeat' first
    | with_reducible exact Keeps.refl _ _
    | (with_reducible apply Keeps.andThen (ringTrigger_keeps _ _ _ _); decide)
    | split

theorem latchTriggers_keeps (d : Dev) (comp : Fin 32) : Keeps [.host, .rinse] d (d.latchTriggers comp) := by
  unfold Dev.latchTriggers
  try dsimp only
  repeat' first
    | with_reducible exact Keeps.refl _ _
    | (with_reducible apply Keeps.andThen (latchTrigger_keeps _ _ _ _); decide)
    | with_reducible refine Keeps.foldl _ (fun d x => ?_) _

theorem ringsStop_keeps (d : Dev) (pos : Nat) : Keeps [.host, .rinse] d (d.ringsStop pos) := by
  unfold Dev.ringsStop
  try dsimp only
  repeat' first
    | with_reducible exact Keeps.refl _ _
    | (with_reducible apply Keeps.andThen (ringStop_keeps _ _ _ _ _); decide)
    | split

theorem chainApplied_keeps (d : Dev) (pos : Nat) : Keeps [.host] d (d.chainApplied pos) := by
  unfold Dev.chainApplied
  try dsimp only
  repeat' first
    | with_reducible exact Keeps.refl _ _
    | (with_reducible apply Keeps.andThen (postHeld_keeps _ _ _); decide)

theorem rinseApply_keeps (d : Dev) (pos : Nat) : Keeps [.host, .rinse] d (d.rinseApply pos) := by
  unfold Dev.rinseApply
  try dsimp only
  repeat' first
    | with_reducible exact Keeps.refl _ _
    | (with_reducible apply Keeps.andThen (onChain_keeps _ _ _); decide)
    | (with_reducible apply Keeps.andThen (chainApplied_keeps _ _); decide)
    | split

theorem rinseInput_keeps (d : Dev) (pos : Nat) (word : BitVec 32) : Keeps [.host, .rinse, .spool, .sram] d (d.rinseInput pos word) := by
  unfold Dev.rinseInput
  try dsimp only
  repeat' first
    | with_reducible exact Keeps.refl _ _
    | (with_reducible apply Keeps.andThen (rinseApply_keeps _ _); decide)
    | (with_reducible apply Keeps.andThen (onChain_keeps _ _ _); decide)
    | (with_reducible apply Keeps.andThen (ringsTake_keeps _ _ _); decide)
    | split

theorem syncFrame_keeps (d : Dev) : Keeps [.wr] d (d.syncFrame) := by
  unfold Dev.syncFrame
  try dsimp only
  repeat' first
    | with_reducible exact Keeps.refl _ _
    | (with_reducible apply Keeps.andThen (onWr_keeps _ _); decide)
    | (with_reducible apply Keeps.andThen (makeDue_keeps _ _); decide)
    | split

theorem syncSwap_keeps (d : Dev) (pos : Nat) (swapped : Bool) : Keeps [.host, .rinse] d (d.syncSwap pos swapped) := by
  unfold Dev.syncSwap
  try dsimp only
  repeat' first
    | with_reducible exact Keeps.refl _ _
    | (with_reducible apply Keeps.andThen (onChain_keeps _ _ _); decide)
    | (with_reducible apply Keeps.andThen (postHeld_keeps _ _ _); decide)
    | split

theorem syncChain_keeps (d : Dev) (pos : Nat) : Keeps [.host, .rinse] d (d.syncChain pos) := by
  unfold Dev.syncChain
  try dsimp only
  repeat' first
    | with_reducible exact Keeps.refl _ _
    | (with_reducible apply Keeps.andThen (rinseApply_keeps _ _); decide)
    | (with_reducible apply Keeps.andThen (onChain_keeps _ _ _); decide)
    | (with_reducible apply Keeps.andThen (syncSwap_keeps _ _ _); decide)
    | split

theorem syncChains_keeps (d : Dev) (a0 : List Nat) : Keeps [.host, .rinse] d (d.syncChains a0) := by
  induction a0 generalizing d with
  | nil =>
    unfold Dev.syncChains
    try dsimp only
    repeat' first
      | with_reducible exact Keeps.refl _ _
      | (with_reducible apply Keeps.andThen (onRinse_keeps _ _); decide)
      | split
  | cons x xs ih =>
    unfold Dev.syncChains
    try dsimp only
    repeat' first
      | with_reducible exact ih _ 
      | (with_reducible apply Keeps.andThen (ih _); decide)
      | with_reducible exact Keeps.refl _ _
      | (with_reducible apply Keeps.andThen (syncChain_keeps _ _); decide)

theorem sync_keeps (d : Dev) : Keeps [.host, .rinse] d (d.sync) := by
  unfold Dev.sync
  try dsimp only
  repeat' first
    | with_reducible exact Keeps.refl _ _
    | (with_reducible apply Keeps.andThen (syncChains_keeps _ _); decide)

theorem acceptChain_keeps (d : Dev) (pos : Nat) (swap : Bool) : Keeps [.host, .rinse] d (d.acceptChain pos swap) := by
  unfold Dev.acceptChain
  try dsimp only
  repeat' first
    | with_reducible exact Keeps.refl _ _
    | (with_reducible apply Keeps.andThen (onChain_keeps _ _ _); decide)
    | (with_reducible apply Keeps.andThen (chainApplied_keeps _ _); decide)
    | split

theorem chainsAtFrame1_keeps (d : Dev) (a0 : List Nat) : Keeps [.host, .rinse] d (d.chainsAtFrame1 a0) := by
  induction a0 generalizing d with
  | nil =>
    unfold Dev.chainsAtFrame1
    try dsimp only
    repeat' first
      | with_reducible exact Keeps.refl _ _
  | cons x xs ih =>
    unfold Dev.chainsAtFrame1
    try dsimp only
    repeat' first
      | with_reducible exact ih _ 
      | (with_reducible apply Keeps.andThen (ih _); decide)
      | with_reducible exact Keeps.refl _ _
      | (with_reducible apply Keeps.andThen (onChain_keeps _ _ _); decide)
      | (with_reducible apply Keeps.andThen (chainApplied_keeps _ _); decide)
      | split

theorem stopChains_keeps (d : Dev) : Keeps [.rinse] d (d.stopChains) := by
  unfold Dev.stopChains
  try dsimp only
  repeat' first
    | with_reducible exact Keeps.refl _ _
    | (with_reducible apply Keeps.andThen (onRinse_keeps _ _); decide)

theorem onComp_keeps (d : Dev) (i : Fin 32) (f : Comparator → Comparator) : Keeps [.guard] d (d.onComp i f) := by
  unfold Dev.onComp
  try dsimp only
  repeat' first
    | with_reducible exact Keeps.refl _ _
    | (with_reducible apply Keeps.andThen (onGuard_keeps _ _); decide)

theorem onOut_keeps (d : Dev) (i : Fin 8) (f : Needle → Needle) : Keeps [.guard] d (d.onOut i f) := by
  unfold Dev.onOut
  try dsimp only
  repeat' first
    | with_reducible exact Keeps.refl _ _
    | (with_reducible apply Keeps.andThen (onGuard_keeps _ _); decide)

theorem synthRelease_keeps (d : Dev) : Keeps [.guard] d (d.synthRelease) := by
  unfold Dev.synthRelease
  try dsimp only
  repeat' first
    | with_reducible exact Keeps.refl _ _
    | (with_reducible apply Keeps.andThen (onGuard_keeps _ _); decide)
    | split

theorem fireEnd_keeps (d : Dev) (o : Fin 8) (f : Firing) (aborted : Bool) : Keeps [.host, .guard, .free] d (d.fireEnd o f aborted) := by
  unfold Dev.fireEnd
  unfold Dev.draw
  try dsimp only
  repeat' first
    | with_reducible exact Keeps.refl _ _
    | (with_reducible apply Keeps.andThen (synthRelease_keeps _); decide)
    | (with_reducible apply Keeps.andThen (post_keeps _ _ _ _); decide)
    | (with_reducible apply Keeps.andThen (onFree_keeps _ _); decide)
    | (with_reducible apply Keeps.andThen (onOut_keeps _ _ _); decide)

theorem dropHeld_keeps (d : Dev) (o : Fin 8) (a0 : List Basket) : Keeps [.host, .guard] d (d.dropHeld o a0) := by
  induction a0 generalizing d o with
  | nil =>
    unfold Dev.dropHeld
    try dsimp only
    repeat' first
      | with_reducible exact Keeps.refl _ _
  | cons x xs ih =>
    unfold Dev.dropHeld
    try dsimp only
    repeat' first
      | with_reducible exact ih _ _ 
      | (with_reducible apply Keeps.andThen (ih _ _); decide)
      | with_reducible exact Keeps.refl _ _
      | (with_reducible apply Keeps.andThen (onGuard_keeps _ _); decide)
      | (with_reducible apply Keeps.andThen (finish_keeps _ _ _ _); decide)
      | split

theorem trip_keeps (d : Dev) (o : Fin 8) (reason : TripReason) : Keeps [.host, .guard, .free] d (d.trip o reason) := by
  unfold Dev.trip
  try dsimp only
  repeat' first
    | with_reducible exact Keeps.refl _ _
    | (with_reducible apply Keeps.andThen (fireEnd_keeps _ _ _ _); decide)
    | (with_reducible apply Keeps.andThen (onOut_keeps _ _ _); decide)
    | (with_reducible apply Keeps.andThen (postHeld_keeps _ _ _); decide)
    | (with_reducible apply Keeps.andThen (raise_keeps _ _ _); decide)
    | (with_reducible apply Keeps.andThen (dropHeld_keeps _ _ _); decide)
    | split

theorem tripEdges_keeps (d : Dev) (was : Fin 8 → Bool) (a0 : List (Fin 8)) : Keeps [.host, .guard, .free] d (d.tripEdges was a0) := by
  induction a0 generalizing d was with
  | nil =>
    unfold Dev.tripEdges
    try dsimp only
    repeat' first
      | with_reducible exact Keeps.refl _ _
  | cons x xs ih =>
    unfold Dev.tripEdges
    try dsimp only
    repeat' first
      | with_reducible exact ih _ _ 
      | (with_reducible apply Keeps.andThen (ih _ _); decide)
      | with_reducible exact Keeps.refl _ _
      | (with_reducible apply Keeps.andThen (trip_keeps _ _ _); decide)
      | split

theorem tripAll_keeps (d : Dev) (reason : TripReason) (a0 : List (Fin 8)) : Keeps [.host, .guard, .free] d (d.tripAll reason a0) := by
  induction a0 generalizing d reason with
  | nil =>
    unfold Dev.tripAll
    try dsimp only
    repeat' first
      | with_reducible exact Keeps.refl _ _
  | cons x xs ih =>
    unfold Dev.tripAll
    try dsimp only
    repeat' first
      | with_reducible exact ih _ _ 
      | (with_reducible apply Keeps.andThen (ih _ _); decide)
      | with_reducible exact Keeps.refl _ _
      | (with_reducible apply Keeps.andThen (trip_keeps _ _ _); decide)

theorem tripPower_keeps (d : Dev) : Keeps [.host, .guard, .free] d (d.tripPower) := by
  unfold Dev.tripPower
  try dsimp only
  repeat' first
    | with_reducible exact Keeps.refl _ _
    | (with_reducible apply Keeps.andThen (tripAll_keeps _ _ _); decide)

theorem latchSet_keeps (d : Dev) (i : Fin 32) (stamp : BitVec 64) : Keeps [.pwr, .host, .guard, .rinse, .free] d (d.latchSet i stamp) := by
  unfold Dev.latchSet
  try dsimp only
  repeat' first
    | with_reducible exact Keeps.refl _ _
    | (with_reducible apply Keeps.andThen (tripEdges_keeps _ _ _); decide)
    | (with_reducible apply Keeps.andThen (wakeBy_keeps _ _); decide)
    | (with_reducible apply Keeps.andThen (onComp_keeps _ _ _); decide)
    | (with_reducible apply Keeps.andThen (post_keeps _ _ _ _); decide)
    | (with_reducible apply Keeps.andThen (raise_keeps _ _ _); decide)
    | (with_reducible apply Keeps.andThen (latchTriggers_keeps _ _); decide)
    | split

theorem latchCondition_keeps (d : Dev) (i : Fin 32) (stamp : BitVec 64) : Keeps [.pwr, .host, .guard, .rinse, .free] d (d.latchCondition i stamp) := by
  unfold Dev.latchCondition
  try dsimp only
  repeat' first
    | with_reducible exact Keeps.refl _ _
    | (with_reducible apply Keeps.andThen (latchSet_keeps _ _ _); decide)
    | (with_reducible apply Keeps.andThen (onComp_keeps _ _ _); decide)
    | split

theorem compEval_keeps (d : Dev) (i : Fin 32) (level : Int) : Keeps [.guard] d (d.compEval i level) := by
  unfold Dev.compEval
  try dsimp only
  repeat' first
    | with_reducible exact Keeps.refl _ _
    | (with_reducible apply Keeps.andThen (onComp_keeps _ _ _); decide)
    | split

theorem compContinuous_keeps (d : Dev) (i : Fin 32) (s : Int) : Keeps [.pwr, .host, .guard, .rinse, .free] d (d.compContinuous i s) := by
  unfold Dev.compContinuous
  try dsimp only
  repeat' first
    | with_reducible exact Keeps.refl _ _
    | (with_reducible apply Keeps.andThen (latchCondition_keeps _ _ _); decide)
    | (with_reducible apply Keeps.andThen (compEval_keeps _ _ _); decide)
    | split

theorem compTick_keeps (d : Dev) (i : Fin 32) (s : Int) : Keeps [.pwr, .host, .guard, .rinse, .free] d (d.compTick i s) := by
  unfold Dev.compTick
  try dsimp only
  repeat' first
    | with_reducible exact Keeps.refl _ _
    | (with_reducible apply Keeps.andThen (latchCondition_keeps _ _ _); decide)
    | (with_reducible apply Keeps.andThen (compEval_keeps _ _ _); decide)
    | (with_reducible apply Keeps.andThen (onComp_keeps _ _ _); decide)
    | split

theorem gainHold_keeps (d : Dev) (pos : Nat) : Keeps [.guard] d (d.gainHold pos) := by
  unfold Dev.gainHold
  try dsimp only
  repeat' first
    | with_reducible exact Keeps.refl _ _
    | (with_reducible apply Keeps.andThen (onGuard_keeps _ _); decide)

theorem latchClear_keeps (d : Dev) (i : Fin 32) : Keeps [.pwr, .host, .guard, .rinse, .free] d (d.latchClear i) := by
  unfold Dev.latchClear
  try dsimp only
  repeat' first
    | with_reducible exact Keeps.refl _ _
    | (with_reducible apply Keeps.andThen (latchSet_keeps _ _ _); decide)
    | (with_reducible apply Keeps.andThen (onComp_keeps _ _ _); decide)
    | split

theorem latchesClear_keeps (d : Dev) (b : Basket) (val : Word) (first : Nat) (a0 : List (Fin 32)) : Keeps [.pwr, .host, .guard, .rinse, .free] d (d.latchesClear b val first a0) := by
  induction a0 generalizing d b val first with
  | nil =>
    unfold Dev.latchesClear
    try dsimp only
    repeat' first
      | with_reducible exact Keeps.refl _ _
  | cons x xs ih =>
    unfold Dev.latchesClear
    try dsimp only
    repeat' first
      | with_reducible exact ih _ _ _ _ 
      | (with_reducible apply Keeps.andThen (ih _ _ _ _); decide)
      | with_reducible exact Keeps.refl _ _
      | (with_reducible apply Keeps.andThen (latchClear_keeps _ _); decide)
      | split

theorem writeLatch_keeps (d : Dev) (b : Basket) (word : Nat) (val : Word) : Keeps [.pwr, .host, .guard, .rinse, .free] d (d.writeLatch b word val) := by
  unfold Dev.writeLatch
  try dsimp only
  repeat' first
    | with_reducible exact Keeps.refl _ _
    | (with_reducible apply Keeps.andThen (latchesClear_keeps _ _ _ _ _); decide)
    | (with_reducible apply Keeps.andThen (violateBits_keeps _ _ _ _); decide)

theorem tripClear_keeps (d : Dev) (o : Fin 8) : Keeps [.guard] d (d.tripClear o) := by
  unfold Dev.tripClear
  try dsimp only
  repeat' first
    | with_reducible exact Keeps.refl _ _
    | (with_reducible apply Keeps.andThen (onOut_keeps _ _ _); decide)
    | split

theorem tripsClear_keeps (d : Dev) (b : Basket) (val : Word) (a0 : List (Fin 8)) : Keeps [.guard] d (d.tripsClear b val a0) := by
  induction a0 generalizing d b val with
  | nil =>
    unfold Dev.tripsClear
    try dsimp only
    repeat' first
      | with_reducible exact Keeps.refl _ _
  | cons x xs ih =>
    unfold Dev.tripsClear
    try dsimp only
    repeat' first
      | with_reducible exact ih _ _ _ 
      | (with_reducible apply Keeps.andThen (ih _ _ _); decide)
      | with_reducible exact Keeps.refl _ _
      | (with_reducible apply Keeps.andThen (tripClear_keeps _ _); decide)
      | split

theorem writeTrip_keeps (d : Dev) (b : Basket) (val : Word) : Keeps [.host, .guard] d (d.writeTrip b val) := by
  unfold Dev.writeTrip
  try dsimp only
  repeat' first
    | with_reducible exact Keeps.refl _ _
    | (with_reducible apply Keeps.andThen (violateBits_keeps _ _ _ _); decide)
    | (with_reducible apply Keeps.andThen (tripsClear_keeps _ _ _ _); decide)

theorem thmSet_keeps (d : Dev) (i : Fin 32) (new : CompSet) : Keeps [.pwr, .host, .guard, .rinse, .free] d (d.thmSet i new) := by
  unfold Dev.thmSet
  try dsimp only
  repeat' first
    | with_reducible exact Keeps.refl _ _
    | (with_reducible apply Keeps.andThen (latchCondition_keeps _ _ _); decide)
    | (with_reducible apply Keeps.andThen (onComp_keeps _ _ _); decide)
    | split

theorem setTripMask_keeps (d : Dev) (o : Fin 8) (mask : BitVec 32) : Keeps [.host, .guard, .free] d (d.setTripMask o mask) := by
  unfold Dev.setTripMask
  try dsimp only
  repeat' first
    | with_reducible exact Keeps.refl _ _
    | (with_reducible apply Keeps.andThen (onGuard_keeps _ _); decide)
    | (with_reducible apply Keeps.andThen (tripEdges_keeps _ _ _); decide)

theorem fireOuts_keeps (d : Dev) (tag : Byte) (a0 : List (Fin 8)) : Keeps [.guard] d (d.fireOuts tag a0) := by
  induction a0 generalizing d tag with
  | nil =>
    unfold Dev.fireOuts
    try dsimp only
    repeat' first
      | with_reducible exact Keeps.refl _ _
  | cons x xs ih =>
    unfold Dev.fireOuts
    try dsimp only
    repeat' first
      | with_reducible exact ih _ _ 
      | (with_reducible apply Keeps.andThen (ih _ _); decide)
      | with_reducible exact Keeps.refl _ _
      | (with_reducible apply Keeps.andThen (onOut_keeps _ _ _); decide)

theorem armOuts_keeps (d : Dev) (a0 : List (Fin 8)) : Keeps [.guard] d (d.armOuts a0) := by
  induction a0 generalizing d with
  | nil =>
    unfold Dev.armOuts
    try dsimp only
    repeat' first
      | with_reducible exact Keeps.refl _ _
  | cons x xs ih =>
    unfold Dev.armOuts
    try dsimp only
    repeat' first
      | with_reducible exact ih _ 
      | (with_reducible apply Keeps.andThen (ih _); decide)
      | with_reducible exact Keeps.refl _ _
      | (with_reducible apply Keeps.andThen (onOut_keeps _ _ _); decide)

theorem feedOuts_keeps (d : Dev) (a0 : List (Fin 8)) : Keeps [.host, .guard, .free] d (d.feedOuts a0) := by
  induction a0 generalizing d with
  | nil =>
    unfold Dev.feedOuts
    try dsimp only
    repeat' first
      | with_reducible exact Keeps.refl _ _
  | cons x xs ih =>
    unfold Dev.feedOuts
    try dsimp only
    repeat' first
      | with_reducible exact ih _ 
      | (with_reducible apply Keeps.andThen (ih _); decide)
      | with_reducible exact Keeps.refl _ _
      | (with_reducible apply Keeps.andThen (trip_keeps _ _ _); decide)
      | (with_reducible apply Keeps.andThen (onOut_keeps _ _ _); decide)
      | split

end Sys2Proof.Laws
end

