-- ==== Sys2Proof/Laws/FramesModel.lean ====
section
/-!
SUPPORT. What the functions of tiles, pressing, models, runs and the patch store leave unchanged: one frame for each.
-/

namespace Sys2Proof.Laws

open Machine

theorem retireTags_keeps (d : Dev) (done : Bool) (a0 : List (Fin 4096)) : Keeps [.spool] d (d.retireTags done a0) := by
  induction a0 generalizing d done with
  | nil =>
    unfold Dev.retireTags
    try dsimp only
    repeat' first
      | with_reducible exact Keeps.refl _ _
  | cons x xs ih =>
    unfold Dev.retireTags
    try dsimp only
    repeat' first
      | with_reducible exact ih _ _ 
      | (with_reducible apply Keeps.andThen (ih _ _); decide)
      | with_reducible exact Keeps.refl _ _
      | (with_reducible apply Keeps.andThen (onSpool_keeps _ _); decide)

theorem abortRun_keeps (d : Dev) (h : Handle) : Keeps [.spool] d (d.abortRun h) := by
  unfold Dev.abortRun
  try dsimp only
  repeat' first
    | with_reducible exact Keeps.refl _ _
    | (with_reducible apply Keeps.andThen (onSpool_keeps _ _); decide)
    | (with_reducible apply Keeps.andThen (retireTags_keeps _ _ _); decide)

theorem dropCaches_keeps (d : Dev) : Keeps [.spool] d (d.dropCaches) := by
  unfold Dev.dropCaches
  try dsimp only
  repeat' first
    | with_reducible exact Keeps.refl _ _
    | (with_reducible apply Keeps.andThen (onSpool_keeps _ _); decide)

theorem alarmCheck_keeps (d : Dev) : Keeps [.pwr, .keep, .host] d (d.alarmCheck) := by
  unfold Dev.alarmCheck
  try dsimp only
  repeat' first
    | with_reducible exact Keeps.refl _ _
    | (with_reducible apply Keeps.andThen (post_keeps _ _ _ _); decide)
    | (with_reducible apply Keeps.andThen (onKeep_keeps _ _); decide)
    | (with_reducible apply Keeps.andThen (wakeBy_keeps _ _); decide)
    | split

theorem onModel_keeps (d : Dev) (h : Handle) (f : Model → Model) : Keeps [.models] d (d.onModel h f) := by
  unfold Dev.onModel
  try dsimp only
  repeat' first
    | with_reducible exact Keeps.refl _ _
    | (with_reducible apply Keeps.andThen (onModels_keeps _ _); decide)

theorem onRun_keeps (d : Dev) (h : Handle) (f : Run → Run) : Keeps [.models] d (d.onRun h f) := by
  unfold Dev.onRun
  try dsimp only
  repeat' first
    | with_reducible exact Keeps.refl _ _
    | (with_reducible apply Keeps.andThen (onModel_keeps _ _ _); decide)

theorem notePeak_keeps (d : Dev) (h : Handle) : Keeps [.models] d (d.notePeak h) := by
  unfold Dev.notePeak
  try dsimp only
  repeat' first
    | with_reducible exact Keeps.refl _ _
    | (with_reducible apply Keeps.andThen (onRun_keeps _ _ _); decide)

theorem onLearn_keeps (d : Dev) (h : Handle) (f : Learn → Learn) : Keeps [.models] d (d.onLearn h f) := by
  unfold Dev.onLearn
  try dsimp only
  repeat' first
    | with_reducible exact Keeps.refl _ _
    | (with_reducible apply Keeps.andThen (onModel_keeps _ _ _); decide)

theorem onTile_keeps (d : Dev) (i : Fin 48) (f : Tile → Tile) : Keeps [.tiles] d (d.onTile i f) := by
  unfold Dev.onTile
  try dsimp only
  repeat' first
    | with_reducible exact Keeps.refl _ _
    | (with_reducible apply Keeps.andThen (onTiles_keeps _ _); decide)

theorem postTile_keeps (d : Dev) (i : Fin 48) (e : Ev) : Keeps [.host] d (d.postTile i e) := by
  unfold Dev.postTile
  try dsimp only
  repeat' first
    | with_reducible exact Keeps.refl _ _
    | (with_reducible apply Keeps.andThen (postHeld_keeps _ _ _); decide)

theorem overcount_keeps (d : Dev) (step : Nat) (a0 : List (Fin 48)) : Keeps [.host] d (d.overcount step a0) := by
  induction a0 generalizing d step with
  | nil =>
    unfold Dev.overcount
    try dsimp only
    repeat' first
      | with_reducible exact Keeps.refl _ _
  | cons x xs ih =>
    unfold Dev.overcount
    try dsimp only
    repeat' first
      | with_reducible exact ih _ _ 
      | (with_reducible apply Keeps.andThen (ih _ _); decide)
      | with_reducible exact Keeps.refl _ _
      | (with_reducible apply Keeps.andThen (postTile_keeps _ _ _); decide)
      | split

theorem selectStore_keeps (d : Dev) (gradeX : Bool) : Keeps [.pwr, .host, .tiles, .store] d (d.selectStore gradeX) := by
  unfold Dev.selectStore
  try dsimp only
  repeat' first
    | with_reducible exact Keeps.refl _ _
    | (with_reducible apply Keeps.andThen (postAll_keeps _ _); decide)
    | (with_reducible apply Keeps.andThen (onPwr_keeps _ _); decide)
    | (with_reducible apply Keeps.andThen (onTiles_keeps _ _); decide)
    | (with_reducible apply Keeps.andThen (onStore_keeps _ _); decide)
    | (with_reducible apply Keeps.andThen (overcount_keeps _ _ _); decide)
    | split

theorem trigger_keeps (d : Dev) : Keeps [.store] d (d.trigger) := by
  unfold Dev.trigger
  try dsimp only
  repeat' first
    | with_reducible exact Keeps.refl _ _
    | (with_reducible apply Keeps.andThen (onStore_keeps _ _); decide)

theorem beginWrite_keeps (d : Dev) (clean : Bool) (again : Bool) : Keeps [.host, .store] d (d.beginWrite clean again) := by
  unfold Dev.beginWrite
  try dsimp only
  repeat' first
    | with_reducible exact Keeps.refl _ _
    | (with_reducible apply Keeps.andThen (onStore_keeps _ _); decide)
    | (with_reducible apply Keeps.andThen (postAll_keeps _ _); decide)
    | split

theorem startWrite_keeps (d : Dev) (clean : Bool) : Keeps [.host, .store] d (d.startWrite clean) := by
  unfold Dev.startWrite
  try dsimp only
  repeat' first
    | with_reducible exact Keeps.refl _ _
    | (with_reducible apply Keeps.andThen (onStore_keeps _ _); decide)
    | (with_reducible apply Keeps.andThen (beginWrite_keeps _ _ _); decide)

theorem checkpointsEnd_keeps (d : Dev) (o : CmdOutcome) (a0 : List Basket) : Keeps [.host] d (d.checkpointsEnd o a0) := by
  induction a0 generalizing d o with
  | nil =>
    unfold Dev.checkpointsEnd
    try dsimp only
    repeat' first
      | with_reducible exact Keeps.refl _ _
  | cons x xs ih =>
    unfold Dev.checkpointsEnd
    try dsimp only
    repeat' first
      | with_reducible exact ih _ _ 
      | (with_reducible apply Keeps.andThen (ih _ _); decide)
      | with_reducible exact Keeps.refl _ _
      | (with_reducible apply Keeps.andThen (finish_keeps _ _ _ _); decide)
      | split

theorem checkpointsDone_keeps (d : Dev) (o : CmdOutcome) : Keeps [.host, .store] d (d.checkpointsDone o) := by
  unfold Dev.checkpointsDone
  try dsimp only
  repeat' first
    | with_reducible exact Keeps.refl _ _
    | (with_reducible apply Keeps.andThen (onStore_keeps _ _); decide)
    | (with_reducible apply Keeps.andThen (checkpointsEnd_keeps _ _ _); decide)

theorem patchRecorded_keeps (d : Dev) (a0 : List Handle) : Keeps [.host, .models] d (d.patchRecorded a0) := by
  induction a0 generalizing d with
  | nil =>
    unfold Dev.patchRecorded
    try dsimp only
    repeat' first
      | with_reducible exact Keeps.refl _ _
  | cons x xs ih =>
    unfold Dev.patchRecorded
    try dsimp only
    repeat' first
      | with_reducible exact ih _ 
      | (with_reducible apply Keeps.andThen (ih _); decide)
      | with_reducible exact Keeps.refl _ _
      | (with_reducible apply Keeps.andThen (postTo_keeps _ _ _); decide)
      | (with_reducible apply Keeps.andThen (onLearn_keeps _ _ _); decide)
      | split

theorem recordValid_keeps (d : Dev) (w : StoreWrite) : Keeps [.keep, .host, .tiles, .models, .store] d (d.recordValid w) := by
  unfold Dev.recordValid
  try dsimp only
  repeat' first
    | with_reducible exact Keeps.refl _ _
    | (with_reducible apply Keeps.andThen (onKeep_keeps _ _); decide)
    | (with_reducible apply Keeps.andThen (patchRecorded_keeps _ _); decide)
    | (with_reducible apply Keeps.andThen (onTiles_keeps _ _); decide)
    | (with_reducible apply Keeps.andThen (onStore_keeps _ _); decide)
    | (with_reducible apply Keeps.andThen (checkpointsDone_keeps _ _); decide)

theorem recordFails_keeps (d : Dev) (w : StoreWrite) : Keeps [.keep, .host, .store] d (d.recordFails w) := by
  unfold Dev.recordFails
  try dsimp only
  repeat' first
    | with_reducible exact Keeps.refl _ _
    | (with_reducible apply Keeps.andThen (onKeep_keeps _ _); decide)
    | (with_reducible apply Keeps.andThen (postAll_keeps _ _); decide)
    | (with_reducible apply Keeps.andThen (beginWrite_keeps _ _ _); decide)
    | (with_reducible apply Keeps.andThen (checkpointsDone_keeps _ _); decide)
    | (with_reducible apply Keeps.andThen (onStore_keeps _ _); decide)
    | split

theorem abandonWrite_keeps (d : Dev) : Keeps [.keep, .host, .store] d (d.abandonWrite) := by
  unfold Dev.abandonWrite
  try dsimp only
  repeat' first
    | with_reducible exact Keeps.refl _ _
    | (with_reducible apply Keeps.andThen (onStore_keeps _ _); decide)
    | (with_reducible apply Keeps.andThen (onKeep_keeps _ _); decide)
    | (with_reducible apply Keeps.andThen (checkpointsDone_keeps _ _); decide)
    | split

theorem recordPfail_keeps (d : Dev) : Keeps [.keep, .store] d (d.recordPfail) := by
  unfold Dev.recordPfail
  try dsimp only
  repeat' first
    | with_reducible exact Keeps.refl _ _
    | (with_reducible apply Keeps.andThen (onStore_keeps _ _); decide)
    | (with_reducible apply Keeps.andThen (onKeep_keeps _ _); decide)

theorem storePfail_keeps (d : Dev) : Keeps [.keep, .host, .store] d (d.storePfail) := by
  unfold Dev.storePfail
  try dsimp only
  repeat' first
    | with_reducible exact Keeps.refl _ _
    | (with_reducible apply Keeps.andThen (abandonWrite_keeps _); decide)
    | (with_reducible apply Keeps.andThen (onStore_keeps _ _); decide)
    | split

theorem checkpointsStopped_keeps (d : Dev) : Keeps [.host, .store] d (d.checkpointsStopped) := by
  unfold Dev.checkpointsStopped
  try dsimp only
  repeat' first
    | with_reducible exact Keeps.refl _ _
    | (with_reducible apply Keeps.andThen (onStore_keeps _ _); decide)
    | (with_reducible apply Keeps.andThen (checkpointsEnd_keeps _ _ _); decide)

theorem readFlash_keeps (d : Dev) (a : Nat) (n : Nat) : Keeps [.qspi] d (d.readFlash a n) := by
  unfold Dev.readFlash
  try dsimp only
  repeat' first
    | with_reducible exact Keeps.refl _ _
    | (with_reducible apply Keeps.andThen (onQspi_keeps _ _); decide)
    | split

theorem pressNeeds_keeps (d : Dev) (i : Fin 48) : Keeps [.store] d (d.pressNeeds i) := by
  unfold Dev.pressNeeds
  try dsimp only
  repeat' first
    | with_reducible exact Keeps.refl _ _
    | (with_reducible apply Keeps.andThen (trigger_keeps _); decide)
    | split

theorem commitNeeds_keeps (d : Dev) : Keeps [.store] d (d.commitNeeds) := by
  unfold Dev.commitNeeds
  try dsimp only
  repeat' first
    | with_reducible exact Keeps.refl _ _
    | (with_reducible apply Keeps.andThen (trigger_keeps _); decide)
    | split

theorem postPressDone_keeps (d : Dev) (i : Fin 48) (op : PressOp) (result : Nat) : Keeps [.host] d (d.postPressDone i op result) := by
  unfold Dev.postPressDone
  try dsimp only
  repeat' first
    | with_reducible exact Keeps.refl _ _
    | (with_reducible apply Keeps.andThen (postTile_keeps _ _ _); decide)

theorem postInspectDone_keeps (d : Dev) (i : Fin 48) (op : PressOp) : Keeps [.host] d (d.postInspectDone i op) := by
  unfold Dev.postInspectDone
  try dsimp only
  repeat' first
    | with_reducible exact Keeps.refl _ _
    | (with_reducible apply Keeps.andThen (postTile_keeps _ _ _); decide)

theorem loadFails_keeps (d : Dev) (h : Handle) (e : Err) : Keeps [.host, .tiles, .models] d (d.loadFails h e) := by
  unfold Dev.loadFails
  try dsimp only
  repeat' first
    | with_reducible exact Keeps.refl _ _
    | (with_reducible apply Keeps.andThen (onModels_keeps _ _); decide)
    | (with_reducible apply Keeps.andThen (postTo_keeps _ _ _); decide)
    | (with_reducible apply Keeps.andThen (onTiles_keeps _ _); decide)
    | split

theorem loadTileDone_keeps (d : Dev) (h : Handle) (i : Fin 48) : Keeps [.host, .models] d (d.loadTileDone h i) := by
  unfold Dev.loadTileDone
  try dsimp only
  repeat' first
    | with_reducible exact Keeps.refl _ _
    | (with_reducible apply Keeps.andThen (onModel_keeps _ _ _); decide)
    | (with_reducible apply Keeps.andThen (postTo_keeps _ _ _); decide)
    | split

theorem patchEnds_keeps (d : Dev) (h : Handle) (result : Nat) (units : Nat) : Keeps [.models, .store] d (d.patchEnds h result units) := by
  unfold Dev.patchEnds
  try dsimp only
  repeat' first
    | with_reducible exact Keeps.refl _ _
    | (with_reducible apply Keeps.andThen (trigger_keeps _); decide)
    | (with_reducible apply Keeps.andThen (onLearn_keeps _ _ _); decide)

theorem patchResumes_keeps (d : Dev) (h : Handle) (units : Nat) : Keeps [.models, .store] d (d.patchResumes h units) := by
  unfold Dev.patchResumes
  try dsimp only
  repeat' first
    | with_reducible exact Keeps.refl _ _
    | (with_reducible apply Keeps.andThen (trigger_keeps _); decide)
    | (with_reducible apply Keeps.andThen (onLearn_keeps _ _ _); decide)
    | split

theorem endOps_keeps (d : Dev) (i : Fin 48) (result : Nat) (a0 : List PressOp) : Keeps [.host, .tiles, .models, .store] d (d.endOps i result a0) := by
  induction a0 generalizing d i result with
  | nil =>
    unfold Dev.endOps
    try dsimp only
    repeat' first
      | with_reducible exact Keeps.refl _ _
  | cons x xs ih =>
    unfold Dev.endOps
    try dsimp only
    repeat' first
      | with_reducible exact ih _ _ _ 
      | (with_reducible apply Keeps.andThen (ih _ _ _); decide)
      | with_reducible exact Keeps.refl _ _
      | (with_reducible apply Keeps.andThen (patchEnds_keeps _ _ _ _); decide)
      | (with_reducible apply Keeps.andThen (postPressDone_keeps _ _ _ _); decide)
      | (with_reducible apply Keeps.andThen (loadFails_keeps _ _ _); decide)
      | (with_reducible apply Keeps.andThen (postInspectDone_keeps _ _ _); decide)
      | split

theorem failLoads_keeps (d : Dev) (a0 : List Handle) : Keeps [.host, .tiles, .models] d (d.failLoads a0) := by
  induction a0 generalizing d with
  | nil =>
    unfold Dev.failLoads
    try dsimp only
    repeat' first
      | with_reducible exact Keeps.refl _ _
  | cons x xs ih =>
    unfold Dev.failLoads
    try dsimp only
    repeat' first
      | with_reducible exact ih _ 
      | (with_reducible apply Keeps.andThen (ih _); decide)
      | with_reducible exact Keeps.refl _ _
      | (with_reducible apply Keeps.andThen (loadFails_keeps _ _ _); decide)

theorem retireTile_keeps (d : Dev) (i : Fin 48) : Keeps [.host, .tiles, .models, .spool, .store] d (d.retireTile i) := by
  unfold Dev.retireTile
  try dsimp only
  repeat' first
    | with_reducible exact Keeps.refl _ _
    | (with_reducible apply Keeps.andThen (endOps_keeps _ _ _ _); decide)
    | (with_reducible apply Keeps.andThen (failLoads_keeps _ _); decide)
    | (with_reducible apply Keeps.andThen (retireTags_keeps _ _ _); decide)
    | (with_reducible apply Keeps.andThen (postTile_keeps _ _ _); decide)
    | (with_reducible apply Keeps.andThen (trigger_keeps _); decide)
    | (with_reducible apply Keeps.andThen (onTile_keeps _ _ _); decide)
    | split

theorem onOp_keeps (d : Dev) (i : Fin 48) (f : PressOp → PressOp) : Keeps [.tiles] d (d.onOp i f) := by
  unfold Dev.onOp
  try dsimp only
  repeat' first
    | with_reducible exact Keeps.refl _ _
    | (with_reducible apply Keeps.andThen (onTile_keeps _ _ _); decide)

theorem pairFails_keeps (d : Dev) (i : Fin 48) (pair : Nat) : Keeps [.host, .tiles, .models, .spool, .store] d (d.pairFails i pair) := by
  unfold Dev.pairFails
  try dsimp only
  repeat' first
    | with_reducible exact Keeps.refl _ _
    | (with_reducible apply Keeps.andThen (retireTile_keeps _ _); decide)
    | (with_reducible apply Keeps.andThen (postTile_keeps _ _ _); decide)
    | (with_reducible apply Keeps.andThen (onTile_keeps _ _ _); decide)
    | (with_reducible apply Keeps.andThen (onOp_keeps _ _ _); decide)
    | split

theorem pairsFail_keeps (d : Dev) (i : Fin 48) (a0 : List Nat) : Keeps [.host, .tiles, .models, .spool, .store] d (d.pairsFail i a0) := by
  induction a0 generalizing d i with
  | nil =>
    unfold Dev.pairsFail
    try dsimp only
    repeat' first
      | with_reducible exact Keeps.refl _ _
  | cons x xs ih =>
    unfold Dev.pairsFail
    try dsimp only
    repeat' first
      | with_reducible exact ih _ _ 
      | (with_reducible apply Keeps.andThen (ih _ _); decide)
      | with_reducible exact Keeps.refl _ _
      | (with_reducible apply Keeps.andThen (pairFails_keeps _ _ _); decide)
      | split

theorem dispatchPress_keeps (d : Dev) (g : Nat) : Keeps [.host, .tiles, .models, .spool, .store] d (d.dispatchPress g) := by
  unfold Dev.dispatchPress
  try dsimp only
  repeat' first
    | with_reducible exact Keeps.refl _ _
    | (with_reducible apply Keeps.andThen (trigger_keeps _); decide)
    | (with_reducible apply Keeps.andThen (onSpool_keeps _ _); decide)
    | (with_reducible apply Keeps.andThen (retireTile_keeps _ _); decide)
    | (with_reducible apply Keeps.andThen (onTile_keeps _ _ _); decide)
    | (with_reducible apply Keeps.andThen (notePeak_keeps _ _); decide)
    | (with_reducible apply Keeps.andThen (onOp_keeps _ _ _); decide)
    | split

theorem advanceOp_keeps (d : Dev) (i : Fin 48) : Keeps [.tiles] d (d.advanceOp i) := by
  unfold Dev.advanceOp
  try dsimp only
  repeat' first
    | with_reducible exact Keeps.refl _ _
    | (with_reducible apply Keeps.andThen (onTile_keeps _ _ _); decide)

theorem rowPress_keeps (d : Dev) (i : Fin 48) (iters : Nat) (after : List CellRead) : Keeps [.host, .tiles, .models, .spool, .store] d (d.rowPress i iters after) := by
  unfold Dev.rowPress
  try dsimp only
  repeat' first
    | with_reducible exact Keeps.refl _ _
    | (with_reducible apply Keeps.andThen (retireTags_keeps _ _ _); decide)
    | (with_reducible apply Keeps.andThen (onTile_keeps _ _ _); decide)
    | (with_reducible apply Keeps.andThen (onOp_keeps _ _ _); decide)
    | (with_reducible apply Keeps.andThen (pairsFail_keeps _ _ _); decide)
    | (with_reducible apply Keeps.andThen (pressNeeds_keeps _ _); decide)
    | (with_reducible apply Keeps.andThen (advanceOp_keeps _ _); decide)
    | split

theorem opRefused_keeps (d : Dev) (i : Fin 48) (op : PressOp) (result : Nat) (e : Err) : Keeps [.host, .tiles, .models, .store] d (d.opRefused i op result e) := by
  unfold Dev.opRefused
  try dsimp only
  repeat' first
    | with_reducible exact Keeps.refl _ _
    | (with_reducible apply Keeps.andThen (patchEnds_keeps _ _ _ _); decide)
    | (with_reducible apply Keeps.andThen (postPressDone_keeps _ _ _ _); decide)
    | (with_reducible apply Keeps.andThen (loadFails_keeps _ _ _); decide)
    | split

theorem opBegins_keeps (d : Dev) (i : Fin 48) (op : PressOp) : Keeps [.host, .tiles, .models, .spool, .store] d (d.opBegins i op) := by
  unfold Dev.opBegins
  try dsimp only
  repeat' first
    | with_reducible exact Keeps.refl _ _
    | (with_reducible apply Keeps.andThen (patchResumes_keeps _ _ _); decide)
    | (with_reducible apply Keeps.andThen (retireTile_keeps _ _); decide)
    | (with_reducible apply Keeps.andThen (onTile_keeps _ _ _); decide)
    | (with_reducible apply Keeps.andThen (opRefused_keeps _ _ _ _ _); decide)
    | (with_reducible apply Keeps.andThen (loadTileDone_keeps _ _ _); decide)
    | (with_reducible apply Keeps.andThen (pressNeeds_keeps _ _); decide)
    | split

theorem opEnds_keeps (d : Dev) (i : Fin 48) (op : PressOp) (failed : Bool) : Keeps [.host, .tiles, .models, .store] d (d.opEnds i op failed) := by
  unfold Dev.opEnds
  extract_lets content mismatch used state inspected fresh d1 d2 d3 d4 d5
  have h1 : Keeps [.host, .tiles, .models, .store] d d1 := Keeps.andThen (onTile_keeps _ _ _) (by decide) (Keeps.refl _ _)
  have h2 : Keeps [.host, .tiles, .models, .store] d d2 := by
    clear_value d1; simp only [d2]; split
    · exact Keeps.andThen (onTile_keeps _ _ _) (by decide) h1
    · exact h1
  have h3 : Keeps [.host, .tiles, .models, .store] d d3 := by
    clear_value d2; simp only [d3]; split
    · exact Keeps.andThen (postTile_keeps _ _ _) (by decide) h2
    · exact h2
  have h4 : Keeps [.host, .tiles, .models, .store] d d4 := by
    clear_value d3; simp only [d4]; split
    · exact Keeps.andThen (postPressDone_keeps _ _ _ _) (by decide) h3
    · exact h3
  have h5 : Keeps [.host, .tiles, .models, .store] d d5 := by
    clear_value d4; simp only [d5]; split
    · exact Keeps.andThen (postInspectDone_keeps _ _ _) (by decide) h4
    · exact h4
  clear_value d5
  repeat' first
    | with_reducible assumption
    | (with_reducible apply Keeps.andThen (loadFails_keeps _ _ _); decide)
    | (with_reducible apply Keeps.andThen (loadTileDone_keeps _ _ _); decide)
    | (with_reducible apply Keeps.andThen (patchResumes_keeps _ _ _); decide)
    | (with_reducible apply Keeps.andThen (patchEnds_keeps _ _ _ _); decide)
    | split

theorem selfCheck_keeps (d : Dev) (i : Fin 48) (op : PressOp) : Keeps [.host, .tiles, .models, .store, .free] d (d.selfCheck i op) := by
  unfold Dev.selfCheck
  unfold Dev.drawMany
  try dsimp only
  repeat' first
    | with_reducible exact Keeps.refl _ _
    | (with_reducible apply Keeps.andThen (postTile_keeps _ _ _); decide)
    | (with_reducible apply Keeps.andThen (opEnds_keeps _ _ _ _); decide)
    | (with_reducible apply Keeps.andThen (onTile_keeps _ _ _); decide)
    | (with_reducible apply Keeps.andThen (onFree_keeps _ _); decide)
    | (with_reducible apply Keeps.andThen (onOp_keeps _ _ _); decide)
    | (with_reducible apply Keeps.andThen (postInspectDone_keeps _ _ _); decide)
    | split

theorem opCalibrates_keeps (d : Dev) (i : Fin 48) : Keeps [.host, .tiles, .models, .spool, .store, .free] d (d.opCalibrates i) := by
  unfold Dev.opCalibrates
  unfold Dev.draw
  try dsimp only
  repeat' first
    | with_reducible exact Keeps.refl _ _
    | (with_reducible apply Keeps.andThen (onFree_keeps _ _); decide)
    | (with_reducible apply Keeps.andThen (onTile_keeps _ _ _); decide)
    | (with_reducible apply Keeps.andThen (onOp_keeps _ _ _); decide)
    | (with_reducible apply Keeps.andThen (pairsFail_keeps _ _ _); decide)
    | split

theorem pressClose_keeps (d : Dev) (i : Fin 48) : Keeps [.host, .tiles, .models, .spool, .store, .free] d (d.pressClose i) := by
  unfold Dev.pressClose
  try dsimp only
  repeat' first
    | with_reducible exact Keeps.refl _ _
    | (with_reducible apply Keeps.andThen (pressNeeds_keeps _ _); decide)
    | (with_reducible apply Keeps.andThen (opCalibrates_keeps _ _); decide)
    | (with_reducible apply Keeps.andThen (selfCheck_keeps _ _ _); decide)
    | (with_reducible apply Keeps.andThen (advanceOp_keeps _ _); decide)
    | split

theorem driftCells_keeps (d : Dev) (a0 : List CellDrift) : Keeps [.tiles] d (d.driftCells a0) := by
  induction a0 generalizing d with
  | nil =>
    unfold Dev.driftCells
    try dsimp only
    repeat' first
      | with_reducible exact Keeps.refl _ _
  | cons x xs ih =>
    unfold Dev.driftCells
    try dsimp only
    repeat' first
      | with_reducible exact ih _ 
      | (with_reducible apply Keeps.andThen (ih _); decide)
      | with_reducible exact Keeps.refl _ _
      | (with_reducible apply Keeps.andThen (onTile_keeps _ _ _); decide)
      | split

theorem pulseCells_keeps (d : Dev) (a0 : List CellDrift) : Keeps [.tiles] d (d.pulseCells a0) := by
  induction a0 generalizing d with
  | nil =>
    unfold Dev.pulseCells
    try dsimp only
    repeat' first
      | with_reducible exact Keeps.refl _ _
  | cons x xs ih =>
    unfold Dev.pulseCells
    try dsimp only
    repeat' first
      | with_reducible exact ih _ 
      | (with_reducible apply Keeps.andThen (ih _); decide)
      | with_reducible exact Keeps.refl _ _
      | (with_reducible apply Keeps.andThen (onTile_keeps _ _ _); decide)
      | split

theorem restartRows_keeps (d : Dev) (a0 : List (Fin 48)) : Keeps [.tiles, .spool] d (d.restartRows a0) := by
  induction a0 generalizing d with
  | nil =>
    unfold Dev.restartRows
    try dsimp only
    repeat' first
      | with_reducible exact Keeps.refl _ _
  | cons x xs ih =>
    unfold Dev.restartRows
    try dsimp only
    repeat' first
      | with_reducible exact ih _ 
      | (with_reducible apply Keeps.andThen (ih _); decide)
      | with_reducible exact Keeps.refl _ _
      | (with_reducible apply Keeps.andThen (retireTags_keeps _ _ _); decide)
      | (with_reducible apply Keeps.andThen (onOp_keeps _ _ _); decide)
      | split

theorem queueOp_keeps (d : Dev) (i : Fin 48) (op : PressOp) : Keeps [.tiles, .store] d (d.queueOp i op) := by
  unfold Dev.queueOp
  try dsimp only
  repeat' first
    | with_reducible exact Keeps.refl _ _
    | (with_reducible apply Keeps.andThen (pressNeeds_keeps _ _); decide)
    | (with_reducible apply Keeps.andThen (onTile_keeps _ _ _); decide)

theorem stageBlocks_keeps (d : Dev) (m : Model) (bs : List Byte) (a0 : List Nat) : Keeps [.spool, .sram] d (d.stageBlocks m bs a0) := by
  induction a0 generalizing d m bs with
  | nil =>
    unfold Dev.stageBlocks
    try dsimp only
    repeat' first
      | with_reducible exact Keeps.refl _ _
  | cons x xs ih =>
    unfold Dev.stageBlocks
    try dsimp only
    repeat' first
      | with_reducible exact ih _ _ _ 
      | (with_reducible apply Keeps.andThen (ih _ _ _); decide)
      | with_reducible exact Keeps.refl _ _
      | (with_reducible apply Keeps.andThen (memWrite_keeps _ _ _); decide)
      | split

theorem loadBuffers_keeps (d : Dev) (h : Handle) (m : Model) (f : Fit) : Keeps [.spool, .sram] d (d.loadBuffers h m f) := by
  unfold Dev.loadBuffers
  try dsimp only
  repeat' first
    | with_reducible exact Keeps.refl _ _
    | (with_reducible apply Keeps.andThen (stageBlocks_keeps _ _ _ _); decide)
    | (with_reducible apply Keeps.andThen (memWrite_keeps _ _ _); decide)
    | split

theorem queueLoads_keeps (d : Dev) (h : Handle) (m : Model) (a0 : List (Fin 48)) : Keeps [.host, .tiles, .models, .store] d (d.queueLoads h m a0) := by
  induction a0 generalizing d h m with
  | nil =>
    unfold Dev.queueLoads
    try dsimp only
    repeat' first
      | with_reducible exact Keeps.refl _ _
  | cons x xs ih =>
    unfold Dev.queueLoads
    try dsimp only
    repeat' first
      | with_reducible exact ih _ _ _ 
      | (with_reducible apply Keeps.andThen (ih _ _ _); decide)
      | with_reducible exact Keeps.refl _ _
      | (with_reducible apply Keeps.andThen (opRefused_keeps _ _ _ _ _); decide)
      | (with_reducible apply Keeps.andThen (queueOp_keeps _ _ _); decide)
      | split

theorem reserve_keeps (d : Dev) (h : Handle) (m : Model) (f : Fit) : Keeps [.host, .tiles, .models, .spool, .sram, .store] d (d.reserve h m f) := by
  unfold Dev.reserve
  try dsimp only
  repeat' first
    | with_reducible exact Keeps.refl _ _
    | (with_reducible apply Keeps.andThen (loadBuffers_keeps _ _ _ _); decide)
    | (with_reducible apply Keeps.andThen (postTo_keeps _ _ _); decide)
    | (with_reducible apply Keeps.andThen (onModels_keeps _ _); decide)
    | (with_reducible apply Keeps.andThen (queueLoads_keeps _ _ _ _); decide)
    | (with_reducible apply Keeps.andThen (onStore_keeps _ _); decide)
    | split

theorem longEnd_keeps (d : Dev) (x : Ctx) (code : Word) (e : Option Err) (results : List Word) : Keeps [.host] d (d.longEnd x code e results).1 := by
  unfold Dev.longEnd
  try dsimp only
  repeat' first
    | with_reducible exact Keeps.refl _ _
    | (with_reducible apply Keeps.andThen (finish_keeps _ _ _ _); decide)
    | split

theorem readImageFlash_keeps (d : Dev) (x : Ctx) : Keeps [.qspi] d (d.readImageFlash x) := by
  unfold Dev.readImageFlash
  try dsimp only
  repeat' first
    | with_reducible exact Keeps.refl _ _
    | (with_reducible apply Keeps.andThen (readFlash_keeps _ _ _); decide)
    | split

theorem unload_keeps (d : Dev) (h : Handle) : Keeps [.tiles, .models, .store] d (d.unload h) := by
  unfold Dev.unload
  try dsimp only
  repeat' first
    | with_reducible exact Keeps.refl _ _
    | (with_reducible apply Keeps.andThen (onStore_keeps _ _); decide)
    | (with_reducible apply Keeps.andThen (onTiles_keeps _ _); decide)
    | (with_reducible apply Keeps.andThen (onModels_keeps _ _); decide)

theorem countReads_keeps (d : Dev) (m : Model) (r : Run) (l : Layer) (x : Desc) : Keeps [.host] d (d.countReads m r l x) := by
  unfold Dev.countReads
  try dsimp only
  repeat' first
    | with_reducible exact Keeps.refl _ _
    | (with_reducible apply Keeps.andThen (onPage_keeps _ _ _); decide)

theorem memEngines_keeps (d : Dev) (a0 : List (Nat × List Byte)) : Keeps [.sram] d (d.memEngines a0) := by
  induction a0 generalizing d with
  | nil =>
    unfold Dev.memEngines
    try dsimp only
    repeat' first
      | with_reducible exact Keeps.refl _ _
  | cons x xs ih =>
    unfold Dev.memEngines
    try dsimp only
    repeat' first
      | with_reducible exact ih _ 
      | (with_reducible apply Keeps.andThen (ih _); decide)
      | with_reducible exact Keeps.refl _ _
      | (with_reducible apply Keeps.andThen (memEngine_keeps _ _ _); decide)

theorem startPatch_keeps (d : Dev) (h : Handle) (m : Model) (l : Learn) (s : Slice) (i : Fin 48) : Keeps [.tiles, .models, .store, .free] d (d.startPatch h m l s i) := by
  unfold Dev.startPatch
  unfold Dev.draw
  try dsimp only
  repeat' first
    | with_reducible exact Keeps.refl _ _
    | (with_reducible apply Keeps.andThen (onFree_keeps _ _); decide)
    | (with_reducible apply Keeps.andThen (trigger_keeps _); decide)
    | (with_reducible apply Keeps.andThen (queueOp_keeps _ _ _); decide)
    | (with_reducible apply Keeps.andThen (onLearn_keeps _ _ _); decide)
    | split

theorem patchAtEnd_keeps (d : Dev) (h : Handle) : Keeps [.tiles, .models, .store, .free] d (d.patchAtEnd h) := by
  unfold Dev.patchAtEnd
  try dsimp only
  repeat' first
    | with_reducible exact Keeps.refl _ _
    | (with_reducible apply Keeps.andThen (startPatch_keeps _ _ _ _ _ _); decide)
    | split

theorem postLearn_keeps (d : Dev) (h : Handle) (b : Basket) (before : Learn) (after : Learn) : Keeps [.host, .store] d (d.postLearn h b before after) := by
  unfold Dev.postLearn
  try dsimp only
  repeat' first
    | with_reducible exact Keeps.refl _ _
    | (with_reducible apply Keeps.andThen (postTo_keeps _ _ _); decide)
    | (with_reducible apply Keeps.andThen (trigger_keeps _); decide)
    | split

theorem learnEnd_keeps (d : Dev) (h : Handle) (m : Model) (r : Run) (v : RunView) : Keeps [.host, .models, .spool, .sram, .store] d (d.learnEnd h m r v) := by
  unfold Dev.learnEnd
  try dsimp only
  repeat' first
    | with_reducible exact Keeps.refl _ _
    | (with_reducible apply Keeps.andThen (onLearn_keeps _ _ _); decide)
    | (with_reducible apply Keeps.andThen (postLearn_keeps _ _ _ _ _); decide)
    | (with_reducible apply Keeps.andThen (memWrite_keeps _ _ _); decide)
    | split

theorem seamFailures_keeps (d : Dev) (h : Handle) (a0 : List (Fin 48 × Nat)) : Keeps [.host, .tiles] d (d.seamFailures h a0) := by
  induction a0 generalizing d h with
  | nil =>
    unfold Dev.seamFailures
    try dsimp only
    repeat' first
      | with_reducible exact Keeps.refl _ _
  | cons x xs ih =>
    unfold Dev.seamFailures
    try dsimp only
    repeat' first
      | with_reducible exact ih _ _ 
      | (with_reducible apply Keeps.andThen (ih _ _); decide)
      | with_reducible exact Keeps.refl _ _
      | (with_reducible apply Keeps.andThen (postTile_keeps _ _ _); decide)
      | (with_reducible apply Keeps.andThen (onTile_keeps _ _ _); decide)

theorem tileCounts_keeps (d : Dev) (m : Model) (r : Run) : Keeps [.tiles] d (d.tileCounts m r) := by
  unfold Dev.tileCounts
  try dsimp only
  repeat' first
    | with_reducible exact Keeps.refl _ _
    | (with_reducible apply Keeps.andThen (onTiles_keeps _ _); decide)

theorem dropReloads_keeps (d : Dev) (h : Handle) : Keeps [.tiles] d (d.dropReloads h) := by
  unfold Dev.dropReloads
  try dsimp only
  repeat' first
    | with_reducible exact Keeps.refl _ _
    | (with_reducible apply Keeps.andThen (onTiles_keeps _ _); decide)

theorem endRun_keeps (d : Dev) (h : Handle) (e : Err) : Keeps [.pwr, .host, .tiles, .models, .spool, .sram, .store, .free] d (d.endRun h e) := by
  unfold Dev.endRun
  try dsimp only
  repeat' first
    | with_reducible exact Keeps.refl _ _
    | (with_reducible apply Keeps.andThen (seamFailures_keeps _ _ _); decide)
    | (with_reducible apply Keeps.andThen (retireTags_keeps _ _ _); decide)
    | (with_reducible apply Keeps.andThen (patchAtEnd_keeps _ _); decide)
    | (with_reducible apply Keeps.andThen (tileCounts_keeps _ _ _); decide)
    | (with_reducible apply Keeps.andThen (dropReloads_keeps _ _); decide)
    | (with_reducible apply Keeps.andThen (postTo_keeps _ _ _); decide)
    | (with_reducible apply Keeps.andThen (wakeBy_keeps _ _); decide)
    | (with_reducible apply Keeps.andThen (onModel_keeps _ _ _); decide)
    | (with_reducible apply Keeps.andThen (learnEnd_keeps _ _ _ _ _); decide)
    | (with_reducible apply Keeps.andThen (abortRun_keeps _ _); decide)
    | (with_reducible apply Keeps.andThen (raise_keeps _ _ _); decide)
    | (with_reducible apply Keeps.andThen (memWrite_keeps _ _ _); decide)
    | split

theorem queueReload_keeps (d : Dev) (h : Handle) (m : Model) (e : Nat × Nat) : Keeps [.host, .tiles, .models, .store] d (d.queueReload h m e) := by
  unfold Dev.queueReload
  try dsimp only
  repeat' first
    | with_reducible exact Keeps.refl _ _
    | (with_reducible apply Keeps.andThen (opRefused_keeps _ _ _ _ _); decide)
    | (with_reducible apply Keeps.andThen (queueOp_keeps _ _ _); decide)
    | split

theorem queueReloads_keeps (d : Dev) (h : Handle) (m : Model) (a0 : List (Nat × Nat)) : Keeps [.host, .tiles, .models, .store] d (d.queueReloads h m a0) := by
  induction a0 generalizing d h m with
  | nil =>
    unfold Dev.queueReloads
    try dsimp only
    repeat' first
      | with_reducible exact Keeps.refl _ _
  | cons x xs ih =>
    unfold Dev.queueReloads
    try dsimp only
    repeat' first
      | with_reducible exact ih _ _ _ 
      | (with_reducible apply Keeps.andThen (ih _ _ _); decide)
      | with_reducible exact Keeps.refl _ _
      | (with_reducible apply Keeps.andThen (queueReload_keeps _ _ _ _); decide)

theorem beginPass_keeps (d : Dev) (h : Handle) (m : Model) (p : Nat) : Keeps [.host, .tiles, .models, .store] d (d.beginPass h m p) := by
  unfold Dev.beginPass
  try dsimp only
  repeat' first
    | with_reducible exact Keeps.refl _ _
    | (with_reducible apply Keeps.andThen (onRun_keeps _ _ _); decide)
    | (with_reducible apply Keeps.andThen (queueReloads_keeps _ _ _ _); decide)
    | split

theorem runTag_keeps (d : Dev) (t : Tag) : Keeps [.spool] d (d.runTag t).1 := by
  unfold Dev.runTag
  try dsimp only
  repeat' first
    | with_reducible exact Keeps.refl _ _
    | (with_reducible apply Keeps.andThen (onSpool_keeps _ _); decide)

theorem gatherTags_keeps (d : Dev) (h : Handle) (m : Model) (r : Run) (a0 : List Nat) : Keeps [.spool] d (d.gatherTags h m r a0) := by
  induction a0 generalizing d h m r with
  | nil =>
    unfold Dev.gatherTags
    try dsimp only
    repeat' first
      | with_reducible exact Keeps.refl _ _
  | cons x xs ih =>
    unfold Dev.gatherTags
    try dsimp only
    repeat' first
      | with_reducible exact ih _ _ _ _ 
      | (with_reducible apply Keeps.andThen (ih _ _ _ _); decide)
      | with_reducible exact Keeps.refl _ _
      | (with_reducible apply Keeps.andThen (runTag_keeps _ _); decide)

theorem applyPolicy_keeps (d : Dev) (h : Handle) (m : Model) (k : Nat) (state : Fin 48 → TileState) : Keeps [.pwr, .host, .tiles, .models, .spool, .sram, .store, .free] d (d.applyPolicy h m k state) := by
  unfold Dev.applyPolicy
  try dsimp only
  repeat' first
    | with_reducible exact Keeps.refl _ _
    | (with_reducible apply Keeps.andThen (onRun_keeps _ _ _); decide)
    | (with_reducible apply Keeps.andThen (endRun_keeps _ _ _); decide)
    | split

theorem startRun_keeps (d : Dev) (h : Handle) (m : Model) (e : EndedFrame) : Keeps [.pwr, .host, .tiles, .models, .spool, .sram, .store, .free] d (d.startRun h m e) := by
  unfold Dev.startRun
  try dsimp only
  repeat' first
    | with_reducible exact Keeps.refl _ _
    | (with_reducible apply Keeps.andThen (trigger_keeps _); decide)
    | (with_reducible apply Keeps.andThen (gatherTags_keeps _ _ _ _ _); decide)
    | (with_reducible apply Keeps.andThen (notePeak_keeps _ _); decide)
    | (with_reducible apply Keeps.andThen (beginPass_keeps _ _ _ _); decide)
    | (with_reducible apply Keeps.andThen (onModel_keeps _ _ _); decide)
    | (with_reducible apply Keeps.andThen (applyPolicy_keeps _ _ _ _ _); decide)
    | split

theorem gatherTag_keeps (d : Dev) (h : Handle) (m : Model) (k : Nat) (t : Tag) : Keeps [.models, .spool, .sram] d (d.gatherTag h m k t) := by
  unfold Dev.gatherTag
  try dsimp only
  repeat' first
    | with_reducible exact Keeps.refl _ _
    | (with_reducible apply Keeps.andThen (onRun_keeps _ _ _); decide)
    | (with_reducible apply Keeps.andThen (retireTags_keeps _ _ _); decide)
    | (with_reducible apply Keeps.andThen (memWrite_keeps _ _ _); decide)
    | split

theorem gatherAll_keeps (d : Dev) (h : Handle) (m : Model) (k : Nat) (a0 : List Tag) : Keeps [.models, .spool, .sram] d (d.gatherAll h m k a0) := by
  induction a0 generalizing d h m k with
  | nil =>
    unfold Dev.gatherAll
    try dsimp only
    repeat' first
      | with_reducible exact Keeps.refl _ _
  | cons x xs ih =>
    unfold Dev.gatherAll
    try dsimp only
    repeat' first
      | with_reducible exact ih _ _ _ _ 
      | (with_reducible apply Keeps.andThen (ih _ _ _ _); decide)
      | with_reducible exact Keeps.refl _ _
      | (with_reducible apply Keeps.andThen (gatherTag_keeps _ _ _ _ _); decide)

theorem zeroUnbound_keeps (d : Dev) (h : Handle) (m : Model) : Keeps [.spool, .sram] d (d.zeroUnbound h m) := by
  unfold Dev.zeroUnbound
  try dsimp only
  repeat' first
    | with_reducible exact Keeps.refl _ _
    | (with_reducible apply Keeps.andThen (memWrite_keeps _ _ _); decide)

theorem sliceTags_keeps (d : Dev) (h : Handle) (m : Model) (r : Run) (s : Nat × Slice) (a0 : List Nat) : Keeps [.spool] d (d.sliceTags h m r s a0).1 := by
  induction a0 generalizing d h m r s with
  | nil =>
    unfold Dev.sliceTags
    try dsimp only
    repeat' first
      | with_reducible exact Keeps.refl _ _
  | cons x xs ih =>
    unfold Dev.sliceTags
    try dsimp only
    repeat' first
      | with_reducible exact ih _ _ _ _ _ 
      | (with_reducible apply Keeps.andThen (ih _ _ _ _ _); decide)
      | with_reducible exact Keeps.refl _ _
      | (with_reducible apply Keeps.andThen (runTag_keeps _ _); decide)
      | split

theorem slicesTags_keeps (d : Dev) (h : Handle) (m : Model) (r : Run) (a0 : List (Nat × Slice)) : Keeps [.spool] d (d.slicesTags h m r a0).1 := by
  induction a0 generalizing d h m r with
  | nil =>
    unfold Dev.slicesTags
    try dsimp only
    repeat' first
      | with_reducible exact Keeps.refl _ _
  | cons x xs ih =>
    unfold Dev.slicesTags
    try dsimp only
    repeat' first
      | with_reducible exact ih _ _ _ _ 
      | (with_reducible apply Keeps.andThen (ih _ _ _ _); decide)
      | with_reducible exact Keeps.refl _ _
      | (with_reducible apply Keeps.andThen (sliceTags_keeps _ _ _ _ _ _); decide)

theorem vectorTags_keeps (d : Dev) (h : Handle) (m : Model) (r : Run) (l : Layer) (moves : List (Fin 4096)) (a0 : List (Desc × List (Fin 4096))) (a1 : List (Nat × Desc)) : Keeps [.spool] d (d.vectorTags h m r l moves a0 a1) := by
  induction a1 generalizing d h m r l moves a0 with
  | nil =>
    unfold Dev.vectorTags
    try dsimp only
    repeat' first
      | with_reducible exact Keeps.refl _ _
  | cons x xs ih =>
    unfold Dev.vectorTags
    try dsimp only
    repeat' first
      | with_reducible exact ih _ _ _ _ _ _ _ 
      | (with_reducible apply Keeps.andThen (ih _ _ _ _ _ _ _); decide)
      | with_reducible exact Keeps.refl _ _
      | (with_reducible apply Keeps.andThen (runTag_keeps _ _); decide)

theorem openLayer_keeps (d : Dev) (h : Handle) (m : Model) (r : Run) (l : Layer) : Keeps [.models, .spool] d (d.openLayer h m r l) := by
  unfold Dev.openLayer
  try dsimp only
  repeat' first
    | with_reducible exact Keeps.refl _ _
    | (with_reducible apply Keeps.andThen (onRun_keeps _ _ _); decide)
    | (with_reducible apply Keeps.andThen (vectorTags_keeps _ _ _ _ _ _ _ _); decide)
    | (with_reducible apply Keeps.andThen (slicesTags_keeps _ _ _ _ _); decide)
    | (with_reducible apply Keeps.andThen (notePeak_keeps _ _); decide)
    | split

theorem layerStart_keeps (d : Dev) (h : Handle) (m : Model) (r : Run) : Keeps [.pwr, .host, .tiles, .models, .spool, .sram, .store, .free] d (d.layerStart h m r) := by
  unfold Dev.layerStart
  try dsimp only
  repeat' first
    | with_reducible exact Keeps.refl _ _
    | (with_reducible apply Keeps.andThen (beginPass_keeps _ _ _ _); decide)
    | (with_reducible apply Keeps.andThen (onRun_keeps _ _ _); decide)
    | (with_reducible apply Keeps.andThen (applyPolicy_keeps _ _ _ _ _); decide)
    | (with_reducible apply Keeps.andThen (openLayer_keeps _ _ _ _ _); decide)
    | split

theorem layerEnds_keeps (d : Dev) (h : Handle) : Keeps [.models, .spool] d (d.layerEnds h) := by
  unfold Dev.layerEnds
  try dsimp only
  repeat' first
    | with_reducible exact Keeps.refl _ _
    | (with_reducible apply Keeps.andThen (onRun_keeps _ _ _); decide)
    | (with_reducible apply Keeps.andThen (runTag_keeps _ _); decide)
    | (with_reducible apply Keeps.andThen (notePeak_keeps _ _); decide)
    | split

theorem handTile_keeps (d : Dev) (h : Handle) (m : Model) (e : EndedFrame) (s : Nat × Slice) (l : Layer) (i : Fin 48) : Keeps [.tiles, .models, .free] d (d.handTile h m e s l i) := by
  unfold Dev.handTile
  unfold Dev.draw
  try dsimp only
  repeat' first
    | with_reducible exact Keeps.refl _ _
    | (with_reducible apply Keeps.andThen (onRun_keeps _ _ _); decide)
    | (with_reducible apply Keeps.andThen (onFree_keeps _ _); decide)
    | (with_reducible apply Keeps.andThen (onTile_keeps _ _ _); decide)

theorem handSlice_keeps (d : Dev) (h : Handle) (m : Model) (r : Run) (e : EndedFrame) (s : Nat × Slice) (l : Layer) (a0 : List (Fin 48)) : Keeps [.tiles, .models, .free] d (d.handSlice h m r e s l a0) := by
  induction a0 generalizing d h m r e s l with
  | nil =>
    unfold Dev.handSlice
    try dsimp only
    repeat' first
      | with_reducible exact Keeps.refl _ _
  | cons x xs ih =>
    unfold Dev.handSlice
    try dsimp only
    repeat' first
      | with_reducible exact ih _ _ _ _ _ _ _ 
      | (with_reducible apply Keeps.andThen (ih _ _ _ _ _ _ _); decide)
      | with_reducible exact Keeps.refl _ _
      | (with_reducible apply Keeps.andThen (handTile_keeps _ _ _ _ _ _ _); decide)
      | split

theorem handSlices_keeps (d : Dev) (h : Handle) (m : Model) (r : Run) (e : EndedFrame) (a0 : List (Nat × Slice)) : Keeps [.tiles, .models, .free] d (d.handSlices h m r e a0) := by
  induction a0 generalizing d h m r e with
  | nil =>
    unfold Dev.handSlices
    try dsimp only
    repeat' first
      | with_reducible exact Keeps.refl _ _
  | cons x xs ih =>
    unfold Dev.handSlices
    try dsimp only
    repeat' first
      | with_reducible exact ih _ _ _ _ _ 
      | (with_reducible apply Keeps.andThen (ih _ _ _ _ _); decide)
      | with_reducible exact Keeps.refl _ _
      | (with_reducible apply Keeps.andThen (handSlice_keeps _ _ _ _ _ _ _ _); decide)
      | split

theorem handRuns_keeps (d : Dev) (e : EndedFrame) (a0 : List (Handle × Model)) : Keeps [.tiles, .models, .free] d (d.handRuns e a0) := by
  induction a0 generalizing d e with
  | nil =>
    unfold Dev.handRuns
    try dsimp only
    repeat' first
      | with_reducible exact Keeps.refl _ _
  | cons x xs ih =>
    unfold Dev.handRuns
    try dsimp only
    repeat' first
      | with_reducible exact ih _ _ 
      | (with_reducible apply Keeps.andThen (ih _ _); decide)
      | with_reducible exact Keeps.refl _ _
      | (with_reducible apply Keeps.andThen (handSlices_keeps _ _ _ _ _ _); decide)
      | split

theorem acceptPhases_keeps (d : Dev) (t : Tag) : Keeps [.models, .spool] d (d.acceptPhases t) := by
  unfold Dev.acceptPhases
  try dsimp only
  repeat' first
    | with_reducible exact Keeps.refl _ _
    | (with_reducible apply Keeps.andThen (onRun_keeps _ _ _); decide)
    | (with_reducible apply Keeps.andThen (retireTags_keeps _ _ _); decide)
    | split

theorem endPhase_keeps (d : Dev) (p : Planned) (s : Slice) (l : Layer) (ph : Phase) : Keeps [.tiles, .free] d (d.endPhase p s l ph).2 := by
  unfold Dev.endPhase
  unfold Dev.draw
  try dsimp only
  repeat' first
    | with_reducible exact Keeps.refl _ _
    | (with_reducible apply Keeps.andThen (onFree_keeps _ _); decide)
    | (with_reducible apply Keeps.andThen (onTile_keeps _ _ _); decide)

theorem runPhase_keeps (d : Dev) (h : Handle) (p : Planned) (s : Slice) (l : Layer) (ph : Phase) (rest : List Phase) : Keeps [.tiles, .models, .spool, .free] d (d.runPhase h p s l ph rest) := by
  unfold Dev.runPhase
  try dsimp only
  repeat' first
    | with_reducible exact Keeps.refl _ _
    | (with_reducible apply Keeps.andThen (endPhase_keeps _ _ _ _ _); decide)
    | (with_reducible apply Keeps.andThen (onRun_keeps _ _ _); decide)
    | (with_reducible apply Keeps.andThen (retireTags_keeps _ _ _); decide)
    | split

theorem lastPhase_keeps (d : Dev) (h : Handle) (p : Planned) (s : Slice) (l : Layer) (ph : Phase) : Keeps [.tiles, .models, .spool, .free] d (d.lastPhase h p s l ph) := by
  unfold Dev.lastPhase
  try dsimp only
  repeat' first
    | with_reducible exact Keeps.refl _ _
    | (with_reducible apply Keeps.andThen (endPhase_keeps _ _ _ _ _); decide)
    | (with_reducible apply Keeps.andThen (onModel_keeps _ _ _); decide)
    | (with_reducible apply Keeps.andThen (retireTags_keeps _ _ _); decide)

theorem tilePhase_keeps (d : Dev) (i : Fin 48) : Keeps [.tiles, .models, .spool, .free] d (d.tilePhase i) := by
  unfold Dev.tilePhase
  try dsimp only
  repeat' first
    | with_reducible exact Keeps.refl _ _
    | (with_reducible apply Keeps.andThen (lastPhase_keeps _ _ _ _ _ _); decide)
    | (with_reducible apply Keeps.andThen (runPhase_keeps _ _ _ _ _ _ _); decide)
    | (with_reducible apply Keeps.andThen (retireTags_keeps _ _ _); decide)
    | split

theorem layerOutput_keeps (d : Dev) (h : Handle) (m : Model) (r : Run) (l : Layer) : Keeps [.models, .spool, .sram] d (d.layerOutput h m r l) := by
  unfold Dev.layerOutput
  try dsimp only
  repeat' first
    | with_reducible exact Keeps.refl _ _
    | (with_reducible apply Keeps.andThen (onRun_keeps _ _ _); decide)
    | (with_reducible apply Keeps.andThen (layerEnds_keeps _ _); decide)
    | (with_reducible apply Keeps.andThen (retireTags_keeps _ _ _); decide)
    | (with_reducible apply Keeps.andThen (memWrite_keeps _ _ _); decide)
    | split

theorem engineDone_keeps (d : Dev) (e : Fin 4) (start : Time) : Keeps [.spool] d (d.engineDone e start) := by
  unfold Dev.engineDone
  try dsimp only
  repeat' first
    | with_reducible exact Keeps.refl _ _
    | (with_reducible apply Keeps.andThen (onSpool_keeps _ _); decide)

theorem engineLines_keeps (d : Dev) (e : Fin 4) (reads : List Nat) (writes : List Nat) : Keeps [.spool, .free] d (d.engineLines e reads writes) := by
  unfold Dev.engineLines
  unfold Dev.drawMany
  try dsimp only
  repeat' first
    | with_reducible exact Keeps.refl _ _
    | (with_reducible apply Keeps.andThen (onSpool_keeps _ _); decide)
    | (with_reducible apply Keeps.andThen (onFree_keeps _ _); decide)

theorem descriptorDone_keeps (d : Dev) (engine : Fin 4) (h : Handle) (i : Nat) (aborting : Bool) : Keeps [.host, .models, .spool, .sram, .free] d (d.descriptorDone engine h i aborting) := by
  unfold Dev.descriptorDone
  unfold Dev.draw
  try dsimp only
  repeat' first
    | with_reducible exact Keeps.refl _ _
    | (with_reducible apply Keeps.andThen (onRun_keeps _ _ _); decide)
    | (with_reducible apply Keeps.andThen (engineLines_keeps _ _ _ _); decide)
    | (with_reducible apply Keeps.andThen (countReads_keeps _ _ _ _ _); decide)
    | (with_reducible apply Keeps.andThen (memEngines_keeps _ _); decide)
    | (with_reducible apply Keeps.andThen (onFree_keeps _ _); decide)
    | split

theorem accept_keeps (d : Dev) (u : UnitId) (t : Tag) : Keeps [.models, .spool] d (d.accept u t) := by
  unfold Dev.accept
  try dsimp only
  repeat' first
    | with_reducible exact Keeps.refl _ _
    | (with_reducible apply Keeps.andThen (onSpool_keeps _ _); decide)
    | (with_reducible apply Keeps.andThen (acceptPhases_keeps _ _); decide)
    | split

theorem runLate_keeps (d : Dev) (h : Handle) : Keeps [.pwr, .host, .tiles, .models, .spool, .sram, .store, .free] d (d.runLate h) := by
  unfold Dev.runLate
  try dsimp only
  repeat' first
    | with_reducible exact Keeps.refl _ _
    | (with_reducible apply Keeps.andThen (endRun_keeps _ _ _); decide)
    | split

theorem endRuns_keeps (d : Dev) (e : Err) (a0 : List Handle) : Keeps [.pwr, .host, .tiles, .models, .spool, .sram, .store, .free] d (d.endRuns e a0) := by
  induction a0 generalizing d e with
  | nil =>
    unfold Dev.endRuns
    try dsimp only
    repeat' first
      | with_reducible exact Keeps.refl _ _
  | cons x xs ih =>
    unfold Dev.endRuns
    try dsimp only
    repeat' first
      | with_reducible exact ih _ _ 
      | (with_reducible apply Keeps.andThen (ih _ _); decide)
      | with_reducible exact Keeps.refl _ _
      | (with_reducible apply Keeps.andThen (endRun_keeps _ _ _); decide)

end Sys2Proof.Laws
end

