-- ==== Sys2Proof/Laws/FramesLink.lean ====
section
/-!
SUPPORT. What the functions of Ixward leave unchanged: one frame for each.
-/

namespace Sys2Proof.Laws

open Machine

theorem lk_keeps (d : Dev) (f : Link → Link) : Keeps [.link] d (d.lk f) := by
  unfold Dev.lk
  try dsimp only
  repeat' first
    | with_reducible exact Keeps.refl _ _
    | (with_reducible apply Keeps.andThen (onLink_keeps _ _); decide)

theorem postLink_keeps (d : Dev) (e : Ev) : Keeps [.host] d (d.postLink e) := by
  unfold Dev.postLink
  try dsimp only
  repeat' first
    | with_reducible exact Keeps.refl _ _
    | (with_reducible apply Keeps.andThen (post_keeps _ _ _ _); decide)

theorem postSlot_keeps (d : Dev) (slot : Nat) (e : Ev) : Keeps [.host] d (d.postSlot slot e) := by
  unfold Dev.postSlot
  try dsimp only
  repeat' first
    | with_reducible exact Keeps.refl _ _
    | (with_reducible apply Keeps.andThen (post_keeps _ _ _ _); decide)

theorem linkLog_keeps (d : Dev) (port : Fin 4) (kind : Nat) (node : Nat) (slot : Nat) (cycle : Nat) (noticed : Bool) : Keeps [.link] d (d.linkLog port kind node slot cycle noticed) := by
  unfold Dev.linkLog
  try dsimp only
  repeat' first
    | with_reducible exact Keeps.refl _ _
    | (with_reducible apply Keeps.andThen (lk_keeps _ _); decide)

theorem linkViolation_keeps (d : Dev) (port : Fin 4) (code : Nat) (node : Nat) (slot : Nat) (cycle : Nat) (type : Nat) : Keeps [.link] d (d.linkViolation port code node slot cycle type) := by
  unfold Dev.linkViolation
  try dsimp only
  repeat' first
    | with_reducible exact Keeps.refl _ _
    | (with_reducible apply Keeps.andThen (lk_keeps _ _); decide)
    | (with_reducible apply Keeps.andThen (linkLog_keeps _ _ _ _ _ _ _); decide)

theorem discard_keeps (d : Dev) (port : Fin 4) (p : Packet) (r : Discard) : Keeps [.link] d (d.discard port p r) := by
  unfold Dev.discard
  try dsimp only
  repeat' first
    | with_reducible exact Keeps.refl _ _
    | (with_reducible apply Keeps.andThen (lk_keeps _ _); decide)
    | (with_reducible apply Keeps.andThen (linkLog_keeps _ _ _ _ _ _ _); decide)
    | split

theorem linkGo_keeps (d : Dev) (to_ : LinkState) (reason : Nat) : Keeps [.host, .link] d (d.linkGo to_ reason) := by
  unfold Dev.linkGo
  try dsimp only
  repeat' first
    | with_reducible exact Keeps.refl _ _
    | (with_reducible apply Keeps.andThen (lk_keeps _ _); decide)
    | (with_reducible apply Keeps.andThen (postLink_keeps _ _); decide)
    | (with_reducible apply Keeps.andThen (raise_keeps _ _ _); decide)
    | split

theorem linkFence_keeps (d : Dev) (f : Fence) : Keeps [.host, .link] d (d.linkFence f) := by
  unfold Dev.linkFence
  try dsimp only
  repeat' first
    | with_reducible exact Keeps.refl _ _
    | (with_reducible apply Keeps.andThen (lk_keeps _ _); decide)
    | (with_reducible apply Keeps.andThen (linkGo_keeps _ _ _); decide)

theorem setSource_keeps (d : Dev) (rank : Nat) : Keeps [.host, .link] d (d.setSource rank) := by
  unfold Dev.setSource
  try dsimp only
  repeat' first
    | with_reducible exact Keeps.refl _ _
    | (with_reducible apply Keeps.andThen (lk_keeps _ _); decide)
    | (with_reducible apply Keeps.andThen (postLink_keeps _ _); decide)
    | split

theorem linkStops_keeps (d : Dev) : Keeps [.host, .link] d (d.linkStops) := by
  unfold Dev.linkStops
  try dsimp only
  repeat' first
    | with_reducible exact Keeps.refl _ _
    | (with_reducible apply Keeps.andThen (linkGo_keeps _ _ _); decide)
    | (with_reducible apply Keeps.andThen (setSource_keeps _ _); decide)
    | split

theorem linkRuns_keeps (d : Dev) : Keeps [.link] d (d.linkRuns) := by
  unfold Dev.linkRuns
  try dsimp only
  repeat' first
    | with_reducible exact Keeps.refl _ _
    | (with_reducible apply Keeps.andThen (lk_keeps _ _); decide)

theorem takeBase_keeps (d : Dev) : Keeps [.clk, .host] d (d.takeBase) := by
  unfold Dev.takeBase
  try dsimp only
  repeat' first
    | with_reducible exact Keeps.refl _ _
    | (with_reducible apply Keeps.andThen (post_keeps _ _ _ _); decide)
    | (with_reducible apply Keeps.andThen (onClk_keeps _ _); decide)
    | split

theorem discipline_keeps (d : Dev) : Keeps [.clk] d (d.discipline) := by
  unfold Dev.discipline
  try dsimp only
  repeat' first
    | with_reducible exact Keeps.refl _ _
    | (with_reducible apply Keeps.andThen (onClk_keeps _ _); decide)
    | split

theorem undiscipline_keeps (d : Dev) : Keeps [.clk] d (d.undiscipline) := by
  unfold Dev.undiscipline
  try dsimp only
  repeat' first
    | with_reducible exact Keeps.refl _ _
    | (with_reducible apply Keeps.andThen (onClk_keeps _ _); decide)
    | split

theorem adoptFrames_keeps (d : Dev) : Keeps [.wr] d (d.adoptFrames) := by
  unfold Dev.adoptFrames
  try dsimp only
  repeat' first
    | with_reducible exact Keeps.refl _ _
    | (with_reducible apply Keeps.andThen (onWr_keeps _ _); decide)
    | split

theorem networkBoundary_keeps (d : Dev) : Keeps [.wr] d (d.networkBoundary) := by
  unfold Dev.networkBoundary
  try dsimp only
  repeat' first
    | with_reducible exact Keeps.refl _ _
    | (with_reducible apply Keeps.andThen (makeDue_keeps _ _); decide)
    | split

theorem transmit_keeps (d : Dev) (ports : List (Fin 4)) (bytes : List Byte) : Keeps [.link] d (d.transmit ports bytes) := by
  unfold Dev.transmit
  try dsimp only
  repeat' first
    | with_reducible exact Keeps.refl _ _
    | (with_reducible apply Keeps.andThen (lk_keeps _ _); decide)
    | split

theorem stageLink_keeps (d : Dev) (f : LinkCopy → LinkCopy) : Keeps [.link] d (d.stageLink f) := by
  unfold Dev.stageLink
  try dsimp only
  repeat' first
    | with_reducible exact Keeps.refl _ _
    | (with_reducible apply Keeps.andThen (lk_keeps _ _); decide)

theorem endClaims_keeps (d : Dev) (new : LinkCopy) (a0 : List Claim) : Keeps [.host, .link] d (d.endClaims new a0) := by
  induction a0 generalizing d new with
  | nil =>
    unfold Dev.endClaims
    try dsimp only
    repeat' first
      | with_reducible exact Keeps.refl _ _
  | cons x xs ih =>
    unfold Dev.endClaims
    try dsimp only
    repeat' first
      | with_reducible exact ih _ _ 
      | (with_reducible apply Keeps.andThen (ih _ _); decide)
      | with_reducible exact Keeps.refl _ _
      | (with_reducible apply Keeps.andThen (lk_keeps _ _); decide)
      | (with_reducible apply Keeps.andThen (postSlot_keeps _ _ _); decide)
      | split

theorem applyLink_keeps (d : Dev) (c : LinkCopy) : Keeps [.clk, .host, .link] d (d.applyLink c) := by
  unfold Dev.applyLink
  try dsimp only
  repeat' first
    | with_reducible exact Keeps.refl _ _
    | (with_reducible apply Keeps.andThen (endClaims_keeps _ _ _); decide)
    | (with_reducible apply Keeps.andThen (undiscipline_keeps _); decide)
    | (with_reducible apply Keeps.andThen (setSource_keeps _ _); decide)
    | (with_reducible apply Keeps.andThen (lk_keeps _ _); decide)
    | (with_reducible apply Keeps.andThen (linkGo_keeps _ _ _); decide)
    | (with_reducible apply Keeps.andThen (postLink_keeps _ _); decide)
    | split

theorem forward_keeps (d : Dev) (ports : List (Fin 4)) (bytes : List Byte) : Keeps [.link] d (d.forward ports bytes) := by
  unfold Dev.forward
  try dsimp only
  repeat' first
    | with_reducible exact Keeps.refl _ _
    | (with_reducible apply Keeps.andThen (lk_keeps _ _); decide)
    | split

theorem ringForward_keeps (d : Dev) (port : Fin 4) (rx : Reception) (p : Packet) (frame : Option Discard) (place : Option Discard) : Keeps [.link, .free] d (d.ringForward port rx p frame place) := by
  unfold Dev.ringForward
  unfold Dev.draw
  try dsimp only
  repeat' first
    | with_reducible exact Keeps.refl _ _
    | (with_reducible apply Keeps.andThen (forward_keeps _ _ _); decide)
    | (with_reducible apply Keeps.andThen (onFree_keeps _ _); decide)
    | split

theorem hubBlock_keeps (d : Dev) (branch : Fin 4) (p : Packet) : Keeps [.link] d (d.hubBlock branch p) := by
  unfold Dev.hubBlock
  try dsimp only
  repeat' first
    | with_reducible exact Keeps.refl _ _
    | (with_reducible apply Keeps.andThen (lk_keeps _ _); decide)
    | (with_reducible apply Keeps.andThen (linkViolation_keeps _ _ _ _ _ _ _); decide)
    | split

theorem hubForward_keeps (d : Dev) (branch : Fin 4) (c : Fin 2) (rx : Reception) (p : Packet) (frame : Option Discard) : Keeps [.link] d (d.hubForward branch c rx p frame) := by
  unfold Dev.hubForward
  try dsimp only
  repeat' first
    | with_reducible exact Keeps.refl _ _
    | (with_reducible apply Keeps.andThen (forward_keeps _ _ _); decide)
    | (with_reducible apply Keeps.andThen (hubBlock_keeps _ _ _); decide)
    | split

theorem takeSource_keeps (d : Dev) (p : Packet) : Keeps [.host, .link] d (d.takeSource p) := by
  unfold Dev.takeSource
  try dsimp only
  repeat' first
    | with_reducible exact Keeps.refl _ _
    | (with_reducible apply Keeps.andThen (lk_keeps _ _); decide)
    | (with_reducible apply Keeps.andThen (setSource_keeps _ _); decide)
    | split

theorem adoptCycle_keeps (d : Dev) (port : Fin 4) (rx : Reception) (p : Packet) : Keeps [.host, .wr, .link] d (d.adoptCycle port rx p) := by
  unfold Dev.adoptCycle
  try dsimp only
  repeat' first
    | with_reducible exact Keeps.refl _ _
    | (with_reducible apply Keeps.andThen (lk_keeps _ _); decide)
    | (with_reducible apply Keeps.andThen (adoptFrames_keeps _); decide)
    | (with_reducible apply Keeps.andThen (takeSource_keeps _ _); decide)

theorem timeCandidate_keeps (d : Dev) (port : Fin 4) (rx : Reception) (p : Packet) : Keeps [.host, .link] d (d.timeCandidate port rx p) := by
  unfold Dev.timeCandidate
  try dsimp only
  repeat' first
    | with_reducible exact Keeps.refl _ _
    | (with_reducible apply Keeps.andThen (lk_keeps _ _); decide)
    | (with_reducible apply Keeps.andThen (takeSource_keeps _ _); decide)
    | (with_reducible apply Keeps.andThen (postLink_keeps _ _); decide)
    | split

theorem timePacket_keeps (d : Dev) (port : Fin 4) (rx : Reception) (p : Packet) : Keeps [.host, .wr, .link] d (d.timePacket port rx p) := by
  unfold Dev.timePacket
  try dsimp only
  repeat' first
    | with_reducible exact Keeps.refl _ _
    | (with_reducible apply Keeps.andThen (linkViolation_keeps _ _ _ _ _ _ _); decide)
    | (with_reducible apply Keeps.andThen (timeCandidate_keeps _ _ _ _); decide)
    | (with_reducible apply Keeps.andThen (linkGo_keeps _ _ _); decide)
    | (with_reducible apply Keeps.andThen (adoptCycle_keeps _ _ _ _); decide)
    | split

theorem hearPartner_keeps (d : Dev) (p : Packet) : Keeps [.host, .link] d (d.hearPartner p) := by
  unfold Dev.hearPartner
  try dsimp only
  repeat' first
    | with_reducible exact Keeps.refl _ _
    | (with_reducible apply Keeps.andThen (lk_keeps _ _); decide)
    | (with_reducible apply Keeps.andThen (postLink_keeps _ _); decide)
    | split

theorem fillHolds_keeps (d : Dev) (p : Packet) (a0 : List Model) : Keeps [.spool, .sram] d (d.fillHolds p a0) := by
  induction a0 generalizing d p with
  | nil => exact Keeps.refl _ _
  | cons m ms ih =>
    refine Keeps.andThen (ih _ p) (by decide) (Keeps.foldl _ (fun e x => ?_) _)
    split
    · exact Keeps.andThen (memWrite_keeps _ _ _) (by decide) (Keeps.refl _ _)
    · exact Keeps.refl _ _

theorem remoteWrite_keeps (d : Dev) (p : Packet) : Keeps [.spool, .sram] d (d.remoteWrite p) := by
  unfold Dev.remoteWrite
  try dsimp only
  repeat' first
    | with_reducible exact Keeps.refl _ _
    | (with_reducible apply Keeps.andThen (fillHolds_keeps _ _ _); decide)
    | (with_reducible apply Keeps.andThen (memWrite_keeps _ _ _); decide)
    | split

theorem loseClaim_keeps (d : Dev) (entry : Nat) (slot : Nat) (winner : Nat) : Keeps [.host, .link] d (d.loseClaim entry slot winner) := by
  unfold Dev.loseClaim
  try dsimp only
  repeat' first
    | with_reducible exact Keeps.refl _ _
    | (with_reducible apply Keeps.andThen (lk_keeps _ _); decide)
    | (with_reducible apply Keeps.andThen (postSlot_keeps _ _ _); decide)

theorem takeClaim_keeps (d : Dev) (p : Packet) (entry : Nat) (slot : Nat) : Keeps [.host, .link] d (d.takeClaim p entry slot) := by
  unfold Dev.takeClaim
  try dsimp only
  repeat' first
    | with_reducible exact Keeps.refl _ _
    | (with_reducible apply Keeps.andThen (lk_keeps _ _); decide)
    | (with_reducible apply Keeps.andThen (loseClaim_keeps _ _ _ _); decide)
    | split

theorem learnClaims_keeps (d : Dev) (p : Packet) (a0 : List Nat) : Keeps [.link] d (d.learnClaims p a0) := by
  induction a0 generalizing d p with
  | nil =>
    unfold Dev.learnClaims
    try dsimp only
    repeat' first
      | with_reducible exact Keeps.refl _ _
  | cons x xs ih =>
    unfold Dev.learnClaims
    try dsimp only
    repeat' first
      | with_reducible exact ih _ _ 
      | (with_reducible apply Keeps.andThen (ih _ _); decide)
      | with_reducible exact Keeps.refl _ _
      | (with_reducible apply Keeps.andThen (lk_keeps _ _); decide)
      | split

theorem takeAnnounce_keeps (d : Dev) (port : Fin 4) (p : Packet) : Keeps [.link] d (d.takeAnnounce port p) := by
  unfold Dev.takeAnnounce
  try dsimp only
  repeat' first
    | with_reducible exact Keeps.refl _ _
    | (with_reducible apply Keeps.andThen (lk_keeps _ _); decide)
    | (with_reducible apply Keeps.andThen (learnClaims_keeps _ _ _); decide)
    | (with_reducible apply Keeps.andThen (linkViolation_keeps _ _ _ _ _ _ _); decide)
    | split

theorem takeNotice_keeps (d : Dev) (port : Fin 4) (p : Packet) : Keeps [.host, .link] d (d.takeNotice port p) := by
  unfold Dev.takeNotice
  try dsimp only
  repeat' first
    | with_reducible exact Keeps.refl _ _
    | (with_reducible apply Keeps.andThen (postLink_keeps _ _); decide)
    | (with_reducible apply Keeps.andThen (linkFence_keeps _ _); decide)
    | (with_reducible apply Keeps.andThen (linkLog_keeps _ _ _ _ _ _ _); decide)
    | split

theorem takeMail_keeps (d : Dev) (p : Packet) : Keeps [.link] d (d.takeMail p) := by
  unfold Dev.takeMail
  try dsimp only
  repeat' first
    | with_reducible exact Keeps.refl _ _
    | (with_reducible apply Keeps.andThen (lk_keeps _ _); decide)
    | split

theorem answerDelay_keeps (d : Dev) (port : Fin 4) (p : Packet) : Keeps [.link, .free] d (d.answerDelay port p) := by
  unfold Dev.answerDelay
  unfold Dev.draw
  try dsimp only
  repeat' first
    | with_reducible exact Keeps.refl _ _
    | (with_reducible apply Keeps.andThen (transmit_keeps _ _ _); decide)
    | (with_reducible apply Keeps.andThen (onFree_keeps _ _); decide)

theorem takeDelay_keeps (d : Dev) (port : Fin 4) (rx : Reception) (p : Packet) : Keeps [.link] d (d.takeDelay port rx p) := by
  unfold Dev.takeDelay
  try dsimp only
  repeat' first
    | with_reducible exact Keeps.refl _ _
    | (with_reducible apply Keeps.andThen (lk_keeps _ _); decide)

theorem duplicateId_keeps (d : Dev) (port : Fin 4) (p : Packet) : Keeps [.host, .link] d (d.duplicateId port p) := by
  unfold Dev.duplicateId
  try dsimp only
  repeat' first
    | with_reducible exact Keeps.refl _ _
    | (with_reducible apply Keeps.andThen (linkViolation_keeps _ _ _ _ _ _ _); decide)
    | (with_reducible apply Keeps.andThen (linkFence_keeps _ _); decide)
    | split

theorem slotHeard_keeps (d : Dev) (c : Fin 2) (p : Packet) : Keeps [.link] d (d.slotHeard c p) := by
  unfold Dev.slotHeard
  try dsimp only
  repeat' first
    | with_reducible exact Keeps.refl _ _
    | (with_reducible apply Keeps.andThen (lk_keeps _ _); decide)
    | split

theorem deliver_keeps (d : Dev) (port : Fin 4) (rx : Reception) (p : Packet) : Keeps [.host, .wr, .spool, .sram, .link, .free] d (d.deliver port rx p) := by
  unfold Dev.deliver
  try dsimp only
  repeat' first
    | with_reducible exact Keeps.refl _ _
    | (with_reducible apply Keeps.andThen (takeAnnounce_keeps _ _ _); decide)
    | (with_reducible apply Keeps.andThen (remoteWrite_keeps _ _); decide)
    | (with_reducible apply Keeps.andThen (answerDelay_keeps _ _ _); decide)
    | (with_reducible apply Keeps.andThen (takeDelay_keeps _ _ _ _); decide)
    | (with_reducible apply Keeps.andThen (timePacket_keeps _ _ _ _); decide)
    | (with_reducible apply Keeps.andThen (takeNotice_keeps _ _ _); decide)
    | (with_reducible apply Keeps.andThen (takeClaim_keeps _ _ _ _); decide)
    | (with_reducible apply Keeps.andThen (takeMail_keeps _ _); decide)
    | split

theorem acceptPacket_keeps (d : Dev) (port : Fin 4) (rx : Reception) (p : Packet) : Keeps [.host, .wr, .spool, .sram, .link, .free] d (d.acceptPacket port rx p) := by
  unfold Dev.acceptPacket
  try dsimp only
  repeat' first
    | with_reducible exact Keeps.refl _ _
    | (with_reducible apply Keeps.andThen (hearPartner_keeps _ _); decide)
    | (with_reducible apply Keeps.andThen (duplicateId_keeps _ _ _); decide)
    | (with_reducible apply Keeps.andThen (linkViolation_keeps _ _ _ _ _ _ _); decide)
    | (with_reducible apply Keeps.andThen (lk_keeps _ _); decide)
    | (with_reducible apply Keeps.andThen (deliver_keeps _ _ _ _); decide)
    | (with_reducible apply Keeps.andThen (slotHeard_keeps _ _ _); decide)
    | split

theorem rejectPacket_keeps (d : Dev) (port : Fin 4) (rx : Reception) (p : Packet) (r : Discard) : Keeps [.host, .link] d (d.rejectPacket port rx p r) := by
  unfold Dev.rejectPacket
  try dsimp only
  repeat' first
    | with_reducible exact Keeps.refl _ _
    | (with_reducible apply Keeps.andThen (timeCandidate_keeps _ _ _ _); decide)
    | (with_reducible apply Keeps.andThen (lk_keeps _ _); decide)
    | (with_reducible apply Keeps.andThen (linkGo_keeps _ _ _); decide)
    | (with_reducible apply Keeps.andThen (discard_keeps _ _ _ _); decide)
    | (with_reducible apply Keeps.andThen (slotHeard_keeps _ _ _); decide)
    | split

theorem sendOn_keeps (d : Dev) (port : Fin 4) (rx : Reception) (p : Packet) (frame : Option Discard) (place : Option Discard) : Keeps [.link, .free] d (d.sendOn port rx p frame place) := by
  unfold Dev.sendOn
  try dsimp only
  repeat' first
    | with_reducible exact Keeps.refl _ _
    | (with_reducible apply Keeps.andThen (ringForward_keeps _ _ _ _ _ _); decide)
    | (with_reducible apply Keeps.andThen (hubForward_keeps _ _ _ _ _ _); decide)
    | split

theorem settlePacket_keeps (d : Dev) (port : Fin 4) (rx : Reception) (p : Packet) (frame : Option Discard) (place : Option Discard) : Keeps [.host, .wr, .spool, .sram, .link, .free] d (d.settlePacket port rx p frame place) := by
  unfold Dev.settlePacket
  try dsimp only
  repeat' first
    | with_reducible exact Keeps.refl _ _
    | (with_reducible apply Keeps.andThen (acceptPacket_keeps _ _ _ _); decide)
    | (with_reducible apply Keeps.andThen (rejectPacket_keeps _ _ _ _ _); decide)
    | split

theorem slotFilled_keeps (d : Dev) (l : Link) (port : Fin 4) (sop : Time) : Keeps [.link] d (d.slotFilled l port sop) := by
  unfold Dev.slotFilled
  try dsimp only
  repeat' first
    | with_reducible exact Keeps.refl _ _
    | (with_reducible apply Keeps.andThen (lk_keeps _ _); decide)
    | split

theorem settleSource_keeps (d : Dev) : Keeps [.host, .link] d (d.settleSource) := by
  unfold Dev.settleSource
  try dsimp only
  repeat' first
    | with_reducible exact Keeps.refl _ _
    | (with_reducible apply Keeps.andThen (setSource_keeps _ _); decide)
    | split

theorem cycleTransition_keeps (d : Dev) (valid : Bool) : Keeps [.host, .link] d (d.cycleTransition valid) := by
  unfold Dev.cycleTransition
  try dsimp only
  repeat' first
    | with_reducible exact Keeps.refl _ _
    | (with_reducible apply Keeps.andThen (lk_keeps _ _); decide)
    | (with_reducible apply Keeps.andThen (linkGo_keeps _ _ _); decide)
    | split

theorem networkSync_keeps (d : Dev) : Keeps [.clk, .host, .rinse] d (d.networkSync) := by
  unfold Dev.networkSync
  try dsimp only
  repeat' first
    | with_reducible exact Keeps.refl _ _
    | (with_reducible apply Keeps.andThen (sync_keeps _); decide)
    | (with_reducible apply Keeps.andThen (toEdge_keeps _); decide)
    | split

theorem cycleBase_keeps (d : Dev) : Keeps [.clk, .host] d (d.cycleBase) := by
  unfold Dev.cycleBase
  try dsimp only
  repeat' first
    | with_reducible exact Keeps.refl _ _
    | (with_reducible apply Keeps.andThen (takeBase_keeps _); decide)
    | split

theorem sendEntry_keeps (d : Dev) (n : Nat) (e : SlotEntry) (type : Nat) (flags : Nat) (payload : List Word) : Keeps [.link] d (d.sendEntry n e type flags payload) := by
  unfold Dev.sendEntry
  try dsimp only
  repeat' first
    | with_reducible exact Keeps.refl _ _
    | (with_reducible apply Keeps.andThen (lk_keeps _ _); decide)
    | (with_reducible apply Keeps.andThen (transmit_keeps _ _ _); decide)

theorem sendData_keeps (d : Dev) (n : Nat) (e : SlotEntry) : Keeps [.link] d (d.sendData n e) := by
  unfold Dev.sendData
  try dsimp only
  repeat' first
    | with_reducible exact Keeps.refl _ _
    | (with_reducible apply Keeps.andThen (lk_keeps _ _); decide)
    | (with_reducible apply Keeps.andThen (sendEntry_keeps _ _ _ _ _ _); decide)
    | split

theorem dynSend_keeps (d : Dev) (c : Fin 2) (m : Nat) : Keeps [.link] d (d.dynSend c m) := by
  unfold Dev.dynSend
  try dsimp only
  repeat' first
    | with_reducible exact Keeps.refl _ _
    | (with_reducible apply Keeps.andThen (lk_keeps _ _); decide)
    | (with_reducible apply Keeps.andThen (transmit_keeps _ _ _); decide)
    | split

theorem requestDelay_keeps (d : Dev) (port : Fin 4) : Keeps [.link] d (d.requestDelay port) := by
  unfold Dev.requestDelay
  try dsimp only
  repeat' first
    | with_reducible exact Keeps.refl _ _
    | (with_reducible apply Keeps.andThen (lk_keeps _ _); decide)
    | (with_reducible apply Keeps.andThen (transmit_keeps _ _ _); decide)

theorem formNetwork_keeps (d : Dev) : Keeps [.clk, .host, .wr, .link] d (d.formNetwork) := by
  unfold Dev.formNetwork
  try dsimp only
  repeat' first
    | with_reducible exact Keeps.refl _ _
    | (with_reducible apply Keeps.andThen (lk_keeps _ _); decide)
    | (with_reducible apply Keeps.andThen (adoptFrames_keeps _); decide)
    | (with_reducible apply Keeps.andThen (takeBase_keeps _); decide)
    | (with_reducible apply Keeps.andThen (networkBoundary_keeps _); decide)

theorem partnerQuiet_keeps (d : Dev) (node : Fin 64) (from_ : PartnerState → Bool) (limit : Nat) (to_ : PartnerState) (number : Nat) : Keeps [.host, .link] d (d.partnerQuiet node from_ limit to_ number) := by
  unfold Dev.partnerQuiet
  try dsimp only
  repeat' first
    | with_reducible exact Keeps.refl _ _
    | (with_reducible apply Keeps.andThen (lk_keeps _ _); decide)
    | (with_reducible apply Keeps.andThen (postLink_keeps _ _); decide)
    | split

end Sys2Proof.Laws
end

