-- ==== Sys2Proof/Laws/FramesSystem.lean ====
section
/-!
SUPPORT. What the functions of the frame clock, power, resets and boot leave unchanged: one frame for each.
-/

namespace Sys2Proof.Laws

open Machine

theorem onGrant_keeps (d : Dev) (b : Basket) (f : Grants → Grants) : Keeps [.grants] d (d.onGrant b f) := by
  unfold Dev.onGrant
  try dsimp only
  repeat' first
    | with_reducible exact Keeps.refl _ _
    | (with_reducible apply Keeps.andThen (onGrants_keeps _ _); decide)

theorem mergeBoundary_keeps (d : Dev) : Keeps [.wr] d (d.mergeBoundary) := by
  unfold Dev.mergeBoundary
  try dsimp only
  repeat' first
    | with_reducible exact Keeps.refl _ _
    | (with_reducible apply Keeps.andThen (onWr_keeps _ _); decide)

theorem detectorCopy_keeps (d : Dev) (k : Nat) : Keeps [.rinse, .spool, .sram] d (d.detectorCopy k) := by
  unfold Dev.detectorCopy
  try dsimp only
  repeat' first
    | with_reducible exact Keeps.refl _ _
    | (with_reducible apply Keeps.andThen (onRinse_keeps _ _); decide)
    | (with_reducible apply Keeps.andThen (memWrite_keeps _ _ _); decide)

theorem runsLate_keeps (d : Dev) (a0 : List Handle) : Keeps [.pwr, .host, .tiles, .models, .spool, .sram, .store, .free] d (d.runsLate a0) := by
  induction a0 generalizing d with
  | nil =>
    unfold Dev.runsLate
    try dsimp only
    repeat' first
      | with_reducible exact Keeps.refl _ _
  | cons x xs ih =>
    unfold Dev.runsLate
    try dsimp only
    repeat' first
      | with_reducible exact ih _ 
      | (with_reducible apply Keeps.andThen (ih _); decide)
      | with_reducible exact Keeps.refl _ _
      | (with_reducible apply Keeps.andThen (runLate_keeps _ _); decide)

theorem runsMissed_keeps (d : Dev) (k : Nat) (a0 : List Handle) : Keeps [.host, .models] d (d.runsMissed k a0) := by
  induction a0 generalizing d k with
  | nil =>
    unfold Dev.runsMissed
    try dsimp only
    repeat' first
      | with_reducible exact Keeps.refl _ _
  | cons x xs ih =>
    unfold Dev.runsMissed
    try dsimp only
    repeat' first
      | with_reducible exact ih _ _ 
      | (with_reducible apply Keeps.andThen (ih _ _); decide)
      | with_reducible exact Keeps.refl _ _
      | (with_reducible apply Keeps.andThen (onModel_keeps _ _ _); decide)
      | (with_reducible apply Keeps.andThen (postTo_keeps _ _ _); decide)
      | split

theorem forgetWindows_keeps (d : Dev) : Keeps [.fe, .tachs, .wr] d (d.forgetWindows) := by
  unfold Dev.forgetWindows
  try dsimp only
  repeat' first
    | with_reducible exact Keeps.refl _ _
    | (with_reducible apply Keeps.andThen (onWr_keeps _ _); decide)
    | (with_reducible apply Keeps.andThen (onFe_keeps _ _); decide)
    | (with_reducible apply Keeps.andThen (onTachs_keeps _ _); decide)

theorem endFrame_keeps (d : Dev) (means : List (Nat × Nat)) (truncated : Bool) (blanked : Bool) : Keeps [.host, .fe, .tachs, .wr, .rinse, .spool, .sram] d (d.endFrame means truncated blanked) := by
  unfold Dev.endFrame
  try dsimp only
  repeat' first
    | with_reducible exact Keeps.refl _ _
    | (with_reducible apply Keeps.andThen (prefilter_keeps _ _); decide)
    | (with_reducible apply Keeps.andThen (postAll_keeps _ _); decide)
    | (with_reducible apply Keeps.andThen (detectorCopy_keeps _ _); decide)
    | (with_reducible apply Keeps.andThen (raise_keeps _ _ _); decide)
    | (with_reducible apply Keeps.andThen (forgetWindows_keeps _); decide)
    | (with_reducible apply Keeps.andThen (onWr_keeps _ _); decide)

theorem takeBoundary_keeps (d : Dev) (means : List (Nat × Nat)) : Keeps [.pwr, .host, .fe, .tachs, .wr, .rinse, .tiles, .models, .spool, .sram, .store, .free] d (d.takeBoundary means) := by
  unfold Dev.takeBoundary
  try dsimp only
  repeat' first
    | with_reducible exact Keeps.refl _ _
    | (with_reducible apply Keeps.andThen (onWr_keeps _ _); decide)
    | (with_reducible apply Keeps.andThen (endFrame_keeps _ _ _ _); decide)
    | (with_reducible apply Keeps.andThen (runsMissed_keeps _ _ _); decide)
    | (with_reducible apply Keeps.andThen (runsLate_keeps _ _); decide)

theorem exitFrame_keeps (d : Dev) : Keeps [.clk, .host, .fe, .tachs, .wr, .rinse, .spool, .sram] d (d.exitFrame) := by
  unfold Dev.exitFrame
  try dsimp only
  repeat' first
    | with_reducible exact Keeps.refl _ _
    | (with_reducible apply Keeps.andThen (frameWritten_keeps _ _); decide)
    | (with_reducible apply Keeps.andThen (writeRecords_keeps _ _ _ _ _ _); decide)
    | (with_reducible apply Keeps.andThen (endFrame_keeps _ _ _ _); decide)
    | (with_reducible apply Keeps.andThen (toEdge_keeps _); decide)
    | (with_reducible apply Keeps.andThen (onWr_keeps _ _); decide)
    | split

theorem reconfigure_keeps (d : Dev) (new : WringerSet) (a0 : List (Fin 4)) : Keeps [.host, .tachs, .wr] d (d.reconfigure new a0) := by
  induction a0 generalizing d new with
  | nil =>
    unfold Dev.reconfigure
    try dsimp only
    repeat' first
      | with_reducible exact Keeps.refl _ _
  | cons x xs ih =>
    unfold Dev.reconfigure
    try dsimp only
    repeat' first
      | with_reducible exact ih _ _ 
      | (with_reducible apply Keeps.andThen (ih _ _); decide)
      | with_reducible exact Keeps.refl _ _
      | (with_reducible apply Keeps.andThen (onLoop_keeps _ _ _); decide)
      | (with_reducible apply Keeps.andThen (holdClocks_keeps _ _); decide)
      | (with_reducible apply Keeps.andThen (postTach_keeps _ _ _ _); decide)
      | split

theorem applyVib_keeps (d : Dev) (ch : Nat) (old : VibSet) (new : VibSet) : Keeps [.fe, .guard] d (d.applyVib ch old new) := by
  unfold Dev.applyVib
  try dsimp only
  repeat' first
    | with_reducible exact Keeps.refl _ _
    | (with_reducible apply Keeps.andThen (gainHold_keeps _ _); decide)
    | (with_reducible apply Keeps.andThen (onChannel_keeps _ _ _); decide)
    | split

theorem applyVibs_keeps (d : Dev) (old : WringerSet) (new : WringerSet) (a0 : List Nat) : Keeps [.fe, .guard] d (d.applyVibs old new a0) := by
  induction a0 generalizing d old new with
  | nil =>
    unfold Dev.applyVibs
    try dsimp only
    repeat' first
      | with_reducible exact Keeps.refl _ _
  | cons x xs ih =>
    unfold Dev.applyVibs
    try dsimp only
    repeat' first
      | with_reducible exact ih _ _ _ 
      | (with_reducible apply Keeps.andThen (ih _ _ _); decide)
      | with_reducible exact Keeps.refl _ _
      | (with_reducible apply Keeps.andThen (applyVib_keeps _ _ _ _); decide)
      | split

theorem applyFrame_keeps (d : Dev) (old : WringerSet) : Keeps [.wr] d (d.applyFrame old) := by
  unfold Dev.applyFrame
  try dsimp only
  repeat' first
    | with_reducible exact Keeps.refl _ _
    | (with_reducible apply Keeps.andThen (onWr_keeps _ _); decide)
    | split

theorem openBands_keeps (d : Dev) (a0 : List (Nat × Band)) : Keeps [.wr] d (d.openBands a0) := by
  induction a0 generalizing d with
  | nil =>
    unfold Dev.openBands
    try dsimp only
    repeat' first
      | with_reducible exact Keeps.refl _ _
  | cons x xs ih =>
    unfold Dev.openBands
    try dsimp only
    repeat' first
      | with_reducible exact ih _ 
      | (with_reducible apply Keeps.andThen (ih _); decide)
      | with_reducible exact Keeps.refl _ _
      | (with_reducible apply Keeps.andThen (onClock_keeps _ _ _); decide)
      | (with_reducible apply Keeps.andThen (openBandSettle_keeps _ _ _); decide)

theorem retune_keeps (d : Dev) (old : WringerSet) (a0 : List (Nat × Band)) : Keeps [.wr] d (d.retune old a0) := by
  induction a0 generalizing d old with
  | nil =>
    unfold Dev.retune
    try dsimp only
    repeat' first
      | with_reducible exact Keeps.refl _ _
  | cons x xs ih =>
    unfold Dev.retune
    try dsimp only
    repeat' first
      | with_reducible exact ih _ _ 
      | (with_reducible apply Keeps.andThen (ih _ _); decide)
      | with_reducible exact Keeps.refl _ _
      | (with_reducible apply Keeps.andThen (onClock_keeps _ _ _); decide)

theorem retuneCarriers_keeps (d : Dev) (old : WringerSet) (a0 : List Nat) : Keeps [.wr] d (d.retuneCarriers old a0) := by
  induction a0 generalizing d old with
  | nil =>
    unfold Dev.retuneCarriers
    try dsimp only
    repeat' first
      | with_reducible exact Keeps.refl _ _
  | cons x xs ih =>
    unfold Dev.retuneCarriers
    try dsimp only
    repeat' first
      | with_reducible exact ih _ _ 
      | (with_reducible apply Keeps.andThen (ih _ _); decide)
      | with_reducible exact Keeps.refl _ _
      | (with_reducible apply Keeps.andThen (onClock_keeps _ _ _); decide)

theorem applyWringer_keeps (d : Dev) (c : WringerCommit) : Keeps [.host, .fe, .tachs, .wr, .guard] d (d.applyWringer c) := by
  unfold Dev.applyWringer
  try dsimp only
  repeat' first
    | with_reducible exact Keeps.refl _ _
    | (with_reducible apply Keeps.andThen (prefilter_keeps _ _); decide)
    | (with_reducible apply Keeps.andThen (postAll_keeps _ _); decide)
    | (with_reducible apply Keeps.andThen (applyVibs_keeps _ _ _ _); decide)
    | (with_reducible apply Keeps.andThen (reconfigure_keeps _ _ _); decide)
    | (with_reducible apply Keeps.andThen (retune_keeps _ _ _); decide)
    | (with_reducible apply Keeps.andThen (openBands_keeps _ _); decide)
    | (with_reducible apply Keeps.andThen (applyFrame_keeps _ _); decide)
    | (with_reducible apply Keeps.andThen (retuneCarriers_keeps _ _ _); decide)
    | (with_reducible apply Keeps.andThen (onWr_keeps _ _); decide)

theorem enterPower_keeps (d : Dev) (p : Power) (c : PowerCause) : Keeps [.pwr, .host] d (d.enterPower p c) := by
  unfold Dev.enterPower
  try dsimp only
  repeat' first
    | with_reducible exact Keeps.refl _ _
    | (with_reducible apply Keeps.andThen (postAll_keeps _ _); decide)
    | (with_reducible apply Keeps.andThen (onPwr_keeps _ _); decide)

theorem stopWork_keeps (d : Dev) : Keeps [.pwr, .host, .guard, .rinse, .tiles, .models, .spool, .sram, .store, .link, .free] d (d.stopWork) := by
  unfold Dev.stopWork
  try dsimp only
  repeat' first
    | with_reducible exact Keeps.refl _ _
    | (with_reducible apply Keeps.andThen (linkStops_keeps _); decide)
    | (with_reducible apply Keeps.andThen (onPwr_keeps _ _); decide)
    | (with_reducible apply Keeps.andThen (tripPower_keeps _); decide)
    | (with_reducible apply Keeps.andThen (raise_keeps _ _ _); decide)
    | (with_reducible apply Keeps.andThen (checkpointsStopped_keeps _); decide)
    | (with_reducible apply Keeps.andThen (dropCaches_keeps _); decide)
    | (with_reducible apply Keeps.andThen (endRuns_keeps _ _ _); decide)
    | (with_reducible apply Keeps.andThen (stopChains_keeps _); decide)

theorem resumeOps_keeps (d : Dev) (a0 : List (Fin 48)) : Keeps [.store] d (d.resumeOps a0) := by
  induction a0 generalizing d with
  | nil =>
    unfold Dev.resumeOps
    try dsimp only
    repeat' first
      | with_reducible exact Keeps.refl _ _
  | cons x xs ih =>
    unfold Dev.resumeOps
    try dsimp only
    repeat' first
      | with_reducible exact ih _ 
      | (with_reducible apply Keeps.andThen (ih _); decide)
      | with_reducible exact Keeps.refl _ _
      | (with_reducible apply Keeps.andThen (pressNeeds_keeps _ _); decide)
      | split

theorem resume_keeps (d : Dev) (c : PowerCause) : Keeps [.clk, .pwr, .host, .fe, .tachs, .wr, .rinse, .spool, .sram, .store, .link] d (d.resume c) := by
  unfold Dev.resume
  try dsimp only
  repeat' first
    | with_reducible exact Keeps.refl _ _
    | (with_reducible apply Keeps.andThen (linkRuns_keeps _); decide)
    | (with_reducible apply Keeps.andThen (onPwr_keeps _ _); decide)
    | (with_reducible apply Keeps.andThen (enterPower_keeps _ _ _); decide)
    | (with_reducible apply Keeps.andThen (exitFrame_keeps _); decide)
    | (with_reducible apply Keeps.andThen (onStore_keeps _ _); decide)
    | (with_reducible apply Keeps.andThen (resumeOps_keeps _ _); decide)
    | split

theorem holdEntry_keeps (d : Dev) (c : PowerCause) : Keeps [.pwr, .keep, .host, .guard, .rinse, .tiles, .models, .spool, .sram, .store, .link, .free] d (d.holdEntry c) := by
  unfold Dev.holdEntry
  try dsimp only
  repeat' first
    | with_reducible exact Keeps.refl _ _
    | (with_reducible apply Keeps.andThen (enterPower_keeps _ _ _); decide)
    | (with_reducible apply Keeps.andThen (storePfail_keeps _); decide)
    | (with_reducible apply Keeps.andThen (stopWork_keeps _); decide)

theorem pfailRises_keeps (d : Dev) : Keeps [.pwr, .keep, .host, .store] d (d.pfailRises) := by
  unfold Dev.pfailRises
  try dsimp only
  repeat' first
    | with_reducible exact Keeps.refl _ _
    | (with_reducible apply Keeps.andThen (recordPfail_keeps _); decide)
    | (with_reducible apply Keeps.andThen (onPwr_keeps _ _); decide)
    | (with_reducible apply Keeps.andThen (raise_keeps _ _ _); decide)
    | split

theorem stopCalibrations_keeps (d : Dev) (a0 : List (Fin 24)) : Keeps [.host, .fe] d (d.stopCalibrations a0) := by
  induction a0 generalizing d with
  | nil =>
    unfold Dev.stopCalibrations
    try dsimp only
    repeat' first
      | with_reducible exact Keeps.refl _ _
  | cons x xs ih =>
    unfold Dev.stopCalibrations
    try dsimp only
    repeat' first
      | with_reducible exact ih _ 
      | (with_reducible apply Keeps.andThen (ih _); decide)
      | with_reducible exact Keeps.refl _ _
      | (with_reducible apply Keeps.andThen (onChannel_keeps _ _ _); decide)
      | (with_reducible apply Keeps.andThen (finish_keeps _ _ _ _); decide)
      | split

theorem leaveWatch_keeps (d : Dev) (c : PowerCause) : Keeps [.pwr, .host, .link] d (d.leaveWatch c) := by
  unfold Dev.leaveWatch
  try dsimp only
  repeat' first
    | with_reducible exact Keeps.refl _ _
    | (with_reducible apply Keeps.andThen (enterPower_keeps _ _ _); decide)
    | (with_reducible apply Keeps.andThen (linkRuns_keeps _); decide)
    | (with_reducible apply Keeps.andThen (onPwr_keeps _ _); decide)

theorem blowEnds_keeps (d : Dev) (b : Basket) (blown : Bool) : Keeps [.pwr, .fuse, .host] d (d.blowEnds b blown) := by
  unfold Dev.blowEnds
  try dsimp only
  repeat' first
    | with_reducible exact Keeps.refl _ _
    | (with_reducible apply Keeps.andThen (onFuse_keeps _ _); decide)
    | (with_reducible apply Keeps.andThen (finish_keeps _ _ _ _); decide)
    | (with_reducible apply Keeps.andThen (postAll_keeps _ _); decide)
    | (with_reducible apply Keeps.andThen (onPwr_keeps _ _); decide)
    | split

theorem tapRead_keeps (d : Dev) (v : Word) : Keeps [.pwr] d (d.tapRead v) := by
  unfold Dev.tapRead
  try dsimp only
  repeat' first
    | with_reducible exact Keeps.refl _ _
    | (with_reducible apply Keeps.andThen (onPwr_keeps _ _); decide)

theorem halt_keeps (d : Dev) : Keeps [.pwr, .spool] d (d.halt) := by
  unfold Dev.halt
  try dsimp only
  repeat' first
    | with_reducible exact Keeps.refl _ _
    | (with_reducible apply Keeps.andThen (onSpool_keeps _ _); decide)
    | (with_reducible apply Keeps.andThen (onPwr_keeps _ _); decide)

theorem unhalt_keeps (d : Dev) : Keeps [.pwr, .spool] d (d.unhalt) := by
  unfold Dev.unhalt
  try dsimp only
  repeat' first
    | with_reducible exact Keeps.refl _ _
    | (with_reducible apply Keeps.andThen (onSpool_keeps _ _); decide)
    | (with_reducible apply Keeps.andThen (onPwr_keeps _ _); decide)

theorem bootFromFlash_keeps (d : Dev) : Keeps [.pwr, .qspi] d (d.bootFromFlash) := by
  unfold Dev.bootFromFlash
  try dsimp only
  repeat' first
    | with_reducible exact Keeps.refl _ _
    | (with_reducible apply Keeps.andThen (onPwr_keeps _ _); decide)
    | (with_reducible apply Keeps.andThen (onQspi_keeps _ _); decide)

theorem bootCheck_keeps (d : Dev) (i : Fin 48) : Keeps [.host, .tiles, .free] d (d.bootCheck i) := by
  unfold Dev.bootCheck
  unfold Dev.drawMany
  try dsimp only
  repeat' first
    | with_reducible exact Keeps.refl _ _
    | (with_reducible apply Keeps.andThen (onFree_keeps _ _); decide)
    | (with_reducible apply Keeps.andThen (postTile_keeps _ _ _); decide)
    | (with_reducible apply Keeps.andThen (onTile_keeps _ _ _); decide)
    | split

theorem restoreTiles_keeps (d : Dev) (a0 : List (Fin 48)) : Keeps [.host, .tiles, .free] d (d.restoreTiles a0) := by
  induction a0 generalizing d with
  | nil =>
    unfold Dev.restoreTiles
    try dsimp only
    repeat' first
      | with_reducible exact Keeps.refl _ _
  | cons x xs ih =>
    unfold Dev.restoreTiles
    try dsimp only
    repeat' first
      | with_reducible exact ih _ 
      | (with_reducible apply Keeps.andThen (ih _); decide)
      | with_reducible exact Keeps.refl _ _
      | (with_reducible apply Keeps.andThen (bootCheck_keeps _ _); decide)
      | (with_reducible apply Keeps.andThen (onTile_keeps _ _ _); decide)
      | split

theorem placeOutcome_keeps (d : Dev) (o : Option CmdOutcome) : Keeps [.pwr, .host, .tiles] d (d.placeOutcome o) := by
  unfold Dev.placeOutcome
  try dsimp only
  repeat' first
    | with_reducible exact Keeps.refl _ _
    | (with_reducible apply Keeps.andThen (complete_keeps _ _ _); decide)
    | (with_reducible apply Keeps.andThen (onTiles_keeps _ _); decide)
    | (with_reducible apply Keeps.andThen (onPwr_keeps _ _); decide)
    | split

theorem bootCommits_keeps (d : Dev) : Keeps [.clk, .host, .fe, .tachs, .wr, .guard, .rinse, .link] d (d.bootCommits) := by
  unfold Dev.bootCommits
  try dsimp only
  repeat' first
    | with_reducible exact Keeps.refl _ _
    | (with_reducible apply Keeps.andThen (applyWringer_keeps _ _); decide)
    | (with_reducible apply Keeps.andThen (applyLink_keeps _ _); decide)
    | (with_reducible apply Keeps.andThen (chainsAtFrame1_keeps _ _); decide)
    | split

theorem startFrames_keeps (d : Dev) : Keeps [.clk, .wr] d (d.startFrames) := by
  unfold Dev.startFrames
  try dsimp only
  repeat' first
    | with_reducible exact Keeps.refl _ _
    | (with_reducible apply Keeps.andThen (onWr_keeps _ _); decide)
    | (with_reducible apply Keeps.andThen (toEdge_keeps _); decide)

theorem frame1_keeps (d : Dev) : Keeps [.clk, .pwr, .host, .fe, .tachs, .wr, .guard, .rinse, .tiles, .link] d (d.frame1) := by
  unfold Dev.frame1
  try dsimp only
  repeat' first
    | with_reducible exact Keeps.refl _ _
    | (with_reducible apply Keeps.andThen (placeOutcome_keeps _ _); decide)
    | (with_reducible apply Keeps.andThen (onPwr_keeps _ _); decide)
    | (with_reducible apply Keeps.andThen (startFrames_keeps _); decide)
    | (with_reducible apply Keeps.andThen (enterPower_keeps _ _ _); decide)
    | (with_reducible apply Keeps.andThen (bootCommits_keeps _); decide)
    | (with_reducible apply Keeps.andThen (raise_keeps _ _ _); decide)
    | split

end Sys2Proof.Laws
end

