-- ==== Sys2Proof/Laws/FramesCommands.lean ====
section
/-!
SUPPORT. What the action of each host command leaves unchanged, beside the command registers.
-/

namespace Sys2Proof.Laws

open Machine

theorem cmdFeRestartSensor_keeps (x : Ctx) (d : Dev) : Keeps [.fe] d (cmdFeRestartSensor.act x d).1 := by
  unfold cmdFeRestartSensor
  try dsimp only
  repeat' first
    | with_reducible exact Keeps.refl _ _
    | (with_reducible apply Keeps.andThen (onChannel_keeps _ _ _); decide)

theorem cmdFeCalOffset_keeps (x : Ctx) (d : Dev) : Keeps [.fe] d (cmdFeCalOffset.act x d).1 := by
  unfold cmdFeCalOffset calCommand
  try dsimp only
  repeat' first
    | with_reducible exact Keeps.refl _ _
    | (with_reducible apply Keeps.andThen (onChannel_keeps _ _ _); decide)

theorem cmdFeCalGain_keeps (x : Ctx) (d : Dev) : Keeps [.fe] d (cmdFeCalGain.act x d).1 := by
  unfold cmdFeCalGain calCommand
  try dsimp only
  repeat' first
    | with_reducible exact Keeps.refl _ _
    | (with_reducible apply Keeps.andThen (onChannel_keeps _ _ _); decide)

theorem cmdFeSetChannel_keeps (x : Ctx) (d : Dev) : Keeps [.fe, .wr] d (cmdFeSetChannel.act x d).1 := by
  unfold cmdFeSetChannel
  try dsimp only
  repeat' first
    | with_reducible exact Keeps.refl _ _
    | (with_reducible apply Keeps.andThen (onChannel_keeps _ _ _); decide)
    | (with_reducible apply Keeps.andThen (onWr_keeps _ _); decide)

theorem cmdFeSetCoef_keeps (x : Ctx) (d : Dev) : Keeps [.fe] d (cmdFeSetCoef.act x d).1 := by
  unfold cmdFeSetCoef
  try dsimp only
  repeat' first
    | with_reducible exact Keeps.refl _ _
    | (with_reducible apply Keeps.andThen (onChannel_keeps _ _ _); decide)

theorem cmdFeStatus_keeps (x : Ctx) (d : Dev) : Keeps [] d (cmdFeStatus.act x d).1 := by
  unfold cmdFeStatus
  try dsimp only
  repeat' first
    | with_reducible exact Keeps.refl _ _
    | split

theorem cmdTedsSetScan_keeps (x : Ctx) (d : Dev) : Keeps [.teds] d (cmdTedsSetScan.act x d).1 := by
  unfold cmdTedsSetScan
  try dsimp only
  repeat' first
    | with_reducible exact Keeps.refl _ _
    | (with_reducible apply Keeps.andThen (onTeds_keeps _ _); decide)

theorem cmdTedsBind_keeps (x : Ctx) (d : Dev) : Keeps [.teds] d (cmdTedsBind.act x d).1 := by
  unfold cmdTedsBind
  try dsimp only
  repeat' first
    | with_reducible exact Keeps.refl _ _
    | (with_reducible apply Keeps.andThen (onTeds_keeps _ _); decide)

theorem cmdTedsLog_keeps (x : Ctx) (d : Dev) : Keeps [.spool, .sram, .free] d (cmdTedsLog.act x d).1 := by
  unfold cmdTedsLog blockCommand
  try dsimp only
  repeat' first
    | with_reducible exact Keeps.refl _ _
    | (with_reducible apply Keeps.andThen (onFree_keeps _ _); decide)
    | (with_reducible apply Keeps.andThen (memWrite_keeps _ _ _); decide)

theorem cmdTachSet_keeps (x : Ctx) (d : Dev) : Keeps [.wr] d (cmdTachSet.act x d).1 := by
  unfold cmdTachSet
  try dsimp only
  repeat' first
    | with_reducible exact Keeps.refl _ _
    | (with_reducible apply Keeps.andThen (stageTach_keeps _ _ _); decide)

theorem cmdTachSetLoop_keeps (x : Ctx) (d : Dev) : Keeps [.wr] d (cmdTachSetLoop.act x d).1 := by
  unfold cmdTachSetLoop
  try dsimp only
  repeat' first
    | with_reducible exact Keeps.refl _ _
    | (with_reducible apply Keeps.andThen (stageTach_keeps _ _ _); decide)

theorem cmdTachSetIndex_keeps (x : Ctx) (d : Dev) : Keeps [.wr] d (cmdTachSetIndex.act x d).1 := by
  unfold cmdTachSetIndex
  try dsimp only
  repeat' first
    | with_reducible exact Keeps.refl _ _
    | (with_reducible apply Keeps.andThen (stageTach_keeps _ _ _); decide)

theorem cmdTachStatus_keeps (x : Ctx) (d : Dev) : Keeps [.spool, .sram, .free] d (cmdTachStatus.act x d).1 := by
  unfold cmdTachStatus blockCommand
  try dsimp only
  repeat' first
    | with_reducible exact Keeps.refl _ _
    | (with_reducible apply Keeps.andThen (onFree_keeps _ _); decide)
    | (with_reducible apply Keeps.andThen (memWrite_keeps _ _ _); decide)

theorem cmdWrSetPlan_keeps (x : Ctx) (d : Dev) : Keeps [.wr] d (cmdWrSetPlan.act x d).1 := by
  unfold cmdWrSetPlan
  try dsimp only
  repeat' first
    | with_reducible exact Keeps.refl _ _
    | (with_reducible apply Keeps.andThen (stageWr_keeps _ _); decide)

theorem cmdWrSetChannel_keeps (x : Ctx) (d : Dev) : Keeps [.wr] d (cmdWrSetChannel.act x d).1 := by
  unfold cmdWrSetChannel
  try dsimp only
  repeat' first
    | with_reducible exact Keeps.refl _ _
    | (with_reducible apply Keeps.andThen (stageWr_keeps _ _); decide)

theorem cmdWrSetFrame_keeps (x : Ctx) (d : Dev) : Keeps [.wr] d (cmdWrSetFrame.act x d).1 := by
  unfold cmdWrSetFrame
  try dsimp only
  repeat' first
    | with_reducible exact Keeps.refl _ _
    | (with_reducible apply Keeps.andThen (stageWr_keeps _ _); decide)

theorem cmdWrStatus_keeps (x : Ctx) (d : Dev) : Keeps [.spool, .sram, .free] d (cmdWrStatus.act x d).1 := by
  unfold cmdWrStatus blockCommand
  try dsimp only
  repeat' first
    | with_reducible exact Keeps.refl _ _
    | (with_reducible apply Keeps.andThen (onFree_keeps _ _); decide)
    | (with_reducible apply Keeps.andThen (memWrite_keeps _ _ _); decide)

theorem cmdRnRingSet_keeps (x : Ctx) (d : Dev) : Keeps [.rinse] d (cmdRnRingSet.act x d).1 := by
  unfold cmdRnRingSet
  try dsimp only
  repeat' first
    | with_reducible exact Keeps.refl _ _
    | (with_reducible apply Keeps.andThen (putRing_keeps _ _ _ _); decide)

theorem cmdRnRingStart_keeps (x : Ctx) (d : Dev) : Keeps [.rinse] d (cmdRnRingStart.act x d).1 := by
  unfold cmdRnRingStart
  try dsimp only
  repeat' first
    | with_reducible exact Keeps.refl _ _
    | (with_reducible apply Keeps.andThen (putRing_keeps _ _ _ _); decide)
    | split

theorem cmdRnRingStop_keeps (x : Ctx) (d : Dev) : Keeps [.host, .rinse] d (cmdRnRingStop.act x d).1 := by
  unfold cmdRnRingStop
  try dsimp only
  repeat' first
    | with_reducible exact Keeps.refl _ _
    | (with_reducible apply Keeps.andThen (ringStop_keeps _ _ _ _ _); decide)
    | split

theorem cmdRnTrigger_keeps (x : Ctx) (d : Dev) : Keeps [.host, .rinse] d (cmdRnTrigger.act x d).1 := by
  unfold cmdRnTrigger
  try dsimp only
  repeat' first
    | with_reducible exact Keeps.refl _ _
    | (with_reducible apply Keeps.andThen (ringTrigger_keeps _ _ _ _); decide)
    | split

theorem cmdSysSync_keeps (x : Ctx) (d : Dev) : Keeps [.clk, .host, .wr, .rinse] d (cmdSysSync.act x d).1 := by
  unfold cmdSysSync
  try dsimp only
  repeat' first
    | with_reducible exact Keeps.refl _ _
    | (with_reducible apply Keeps.andThen (tick_keeps _ _); decide)
    | (with_reducible apply Keeps.andThen (sync_keeps _); decide)
    | (with_reducible apply Keeps.andThen (syncFrame_keeps _); decide)
    | split

theorem cmdRnSetChannel_keeps (x : Ctx) (d : Dev) : Keeps [.rinse] d (cmdRnSetChannel.act x d).1 := by
  unfold cmdRnSetChannel
  try dsimp only
  repeat' first
    | with_reducible exact Keeps.refl _ _
    | (with_reducible apply Keeps.andThen (onChain_keeps _ _ _); decide)

theorem cmdRnSetCoef_keeps (x : Ctx) (d : Dev) : Keeps [.rinse] d (cmdRnSetCoef.act x d).1 := by
  unfold cmdRnSetCoef
  try dsimp only
  repeat' first
    | with_reducible exact Keeps.refl _ _
    | (with_reducible apply Keeps.andThen (onChain_keeps _ _ _); decide)

theorem cmdRnCommit_keeps (x : Ctx) (d : Dev) : Keeps [.host, .rinse] d (cmdRnCommit.act x d).1 := by
  unfold cmdRnCommit
  try dsimp only
  repeat' first
    | with_reducible exact Keeps.refl _ _
    | (with_reducible apply Keeps.andThen (onChain_keeps _ _ _); decide)
    | (with_reducible apply Keeps.andThen (acceptChain_keeps _ _ _); decide)
    | split

theorem cmdRnSwap_keeps (x : Ctx) (d : Dev) : Keeps [.host, .rinse] d (cmdRnSwap.act x d).1 := by
  unfold cmdRnSwap
  try dsimp only
  repeat' first
    | with_reducible exact Keeps.refl _ _
    | (with_reducible apply Keeps.andThen (acceptChain_keeps _ _ _); decide)

theorem cmdRnEnable_keeps (x : Ctx) (d : Dev) : Keeps [.host, .rinse] d (cmdRnEnable.act x d).1 := by
  unfold cmdRnEnable
  try dsimp only
  repeat' first
    | with_reducible exact Keeps.refl _ _
    | (with_reducible apply Keeps.andThen (onChain_keeps _ _ _); decide)
    | (with_reducible apply Keeps.andThen (ringsStop_keeps _ _); decide)
    | (with_reducible apply Keeps.andThen (chainApplied_keeps _ _); decide)
    | split

theorem cmdRnDcFreeze_keeps (x : Ctx) (d : Dev) : Keeps [.rinse] d (cmdRnDcFreeze.act x d).1 := by
  unfold cmdRnDcFreeze
  try dsimp only
  repeat' first
    | with_reducible exact Keeps.refl _ _
    | (with_reducible apply Keeps.andThen (onChain_keeps _ _ _); decide)

theorem cmdRnSetDetector_keeps (x : Ctx) (d : Dev) : Keeps [.rinse] d (cmdRnSetDetector.act x d).1 := by
  unfold cmdRnSetDetector
  try dsimp only
  repeat' first
    | with_reducible exact Keeps.refl _ _
    | (with_reducible apply Keeps.andThen (onChain_keeps _ _ _); decide)

theorem cmdRnDetRead_keeps (x : Ctx) (d : Dev) : Keeps [] d (cmdRnDetRead.act x d).1 := by
  unfold cmdRnDetRead
  try dsimp only
  repeat' first
    | with_reducible exact Keeps.refl _ _
    | split

theorem cmdRnDetReset_keeps (x : Ctx) (d : Dev) : Keeps [.rinse] d (cmdRnDetReset.act x d).1 := by
  unfold cmdRnDetReset
  try dsimp only
  repeat' first
    | with_reducible exact Keeps.refl _ _
    | (with_reducible apply Keeps.andThen (onChain_keeps _ _ _); decide)

theorem cmdRnSetSync_keeps (x : Ctx) (d : Dev) : Keeps [.rinse] d (cmdRnSetSync.act x d).1 := by
  unfold cmdRnSetSync
  try dsimp only
  repeat' first
    | with_reducible exact Keeps.refl _ _
    | (with_reducible apply Keeps.andThen (onRinse_keeps _ _); decide)

theorem cmdRnStatus_keeps (x : Ctx) (d : Dev) : Keeps [.spool, .sram, .free] d (cmdRnStatus.act x d).1 := by
  unfold cmdRnStatus blockCommand
  try dsimp only
  repeat' first
    | with_reducible exact Keeps.refl _ _
    | (with_reducible apply Keeps.andThen (onFree_keeps _ _); decide)
    | (with_reducible apply Keeps.andThen (memWrite_keeps _ _ _); decide)

theorem cmdThmSet_keeps (x : Ctx) (d : Dev) : Keeps [.pwr, .host, .guard, .rinse, .free] d (cmdThmSet.act x d).1 := by
  unfold cmdThmSet
  try dsimp only
  repeat' first
    | with_reducible exact Keeps.refl _ _
    | (with_reducible apply Keeps.andThen (thmSet_keeps _ _ _); decide)
    | split

theorem cmdThmSetTrip_keeps (x : Ctx) (d : Dev) : Keeps [.host, .guard, .free] d (cmdThmSetTrip.act x d).1 := by
  unfold cmdThmSetTrip
  try dsimp only
  repeat' first
    | with_reducible exact Keeps.refl _ _
    | (with_reducible apply Keeps.andThen (setTripMask_keeps _ _ _); decide)
    | split

theorem cmdThmStatus_keeps (x : Ctx) (d : Dev) : Keeps [] d (cmdThmStatus.act x d).1 := by
  unfold cmdThmStatus
  try dsimp only
  repeat' first
    | with_reducible exact Keeps.refl _ _
    | split

theorem cmdNdlSet_keeps (x : Ctx) (d : Dev) : Keeps [.guard] d (cmdNdlSet.act x d).1 := by
  unfold cmdNdlSet
  try dsimp only
  repeat' first
    | with_reducible exact Keeps.refl _ _
    | (with_reducible apply Keeps.andThen (onOut_keeps _ _ _); decide)
    | split

theorem cmdNdlSynthSet_keeps (x : Ctx) (d : Dev) : Keeps [.guard] d (cmdNdlSynthSet.act x d).1 := by
  unfold cmdNdlSynthSet
  try dsimp only
  repeat' first
    | with_reducible exact Keeps.refl _ _
    | (with_reducible apply Keeps.andThen (onGuard_keeps _ _); decide)

theorem cmdNdlFire_keeps (x : Ctx) (d : Dev) : Keeps [.guard] d (cmdNdlFire.act x d).1 := by
  unfold cmdNdlFire
  try dsimp only
  repeat' first
    | with_reducible exact Keeps.refl _ _
    | (with_reducible apply Keeps.andThen (onGuard_keeps _ _); decide)

theorem cmdNdlArm_keeps (x : Ctx) (d : Dev) : Keeps [.guard] d (cmdNdlArm.act x d).1 := by
  unfold cmdNdlArm
  try dsimp only
  repeat' first
    | with_reducible exact Keeps.refl _ _
    | (with_reducible apply Keeps.andThen (armOuts_keeps _ _); decide)

theorem cmdNdlTrip_keeps (x : Ctx) (d : Dev) : Keeps [.host, .guard, .free] d (cmdNdlTrip.act x d).1 := by
  unfold cmdNdlTrip
  try dsimp only
  repeat' first
    | with_reducible exact Keeps.refl _ _
    | (with_reducible apply Keeps.andThen (tripAll_keeps _ _ _); decide)

theorem cmdNdlFeed_keeps (x : Ctx) (d : Dev) : Keeps [.host, .guard, .free] d (cmdNdlFeed.act x d).1 := by
  unfold cmdNdlFeed
  try dsimp only
  repeat' first
    | with_reducible exact Keeps.refl _ _
    | (with_reducible apply Keeps.andThen (feedOuts_keeps _ _); decide)

theorem cmdNdlStatus_keeps (x : Ctx) (d : Dev) : Keeps [] d (cmdNdlStatus.act x d).1 := by
  unfold cmdNdlStatus
  try dsimp only
  repeat' first
    | with_reducible exact Keeps.refl _ _
    | split

theorem cmdMemStatus_keeps (x : Ctx) (d : Dev) : Keeps [] d (cmdMemStatus.act x d).1 := by
  unfold cmdMemStatus
  try dsimp only
  repeat' first
    | with_reducible exact Keeps.refl _ _

theorem cmdMemClear_keeps (x : Ctx) (d : Dev) : Keeps [.sram] d (cmdMemClear.act x d).1 := by
  unfold cmdMemClear
  try dsimp only
  repeat' first
    | with_reducible exact Keeps.refl _ _
    | (with_reducible apply Keeps.andThen (onSram_keeps _ _); decide)

theorem cmdSpLedger_keeps (x : Ctx) (d : Dev) : Keeps [.spool, .sram, .free] d (cmdSpLedger.act x d).1 := by
  unfold cmdSpLedger blockCommand
  try dsimp only
  repeat' first
    | with_reducible exact Keeps.refl _ _
    | (with_reducible apply Keeps.andThen (onFree_keeps _ _); decide)
    | (with_reducible apply Keeps.andThen (memWrite_keeps _ _ _); decide)

theorem cmdSpSetAgeing_keeps (x : Ctx) (d : Dev) : Keeps [.spool] d (cmdSpSetAgeing.act x d).1 := by
  unfold cmdSpSetAgeing
  try dsimp only
  repeat' first
    | with_reducible exact Keeps.refl _ _
    | (with_reducible apply Keeps.andThen (onSpool_keeps _ _); decide)

theorem cmdVeStatus_keeps (x : Ctx) (d : Dev) : Keeps [.spool, .sram, .free] d (cmdVeStatus.act x d).1 := by
  unfold cmdVeStatus blockCommand
  try dsimp only
  repeat' first
    | with_reducible exact Keeps.refl _ _
    | (with_reducible apply Keeps.andThen (onFree_keeps _ _); decide)
    | (with_reducible apply Keeps.andThen (memWrite_keeps _ _ _); decide)

theorem cmdCalSet_keeps (x : Ctx) (d : Dev) : Keeps [.pwr, .keep, .host] d (cmdCalSet.act x d).1 := by
  unfold cmdCalSet
  try dsimp only
  repeat' first
    | with_reducible exact Keeps.refl _ _
    | (with_reducible apply Keeps.andThen (onKeep_keeps _ _); decide)
    | (with_reducible apply Keeps.andThen (alarmCheck_keeps _); decide)

theorem cmdCalGet_keeps (x : Ctx) (d : Dev) : Keeps [] d (cmdCalGet.act x d).1 := by
  unfold cmdCalGet
  try dsimp only
  repeat' first
    | with_reducible exact Keeps.refl _ _

theorem cmdCalAlarm_keeps (x : Ctx) (d : Dev) : Keeps [.keep] d (cmdCalAlarm.act x d).1 := by
  unfold cmdCalAlarm
  try dsimp only
  repeat' first
    | with_reducible exact Keeps.refl _ _
    | (with_reducible apply Keeps.andThen (onKeep_keeps _ _); decide)

theorem cmdPsSet_keeps (x : Ctx) (d : Dev) : Keeps [.store] d (cmdPsSet.act x d).1 := by
  unfold cmdPsSet
  try dsimp only
  repeat' first
    | with_reducible exact Keeps.refl _ _
    | (with_reducible apply Keeps.andThen (onStore_keeps _ _); decide)

theorem cmdPsStatus_keeps (x : Ctx) (d : Dev) : Keeps [.spool, .sram, .free] d (cmdPsStatus.act x d).1 := by
  unfold cmdPsStatus blockCommand
  try dsimp only
  repeat' first
    | with_reducible exact Keeps.refl _ _
    | (with_reducible apply Keeps.andThen (onFree_keeps _ _); decide)
    | (with_reducible apply Keeps.andThen (memWrite_keeps _ _ _); decide)

theorem cmdPsLog_keeps (x : Ctx) (d : Dev) : Keeps [.spool, .sram, .free] d (cmdPsLog.act x d).1 := by
  unfold cmdPsLog blockCommand
  try dsimp only
  repeat' first
    | with_reducible exact Keeps.refl _ _
    | (with_reducible apply Keeps.andThen (onFree_keeps _ _); decide)
    | (with_reducible apply Keeps.andThen (memWrite_keeps _ _ _); decide)

theorem cmdPsPut_keeps (x : Ctx) (d : Dev) : Keeps [.store] d (cmdPsPut.act x d).1 := by
  unfold cmdPsPut
  try dsimp only
  repeat' first
    | with_reducible exact Keeps.refl _ _
    | (with_reducible apply Keeps.andThen (onStore_keeps _ _); decide)
    | (with_reducible apply Keeps.andThen (trigger_keeps _); decide)

theorem cmdPsGet_keeps (x : Ctx) (d : Dev) : Keeps [.spool, .sram] d (cmdPsGet.act x d).1 := by
  unfold cmdPsGet
  try dsimp only
  repeat' first
    | with_reducible exact Keeps.refl _ _
    | (with_reducible apply Keeps.andThen (memWrite_keeps _ _ _); decide)

theorem cmdPsCheckpoint_keeps (x : Ctx) (d : Dev) : Keeps [.store] d (cmdPsCheckpoint.act x d).1 := by
  unfold cmdPsCheckpoint
  try dsimp only
  repeat' first
    | with_reducible exact Keeps.refl _ _
    | (with_reducible apply Keeps.andThen (onStore_keeps _ _); decide)
    | (with_reducible apply Keeps.andThen (trigger_keeps _); decide)

theorem cmdLnForget_keeps (x : Ctx) (d : Dev) : Keeps [.store] d (cmdLnForget.act x d).1 := by
  unfold cmdLnForget
  try dsimp only
  repeat' first
    | with_reducible exact Keeps.refl _ _
    | (with_reducible apply Keeps.andThen (onStore_keeps _ _); decide)
    | (with_reducible apply Keeps.andThen (trigger_keeps _); decide)

theorem cmdPrForm_keeps (x : Ctx) (d : Dev) : Keeps [.tiles, .store] d (cmdPrForm.act x d).1 := by
  unfold cmdPrForm
  try dsimp only
  repeat' first
    | with_reducible exact Keeps.refl _ _
    | (with_reducible apply Keeps.andThen (queueOp_keeps _ _ _); decide)

theorem cmdPrPress_keeps (x : Ctx) (d : Dev) : Keeps [.tiles, .store] d (cmdPrPress.act x d).1 := by
  unfold cmdPrPress
  try dsimp only
  repeat' first
    | with_reducible exact Keeps.refl _ _
    | (with_reducible apply Keeps.andThen (queueOp_keeps _ _ _); decide)

theorem cmdPrInspect_keeps (x : Ctx) (d : Dev) : Keeps [.tiles, .store] d (cmdPrInspect.act x d).1 := by
  unfold cmdPrInspect
  try dsimp only
  repeat' first
    | with_reducible exact Keeps.refl _ _
    | (with_reducible apply Keeps.andThen (onTile_keeps _ _ _); decide)
    | (with_reducible apply Keeps.andThen (pressNeeds_keeps _ _); decide)

theorem cmdPrCalibrate_keeps (x : Ctx) (d : Dev) : Keeps [.tiles, .store] d (cmdPrCalibrate.act x d).1 := by
  unfold cmdPrCalibrate
  try dsimp only
  repeat' first
    | with_reducible exact Keeps.refl _ _
    | (with_reducible apply Keeps.andThen (queueOp_keeps _ _ _); decide)

theorem cmdPrSetUpkeep_keeps (x : Ctx) (d : Dev) : Keeps [.upkeep] d (cmdPrSetUpkeep.act x d).1 := by
  unfold cmdPrSetUpkeep
  try dsimp only
  repeat' first
    | with_reducible exact Keeps.refl _ _
    | (with_reducible apply Keeps.andThen (onUpkeep_keeps _ _); decide)

theorem cmdPrStatus_keeps (x : Ctx) (d : Dev) : Keeps [.spool, .sram, .free] d (cmdPrStatus.act x d).1 := by
  unfold cmdPrStatus blockCommand
  try dsimp only
  repeat' first
    | with_reducible exact Keeps.refl _ _
    | (with_reducible apply Keeps.andThen (onFree_keeps _ _); decide)
    | (with_reducible apply Keeps.andThen (memWrite_keeps _ _ _); decide)

theorem cmdTileStatus_keeps (x : Ctx) (d : Dev) : Keeps [.spool, .sram, .free] d (cmdTileStatus.act x d).1 := by
  unfold cmdTileStatus blockCommand
  try dsimp only
  repeat' first
    | with_reducible exact Keeps.refl _ _
    | (with_reducible apply Keeps.andThen (onFree_keeps _ _); decide)
    | (with_reducible apply Keeps.andThen (memWrite_keeps _ _ _); decide)

theorem cmdMdLoad_keeps (x : Ctx) (d : Dev) : Keeps [.host, .tiles, .models, .spool, .sram, .store, .qspi] d (cmdMdLoad.act x d).1 := by
  unfold cmdMdLoad
  try dsimp only
  repeat' first
    | with_reducible exact Keeps.refl _ _
    | (with_reducible apply Keeps.andThen (readImageFlash_keeps _ _); decide)
    | (with_reducible apply Keeps.andThen (longEnd_keeps _ _ _ _ _); decide)
    | (with_reducible apply Keeps.andThen (reserve_keeps _ _ _ _); decide)
    | split

theorem cmdMdCheck_keeps (x : Ctx) (d : Dev) : Keeps [.host, .qspi, .free] d (cmdMdCheck.act x d).1 := by
  unfold cmdMdCheck
  try dsimp only
  repeat' first
    | with_reducible exact Keeps.refl _ _
    | (with_reducible apply Keeps.andThen (readImageFlash_keeps _ _); decide)
    | (with_reducible apply Keeps.andThen (onFree_keeps _ _); decide)
    | (with_reducible apply Keeps.andThen (longEnd_keeps _ _ _ _ _); decide)

theorem cmdMdUnload_keeps (x : Ctx) (d : Dev) : Keeps [.models] d (cmdMdUnload.act x d).1 := by
  unfold cmdMdUnload
  try dsimp only
  repeat' first
    | with_reducible exact Keeps.refl _ _
    | (with_reducible apply Keeps.andThen (onModel_keeps _ _ _); decide)

theorem cmdMdStatus_keeps (x : Ctx) (d : Dev) : Keeps [.spool, .sram, .free] d (cmdMdStatus.act x d).1 := by
  unfold cmdMdStatus blockCommand
  try dsimp only
  repeat' first
    | with_reducible exact Keeps.refl _ _
    | (with_reducible apply Keeps.andThen (onFree_keeps _ _); decide)
    | (with_reducible apply Keeps.andThen (memWrite_keeps _ _ _); decide)

theorem cmdMdSetHorizon_keeps (x : Ctx) (d : Dev) : Keeps [.horizons] d (cmdMdSetHorizon.act x d).1 := by
  unfold cmdMdSetHorizon
  try dsimp only
  repeat' first
    | with_reducible exact Keeps.refl _ _
    | (with_reducible apply Keeps.andThen (onHorizons_keeps _ _); decide)

theorem cmdLnStatus_keeps (x : Ctx) (d : Dev) : Keeps [.spool, .sram, .free] d (cmdLnStatus.act x d).1 := by
  unfold cmdLnStatus blockCommand
  try dsimp only
  repeat' first
    | with_reducible exact Keeps.refl _ _
    | (with_reducible apply Keeps.andThen (onFree_keeps _ _); decide)
    | (with_reducible apply Keeps.andThen (memWrite_keeps _ _ _); decide)

theorem cmdLnAck_keeps (x : Ctx) (d : Dev) : Keeps [.host, .models, .store] d (cmdLnAck.act x d).1 := by
  unfold cmdLnAck
  try dsimp only
  repeat' first
    | with_reducible exact Keeps.refl _ _
    | (with_reducible apply Keeps.andThen (onLearn_keeps _ _ _); decide)
    | (with_reducible apply Keeps.andThen (postTo_keeps _ _ _); decide)
    | (with_reducible apply Keeps.andThen (trigger_keeps _); decide)
    | split

theorem cmdLnPatch_keeps (x : Ctx) (d : Dev) : Keeps [.models] d (cmdLnPatch.act x d).1 := by
  unfold cmdLnPatch
  try dsimp only
  repeat' first
    | with_reducible exact Keeps.refl _ _
    | (with_reducible apply Keeps.andThen (onLearn_keeps _ _ _); decide)

theorem cmdLnRecommission_keeps (x : Ctx) (d : Dev) : Keeps [.models, .spool, .sram] d (cmdLnRecommission.act x d).1 := by
  unfold cmdLnRecommission
  try dsimp only
  repeat' first
    | with_reducible exact Keeps.refl _ _
    | (with_reducible apply Keeps.andThen (onLearn_keeps _ _ _); decide)
    | (with_reducible apply Keeps.andThen (memWrite_keeps _ _ _); decide)
    | split

theorem cmdLkSet_keeps (x : Ctx) (d : Dev) : Keeps [.link] d (cmdLkSet.act x d).1 := by
  unfold cmdLkSet
  try dsimp only
  repeat' first
    | with_reducible exact Keeps.refl _ _
    | (with_reducible apply Keeps.andThen (stageLink_keeps _ _); decide)

theorem cmdLkSetEntry_keeps (x : Ctx) (d : Dev) : Keeps [.link] d (cmdLkSetEntry.act x d).1 := by
  unfold cmdLkSetEntry
  try dsimp only
  repeat' first
    | with_reducible exact Keeps.refl _ _
    | (with_reducible apply Keeps.andThen (stageLink_keeps _ _); decide)

theorem cmdLkCommit_keeps (x : Ctx) (d : Dev) : Keeps [.clk, .host, .link] d (cmdLkCommit.act x d).1 := by
  unfold cmdLkCommit
  try dsimp only
  repeat' first
    | with_reducible exact Keeps.refl _ _
    | (with_reducible apply Keeps.andThen (lk_keeps _ _); decide)
    | (with_reducible apply Keeps.andThen (applyLink_keeps _ _); decide)
    | split

theorem cmdLkStatus_keeps (x : Ctx) (d : Dev) : Keeps [.spool, .sram, .free] d (cmdLkStatus.act x d).1 := by
  unfold cmdLkStatus blockCommand
  try dsimp only
  repeat' first
    | with_reducible exact Keeps.refl _ _
    | (with_reducible apply Keeps.andThen (onFree_keeps _ _); decide)
    | (with_reducible apply Keeps.andThen (memWrite_keeps _ _ _); decide)

theorem cmdLkPartners_keeps (x : Ctx) (d : Dev) : Keeps [.spool, .sram, .free] d (cmdLkPartners.act x d).1 := by
  unfold cmdLkPartners blockCommand
  try dsimp only
  repeat' first
    | with_reducible exact Keeps.refl _ _
    | (with_reducible apply Keeps.andThen (onFree_keeps _ _); decide)
    | (with_reducible apply Keeps.andThen (memWrite_keeps _ _ _); decide)

theorem cmdLkLog_keeps (x : Ctx) (d : Dev) : Keeps [.spool, .sram, .free] d (cmdLkLog.act x d).1 := by
  unfold cmdLkLog blockCommand
  try dsimp only
  repeat' first
    | with_reducible exact Keeps.refl _ _
    | (with_reducible apply Keeps.andThen (onFree_keeps _ _); decide)
    | (with_reducible apply Keeps.andThen (memWrite_keeps _ _ _); decide)

theorem cmdLkSend_keeps (x : Ctx) (d : Dev) : Keeps [.link] d (cmdLkSend.act x d).1 := by
  unfold cmdLkSend
  try dsimp only
  repeat' first
    | with_reducible exact Keeps.refl _ _
    | (with_reducible apply Keeps.andThen (lk_keeps _ _); decide)

theorem cmdLkClaim_keeps (x : Ctx) (d : Dev) : Keeps [.link] d (cmdLkClaim.act x d).1 := by
  unfold cmdLkClaim
  try dsimp only
  repeat' first
    | with_reducible exact Keeps.refl _ _
    | (with_reducible apply Keeps.andThen (lk_keeps _ _); decide)

theorem cmdLkRelease_keeps (x : Ctx) (d : Dev) : Keeps [.link] d (cmdLkRelease.act x d).1 := by
  unfold cmdLkRelease
  try dsimp only
  repeat' first
    | with_reducible exact Keeps.refl _ _
    | (with_reducible apply Keeps.andThen (lk_keeps _ _); decide)

theorem cmdLkMailSend_keeps (x : Ctx) (d : Dev) : Keeps [.link] d (cmdLkMailSend.act x d).1 := by
  unfold cmdLkMailSend
  try dsimp only
  repeat' first
    | with_reducible exact Keeps.refl _ _
    | (with_reducible apply Keeps.andThen (lk_keeps _ _); decide)

theorem cmdLkMailRead_keeps (x : Ctx) (d : Dev) : Keeps [.spool, .sram, .link] d (cmdLkMailRead.act x d).1 := by
  unfold cmdLkMailRead
  try dsimp only
  repeat' first
    | with_reducible exact Keeps.refl _ _
    | (with_reducible apply Keeps.andThen (lk_keeps _ _); decide)
    | (with_reducible apply Keeps.andThen (memWrite_keeps _ _ _); decide)
    | split

theorem cmdLkRearm_keeps (x : Ctx) (d : Dev) : Keeps [.host, .link] d (cmdLkRearm.act x d).1 := by
  unfold cmdLkRearm
  try dsimp only
  repeat' first
    | with_reducible exact Keeps.refl _ _
    | (with_reducible apply Keeps.andThen (lk_keeps _ _); decide)
    | (with_reducible apply Keeps.andThen (linkGo_keeps _ _ _); decide)

theorem cmdBkGrant_keeps (x : Ctx) (d : Dev) : Keeps [.grants] d (cmdBkGrant.act x d).1 := by
  unfold cmdBkGrant
  try dsimp only
  repeat' first
    | with_reducible exact Keeps.refl _ _
    | (with_reducible apply Keeps.andThen (onGrant_keeps _ _ _); decide)
    | split

theorem cmdBkRevoke_keeps (x : Ctx) (d : Dev) : Keeps [.grants] d (cmdBkRevoke.act x d).1 := by
  unfold cmdBkRevoke
  try dsimp only
  repeat' first
    | with_reducible exact Keeps.refl _ _
    | (with_reducible apply Keeps.andThen (onGrant_keeps _ _ _); decide)
    | split

theorem cmdBkStatus_keeps (x : Ctx) (d : Dev) : Keeps [.spool, .sram, .free] d (cmdBkStatus.act x d).1 := by
  unfold cmdBkStatus blockCommand
  try dsimp only
  repeat' first
    | with_reducible exact Keeps.refl _ _
    | (with_reducible apply Keeps.andThen (onFree_keeps _ _); decide)
    | (with_reducible apply Keeps.andThen (memWrite_keeps _ _ _); decide)

theorem cmdWrCommit_keeps (x : Ctx) (d : Dev) : Keeps [.wr] d (cmdWrCommit.act x d).1 := by
  unfold cmdWrCommit
  try dsimp only
  repeat' first
    | with_reducible exact Keeps.refl _ _
    | (with_reducible apply Keeps.andThen (onWr_keeps _ _); decide)
    | split

theorem cmdSysSetPower_keeps (x : Ctx) (d : Dev) : Keeps [.pwr, .host, .link] d (cmdSysSetPower.act x d).1 := by
  unfold cmdSysSetPower
  try dsimp only
  repeat' first
    | with_reducible exact Keeps.refl _ _
    | (with_reducible apply Keeps.andThen (leaveWatch_keeps _ _); decide)
    | (with_reducible apply Keeps.andThen (onPwr_keeps _ _); decide)
    | (with_reducible apply Keeps.andThen (wakeBy_keeps _ _); decide)
    | split

theorem cmdSysSetWake_keeps (x : Ctx) (d : Dev) : Keeps [.pwr] d (cmdSysSetWake.act x d).1 := by
  unfold cmdSysSetWake
  try dsimp only
  repeat' first
    | with_reducible exact Keeps.refl _ _
    | (with_reducible apply Keeps.andThen (onPwr_keeps _ _); decide)

theorem cmdFuseArm_keeps (x : Ctx) (d : Dev) : Keeps [.fuse] d (cmdFuseArm.act x d).1 := by
  unfold cmdFuseArm
  try dsimp only
  repeat' first
    | with_reducible exact Keeps.refl _ _
    | (with_reducible apply Keeps.andThen (onFuse_keeps _ _); decide)

theorem cmdFuseConfirm_keeps (x : Ctx) (d : Dev) : Keeps [.fuse] d (cmdFuseConfirm.act x d).1 := by
  unfold cmdFuseConfirm
  try dsimp only
  repeat' first
    | with_reducible exact Keeps.refl _ _
    | (with_reducible apply Keeps.andThen (onFuse_keeps _ _); decide)
    | split

theorem cmdSysBootRecord_keeps (x : Ctx) (d : Dev) : Keeps [.pwr] d (cmdSysBootRecord.act x d).1 := by
  unfold cmdSysBootRecord
  try dsimp only
  repeat' first
    | with_reducible exact Keeps.refl _ _
    | (with_reducible apply Keeps.andThen (onPwr_keeps _ _); decide)

end Sys2Proof.Laws
end

