-- ==== Sys2Proof/Laws/Memory.lean ====
section
/-!
SUPPORT. The laws of the SRAM: a read after a write, a write and every other address, and the canonical form that every memory
operation keeps.
-/

namespace Sys2Proof.Laws

open Machine

/-! ## Cells -/

theorem cellsGet_insert_other (l : List Host.Cell) (a b : Nat) (v : Byte) (h : b ≠ a) :
    cellsGet (cellsInsert l a v) b = cellsGet l b := by
  induction l with
  | nil => simp [cellsInsert, cellsGet, Ne.symm h]
  | cons c r ih =>
    obtain ⟨k, w⟩ := c
    simp only [cellsInsert]
    split
    · simp [cellsGet, Ne.symm h]
    · simp [cellsGet, ih]

theorem cellsGet_insert_same (l : List Host.Cell) (a : Nat) (v : Byte) (h : ∀ c ∈ l, c.1 ≠ a) :
    cellsGet (cellsInsert l a v) a = v := by
  induction l with
  | nil => simp [cellsInsert, cellsGet]
  | cons c r ih =>
    obtain ⟨k, w⟩ := c
    simp only [cellsInsert]
    split
    · simp [cellsGet]
    · have hk : k ≠ a := h (k, w) (by simp)
      simp only [cellsGet, hk, if_false]
      exact ih (fun c hc => h c (by simp [hc]))

theorem cellsGet_filter (l : List Host.Cell) (p : Nat → Bool) (b : Nat) (h : p b = true) :
    cellsGet (l.filter (fun c => p c.1)) b = cellsGet l b := by
  induction l with
  | nil => rfl
  | cons c r ih =>
    obtain ⟨k, w⟩ := c
    by_cases hk : k = b
    · subst hk; simp [h, cellsGet]
    · by_cases hp : p k = true
      · simp [hp, cellsGet, hk, ih]
      · simp [hp, cellsGet, hk, ih]

theorem cellsGet_none (l : List Host.Cell) (a : Nat) (h : ∀ c ∈ l, c.1 ≠ a) : cellsGet l a = 0 := by
  induction l with
  | nil => rfl
  | cons c r ih =>
    obtain ⟨k, w⟩ := c
    have hk : k ≠ a := h (k, w) (by simp)
    simp only [cellsGet, hk, if_false]
    exact ih (fun c hc => h c (by simp [hc]))

/-- A read after a write of the same cell gives the value written. -/
theorem cellsGet_set_same (l : List Host.Cell) (a : Nat) (v : Byte) : cellsGet (cellsSet l a v) a = v := by
  have hf : ∀ c ∈ l.filter (fun c => c.1 != a), c.1 ≠ a := by
    intro c hc; simpa using (List.mem_filter.mp hc).2
  unfold cellsSet
  by_cases hv : v = 0
  · simp only [hv, if_true]; exact cellsGet_none _ _ hf
  · simp only [hv, if_false]; exact cellsGet_insert_same _ _ _ hf

/-- A write leaves every other cell alone. -/
theorem cellsGet_set_other (l : List Host.Cell) (a b : Nat) (v : Byte) (h : b ≠ a) : cellsGet (cellsSet l a v) b = cellsGet l b := by
  have hf : cellsGet (l.filter (fun c => c.1 != a)) b = cellsGet l b := cellsGet_filter l (fun k => k != a) b (by simpa using h)
  unfold cellsSet
  by_cases hv : v = 0
  · simp only [hv, if_true]; exact hf
  · simp only [hv, if_false]; rw [cellsGet_insert_other _ _ _ _ h, hf]

/-! ## Reads and writes of the SRAM -/

@[simp] theorem mem_insertNat (x y : Nat) (l : List Nat) : y ∈ insertNat x l ↔ y = x ∨ y ∈ l := by
  induction l with
  | nil => simp [insertNat]
  | cons z zs ih =>
    simp only [insertNat]
    split
    · simp
    · split
      · rename_i h1 h2; subst h2; simp
      · simp only [List.mem_cons, ih]; tauto

/-- A read finds the byte last written to its granule, or zero (R456, R457). -/
theorem Sram.get_touch (m : Sram) (a b : Nat) : (m.touch a).get b = m.get b := by
  unfold Sram.touch
  split
  · rfl
  · rename_i h
    simp only [Sram.get]
    by_cases hg : granule b = granule a
    · have h1 : (insertNat (granule a) m.written).contains (granule b) = true := by simp [hg]
      have h2 : m.written.contains (granule b) = false := by rw [hg]; simpa using h
      rw [h1, h2]
      simp only [if_true, Bool.false_eq_true, if_false]
      apply cellsGet_none
      intro c hc hcb
      have := (List.mem_filter.mp hc).2
      simp [hcb, hg] at this
    · have h1 : (insertNat (granule a) m.written).contains (granule b) = m.written.contains (granule b) := by
        rw [Bool.eq_iff_iff]; simp [hg]
      rw [h1, cellsGet_filter m.cells (fun k => granule k != granule a) b (by simpa using hg)]

theorem Sram.touch_written (m : Sram) (a : Nat) : granule a ∈ (m.touch a).written := by
  unfold Sram.touch
  split
  · rename_i h; simpa using h
  · simp

/-- A read after a write of the same byte gives the value written. -/
theorem Sram.get_set_same (m : Sram) (a : Nat) (v : Byte) (h : a < sramSize) : (m.set a v).get a = v := by
  have hw : (m.touch a).written.contains (granule a) = true := by simpa using Sram.touch_written m a
  simp only [Sram.set, h, if_true, Sram.get, hw]
  exact cellsGet_set_same _ _ _

/-- A write leaves every other byte alone. -/
theorem Sram.get_set_other (m : Sram) (a b : Nat) (v : Byte) (h : b ≠ a) : (m.set a v).get b = m.get b := by
  unfold Sram.set
  split
  · rw [← Sram.get_touch m a b]
    simp only [Sram.get]
    rw [cellsGet_set_other _ _ _ _ h]
  · rfl

/-- Consecutive bytes leave every other byte alone. -/
theorem Sram.get_setBytes_other (vs : List Byte) (m : Sram) (a b : Nat) (h : b < a ∨ a + vs.length ≤ b) :
    (m.setBytes a vs).get b = m.get b := by
  induction vs generalizing m a with
  | nil => rfl
  | cons v vs ih =>
    simp only [List.length_cons] at h
    simp only [Sram.setBytes]
    rw [ih _ _ (by omega), Sram.get_set_other _ _ _ _ (by omega)]

/-- Consecutive bytes read as they were written. -/
theorem Sram.get_setBytes_same (vs : List Byte) (m : Sram) (a k : Nat) (hk : k < vs.length) (hb : a + vs.length ≤ sramSize) :
    (m.setBytes a vs).get (a + k) = vs[k] := by
  induction vs generalizing m a k with
  | nil => simp at hk
  | cons v vs ih =>
    simp only [List.length_cons] at hb hk
    simp only [Sram.setBytes]
    cases k with
    | zero =>
      simp only [Nat.add_zero, List.getElem_cons_zero]
      rw [Sram.get_setBytes_other _ _ _ _ (by omega), Sram.get_set_same _ _ _ (by omega)]
    | succ k =>
      have e : a + (k + 1) = a + 1 + k := by omega
      rw [e, ih _ _ _ (by omega) (by omega)]
      simp

/-! ## The canonical form -/

theorem risingFrom_mono {lo lo' : Nat} (l : List Nat) (h : lo' ≤ lo) (hl : risingFrom lo l = true) : risingFrom lo' l = true := by
  cases l with
  | nil => rfl
  | cons k r => simp only [risingFrom, Bool.and_eq_true, decide_eq_true_eq] at hl ⊢; exact ⟨by omega, hl.2⟩

theorem risingFrom_filter (p : Host.Cell → Bool) (l : List Host.Cell) (lo : Nat) (h : risingFrom lo (l.map (·.1)) = true) :
    risingFrom lo ((l.filter p).map (·.1)) = true := by
  induction l generalizing lo with
  | nil => rfl
  | cons c r ih =>
    simp only [List.map_cons, risingFrom, Bool.and_eq_true, decide_eq_true_eq] at h
    by_cases hp : p c = true
    · simp only [List.filter_cons, hp, if_true, List.map_cons, risingFrom, Bool.and_eq_true, decide_eq_true_eq]
      exact ⟨h.1, ih _ h.2⟩
    · simp only [List.filter_cons, hp, Bool.false_eq_true, if_false]
      exact ih _ (risingFrom_mono _ (by omega) h.2)

theorem risingFrom_filterNat (p : Nat → Bool) (l : List Nat) (lo : Nat) (h : risingFrom lo l = true) :
    risingFrom lo (l.filter p) = true := by
  induction l generalizing lo with
  | nil => rfl
  | cons c r ih =>
    simp only [risingFrom, Bool.and_eq_true, decide_eq_true_eq] at h
    by_cases hp : p c = true
    · simp only [List.filter_cons, hp, if_true, risingFrom, Bool.and_eq_true, decide_eq_true_eq]
      exact ⟨h.1, ih _ h.2⟩
    · simp only [List.filter_cons, hp, Bool.false_eq_true, if_false]
      exact ih _ (risingFrom_mono _ (by omega) h.2)

theorem risingFrom_insertNat (x : Nat) (l : List Nat) (lo : Nat) (hx : lo ≤ x) (h : risingFrom lo l = true) :
    risingFrom lo (insertNat x l) = true := by
  induction l generalizing lo with
  | nil => simp [insertNat, risingFrom, hx]
  | cons y ys ih =>
    have h' := h
    simp only [risingFrom, Bool.and_eq_true, decide_eq_true_eq] at h
    simp only [insertNat]
    split
    · simp only [risingFrom, Bool.and_eq_true, decide_eq_true_eq]; exact ⟨hx, by omega, h.2⟩
    · split
      · exact h'
      · simp only [risingFrom, Bool.and_eq_true, decide_eq_true_eq]; exact ⟨h.1, ih _ (by omega) h.2⟩

theorem risingFrom_insert (l : List Host.Cell) (a : Nat) (v : Byte) (lo : Nat) (ha : lo ≤ a) (hn : ∀ c ∈ l, c.1 ≠ a)
    (h : risingFrom lo (l.map (·.1)) = true) : risingFrom lo ((cellsInsert l a v).map (·.1)) = true := by
  induction l generalizing lo with
  | nil => simp [cellsInsert, risingFrom, ha]
  | cons c r ih =>
    obtain ⟨k, w⟩ := c
    have hk : k ≠ a := hn (k, w) (by simp)
    simp only [List.map_cons, risingFrom, Bool.and_eq_true, decide_eq_true_eq] at h
    simp only [cellsInsert]
    split
    · simp only [List.map_cons, risingFrom, Bool.and_eq_true, decide_eq_true_eq]; exact ⟨ha, by omega, h.2⟩
    · simp only [List.map_cons, risingFrom, Bool.and_eq_true, decide_eq_true_eq]
      exact ⟨h.1, ih _ (by omega) (fun c hc => hn c (by simp [hc])) h.2⟩

theorem mem_cellsInsert (l : List Host.Cell) (a : Nat) (v : Byte) (c : Host.Cell) : c ∈ cellsInsert l a v ↔ c = (a, v) ∨ c ∈ l := by
  induction l with
  | nil => simp [cellsInsert]
  | cons d r ih =>
    obtain ⟨k, w⟩ := d
    simp only [cellsInsert]
    split
    · simp
    · simp only [List.mem_cons, ih]; tauto

theorem Sram.wf_iff (m : Sram) : m.wf = true ↔
    risingFrom 0 (m.cells.map (·.1)) = true ∧ (∀ c ∈ m.cells, c.1 < sramSize ∧ c.2 ≠ 0) ∧ risingFrom 0 m.written = true ∧
      ∀ g ∈ m.written, g < 6144 := by
  simp [Sram.wf, and_assoc]

theorem Sram.touch_wf (m : Sram) (a : Nat) (ha : a < sramSize) (h : m.wf = true) : (m.touch a).wf = true := by
  unfold Sram.touch
  split
  · exact h
  · rw [Sram.wf_iff] at h ⊢
    refine ⟨risingFrom_filter _ _ _ h.1, ?_, risingFrom_insertNat _ _ _ (by omega) h.2.2.1, ?_⟩
    · intro c hc; exact h.2.1 c (List.mem_filter.mp hc).1
    · intro g hg
      rcases (mem_insertNat _ _ _).mp hg with rfl | hg
      · unfold granule sramSize at *; omega
      · exact h.2.2.2 g hg

/-- Storing a byte keeps the canonical form. -/
theorem Sram.set_wf (m : Sram) (a : Nat) (v : Byte) (h : m.wf = true) : (m.set a v).wf = true := by
  unfold Sram.set
  split
  · rename_i ha
    have ht := (Sram.wf_iff _).mp (Sram.touch_wf m a ha h)
    rw [Sram.wf_iff]
    have hf : ∀ c ∈ (m.touch a).cells.filter (fun c => c.1 != a), c.1 ≠ a := by
      intro c hc; simpa using (List.mem_filter.mp hc).2
    refine ⟨?_, ?_, ht.2.2⟩
    · show risingFrom 0 ((cellsSet (m.touch a).cells a v).map (·.1)) = true
      unfold cellsSet
      by_cases hv : v = 0
      · simp only [hv, if_true]; exact risingFrom_filter _ _ _ ht.1
      · simp only [hv, if_false]; exact risingFrom_insert _ _ _ _ (by omega) hf (risingFrom_filter _ _ _ ht.1)
    · intro c hc
      have hc : c ∈ cellsSet (m.touch a).cells a v := hc
      unfold cellsSet at hc
      by_cases hv : v = 0
      · simp only [hv, if_true] at hc; exact ht.2.1 c (List.mem_filter.mp hc).1
      · simp only [hv, if_false] at hc
        rcases (mem_cellsInsert _ _ _ _).mp hc with rfl | hc
        · exact ⟨ha, hv⟩
        · exact ht.2.1 c (List.mem_filter.mp hc).1
  · exact h

/-- Storing consecutive bytes keeps the canonical form. -/
theorem Sram.setBytes_wf (vs : List Byte) (m : Sram) (a : Nat) (h : m.wf = true) : (m.setBytes a vs).wf = true := by
  induction vs generalizing m a with
  | nil => exact h
  | cons v vs ih => exact ih _ _ (Sram.set_wf m a v h)

/-- Clearing written bits keeps the canonical form (R460). -/
theorem Sram.clearUnits_wf (m : Sram) (first count : Nat) (h : m.wf = true) : (m.clearUnits first count).wf = true := by
  rw [Sram.wf_iff] at h ⊢
  exact ⟨h.1, h.2.1, risingFrom_filterNat _ _ _ h.2.2.1, fun g hg => h.2.2.2 g (List.mem_filter.mp hg).1⟩

/-- A reset keeps the canonical form (R506). -/
theorem Sram.reset_wf (m : Sram) (h : m.wf = true) : m.reset.wf = true := by
  rw [Sram.wf_iff] at h ⊢
  exact ⟨h.1, h.2.1, rfl, by simp [Sram.reset]⟩

/-- A write by an agent without a cache keeps the canonical form. -/
theorem Dev.memWrite_wf (d : Dev) (a : Nat) (vs : List Byte) (h : d.sram.wf = true) : (d.memWrite a vs).sram.wf = true :=
  Sram.setBytes_wf vs d.sram a h

/-- A write by an engine keeps the canonical form. -/
theorem Dev.memEngine_wf (d : Dev) (a : Nat) (vs : List Byte) (h : d.sram.wf = true) : (d.memEngine a vs).sram.wf = true :=
  Sram.setBytes_wf vs d.sram a h

/-- The memory of State.reset has the canonical form. -/
theorem State.reset_sram_wf : State.reset.dev.sram.wf = true := rfl

/-- A write by an agent without a cache changes the SRAM, and the copies of its lines, only. -/
@[simp] theorem Dev.memWrite_sram (d : Dev) (a : Nat) (vs : List Byte) : (d.memWrite a vs).sram = d.sram.setBytes a vs := rfl
@[simp] theorem Dev.memWrite_host (d : Dev) (a : Nat) (vs : List Byte) : (d.memWrite a vs).host = d.host := rfl
@[simp] theorem Dev.memWrite_clk (d : Dev) (a : Nat) (vs : List Byte) : (d.memWrite a vs).clk = d.clk := rfl
@[simp] theorem Dev.memWrite_wr (d : Dev) (a : Nat) (vs : List Byte) : (d.memWrite a vs).wr = d.wr := rfl
@[simp] theorem Dev.memWrite_grants (d : Dev) (a : Nat) (vs : List Byte) : (d.memWrite a vs).grants = d.grants := rfl

end Sys2Proof.Laws
end

