-- ==== Sys2Proof/Laws/FramesSram.lean ====
section
/-!
SUPPORT. Every function that stores to the SRAM keeps its canonical form.
-/

namespace Sys2Proof.Laws

open Machine

/-- The SRAM has its canonical form. -/
def SramWf (d : Dev) : Prop := d.sram.wf = true

/-- What leaves the SRAM alone keeps its form. -/
theorem Keeps.sramWf {ps : List Part} {d e : Dev} (h : Keeps ps d e) (hp : Part.sram ∉ ps) (hd : SramWf d) : SramWf e := by
  have : e.sram = d.sram := h .sram hp
  unfold SramWf; rw [this]; exact hd

theorem memWrite_sramWf (d : Dev) (a : Nat) (vs : List Byte) (hw : SramWf d) : SramWf (d.memWrite a vs) := Sram.setBytes_wf vs d.sram a hw

theorem memEngine_sramWf (d : Dev) (a : Nat) (vs : List Byte) (hw : SramWf d) : SramWf (d.memEngine a vs) := Sram.setBytes_wf vs d.sram a hw

/-- A fold keeps the form that each of its steps keeps. -/
theorem foldl_sramWf {α : Type} {f : Dev → α → Dev} (l : List α) (h : ∀ e x, SramWf e → SramWf (f e x)) (d : Dev) (hw : SramWf d) :
    SramWf (l.foldl f d) := by
  induction l generalizing d with
  | nil => exact hw
  | cons x xs ih => exact ih (f d x) (h d x hw)

theorem drainOne_sramWf (d : Dev) (b : Basket) (w : Fin 2) (hw : SramWf d) : SramWf (d.drainOne b w) := by
  unfold Dev.drainOne
  try dsimp only
  repeat' first
    | with_reducible assumption
    | with_reducible apply memWrite_sramWf
    | (with_reducible apply Keeps.sramWf (onWindow_keeps _ _ _ _); decide)
    | split

theorem drain_sramWf (d : Dev) (b : Basket) (w : Fin 2) (a0 : Nat) (hw : SramWf d) : SramWf (d.drain b w a0) := by
  induction a0 generalizing d b w with
  | zero =>
    unfold Dev.drain
    try dsimp only
    repeat' first
      | with_reducible assumption
  | succ k ih =>
    unfold Dev.drain
    try dsimp only
    repeat' first
      | with_reducible assumption
      | with_reducible apply ih
      | with_reducible apply drainOne_sramWf

theorem winRead_sramWf (d : Dev) (b : Basket) (w : Fin 2) (hw : SramWf d) : SramWf (d.winRead b w) := by
  unfold Dev.winRead
  try dsimp only
  repeat' first
    | with_reducible assumption
    | (with_reducible apply Keeps.sramWf (onPage_keeps _ _ _); decide)
    | (with_reducible apply Keeps.sramWf (drive_keeps _ _); decide)
    | with_reducible apply drain_sramWf
    | (with_reducible apply Keeps.sramWf (violate_keeps _ _ _ _); decide)
    | (with_reducible apply Keeps.sramWf (winAdvance_keeps _ _ _ _); decide)
    | (with_reducible apply Keeps.sramWf (onWindow_keeps _ _ _ _); decide)
    | split

theorem winWrite_sramWf (d : Dev) (b : Basket) (w : Fin 2) (val : Word) (hw : SramWf d) : SramWf (d.winWrite b w val) := by
  unfold Dev.winWrite
  try dsimp only
  repeat' first
    | with_reducible assumption
    | with_reducible apply drainOne_sramWf
    | (with_reducible apply Keeps.sramWf (violate_keeps _ _ _ _); decide)
    | (with_reducible apply Keeps.sramWf (winAdvance_keeps _ _ _ _); decide)
    | (with_reducible apply Keeps.sramWf (onWindow_keeps _ _ _ _); decide)
    | split

theorem winRegister_sramWf (d : Dev) (b : Basket) (w : Fin 2) (k : Nat) (val : Word) (hw : SramWf d) : SramWf (d.winRegister b w k val) := by
  unfold Dev.winRegister
  try dsimp only
  repeat' first
    | with_reducible assumption
    | (with_reducible apply Keeps.sramWf (winCtrl_keeps _ _ _ _); decide)
    | (with_reducible apply Keeps.sramWf (onWindow_keeps _ _ _ _); decide)
    | with_reducible apply winWrite_sramWf
    | split

theorem markFree_sramWf (d : Dev) (e : EndedFrame) (f : Nat) (v : BandValue) (hw : SramWf d) : SramWf (d.markFree e f v) := by
  unfold Dev.markFree
  try dsimp only
  repeat' first
    | with_reducible assumption
    | with_reducible apply memWrite_sramWf
    | (with_reducible apply Keeps.sramWf (onWr_keeps _ _); decide)
    | split

theorem markEnded_sramWf (d : Dev) (i : Fin 4) (start : Time) (hw : SramWf d) : SramWf (d.markEnded i start) := by
  unfold Dev.markEnded
  repeat' split
  · exact hw
  · exact hw
  · apply foldl_sramWf
    · intro e y he
      split
      · exact markFree_sramWf _ _ _ _ he
      · exact he
    · exact hw

theorem floodStart_sramWf (d : Dev) (i : Fin 4) (onIndex : Bool) (crossed : Time) (hw : SramWf d) : SramWf (d.floodStart i onIndex crossed) := by
  unfold Dev.floodStart
  try dsimp only
  repeat' first
    | with_reducible assumption
    | with_reducible apply markEnded_sramWf
    | (with_reducible apply Keeps.sramWf (postTach_keeps _ _ _ _); decide)
    | (with_reducible apply Keeps.sramWf (onTach_keeps _ _ _); decide)
    | (with_reducible apply Keeps.sramWf (enterFreewheel_keeps _ _ _); decide)
    | split

theorem writeRecords_sramWf (d : Dev) (e : EndedFrame) (draw : Nat) (countMode : Bool) (a0 : Nat) (a1 : List BandValue) (hw : SramWf d) : SramWf (d.writeRecords e draw countMode a0 a1) := by
  induction a1 generalizing d e draw countMode a0 with
  | nil =>
    unfold Dev.writeRecords
    try dsimp only
    repeat' first
      | with_reducible assumption
  | cons x xs ih =>
    unfold Dev.writeRecords
    try dsimp only
    repeat' first
      | with_reducible assumption
      | with_reducible apply ih
      | with_reducible apply memWrite_sramWf
      | (with_reducible apply Keeps.sramWf (countClip_keeps _ _ _); decide)
      | split

theorem frameWritten_sramWf (d : Dev) (e : EndedFrame) (hw : SramWf d) : SramWf (d.frameWritten e) := by
  unfold Dev.frameWritten
  try dsimp only
  repeat' first
    | with_reducible assumption
    | with_reducible apply memWrite_sramWf
    | (with_reducible apply Keeps.sramWf (onWr_keeps _ _); decide)

theorem ringWrite_sramWf (d : Dev) (pos : Nat) (b : Basket) (r : Ring) (word : BitVec 32) (hw : SramWf d) : SramWf (d.ringWrite pos b r word).1 := by
  unfold Dev.ringWrite
  try dsimp only
  repeat' first
    | with_reducible assumption
    | with_reducible apply memWrite_sramWf
    | (with_reducible apply Keeps.sramWf (putRing_keeps _ _ _ _); decide)

theorem ringTake_sramWf (d : Dev) (pos : Nat) (b : Basket) (word : BitVec 32) (hw : SramWf d) : SramWf (d.ringTake pos b word) := by
  unfold Dev.ringTake
  try dsimp only
  repeat' first
    | with_reducible assumption
    | (with_reducible apply Keeps.sramWf (ringStop_keeps _ _ _ _ _); decide)
    | with_reducible apply ringWrite_sramWf
    | split

theorem ringsTake_sramWf (d : Dev) (pos : Nat) (word : BitVec 32) (hw : SramWf d) : SramWf (d.ringsTake pos word) := by
  unfold Dev.ringsTake
  try dsimp only
  repeat' first
    | with_reducible assumption
    | with_reducible apply ringTake_sramWf

theorem rinseInput_sramWf (d : Dev) (pos : Nat) (word : BitVec 32) (hw : SramWf d) : SramWf (d.rinseInput pos word) := by
  unfold Dev.rinseInput
  try dsimp only
  repeat' first
    | with_reducible assumption
    | (with_reducible apply Keeps.sramWf (onChain_keeps _ _ _); decide)
    | (with_reducible apply Keeps.sramWf (rinseApply_keeps _ _); decide)
    | with_reducible apply ringsTake_sramWf
    | split

theorem stageBlocks_sramWf (d : Dev) (m : Model) (bs : List Byte) (a0 : List Nat) (hw : SramWf d) : SramWf (d.stageBlocks m bs a0) := by
  induction a0 generalizing d m bs with
  | nil =>
    unfold Dev.stageBlocks
    try dsimp only
    repeat' first
      | with_reducible assumption
  | cons x xs ih =>
    unfold Dev.stageBlocks
    try dsimp only
    repeat' first
      | with_reducible assumption
      | with_reducible apply ih
      | with_reducible apply memWrite_sramWf
      | split

theorem loadBuffers_sramWf (d : Dev) (h : Handle) (m : Model) (f : Fit) (hw : SramWf d) : SramWf (d.loadBuffers h m f) := by
  unfold Dev.loadBuffers
  try dsimp only
  repeat' first
    | with_reducible assumption
    | with_reducible apply memWrite_sramWf
    | with_reducible apply stageBlocks_sramWf
    | split

theorem reserve_sramWf (d : Dev) (h : Handle) (m : Model) (f : Fit) (hw : SramWf d) : SramWf (d.reserve h m f) := by
  unfold Dev.reserve
  try dsimp only
  repeat' first
    | with_reducible assumption
    | (with_reducible apply Keeps.sramWf (onStore_keeps _ _); decide)
    | (with_reducible apply Keeps.sramWf (postTo_keeps _ _ _); decide)
    | (with_reducible apply Keeps.sramWf (queueLoads_keeps _ _ _ _); decide)
    | with_reducible apply loadBuffers_sramWf
    | (with_reducible apply Keeps.sramWf (onModels_keeps _ _); decide)
    | split

theorem memEngines_sramWf (d : Dev) (a0 : List (Nat × List Byte)) (hw : SramWf d) : SramWf (d.memEngines a0) := by
  induction a0 generalizing d with
  | nil =>
    unfold Dev.memEngines
    try dsimp only
    repeat' first
      | with_reducible assumption
  | cons x xs ih =>
    unfold Dev.memEngines
    try dsimp only
    repeat' first
      | with_reducible assumption
      | with_reducible apply ih
      | with_reducible apply memEngine_sramWf

theorem learnEnd_sramWf (d : Dev) (h : Handle) (m : Model) (r : Run) (v : RunView) (hw : SramWf d) : SramWf (d.learnEnd h m r v) := by
  unfold Dev.learnEnd
  try dsimp only
  repeat' first
    | with_reducible assumption
    | with_reducible apply memWrite_sramWf
    | (with_reducible apply Keeps.sramWf (onLearn_keeps _ _ _); decide)
    | (with_reducible apply Keeps.sramWf (postLearn_keeps _ _ _ _ _); decide)
    | split

theorem endRun_sramWf (d : Dev) (h : Handle) (e : Err) (hw : SramWf d) : SramWf (d.endRun h e) := by
  unfold Dev.endRun
  try dsimp only
  repeat' first
    | with_reducible assumption
    | with_reducible apply memWrite_sramWf
    | (with_reducible apply Keeps.sramWf (onModel_keeps _ _ _); decide)
    | (with_reducible apply Keeps.sramWf (dropReloads_keeps _ _); decide)
    | (with_reducible apply Keeps.sramWf (wakeBy_keeps _ _); decide)
    | (with_reducible apply Keeps.sramWf (postTo_keeps _ _ _); decide)
    | (with_reducible apply Keeps.sramWf (patchAtEnd_keeps _ _); decide)
    | with_reducible apply learnEnd_sramWf
    | (with_reducible apply Keeps.sramWf (retireTags_keeps _ _ _); decide)
    | (with_reducible apply Keeps.sramWf (raise_keeps _ _ _); decide)
    | (with_reducible apply Keeps.sramWf (tileCounts_keeps _ _ _); decide)
    | (with_reducible apply Keeps.sramWf (seamFailures_keeps _ _ _); decide)
    | (with_reducible apply Keeps.sramWf (abortRun_keeps _ _); decide)
    | split

theorem applyPolicy_sramWf (d : Dev) (h : Handle) (m : Model) (k : Nat) (state : Fin 48 → TileState) (hw : SramWf d) : SramWf (d.applyPolicy h m k state) := by
  unfold Dev.applyPolicy
  try dsimp only
  repeat' first
    | with_reducible assumption
    | (with_reducible apply Keeps.sramWf (onRun_keeps _ _ _); decide)
    | with_reducible apply endRun_sramWf
    | split

theorem startRun_sramWf (d : Dev) (h : Handle) (m : Model) (e : EndedFrame) (hw : SramWf d) : SramWf (d.startRun h m e) := by
  unfold Dev.startRun
  try dsimp only
  repeat' first
    | with_reducible assumption
    | (with_reducible apply Keeps.sramWf (trigger_keeps _); decide)
    | (with_reducible apply Keeps.sramWf (onModel_keeps _ _ _); decide)
    | (with_reducible apply Keeps.sramWf (beginPass_keeps _ _ _ _); decide)
    | with_reducible apply applyPolicy_sramWf
    | (with_reducible apply Keeps.sramWf (gatherTags_keeps _ _ _ _ _); decide)
    | (with_reducible apply Keeps.sramWf (notePeak_keeps _ _); decide)
    | split

theorem gatherTag_sramWf (d : Dev) (h : Handle) (m : Model) (k : Nat) (t : Tag) (hw : SramWf d) : SramWf (d.gatherTag h m k t) := by
  unfold Dev.gatherTag
  try dsimp only
  repeat' first
    | with_reducible assumption
    | with_reducible apply memWrite_sramWf
    | (with_reducible apply Keeps.sramWf (onRun_keeps _ _ _); decide)
    | (with_reducible apply Keeps.sramWf (retireTags_keeps _ _ _); decide)
    | split

theorem gatherAll_sramWf (d : Dev) (h : Handle) (m : Model) (k : Nat) (a0 : List Tag) (hw : SramWf d) : SramWf (d.gatherAll h m k a0) := by
  induction a0 generalizing d h m k with
  | nil =>
    unfold Dev.gatherAll
    try dsimp only
    repeat' first
      | with_reducible assumption
  | cons x xs ih =>
    unfold Dev.gatherAll
    try dsimp only
    repeat' first
      | with_reducible assumption
      | with_reducible apply ih
      | with_reducible apply gatherTag_sramWf

theorem zeroUnbound_sramWf (d : Dev) (h : Handle) (m : Model) (hw : SramWf d) : SramWf (d.zeroUnbound h m) := by
  unfold Dev.zeroUnbound
  try dsimp only
  repeat' first
    | with_reducible assumption
    | with_reducible apply memWrite_sramWf

theorem layerStart_sramWf (d : Dev) (h : Handle) (m : Model) (r : Run) (hw : SramWf d) : SramWf (d.layerStart h m r) := by
  unfold Dev.layerStart
  try dsimp only
  repeat' first
    | with_reducible assumption
    | (with_reducible apply Keeps.sramWf (onRun_keeps _ _ _); decide)
    | (with_reducible apply Keeps.sramWf (openLayer_keeps _ _ _ _ _); decide)
    | with_reducible apply applyPolicy_sramWf
    | (with_reducible apply Keeps.sramWf (beginPass_keeps _ _ _ _); decide)
    | split

theorem layerOutput_sramWf (d : Dev) (h : Handle) (m : Model) (r : Run) (l : Layer) (hw : SramWf d) : SramWf (d.layerOutput h m r l) := by
  unfold Dev.layerOutput
  try dsimp only
  repeat' first
    | with_reducible assumption
    | with_reducible apply memWrite_sramWf
    | (with_reducible apply Keeps.sramWf (onRun_keeps _ _ _); decide)
    | (with_reducible apply Keeps.sramWf (layerEnds_keeps _ _); decide)
    | (with_reducible apply Keeps.sramWf (retireTags_keeps _ _ _); decide)
    | split

theorem descriptorDone_sramWf (d : Dev) (engine : Fin 4) (h : Handle) (i : Nat) (aborting : Bool) (hw : SramWf d) : SramWf (d.descriptorDone engine h i aborting) := by
  unfold Dev.descriptorDone
  unfold Dev.draw
  try dsimp only
  repeat' first
    | with_reducible assumption
    | (with_reducible apply Keeps.sramWf (onRun_keeps _ _ _); decide)
    | with_reducible apply memEngines_sramWf
    | (with_reducible apply Keeps.sramWf (engineLines_keeps _ _ _ _); decide)
    | (with_reducible apply Keeps.sramWf (countReads_keeps _ _ _ _ _); decide)
    | (with_reducible apply Keeps.sramWf (onFree_keeps _ _); decide)
    | split

theorem runLate_sramWf (d : Dev) (h : Handle) (hw : SramWf d) : SramWf (d.runLate h) := by
  unfold Dev.runLate
  try dsimp only
  repeat' first
    | with_reducible assumption
    | with_reducible apply endRun_sramWf
    | split

theorem endRuns_sramWf (d : Dev) (e : Err) (a0 : List Handle) (hw : SramWf d) : SramWf (d.endRuns e a0) := by
  induction a0 generalizing d e with
  | nil =>
    unfold Dev.endRuns
    try dsimp only
    repeat' first
      | with_reducible assumption
  | cons x xs ih =>
    unfold Dev.endRuns
    try dsimp only
    repeat' first
      | with_reducible assumption
      | with_reducible apply ih
      | with_reducible apply endRun_sramWf

theorem fillHolds_sramWf (d : Dev) (p : Packet) (a0 : List Model) (hw : SramWf d) : SramWf (d.fillHolds p a0) := by
  induction a0 generalizing d p with
  | nil => exact hw
  | cons m ms ih =>
    unfold Dev.fillHolds
    dsimp only
    apply ih
    apply foldl_sramWf
    · intro e y he
      split
      · exact memWrite_sramWf _ _ _ he
      · exact he
    · exact hw

theorem remoteWrite_sramWf (d : Dev) (p : Packet) (hw : SramWf d) : SramWf (d.remoteWrite p) := by
  unfold Dev.remoteWrite
  try dsimp only
  repeat' first
    | with_reducible assumption
    | with_reducible apply memWrite_sramWf
    | with_reducible apply fillHolds_sramWf
    | split

theorem deliver_sramWf (d : Dev) (port : Fin 4) (rx : Reception) (p : Packet) (hw : SramWf d) : SramWf (d.deliver port rx p) := by
  unfold Dev.deliver
  try dsimp only
  repeat' first
    | with_reducible assumption
    | (with_reducible apply Keeps.sramWf (takeMail_keeps _ _); decide)
    | (with_reducible apply Keeps.sramWf (answerDelay_keeps _ _ _); decide)
    | with_reducible apply remoteWrite_sramWf
    | (with_reducible apply Keeps.sramWf (takeClaim_keeps _ _ _ _); decide)
    | (with_reducible apply Keeps.sramWf (takeNotice_keeps _ _ _); decide)
    | (with_reducible apply Keeps.sramWf (timePacket_keeps _ _ _ _); decide)
    | (with_reducible apply Keeps.sramWf (takeDelay_keeps _ _ _ _); decide)
    | (with_reducible apply Keeps.sramWf (takeAnnounce_keeps _ _ _); decide)
    | split

theorem acceptPacket_sramWf (d : Dev) (port : Fin 4) (rx : Reception) (p : Packet) (hw : SramWf d) : SramWf (d.acceptPacket port rx p) := by
  unfold Dev.acceptPacket
  try dsimp only
  repeat' first
    | with_reducible assumption
    | (with_reducible apply Keeps.sramWf (slotHeard_keeps _ _ _); decide)
    | (with_reducible apply Keeps.sramWf (hearPartner_keeps _ _); decide)
    | (with_reducible apply Keeps.sramWf (duplicateId_keeps _ _ _); decide)
    | (with_reducible apply Keeps.sramWf (linkViolation_keeps _ _ _ _ _ _ _); decide)
    | with_reducible apply deliver_sramWf
    | (with_reducible apply Keeps.sramWf (lk_keeps _ _); decide)
    | split

theorem settlePacket_sramWf (d : Dev) (port : Fin 4) (rx : Reception) (p : Packet) (frame : Option Discard) (place : Option Discard) (hw : SramWf d) : SramWf (d.settlePacket port rx p frame place) := by
  unfold Dev.settlePacket
  try dsimp only
  repeat' first
    | with_reducible assumption
    | (with_reducible apply Keeps.sramWf (rejectPacket_keeps _ _ _ _ _); decide)
    | with_reducible apply acceptPacket_sramWf
    | split

theorem detectorCopy_sramWf (d : Dev) (k : Nat) (hw : SramWf d) : SramWf (d.detectorCopy k) := by
  unfold Dev.detectorCopy
  try dsimp only
  repeat' first
    | with_reducible assumption
    | with_reducible apply memWrite_sramWf
    | (with_reducible apply Keeps.sramWf (onRinse_keeps _ _); decide)

theorem runsLate_sramWf (d : Dev) (a0 : List Handle) (hw : SramWf d) : SramWf (d.runsLate a0) := by
  induction a0 generalizing d with
  | nil =>
    unfold Dev.runsLate
    try dsimp only
    repeat' first
      | with_reducible assumption
  | cons x xs ih =>
    unfold Dev.runsLate
    try dsimp only
    repeat' first
      | with_reducible assumption
      | with_reducible apply ih
      | with_reducible apply runLate_sramWf

theorem endFrame_sramWf (d : Dev) (means : List (Nat × Nat)) (truncated : Bool) (blanked : Bool) (hw : SramWf d) : SramWf (d.endFrame means truncated blanked) := by
  unfold Dev.endFrame
  try dsimp only
  repeat' first
    | with_reducible assumption
    | (with_reducible apply Keeps.sramWf (onWr_keeps _ _); decide)
    | with_reducible apply detectorCopy_sramWf
    | (with_reducible apply Keeps.sramWf (forgetWindows_keeps _); decide)
    | (with_reducible apply Keeps.sramWf (postAll_keeps _ _); decide)
    | (with_reducible apply Keeps.sramWf (raise_keeps _ _ _); decide)
    | (with_reducible apply Keeps.sramWf (prefilter_keeps _ _); decide)

theorem takeBoundary_sramWf (d : Dev) (means : List (Nat × Nat)) (hw : SramWf d) : SramWf (d.takeBoundary means) := by
  unfold Dev.takeBoundary
  try dsimp only
  repeat' first
    | with_reducible assumption
    | with_reducible apply runsLate_sramWf
    | with_reducible apply endFrame_sramWf
    | (with_reducible apply Keeps.sramWf (runsMissed_keeps _ _ _); decide)
    | (with_reducible apply Keeps.sramWf (onWr_keeps _ _); decide)

theorem exitFrame_sramWf (d : Dev) (hw : SramWf d) : SramWf (d.exitFrame) := by
  unfold Dev.exitFrame
  try dsimp only
  repeat' first
    | with_reducible assumption
    | (with_reducible apply Keeps.sramWf (onWr_keeps _ _); decide)
    | (with_reducible apply Keeps.sramWf (toEdge_keeps _); decide)
    | with_reducible apply writeRecords_sramWf
    | with_reducible apply frameWritten_sramWf
    | with_reducible apply endFrame_sramWf
    | split

theorem stopWork_sramWf (d : Dev) (hw : SramWf d) : SramWf (d.stopWork) := by
  unfold Dev.stopWork
  try dsimp only
  repeat' first
    | with_reducible assumption
    | (with_reducible apply Keeps.sramWf (onPwr_keeps _ _); decide)
    | (with_reducible apply Keeps.sramWf (stopChains_keeps _); decide)
    | (with_reducible apply Keeps.sramWf (dropCaches_keeps _); decide)
    | (with_reducible apply Keeps.sramWf (linkStops_keeps _); decide)
    | (with_reducible apply Keeps.sramWf (raise_keeps _ _ _); decide)
    | (with_reducible apply Keeps.sramWf (tripPower_keeps _); decide)
    | with_reducible apply endRuns_sramWf
    | (with_reducible apply Keeps.sramWf (checkpointsStopped_keeps _); decide)

theorem resume_sramWf (d : Dev) (c : PowerCause) (hw : SramWf d) : SramWf (d.resume c) := by
  unfold Dev.resume
  try dsimp only
  repeat' first
    | with_reducible assumption
    | (with_reducible apply Keeps.sramWf (onStore_keeps _ _); decide)
    | (with_reducible apply Keeps.sramWf (linkRuns_keeps _); decide)
    | with_reducible apply exitFrame_sramWf
    | (with_reducible apply Keeps.sramWf (enterPower_keeps _ _ _); decide)
    | (with_reducible apply Keeps.sramWf (resumeOps_keeps _ _); decide)
    | (with_reducible apply Keeps.sramWf (onPwr_keeps _ _); decide)
    | split

theorem holdEntry_sramWf (d : Dev) (c : PowerCause) (hw : SramWf d) : SramWf (d.holdEntry c) := by
  unfold Dev.holdEntry
  try dsimp only
  repeat' first
    | with_reducible assumption
    | (with_reducible apply Keeps.sramWf (storePfail_keeps _); decide)
    | (with_reducible apply Keeps.sramWf (enterPower_keeps _ _ _); decide)
    | with_reducible apply stopWork_sramWf

theorem cmdTedsLog_sramWf (x : Ctx) (d : Dev) (hw : SramWf d) : SramWf (cmdTedsLog.act x d).1 := by
  unfold cmdTedsLog blockCommand
  try dsimp only
  repeat' first
    | with_reducible assumption
    | (with_reducible apply Keeps.sramWf (onFree_keeps _ _); decide)
    | with_reducible apply memWrite_sramWf

theorem cmdTachStatus_sramWf (x : Ctx) (d : Dev) (hw : SramWf d) : SramWf (cmdTachStatus.act x d).1 := by
  unfold cmdTachStatus blockCommand
  try dsimp only
  repeat' first
    | with_reducible assumption
    | (with_reducible apply Keeps.sramWf (onFree_keeps _ _); decide)
    | with_reducible apply memWrite_sramWf

theorem cmdWrStatus_sramWf (x : Ctx) (d : Dev) (hw : SramWf d) : SramWf (cmdWrStatus.act x d).1 := by
  unfold cmdWrStatus blockCommand
  try dsimp only
  repeat' first
    | with_reducible assumption
    | (with_reducible apply Keeps.sramWf (onFree_keeps _ _); decide)
    | with_reducible apply memWrite_sramWf

theorem cmdRnStatus_sramWf (x : Ctx) (d : Dev) (hw : SramWf d) : SramWf (cmdRnStatus.act x d).1 := by
  unfold cmdRnStatus blockCommand
  try dsimp only
  repeat' first
    | with_reducible assumption
    | (with_reducible apply Keeps.sramWf (onFree_keeps _ _); decide)
    | with_reducible apply memWrite_sramWf

theorem cmdMemClear_sramWf (x : Ctx) (d : Dev) (hw : SramWf d) : SramWf (cmdMemClear.act x d).1 := by
  unfold cmdMemClear
  exact Sram.clearUnits_wf _ _ _ hw

theorem cmdSpLedger_sramWf (x : Ctx) (d : Dev) (hw : SramWf d) : SramWf (cmdSpLedger.act x d).1 := by
  unfold cmdSpLedger blockCommand
  try dsimp only
  repeat' first
    | with_reducible assumption
    | (with_reducible apply Keeps.sramWf (onFree_keeps _ _); decide)
    | with_reducible apply memWrite_sramWf

theorem cmdVeStatus_sramWf (x : Ctx) (d : Dev) (hw : SramWf d) : SramWf (cmdVeStatus.act x d).1 := by
  unfold cmdVeStatus blockCommand
  try dsimp only
  repeat' first
    | with_reducible assumption
    | (with_reducible apply Keeps.sramWf (onFree_keeps _ _); decide)
    | with_reducible apply memWrite_sramWf

theorem cmdPsStatus_sramWf (x : Ctx) (d : Dev) (hw : SramWf d) : SramWf (cmdPsStatus.act x d).1 := by
  unfold cmdPsStatus blockCommand
  try dsimp only
  repeat' first
    | with_reducible assumption
    | (with_reducible apply Keeps.sramWf (onFree_keeps _ _); decide)
    | with_reducible apply memWrite_sramWf

theorem cmdPsLog_sramWf (x : Ctx) (d : Dev) (hw : SramWf d) : SramWf (cmdPsLog.act x d).1 := by
  unfold cmdPsLog blockCommand
  try dsimp only
  repeat' first
    | with_reducible assumption
    | (with_reducible apply Keeps.sramWf (onFree_keeps _ _); decide)
    | with_reducible apply memWrite_sramWf

theorem cmdPsGet_sramWf (x : Ctx) (d : Dev) (hw : SramWf d) : SramWf (cmdPsGet.act x d).1 := by
  unfold cmdPsGet
  try dsimp only
  repeat' first
    | with_reducible assumption
    | with_reducible apply memWrite_sramWf

theorem cmdPrStatus_sramWf (x : Ctx) (d : Dev) (hw : SramWf d) : SramWf (cmdPrStatus.act x d).1 := by
  unfold cmdPrStatus blockCommand
  try dsimp only
  repeat' first
    | with_reducible assumption
    | (with_reducible apply Keeps.sramWf (onFree_keeps _ _); decide)
    | with_reducible apply memWrite_sramWf

theorem cmdTileStatus_sramWf (x : Ctx) (d : Dev) (hw : SramWf d) : SramWf (cmdTileStatus.act x d).1 := by
  unfold cmdTileStatus blockCommand
  try dsimp only
  repeat' first
    | with_reducible assumption
    | (with_reducible apply Keeps.sramWf (onFree_keeps _ _); decide)
    | with_reducible apply memWrite_sramWf

theorem cmdMdLoad_sramWf (x : Ctx) (d : Dev) (hw : SramWf d) : SramWf (cmdMdLoad.act x d).1 := by
  unfold cmdMdLoad
  try dsimp only
  repeat' first
    | with_reducible assumption
    | (with_reducible apply Keeps.sramWf (readImageFlash_keeps _ _); decide)
    | (with_reducible apply Keeps.sramWf (longEnd_keeps _ _ _ _ _); decide)
    | with_reducible apply reserve_sramWf
    | split

theorem cmdMdStatus_sramWf (x : Ctx) (d : Dev) (hw : SramWf d) : SramWf (cmdMdStatus.act x d).1 := by
  unfold cmdMdStatus blockCommand
  try dsimp only
  repeat' first
    | with_reducible assumption
    | (with_reducible apply Keeps.sramWf (onFree_keeps _ _); decide)
    | with_reducible apply memWrite_sramWf

theorem cmdLnStatus_sramWf (x : Ctx) (d : Dev) (hw : SramWf d) : SramWf (cmdLnStatus.act x d).1 := by
  unfold cmdLnStatus blockCommand
  try dsimp only
  repeat' first
    | with_reducible assumption
    | (with_reducible apply Keeps.sramWf (onFree_keeps _ _); decide)
    | with_reducible apply memWrite_sramWf

theorem cmdLnRecommission_sramWf (x : Ctx) (d : Dev) (hw : SramWf d) : SramWf (cmdLnRecommission.act x d).1 := by
  unfold cmdLnRecommission
  try dsimp only
  repeat' first
    | with_reducible assumption
    | (with_reducible apply Keeps.sramWf (onLearn_keeps _ _ _); decide)
    | with_reducible apply memWrite_sramWf
    | split

theorem cmdLkStatus_sramWf (x : Ctx) (d : Dev) (hw : SramWf d) : SramWf (cmdLkStatus.act x d).1 := by
  unfold cmdLkStatus blockCommand
  try dsimp only
  repeat' first
    | with_reducible assumption
    | (with_reducible apply Keeps.sramWf (onFree_keeps _ _); decide)
    | with_reducible apply memWrite_sramWf

theorem cmdLkPartners_sramWf (x : Ctx) (d : Dev) (hw : SramWf d) : SramWf (cmdLkPartners.act x d).1 := by
  unfold cmdLkPartners blockCommand
  try dsimp only
  repeat' first
    | with_reducible assumption
    | (with_reducible apply Keeps.sramWf (onFree_keeps _ _); decide)
    | with_reducible apply memWrite_sramWf

theorem cmdLkLog_sramWf (x : Ctx) (d : Dev) (hw : SramWf d) : SramWf (cmdLkLog.act x d).1 := by
  unfold cmdLkLog blockCommand
  try dsimp only
  repeat' first
    | with_reducible assumption
    | (with_reducible apply Keeps.sramWf (onFree_keeps _ _); decide)
    | with_reducible apply memWrite_sramWf

theorem cmdLkMailRead_sramWf (x : Ctx) (d : Dev) (hw : SramWf d) : SramWf (cmdLkMailRead.act x d).1 := by
  unfold cmdLkMailRead
  try dsimp only
  repeat' first
    | with_reducible assumption
    | (with_reducible apply Keeps.sramWf (lk_keeps _ _); decide)
    | with_reducible apply memWrite_sramWf
    | split

theorem cmdBkStatus_sramWf (x : Ctx) (d : Dev) (hw : SramWf d) : SramWf (cmdBkStatus.act x d).1 := by
  unfold cmdBkStatus blockCommand
  try dsimp only
  repeat' first
    | with_reducible assumption
    | (with_reducible apply Keeps.sramWf (onFree_keeps _ _); decide)
    | with_reducible apply memWrite_sramWf

end Sys2Proof.Laws
end

