-- ==== Sys2Proof/Laws/State.lean ====
section
/-!
SUPPORT. One lemma per field of the device and per update of it, true by rfl: no proof unfolds a record update.
-/

namespace Sys2Proof.Laws

open Machine

/-! ## onClk -/

@[simp] theorem onClk_clk (d : Dev) (f : Clock → Clock) : (d.onClk f).clk = f d.clk := rfl
@[simp] theorem onClk_pwr (d : Dev) (f : Clock → Clock) : (d.onClk f).pwr = d.pwr := rfl
@[simp] theorem onClk_keep (d : Dev) (f : Clock → Clock) : (d.onClk f).keep = d.keep := rfl
@[simp] theorem onClk_fuse (d : Dev) (f : Clock → Clock) : (d.onClk f).fuse = d.fuse := rfl
@[simp] theorem onClk_host (d : Dev) (f : Clock → Clock) : (d.onClk f).host = d.host := rfl
@[simp] theorem onClk_grants (d : Dev) (f : Clock → Clock) : (d.onClk f).grants = d.grants := rfl
@[simp] theorem onClk_fe (d : Dev) (f : Clock → Clock) : (d.onClk f).fe = d.fe := rfl
@[simp] theorem onClk_teds (d : Dev) (f : Clock → Clock) : (d.onClk f).teds = d.teds := rfl
@[simp] theorem onClk_tachs (d : Dev) (f : Clock → Clock) : (d.onClk f).tachs = d.tachs := rfl
@[simp] theorem onClk_wr (d : Dev) (f : Clock → Clock) : (d.onClk f).wr = d.wr := rfl
@[simp] theorem onClk_guard (d : Dev) (f : Clock → Clock) : (d.onClk f).guard = d.guard := rfl
@[simp] theorem onClk_rinse (d : Dev) (f : Clock → Clock) : (d.onClk f).rinse = d.rinse := rfl
@[simp] theorem onClk_tiles (d : Dev) (f : Clock → Clock) : (d.onClk f).tiles = d.tiles := rfl
@[simp] theorem onClk_upkeep (d : Dev) (f : Clock → Clock) : (d.onClk f).upkeep = d.upkeep := rfl
@[simp] theorem onClk_horizons (d : Dev) (f : Clock → Clock) : (d.onClk f).horizons = d.horizons := rfl
@[simp] theorem onClk_models (d : Dev) (f : Clock → Clock) : (d.onClk f).models = d.models := rfl
@[simp] theorem onClk_spool (d : Dev) (f : Clock → Clock) : (d.onClk f).spool = d.spool := rfl
@[simp] theorem onClk_sram (d : Dev) (f : Clock → Clock) : (d.onClk f).sram = d.sram := rfl
@[simp] theorem onClk_store (d : Dev) (f : Clock → Clock) : (d.onClk f).store = d.store := rfl
@[simp] theorem onClk_link (d : Dev) (f : Clock → Clock) : (d.onClk f).link = d.link := rfl
@[simp] theorem onClk_flash (d : Dev) (f : Clock → Clock) : (d.onClk f).flash = d.flash := rfl
@[simp] theorem onClk_qspi (d : Dev) (f : Clock → Clock) : (d.onClk f).qspi = d.qspi := rfl
@[simp] theorem onClk_free (d : Dev) (f : Clock → Clock) : (d.onClk f).free = d.free := rfl

/-! ## onPwr -/

@[simp] theorem onPwr_clk (d : Dev) (f : Pwr → Pwr) : (d.onPwr f).clk = d.clk := rfl
@[simp] theorem onPwr_pwr (d : Dev) (f : Pwr → Pwr) : (d.onPwr f).pwr = f d.pwr := rfl
@[simp] theorem onPwr_keep (d : Dev) (f : Pwr → Pwr) : (d.onPwr f).keep = d.keep := rfl
@[simp] theorem onPwr_fuse (d : Dev) (f : Pwr → Pwr) : (d.onPwr f).fuse = d.fuse := rfl
@[simp] theorem onPwr_host (d : Dev) (f : Pwr → Pwr) : (d.onPwr f).host = d.host := rfl
@[simp] theorem onPwr_grants (d : Dev) (f : Pwr → Pwr) : (d.onPwr f).grants = d.grants := rfl
@[simp] theorem onPwr_fe (d : Dev) (f : Pwr → Pwr) : (d.onPwr f).fe = d.fe := rfl
@[simp] theorem onPwr_teds (d : Dev) (f : Pwr → Pwr) : (d.onPwr f).teds = d.teds := rfl
@[simp] theorem onPwr_tachs (d : Dev) (f : Pwr → Pwr) : (d.onPwr f).tachs = d.tachs := rfl
@[simp] theorem onPwr_wr (d : Dev) (f : Pwr → Pwr) : (d.onPwr f).wr = d.wr := rfl
@[simp] theorem onPwr_guard (d : Dev) (f : Pwr → Pwr) : (d.onPwr f).guard = d.guard := rfl
@[simp] theorem onPwr_rinse (d : Dev) (f : Pwr → Pwr) : (d.onPwr f).rinse = d.rinse := rfl
@[simp] theorem onPwr_tiles (d : Dev) (f : Pwr → Pwr) : (d.onPwr f).tiles = d.tiles := rfl
@[simp] theorem onPwr_upkeep (d : Dev) (f : Pwr → Pwr) : (d.onPwr f).upkeep = d.upkeep := rfl
@[simp] theorem onPwr_horizons (d : Dev) (f : Pwr → Pwr) : (d.onPwr f).horizons = d.horizons := rfl
@[simp] theorem onPwr_models (d : Dev) (f : Pwr → Pwr) : (d.onPwr f).models = d.models := rfl
@[simp] theorem onPwr_spool (d : Dev) (f : Pwr → Pwr) : (d.onPwr f).spool = d.spool := rfl
@[simp] theorem onPwr_sram (d : Dev) (f : Pwr → Pwr) : (d.onPwr f).sram = d.sram := rfl
@[simp] theorem onPwr_store (d : Dev) (f : Pwr → Pwr) : (d.onPwr f).store = d.store := rfl
@[simp] theorem onPwr_link (d : Dev) (f : Pwr → Pwr) : (d.onPwr f).link = d.link := rfl
@[simp] theorem onPwr_flash (d : Dev) (f : Pwr → Pwr) : (d.onPwr f).flash = d.flash := rfl
@[simp] theorem onPwr_qspi (d : Dev) (f : Pwr → Pwr) : (d.onPwr f).qspi = d.qspi := rfl
@[simp] theorem onPwr_free (d : Dev) (f : Pwr → Pwr) : (d.onPwr f).free = d.free := rfl

/-! ## onKeep -/

@[simp] theorem onKeep_clk (d : Dev) (f : Keep → Keep) : (d.onKeep f).clk = d.clk := rfl
@[simp] theorem onKeep_pwr (d : Dev) (f : Keep → Keep) : (d.onKeep f).pwr = d.pwr := rfl
@[simp] theorem onKeep_keep (d : Dev) (f : Keep → Keep) : (d.onKeep f).keep = f d.keep := rfl
@[simp] theorem onKeep_fuse (d : Dev) (f : Keep → Keep) : (d.onKeep f).fuse = d.fuse := rfl
@[simp] theorem onKeep_host (d : Dev) (f : Keep → Keep) : (d.onKeep f).host = d.host := rfl
@[simp] theorem onKeep_grants (d : Dev) (f : Keep → Keep) : (d.onKeep f).grants = d.grants := rfl
@[simp] theorem onKeep_fe (d : Dev) (f : Keep → Keep) : (d.onKeep f).fe = d.fe := rfl
@[simp] theorem onKeep_teds (d : Dev) (f : Keep → Keep) : (d.onKeep f).teds = d.teds := rfl
@[simp] theorem onKeep_tachs (d : Dev) (f : Keep → Keep) : (d.onKeep f).tachs = d.tachs := rfl
@[simp] theorem onKeep_wr (d : Dev) (f : Keep → Keep) : (d.onKeep f).wr = d.wr := rfl
@[simp] theorem onKeep_guard (d : Dev) (f : Keep → Keep) : (d.onKeep f).guard = d.guard := rfl
@[simp] theorem onKeep_rinse (d : Dev) (f : Keep → Keep) : (d.onKeep f).rinse = d.rinse := rfl
@[simp] theorem onKeep_tiles (d : Dev) (f : Keep → Keep) : (d.onKeep f).tiles = d.tiles := rfl
@[simp] theorem onKeep_upkeep (d : Dev) (f : Keep → Keep) : (d.onKeep f).upkeep = d.upkeep := rfl
@[simp] theorem onKeep_horizons (d : Dev) (f : Keep → Keep) : (d.onKeep f).horizons = d.horizons := rfl
@[simp] theorem onKeep_models (d : Dev) (f : Keep → Keep) : (d.onKeep f).models = d.models := rfl
@[simp] theorem onKeep_spool (d : Dev) (f : Keep → Keep) : (d.onKeep f).spool = d.spool := rfl
@[simp] theorem onKeep_sram (d : Dev) (f : Keep → Keep) : (d.onKeep f).sram = d.sram := rfl
@[simp] theorem onKeep_store (d : Dev) (f : Keep → Keep) : (d.onKeep f).store = d.store := rfl
@[simp] theorem onKeep_link (d : Dev) (f : Keep → Keep) : (d.onKeep f).link = d.link := rfl
@[simp] theorem onKeep_flash (d : Dev) (f : Keep → Keep) : (d.onKeep f).flash = d.flash := rfl
@[simp] theorem onKeep_qspi (d : Dev) (f : Keep → Keep) : (d.onKeep f).qspi = d.qspi := rfl
@[simp] theorem onKeep_free (d : Dev) (f : Keep → Keep) : (d.onKeep f).free = d.free := rfl

/-! ## onFuse -/

@[simp] theorem onFuse_clk (d : Dev) (f : FusePort → FusePort) : (d.onFuse f).clk = d.clk := rfl
@[simp] theorem onFuse_pwr (d : Dev) (f : FusePort → FusePort) : (d.onFuse f).pwr = d.pwr := rfl
@[simp] theorem onFuse_keep (d : Dev) (f : FusePort → FusePort) : (d.onFuse f).keep = d.keep := rfl
@[simp] theorem onFuse_fuse (d : Dev) (f : FusePort → FusePort) : (d.onFuse f).fuse = f d.fuse := rfl
@[simp] theorem onFuse_host (d : Dev) (f : FusePort → FusePort) : (d.onFuse f).host = d.host := rfl
@[simp] theorem onFuse_grants (d : Dev) (f : FusePort → FusePort) : (d.onFuse f).grants = d.grants := rfl
@[simp] theorem onFuse_fe (d : Dev) (f : FusePort → FusePort) : (d.onFuse f).fe = d.fe := rfl
@[simp] theorem onFuse_teds (d : Dev) (f : FusePort → FusePort) : (d.onFuse f).teds = d.teds := rfl
@[simp] theorem onFuse_tachs (d : Dev) (f : FusePort → FusePort) : (d.onFuse f).tachs = d.tachs := rfl
@[simp] theorem onFuse_wr (d : Dev) (f : FusePort → FusePort) : (d.onFuse f).wr = d.wr := rfl
@[simp] theorem onFuse_guard (d : Dev) (f : FusePort → FusePort) : (d.onFuse f).guard = d.guard := rfl
@[simp] theorem onFuse_rinse (d : Dev) (f : FusePort → FusePort) : (d.onFuse f).rinse = d.rinse := rfl
@[simp] theorem onFuse_tiles (d : Dev) (f : FusePort → FusePort) : (d.onFuse f).tiles = d.tiles := rfl
@[simp] theorem onFuse_upkeep (d : Dev) (f : FusePort → FusePort) : (d.onFuse f).upkeep = d.upkeep := rfl
@[simp] theorem onFuse_horizons (d : Dev) (f : FusePort → FusePort) : (d.onFuse f).horizons = d.horizons := rfl
@[simp] theorem onFuse_models (d : Dev) (f : FusePort → FusePort) : (d.onFuse f).models = d.models := rfl
@[simp] theorem onFuse_spool (d : Dev) (f : FusePort → FusePort) : (d.onFuse f).spool = d.spool := rfl
@[simp] theorem onFuse_sram (d : Dev) (f : FusePort → FusePort) : (d.onFuse f).sram = d.sram := rfl
@[simp] theorem onFuse_store (d : Dev) (f : FusePort → FusePort) : (d.onFuse f).store = d.store := rfl
@[simp] theorem onFuse_link (d : Dev) (f : FusePort → FusePort) : (d.onFuse f).link = d.link := rfl
@[simp] theorem onFuse_flash (d : Dev) (f : FusePort → FusePort) : (d.onFuse f).flash = d.flash := rfl
@[simp] theorem onFuse_qspi (d : Dev) (f : FusePort → FusePort) : (d.onFuse f).qspi = d.qspi := rfl
@[simp] theorem onFuse_free (d : Dev) (f : FusePort → FusePort) : (d.onFuse f).free = d.free := rfl

/-! ## onHost -/

@[simp] theorem onHost_clk (d : Dev) (f : HostSide → HostSide) : (d.onHost f).clk = d.clk := rfl
@[simp] theorem onHost_pwr (d : Dev) (f : HostSide → HostSide) : (d.onHost f).pwr = d.pwr := rfl
@[simp] theorem onHost_keep (d : Dev) (f : HostSide → HostSide) : (d.onHost f).keep = d.keep := rfl
@[simp] theorem onHost_fuse (d : Dev) (f : HostSide → HostSide) : (d.onHost f).fuse = d.fuse := rfl
@[simp] theorem onHost_host (d : Dev) (f : HostSide → HostSide) : (d.onHost f).host = f d.host := rfl
@[simp] theorem onHost_grants (d : Dev) (f : HostSide → HostSide) : (d.onHost f).grants = d.grants := rfl
@[simp] theorem onHost_fe (d : Dev) (f : HostSide → HostSide) : (d.onHost f).fe = d.fe := rfl
@[simp] theorem onHost_teds (d : Dev) (f : HostSide → HostSide) : (d.onHost f).teds = d.teds := rfl
@[simp] theorem onHost_tachs (d : Dev) (f : HostSide → HostSide) : (d.onHost f).tachs = d.tachs := rfl
@[simp] theorem onHost_wr (d : Dev) (f : HostSide → HostSide) : (d.onHost f).wr = d.wr := rfl
@[simp] theorem onHost_guard (d : Dev) (f : HostSide → HostSide) : (d.onHost f).guard = d.guard := rfl
@[simp] theorem onHost_rinse (d : Dev) (f : HostSide → HostSide) : (d.onHost f).rinse = d.rinse := rfl
@[simp] theorem onHost_tiles (d : Dev) (f : HostSide → HostSide) : (d.onHost f).tiles = d.tiles := rfl
@[simp] theorem onHost_upkeep (d : Dev) (f : HostSide → HostSide) : (d.onHost f).upkeep = d.upkeep := rfl
@[simp] theorem onHost_horizons (d : Dev) (f : HostSide → HostSide) : (d.onHost f).horizons = d.horizons := rfl
@[simp] theorem onHost_models (d : Dev) (f : HostSide → HostSide) : (d.onHost f).models = d.models := rfl
@[simp] theorem onHost_spool (d : Dev) (f : HostSide → HostSide) : (d.onHost f).spool = d.spool := rfl
@[simp] theorem onHost_sram (d : Dev) (f : HostSide → HostSide) : (d.onHost f).sram = d.sram := rfl
@[simp] theorem onHost_store (d : Dev) (f : HostSide → HostSide) : (d.onHost f).store = d.store := rfl
@[simp] theorem onHost_link (d : Dev) (f : HostSide → HostSide) : (d.onHost f).link = d.link := rfl
@[simp] theorem onHost_flash (d : Dev) (f : HostSide → HostSide) : (d.onHost f).flash = d.flash := rfl
@[simp] theorem onHost_qspi (d : Dev) (f : HostSide → HostSide) : (d.onHost f).qspi = d.qspi := rfl
@[simp] theorem onHost_free (d : Dev) (f : HostSide → HostSide) : (d.onHost f).free = d.free := rfl

/-! ## onGrants -/

@[simp] theorem onGrants_clk (d : Dev) (f : Vector Grants 4 → Vector Grants 4) : (d.onGrants f).clk = d.clk := rfl
@[simp] theorem onGrants_pwr (d : Dev) (f : Vector Grants 4 → Vector Grants 4) : (d.onGrants f).pwr = d.pwr := rfl
@[simp] theorem onGrants_keep (d : Dev) (f : Vector Grants 4 → Vector Grants 4) : (d.onGrants f).keep = d.keep := rfl
@[simp] theorem onGrants_fuse (d : Dev) (f : Vector Grants 4 → Vector Grants 4) : (d.onGrants f).fuse = d.fuse := rfl
@[simp] theorem onGrants_host (d : Dev) (f : Vector Grants 4 → Vector Grants 4) : (d.onGrants f).host = d.host := rfl
@[simp] theorem onGrants_grants (d : Dev) (f : Vector Grants 4 → Vector Grants 4) : (d.onGrants f).grants = f d.grants := rfl
@[simp] theorem onGrants_fe (d : Dev) (f : Vector Grants 4 → Vector Grants 4) : (d.onGrants f).fe = d.fe := rfl
@[simp] theorem onGrants_teds (d : Dev) (f : Vector Grants 4 → Vector Grants 4) : (d.onGrants f).teds = d.teds := rfl
@[simp] theorem onGrants_tachs (d : Dev) (f : Vector Grants 4 → Vector Grants 4) : (d.onGrants f).tachs = d.tachs := rfl
@[simp] theorem onGrants_wr (d : Dev) (f : Vector Grants 4 → Vector Grants 4) : (d.onGrants f).wr = d.wr := rfl
@[simp] theorem onGrants_guard (d : Dev) (f : Vector Grants 4 → Vector Grants 4) : (d.onGrants f).guard = d.guard := rfl
@[simp] theorem onGrants_rinse (d : Dev) (f : Vector Grants 4 → Vector Grants 4) : (d.onGrants f).rinse = d.rinse := rfl
@[simp] theorem onGrants_tiles (d : Dev) (f : Vector Grants 4 → Vector Grants 4) : (d.onGrants f).tiles = d.tiles := rfl
@[simp] theorem onGrants_upkeep (d : Dev) (f : Vector Grants 4 → Vector Grants 4) : (d.onGrants f).upkeep = d.upkeep := rfl
@[simp] theorem onGrants_horizons (d : Dev) (f : Vector Grants 4 → Vector Grants 4) : (d.onGrants f).horizons = d.horizons := rfl
@[simp] theorem onGrants_models (d : Dev) (f : Vector Grants 4 → Vector Grants 4) : (d.onGrants f).models = d.models := rfl
@[simp] theorem onGrants_spool (d : Dev) (f : Vector Grants 4 → Vector Grants 4) : (d.onGrants f).spool = d.spool := rfl
@[simp] theorem onGrants_sram (d : Dev) (f : Vector Grants 4 → Vector Grants 4) : (d.onGrants f).sram = d.sram := rfl
@[simp] theorem onGrants_store (d : Dev) (f : Vector Grants 4 → Vector Grants 4) : (d.onGrants f).store = d.store := rfl
@[simp] theorem onGrants_link (d : Dev) (f : Vector Grants 4 → Vector Grants 4) : (d.onGrants f).link = d.link := rfl
@[simp] theorem onGrants_flash (d : Dev) (f : Vector Grants 4 → Vector Grants 4) : (d.onGrants f).flash = d.flash := rfl
@[simp] theorem onGrants_qspi (d : Dev) (f : Vector Grants 4 → Vector Grants 4) : (d.onGrants f).qspi = d.qspi := rfl
@[simp] theorem onGrants_free (d : Dev) (f : Vector Grants 4 → Vector Grants 4) : (d.onGrants f).free = d.free := rfl

/-! ## onFe -/

@[simp] theorem onFe_clk (d : Dev) (f : Vector Channel 24 → Vector Channel 24) : (d.onFe f).clk = d.clk := rfl
@[simp] theorem onFe_pwr (d : Dev) (f : Vector Channel 24 → Vector Channel 24) : (d.onFe f).pwr = d.pwr := rfl
@[simp] theorem onFe_keep (d : Dev) (f : Vector Channel 24 → Vector Channel 24) : (d.onFe f).keep = d.keep := rfl
@[simp] theorem onFe_fuse (d : Dev) (f : Vector Channel 24 → Vector Channel 24) : (d.onFe f).fuse = d.fuse := rfl
@[simp] theorem onFe_host (d : Dev) (f : Vector Channel 24 → Vector Channel 24) : (d.onFe f).host = d.host := rfl
@[simp] theorem onFe_grants (d : Dev) (f : Vector Channel 24 → Vector Channel 24) : (d.onFe f).grants = d.grants := rfl
@[simp] theorem onFe_fe (d : Dev) (f : Vector Channel 24 → Vector Channel 24) : (d.onFe f).fe = f d.fe := rfl
@[simp] theorem onFe_teds (d : Dev) (f : Vector Channel 24 → Vector Channel 24) : (d.onFe f).teds = d.teds := rfl
@[simp] theorem onFe_tachs (d : Dev) (f : Vector Channel 24 → Vector Channel 24) : (d.onFe f).tachs = d.tachs := rfl
@[simp] theorem onFe_wr (d : Dev) (f : Vector Channel 24 → Vector Channel 24) : (d.onFe f).wr = d.wr := rfl
@[simp] theorem onFe_guard (d : Dev) (f : Vector Channel 24 → Vector Channel 24) : (d.onFe f).guard = d.guard := rfl
@[simp] theorem onFe_rinse (d : Dev) (f : Vector Channel 24 → Vector Channel 24) : (d.onFe f).rinse = d.rinse := rfl
@[simp] theorem onFe_tiles (d : Dev) (f : Vector Channel 24 → Vector Channel 24) : (d.onFe f).tiles = d.tiles := rfl
@[simp] theorem onFe_upkeep (d : Dev) (f : Vector Channel 24 → Vector Channel 24) : (d.onFe f).upkeep = d.upkeep := rfl
@[simp] theorem onFe_horizons (d : Dev) (f : Vector Channel 24 → Vector Channel 24) : (d.onFe f).horizons = d.horizons := rfl
@[simp] theorem onFe_models (d : Dev) (f : Vector Channel 24 → Vector Channel 24) : (d.onFe f).models = d.models := rfl
@[simp] theorem onFe_spool (d : Dev) (f : Vector Channel 24 → Vector Channel 24) : (d.onFe f).spool = d.spool := rfl
@[simp] theorem onFe_sram (d : Dev) (f : Vector Channel 24 → Vector Channel 24) : (d.onFe f).sram = d.sram := rfl
@[simp] theorem onFe_store (d : Dev) (f : Vector Channel 24 → Vector Channel 24) : (d.onFe f).store = d.store := rfl
@[simp] theorem onFe_link (d : Dev) (f : Vector Channel 24 → Vector Channel 24) : (d.onFe f).link = d.link := rfl
@[simp] theorem onFe_flash (d : Dev) (f : Vector Channel 24 → Vector Channel 24) : (d.onFe f).flash = d.flash := rfl
@[simp] theorem onFe_qspi (d : Dev) (f : Vector Channel 24 → Vector Channel 24) : (d.onFe f).qspi = d.qspi := rfl
@[simp] theorem onFe_free (d : Dev) (f : Vector Channel 24 → Vector Channel 24) : (d.onFe f).free = d.free := rfl

/-! ## onTeds -/

@[simp] theorem onTeds_clk (d : Dev) (f : Teds → Teds) : (d.onTeds f).clk = d.clk := rfl
@[simp] theorem onTeds_pwr (d : Dev) (f : Teds → Teds) : (d.onTeds f).pwr = d.pwr := rfl
@[simp] theorem onTeds_keep (d : Dev) (f : Teds → Teds) : (d.onTeds f).keep = d.keep := rfl
@[simp] theorem onTeds_fuse (d : Dev) (f : Teds → Teds) : (d.onTeds f).fuse = d.fuse := rfl
@[simp] theorem onTeds_host (d : Dev) (f : Teds → Teds) : (d.onTeds f).host = d.host := rfl
@[simp] theorem onTeds_grants (d : Dev) (f : Teds → Teds) : (d.onTeds f).grants = d.grants := rfl
@[simp] theorem onTeds_fe (d : Dev) (f : Teds → Teds) : (d.onTeds f).fe = d.fe := rfl
@[simp] theorem onTeds_teds (d : Dev) (f : Teds → Teds) : (d.onTeds f).teds = f d.teds := rfl
@[simp] theorem onTeds_tachs (d : Dev) (f : Teds → Teds) : (d.onTeds f).tachs = d.tachs := rfl
@[simp] theorem onTeds_wr (d : Dev) (f : Teds → Teds) : (d.onTeds f).wr = d.wr := rfl
@[simp] theorem onTeds_guard (d : Dev) (f : Teds → Teds) : (d.onTeds f).guard = d.guard := rfl
@[simp] theorem onTeds_rinse (d : Dev) (f : Teds → Teds) : (d.onTeds f).rinse = d.rinse := rfl
@[simp] theorem onTeds_tiles (d : Dev) (f : Teds → Teds) : (d.onTeds f).tiles = d.tiles := rfl
@[simp] theorem onTeds_upkeep (d : Dev) (f : Teds → Teds) : (d.onTeds f).upkeep = d.upkeep := rfl
@[simp] theorem onTeds_horizons (d : Dev) (f : Teds → Teds) : (d.onTeds f).horizons = d.horizons := rfl
@[simp] theorem onTeds_models (d : Dev) (f : Teds → Teds) : (d.onTeds f).models = d.models := rfl
@[simp] theorem onTeds_spool (d : Dev) (f : Teds → Teds) : (d.onTeds f).spool = d.spool := rfl
@[simp] theorem onTeds_sram (d : Dev) (f : Teds → Teds) : (d.onTeds f).sram = d.sram := rfl
@[simp] theorem onTeds_store (d : Dev) (f : Teds → Teds) : (d.onTeds f).store = d.store := rfl
@[simp] theorem onTeds_link (d : Dev) (f : Teds → Teds) : (d.onTeds f).link = d.link := rfl
@[simp] theorem onTeds_flash (d : Dev) (f : Teds → Teds) : (d.onTeds f).flash = d.flash := rfl
@[simp] theorem onTeds_qspi (d : Dev) (f : Teds → Teds) : (d.onTeds f).qspi = d.qspi := rfl
@[simp] theorem onTeds_free (d : Dev) (f : Teds → Teds) : (d.onTeds f).free = d.free := rfl

/-! ## onTachs -/

@[simp] theorem onTachs_clk (d : Dev) (f : Vector Tach 4 → Vector Tach 4) : (d.onTachs f).clk = d.clk := rfl
@[simp] theorem onTachs_pwr (d : Dev) (f : Vector Tach 4 → Vector Tach 4) : (d.onTachs f).pwr = d.pwr := rfl
@[simp] theorem onTachs_keep (d : Dev) (f : Vector Tach 4 → Vector Tach 4) : (d.onTachs f).keep = d.keep := rfl
@[simp] theorem onTachs_fuse (d : Dev) (f : Vector Tach 4 → Vector Tach 4) : (d.onTachs f).fuse = d.fuse := rfl
@[simp] theorem onTachs_host (d : Dev) (f : Vector Tach 4 → Vector Tach 4) : (d.onTachs f).host = d.host := rfl
@[simp] theorem onTachs_grants (d : Dev) (f : Vector Tach 4 → Vector Tach 4) : (d.onTachs f).grants = d.grants := rfl
@[simp] theorem onTachs_fe (d : Dev) (f : Vector Tach 4 → Vector Tach 4) : (d.onTachs f).fe = d.fe := rfl
@[simp] theorem onTachs_teds (d : Dev) (f : Vector Tach 4 → Vector Tach 4) : (d.onTachs f).teds = d.teds := rfl
@[simp] theorem onTachs_tachs (d : Dev) (f : Vector Tach 4 → Vector Tach 4) : (d.onTachs f).tachs = f d.tachs := rfl
@[simp] theorem onTachs_wr (d : Dev) (f : Vector Tach 4 → Vector Tach 4) : (d.onTachs f).wr = d.wr := rfl
@[simp] theorem onTachs_guard (d : Dev) (f : Vector Tach 4 → Vector Tach 4) : (d.onTachs f).guard = d.guard := rfl
@[simp] theorem onTachs_rinse (d : Dev) (f : Vector Tach 4 → Vector Tach 4) : (d.onTachs f).rinse = d.rinse := rfl
@[simp] theorem onTachs_tiles (d : Dev) (f : Vector Tach 4 → Vector Tach 4) : (d.onTachs f).tiles = d.tiles := rfl
@[simp] theorem onTachs_upkeep (d : Dev) (f : Vector Tach 4 → Vector Tach 4) : (d.onTachs f).upkeep = d.upkeep := rfl
@[simp] theorem onTachs_horizons (d : Dev) (f : Vector Tach 4 → Vector Tach 4) : (d.onTachs f).horizons = d.horizons := rfl
@[simp] theorem onTachs_models (d : Dev) (f : Vector Tach 4 → Vector Tach 4) : (d.onTachs f).models = d.models := rfl
@[simp] theorem onTachs_spool (d : Dev) (f : Vector Tach 4 → Vector Tach 4) : (d.onTachs f).spool = d.spool := rfl
@[simp] theorem onTachs_sram (d : Dev) (f : Vector Tach 4 → Vector Tach 4) : (d.onTachs f).sram = d.sram := rfl
@[simp] theorem onTachs_store (d : Dev) (f : Vector Tach 4 → Vector Tach 4) : (d.onTachs f).store = d.store := rfl
@[simp] theorem onTachs_link (d : Dev) (f : Vector Tach 4 → Vector Tach 4) : (d.onTachs f).link = d.link := rfl
@[simp] theorem onTachs_flash (d : Dev) (f : Vector Tach 4 → Vector Tach 4) : (d.onTachs f).flash = d.flash := rfl
@[simp] theorem onTachs_qspi (d : Dev) (f : Vector Tach 4 → Vector Tach 4) : (d.onTachs f).qspi = d.qspi := rfl
@[simp] theorem onTachs_free (d : Dev) (f : Vector Tach 4 → Vector Tach 4) : (d.onTachs f).free = d.free := rfl

/-! ## onWr -/

@[simp] theorem onWr_clk (d : Dev) (f : Wringer → Wringer) : (d.onWr f).clk = d.clk := rfl
@[simp] theorem onWr_pwr (d : Dev) (f : Wringer → Wringer) : (d.onWr f).pwr = d.pwr := rfl
@[simp] theorem onWr_keep (d : Dev) (f : Wringer → Wringer) : (d.onWr f).keep = d.keep := rfl
@[simp] theorem onWr_fuse (d : Dev) (f : Wringer → Wringer) : (d.onWr f).fuse = d.fuse := rfl
@[simp] theorem onWr_host (d : Dev) (f : Wringer → Wringer) : (d.onWr f).host = d.host := rfl
@[simp] theorem onWr_grants (d : Dev) (f : Wringer → Wringer) : (d.onWr f).grants = d.grants := rfl
@[simp] theorem onWr_fe (d : Dev) (f : Wringer → Wringer) : (d.onWr f).fe = d.fe := rfl
@[simp] theorem onWr_teds (d : Dev) (f : Wringer → Wringer) : (d.onWr f).teds = d.teds := rfl
@[simp] theorem onWr_tachs (d : Dev) (f : Wringer → Wringer) : (d.onWr f).tachs = d.tachs := rfl
@[simp] theorem onWr_wr (d : Dev) (f : Wringer → Wringer) : (d.onWr f).wr = f d.wr := rfl
@[simp] theorem onWr_guard (d : Dev) (f : Wringer → Wringer) : (d.onWr f).guard = d.guard := rfl
@[simp] theorem onWr_rinse (d : Dev) (f : Wringer → Wringer) : (d.onWr f).rinse = d.rinse := rfl
@[simp] theorem onWr_tiles (d : Dev) (f : Wringer → Wringer) : (d.onWr f).tiles = d.tiles := rfl
@[simp] theorem onWr_upkeep (d : Dev) (f : Wringer → Wringer) : (d.onWr f).upkeep = d.upkeep := rfl
@[simp] theorem onWr_horizons (d : Dev) (f : Wringer → Wringer) : (d.onWr f).horizons = d.horizons := rfl
@[simp] theorem onWr_models (d : Dev) (f : Wringer → Wringer) : (d.onWr f).models = d.models := rfl
@[simp] theorem onWr_spool (d : Dev) (f : Wringer → Wringer) : (d.onWr f).spool = d.spool := rfl
@[simp] theorem onWr_sram (d : Dev) (f : Wringer → Wringer) : (d.onWr f).sram = d.sram := rfl
@[simp] theorem onWr_store (d : Dev) (f : Wringer → Wringer) : (d.onWr f).store = d.store := rfl
@[simp] theorem onWr_link (d : Dev) (f : Wringer → Wringer) : (d.onWr f).link = d.link := rfl
@[simp] theorem onWr_flash (d : Dev) (f : Wringer → Wringer) : (d.onWr f).flash = d.flash := rfl
@[simp] theorem onWr_qspi (d : Dev) (f : Wringer → Wringer) : (d.onWr f).qspi = d.qspi := rfl
@[simp] theorem onWr_free (d : Dev) (f : Wringer → Wringer) : (d.onWr f).free = d.free := rfl

/-! ## onGuard -/

@[simp] theorem onGuard_clk (d : Dev) (f : Guard → Guard) : (d.onGuard f).clk = d.clk := rfl
@[simp] theorem onGuard_pwr (d : Dev) (f : Guard → Guard) : (d.onGuard f).pwr = d.pwr := rfl
@[simp] theorem onGuard_keep (d : Dev) (f : Guard → Guard) : (d.onGuard f).keep = d.keep := rfl
@[simp] theorem onGuard_fuse (d : Dev) (f : Guard → Guard) : (d.onGuard f).fuse = d.fuse := rfl
@[simp] theorem onGuard_host (d : Dev) (f : Guard → Guard) : (d.onGuard f).host = d.host := rfl
@[simp] theorem onGuard_grants (d : Dev) (f : Guard → Guard) : (d.onGuard f).grants = d.grants := rfl
@[simp] theorem onGuard_fe (d : Dev) (f : Guard → Guard) : (d.onGuard f).fe = d.fe := rfl
@[simp] theorem onGuard_teds (d : Dev) (f : Guard → Guard) : (d.onGuard f).teds = d.teds := rfl
@[simp] theorem onGuard_tachs (d : Dev) (f : Guard → Guard) : (d.onGuard f).tachs = d.tachs := rfl
@[simp] theorem onGuard_wr (d : Dev) (f : Guard → Guard) : (d.onGuard f).wr = d.wr := rfl
@[simp] theorem onGuard_guard (d : Dev) (f : Guard → Guard) : (d.onGuard f).guard = f d.guard := rfl
@[simp] theorem onGuard_rinse (d : Dev) (f : Guard → Guard) : (d.onGuard f).rinse = d.rinse := rfl
@[simp] theorem onGuard_tiles (d : Dev) (f : Guard → Guard) : (d.onGuard f).tiles = d.tiles := rfl
@[simp] theorem onGuard_upkeep (d : Dev) (f : Guard → Guard) : (d.onGuard f).upkeep = d.upkeep := rfl
@[simp] theorem onGuard_horizons (d : Dev) (f : Guard → Guard) : (d.onGuard f).horizons = d.horizons := rfl
@[simp] theorem onGuard_models (d : Dev) (f : Guard → Guard) : (d.onGuard f).models = d.models := rfl
@[simp] theorem onGuard_spool (d : Dev) (f : Guard → Guard) : (d.onGuard f).spool = d.spool := rfl
@[simp] theorem onGuard_sram (d : Dev) (f : Guard → Guard) : (d.onGuard f).sram = d.sram := rfl
@[simp] theorem onGuard_store (d : Dev) (f : Guard → Guard) : (d.onGuard f).store = d.store := rfl
@[simp] theorem onGuard_link (d : Dev) (f : Guard → Guard) : (d.onGuard f).link = d.link := rfl
@[simp] theorem onGuard_flash (d : Dev) (f : Guard → Guard) : (d.onGuard f).flash = d.flash := rfl
@[simp] theorem onGuard_qspi (d : Dev) (f : Guard → Guard) : (d.onGuard f).qspi = d.qspi := rfl
@[simp] theorem onGuard_free (d : Dev) (f : Guard → Guard) : (d.onGuard f).free = d.free := rfl

/-! ## onRinse -/

@[simp] theorem onRinse_clk (d : Dev) (f : Rinse → Rinse) : (d.onRinse f).clk = d.clk := rfl
@[simp] theorem onRinse_pwr (d : Dev) (f : Rinse → Rinse) : (d.onRinse f).pwr = d.pwr := rfl
@[simp] theorem onRinse_keep (d : Dev) (f : Rinse → Rinse) : (d.onRinse f).keep = d.keep := rfl
@[simp] theorem onRinse_fuse (d : Dev) (f : Rinse → Rinse) : (d.onRinse f).fuse = d.fuse := rfl
@[simp] theorem onRinse_host (d : Dev) (f : Rinse → Rinse) : (d.onRinse f).host = d.host := rfl
@[simp] theorem onRinse_grants (d : Dev) (f : Rinse → Rinse) : (d.onRinse f).grants = d.grants := rfl
@[simp] theorem onRinse_fe (d : Dev) (f : Rinse → Rinse) : (d.onRinse f).fe = d.fe := rfl
@[simp] theorem onRinse_teds (d : Dev) (f : Rinse → Rinse) : (d.onRinse f).teds = d.teds := rfl
@[simp] theorem onRinse_tachs (d : Dev) (f : Rinse → Rinse) : (d.onRinse f).tachs = d.tachs := rfl
@[simp] theorem onRinse_wr (d : Dev) (f : Rinse → Rinse) : (d.onRinse f).wr = d.wr := rfl
@[simp] theorem onRinse_guard (d : Dev) (f : Rinse → Rinse) : (d.onRinse f).guard = d.guard := rfl
@[simp] theorem onRinse_rinse (d : Dev) (f : Rinse → Rinse) : (d.onRinse f).rinse = f d.rinse := rfl
@[simp] theorem onRinse_tiles (d : Dev) (f : Rinse → Rinse) : (d.onRinse f).tiles = d.tiles := rfl
@[simp] theorem onRinse_upkeep (d : Dev) (f : Rinse → Rinse) : (d.onRinse f).upkeep = d.upkeep := rfl
@[simp] theorem onRinse_horizons (d : Dev) (f : Rinse → Rinse) : (d.onRinse f).horizons = d.horizons := rfl
@[simp] theorem onRinse_models (d : Dev) (f : Rinse → Rinse) : (d.onRinse f).models = d.models := rfl
@[simp] theorem onRinse_spool (d : Dev) (f : Rinse → Rinse) : (d.onRinse f).spool = d.spool := rfl
@[simp] theorem onRinse_sram (d : Dev) (f : Rinse → Rinse) : (d.onRinse f).sram = d.sram := rfl
@[simp] theorem onRinse_store (d : Dev) (f : Rinse → Rinse) : (d.onRinse f).store = d.store := rfl
@[simp] theorem onRinse_link (d : Dev) (f : Rinse → Rinse) : (d.onRinse f).link = d.link := rfl
@[simp] theorem onRinse_flash (d : Dev) (f : Rinse → Rinse) : (d.onRinse f).flash = d.flash := rfl
@[simp] theorem onRinse_qspi (d : Dev) (f : Rinse → Rinse) : (d.onRinse f).qspi = d.qspi := rfl
@[simp] theorem onRinse_free (d : Dev) (f : Rinse → Rinse) : (d.onRinse f).free = d.free := rfl

/-! ## onTiles -/

@[simp] theorem onTiles_clk (d : Dev) (f : Vector Tile 48 → Vector Tile 48) : (d.onTiles f).clk = d.clk := rfl
@[simp] theorem onTiles_pwr (d : Dev) (f : Vector Tile 48 → Vector Tile 48) : (d.onTiles f).pwr = d.pwr := rfl
@[simp] theorem onTiles_keep (d : Dev) (f : Vector Tile 48 → Vector Tile 48) : (d.onTiles f).keep = d.keep := rfl
@[simp] theorem onTiles_fuse (d : Dev) (f : Vector Tile 48 → Vector Tile 48) : (d.onTiles f).fuse = d.fuse := rfl
@[simp] theorem onTiles_host (d : Dev) (f : Vector Tile 48 → Vector Tile 48) : (d.onTiles f).host = d.host := rfl
@[simp] theorem onTiles_grants (d : Dev) (f : Vector Tile 48 → Vector Tile 48) : (d.onTiles f).grants = d.grants := rfl
@[simp] theorem onTiles_fe (d : Dev) (f : Vector Tile 48 → Vector Tile 48) : (d.onTiles f).fe = d.fe := rfl
@[simp] theorem onTiles_teds (d : Dev) (f : Vector Tile 48 → Vector Tile 48) : (d.onTiles f).teds = d.teds := rfl
@[simp] theorem onTiles_tachs (d : Dev) (f : Vector Tile 48 → Vector Tile 48) : (d.onTiles f).tachs = d.tachs := rfl
@[simp] theorem onTiles_wr (d : Dev) (f : Vector Tile 48 → Vector Tile 48) : (d.onTiles f).wr = d.wr := rfl
@[simp] theorem onTiles_guard (d : Dev) (f : Vector Tile 48 → Vector Tile 48) : (d.onTiles f).guard = d.guard := rfl
@[simp] theorem onTiles_rinse (d : Dev) (f : Vector Tile 48 → Vector Tile 48) : (d.onTiles f).rinse = d.rinse := rfl
@[simp] theorem onTiles_tiles (d : Dev) (f : Vector Tile 48 → Vector Tile 48) : (d.onTiles f).tiles = f d.tiles := rfl
@[simp] theorem onTiles_upkeep (d : Dev) (f : Vector Tile 48 → Vector Tile 48) : (d.onTiles f).upkeep = d.upkeep := rfl
@[simp] theorem onTiles_horizons (d : Dev) (f : Vector Tile 48 → Vector Tile 48) : (d.onTiles f).horizons = d.horizons := rfl
@[simp] theorem onTiles_models (d : Dev) (f : Vector Tile 48 → Vector Tile 48) : (d.onTiles f).models = d.models := rfl
@[simp] theorem onTiles_spool (d : Dev) (f : Vector Tile 48 → Vector Tile 48) : (d.onTiles f).spool = d.spool := rfl
@[simp] theorem onTiles_sram (d : Dev) (f : Vector Tile 48 → Vector Tile 48) : (d.onTiles f).sram = d.sram := rfl
@[simp] theorem onTiles_store (d : Dev) (f : Vector Tile 48 → Vector Tile 48) : (d.onTiles f).store = d.store := rfl
@[simp] theorem onTiles_link (d : Dev) (f : Vector Tile 48 → Vector Tile 48) : (d.onTiles f).link = d.link := rfl
@[simp] theorem onTiles_flash (d : Dev) (f : Vector Tile 48 → Vector Tile 48) : (d.onTiles f).flash = d.flash := rfl
@[simp] theorem onTiles_qspi (d : Dev) (f : Vector Tile 48 → Vector Tile 48) : (d.onTiles f).qspi = d.qspi := rfl
@[simp] theorem onTiles_free (d : Dev) (f : Vector Tile 48 → Vector Tile 48) : (d.onTiles f).free = d.free := rfl

/-! ## onUpkeep -/

@[simp] theorem onUpkeep_clk (d : Dev) (f : Upkeep → Upkeep) : (d.onUpkeep f).clk = d.clk := rfl
@[simp] theorem onUpkeep_pwr (d : Dev) (f : Upkeep → Upkeep) : (d.onUpkeep f).pwr = d.pwr := rfl
@[simp] theorem onUpkeep_keep (d : Dev) (f : Upkeep → Upkeep) : (d.onUpkeep f).keep = d.keep := rfl
@[simp] theorem onUpkeep_fuse (d : Dev) (f : Upkeep → Upkeep) : (d.onUpkeep f).fuse = d.fuse := rfl
@[simp] theorem onUpkeep_host (d : Dev) (f : Upkeep → Upkeep) : (d.onUpkeep f).host = d.host := rfl
@[simp] theorem onUpkeep_grants (d : Dev) (f : Upkeep → Upkeep) : (d.onUpkeep f).grants = d.grants := rfl
@[simp] theorem onUpkeep_fe (d : Dev) (f : Upkeep → Upkeep) : (d.onUpkeep f).fe = d.fe := rfl
@[simp] theorem onUpkeep_teds (d : Dev) (f : Upkeep → Upkeep) : (d.onUpkeep f).teds = d.teds := rfl
@[simp] theorem onUpkeep_tachs (d : Dev) (f : Upkeep → Upkeep) : (d.onUpkeep f).tachs = d.tachs := rfl
@[simp] theorem onUpkeep_wr (d : Dev) (f : Upkeep → Upkeep) : (d.onUpkeep f).wr = d.wr := rfl
@[simp] theorem onUpkeep_guard (d : Dev) (f : Upkeep → Upkeep) : (d.onUpkeep f).guard = d.guard := rfl
@[simp] theorem onUpkeep_rinse (d : Dev) (f : Upkeep → Upkeep) : (d.onUpkeep f).rinse = d.rinse := rfl
@[simp] theorem onUpkeep_tiles (d : Dev) (f : Upkeep → Upkeep) : (d.onUpkeep f).tiles = d.tiles := rfl
@[simp] theorem onUpkeep_upkeep (d : Dev) (f : Upkeep → Upkeep) : (d.onUpkeep f).upkeep = f d.upkeep := rfl
@[simp] theorem onUpkeep_horizons (d : Dev) (f : Upkeep → Upkeep) : (d.onUpkeep f).horizons = d.horizons := rfl
@[simp] theorem onUpkeep_models (d : Dev) (f : Upkeep → Upkeep) : (d.onUpkeep f).models = d.models := rfl
@[simp] theorem onUpkeep_spool (d : Dev) (f : Upkeep → Upkeep) : (d.onUpkeep f).spool = d.spool := rfl
@[simp] theorem onUpkeep_sram (d : Dev) (f : Upkeep → Upkeep) : (d.onUpkeep f).sram = d.sram := rfl
@[simp] theorem onUpkeep_store (d : Dev) (f : Upkeep → Upkeep) : (d.onUpkeep f).store = d.store := rfl
@[simp] theorem onUpkeep_link (d : Dev) (f : Upkeep → Upkeep) : (d.onUpkeep f).link = d.link := rfl
@[simp] theorem onUpkeep_flash (d : Dev) (f : Upkeep → Upkeep) : (d.onUpkeep f).flash = d.flash := rfl
@[simp] theorem onUpkeep_qspi (d : Dev) (f : Upkeep → Upkeep) : (d.onUpkeep f).qspi = d.qspi := rfl
@[simp] theorem onUpkeep_free (d : Dev) (f : Upkeep → Upkeep) : (d.onUpkeep f).free = d.free := rfl

/-! ## onHorizons -/

@[simp] theorem onHorizons_clk (d : Dev) (f : Vector (Nat × Nat) 4 → Vector (Nat × Nat) 4) : (d.onHorizons f).clk = d.clk := rfl
@[simp] theorem onHorizons_pwr (d : Dev) (f : Vector (Nat × Nat) 4 → Vector (Nat × Nat) 4) : (d.onHorizons f).pwr = d.pwr := rfl
@[simp] theorem onHorizons_keep (d : Dev) (f : Vector (Nat × Nat) 4 → Vector (Nat × Nat) 4) : (d.onHorizons f).keep = d.keep := rfl
@[simp] theorem onHorizons_fuse (d : Dev) (f : Vector (Nat × Nat) 4 → Vector (Nat × Nat) 4) : (d.onHorizons f).fuse = d.fuse := rfl
@[simp] theorem onHorizons_host (d : Dev) (f : Vector (Nat × Nat) 4 → Vector (Nat × Nat) 4) : (d.onHorizons f).host = d.host := rfl
@[simp] theorem onHorizons_grants (d : Dev) (f : Vector (Nat × Nat) 4 → Vector (Nat × Nat) 4) : (d.onHorizons f).grants = d.grants := rfl
@[simp] theorem onHorizons_fe (d : Dev) (f : Vector (Nat × Nat) 4 → Vector (Nat × Nat) 4) : (d.onHorizons f).fe = d.fe := rfl
@[simp] theorem onHorizons_teds (d : Dev) (f : Vector (Nat × Nat) 4 → Vector (Nat × Nat) 4) : (d.onHorizons f).teds = d.teds := rfl
@[simp] theorem onHorizons_tachs (d : Dev) (f : Vector (Nat × Nat) 4 → Vector (Nat × Nat) 4) : (d.onHorizons f).tachs = d.tachs := rfl
@[simp] theorem onHorizons_wr (d : Dev) (f : Vector (Nat × Nat) 4 → Vector (Nat × Nat) 4) : (d.onHorizons f).wr = d.wr := rfl
@[simp] theorem onHorizons_guard (d : Dev) (f : Vector (Nat × Nat) 4 → Vector (Nat × Nat) 4) : (d.onHorizons f).guard = d.guard := rfl
@[simp] theorem onHorizons_rinse (d : Dev) (f : Vector (Nat × Nat) 4 → Vector (Nat × Nat) 4) : (d.onHorizons f).rinse = d.rinse := rfl
@[simp] theorem onHorizons_tiles (d : Dev) (f : Vector (Nat × Nat) 4 → Vector (Nat × Nat) 4) : (d.onHorizons f).tiles = d.tiles := rfl
@[simp] theorem onHorizons_upkeep (d : Dev) (f : Vector (Nat × Nat) 4 → Vector (Nat × Nat) 4) : (d.onHorizons f).upkeep = d.upkeep := rfl
@[simp] theorem onHorizons_horizons (d : Dev) (f : Vector (Nat × Nat) 4 → Vector (Nat × Nat) 4) : (d.onHorizons f).horizons = f d.horizons := rfl
@[simp] theorem onHorizons_models (d : Dev) (f : Vector (Nat × Nat) 4 → Vector (Nat × Nat) 4) : (d.onHorizons f).models = d.models := rfl
@[simp] theorem onHorizons_spool (d : Dev) (f : Vector (Nat × Nat) 4 → Vector (Nat × Nat) 4) : (d.onHorizons f).spool = d.spool := rfl
@[simp] theorem onHorizons_sram (d : Dev) (f : Vector (Nat × Nat) 4 → Vector (Nat × Nat) 4) : (d.onHorizons f).sram = d.sram := rfl
@[simp] theorem onHorizons_store (d : Dev) (f : Vector (Nat × Nat) 4 → Vector (Nat × Nat) 4) : (d.onHorizons f).store = d.store := rfl
@[simp] theorem onHorizons_link (d : Dev) (f : Vector (Nat × Nat) 4 → Vector (Nat × Nat) 4) : (d.onHorizons f).link = d.link := rfl
@[simp] theorem onHorizons_flash (d : Dev) (f : Vector (Nat × Nat) 4 → Vector (Nat × Nat) 4) : (d.onHorizons f).flash = d.flash := rfl
@[simp] theorem onHorizons_qspi (d : Dev) (f : Vector (Nat × Nat) 4 → Vector (Nat × Nat) 4) : (d.onHorizons f).qspi = d.qspi := rfl
@[simp] theorem onHorizons_free (d : Dev) (f : Vector (Nat × Nat) 4 → Vector (Nat × Nat) 4) : (d.onHorizons f).free = d.free := rfl

/-! ## onModels -/

@[simp] theorem onModels_clk (d : Dev) (f : Vector (Option Model) 16 → Vector (Option Model) 16) : (d.onModels f).clk = d.clk := rfl
@[simp] theorem onModels_pwr (d : Dev) (f : Vector (Option Model) 16 → Vector (Option Model) 16) : (d.onModels f).pwr = d.pwr := rfl
@[simp] theorem onModels_keep (d : Dev) (f : Vector (Option Model) 16 → Vector (Option Model) 16) : (d.onModels f).keep = d.keep := rfl
@[simp] theorem onModels_fuse (d : Dev) (f : Vector (Option Model) 16 → Vector (Option Model) 16) : (d.onModels f).fuse = d.fuse := rfl
@[simp] theorem onModels_host (d : Dev) (f : Vector (Option Model) 16 → Vector (Option Model) 16) : (d.onModels f).host = d.host := rfl
@[simp] theorem onModels_grants (d : Dev) (f : Vector (Option Model) 16 → Vector (Option Model) 16) : (d.onModels f).grants = d.grants := rfl
@[simp] theorem onModels_fe (d : Dev) (f : Vector (Option Model) 16 → Vector (Option Model) 16) : (d.onModels f).fe = d.fe := rfl
@[simp] theorem onModels_teds (d : Dev) (f : Vector (Option Model) 16 → Vector (Option Model) 16) : (d.onModels f).teds = d.teds := rfl
@[simp] theorem onModels_tachs (d : Dev) (f : Vector (Option Model) 16 → Vector (Option Model) 16) : (d.onModels f).tachs = d.tachs := rfl
@[simp] theorem onModels_wr (d : Dev) (f : Vector (Option Model) 16 → Vector (Option Model) 16) : (d.onModels f).wr = d.wr := rfl
@[simp] theorem onModels_guard (d : Dev) (f : Vector (Option Model) 16 → Vector (Option Model) 16) : (d.onModels f).guard = d.guard := rfl
@[simp] theorem onModels_rinse (d : Dev) (f : Vector (Option Model) 16 → Vector (Option Model) 16) : (d.onModels f).rinse = d.rinse := rfl
@[simp] theorem onModels_tiles (d : Dev) (f : Vector (Option Model) 16 → Vector (Option Model) 16) : (d.onModels f).tiles = d.tiles := rfl
@[simp] theorem onModels_upkeep (d : Dev) (f : Vector (Option Model) 16 → Vector (Option Model) 16) : (d.onModels f).upkeep = d.upkeep := rfl
@[simp] theorem onModels_horizons (d : Dev) (f : Vector (Option Model) 16 → Vector (Option Model) 16) : (d.onModels f).horizons = d.horizons := rfl
@[simp] theorem onModels_models (d : Dev) (f : Vector (Option Model) 16 → Vector (Option Model) 16) : (d.onModels f).models = f d.models := rfl
@[simp] theorem onModels_spool (d : Dev) (f : Vector (Option Model) 16 → Vector (Option Model) 16) : (d.onModels f).spool = d.spool := rfl
@[simp] theorem onModels_sram (d : Dev) (f : Vector (Option Model) 16 → Vector (Option Model) 16) : (d.onModels f).sram = d.sram := rfl
@[simp] theorem onModels_store (d : Dev) (f : Vector (Option Model) 16 → Vector (Option Model) 16) : (d.onModels f).store = d.store := rfl
@[simp] theorem onModels_link (d : Dev) (f : Vector (Option Model) 16 → Vector (Option Model) 16) : (d.onModels f).link = d.link := rfl
@[simp] theorem onModels_flash (d : Dev) (f : Vector (Option Model) 16 → Vector (Option Model) 16) : (d.onModels f).flash = d.flash := rfl
@[simp] theorem onModels_qspi (d : Dev) (f : Vector (Option Model) 16 → Vector (Option Model) 16) : (d.onModels f).qspi = d.qspi := rfl
@[simp] theorem onModels_free (d : Dev) (f : Vector (Option Model) 16 → Vector (Option Model) 16) : (d.onModels f).free = d.free := rfl

/-! ## onSpool -/

@[simp] theorem onSpool_clk (d : Dev) (f : Spool → Spool) : (d.onSpool f).clk = d.clk := rfl
@[simp] theorem onSpool_pwr (d : Dev) (f : Spool → Spool) : (d.onSpool f).pwr = d.pwr := rfl
@[simp] theorem onSpool_keep (d : Dev) (f : Spool → Spool) : (d.onSpool f).keep = d.keep := rfl
@[simp] theorem onSpool_fuse (d : Dev) (f : Spool → Spool) : (d.onSpool f).fuse = d.fuse := rfl
@[simp] theorem onSpool_host (d : Dev) (f : Spool → Spool) : (d.onSpool f).host = d.host := rfl
@[simp] theorem onSpool_grants (d : Dev) (f : Spool → Spool) : (d.onSpool f).grants = d.grants := rfl
@[simp] theorem onSpool_fe (d : Dev) (f : Spool → Spool) : (d.onSpool f).fe = d.fe := rfl
@[simp] theorem onSpool_teds (d : Dev) (f : Spool → Spool) : (d.onSpool f).teds = d.teds := rfl
@[simp] theorem onSpool_tachs (d : Dev) (f : Spool → Spool) : (d.onSpool f).tachs = d.tachs := rfl
@[simp] theorem onSpool_wr (d : Dev) (f : Spool → Spool) : (d.onSpool f).wr = d.wr := rfl
@[simp] theorem onSpool_guard (d : Dev) (f : Spool → Spool) : (d.onSpool f).guard = d.guard := rfl
@[simp] theorem onSpool_rinse (d : Dev) (f : Spool → Spool) : (d.onSpool f).rinse = d.rinse := rfl
@[simp] theorem onSpool_tiles (d : Dev) (f : Spool → Spool) : (d.onSpool f).tiles = d.tiles := rfl
@[simp] theorem onSpool_upkeep (d : Dev) (f : Spool → Spool) : (d.onSpool f).upkeep = d.upkeep := rfl
@[simp] theorem onSpool_horizons (d : Dev) (f : Spool → Spool) : (d.onSpool f).horizons = d.horizons := rfl
@[simp] theorem onSpool_models (d : Dev) (f : Spool → Spool) : (d.onSpool f).models = d.models := rfl
@[simp] theorem onSpool_spool (d : Dev) (f : Spool → Spool) : (d.onSpool f).spool = f d.spool := rfl
@[simp] theorem onSpool_sram (d : Dev) (f : Spool → Spool) : (d.onSpool f).sram = d.sram := rfl
@[simp] theorem onSpool_store (d : Dev) (f : Spool → Spool) : (d.onSpool f).store = d.store := rfl
@[simp] theorem onSpool_link (d : Dev) (f : Spool → Spool) : (d.onSpool f).link = d.link := rfl
@[simp] theorem onSpool_flash (d : Dev) (f : Spool → Spool) : (d.onSpool f).flash = d.flash := rfl
@[simp] theorem onSpool_qspi (d : Dev) (f : Spool → Spool) : (d.onSpool f).qspi = d.qspi := rfl
@[simp] theorem onSpool_free (d : Dev) (f : Spool → Spool) : (d.onSpool f).free = d.free := rfl

/-! ## onSram -/

@[simp] theorem onSram_clk (d : Dev) (f : Sram → Sram) : (d.onSram f).clk = d.clk := rfl
@[simp] theorem onSram_pwr (d : Dev) (f : Sram → Sram) : (d.onSram f).pwr = d.pwr := rfl
@[simp] theorem onSram_keep (d : Dev) (f : Sram → Sram) : (d.onSram f).keep = d.keep := rfl
@[simp] theorem onSram_fuse (d : Dev) (f : Sram → Sram) : (d.onSram f).fuse = d.fuse := rfl
@[simp] theorem onSram_host (d : Dev) (f : Sram → Sram) : (d.onSram f).host = d.host := rfl
@[simp] theorem onSram_grants (d : Dev) (f : Sram → Sram) : (d.onSram f).grants = d.grants := rfl
@[simp] theorem onSram_fe (d : Dev) (f : Sram → Sram) : (d.onSram f).fe = d.fe := rfl
@[simp] theorem onSram_teds (d : Dev) (f : Sram → Sram) : (d.onSram f).teds = d.teds := rfl
@[simp] theorem onSram_tachs (d : Dev) (f : Sram → Sram) : (d.onSram f).tachs = d.tachs := rfl
@[simp] theorem onSram_wr (d : Dev) (f : Sram → Sram) : (d.onSram f).wr = d.wr := rfl
@[simp] theorem onSram_guard (d : Dev) (f : Sram → Sram) : (d.onSram f).guard = d.guard := rfl
@[simp] theorem onSram_rinse (d : Dev) (f : Sram → Sram) : (d.onSram f).rinse = d.rinse := rfl
@[simp] theorem onSram_tiles (d : Dev) (f : Sram → Sram) : (d.onSram f).tiles = d.tiles := rfl
@[simp] theorem onSram_upkeep (d : Dev) (f : Sram → Sram) : (d.onSram f).upkeep = d.upkeep := rfl
@[simp] theorem onSram_horizons (d : Dev) (f : Sram → Sram) : (d.onSram f).horizons = d.horizons := rfl
@[simp] theorem onSram_models (d : Dev) (f : Sram → Sram) : (d.onSram f).models = d.models := rfl
@[simp] theorem onSram_spool (d : Dev) (f : Sram → Sram) : (d.onSram f).spool = d.spool := rfl
@[simp] theorem onSram_sram (d : Dev) (f : Sram → Sram) : (d.onSram f).sram = f d.sram := rfl
@[simp] theorem onSram_store (d : Dev) (f : Sram → Sram) : (d.onSram f).store = d.store := rfl
@[simp] theorem onSram_link (d : Dev) (f : Sram → Sram) : (d.onSram f).link = d.link := rfl
@[simp] theorem onSram_flash (d : Dev) (f : Sram → Sram) : (d.onSram f).flash = d.flash := rfl
@[simp] theorem onSram_qspi (d : Dev) (f : Sram → Sram) : (d.onSram f).qspi = d.qspi := rfl
@[simp] theorem onSram_free (d : Dev) (f : Sram → Sram) : (d.onSram f).free = d.free := rfl

/-! ## onStore -/

@[simp] theorem onStore_clk (d : Dev) (f : Store → Store) : (d.onStore f).clk = d.clk := rfl
@[simp] theorem onStore_pwr (d : Dev) (f : Store → Store) : (d.onStore f).pwr = d.pwr := rfl
@[simp] theorem onStore_keep (d : Dev) (f : Store → Store) : (d.onStore f).keep = d.keep := rfl
@[simp] theorem onStore_fuse (d : Dev) (f : Store → Store) : (d.onStore f).fuse = d.fuse := rfl
@[simp] theorem onStore_host (d : Dev) (f : Store → Store) : (d.onStore f).host = d.host := rfl
@[simp] theorem onStore_grants (d : Dev) (f : Store → Store) : (d.onStore f).grants = d.grants := rfl
@[simp] theorem onStore_fe (d : Dev) (f : Store → Store) : (d.onStore f).fe = d.fe := rfl
@[simp] theorem onStore_teds (d : Dev) (f : Store → Store) : (d.onStore f).teds = d.teds := rfl
@[simp] theorem onStore_tachs (d : Dev) (f : Store → Store) : (d.onStore f).tachs = d.tachs := rfl
@[simp] theorem onStore_wr (d : Dev) (f : Store → Store) : (d.onStore f).wr = d.wr := rfl
@[simp] theorem onStore_guard (d : Dev) (f : Store → Store) : (d.onStore f).guard = d.guard := rfl
@[simp] theorem onStore_rinse (d : Dev) (f : Store → Store) : (d.onStore f).rinse = d.rinse := rfl
@[simp] theorem onStore_tiles (d : Dev) (f : Store → Store) : (d.onStore f).tiles = d.tiles := rfl
@[simp] theorem onStore_upkeep (d : Dev) (f : Store → Store) : (d.onStore f).upkeep = d.upkeep := rfl
@[simp] theorem onStore_horizons (d : Dev) (f : Store → Store) : (d.onStore f).horizons = d.horizons := rfl
@[simp] theorem onStore_models (d : Dev) (f : Store → Store) : (d.onStore f).models = d.models := rfl
@[simp] theorem onStore_spool (d : Dev) (f : Store → Store) : (d.onStore f).spool = d.spool := rfl
@[simp] theorem onStore_sram (d : Dev) (f : Store → Store) : (d.onStore f).sram = d.sram := rfl
@[simp] theorem onStore_store (d : Dev) (f : Store → Store) : (d.onStore f).store = f d.store := rfl
@[simp] theorem onStore_link (d : Dev) (f : Store → Store) : (d.onStore f).link = d.link := rfl
@[simp] theorem onStore_flash (d : Dev) (f : Store → Store) : (d.onStore f).flash = d.flash := rfl
@[simp] theorem onStore_qspi (d : Dev) (f : Store → Store) : (d.onStore f).qspi = d.qspi := rfl
@[simp] theorem onStore_free (d : Dev) (f : Store → Store) : (d.onStore f).free = d.free := rfl

/-! ## onLink -/

@[simp] theorem onLink_clk (d : Dev) (f : Link → Link) : (d.onLink f).clk = d.clk := rfl
@[simp] theorem onLink_pwr (d : Dev) (f : Link → Link) : (d.onLink f).pwr = d.pwr := rfl
@[simp] theorem onLink_keep (d : Dev) (f : Link → Link) : (d.onLink f).keep = d.keep := rfl
@[simp] theorem onLink_fuse (d : Dev) (f : Link → Link) : (d.onLink f).fuse = d.fuse := rfl
@[simp] theorem onLink_host (d : Dev) (f : Link → Link) : (d.onLink f).host = d.host := rfl
@[simp] theorem onLink_grants (d : Dev) (f : Link → Link) : (d.onLink f).grants = d.grants := rfl
@[simp] theorem onLink_fe (d : Dev) (f : Link → Link) : (d.onLink f).fe = d.fe := rfl
@[simp] theorem onLink_teds (d : Dev) (f : Link → Link) : (d.onLink f).teds = d.teds := rfl
@[simp] theorem onLink_tachs (d : Dev) (f : Link → Link) : (d.onLink f).tachs = d.tachs := rfl
@[simp] theorem onLink_wr (d : Dev) (f : Link → Link) : (d.onLink f).wr = d.wr := rfl
@[simp] theorem onLink_guard (d : Dev) (f : Link → Link) : (d.onLink f).guard = d.guard := rfl
@[simp] theorem onLink_rinse (d : Dev) (f : Link → Link) : (d.onLink f).rinse = d.rinse := rfl
@[simp] theorem onLink_tiles (d : Dev) (f : Link → Link) : (d.onLink f).tiles = d.tiles := rfl
@[simp] theorem onLink_upkeep (d : Dev) (f : Link → Link) : (d.onLink f).upkeep = d.upkeep := rfl
@[simp] theorem onLink_horizons (d : Dev) (f : Link → Link) : (d.onLink f).horizons = d.horizons := rfl
@[simp] theorem onLink_models (d : Dev) (f : Link → Link) : (d.onLink f).models = d.models := rfl
@[simp] theorem onLink_spool (d : Dev) (f : Link → Link) : (d.onLink f).spool = d.spool := rfl
@[simp] theorem onLink_sram (d : Dev) (f : Link → Link) : (d.onLink f).sram = d.sram := rfl
@[simp] theorem onLink_store (d : Dev) (f : Link → Link) : (d.onLink f).store = d.store := rfl
@[simp] theorem onLink_link (d : Dev) (f : Link → Link) : (d.onLink f).link = f d.link := rfl
@[simp] theorem onLink_flash (d : Dev) (f : Link → Link) : (d.onLink f).flash = d.flash := rfl
@[simp] theorem onLink_qspi (d : Dev) (f : Link → Link) : (d.onLink f).qspi = d.qspi := rfl
@[simp] theorem onLink_free (d : Dev) (f : Link → Link) : (d.onLink f).free = d.free := rfl

/-! ## onQspi -/

@[simp] theorem onQspi_clk (d : Dev) (f : List QspiRead → List QspiRead) : (d.onQspi f).clk = d.clk := rfl
@[simp] theorem onQspi_pwr (d : Dev) (f : List QspiRead → List QspiRead) : (d.onQspi f).pwr = d.pwr := rfl
@[simp] theorem onQspi_keep (d : Dev) (f : List QspiRead → List QspiRead) : (d.onQspi f).keep = d.keep := rfl
@[simp] theorem onQspi_fuse (d : Dev) (f : List QspiRead → List QspiRead) : (d.onQspi f).fuse = d.fuse := rfl
@[simp] theorem onQspi_host (d : Dev) (f : List QspiRead → List QspiRead) : (d.onQspi f).host = d.host := rfl
@[simp] theorem onQspi_grants (d : Dev) (f : List QspiRead → List QspiRead) : (d.onQspi f).grants = d.grants := rfl
@[simp] theorem onQspi_fe (d : Dev) (f : List QspiRead → List QspiRead) : (d.onQspi f).fe = d.fe := rfl
@[simp] theorem onQspi_teds (d : Dev) (f : List QspiRead → List QspiRead) : (d.onQspi f).teds = d.teds := rfl
@[simp] theorem onQspi_tachs (d : Dev) (f : List QspiRead → List QspiRead) : (d.onQspi f).tachs = d.tachs := rfl
@[simp] theorem onQspi_wr (d : Dev) (f : List QspiRead → List QspiRead) : (d.onQspi f).wr = d.wr := rfl
@[simp] theorem onQspi_guard (d : Dev) (f : List QspiRead → List QspiRead) : (d.onQspi f).guard = d.guard := rfl
@[simp] theorem onQspi_rinse (d : Dev) (f : List QspiRead → List QspiRead) : (d.onQspi f).rinse = d.rinse := rfl
@[simp] theorem onQspi_tiles (d : Dev) (f : List QspiRead → List QspiRead) : (d.onQspi f).tiles = d.tiles := rfl
@[simp] theorem onQspi_upkeep (d : Dev) (f : List QspiRead → List QspiRead) : (d.onQspi f).upkeep = d.upkeep := rfl
@[simp] theorem onQspi_horizons (d : Dev) (f : List QspiRead → List QspiRead) : (d.onQspi f).horizons = d.horizons := rfl
@[simp] theorem onQspi_models (d : Dev) (f : List QspiRead → List QspiRead) : (d.onQspi f).models = d.models := rfl
@[simp] theorem onQspi_spool (d : Dev) (f : List QspiRead → List QspiRead) : (d.onQspi f).spool = d.spool := rfl
@[simp] theorem onQspi_sram (d : Dev) (f : List QspiRead → List QspiRead) : (d.onQspi f).sram = d.sram := rfl
@[simp] theorem onQspi_store (d : Dev) (f : List QspiRead → List QspiRead) : (d.onQspi f).store = d.store := rfl
@[simp] theorem onQspi_link (d : Dev) (f : List QspiRead → List QspiRead) : (d.onQspi f).link = d.link := rfl
@[simp] theorem onQspi_flash (d : Dev) (f : List QspiRead → List QspiRead) : (d.onQspi f).flash = d.flash := rfl
@[simp] theorem onQspi_qspi (d : Dev) (f : List QspiRead → List QspiRead) : (d.onQspi f).qspi = f d.qspi := rfl
@[simp] theorem onQspi_free (d : Dev) (f : List QspiRead → List QspiRead) : (d.onQspi f).free = d.free := rfl

/-! ## onFree -/

@[simp] theorem onFree_clk (d : Dev) (f : Nat → Nat) : (d.onFree f).clk = d.clk := rfl
@[simp] theorem onFree_pwr (d : Dev) (f : Nat → Nat) : (d.onFree f).pwr = d.pwr := rfl
@[simp] theorem onFree_keep (d : Dev) (f : Nat → Nat) : (d.onFree f).keep = d.keep := rfl
@[simp] theorem onFree_fuse (d : Dev) (f : Nat → Nat) : (d.onFree f).fuse = d.fuse := rfl
@[simp] theorem onFree_host (d : Dev) (f : Nat → Nat) : (d.onFree f).host = d.host := rfl
@[simp] theorem onFree_grants (d : Dev) (f : Nat → Nat) : (d.onFree f).grants = d.grants := rfl
@[simp] theorem onFree_fe (d : Dev) (f : Nat → Nat) : (d.onFree f).fe = d.fe := rfl
@[simp] theorem onFree_teds (d : Dev) (f : Nat → Nat) : (d.onFree f).teds = d.teds := rfl
@[simp] theorem onFree_tachs (d : Dev) (f : Nat → Nat) : (d.onFree f).tachs = d.tachs := rfl
@[simp] theorem onFree_wr (d : Dev) (f : Nat → Nat) : (d.onFree f).wr = d.wr := rfl
@[simp] theorem onFree_guard (d : Dev) (f : Nat → Nat) : (d.onFree f).guard = d.guard := rfl
@[simp] theorem onFree_rinse (d : Dev) (f : Nat → Nat) : (d.onFree f).rinse = d.rinse := rfl
@[simp] theorem onFree_tiles (d : Dev) (f : Nat → Nat) : (d.onFree f).tiles = d.tiles := rfl
@[simp] theorem onFree_upkeep (d : Dev) (f : Nat → Nat) : (d.onFree f).upkeep = d.upkeep := rfl
@[simp] theorem onFree_horizons (d : Dev) (f : Nat → Nat) : (d.onFree f).horizons = d.horizons := rfl
@[simp] theorem onFree_models (d : Dev) (f : Nat → Nat) : (d.onFree f).models = d.models := rfl
@[simp] theorem onFree_spool (d : Dev) (f : Nat → Nat) : (d.onFree f).spool = d.spool := rfl
@[simp] theorem onFree_sram (d : Dev) (f : Nat → Nat) : (d.onFree f).sram = d.sram := rfl
@[simp] theorem onFree_store (d : Dev) (f : Nat → Nat) : (d.onFree f).store = d.store := rfl
@[simp] theorem onFree_link (d : Dev) (f : Nat → Nat) : (d.onFree f).link = d.link := rfl
@[simp] theorem onFree_flash (d : Dev) (f : Nat → Nat) : (d.onFree f).flash = d.flash := rfl
@[simp] theorem onFree_qspi (d : Dev) (f : Nat → Nat) : (d.onFree f).qspi = d.qspi := rfl
@[simp] theorem onFree_free (d : Dev) (f : Nat → Nat) : (d.onFree f).free = f d.free := rfl

/-! ## tick -/

@[simp] theorem tick_pwr (d : Dev) (t : Time) : (d.tick t).pwr = d.pwr := rfl
@[simp] theorem tick_keep (d : Dev) (t : Time) : (d.tick t).keep = d.keep := rfl
@[simp] theorem tick_fuse (d : Dev) (t : Time) : (d.tick t).fuse = d.fuse := rfl
@[simp] theorem tick_host (d : Dev) (t : Time) : (d.tick t).host = d.host := rfl
@[simp] theorem tick_grants (d : Dev) (t : Time) : (d.tick t).grants = d.grants := rfl
@[simp] theorem tick_fe (d : Dev) (t : Time) : (d.tick t).fe = d.fe := rfl
@[simp] theorem tick_teds (d : Dev) (t : Time) : (d.tick t).teds = d.teds := rfl
@[simp] theorem tick_tachs (d : Dev) (t : Time) : (d.tick t).tachs = d.tachs := rfl
@[simp] theorem tick_wr (d : Dev) (t : Time) : (d.tick t).wr = d.wr := rfl
@[simp] theorem tick_guard (d : Dev) (t : Time) : (d.tick t).guard = d.guard := rfl
@[simp] theorem tick_rinse (d : Dev) (t : Time) : (d.tick t).rinse = d.rinse := rfl
@[simp] theorem tick_tiles (d : Dev) (t : Time) : (d.tick t).tiles = d.tiles := rfl
@[simp] theorem tick_upkeep (d : Dev) (t : Time) : (d.tick t).upkeep = d.upkeep := rfl
@[simp] theorem tick_horizons (d : Dev) (t : Time) : (d.tick t).horizons = d.horizons := rfl
@[simp] theorem tick_models (d : Dev) (t : Time) : (d.tick t).models = d.models := rfl
@[simp] theorem tick_spool (d : Dev) (t : Time) : (d.tick t).spool = d.spool := rfl
@[simp] theorem tick_sram (d : Dev) (t : Time) : (d.tick t).sram = d.sram := rfl
@[simp] theorem tick_store (d : Dev) (t : Time) : (d.tick t).store = d.store := rfl
@[simp] theorem tick_link (d : Dev) (t : Time) : (d.tick t).link = d.link := rfl
@[simp] theorem tick_flash (d : Dev) (t : Time) : (d.tick t).flash = d.flash := rfl
@[simp] theorem tick_qspi (d : Dev) (t : Time) : (d.tick t).qspi = d.qspi := rfl
@[simp] theorem tick_free (d : Dev) (t : Time) : (d.tick t).free = d.free := rfl
@[simp] theorem tick_origin (d : Dev) (t : Time) : (d.tick t).clk.origin = d.clk.origin := rfl
@[simp] theorem tick_net (d : Dev) (t : Time) : (d.tick t).clk.net = d.clk.net := rfl

/-! ## One element of a part -/

@[simp] theorem onPage_clk (d : Dev) (b : Basket) (f : Page → Page) : (d.onPage b f).clk = d.clk := rfl
@[simp] theorem onPage_pwr (d : Dev) (b : Basket) (f : Page → Page) : (d.onPage b f).pwr = d.pwr := rfl
@[simp] theorem onPage_keep (d : Dev) (b : Basket) (f : Page → Page) : (d.onPage b f).keep = d.keep := rfl
@[simp] theorem onPage_fuse (d : Dev) (b : Basket) (f : Page → Page) : (d.onPage b f).fuse = d.fuse := rfl
@[simp] theorem onPage_host (d : Dev) (b : Basket) (f : Page → Page) : (d.onPage b f).host = { d.host with pages := upd d.host.pages b f } := rfl
@[simp] theorem onPage_grants (d : Dev) (b : Basket) (f : Page → Page) : (d.onPage b f).grants = d.grants := rfl
@[simp] theorem onPage_fe (d : Dev) (b : Basket) (f : Page → Page) : (d.onPage b f).fe = d.fe := rfl
@[simp] theorem onPage_teds (d : Dev) (b : Basket) (f : Page → Page) : (d.onPage b f).teds = d.teds := rfl
@[simp] theorem onPage_tachs (d : Dev) (b : Basket) (f : Page → Page) : (d.onPage b f).tachs = d.tachs := rfl
@[simp] theorem onPage_wr (d : Dev) (b : Basket) (f : Page → Page) : (d.onPage b f).wr = d.wr := rfl
@[simp] theorem onPage_guard (d : Dev) (b : Basket) (f : Page → Page) : (d.onPage b f).guard = d.guard := rfl
@[simp] theorem onPage_rinse (d : Dev) (b : Basket) (f : Page → Page) : (d.onPage b f).rinse = d.rinse := rfl
@[simp] theorem onPage_tiles (d : Dev) (b : Basket) (f : Page → Page) : (d.onPage b f).tiles = d.tiles := rfl
@[simp] theorem onPage_upkeep (d : Dev) (b : Basket) (f : Page → Page) : (d.onPage b f).upkeep = d.upkeep := rfl
@[simp] theorem onPage_horizons (d : Dev) (b : Basket) (f : Page → Page) : (d.onPage b f).horizons = d.horizons := rfl
@[simp] theorem onPage_models (d : Dev) (b : Basket) (f : Page → Page) : (d.onPage b f).models = d.models := rfl
@[simp] theorem onPage_spool (d : Dev) (b : Basket) (f : Page → Page) : (d.onPage b f).spool = d.spool := rfl
@[simp] theorem onPage_sram (d : Dev) (b : Basket) (f : Page → Page) : (d.onPage b f).sram = d.sram := rfl
@[simp] theorem onPage_store (d : Dev) (b : Basket) (f : Page → Page) : (d.onPage b f).store = d.store := rfl
@[simp] theorem onPage_link (d : Dev) (b : Basket) (f : Page → Page) : (d.onPage b f).link = d.link := rfl
@[simp] theorem onPage_flash (d : Dev) (b : Basket) (f : Page → Page) : (d.onPage b f).flash = d.flash := rfl
@[simp] theorem onPage_qspi (d : Dev) (b : Basket) (f : Page → Page) : (d.onPage b f).qspi = d.qspi := rfl
@[simp] theorem onPage_free (d : Dev) (b : Basket) (f : Page → Page) : (d.onPage b f).free = d.free := rfl

@[simp] theorem onGrant_clk (d : Dev) (b : Basket) (f : Grants → Grants) : (d.onGrant b f).clk = d.clk := rfl
@[simp] theorem onGrant_pwr (d : Dev) (b : Basket) (f : Grants → Grants) : (d.onGrant b f).pwr = d.pwr := rfl
@[simp] theorem onGrant_keep (d : Dev) (b : Basket) (f : Grants → Grants) : (d.onGrant b f).keep = d.keep := rfl
@[simp] theorem onGrant_fuse (d : Dev) (b : Basket) (f : Grants → Grants) : (d.onGrant b f).fuse = d.fuse := rfl
@[simp] theorem onGrant_host (d : Dev) (b : Basket) (f : Grants → Grants) : (d.onGrant b f).host = d.host := rfl
@[simp] theorem onGrant_grants (d : Dev) (b : Basket) (f : Grants → Grants) : (d.onGrant b f).grants = upd d.grants b f := rfl
@[simp] theorem onGrant_fe (d : Dev) (b : Basket) (f : Grants → Grants) : (d.onGrant b f).fe = d.fe := rfl
@[simp] theorem onGrant_teds (d : Dev) (b : Basket) (f : Grants → Grants) : (d.onGrant b f).teds = d.teds := rfl
@[simp] theorem onGrant_tachs (d : Dev) (b : Basket) (f : Grants → Grants) : (d.onGrant b f).tachs = d.tachs := rfl
@[simp] theorem onGrant_wr (d : Dev) (b : Basket) (f : Grants → Grants) : (d.onGrant b f).wr = d.wr := rfl
@[simp] theorem onGrant_guard (d : Dev) (b : Basket) (f : Grants → Grants) : (d.onGrant b f).guard = d.guard := rfl
@[simp] theorem onGrant_rinse (d : Dev) (b : Basket) (f : Grants → Grants) : (d.onGrant b f).rinse = d.rinse := rfl
@[simp] theorem onGrant_tiles (d : Dev) (b : Basket) (f : Grants → Grants) : (d.onGrant b f).tiles = d.tiles := rfl
@[simp] theorem onGrant_upkeep (d : Dev) (b : Basket) (f : Grants → Grants) : (d.onGrant b f).upkeep = d.upkeep := rfl
@[simp] theorem onGrant_horizons (d : Dev) (b : Basket) (f : Grants → Grants) : (d.onGrant b f).horizons = d.horizons := rfl
@[simp] theorem onGrant_models (d : Dev) (b : Basket) (f : Grants → Grants) : (d.onGrant b f).models = d.models := rfl
@[simp] theorem onGrant_spool (d : Dev) (b : Basket) (f : Grants → Grants) : (d.onGrant b f).spool = d.spool := rfl
@[simp] theorem onGrant_sram (d : Dev) (b : Basket) (f : Grants → Grants) : (d.onGrant b f).sram = d.sram := rfl
@[simp] theorem onGrant_store (d : Dev) (b : Basket) (f : Grants → Grants) : (d.onGrant b f).store = d.store := rfl
@[simp] theorem onGrant_link (d : Dev) (b : Basket) (f : Grants → Grants) : (d.onGrant b f).link = d.link := rfl
@[simp] theorem onGrant_flash (d : Dev) (b : Basket) (f : Grants → Grants) : (d.onGrant b f).flash = d.flash := rfl
@[simp] theorem onGrant_qspi (d : Dev) (b : Basket) (f : Grants → Grants) : (d.onGrant b f).qspi = d.qspi := rfl
@[simp] theorem onGrant_free (d : Dev) (b : Basket) (f : Grants → Grants) : (d.onGrant b f).free = d.free := rfl

@[simp] theorem onTile_clk (d : Dev) (i : Fin 48) (f : Tile → Tile) : (d.onTile i f).clk = d.clk := rfl
@[simp] theorem onTile_pwr (d : Dev) (i : Fin 48) (f : Tile → Tile) : (d.onTile i f).pwr = d.pwr := rfl
@[simp] theorem onTile_keep (d : Dev) (i : Fin 48) (f : Tile → Tile) : (d.onTile i f).keep = d.keep := rfl
@[simp] theorem onTile_fuse (d : Dev) (i : Fin 48) (f : Tile → Tile) : (d.onTile i f).fuse = d.fuse := rfl
@[simp] theorem onTile_host (d : Dev) (i : Fin 48) (f : Tile → Tile) : (d.onTile i f).host = d.host := rfl
@[simp] theorem onTile_grants (d : Dev) (i : Fin 48) (f : Tile → Tile) : (d.onTile i f).grants = d.grants := rfl
@[simp] theorem onTile_fe (d : Dev) (i : Fin 48) (f : Tile → Tile) : (d.onTile i f).fe = d.fe := rfl
@[simp] theorem onTile_teds (d : Dev) (i : Fin 48) (f : Tile → Tile) : (d.onTile i f).teds = d.teds := rfl
@[simp] theorem onTile_tachs (d : Dev) (i : Fin 48) (f : Tile → Tile) : (d.onTile i f).tachs = d.tachs := rfl
@[simp] theorem onTile_wr (d : Dev) (i : Fin 48) (f : Tile → Tile) : (d.onTile i f).wr = d.wr := rfl
@[simp] theorem onTile_guard (d : Dev) (i : Fin 48) (f : Tile → Tile) : (d.onTile i f).guard = d.guard := rfl
@[simp] theorem onTile_rinse (d : Dev) (i : Fin 48) (f : Tile → Tile) : (d.onTile i f).rinse = d.rinse := rfl
@[simp] theorem onTile_tiles (d : Dev) (i : Fin 48) (f : Tile → Tile) : (d.onTile i f).tiles = upd d.tiles i f := rfl
@[simp] theorem onTile_upkeep (d : Dev) (i : Fin 48) (f : Tile → Tile) : (d.onTile i f).upkeep = d.upkeep := rfl
@[simp] theorem onTile_horizons (d : Dev) (i : Fin 48) (f : Tile → Tile) : (d.onTile i f).horizons = d.horizons := rfl
@[simp] theorem onTile_models (d : Dev) (i : Fin 48) (f : Tile → Tile) : (d.onTile i f).models = d.models := rfl
@[simp] theorem onTile_spool (d : Dev) (i : Fin 48) (f : Tile → Tile) : (d.onTile i f).spool = d.spool := rfl
@[simp] theorem onTile_sram (d : Dev) (i : Fin 48) (f : Tile → Tile) : (d.onTile i f).sram = d.sram := rfl
@[simp] theorem onTile_store (d : Dev) (i : Fin 48) (f : Tile → Tile) : (d.onTile i f).store = d.store := rfl
@[simp] theorem onTile_link (d : Dev) (i : Fin 48) (f : Tile → Tile) : (d.onTile i f).link = d.link := rfl
@[simp] theorem onTile_flash (d : Dev) (i : Fin 48) (f : Tile → Tile) : (d.onTile i f).flash = d.flash := rfl
@[simp] theorem onTile_qspi (d : Dev) (i : Fin 48) (f : Tile → Tile) : (d.onTile i f).qspi = d.qspi := rfl
@[simp] theorem onTile_free (d : Dev) (i : Fin 48) (f : Tile → Tile) : (d.onTile i f).free = d.free := rfl

@[simp] theorem onModel_clk (d : Dev) (h : Handle) (f : Model → Model) : (d.onModel h f).clk = d.clk := rfl
@[simp] theorem onModel_pwr (d : Dev) (h : Handle) (f : Model → Model) : (d.onModel h f).pwr = d.pwr := rfl
@[simp] theorem onModel_keep (d : Dev) (h : Handle) (f : Model → Model) : (d.onModel h f).keep = d.keep := rfl
@[simp] theorem onModel_fuse (d : Dev) (h : Handle) (f : Model → Model) : (d.onModel h f).fuse = d.fuse := rfl
@[simp] theorem onModel_host (d : Dev) (h : Handle) (f : Model → Model) : (d.onModel h f).host = d.host := rfl
@[simp] theorem onModel_grants (d : Dev) (h : Handle) (f : Model → Model) : (d.onModel h f).grants = d.grants := rfl
@[simp] theorem onModel_fe (d : Dev) (h : Handle) (f : Model → Model) : (d.onModel h f).fe = d.fe := rfl
@[simp] theorem onModel_teds (d : Dev) (h : Handle) (f : Model → Model) : (d.onModel h f).teds = d.teds := rfl
@[simp] theorem onModel_tachs (d : Dev) (h : Handle) (f : Model → Model) : (d.onModel h f).tachs = d.tachs := rfl
@[simp] theorem onModel_wr (d : Dev) (h : Handle) (f : Model → Model) : (d.onModel h f).wr = d.wr := rfl
@[simp] theorem onModel_guard (d : Dev) (h : Handle) (f : Model → Model) : (d.onModel h f).guard = d.guard := rfl
@[simp] theorem onModel_rinse (d : Dev) (h : Handle) (f : Model → Model) : (d.onModel h f).rinse = d.rinse := rfl
@[simp] theorem onModel_tiles (d : Dev) (h : Handle) (f : Model → Model) : (d.onModel h f).tiles = d.tiles := rfl
@[simp] theorem onModel_upkeep (d : Dev) (h : Handle) (f : Model → Model) : (d.onModel h f).upkeep = d.upkeep := rfl
@[simp] theorem onModel_horizons (d : Dev) (h : Handle) (f : Model → Model) : (d.onModel h f).horizons = d.horizons := rfl
@[simp] theorem onModel_models (d : Dev) (h : Handle) (f : Model → Model) : (d.onModel h f).models = upd d.models h (fun m => m.map f) := rfl
@[simp] theorem onModel_spool (d : Dev) (h : Handle) (f : Model → Model) : (d.onModel h f).spool = d.spool := rfl
@[simp] theorem onModel_sram (d : Dev) (h : Handle) (f : Model → Model) : (d.onModel h f).sram = d.sram := rfl
@[simp] theorem onModel_store (d : Dev) (h : Handle) (f : Model → Model) : (d.onModel h f).store = d.store := rfl
@[simp] theorem onModel_link (d : Dev) (h : Handle) (f : Model → Model) : (d.onModel h f).link = d.link := rfl
@[simp] theorem onModel_flash (d : Dev) (h : Handle) (f : Model → Model) : (d.onModel h f).flash = d.flash := rfl
@[simp] theorem onModel_qspi (d : Dev) (h : Handle) (f : Model → Model) : (d.onModel h f).qspi = d.qspi := rfl
@[simp] theorem onModel_free (d : Dev) (h : Handle) (f : Model → Model) : (d.onModel h f).free = d.free := rfl

@[simp] theorem onTach_clk (d : Dev) (i : Fin 4) (f : Tach → Tach) : (d.onTach i f).clk = d.clk := rfl
@[simp] theorem onTach_pwr (d : Dev) (i : Fin 4) (f : Tach → Tach) : (d.onTach i f).pwr = d.pwr := rfl
@[simp] theorem onTach_keep (d : Dev) (i : Fin 4) (f : Tach → Tach) : (d.onTach i f).keep = d.keep := rfl
@[simp] theorem onTach_fuse (d : Dev) (i : Fin 4) (f : Tach → Tach) : (d.onTach i f).fuse = d.fuse := rfl
@[simp] theorem onTach_host (d : Dev) (i : Fin 4) (f : Tach → Tach) : (d.onTach i f).host = d.host := rfl
@[simp] theorem onTach_grants (d : Dev) (i : Fin 4) (f : Tach → Tach) : (d.onTach i f).grants = d.grants := rfl
@[simp] theorem onTach_fe (d : Dev) (i : Fin 4) (f : Tach → Tach) : (d.onTach i f).fe = d.fe := rfl
@[simp] theorem onTach_teds (d : Dev) (i : Fin 4) (f : Tach → Tach) : (d.onTach i f).teds = d.teds := rfl
@[simp] theorem onTach_tachs (d : Dev) (i : Fin 4) (f : Tach → Tach) : (d.onTach i f).tachs = upd d.tachs i f := rfl
@[simp] theorem onTach_wr (d : Dev) (i : Fin 4) (f : Tach → Tach) : (d.onTach i f).wr = d.wr := rfl
@[simp] theorem onTach_guard (d : Dev) (i : Fin 4) (f : Tach → Tach) : (d.onTach i f).guard = d.guard := rfl
@[simp] theorem onTach_rinse (d : Dev) (i : Fin 4) (f : Tach → Tach) : (d.onTach i f).rinse = d.rinse := rfl
@[simp] theorem onTach_tiles (d : Dev) (i : Fin 4) (f : Tach → Tach) : (d.onTach i f).tiles = d.tiles := rfl
@[simp] theorem onTach_upkeep (d : Dev) (i : Fin 4) (f : Tach → Tach) : (d.onTach i f).upkeep = d.upkeep := rfl
@[simp] theorem onTach_horizons (d : Dev) (i : Fin 4) (f : Tach → Tach) : (d.onTach i f).horizons = d.horizons := rfl
@[simp] theorem onTach_models (d : Dev) (i : Fin 4) (f : Tach → Tach) : (d.onTach i f).models = d.models := rfl
@[simp] theorem onTach_spool (d : Dev) (i : Fin 4) (f : Tach → Tach) : (d.onTach i f).spool = d.spool := rfl
@[simp] theorem onTach_sram (d : Dev) (i : Fin 4) (f : Tach → Tach) : (d.onTach i f).sram = d.sram := rfl
@[simp] theorem onTach_store (d : Dev) (i : Fin 4) (f : Tach → Tach) : (d.onTach i f).store = d.store := rfl
@[simp] theorem onTach_link (d : Dev) (i : Fin 4) (f : Tach → Tach) : (d.onTach i f).link = d.link := rfl
@[simp] theorem onTach_flash (d : Dev) (i : Fin 4) (f : Tach → Tach) : (d.onTach i f).flash = d.flash := rfl
@[simp] theorem onTach_qspi (d : Dev) (i : Fin 4) (f : Tach → Tach) : (d.onTach i f).qspi = d.qspi := rfl
@[simp] theorem onTach_free (d : Dev) (i : Fin 4) (f : Tach → Tach) : (d.onTach i f).free = d.free := rfl

@[simp] theorem onComp_clk (d : Dev) (i : Fin 32) (f : Comparator → Comparator) : (d.onComp i f).clk = d.clk := rfl
@[simp] theorem onComp_pwr (d : Dev) (i : Fin 32) (f : Comparator → Comparator) : (d.onComp i f).pwr = d.pwr := rfl
@[simp] theorem onComp_keep (d : Dev) (i : Fin 32) (f : Comparator → Comparator) : (d.onComp i f).keep = d.keep := rfl
@[simp] theorem onComp_fuse (d : Dev) (i : Fin 32) (f : Comparator → Comparator) : (d.onComp i f).fuse = d.fuse := rfl
@[simp] theorem onComp_host (d : Dev) (i : Fin 32) (f : Comparator → Comparator) : (d.onComp i f).host = d.host := rfl
@[simp] theorem onComp_grants (d : Dev) (i : Fin 32) (f : Comparator → Comparator) : (d.onComp i f).grants = d.grants := rfl
@[simp] theorem onComp_fe (d : Dev) (i : Fin 32) (f : Comparator → Comparator) : (d.onComp i f).fe = d.fe := rfl
@[simp] theorem onComp_teds (d : Dev) (i : Fin 32) (f : Comparator → Comparator) : (d.onComp i f).teds = d.teds := rfl
@[simp] theorem onComp_tachs (d : Dev) (i : Fin 32) (f : Comparator → Comparator) : (d.onComp i f).tachs = d.tachs := rfl
@[simp] theorem onComp_wr (d : Dev) (i : Fin 32) (f : Comparator → Comparator) : (d.onComp i f).wr = d.wr := rfl
@[simp] theorem onComp_guard (d : Dev) (i : Fin 32) (f : Comparator → Comparator) : (d.onComp i f).guard = { d.guard with comps := upd d.guard.comps i f } := rfl
@[simp] theorem onComp_rinse (d : Dev) (i : Fin 32) (f : Comparator → Comparator) : (d.onComp i f).rinse = d.rinse := rfl
@[simp] theorem onComp_tiles (d : Dev) (i : Fin 32) (f : Comparator → Comparator) : (d.onComp i f).tiles = d.tiles := rfl
@[simp] theorem onComp_upkeep (d : Dev) (i : Fin 32) (f : Comparator → Comparator) : (d.onComp i f).upkeep = d.upkeep := rfl
@[simp] theorem onComp_horizons (d : Dev) (i : Fin 32) (f : Comparator → Comparator) : (d.onComp i f).horizons = d.horizons := rfl
@[simp] theorem onComp_models (d : Dev) (i : Fin 32) (f : Comparator → Comparator) : (d.onComp i f).models = d.models := rfl
@[simp] theorem onComp_spool (d : Dev) (i : Fin 32) (f : Comparator → Comparator) : (d.onComp i f).spool = d.spool := rfl
@[simp] theorem onComp_sram (d : Dev) (i : Fin 32) (f : Comparator → Comparator) : (d.onComp i f).sram = d.sram := rfl
@[simp] theorem onComp_store (d : Dev) (i : Fin 32) (f : Comparator → Comparator) : (d.onComp i f).store = d.store := rfl
@[simp] theorem onComp_link (d : Dev) (i : Fin 32) (f : Comparator → Comparator) : (d.onComp i f).link = d.link := rfl
@[simp] theorem onComp_flash (d : Dev) (i : Fin 32) (f : Comparator → Comparator) : (d.onComp i f).flash = d.flash := rfl
@[simp] theorem onComp_qspi (d : Dev) (i : Fin 32) (f : Comparator → Comparator) : (d.onComp i f).qspi = d.qspi := rfl
@[simp] theorem onComp_free (d : Dev) (i : Fin 32) (f : Comparator → Comparator) : (d.onComp i f).free = d.free := rfl

@[simp] theorem onOut_clk (d : Dev) (i : Fin 8) (f : Needle → Needle) : (d.onOut i f).clk = d.clk := rfl
@[simp] theorem onOut_pwr (d : Dev) (i : Fin 8) (f : Needle → Needle) : (d.onOut i f).pwr = d.pwr := rfl
@[simp] theorem onOut_keep (d : Dev) (i : Fin 8) (f : Needle → Needle) : (d.onOut i f).keep = d.keep := rfl
@[simp] theorem onOut_fuse (d : Dev) (i : Fin 8) (f : Needle → Needle) : (d.onOut i f).fuse = d.fuse := rfl
@[simp] theorem onOut_host (d : Dev) (i : Fin 8) (f : Needle → Needle) : (d.onOut i f).host = d.host := rfl
@[simp] theorem onOut_grants (d : Dev) (i : Fin 8) (f : Needle → Needle) : (d.onOut i f).grants = d.grants := rfl
@[simp] theorem onOut_fe (d : Dev) (i : Fin 8) (f : Needle → Needle) : (d.onOut i f).fe = d.fe := rfl
@[simp] theorem onOut_teds (d : Dev) (i : Fin 8) (f : Needle → Needle) : (d.onOut i f).teds = d.teds := rfl
@[simp] theorem onOut_tachs (d : Dev) (i : Fin 8) (f : Needle → Needle) : (d.onOut i f).tachs = d.tachs := rfl
@[simp] theorem onOut_wr (d : Dev) (i : Fin 8) (f : Needle → Needle) : (d.onOut i f).wr = d.wr := rfl
@[simp] theorem onOut_guard (d : Dev) (i : Fin 8) (f : Needle → Needle) : (d.onOut i f).guard = { d.guard with outs := upd d.guard.outs i f } := rfl
@[simp] theorem onOut_rinse (d : Dev) (i : Fin 8) (f : Needle → Needle) : (d.onOut i f).rinse = d.rinse := rfl
@[simp] theorem onOut_tiles (d : Dev) (i : Fin 8) (f : Needle → Needle) : (d.onOut i f).tiles = d.tiles := rfl
@[simp] theorem onOut_upkeep (d : Dev) (i : Fin 8) (f : Needle → Needle) : (d.onOut i f).upkeep = d.upkeep := rfl
@[simp] theorem onOut_horizons (d : Dev) (i : Fin 8) (f : Needle → Needle) : (d.onOut i f).horizons = d.horizons := rfl
@[simp] theorem onOut_models (d : Dev) (i : Fin 8) (f : Needle → Needle) : (d.onOut i f).models = d.models := rfl
@[simp] theorem onOut_spool (d : Dev) (i : Fin 8) (f : Needle → Needle) : (d.onOut i f).spool = d.spool := rfl
@[simp] theorem onOut_sram (d : Dev) (i : Fin 8) (f : Needle → Needle) : (d.onOut i f).sram = d.sram := rfl
@[simp] theorem onOut_store (d : Dev) (i : Fin 8) (f : Needle → Needle) : (d.onOut i f).store = d.store := rfl
@[simp] theorem onOut_link (d : Dev) (i : Fin 8) (f : Needle → Needle) : (d.onOut i f).link = d.link := rfl
@[simp] theorem onOut_flash (d : Dev) (i : Fin 8) (f : Needle → Needle) : (d.onOut i f).flash = d.flash := rfl
@[simp] theorem onOut_qspi (d : Dev) (i : Fin 8) (f : Needle → Needle) : (d.onOut i f).qspi = d.qspi := rfl
@[simp] theorem onOut_free (d : Dev) (i : Fin 8) (f : Needle → Needle) : (d.onOut i f).free = d.free := rfl

@[simp] theorem onChannel_clk (d : Dev) (i : Nat) (f : Channel → Channel) : (d.onChannel i f).clk = d.clk := rfl
@[simp] theorem onChannel_pwr (d : Dev) (i : Nat) (f : Channel → Channel) : (d.onChannel i f).pwr = d.pwr := rfl
@[simp] theorem onChannel_keep (d : Dev) (i : Nat) (f : Channel → Channel) : (d.onChannel i f).keep = d.keep := rfl
@[simp] theorem onChannel_fuse (d : Dev) (i : Nat) (f : Channel → Channel) : (d.onChannel i f).fuse = d.fuse := rfl
@[simp] theorem onChannel_host (d : Dev) (i : Nat) (f : Channel → Channel) : (d.onChannel i f).host = d.host := rfl
@[simp] theorem onChannel_grants (d : Dev) (i : Nat) (f : Channel → Channel) : (d.onChannel i f).grants = d.grants := rfl
@[simp] theorem onChannel_fe (d : Dev) (i : Nat) (f : Channel → Channel) : (d.onChannel i f).fe = updAt d.fe i f := rfl
@[simp] theorem onChannel_teds (d : Dev) (i : Nat) (f : Channel → Channel) : (d.onChannel i f).teds = d.teds := rfl
@[simp] theorem onChannel_tachs (d : Dev) (i : Nat) (f : Channel → Channel) : (d.onChannel i f).tachs = d.tachs := rfl
@[simp] theorem onChannel_wr (d : Dev) (i : Nat) (f : Channel → Channel) : (d.onChannel i f).wr = d.wr := rfl
@[simp] theorem onChannel_guard (d : Dev) (i : Nat) (f : Channel → Channel) : (d.onChannel i f).guard = d.guard := rfl
@[simp] theorem onChannel_rinse (d : Dev) (i : Nat) (f : Channel → Channel) : (d.onChannel i f).rinse = d.rinse := rfl
@[simp] theorem onChannel_tiles (d : Dev) (i : Nat) (f : Channel → Channel) : (d.onChannel i f).tiles = d.tiles := rfl
@[simp] theorem onChannel_upkeep (d : Dev) (i : Nat) (f : Channel → Channel) : (d.onChannel i f).upkeep = d.upkeep := rfl
@[simp] theorem onChannel_horizons (d : Dev) (i : Nat) (f : Channel → Channel) : (d.onChannel i f).horizons = d.horizons := rfl
@[simp] theorem onChannel_models (d : Dev) (i : Nat) (f : Channel → Channel) : (d.onChannel i f).models = d.models := rfl
@[simp] theorem onChannel_spool (d : Dev) (i : Nat) (f : Channel → Channel) : (d.onChannel i f).spool = d.spool := rfl
@[simp] theorem onChannel_sram (d : Dev) (i : Nat) (f : Channel → Channel) : (d.onChannel i f).sram = d.sram := rfl
@[simp] theorem onChannel_store (d : Dev) (i : Nat) (f : Channel → Channel) : (d.onChannel i f).store = d.store := rfl
@[simp] theorem onChannel_link (d : Dev) (i : Nat) (f : Channel → Channel) : (d.onChannel i f).link = d.link := rfl
@[simp] theorem onChannel_flash (d : Dev) (i : Nat) (f : Channel → Channel) : (d.onChannel i f).flash = d.flash := rfl
@[simp] theorem onChannel_qspi (d : Dev) (i : Nat) (f : Channel → Channel) : (d.onChannel i f).qspi = d.qspi := rfl
@[simp] theorem onChannel_free (d : Dev) (i : Nat) (f : Channel → Channel) : (d.onChannel i f).free = d.free := rfl

@[simp] theorem onChain_clk (d : Dev) (i : Nat) (f : Chain → Chain) : (d.onChain i f).clk = d.clk := rfl
@[simp] theorem onChain_pwr (d : Dev) (i : Nat) (f : Chain → Chain) : (d.onChain i f).pwr = d.pwr := rfl
@[simp] theorem onChain_keep (d : Dev) (i : Nat) (f : Chain → Chain) : (d.onChain i f).keep = d.keep := rfl
@[simp] theorem onChain_fuse (d : Dev) (i : Nat) (f : Chain → Chain) : (d.onChain i f).fuse = d.fuse := rfl
@[simp] theorem onChain_host (d : Dev) (i : Nat) (f : Chain → Chain) : (d.onChain i f).host = d.host := rfl
@[simp] theorem onChain_grants (d : Dev) (i : Nat) (f : Chain → Chain) : (d.onChain i f).grants = d.grants := rfl
@[simp] theorem onChain_fe (d : Dev) (i : Nat) (f : Chain → Chain) : (d.onChain i f).fe = d.fe := rfl
@[simp] theorem onChain_teds (d : Dev) (i : Nat) (f : Chain → Chain) : (d.onChain i f).teds = d.teds := rfl
@[simp] theorem onChain_tachs (d : Dev) (i : Nat) (f : Chain → Chain) : (d.onChain i f).tachs = d.tachs := rfl
@[simp] theorem onChain_wr (d : Dev) (i : Nat) (f : Chain → Chain) : (d.onChain i f).wr = d.wr := rfl
@[simp] theorem onChain_guard (d : Dev) (i : Nat) (f : Chain → Chain) : (d.onChain i f).guard = d.guard := rfl
@[simp] theorem onChain_rinse (d : Dev) (i : Nat) (f : Chain → Chain) : (d.onChain i f).rinse = { d.rinse with chains := updAt d.rinse.chains i f } := rfl
@[simp] theorem onChain_tiles (d : Dev) (i : Nat) (f : Chain → Chain) : (d.onChain i f).tiles = d.tiles := rfl
@[simp] theorem onChain_upkeep (d : Dev) (i : Nat) (f : Chain → Chain) : (d.onChain i f).upkeep = d.upkeep := rfl
@[simp] theorem onChain_horizons (d : Dev) (i : Nat) (f : Chain → Chain) : (d.onChain i f).horizons = d.horizons := rfl
@[simp] theorem onChain_models (d : Dev) (i : Nat) (f : Chain → Chain) : (d.onChain i f).models = d.models := rfl
@[simp] theorem onChain_spool (d : Dev) (i : Nat) (f : Chain → Chain) : (d.onChain i f).spool = d.spool := rfl
@[simp] theorem onChain_sram (d : Dev) (i : Nat) (f : Chain → Chain) : (d.onChain i f).sram = d.sram := rfl
@[simp] theorem onChain_store (d : Dev) (i : Nat) (f : Chain → Chain) : (d.onChain i f).store = d.store := rfl
@[simp] theorem onChain_link (d : Dev) (i : Nat) (f : Chain → Chain) : (d.onChain i f).link = d.link := rfl
@[simp] theorem onChain_flash (d : Dev) (i : Nat) (f : Chain → Chain) : (d.onChain i f).flash = d.flash := rfl
@[simp] theorem onChain_qspi (d : Dev) (i : Nat) (f : Chain → Chain) : (d.onChain i f).qspi = d.qspi := rfl
@[simp] theorem onChain_free (d : Dev) (i : Nat) (f : Chain → Chain) : (d.onChain i f).free = d.free := rfl

@[simp] theorem onLine_clk (d : Dev) (i : Fin 4) (f : TedsLine → TedsLine) : (d.onLine i f).clk = d.clk := rfl
@[simp] theorem onLine_pwr (d : Dev) (i : Fin 4) (f : TedsLine → TedsLine) : (d.onLine i f).pwr = d.pwr := rfl
@[simp] theorem onLine_keep (d : Dev) (i : Fin 4) (f : TedsLine → TedsLine) : (d.onLine i f).keep = d.keep := rfl
@[simp] theorem onLine_fuse (d : Dev) (i : Fin 4) (f : TedsLine → TedsLine) : (d.onLine i f).fuse = d.fuse := rfl
@[simp] theorem onLine_host (d : Dev) (i : Fin 4) (f : TedsLine → TedsLine) : (d.onLine i f).host = d.host := rfl
@[simp] theorem onLine_grants (d : Dev) (i : Fin 4) (f : TedsLine → TedsLine) : (d.onLine i f).grants = d.grants := rfl
@[simp] theorem onLine_fe (d : Dev) (i : Fin 4) (f : TedsLine → TedsLine) : (d.onLine i f).fe = d.fe := rfl
@[simp] theorem onLine_teds (d : Dev) (i : Fin 4) (f : TedsLine → TedsLine) : (d.onLine i f).teds = { d.teds with lines := upd d.teds.lines i f } := rfl
@[simp] theorem onLine_tachs (d : Dev) (i : Fin 4) (f : TedsLine → TedsLine) : (d.onLine i f).tachs = d.tachs := rfl
@[simp] theorem onLine_wr (d : Dev) (i : Fin 4) (f : TedsLine → TedsLine) : (d.onLine i f).wr = d.wr := rfl
@[simp] theorem onLine_guard (d : Dev) (i : Fin 4) (f : TedsLine → TedsLine) : (d.onLine i f).guard = d.guard := rfl
@[simp] theorem onLine_rinse (d : Dev) (i : Fin 4) (f : TedsLine → TedsLine) : (d.onLine i f).rinse = d.rinse := rfl
@[simp] theorem onLine_tiles (d : Dev) (i : Fin 4) (f : TedsLine → TedsLine) : (d.onLine i f).tiles = d.tiles := rfl
@[simp] theorem onLine_upkeep (d : Dev) (i : Fin 4) (f : TedsLine → TedsLine) : (d.onLine i f).upkeep = d.upkeep := rfl
@[simp] theorem onLine_horizons (d : Dev) (i : Fin 4) (f : TedsLine → TedsLine) : (d.onLine i f).horizons = d.horizons := rfl
@[simp] theorem onLine_models (d : Dev) (i : Fin 4) (f : TedsLine → TedsLine) : (d.onLine i f).models = d.models := rfl
@[simp] theorem onLine_spool (d : Dev) (i : Fin 4) (f : TedsLine → TedsLine) : (d.onLine i f).spool = d.spool := rfl
@[simp] theorem onLine_sram (d : Dev) (i : Fin 4) (f : TedsLine → TedsLine) : (d.onLine i f).sram = d.sram := rfl
@[simp] theorem onLine_store (d : Dev) (i : Fin 4) (f : TedsLine → TedsLine) : (d.onLine i f).store = d.store := rfl
@[simp] theorem onLine_link (d : Dev) (i : Fin 4) (f : TedsLine → TedsLine) : (d.onLine i f).link = d.link := rfl
@[simp] theorem onLine_flash (d : Dev) (i : Fin 4) (f : TedsLine → TedsLine) : (d.onLine i f).flash = d.flash := rfl
@[simp] theorem onLine_qspi (d : Dev) (i : Fin 4) (f : TedsLine → TedsLine) : (d.onLine i f).qspi = d.qspi := rfl
@[simp] theorem onLine_free (d : Dev) (i : Fin 4) (f : TedsLine → TedsLine) : (d.onLine i f).free = d.free := rfl

/-! ## Elements of vectors -/

@[simp] theorem upd_same {α : Type} {n : Nat} (v : Vector α n) (i : Fin n) (f : α → α) : (upd v i f)[i] = f v[i] := by
  simp [upd]

theorem upd_other {α : Type} {n : Nat} (v : Vector α n) (i j : Fin n) (f : α → α) (h : j ≠ i) : (upd v i f)[j] = v[j] := by
  have hij : i.val ≠ j.val := fun e => h (Fin.ext e.symm)
  simp [upd, Vector.getElem_set_ne, hij]

end Sys2Proof.Laws
end

