-- ==== Sys2Proof/Laws/Tiles.lean ====
section
/-!
SUPPORT. The seam check: a tile whose cells are all at level 0 passes it, and a tile whose first prediction clips does not.
-/

namespace Sys2Proof.Machine

/-- Its cells read 0. -/
theorem level_blank {x : Tile} (h : x.cells = []) (r c : Nat) : x.level r c = 0 := by simp [Tile.level, h]

/-- A sum of zeros. -/
theorem foldl_zero {α : Type} (f : α → Int) (l : List α) (h : ∀ a, f a = 0) : l.foldl (fun s a => s + f a) 0 = 0 := by
  induction l with
  | nil => rfl
  | cons a l ih => simpa [h a] using ih

/-- Its seam nodes carry nothing (R320). -/
theorem seamSum_blank {x : Tile} (h : x.cells = []) (s : Nat) (l : List (Nat × Nat × Nat)) : x.seamSum s l = 0 := by
  have w : ∀ r p, x.weight r p = 0 := fun r p => by simp [Tile.weight, Tile.rawWeight, level_blank h]
  exact foldl_zero (fun d : Nat × Nat × Nat =>
    (d.2.1 : Int) * ((List.range 30).foldl (fun w o => w + x.weight d.1 (30 * s + o)) 0 - 30 * x.weight d.1 (248 + s))) l (fun d => by
      simp only [w]; simp)

/-- With no row remainders the prediction is 0 (R321). -/
theorem seamPredicted_blank {x : Tile} (h : x.remainders = []) (s : Nat) (l : List (Nat × Nat × Nat)) : x.seamPredicted s l = 0 :=
  foldl_zero (fun d : Nat × Nat × Nat => (d.2.2 : Int) * x.remainder d.1 s * 2 ^ 40) l (fun d => by
    simp [Tile.remainder, h, assocGet?])

/-- A conversion of 0 in T-mode is within 1 code of 0. -/
theorem convert_zero (trim shift draw key : Nat) : (convert false trim 0 shift draw key).natAbs ≤ 1 := by
  have v : unclamped trim 0 shift = 0 := by
    simp only [unclamped, divRoundAway, Int.mul_zero, Int.natAbs_zero, Nat.mul_zero, Nat.zero_add]
    simp only [Int.lt_irrefl, if_false]
    exact_mod_cast Nat.div_eq_of_lt (by have := Nat.two_pow_pos (51 + shift); omega)
  simp only [convert, v, Bool.false_and, Bool.false_eq_true, if_false, convLow, convHigh, clampInt]
  have := Nat.mod_lt (Config.convError draw key) (by decide : 0 < 3)
  split
  · omega
  · split <;> omega

/-- Each comparison is made and passes (R322). -/
theorem seamCompare_blank {x : Tile} (h : x.cells = []) (hr : x.remainders = []) (draw s : Nat) (l : List (Nat × Nat × Nat)) (i : Nat) (n : SeamCount) :
    x.seamCompare false 8 1 draw s l i n = { n with made := n.made + 1 } := by
  have u : ∀ t, unclamped t 0 8 = 0 := fun t => by
    simp only [unclamped, divRoundAway, Int.mul_zero, Int.natAbs_zero, Nat.mul_zero, Nat.zero_add]; norm_num
  have c := convert_zero (x.trim i) 8 draw (10000 + i)
  have : ¬ 1 < (convert false (x.trim i) 0 8 draw (10000 + i) - 0).natAbs := by simpa using c
  simp only [Tile.seamCompare, seamSum_blank h, seamPredicted_blank hr, u]
  simp [clips, convLow, convHigh, c]

/-- A tile whose cells are all at level 0 passes the self-check, whatever its conversions are off by. -/
theorem selfCheck_blank {x : Tile} (h : x.cells = []) (hr : x.remainders = []) (draw : Nat) : (x.selfCheck draw).passes = true := by
  simp only [Tile.selfCheck, Tile.seams, seamCompare_blank h hr, Bool.false_eq_true, if_false]
  decide

/-- A comparison adds at most one to those made, and none where the prediction clips (R322). -/
theorem seamCompare_made_le (x : Tile) (draw s : Nat) (l : List (Nat × Nat × Nat)) (i : Nat) (n : SeamCount) :
    (x.seamCompare false 8 1 draw s l i n).made ≤ n.made + 1 := by
  simp only [Tile.seamCompare]
  split <;> simp

theorem seamCompare_made_clipped {x : Tile} {s : Nat} {l : List (Nat × Nat × Nat)} (h : clips false (unclamped 128 (x.seamPredicted s l) 8) = true)
    (draw i : Nat) (n : SeamCount) : (x.seamCompare false 8 1 draw s l i n).made = n.made := by
  simp [Tile.seamCompare, h]

/-- A fold that adds at most k to a count in each step. -/
theorem foldl_made_le {α : Type} {f : SeamCount → α → SeamCount} {k : Nat} (h : ∀ n a, (f n a).made ≤ n.made + k) (l : List α) (n : SeamCount) :
    (l.foldl f n).made ≤ n.made + k * l.length := by
  induction l generalizing n with
  | nil => simp
  | cons a l ih =>
    have := ih (f n a)
    have := h n a
    simp only [List.foldl_cons, List.length_cons, Nat.mul_succ]
    omega

/-- A phase makes at most 8 comparisons, and at most 7 where the first prediction clips. -/
theorem seams_made_le (x : Tile) (draw : Nat) (l : List (Nat × Nat × Nat)) : (x.seams false 8 1 draw 0 512 l).made ≤ 8 := by
  have := foldl_made_le (k := 1) (fun (n : SeamCount) s => seamCompare_made_le x draw s l (x.pairOf (248 + s)) n) (List.range 8)
    { made := 0, failed := 0, unmade := 0 }
  simpa [Tile.seams] using this

theorem seams_made_clipped {x : Tile} {l : List (Nat × Nat × Nat)} (h : clips false (unclamped 128 (x.seamPredicted 0 l) 8) = true) (draw : Nat) :
    (x.seams false 8 1 draw 0 512 l).made ≤ 7 := by
  have first := seamCompare_made_clipped h draw (x.pairOf 248) { made := 0, failed := 0, unmade := 0 }
  have rest := foldl_made_le (k := 1) (fun (n : SeamCount) s => seamCompare_made_le x draw s l (x.pairOf (248 + s)) n) [1, 2, 3, 4, 5, 6, 7]
    (x.seamCompare false 8 1 draw 0 l (x.pairOf 248) { made := 0, failed := 0, unmade := 0 })
  rw [first] at rest
  simpa [Tile.seams, show List.range 8 = [0, 1, 2, 3, 4, 5, 6, 7] from rfl] using rest

/-- A tile whose first prediction clips does not pass the self-check: a comparison is not made (R386). -/
theorem selfCheck_clipped {x : Tile} (h : clips false (unclamped 128 (x.seamPredicted 0 (driveAll ((List.range 64).map (64 * 0 + ·)) 8)) 8) = true)
    (draw : Nat) : (x.selfCheck draw).passes = false := by
  have first := seams_made_clipped h (draw + 0)
  have rest := fun (n : SeamCount) => foldl_made_le (k := 8) (f := fun n k =>
      let c := x.seams false 8 1 (draw + k) 0 512 (driveAll ((List.range 64).map (64 * k + ·)) 8)
      ({ made := n.made + c.made, failed := n.failed + c.failed, unmade := n.unmade + c.unmade } : SeamCount))
    (fun n k => Nat.add_le_add_left (seams_made_le x (draw + k) _) n.made) [1, 2, 3, 4, 5, 6, 7] n
  have small : (x.selfCheck draw).made ≤ 63 := by
    rw [Tile.selfCheck, show List.range 8 = [0, 1, 2, 3, 4, 5, 6, 7] from rfl, List.foldl_cons]
    refine (rest _).trans ?_
    simp only [List.length_cons, List.length_nil]
    omega
  have : (x.selfCheck draw).made ≠ 64 := by omega
  simp [SeamCount.passes, this]

end Sys2Proof.Machine
end

