-- ==== Sys2Proof/Tests/Slice0.lean ====
section
/-!
SUPPORT. Tests: states on which the other theorems stand, an ill-formed term for each check of `Instr.wf`, the spec's worked examples, and
for each statement of Certificates/Slice0/Obligations.lean a state and operands that meet the hypotheses of each of its clauses.
-/

open Sys2Proof Sys2Proof.Machine

section

set_option Elab.async false
set_option maxRecDepth 100000
set_option linter.unusedVariables false

/-- A device that has booted: ACTIVE, READY, frame 1 running. -/
def up : State :=
  { State.reset with dev := State.reset.dev.onPwr (fun w => { w with state := .active, ready := true, frame1 := true, restored := true, selected := true, outcomePlaced := true }) }

/-- The same with a page changed. -/
def pageWith (s : State) (b : Basket) (f : Page → Page) : State := { s with dev := s.dev.onPage b f }

/-- The same with the arguments of basket 0's page. -/
def argsOf (s : State) (l : List Nat) : State :=
  pageWith s 0 (fun p => { p with args := vec 8 (fun i => BitVec.ofNat 16 (l.getD i 0)) })

/-- The same with the device changed. -/
def devWith (s : State) (f : Dev → Dev) : State := { s with dev := f s.dev }

/-- A boot record without entries; its CRC was computed with zlib. -/
def bootBytes : List Byte :=
  [0x42, 0x4F, 0x4F, 0x54, 1, 0, 3, 10, 32, 0, 0, 0, 0, 0, 0, 0, 0, 0, 0, 0, 0, 0, 0, 0, 0, 0, 0, 0] ++ [0x38, 0xA6, 0xB0, 0x6E]

/-- An offset calibration over 4 samples of raw code 2, its window ended. -/
def aCal : Calibration :=
  { gain := false, start := 0, stop := 50, basket := 0, n1 := 4, sum1 := 8, sq1 := 16, n2 := 0, sum2 := 0, sq2 := 0, dirty := false }

/-- Tach input 3 with live settings and a loop. -/
def tachAt (set : TachSet) (l : TachLoop) : State :=
  devWith up (fun d => (d.onWr (fun w => { w with live := { w.live with tachs := w.live.tachs.set 3 set } })).onLoop 3 (fun _ => l))


/-- Frame 7, ended at instant 0, with one value for every feature, read out or not. -/
def theEnded (v : BandValue) (out : Bool) : EndedFrame :=
  { num := 7, start := 0, stop := 0, startStamp := 3, stopStamp := 9, tref := ms 100, truncated := false, blanked := false,
    values := List.replicate 512 v, handedOff := out, counted := out, written := false }

/-- A device that is reading that frame out. -/
def ended (v : BandValue) (out : Bool) : State := devWith up (fun d => d.onWr (fun w => { w with ended := some (theEnded v out) }))

/-- A small image: a tile layer of 2 inputs and 1 output on logical tile 0, then a vector layer of one descriptor. -/
def anImage : Image :=
  { basket := 0, length := 96, modelId := 9, crc := 5, auth := false, fixed := false, divider := 1, priority := 3, logicalTiles := 1, deadlineUs := 100,
    layers := [{ vector := false, pass := 0, inFormat := 0, weightFormat := 0, inCount := 2, outCount := 1, firstSlice := 0, sliceCount := 1,
                 descFirst := 0, descCount := 0, biasOffset := 0, outBytes := 8, input := 0xFFFF, softHead := false },
               { vector := true, pass := 0, inFormat := 0, weightFormat := 0, inCount := 1, outCount := 1, firstSlice := 0, sliceCount := 0,
                 descFirst := 0, descCount := 1, biasOffset := 0, outBytes := 8, input := 0, softHead := false }],
    slices := [{ layer := 0, dMode := false, replicas := 1, tiles := [0], rowFirst := 0, rowCount := 2, outFirst := 0, outCount := 1, inFirst := 0,
                 outBase := 0, budget := 8, shift := 0, seamTol := 4, busy := 0 }],
    blocks := [{ rowFirst := 0, rowCount := 2, darnReserve := 0, dataOffset := 0, dataCrc := 0 }], weights := 64, workspaces := [],
    descs := [{ op := 1, inFormat := 2, outFormat := 2, engine := 0, count := 1, src := 0, src2 := 0, dst := 1, param := 0 }],
    bindings := [{ kind := 0, source := 1, frame := 0, missing := 0, first := 0, count := 2, target := 0, node := 0, slot := 0, detector := 0 }],
    reload := none, learn := none, biases := [[], []] }

/-- It is loaded on tile 5, with one unit of SRAM from unit 8. -/
def aModel : Model :=
  { basket := 0, image := anImage, state := .loaded, imageAddr := 0x80000, qspi := false, firstUnit := 9, unitCount := 1, wUs := 20, wUnits := us 20,
    tags := 4, margin := 0, projection := [], place := [5], toPress := [], loadFail := none, loadTag := 7, firstFrame := 1, lastRun := 0,
    runsDone := 0, runsEarly := 0, runsMissed := 0, update := 0, lastResult := 0, verdict := 0, novelty := 0, learn := none, run := none, leaving := [] }

/-- An entry of a basket area. -/
def anEntry : Entry :=
  { modelId := 7, state := .learning, doubt := false, pending := false, baseCount := 0, headRows := 0, headOutputs := 0, stateTime := 0, elapsed := 0,
    number := 1, labelSeq := 0, runs := 0, doubtful := 0, n := 0, baseline := [], codes := [],
    log := [{ number := 1, minutes := 2, units := 3, rows := 4, cause := 5, result := 0 }] }

/-- A run that has just started. -/
def aRun : Run :=
  { frame := 1, start := 0, tr := 0, deadline := sec 1, layer := 0, layerOn := false, waitFor := false, gathered := false, finished := false, flags := 0, clips := 0,
    saturations := 0, unchecked := 0, replicas := [], usable := [], planned := [], accums := [], seamFailed := [], handed := [], counts := [], tagsPeak := 0, states := [], passDone := 0, passTaken := 0,
    reloadQueue := [], verdict := none, verdictTop := none, novelty := none, baseShadow := none, headShadow := none, label := none }

/-- A triggered ring of 64 entries at unit 4 that runs. -/
def aRing : Ring :=
  { base := 256, length := 64, mode := .triggered, withAngle := false, tach := 0, comp := none, post := 2, tag := 0, state := .running, next := 0, total := 0,
    newest := 0, trigAt := none, trigIndex := none, postLeft := 0 }

/-- An image of one vector layer and one block of zeros, at 0x90000; its CRCs were computed with zlib. Chain 3 has its peak detector on and tile 0
is SPARE. -/
def imageCells : List Host.Cell :=
  [(0x90000, 65), (0x90001, 83), (0x90002, 75), (0x90003, 84), (0x90005, 1), (0x90008, 220), (0x90009, 1), (0x9000C, 5), (0x9000E, 1),
   (0x90010, 9), (0x90014, 1), (0x90016, 3), (0x90017, 1), (0x9003C, 170), (0x9003D, 187), (0x9003E, 210), (0x9003F, 201), (0x90040, 1),
   (0x90044, 124), (0x90048, 32), (0x9004C, 2), (0x90050, 156), (0x90054, 4), (0x90058, 4), (0x9005C, 160), (0x90060, 20), (0x90064, 5),
   (0x90068, 180), (0x9006C, 20), (0x90070, 3), (0x90074, 200), (0x90078, 20), (0x90079, 1), (0x9007C, 1), (0x9007E, 5), (0x90080, 1),
   (0x9008A, 1), (0x9008C, 255), (0x9008D, 255), (0x9008E, 255), (0x9008F, 255), (0x90090, 4), (0x90094, 255), (0x90095, 255), (0x900A2, 1),
   (0x900A4, 22), (0x900A5, 5), (0x900A6, 5), (0x900A7, 255), (0x900A8, 1), (0x900AD, 2), (0x900B4, 1), (0x900B8, 2), (0x900BC, 3), (0x900BE, 1),
   (0x900C8, 1), (0x900CE, 1), (0x900D4, 20), (0x900D8, 88), (0x900D9, 133), (0x900DA, 150), (0x900DB, 13)]

def imageAt : State :=
  devWith up (fun d => ((({ d with sram := { cells := imageCells, written := [0x90] } }).onChain 3 (fun c =>
    { c with detSet := { c.detSet with peakOn := true } })).onTile 0 (fun x => { x with state := .spare })))

/-- Its MD_LOAD from unit 10. -/
def loading : State := argsOf imageAt [0, 0, 9, 476, 0, 10]

/-- An enabled band value of 0. -/
def zeroValue : BandValue := { enabled := true, area := 0, count := false, scale := 0, flags := 0 }

/-- Frame 7 as it ends with that value for every feature. -/
def justEnded : EndedFrame := theEnded zeroValue true

/-- A learning side that has just been loaded. -/
def theLearn : Learn :=
  { state := .learning, winStart := none, winLen := 0, doubt := false, pendingPatch := false, runs := 0, doubtful := 0, n := 0, committed := 0,
    discarded := 0, noChange := 0, badLabels := 0, seqDone := 0, freezeFrom := none, releaseFrom := none, elapsed := 0, lastTr := none,
    patchDue := none, patchNumber := 0, patchStep := none, codes := [], newCodes := [], imageCodes := [], recommission := false, base := [], log := [] }

/-- A learning specification. -/
def theSpec : LearnSpec :=
  { softLayer := 0, recon := false, update := 1, forget := 4, interval := none, freezeHold := 1, releaseTime := 3600, commission := 1,
    freezeLevel := 0x4200, releaseLevel := 0x3C00, doubtLevel := 0x4200, rate := 0x2E66, baseFirst := 0, baseCount := 0 }

/-- A DATA entry in slot 5 and a REFERENCE entry in slot 1, both of node 3, and a DATA entry of node 9 in slot 7. -/
def dataEntry : SlotEntry :=
  { slot := 5, owner := 3, basket := 0, kind := 0, use := 0, silent := false, base := 0, repExp := 0, span := 1, maxLen := 4, rank := 0, source := .buffer }
def theEntries : List (Nat × SlotEntry) :=
  [(2, dataEntry), (4, { dataEntry with slot := 1, kind := 1, rank := 1, source := .none, maxLen := 8 }), (6, { dataEntry with slot := 7, owner := 9, source := .none }),
   (8, { dataEntry with slot := 8, owner := 0, kind := 2, source := .none })]

/-- Node 3 of a BUS, JOINED, in the cycle that began at 5 ms. -/
def busLink (l : Link) : Link :=
  { l with state := .joined, everSynced := true, fullCycle := true, adopting := false, cycleAt := ms 5, nextCycle := ms 6,
           live := { set := { LinkSet.reset with topology := .bus, node := 3 }, entries := theEntries } }
def onBus (f : Link → Link) : State := devWith up (fun d => d.onLink (fun l => f (busLink l)))

/-- The same node on a ring. -/
def onRing (f : Link → Link) : State :=
  onBus (fun l => f { l with live := { l.live with set := { l.live.set with topology := .ring } } })

/-- A claim of node 3 in force on entry 8. -/
def aClaim : Claim :=
  { entry := 8, node := 3, basket := 0, seen := false, opposed := false, unopposed := 0, inForce := true, released := false, silentFor := 0, heard := false }

/-- A valid DATA packet of node 9 in slot 7 of counter 0, with the payload 3, 4; its CRCs are computed. -/
def dataPacket : Packet :=
  { node := 9, type := 1, slot := 7, flags := 2, cycle := 0, length := 2, basket := 0, reserved := false, payload := [3, 4] }
def received (p : Packet) : Reception := { bytes := p.bytes, codeOk := true, sop := ms 5 + us 352, ref := ms 5 + us 352 }

/-- The BUS node with node 9 PRESENT and frame 4 running. -/
def hearing : State :=
  devWith (onBus (fun l => { l with partners := updAt l.partners 8 (fun q => { q with state := .present }) }))
    (fun d => d.onWr (fun w => { w with running := true, num := 4, startStamp := 0 }))

/-- Node 3 as the hub of channel A of a STAR. -/
def onHub (f : Link → Link) : State :=
  onBus (fun l => f { l with live := { l.live with set := { l.live.set with topology := .star, hub := 1 } } })

/-- The fitting check of the image at 0x90000, which it passes. -/
def theFit : Fit := (here loading 3).fit ((here loading 3).ctx loading.chip loading.fuse.blown 0)

/-! ## Ill-formed commands -/

/-- 0x0210 is a listed code. -/
theorem test_illFormed_unknownCommand_listed : (Instr.unknownCommand 0 0 0x0210).wf = false := by decide +kernel

/-- No START bit. -/
theorem test_illFormed_windowStart_bit : (Instr.windowStart 0 0 0 2).wf = false := by decide +kernel

/-- No ABORT bit. -/
theorem test_illFormed_windowAbort_bit : (Instr.windowAbort 0 0 0 1).wf = false := by decide +kernel

/-- Not a word 0. -/
theorem test_illFormed_multiwordSnapshotRead_offset : (Instr.multiwordSnapshotRead 0 0 0x05).wf = false := by decide +kernel

/-- One chip select low. -/
theorem test_illFormed_busConflict_selects : (Instr.busConflict 0 4 false).wf = false := by decide +kernel

/-- An instruction that holds the device in RESET. -/
theorem test_illFormed_tapReset_instruction : (Instr.tapReset 0 3).wf = false := by decide +kernel

/-- An instruction that does not. -/
theorem test_illFormed_tapExtestEntry_instruction : (Instr.tapExtestEntry 0 1).wf = false := by decide +kernel

/-- The means for one feature of 512. -/
theorem test_illFormed_frameBoundary_means : (Instr.frameBoundary 0 [(0, 0)]).wf = false := by decide +kernel

/-- More than 12 iterations. -/
theorem test_illFormed_rowPress_iterations : (Instr.rowPress 0 0 13 []).wf = false := by decide +kernel

/-- A row outside the tile. -/
theorem test_illFormed_driftAgeAdvance_row : (Instr.driftAgeAdvance 0 [{ tile := 0, row := 528, column := 0,
                                                                         level := 0 }]).wf = false := by decide +kernel

/-- Transitions out of order. -/
theorem test_illFormed_indexCode_order : (Instr.indexCode 0 0 { start := 5, transitions := [5] }).wf = false := by decide +kernel

/-- Above the 24-bit converter. -/
theorem test_illFormed_sample_range : (Instr.sample 0 0 { raw := 8388608, level := { diff := 0, common := 0 } }).wf = false := by decide +kernel

/-- A minislot out of range. -/
theorem test_illFormed_dynamicTransmit_minislot : (Instr.dynamicTransmit 0 1024).wf = false := by decide +kernel

/-- Longer than a packet. -/
theorem test_illFormed_packetReceive_length : (Instr.packetReceive 0 0 { bytes := List.replicate 301 0, codeOk := true, sop := 0,
                                                                         ref := 0 }).wf = false := by decide +kernel

/-! ## Checks of Table 00-6 -/

/-- Table 00-6: the CRC-32 of "123456789". -/
theorem test_crc32_check : crc32 [0x31, 0x32, 0x33, 0x34, 0x35, 0x36, 0x37, 0x38, 0x39] = 0xCBF43926 := by decide +kernel

/-- Table 00-6: the CRC-32C of "123456789". -/
theorem test_crc32c_check : crc32c [0x31, 0x32, 0x33, 0x34, 0x35, 0x36, 0x37, 0x38, 0x39] = 0xE3069283 := by decide +kernel

/-- Table 00-6: the CRC-8 of "123456789". -/
theorem test_crc8_check : crc8 [0x31, 0x32, 0x33, 0x34, 0x35, 0x36, 0x37, 0x38, 0x39] = 0xDF := by decide +kernel

/-! ## Shaft angle and Wringer (chapters 03 and 04) -/

/-- Chapter 04: 8 × fc of 4554 Hz takes the 5120 Hz corner, 5 Hz × 2^10. -/
theorem test_prefilter_4554 : prefilterStep { num := 4554, den := 8 } = 10 := by decide +kernel

/-- Chapter 04: 8 × fc of 607.8 Hz takes the 640 Hz corner, 5 Hz × 2^7. -/
theorem test_prefilter_608 : prefilterStep { num := 6078, den := 80 } = 7 := by decide +kernel

/-- Chapter 03: an interval of 673.4 µs at PPR 60 is 24.75 Hz. -/
theorem test_rate_of_interval : (rateOf 60 (ns 673400)).num / (rateOf 60 (ns 673400)).den = 24 := by decide +kernel

/-- Chapter 12: 1000 cycles of 1 ms. -/
theorem test_network_length : netLenInRange 1000 1000 = true ∧ netLenInRange 0 1000 = false := by decide +kernel

/-! ## WR_SET_PLAN (chapter 16) -/

/-- The example of chapter 16: band 24 of plan 1 is ORDER on TACH0, ABS, SCALE 5, centre 786, Q 10 in the staged copy; nothing live changes. -/
theorem test_set_plan_example : (match exec (.wrSetPlan 3 0) (argsOf up [1, 24, 0x0051, 0x0312, 0, 40]) with
    | .next s => s.dev.host.pages[(0 : Fin 4)].cmdState == .done &&
        (s.dev.wr.staged.plans[(1 : Fin 8)]).bands[(24 : Fin 32)] == { order := true, tach := 0, square := false, scale := 5, centre := 786,
                                                                       q := 40 } &&
        s.dev.wr.live == up.dev.wr.live
    | _ => false) = true := by decide +kernel

/-! ## Rinse chain (chapter 06) -/

/-- Chapter 06: B and KN × 2^23 at DEC_RATIO 48. -/
theorem test_cic_48 : cicShift 48 = 27 ∧ cicFactor 48 = 0x436C83 := by decide +kernel

/-- The integer part of a square root. -/
theorem test_isqrt_values : isqrt 99 = 9 ∧ isqrt 100 = 10 := by decide +kernel

/-! ## Press tiles (chapter 07) -/

/-- Chapter 07: 512 rows of code 255 at weight 15 give round(59.77) = 60, which clips at 31. -/
theorem test_dense_layer_clips : unclamped 128 (512 * 255 * 15 * 2 ^ 40) 15 = 60 ∧ clips false 60 = true := by decide +kernel

/-- Chapter 07: covered weights that sum to 47 give q = 2 and d = −13. -/
theorem test_seam_row_10 : (seamsOf (List.replicate 29 1 ++ [18] ++ List.replicate 210 0)).1.head? = some 2 ∧
    (seamsOf (List.replicate 29 1 ++ [18] ++ List.replicate 210 0)).2.head? = some (-13) := by decide +kernel

/-- Chapter 07: covered weights that sum to −22 give q = −1 and d = 8. -/
theorem test_seam_row_11 : (seamsOf (-22 :: List.replicate 239 0)).1.head? = some (-1) ∧
    (seamsOf (-22 :: List.replicate 239 0)).2.head? = some 8 := by decide +kernel

/-- Chapter 07: the seam node of −1800 converts to −14, the drifted one of −2200 to −17. -/
theorem test_seam_codes : unclamped 128 (-1800 * 2 ^ 40) 7 = -14 ∧ unclamped 128 (-2200 * 2 ^ 40) 7 = -17 := by decide +kernel

/-- R374: ties go toward level 0. -/
theorem test_nearest_tie : nearestLevel (256 * 3 + 128) = 3 ∧ nearestLevel (256 * 3 + 129) = 4 := by decide +kernel

/-- R290: a quarter of a level. -/
theorem test_tolerance : inTolerance (256 * 3 + 64) 3 = true ∧ inTolerance (256 * 3 + 65) 3 = false := by decide +kernel

/-! ## Pressing and upkeep (chapter 08) -/

/-- R355 at 98 °C. -/
theorem test_weight_98 : weight16 98 = 16 := by decide +kernel

/-- R355: a reading of 105.0625 °C counts as 106 °C. -/
theorem test_weight_106 : weight16 106 = 17 := by decide +kernel

/-- R355 at 140 °C. -/
theorem test_weight_140 : weight16 140 = 32 := by decide +kernel

/-- R355: 1681 sixteenths are 105.0625 °C. -/
theorem test_dieTemp_rounds_up : (up.dev.onPwr (fun w => { w with dieTemp := 1681 })).w16 = 17 := by decide +kernel

/-- R357: 1 638 400 000 − 16 384 000 − 8448. -/
theorem test_remaining_budget : ({ Tile.blank with counter := 8448 }).remaining = 1622007552 := by decide +kernel

/-! ## Vector engines and caches (chapters 09 and 10) -/

/-- Chapter 09: REQUANT of 200 elements takes 30 cycles. -/
theorem test_cycles_requant : ({ op := 1, inFormat := 3, outFormat := 3, engine := 0xFF, count := 200, src := 0, src2 := 0, dst := 1,
                                 param := 0 } : Desc).cycles = 30 := by decide +kernel

/-- 0.1 to the nearest FP16 is 0.0999755859375. -/
theorem test_fp16_tenth : fpOfRatio 1 10 = 0x2E66 := by decide +kernel

/-- Table 10-6, step 4: arbitration from P = 3, VE3 wins. -/
theorem test_line_from_3 : ({ line := 5, state := .uncached, writeback := false, writeFrom := 0, keepShared := false, purge := false, waiting := [(0,
                              true), (3, true)] } : Line).winner 3 = some (3, true) := by decide +kernel

/-- Table 10-6, step 7: VE0 wins. -/
theorem test_line_from_0 : ({ line := 5, state := .uncached, writeback := false, writeFrom := 0, keepShared := false, purge := false, waiting := [(0,
                              true)] } : Line).winner 0 = some (0, true) := by decide +kernel

/-! ## Learning and patch store (chapter 11) -/

/-- Chapter 11: 304 + 512 + 512 bytes. -/
theorem test_store_demand : storeDemand 64 64 8 = 1328 := by decide +kernel

/-- R562: a record of 9216 bytes takes 132.16 µs. -/
theorem test_write_time : writeTime 9216 = ns 132160 := by decide +kernel

/-- The SEQUENCE after 0xFFFF_FFFF is 1. -/
theorem test_sequence_wraps : nextSeqOf 0xFFFFFFFF = 1 := by decide +kernel

/-! ## Ixward (chapters 12 and 13) -/

/-- Chapter 12: a feature block of 128 words lasts 135.5 µs. -/
theorem test_packet_128_words : ({ LinkSet.reset with topology := .bus }).packetNs 128 = 135500 := by decide +kernel

/-- Chapter 13: a REF lasts 15.5 µs. -/
theorem test_packet_8_words : ({ LinkSet.reset with topology := .bus }).packetNs 8 = 15500 := by decide +kernel

/-- Chapter 12: a packet of 32 words. -/
theorem test_packet_32_words : ({ LinkSet.reset with topology := .bus }).packetNs 32 = 39500 := by decide +kernel

/-- R580: K28.5, K27.7, the bytes, K29.7. -/
theorem test_frame_of_bytes : onWire [0x34] = [none, none, some 0x34, none] := by decide +kernel

/-- Chapter 12: an NIT of 1000 − 800 − 150 = 50 µs. -/
theorem test_nit_reference : ({ LinkSet.reset with cycleUs := 1000, slots := 16, slotUs := 50, minislots := 150,
                                                   miniUs := 1 }).nitUs = 50 := by decide +kernel

/-! ## Start-up and calendar (chapter 17) -/

/-- R886: a year divisible by 4 is a leap year, but not 2100, 2200 and 2300. -/
theorem test_leap_years : leapYear 2000 = true ∧ leapYear 2100 = false ∧ leapYear 2096 = true := by decide +kernel

/-- R952: a read that reaches 0x0100_0000 uses the 4-byte command. -/
theorem test_wide_read : (qspiRead 0xEB 50 0xFF 0xFFFFF0 32).opcode = 0xEC ∧ (qspiRead 0xEB 50 0xFF 0xFFFFF0 16).opcode = 0xEB := by decide +kernel

/-- R864: 0xFF in the two mode clocks, then 4 dummy clocks. -/
theorem test_quad_mode_byte : (qspiRead 0xEB 50 0xFF 0 32).mode = some 0xFF ∧ (qspiRead 0xEB 50 0xFF 0 32).dummy = 4 := by decide +kernel

/-- R861: a READ_OPCODE not in Table 17-5 is bad. -/
theorem test_boot_header : goodHeader (bootBytes.take 32) bootBytes = true ∧ goodHeader ((bootBytes.take 6 ++ [0x05] ++
    bootBytes.drop 7)) bootBytes = false := by decide +kernel

/-- The table gives no row bits (log entry 6). -/
theorem test_fetch_word : State.reset.withFetchWord 16 0x0210 = State.reset ∧ decodeTableWord 16 0x0210 = none := ⟨rfl, rfl⟩

/-- An empty queue idles (log entry 6). -/
theorem test_idle : step State.reset = .next State.reset := rfl

/-! ## Hypotheses that are met -/

theorem theFit_passes : (match theFit.model with
    | some m => theFit.refused.isNone && !theFit.mismatch && (here loading 3).storeTakes m theFit.entry
    | none => false) = true := by decide +kernel

theorem witness_SupervisorOnly_all : ∃ (s : State) (t : Time) (b : Basket),
    Starts s b ∧
    b ≠ 0 :=
  ⟨devWith up (fun d => d.onHost (fun h => { h with enable := Vector.replicate 4 true })), 0, 2, by decide +kernel⟩

theorem witness_IgnoredCommands_busy : ∃ (s : State) (t : Time) (b : Basket) (code : BitVec 16),
    Reaches s b ∧
    (s.dev.pwr.ready = false ∨ s.dev.host.pages[b].cmdState = .busy) :=
  ⟨State.reset, 0, 0, 0x0101, by decide +kernel⟩

theorem witness_IgnoredCommands_unreached : ∃ (s : State) (t : Time) (b : Basket) (code : BitVec 16),
    ¬ Reaches s b :=
  ⟨up, 0, 1, 0x0101, by decide +kernel⟩

theorem witness_IgnoredCommands_unknown : ∃ (s : State) (t : Time) (b : Basket) (code : BitVec 16),
    Starts s b ∧
    code.toNat ∉ listedCodes :=
  ⟨up, 0, 0, 0x1234, by decide +kernel⟩

theorem witness_UnheldResourcesRefused_channel : ∃ (s : State) (t : Time),
    StartsAwake s 0 ∧
    ¬ Held s 0 .channels (arg s 0 0) :=
  ⟨argsOf up [24], 0, by decide +kernel⟩

theorem witness_UnheldResourcesRefused_tach : ∃ (s : State) (t : Time),
    StartsAwake s 0 ∧
    ¬ Held s 0 .tachs (arg s 0 0) :=
  ⟨argsOf up [4], 0, by decide +kernel⟩

theorem witness_UnheldResourcesRefused_tile : ∃ (s : State) (t : Time),
    StartsAwake s 0 ∧
    ¬ Held s 0 .tiles (arg s 0 0) :=
  ⟨argsOf up [48], 0, by decide +kernel⟩

theorem witness_UnheldResourcesRefused_output : ∃ (s : State) (t : Time),
    StartsAwake s 0 ∧
    ¬ Held s 0 .outputs (arg s 0 0) :=
  ⟨argsOf up [9], 0, by decide +kernel⟩

theorem witness_UnheldResourcesRefused_comparator : ∃ (s : State) (t : Time),
    StartsAwake s 0 ∧
    ¬ Held s 0 .comparators (arg s 0 0) :=
  ⟨argsOf up [32], 0, by decide +kernel⟩

theorem witness_UnheldResourcesRefused_model : ∃ (s : State) (t : Time),
    StartsAwake s 0 ∧
    s.dev.ownsHandle 0 (arg s 0 0) = false :=
  ⟨argsOf up [3], 0, by decide +kernel⟩

theorem witness_CommandsComplete_done : ∃ (s : State) (t : Time) (b : Basket) (r : Running) (o : CmdOutcome),
    s.dev.host.pages[b].running = some r ∧
    r.outcome = some o :=
  ⟨pageWith up 0 (fun p => { p with cmdState := .busy, running := some { code := 0x0312, args := p.args, tag := 7, since := 0,
                                                                         outcome := some { error := 0x0A, results := p.results } } }), 9, 0,
      { code := 0x0312, args := Vector.replicate 8 0, tag := 7, since := 0, outcome := some { error := 0x0A, results := Vector.replicate 4 0 } },
      { error := 0x0A, results := Vector.replicate 4 0 }, by decide +kernel⟩

theorem witness_InterruptRegisters_pending : ∃ (s : State) (t : Time) (b : Basket) (val : BitVec 16),
    Reaches s b :=
  ⟨pageWith up 0 (fun p => { p with irqPending := vec 13 (fun i => i % 3 == 1), irqSetAt := vec 13 (fun i => i) }), 4, 0, 0x00F2, by decide +kernel⟩

theorem witness_InterruptRegisters_enable : ∃ (s : State) (t : Time) (b : Basket) (val : BitVec 16),
    Reaches s b :=
  ⟨up, 4, 0, 0xFFFF, by decide +kernel⟩

theorem witness_StatusClears_trip : ∃ (s : State) (t : Time) (b : Basket) (val : BitVec 16),
    Reaches s b :=
  ⟨devWith up (fun d => { d with guard := { d.guard with outs := vec 8 (fun _ => { Needle.reset with tripStatus := true }) } }), 7, 0, 0x0033,
      by decide +kernel⟩

theorem witness_StatusClears_latch : ∃ (s : State) (t : Time) (b : Basket) (word : Fin 2) (val : BitVec 16),
    Reaches s b ∧
    (∀ i : Fin 32, s.dev.guard.comps[i].latchSetAt ≠ instant s t) :=
  ⟨devWith up (fun d => { d with guard := { d.guard with comps := vec 32 (fun i => { Comparator.reset i with latch := true }) } }), 7, 0, 1, 0x8003,
      by decide +kernel⟩

theorem witness_StatusClears_overload : ∃ (s : State) (t : Time) (b : Basket) (word : Fin 2) (val : BitVec 16),
    Reaches s b :=
  ⟨pageWith up 0 (fun p => { p with overload := Vector.replicate 24 true, overloadSetAt := vec 24 (fun i => i) }), 5, 0, 0, 0x00F1, by decide +kernel⟩

theorem witness_StatusClears_cause : ∃ (s : State) (t : Time) (val : BitVec 16),
    Reaches s 0 :=
  ⟨up, 0, 0x0001, by decide +kernel⟩

theorem witness_StatusClears_causeOthers : ∃ (s : State) (t : Time) (b : Basket) (val : BitVec 16),
    b ≠ 0 :=
  ⟨up, 0, 1, 0x0001, by decide +kernel⟩

theorem witness_RegisterWrites_args : ∃ (s : State) (t : Time) (b : Basket) (k : Fin 8) (val : BitVec 16),
    Reaches s b :=
  ⟨up, 1, 0, 3, 0xBEEF, by decide +kernel⟩

theorem witness_RegisterWrites_tag : ∃ (s : State) (t : Time) (b : Basket) (val : BitVec 16),
    Reaches s b :=
  ⟨up, 1, 0, 0x1234, by decide +kernel⟩

theorem witness_RegisterWrites_window : ∃ (s : State) (t : Time) (b : Basket) (w : Fin 2) (val : BitVec 16),
    Reaches s b :=
  ⟨up, 1, 0, 1, 0xFFFF, by decide +kernel⟩

theorem witness_RegisterWrites_enable : ∃ (s : State) (t : Time) (val : BitVec 16),
    Reaches s 0 :=
  ⟨up, 1, 0xA, by decide +kernel⟩

theorem witness_RegisterWrites_enableOthers : ∃ (s : State) (t : Time) (b : Basket) (val : BitVec 16),
    b ≠ 0 :=
  ⟨up, 1, 2, 0xA, by decide +kernel⟩

theorem witness_RegisterWrites_ignored : ∃ (s : State) (t : Time) (b : Basket) (off : BitVec 8) (val : BitVec 16),
    (¬ Reaches s b ∨ off.toNat < 0x08 ∨ off = 0x0B ∨ off = 0x11 ∨ off = 0x12 ∨ (0x14 ≤ off.toNat ∧ off.toNat < 0x18) ∨ (0x20 ≤ off.toNat ∧
        off.toNat < 0x28) ∨ (0x2D ≤ off.toNat ∧ off.toNat < 0x30) ∨ (0x35 ≤ off.toNat ∧ off.toNat < 0x80) ∨ (0x82 ≤ off.toNat ∧
        off.toNat < 0x86) ∨ 0x87 ≤ off.toNat ∨ (b ≠ 0 ∧ 0x80 ≤ off.toNat)) :=
  ⟨up, 1, 0, 0x14, 0xFFFF, by decide +kernel⟩

theorem witness_WindowAccesses_read : ∃ (s : State) (t : Time) (b : Basket) (w : Fin 2),
    Reaches s b :=
  ⟨pageWith (devWith up (fun d => d.memWrite 0x80010 [1, 2,
      3])) 0 (fun p => { p with windows := p.windows.set 1 { Window.reset with addr := 0x80010, posted := [(0x80010, 0xBEEF)] } }), 5, 0, 1,
      by decide +kernel⟩

theorem witness_WindowAccesses_write : ∃ (s : State) (t : Time) (b : Basket) (w : Fin 2) (val : BitVec 16),
    Reaches s b :=
  ⟨pageWith up 0 (fun p => { p with windows := p.windows.set 1 { Window.reset with addr := 0x80010, posted := List.replicate 32 (0x90000, 5) } }), 5,
      0, 1, 0x1234, by decide +kernel⟩

theorem witness_WindowAccesses_counts : ∃ (s : State) (t : Time) (b : Basket) (w : Fin 2) (val : BitVec 16),
    Reaches s b ∧
    s.dev.host.pages[b].windows[w].active = true :=
  ⟨pageWith up 0 (fun p => { p with windows := p.windows.set 1 { Window.reset with addr := 0x80010, active := true, activeLen := 1, len := 1 } }), 5,
      0, 1, 0x1234, by decide +kernel⟩

theorem witness_WindowAccesses_drain : ∃ (s : State) (t : Time) (b : Basket) (w : Fin 2) (a : Nat) (v : Word) (rest : List (Nat × Word)),
    s.dev.host.pages[b].windows[w].posted = (a, v) :: rest ∧
    s.dev.spool.held a (instant s t) = false :=
  ⟨pageWith up 0 (fun p => { p with windows := p.windows.set 1 { Window.reset with posted := [(0x90000, 5)] } }), 5, 0, 1, 0x90000, 5, [],
      by decide +kernel⟩

theorem witness_WindowTransfers_start : ∃ (s : State) (t : Time) (b : Basket) (w : Fin 2) (val : BitVec 16),
    Reaches s b ∧
    bit val.toNat 0 = true ∧
    s.dev.host.pages[b].windows[w].active = false ∧
    s.dev.host.pages[b].windows[w].len ≠ 0 :=
  ⟨pageWith up 0 (fun p => { p with windows := p.windows.set 1 { Window.reset with len := 9 } }), 5, 0, 1, 0x0005, by decide +kernel⟩

theorem witness_WindowTransfers_empty : ∃ (s : State) (t : Time) (b : Basket) (w : Fin 2) (val : BitVec 16),
    Reaches s b ∧
    bit val.toNat 0 = true ∧
    s.dev.host.pages[b].windows[w].active = false ∧
    s.dev.host.pages[b].windows[w].len = 0 :=
  ⟨up, 5, 0, 1, 0x0005, by decide +kernel⟩

theorem witness_WindowTransfers_restart : ∃ (s : State) (t : Time) (b : Basket) (w : Fin 2) (val : BitVec 16),
    Reaches s b ∧
    bit val.toNat 0 = true ∧
    s.dev.host.pages[b].windows[w].active = true ∧
    s.dev.host.pages[b].windows[w].len ≠ 0 :=
  ⟨pageWith up 0 (fun p => { p with windows := p.windows.set 1 { Window.reset with len := 9, active := true, count := 4, activeLen := 7 } }), 5, 0, 1,
      0x000D, by decide +kernel⟩

theorem witness_WindowTransfers_abort : ∃ (s : State) (t : Time) (b : Basket) (w : Fin 2) (val : BitVec 16),
    Reaches s b ∧
    bit val.toNat 0 = false ∧
    bit val.toNat 3 = true :=
  ⟨pageWith up 0 (fun p => { p with windows := p.windows.set 1 { Window.reset with len := 9, active := true, count := 4, activeLen := 7 } }), 5, 0, 1,
      0x0008, by decide +kernel⟩

theorem witness_QueueReads_fifo : ∃ (s : State) (t : Time) (b : Basket) (r : Record) (rest : List Record),
    Reaches s b ∧
    s.dev.host.pages[b].fifo = r :: rest :=
  ⟨up, 5, 0, bootRecord, [], by decide +kernel⟩

theorem witness_QueueReads_empty : ∃ (s : State) (t : Time) (b : Basket),
    Reaches s b ∧
    s.dev.host.pages[b].fifo = [] :=
  ⟨pageWith up 0 (fun p => { p with fifo := [] }), 5, 0, by decide +kernel⟩

theorem witness_QueueReads_violations : ∃ (s : State) (t : Time) (v : Violation) (rest : List Violation),
    Reaches s 0 ∧
    s.dev.host.violLog = v :: rest :=
  ⟨devWith up (fun d => d.onHost (fun h => { h with violLog := [{ stamp := 1, basket := 2, kind := 1, address := 3, count := 1, last := 3 }] })), 5,
      { stamp := 1, basket := 2, kind := 1, address := 3, count := 1, last := 3 }, [], by decide +kernel⟩

theorem witness_QueueReads_snapshot : ∃ (s : State) (t : Time) (b : Basket) (off : BitVec 8),
    Reaches s b ∧
    isSnapshotOffset b off.toNat = true :=
  ⟨up, 5, 0, 0x48, by decide +kernel⟩

theorem witness_QueueReads_conflict : ∃ (s : State) (t : Time) (selects : BitVec 4) (both : Bool),
    s.dev.pwr.state ≠ .off ∧
    s.dev.pwr.state ≠ .reset ∧
    (both = true ∨ ∃ i j : Fin 4, i ≠ j ∧ selects[i] = true ∧ selects[j] = true) :=
  ⟨up, 5, 6, false, by decide +kernel⟩

theorem witness_WatchAndWake_mask : ∃ (s : State) (t : Time),
    Starts s 0 ∧
    arg s 0 0 < 8 :=
  ⟨argsOf up [5], 3, by decide +kernel⟩

theorem witness_WatchAndWake_request : ∃ (s : State) (t : Time),
    Starts s 0 ∧
    arg s 0 0 = 3 ∧
    s.dev.pwr.state = .active ∧
    s.dev.pwr.watchRequest = false ∧
    (∀ h : Handle, (s.dev.models[h]).map (·.state) ≠ some .loading) :=
  ⟨argsOf up [3], 3, by decide +kernel⟩

theorem witness_WatchAndWake_leave : ∃ (s : State) (t : Time),
    Starts s 0 ∧
    arg s 0 0 = 2 ∧
    s.dev.pwr.state = .watch ∧
    s.dev.pwr.watchRequest = false ∧
    (∀ h : Handle, (s.dev.models[h]).map (·.state) ≠ some .loading) :=
  ⟨argsOf (devWith up (fun d => d.onPwr (fun w => { w with state := .watch }))) [2], 3, by decide +kernel⟩

theorem witness_WatchAndWake_enter : ∃ (s : State) (t : Time),
    s.dev.pwr.state = .active ∧
    s.dev.pwr.watchRequest = true ∧
    s.dev.pwr.wakes = 0 ∧
    s.dev.quiet = true :=
  ⟨devWith up (fun d => d.onPwr (fun w => { w with watchRequest := true })), 3, by decide +kernel⟩

theorem witness_WatchAndWake_wake : ∃ (s : State) (t : Time) (k : WakeSource),
    (s.dev.pwr.state = .watch ∨ (s.dev.pwr.state = .active ∧ s.dev.pwr.watchRequest = true)) ∧
    s.dev.pwr.wakes.getLsbD (wakeBit k).val = true :=
  ⟨devWith up (fun d => d.onPwr (fun w => { w with state := .watch, wakes := 2 })), 3, .alarm, by decide +kernel⟩

theorem witness_CalendarRows_set : ∃ (s : State) (t : Time),
    let x : Date :=
      { year := arg s 0 0, month := arg s 0 1, day := arg s 0 2, hour := arg s 0 3, minute := arg s 0 4, second := arg s 0 5 }
    Starts s 0 ∧
    x.possible = true ∧
    (s.dev.keep.alarmOn = true → x ≠ s.dev.keep.alarm) :=
  ⟨argsOf up [2024, 2, 29, 23, 59, 59], 3, by decide +kernel⟩

theorem witness_CalendarRows_get : ∃ (s : State) (t : Time) (b : Basket),
    Starts s b :=
  ⟨up, 3, 0, by decide +kernel⟩

theorem witness_CalendarRows_alarm : ∃ (s : State) (t : Time),
    let x : Date :=
      { year := arg s 0 0, month := arg s 0 1, day := arg s 0 2, hour := arg s 0 3, minute := arg s 0 4, second := arg s 0 5 }
    Starts s 0 ∧
    x.possible = true :=
  ⟨argsOf up [2024, 2, 29, 23, 59, 59, 1], 3, by decide +kernel⟩

theorem witness_CalendarRows_badDate : ∃ (s : State) (t : Time),
    let x : Date :=
      { year := arg s 0 0, month := arg s 0 1, day := arg s 0 2, hour := arg s 0 3, minute := arg s 0 4, second := arg s 0 5 }
    Starts s 0 ∧
    x.possible = false :=
  ⟨argsOf up [2023, 2, 29, 23, 59, 59, 1], 3, by decide +kernel⟩

theorem witness_CalendarRows_second : ∃ (s : State) (t : Time),
    s.dev.keep.lastSecond + sec 1 ≤ instant s t ∧
    s.dev.keep.date ≠ Date.last :=
  ⟨devWith up (fun d => d.onKeep (fun k => { k with valid := true, alarmOn := true, alarm := { Date.first with second := 1 } })), sec 1,
      by decide +kernel⟩

theorem witness_CalendarRows_lastSecond : ∃ (s : State) (t : Time),
    s.dev.keep.lastSecond + sec 1 ≤ instant s t ∧
    s.dev.keep.date = Date.last :=
  ⟨devWith up (fun d => d.onKeep (fun k => { k with date := Date.last })), sec 1, by decide +kernel⟩

theorem witness_HemFuseRows_arm : ∃ (s : State) (t : Time),
    StartsAwake s 0 ∧
    s.fuse.blown = false :=
  ⟨up, 3, by decide +kernel⟩

theorem witness_HemFuseRows_confirm : ∃ (s : State) (t : Time),
    StartsAwake s 0 ∧
    s.fuse.blown = false ∧
    s.dev.fuse.armed = true ∧
    instant s t < s.dev.fuse.windowEnd ∧
    s.dev.pwr.pfail = false ∧
    s.dev.pwr.vddpOk = true ∧
    arg32 s 0 0 + 2 ^ 32 * arg32 s 0 2 = s.chip.uniqueId.toNat :=
  ⟨devWith up (fun d => d.onFuse (fun f => { f with armed := true, windowEnd := 9 })), 3, by decide +kernel⟩

theorem witness_HemFuseRows_wrong : ∃ (s : State) (t : Time),
    StartsAwake s 0 ∧
    s.fuse.blown = false ∧
    s.dev.fuse.armed = true ∧
    instant s t < s.dev.fuse.windowEnd ∧
    (s.dev.pwr.pfail = true ∨ s.dev.pwr.vddpOk = false ∨ arg32 s 0 0 + 2 ^ 32 * arg32 s 0 2 ≠ s.chip.uniqueId.toNat) :=
  ⟨argsOf (devWith up (fun d => d.onFuse (fun f => { f with armed := true, windowEnd := 9 }))) [1], 3, by decide +kernel⟩

theorem witness_HemFuseRows_late : ∃ (s : State) (t : Time),
    StartsAwake s 0 ∧
    s.fuse.blown = false ∧
    (s.dev.fuse.armed = false ∨ s.dev.fuse.windowEnd ≤ instant s t) :=
  ⟨up, 3, by decide +kernel⟩

theorem witness_HemFuseRows_fused : ∃ (s : State) (t : Time),
    StartsAwake s 0 ∧
    s.fuse.blown = true :=
  ⟨{ up with fuse := { element0 := false, element1 := true } }, 3, by decide +kernel⟩

theorem witness_HemFuseRows_window : ∃ (s : State) (t : Time),
    s.dev.fuse.armed = true ∧
    s.dev.fuse.blowing = none ∧
    s.dev.fuse.windowEnd ≤ instant s t :=
  ⟨devWith up (fun d => d.onFuse (fun f => { f with armed := true, windowEnd := 2 })), 3, by decide +kernel⟩

theorem witness_HemFuseRows_blow : ∃ (s : State) (t : Time) (b0 b1 : Bool) (b : Basket) (r : Running),
    s.dev.fuse.blowing = some b ∧
    s.dev.host.pages[b].running = some r ∧
    r.code = 0x0A11 ∧
    r.outcome = none :=
  ⟨devWith (pageWith up 0 (fun p => { p with cmdState := .busy, running := some { code := 0x0A11, args := p.args, tag := 7, since := 0,
                                                                                  outcome := none } })) (fun d => d.onFuse (fun f => { f with armed := true, windowEnd := 2, blowing := some 0 })), 3, true, false, 0, { code := 0x0A11, args := Vector.replicate 8 0, tag := 7, since := 0, outcome := none }, by decide +kernel⟩

theorem witness_DebugPortRows_access : ∃ (s : State) (t : Time) (a : BitVec 25) (v : BitVec 8) (i : Fin 48) (k : Nat),
    s.fuse.blown = false ∧
    s.dev.pwr.state ≠ .off ∧
    s.dev.pwr.state ≠ .reset :=
  ⟨up, 3, 0x80000, 9, 4, 5, by decide +kernel⟩

theorem witness_DebugPortRows_writesRegister : ∃ (s : State) (t : Time) (b : Basket) (k : Fin 8) (val : BitVec 16),
    s.fuse.blown = false ∧
    s.dev.pwr.state ≠ .off ∧
    s.dev.pwr.state ≠ .reset :=
  ⟨up, 3, 0, 2, 9, by decide +kernel⟩

theorem witness_DebugPortRows_reset : ∃ (s : State) (t : Time),
    s.fuse.blown = false ∧
    s.dev.pwr.state ≠ .off ∧
    s.dev.pwr.state ≠ .reset ∧
    s.dev.fuse.blowing = none :=
  ⟨up, 3, by decide +kernel⟩

theorem witness_DebugPortRows_closed : ∃ (s : State) (t : Time) (a : DebugAccess),
    (s.fuse.blown = true ∨ s.dev.pwr.state = .off ∨ s.dev.pwr.state = .reset) :=
  ⟨{ up with fuse := { element0 := true, element1 := false } }, 3, .haltIslands, by decide +kernel⟩

theorem witness_DebugPortRows_extest : ∃ (s : State) (t : Time) (i : BitVec 5),
    tapHolds i = true ∧
    s.dev.fuse.blowing = none :=
  ⟨up, 3, 3, by decide +kernel⟩

theorem witness_DebugPortRows_select : ∃ (s : State) (t : Time) (i : BitVec 5),
    tapHolds i = false ∧
    tapHolds s.dev.pwr.tapInstruction = false :=
  ⟨up, 3, 0x1F, by decide +kernel⟩

theorem witness_DebugPortRows_leave : ∃ (s : State) (t : Time) (i : BitVec 5),
    tapHolds s.dev.pwr.tapInstruction = true ∧
    tapHolds i = false ∧
    s.dev.fuse.blowing = none :=
  ⟨devWith up (fun d => d.onPwr (fun w => { w with tapInstruction := 4 })), 3, 1, by decide +kernel⟩

theorem witness_ResetRows_pin : ∃ (s : State) (t : Time),
    s.dev.fuse.blowing = none :=
  ⟨up, 3, by decide +kernel⟩

theorem witness_ResetRows_supply : ∃ (s : State) (t : Time) (m : Supply),
    s.dev.fuse.blowing = none :=
  ⟨up, 3, .vdda, by decide +kernel⟩

theorem witness_ResetRows_software : ∃ (s : State) (t : Time) (val : BitVec 16),
    Reaches s 0 ∧
    s.dev.fuse.blowing = none ∧
    bit val.toNat 0 = true ∧
    val.toNat / 256 = 0x5A :=
  ⟨up, 3, 0x5A01, by decide +kernel⟩

theorem witness_ResetRows_wrongKey : ∃ (s : State) (t : Time) (b : Basket) (val : BitVec 16),
    (b ≠ 0 ∨ bit val.toNat 0 = false ∨ val.toNat / 256 ≠ 0x5A) :=
  ⟨up, 3, 0, 0x5B01, by decide +kernel⟩

theorem witness_ResetRows_end : ∃ (s : State) (t : Time) (bootsel vddio : Bool),
    s.dev.pwr.state = .reset ∧
    s.dev.pwr.resetUntil ≤ instant s t ∧
    tapHolds s.dev.pwr.tapInstruction = false ∧
    s.dev.pwr.pfail = false :=
  ⟨devWith up (fun d => d.onPwr (fun w => { w with state := .reset, resetUntil := 2 })), 3, false, true, by decide +kernel⟩

theorem witness_BootRows_record : ∃ (s : State) (t : Time),
    let a := arg32 s 0 0
    let n := arg32 s 0 2
    let bs := s.dev.sram.bytes a n
    Starts s 0 ∧
    s.dev.pwr.state = .active ∧
    HeldRange s 0 a n ∧
    32 ≤ n ∧
    n = recordLengthOf bs ∧
    goodHeader (bs.take 32) bs = true :=
  ⟨argsOf (devWith up (fun d => d.memWrite 0x80000 bootBytes)) [0, 8, 32, 0], 3, by decide +kernel⟩

theorem witness_BootRows_restore : ∃ (s : State) (t : Time),
    s.dev.pwr.state = .boot ∧
    s.dev.pwr.restored = false ∧
    s.dev.clk.origin + us 20 + s.dev.restoreTime ≤ instant s t :=
  ⟨devWith State.reset (fun d => { d with tiles := d.tiles.set 3 { Tile.blank with state := .pressing, recorded := some .load } }), sec 1,
      by decide +kernel⟩

theorem witness_BootRows_select : ∃ (s : State) (t : Time),
    s.dev.pwr.state = .boot ∧
    s.dev.pwr.selected = false ∧
    s.dev.clk.origin + us 20 ≤ instant s t :=
  ⟨State.reset, us 20, by decide +kernel⟩

theorem witness_BootRows_entry : ∃ (s : State) (t : Time) (e : BootExec),
    s.dev.pwr.exec = some e ∧
    (here s t).entryDue e = true :=
  ⟨devWith up (fun d => (d.memWrite 0x80000 [0x00, 0x00, 0x00,
      0x00]).onPwr (fun w => { w with exec := some { BootExec.start (.sram 0) 0x80000 1 false with index := 0 } })), 3,
      BootExec.start (.sram 0) 0x80000 1 false, by decide +kernel⟩

theorem witness_BootRows_data : ∃ (s : State) (t : Time) (e : BootExec),
    let bs := s.dev.entryBytes e e.index
    let b : Basket := Fin.ofNat 4 (field bs 2 1)
    let src := field bs 4 2 + 65536 * field bs 6 2
    let n := field bs 8 2 + 65536 * field bs 10 2
    let a := field bs 12 2 + 65536 * field bs 14 2
    s.dev.pwr.exec = some e ∧
    (here s t).entryDue e = true ∧
    field bs 0 2 = 0 ∧
    b.val = field bs 2 1 ∧
    n ≠ 0 ∧
    HeldRange s b a n :=
  ⟨devWith up (fun d => (d.memWrite 0x80000 [0, 0, 0, 0, 0, 0, 0, 0, 2, 0, 0, 0, 0, 0, 9, 0, 0, 0, 0,
      0]).onPwr (fun w => { w with exec := some (BootExec.start (.sram 0) 0x80000 1 false) })), 3, BootExec.start (.sram 0) 0x80000 1 false,
      by decide +kernel⟩

theorem witness_BootRows_refused : ∃ (s : State) (t : Time) (e : BootExec),
    let bs := s.dev.entryBytes e e.index
    s.dev.pwr.exec = some e ∧
    (here s t).entryDue e = true ∧
    3 < field bs 2 1 :=
  ⟨devWith up (fun d => (d.memWrite 0x80000 [0, 0, 4, 0, 0, 0, 0, 0, 2, 0, 0, 0, 0, 0, 9, 0, 0, 0, 0,
      0]).onPwr (fun w => { w with exec := some (BootExec.start (.sram 0) 0x80000 1 false) })), 3, BootExec.start (.sram 0) 0x80000 1 false,
      by decide +kernel⟩

theorem witness_BootRows_endSram : ∃ (s : State) (t : Time) (e : BootExec) (b : Basket) (r : Running),
    s.dev.pwr.exec = some e ∧
    s.dev.active3 = true ∧
    e.badHeader = false ∧
    e.ended = true ∧
    e.source = .sram b ∧
    s.dev.host.pages[b].running = some r ∧
    r.code = 0x0104 ∧
    r.outcome = none :=
  ⟨devWith (pageWith up 0 (fun p => { p with cmdState := .busy, running := some { code := 0x0104, args := p.args, tag := 7, since := 0,
                                                                                  outcome := none } })) (fun d => d.onPwr (fun w => { w with exec := some { BootExec.start (.sram 0) 0x80000 1 false with index := 1 } })), 3, { BootExec.start (.sram 0) 0x80000 1 false with index := 1 }, 0, { code := 0x0104, args := Vector.replicate 8 0, tag := 7, since := 0, outcome := none }, by decide +kernel⟩

theorem witness_BootRows_endFlash : ∃ (s : State) (t : Time) (e : BootExec),
    s.dev.pwr.exec = some e ∧
    s.dev.active3 = true ∧
    e.badHeader = false ∧
    e.ended = true ∧
    e.source = .flash ∧
    s.dev.clk.origin + ns 48800 ≤ instant s t :=
  ⟨devWith State.reset (fun d => d.onPwr (fun w => { w with exec := some { BootExec.start .flash 32 1 false with index := 1 } })), us 49,
      { BootExec.start .flash 32 1 false with index := 1 }, by decide +kernel⟩

theorem witness_BootRows_frame1 : ∃ (s : State) (t : Time),
    s.dev.frame1Due = true ∧
    s.dev.pwr.exec = none ∧
    s.dev.wr.pending = none ∧
    s.dev.link.pending = none ∧
    (∀ c : Fin 24, (s.dev.rinse.chains[c]).pending = none) :=
  ⟨devWith State.reset (fun d => d.onPwr (fun w => { w with restored := true, selected := true })), us 300, by decide +kernel⟩

theorem witness_PfailRows_hold : ∃ (s : State) (t : Time),
    s.dev.pwr.pfail = false ∧
    (s.dev.pwr.state = .boot ∨ s.dev.pwr.state = .active ∨ s.dev.pwr.state = .watch) :=
  ⟨up, 3, by decide +kernel⟩

theorem witness_PfailRows_already : ∃ (s : State) (t : Time),
    s.dev.pwr.pfail = false ∧
    (s.dev.pwr.state = .hold ∨ s.dev.pwr.state = .fault) :=
  ⟨devWith up (fun d => d.onPwr (fun w => { w with state := .fault })), 3, by decide +kernel⟩

theorem witness_PfailRows_deassert : ∃ (s : State) (t : Time),
    s.dev.pwr.pfail = true :=
  ⟨devWith up (fun d => d.onPwr (fun w => { w with pfail := true })), 3, by decide +kernel⟩

theorem witness_PfailRows_exit : ∃ (s : State) (t : Time),
    s.dev.pwr.state = .hold ∧
    s.dev.pwr.pfail = false ∧
    s.dev.pwr.pfailLowSince + ms 1 ≤ instant s t ∧
    (here s t).storeActionEnded = true :=
  ⟨devWith up (fun d => (d.onPwr (fun w => { w with state := .hold })).onWr (fun w => { w with running := true, num := 7 })), ms 2, by decide +kernel⟩

theorem witness_FaultRows_reading : ∃ (s : State) (t : Time) (v : BitVec 16),
    s.dev.pwr.state ≠ .off ∧
    s.dev.pwr.state ≠ .reset :=
  ⟨up, 3, 0x0960, by decide +kernel⟩

theorem witness_FaultRows_thermal : ∃ (s : State) (t : Time) (h : Time),
    (s.dev.active3 = true ∨ s.dev.pwr.state = .hold) ∧
    s.dev.pwr.hotSince = some h ∧
    h + ms 1 ≤ instant s t :=
  ⟨devWith up (fun d => d.onPwr (fun w => { w with hotSince := some 5 })), ms 2, 5, by decide +kernel⟩

theorem witness_FaultRows_clock : ∃ (s : State) (t : Time),
    (s.dev.active3 = true ∨ s.dev.pwr.state = .hold) :=
  ⟨up, 3, by decide +kernel⟩

theorem witness_FaultRows_clear : ∃ (s : State) (t : Time) (h : Time),
    s.dev.pwr.state = .fault ∧
    s.dev.pwr.fault = some .thermal ∧
    s.dev.pwr.coolSince = some h ∧
    h + sec 1 ≤ instant s t :=
  ⟨devWith up (fun d => d.onPwr (fun w => { w with state := .fault, fault := some .thermal, coolSince := some 5 })), sec 2, 5, by decide +kernel⟩

theorem witness_FaultRows_clockStays : ∃ (s : State) (t : Time),
    s.dev.pwr.fault = some .clock :=
  ⟨devWith up (fun d => d.onPwr (fun w => { w with state := .fault, fault := some .clock })), 3, by decide +kernel⟩

theorem witness_GrantRows_grant : ∃ (s : State) (t : Time) (k : GrantKind),
    let target : Basket := Fin.ofNat 4 (arg s 0 0)
    let first := arg s 0 2
    let count := arg s 0 3
    StartsAwake s 0 ∧
    arg s 0 0 < 4 ∧
    GrantKind.ofNumber (arg s 0 1) = some k ∧
    k.quota = false ∧
    count ≠ 0 ∧
    (∀ n, n < count → k.exists_ (n + first) = true) ∧
    (k.exclusive = true → ∀ b : Basket, b ≠ target → ∀ n, n < count → (s.dev.grants[b]).holds k (n + first) = false) :=
  ⟨argsOf up [2, 7, 100, 30], 3, .features, by decide +kernel⟩

theorem witness_GrantRows_revoke : ∃ (s : State) (t : Time) (k : GrantKind),
    let target : Basket := Fin.ofNat 4 (arg s 0 0)
    let first := arg s 0 2
    let count := arg s 0 3
    StartsAwake s 0 ∧
    arg s 0 0 < 4 ∧
    GrantKind.ofNumber (arg s 0 1) = some k ∧
    k.quota = false ∧
    count ≠ 0 ∧
    (∀ n, n < count → k.exists_ (n + first) = true) ∧
    (∀ n, n < count → (s.dev.grants[target]).holds k (n + first) = true ∧ (here s t).unitInUse target k (n + first) = false) :=
  ⟨argsOf up [0, 1, 100, 30], 3, .units, by decide +kernel⟩

theorem witness_GrantRows_tags : ∃ (s : State) (t : Time),
    let target : Basket := Fin.ofNat 4 (arg s 0 0)
    let amount := arg32 s 0 2
    StartsAwake s 0 ∧
    arg s 0 0 < 4 ∧
    arg s 0 1 = 2 ∧
    amount ≠ 0 ∧
    (s.dev.grants.toList.map (·.tagQuota)).sum + amount ≤ 4096 :=
  ⟨argsOf (devWith up (fun d => { d with grants := d.grants.set 0 { Grants.supervisor with tagQuota := 100 } })) [1, 2, 50, 0], 3, by decide +kernel⟩

theorem witness_GrantRows_patches : ∃ (s : State) (t : Time),
    let target : Basket := Fin.ofNat 4 (arg s 0 0)
    let amount := arg32 s 0 2
    StartsAwake s 0 ∧
    arg s 0 0 < 4 ∧
    arg s 0 1 = 3 ∧
    amount ≠ 0 ∧
    amount % 1024 = 0 ∧
    (s.dev.grants[target]).patchQuota + amount ≤ 262144 :=
  ⟨argsOf up [1, 3, 1024, 0], 3, by decide +kernel⟩

theorem witness_GrantRows_held : ∃ (s : State) (t : Time) (k : GrantKind) (b : Basket) (n : Nat),
    let target : Basket := Fin.ofNat 4 (arg s 0 0)
    let first := arg s 0 2
    let count := arg s 0 3
    StartsAwake s 0 ∧
    arg s 0 0 < 4 ∧
    GrantKind.ofNumber (arg s 0 1) = some k ∧
    k.exclusive = true ∧
    count ≠ 0 ∧
    (∀ n, n < count → k.exists_ (n + first) = true) ∧
    b ≠ target ∧
    n < count ∧
    (s.dev.grants[b]).holds k (n + first) = true :=
  ⟨argsOf up [2, 1, 100, 30], 3, .units, 0, 4, by decide +kernel⟩

theorem witness_GrantRows_notHeld : ∃ (s : State) (t : Time) (k : GrantKind) (n : Nat),
    let target : Basket := Fin.ofNat 4 (arg s 0 0)
    let first := arg s 0 2
    let count := arg s 0 3
    StartsAwake s 0 ∧
    arg s 0 0 < 4 ∧
    GrantKind.ofNumber (arg s 0 1) = some k ∧
    k.quota = false ∧
    count ≠ 0 ∧
    (∀ n, n < count → k.exists_ (n + first) = true) ∧
    n < count ∧
    (s.dev.grants[target]).holds k (n + first) = false :=
  ⟨argsOf up [2, 1, 100, 30], 3, .units, 4, by decide +kernel⟩

theorem witness_FrontEndCommands_setChannel : ∃ (s : State) (t : Time) (pos : Fin 24),
    StartsAwake s 0 ∧
    Held s 0 .channels pos.val ∧
    arg s 0 0 = pos.val ∧
    (pos.val < 16 → arg s 0 1 % 8 ≤ 6) ∧
    (16 ≤ pos.val → arg s 0 1 % 16 = 0) ∧
    arg s 0 2 ≤ 60000 ∧
    1 ≤ arg s 0 3 ∧
    0 < arg s 0 4 ∧
    arg s 0 4 < 0x7C00 :=
  ⟨argsOf up [7, 0xE, 60000, 1, 1], 3, 7, by decide +kernel⟩

theorem witness_FrontEndCommands_coef : ∃ (s : State) (t : Time) (pos : Fin 24),
    let o := signed 32 (arg32 s 0 1)
    StartsAwake s 0 ∧
    Held s 0 .channels pos.val ∧
    arg s 0 0 = pos.val ∧
    -8388608 ≤ o ∧
    o ≤ 8388607 ∧
    49 * 4194304 ≤ 50 * arg32 s 0 3 ∧
    50 * arg32 s 0 3 ≤ 51 * 4194304 :=
  ⟨argsOf up [23, 0xFFFF, 0xFFFF, 0, 0x40], 3, 23, by decide +kernel⟩

theorem witness_FrontEndCommands_restart : ∃ (s : State) (t : Time) (pos : Fin 24),
    StartsAwake s 0 ∧
    Held s 0 .channels pos.val ∧
    arg s 0 0 = pos.val :=
  ⟨argsOf up [23], 3, 23, by decide +kernel⟩

theorem witness_FrontEndCommands_status : ∃ (s : State) (t : Time) (b : Basket) (pos : Fin 24),
    Starts s b ∧
    Held s b .channels pos.val ∧
    arg s b 0 = pos.val :=
  ⟨argsOf up [23], 3, 0, 23, by decide +kernel⟩

theorem witness_CalibrationRows_offset : ∃ (s : State) (t : Time) (pos : Fin 24),
    StartsAwake s 0 ∧
    Held s 0 .channels pos.val ∧
    arg s 0 0 = pos.val ∧
    s.dev.fe[pos].cal = none :=
  ⟨argsOf up [23], 3, 23, by decide +kernel⟩

theorem witness_CalibrationRows_gain : ∃ (s : State) (t : Time) (pos : Fin 24),
    StartsAwake s 0 ∧
    Held s 0 .channels pos.val ∧
    arg s 0 0 = pos.val ∧
    s.dev.fe[pos].cal = none :=
  ⟨argsOf up [23], 3, 23, by decide +kernel⟩

theorem witness_CalibrationRows_busy : ∃ (s : State) (t : Time) (pos : Fin 24),
    StartsAwake s 0 ∧
    Held s 0 .channels pos.val ∧
    arg s 0 0 = pos.val ∧
    s.dev.fe[pos].cal ≠ none :=
  ⟨argsOf (devWith up (fun d => d.onChannel 23 (fun c => { c with cal := some aCal }))) [23], 3, 23, by decide +kernel⟩

theorem witness_CalibrationRows_end : ∃ (s : State) (t : Time) (pos : Fin 24) (k : Calibration) (r : Running),
    s.dev.fe[pos].cal = some k ∧
    k.stop ≤ instant s t ∧
    s.dev.host.pages[k.basket].running = some r ∧
    (r.code = if k.gain then 0x0203 else 0x0202) ∧
    r.outcome = none :=
  ⟨devWith (pageWith up 0 (fun p => { p with cmdState := .busy, running := some { code := 0x0202, args := p.args, tag := 7, since := 0,
                                                                                  outcome := none } })) (fun d => d.onChannel 23 (fun c => { c with cal := some aCal })), 99, 23, aCal, { code := 0x0202, args := Vector.replicate 8 0, tag := 7, since := 0, outcome := none }, by decide +kernel⟩

theorem witness_TedsRows_period : ∃ (s : State) (t : Time),
    StartsAwake s 0 ∧
    arg s 0 0 ≤ 600 :=
  ⟨argsOf up [600], 3, by decide +kernel⟩

theorem witness_TedsRows_bind : ∃ (s : State) (t : Time) (e : Fin 32) (pos : Fin 24),
    StartsAwake s 0 ∧
    arg s 0 0 = e.val ∧
    arg s 0 5 = pos.val ∧
    Held s 0 .channels pos.val :=
  ⟨argsOf (devWith up (fun d => { d with teds := { d.teds with bindings := d.teds.bindings.set 4 (some (0x10, 3)) } })) [31, 0x10, 0, 0, 0, 7], 3, 31,
      7, by decide +kernel⟩

theorem witness_TedsRows_unbind : ∃ (s : State) (t : Time) (e : Fin 32),
    StartsAwake s 0 ∧
    arg s 0 0 = e.val ∧
    arg s 0 5 = 0xFFFF :=
  ⟨argsOf (devWith up (fun d => { d with teds := { d.teds with bindings := d.teds.bindings.set 4 (some (0x10, 3)) } })) [4, 0x10, 0, 0, 0, 0xFFFF], 3,
      4, by decide +kernel⟩

theorem witness_TedsRows_arrive : ∃ (s : State) (t : Time) (l : Fin 4) (r : TedsRead) (n : Nat) (pos : Fin 24),
    s.dev.teds.period ≠ 0 ∧
    s.dev.teds.lines[l].nextScan ≤ instant s t ∧
    (s.dev.pwr.state = .active ∨ s.dev.pwr.state = .boot) ∧
    s.dev.teds.lines[l].memories = [] ∧
    (r.idCrcOk = true ∧ r.readOk = true ∧ r.checksumOk = true ∧ r.templateOk = true) ∧
    s.dev.teds.bound r.identity = some (n, pos) :=
  ⟨devWith up (fun d => { d with teds := { d.teds with period := 1, bindings := d.teds.bindings.set 4 (some (0x10, 3)) } }), 5, 2,
      { identity := 0x10, idCrcOk := true, readOk := true, checksumOk := true, templateOk := true }, 4, 3, by decide +kernel⟩

theorem witness_TedsRows_leave : ∃ (s : State) (t : Time) (l : Fin 4) (m : TedsMemory) (n : Nat) (pos : Fin 24),
    s.dev.teds.period ≠ 0 ∧
    s.dev.teds.lines[l].nextScan ≤ instant s t ∧
    (s.dev.pwr.state = .active ∨ s.dev.pwr.state = .boot) ∧
    s.dev.teds.lines[l].memories = [m] ∧
    m.missed = 1 ∧
    m.departed = false ∧
    s.dev.teds.bound m.identity = some (n, pos) :=
  ⟨devWith up (fun d => { d with teds := { d.teds with period := 1, bindings := d.teds.bindings.set 4 (some (0x10, 3)),
                                                       lines := d.teds.lines.set 2 { d.teds.lines[2] with memories := [{ identity := 0x10, present := false, missed := 1, failedReads := 0, isRead := true, bad := false, departed := false }] } } }), 5, 2, { identity := 0x10, present := false, missed := 1, failedReads := 0, isRead := true, bad := false, departed := false }, 4, 3, by decide +kernel⟩

theorem witness_TedsRows_noScan : ∃ (s : State) (t : Time) (l : Fin 4) (found : List TedsRead),
    (s.dev.teds.period = 0 ∨ instant s t < s.dev.teds.lines[l].nextScan) :=
  ⟨up, 5, 2, [], by decide +kernel⟩

theorem witness_SampleRows_word : ∃ (s : State) (t : Time) (pos : Fin 24) (level : InputLevel) (raw : Int),
    (here s t).samples pos.val = true ∧
    (s.dev.fe[pos].cal ≠ none ∨ (1000 * ((here s t).gainOf pos.val * level.diff.natAbs) ≤ 995 * scaleNv pos.val ∧ (pos.val < 16 →
        500000000 ≤ level.common ∧ level.common ≤ 2800000000))) :=
  ⟨up, 15625*256*3, 4, { diff := -5, common := 1650000000 }, -1234567, by decide +kernel⟩

theorem witness_SampleRows_over : ∃ (s : State) (t : Time) (pos : Fin 24) (level : InputLevel) (raw : Int) (neg : Bool),
    (here s t).samples pos.val = true ∧
    s.dev.fe[pos].cal = none ∧
    (1005 * scaleNv pos.val < 1000 * ((here s t).gainOf pos.val * level.diff.natAbs) ∧
        neg = decide (level.diff < 0)) ∨ (1000 * ((here s t).gainOf pos.val * level.diff.natAbs) ≤ 995 * scaleNv pos.val ∧ pos.val < 16 ∧
        ((level.common < 500000000 ∧ neg = true) ∨ (2800000000 < level.common ∧ neg = false))) :=
  ⟨up, 15625*256*3, 4, { diff := 5, common := 2900000000 }, -1234567, false, by decide +kernel⟩

theorem witness_SampleRows_skipped : ∃ (s : State) (t : Time) (pos : Fin 24) (level : InputLevel) (raw : Int),
    (here s t).samples pos.val = true ∧
    (s.dev.rinse.chains[pos]).enabled = false ∧
    (s.dev.rinse.chains[pos]).pending = none :=
  ⟨up, 15625*256*3, 4, { diff := 5, common := 2900000000 }, -1234567, by decide +kernel⟩

theorem witness_SampleRows_noSample : ∃ (s : State) (t : Time) (pos : Fin 24) (level : InputLevel) (raw : Int),
    (here s t).samples pos.val = false :=
  ⟨up, 15626*256*3, 4, { diff := 5, common := 2900000000 }, -1234567, by decide +kernel⟩

theorem witness_SampleRows_start : ∃ (s : State) (t : Time) (pos : Fin 24) (level : InputLevel) (neg : Bool),
    (here s t).samples pos.val = true ∧
    s.dev.fe[pos].inOverload = false ∧
    s.dev.fe[pos].cal = none ∧
    (1005 * scaleNv pos.val < 1000 * ((here s t).gainOf pos.val * level.diff.natAbs) ∧
        neg = decide (level.diff < 0)) ∨ (1000 * ((here s t).gainOf pos.val * level.diff.natAbs) ≤ 995 * scaleNv pos.val ∧ pos.val < 16 ∧
        ((level.common < 500000000 ∧ neg = true) ∨ (2800000000 < level.common ∧ neg = false))) :=
  ⟨up, 15625*256*3, 4, { diff := -2600000000, common := 0 }, true, by decide +kernel⟩

theorem witness_SampleRows_again : ∃ (s : State) (t : Time) (pos : Fin 24) (level : InputLevel),
    (s.dev.fe[pos].inOverload = true ∨ s.dev.fe[pos].cal ≠ none ∨ (1000 * ((here s t).gainOf pos.val * level.diff.natAbs) ≤ 995 * scaleNv pos.val ∧
        (pos.val < 16 → 500000000 ≤ level.common ∧ level.common ≤ 2800000000))) :=
  ⟨devWith up (fun d => d.onChannel 23 (fun c => { c with cal := some aCal })), 5, 23, { diff := 2600000000, common := 0 }, by decide +kernel⟩

theorem witness_SampleRows_end : ∃ (s : State) (t : Time) (pos : Fin 24) (level : InputLevel),
    (here s t).samples pos.val = true ∧
    (s.dev.fe[pos].cal ≠ none ∨ (1000 * ((here s t).gainOf pos.val * level.diff.natAbs) ≤ 995 * scaleNv pos.val ∧ (pos.val < 16 →
        500000000 ≤ level.common ∧ level.common ≤ 2800000000))) :=
  ⟨up, 15625*256*3, 4, { diff := -5, common := 1650000000 }, by decide +kernel⟩

theorem witness_SampleRows_goesOn : ∃ (s : State) (t : Time) (pos : Fin 24) (level : InputLevel) (neg : Bool),
    s.dev.fe[pos].cal = none ∧
    (1005 * scaleNv pos.val < 1000 * ((here s t).gainOf pos.val * level.diff.natAbs) ∧
        neg = decide (level.diff < 0)) ∨ (1000 * ((here s t).gainOf pos.val * level.diff.natAbs) ≤ 995 * scaleNv pos.val ∧ pos.val < 16 ∧
        ((level.common < 500000000 ∧ neg = true) ∨ (2800000000 < level.common ∧ neg = false))) :=
  ⟨up, 15625*256*3, 4, { diff := -2600000000, common := 0 }, true, by decide +kernel⟩

theorem witness_TachSettings_set : ∃ (s : State) (t : Time) (i : Fin 4),
    let res := arg s 0 1 / 8 % 32
    let lim := arg s 0 1 / 256 % 16
    let hi := arg32 s 0 3
    let lo := arg32 s 0 5
    StartsAwake s 0 ∧
    Held s 0 .tachs i.val ∧
    arg s 0 0 = i.val ∧
    (6 ≤ res ∧ res ≤ 16) ∧
    (1 ≤ lim ∧ lim ≤ 8) ∧
    (1 ≤ arg s 0 2 ∧ arg s 0 2 ≤ 1024) ∧
    (10 ≤ lo ∧ lo ≤ hi) ∧
    (10 ≤ hi ∧ hi ≤ 100000) ∧
    2 ^ res * hi ≤ 256000000 :=
  ⟨argsOf up [3, 0x363, 1024, 1000, 0, 10, 0], 3, 3, by decide +kernel⟩

theorem witness_TachSettings_loop : ∃ (s : State) (t : Time) (i : Fin 4),
    StartsAwake s 0 ∧
    Held s 0 .tachs i.val ∧
    arg s 0 0 = i.val ∧
    (1 ≤ arg s 0 1 ∧ arg s 0 1 ≤ 500) ∧
    (1 ≤ arg s 0 2 ∧ arg s 0 2 ≤ 50000) ∧
    (1 ≤ arg s 0 3 ∧ arg s 0 3 ≤ 50) ∧
    (1 ≤ arg s 0 4 ∧ arg s 0 4 ≤ 50) ∧
    (50 ≤ arg s 0 5 ∧ arg s 0 5 ≤ 98) ∧
    (1000 ≤ arg32 s 0 6 ∧ arg32 s 0 6 ≤ 60000000) :=
  ⟨argsOf up [3, 500, 1, 50, 50, 98, 1000, 0], 3, 3, by decide +kernel⟩

theorem witness_TachSettings_index : ∃ (s : State) (t : Time) (i : Fin 4),
    StartsAwake s 0 ∧
    Held s 0 .tachs i.val ∧
    arg s 0 0 = i.val ∧
    arg s 0 2 ≤ 0x100 :=
  ⟨argsOf up [3, 1, 0xFF], 3, 3, by decide +kernel⟩

theorem witness_TachEvents_accepted : ∃ (s : State) (t : Time) (i : Fin 4) (x e : Time),
    let set := s.dev.wr.live.tachs[i]
    let l := s.dev.tachs[i].loop
    s.dev.pwr.state ≠ .off ∧
    s.dev.pwr.state ≠ .reset ∧
    s.dev.pwr.fault ≠ some .clock ∧
    set.mode ≠ .off ∧
    (here s t).judgeable set x = true ∧
    (set.mode = .optical → s.dev.tachs[i].flooded x = false) ∧
    l.state = .locked ∧
    l.lastEdge = some e ∧
    set.inGate (((x - e : Nat) : Int) - l.tpred).natAbs l.tpred = true ∧
    set.over (x - e) = false :=
  ⟨tachAt { TachSet.reset with mode := .digital } { TachLoop.reset 0 with state := .locked, lastEdge := some 0, tpred := sec 1 }, sec 1, 3, sec 1, 0,
      by decide +kernel⟩

theorem witness_TachEvents_rejected : ∃ (s : State) (t : Time) (i : Fin 4) (x e : Time),
    let set := s.dev.wr.live.tachs[i]
    let l := s.dev.tachs[i].loop
    s.dev.pwr.state ≠ .off ∧
    s.dev.pwr.state ≠ .reset ∧
    s.dev.pwr.fault ≠ some .clock ∧
    set.mode ≠ .off ∧
    (here s t).judgeable set x = true ∧
    (set.mode = .optical → s.dev.tachs[i].flooded x = false) ∧
    l.state = .locked ∧
    l.lastEdge = some e ∧
    set.inGate (((x - e : Nat) : Int) - l.tpred).natAbs l.tpred = false :=
  ⟨tachAt { TachSet.reset with mode := .digital, amax := 1 } { TachLoop.reset 0 with state := .locked, lastEdge := some 0, tpred := sec 1 }, sec 9, 3,
      sec 9, 0, by decide +kernel⟩

theorem witness_TachEvents_tooFast : ∃ (s : State) (t : Time) (i : Fin 4) (x e : Time),
    let set := s.dev.wr.live.tachs[i]
    let l := s.dev.tachs[i].loop
    s.dev.pwr.state ≠ .off ∧
    s.dev.pwr.state ≠ .reset ∧
    s.dev.pwr.fault ≠ some .clock ∧
    set.mode ≠ .off ∧
    (here s t).judgeable set x = true ∧
    (set.mode = .optical → s.dev.tachs[i].flooded x = false) ∧
    l.state = .locked ∧
    l.lastEdge = some e ∧
    set.inGate (((x - e : Nat) : Int) - l.tpred).natAbs l.tpred = true ∧
    set.over (x - e) = true :=
  ⟨tachAt { TachSet.reset with mode := .digital, maxRate := 10 } { TachLoop.reset 0 with state := .locked, lastEdge := some 0, tpred := sec 1 },
      sec 1, 3, sec 1, 0, by decide +kernel⟩

theorem witness_TachEvents_firstEdge : ∃ (s : State) (t : Time) (i : Fin 4) (x : Time),
    let set := s.dev.wr.live.tachs[i]
    let l := s.dev.tachs[i].loop
    s.dev.pwr.state ≠ .off ∧
    s.dev.pwr.state ≠ .reset ∧
    s.dev.pwr.fault ≠ some .clock ∧
    set.mode ≠ .off ∧
    (here s t).judgeable set x = true ∧
    (set.mode = .optical → s.dev.tachs[i].flooded x = false) ∧
    0 < set.ppr ∧
    l.state = .lost ∧
    l.lastEdge = none :=
  ⟨tachAt { TachSet.reset with mode := .digital } (TachLoop.reset 0), sec 1, 3, sec 1, by decide +kernel⟩

theorem witness_TachEvents_ignored : ∃ (s : State) (t : Time) (i : Fin 4) (x : Time),
    let set := s.dev.wr.live.tachs[i]
    (set.mode = .off ∨ (set.mode = .optical ∧ s.dev.tachs[i].flooded x = true) ∨ (here s t).judgeable set x = false) :=
  ⟨up, sec 1, 3, sec 1, by decide +kernel⟩

theorem witness_TachEvents_badCode : ∃ (s : State) (t : Time) (i : Fin 4) (r : IndexRead) (reason id : Nat),
    let set := s.dev.wr.live.tachs[i]
    s.dev.pwr.state ≠ .off ∧
    s.dev.pwr.state ≠ .reset ∧
    s.dev.pwr.fault ≠ some .clock ∧
    set.mode ≠ .off ∧
    set.indexOn = true ∧
    (here s t).sampleEdge (codeStop r + us 2) 1 ≤ instant s t ∧
    indexFault r set ((s.dev.tachs[i]).floodMeets r.start (codeStop r)) = some (reason, id) :=
  ⟨tachAt { TachSet.reset with mode := .digital, indexOn := true } (TachLoop.reset 0), sec 1, 3,
      { start := 0, transitions := [us 2, us 4, us 6, us 18, us 20] }, 2, 2, by decide +kernel⟩

theorem witness_TachEvents_goodCode : ∃ (s : State) (t : Time) (i : Fin 4) (r : IndexRead),
    let set := s.dev.wr.live.tachs[i]
    let l := s.dev.tachs[i].loop
    s.dev.pwr.state ≠ .off ∧
    s.dev.pwr.state ≠ .reset ∧
    s.dev.pwr.fault ≠ some .clock ∧
    set.mode ≠ .off ∧
    set.indexOn = true ∧
    (here s t).sampleEdge (codeStop r + us 2) 1 ≤ instant s t ∧
    indexFault r set ((s.dev.tachs[i]).floodMeets r.start (codeStop r)) = none ∧
    l.state = .lost ∧
    l.acq < 2 * set.ppr :=
  ⟨tachAt { TachSet.reset with mode := .digital, indexOn := true } (TachLoop.reset 0), sec 1, 3, { start := 0, transitions := [us 2, us 4, us 6] },
      by decide +kernel⟩

theorem witness_TachEvents_freewheel : ∃ (s : State) (t : Time) (i : Fin 4) (e : Time),
    let l := s.dev.tachs[i].loop
    s.dev.pwr.state ≠ .off ∧
    s.dev.pwr.state ≠ .reset ∧
    s.dev.pwr.fault ≠ some .clock ∧
    l.state = .locked ∧
    l.lastEdge = some e ∧
    (here s t).settledTo s.dev.wr.live.tachs[i] (e + (3 * l.tpred + 1) / 2) = true :=
  ⟨tachAt { TachSet.reset with mode := .digital } { TachLoop.reset 0 with state := .locked, lastEdge := some 0, tpred := sec 1 }, sec 2, 3, 0,
      by decide +kernel⟩

theorem witness_TachEvents_limit : ∃ (s : State) (t : Time) (i : Fin 4),
    let set := s.dev.wr.live.tachs[i]
    let l := s.dev.tachs[i].loop
    s.dev.pwr.state ≠ .off ∧
    s.dev.pwr.state ≠ .reset ∧
    s.dev.pwr.fault ≠ some .clock ∧
    l.state = .freewheel ∧
    (here s t).settledTo set (l.freeStart + set.freewheelLimit * set.ppr * l.tpred) = true :=
  ⟨tachAt { TachSet.reset with mode := .digital } { TachLoop.reset 0 with state := .freewheel, lastEdge := some 0, tpred := sec 1 }, sec 9, 3,
      by decide +kernel⟩

theorem witness_TachEvents_underspeed : ∃ (s : State) (t : Time) (i : Fin 4),
    let set := s.dev.wr.live.tachs[i]
    let l := s.dev.tachs[i].loop
    s.dev.pwr.state ≠ .off ∧
    s.dev.pwr.state ≠ .reset ∧
    s.dev.pwr.fault ≠ some .clock ∧
    l.state ≠ .lost ∧
    set.under l.tpred = true :=
  ⟨tachAt { TachSet.reset with mode := .digital } { TachLoop.reset 0 with state := .locked, lastEdge := some 0, tpred := sec 11 }, sec 1, 3,
      by decide +kernel⟩

theorem witness_FloodRows_index : ∃ (s : State) (t : Time) (i : Fin 4) (c : Time),
    let set := s.dev.wr.live.tachs[i]
    let x := s.dev.tachs[i]
    s.dev.pwr.state ≠ .off ∧
    s.dev.pwr.state ≠ .reset ∧
    s.dev.pwr.fault ≠ some .clock ∧
    (set.mode = .digital ∨ set.mode = .analogue) ∧
    (c + us 2 ≤ instant s t ∧ instant s t ≤ (here s t).sampleEdge (c + us 2) 0) ∧
    floodAt x.floodIndex (instant s t) = false :=
  ⟨tachAt { TachSet.reset with mode := .digital } (TachLoop.reset 0), us 9, 3, us 7, by decide +kernel⟩

theorem witness_FloodRows_tach : ∃ (s : State) (t : Time) (i : Fin 4) (c : Time),
    let set := s.dev.wr.live.tachs[i]
    let x := s.dev.tachs[i]
    s.dev.pwr.state ≠ .off ∧
    s.dev.pwr.state ≠ .reset ∧
    s.dev.pwr.fault ≠ some .clock ∧
    set.mode = .optical ∧
    (c + us 2 ≤ instant s t ∧ instant s t ≤ (here s t).sampleEdge (c + us 2) 0) ∧
    floodAt x.floodTach (instant s t) = false ∧
    x.loop.state = .locked :=
  ⟨tachAt { TachSet.reset with mode := .optical } { TachLoop.reset 0 with state := .locked, lastEdge := some 0, tpred := sec 1 }, us 9, 3, us 7,
      by decide +kernel⟩

theorem witness_FloodRows_marks : ∃ (s : State) (t : Time) (i : Fin 4) (c : Time) (f : EndedFrame),
    let set := s.dev.wr.live.tachs[i]
    let x := s.dev.tachs[i]
    s.dev.pwr.state ≠ .off ∧
    s.dev.pwr.state ≠ .reset ∧
    s.dev.pwr.fault ≠ some .clock ∧
    set.mode = .optical ∧
    (c + us 2 ≤ instant s t ∧ instant s t ≤ (here s t).sampleEdge (c + us 2) 0) ∧
    floodAt x.floodTach (instant s t) = false ∧
    x.loop.state = .locked ∧
    s.dev.wr.ended = some f ∧
    c < f.stop ∧
    f.blanked = false ∧
    s.dev.wr.live.frame.source = .angle ∧
    s.dev.wr.live.frame.tach = i :=
  ⟨devWith (tachAt { TachSet.reset with mode := .optical } { TachLoop.reset 0 with state := .locked, lastEdge := some 0,
                                                                                   tpred := sec 1 }) (fun d => d.onWr (fun w => { w with ended := some { theEnded zeroValue false with stop := us 8, values := [zeroValue] }, live := { w.live with frame := { w.live.frame with source := .angle, tach := 3 } } })), us 9, 3, us 7, { theEnded zeroValue false with stop := us 8, values := [zeroValue] }, by decide +kernel⟩

theorem witness_FloodRows_none : ∃ (s : State) (t : Time) (i : Fin 4) (c : Time),
    let x := s.dev.tachs[i]
    (instant s t < c + us 2 ∨ (here s t).sampleEdge (c + us 2) 0 < instant s t ∨ floodAt x.floodTach (instant s t) = true ∨ s.dev.wr.live.tachs[i].mode ≠ .optical) :=
  ⟨up, us 9, 3, us 8, by decide +kernel⟩

theorem witness_FloodRows_end : ∃ (s : State) (t : Time) (i : Fin 4) (below : Time),
    let x := s.dev.tachs[i]
    below + us 100 ≤ instant s t :=
  ⟨devWith up (fun d => d.onTach 3 (fun x => { x with floodTach := [{ start := 2, stop := none }], floodIndex := [{ start := 2, stop := none }] })),
      us 109, 3, us 9, by decide +kernel⟩

theorem witness_FloodRows_notYet : ∃ (s : State) (t : Time) (i : Fin 4) (onIndex : Bool) (below : Time),
    instant s t < below + us 100 :=
  ⟨up, us 9, 3, true, us 8, by decide +kernel⟩

theorem witness_WringerSettings_plan : ∃ (s : State) (t : Time) (pl : Fin 8),
    StartsAwake s 0 ∧
    arg s 0 0 = pl.val ∧
    arg s 0 1 = 0xFF ∧
    arg s 0 2 % 32 ≤ 24 ∧
    arg s 0 2 / 256 % 16 ≤ 8 ∧
    (128000 ≤ arg32 s 0 3 ∧ arg32 s 0 3 ≤ 10240000) ∧
    (4 ≤ arg s 0 5 ∧ arg s 0 5 ≤ 40) ∧
    (100 ≤ arg s 0 6 ∧ arg s 0 6 ≤ 5000) :=
  ⟨argsOf up [7, 0xFF, 0x818, 0xF400, 1, 40, 5000], 3, 7, by decide +kernel⟩

theorem witness_WringerSettings_band : ∃ (s : State) (t : Time) (pl : Fin 8) (n : Fin 32),
    let tach : Fin 4 := Fin.ofNat 4 (arg s 0 2 / 2 % 4)
    StartsAwake s 0 ∧
    arg s 0 0 = pl.val ∧
    arg s 0 1 = n.val ∧
    (8 ≤ arg s 0 5 ∧ arg s 0 5 ≤ 160) ∧
    (argBit s 0 2 0 = true → Held s 0 .tachs tach.val ∧ 64 ≤ arg32 s 0 3 ∧ arg32 s 0 3 ≤ 131072) ∧
    (argBit s 0 2 0 = false → 512 ≤ arg32 s 0 3 ∧ arg32 s 0 3 ≤ 10240000) :=
  ⟨argsOf up [7, 31, 0x7F, 0, 2, 160], 3, 7, 31, by decide +kernel⟩

theorem witness_WringerSettings_channel : ∃ (s : State) (t : Time) (ch : Fin 16),
    StartsAwake s 0 ∧
    Held s 0 .channels ch.val ∧
    arg s 0 0 = ch.val :=
  ⟨argsOf up [15, 0x17], 3, 15, by decide +kernel⟩

theorem witness_WringerSettings_time : ∃ (s : State) (t : Time),
    StartsAwake s 0 ∧
    arg s 0 0 = 0 ∧
    (1000 ≤ arg32 s 0 2 ∧ arg32 s 0 2 ≤ 60000000) :=
  ⟨argsOf up [0, 0, 1000], 3, by decide +kernel⟩

theorem witness_WringerSettings_angle : ∃ (s : State) (t : Time) (i : Fin 4),
    StartsAwake s 0 ∧
    arg s 0 0 = 1 ∧
    arg s 0 1 = i.val ∧
    Held s 0 .tachs i.val ∧
    (1 ≤ arg32 s 0 2 ∧ arg32 s 0 2 ≤ 4096) :=
  ⟨argsOf up [1, 3, 4096], 3, 3, by decide +kernel⟩

theorem witness_WringerSettings_network : ∃ (s : State) (t : Time),
    let n := arg32 s 0 2
    StartsAwake s 0 ∧
    arg s 0 0 = 2 ∧
    (1 ≤ n ∧ n ≤ 240000) ∧
    (∀ c ∈ s.dev.cycleLengths, 1000 ≤ n * c ∧ n * c ≤ 60000000) :=
  ⟨argsOf up [2, 0, 4], 3, by decide +kernel⟩

theorem witness_WringerSettings_commit : ∃ (s : State) (t : Time),
    StartsAwake s 0 ∧
    argBit s 0 1 0 = false ∧
    s.dev.wr.pending = none ∧
    s.dev.wringerAgrees (BitVec.ofNat 16 (arg s 0 0)) = true :=
  ⟨argsOf up [0xFFFF], 3, by decide +kernel⟩

theorem witness_WringerSettings_revert : ∃ (s : State) (t : Time),
    StartsAwake s 0 ∧
    argBit s 0 1 0 = true ∧
    s.dev.wr.pending = none :=
  ⟨argsOf (devWith up (fun d => d.stageWr (fun w => { w with vibs := updAt w.vibs 2 (fun v => { v with gain := 3 }) }))) [3, 1], 3, by decide +kernel⟩

theorem witness_WringerSettings_pending : ∃ (s : State) (t : Time),
    StartsAwake s 0 ∧
    s.dev.wr.pending ≠ none :=
  ⟨argsOf (devWith up (fun d => d.onWr (fun w => { w with pending := some { mask := 1, captured := w.live, from_ := 0 } }))) [3, 1], 3,
      by decide +kernel⟩

theorem witness_FrameBoundaries_taken : ∃ (s : State) (t : Time) (means : List (Nat × Nat)),
    (s.dev.pwr.state = .active ∨ s.dev.pwr.state = .watch) ∧
    s.dev.wr.running = true ∧
    ((here s t).dueNow = true ∨ (here s t).clockFalls = true) ∧
    s.dev.wr.start + us 20 ≤ instant s t :=
  ⟨devWith up (fun d => d.onWr (fun w => { w with running := true, num := 7 })), sec 1, [(5, 25)], by decide +kernel⟩

theorem witness_FrameBoundaries_records : ∃ (s : State) (t : Time) (means : List (Nat × Nat)),
    (s.dev.pwr.state = .active ∨ s.dev.pwr.state = .watch) ∧
    s.dev.wr.running = true ∧
    ((here s t).dueNow = true ∨ (here s t).clockFalls = true) ∧
    s.dev.wr.start + us 20 ≤ instant s t ∧
    (∀ h : Fin 16, s.dev.models[h] = none) :=
  ⟨devWith up (fun d => d.onWr (fun w => { w with running := true, num := 7 })), sec 1, [(5, 25)], by decide +kernel⟩

theorem witness_FrameBoundaries_merged : ∃ (s : State) (t : Time) (means : List (Nat × Nat)),
    (s.dev.pwr.state = .active ∨ s.dev.pwr.state = .watch) ∧
    s.dev.wr.running = true ∧
    ((here s t).dueNow = true ∨ (here s t).clockFalls = true) ∧
    instant s t < s.dev.wr.start + us 20 :=
  ⟨devWith up (fun d => d.onWr (fun w => { w with running := true, num := 7, start := sec 1 - us 19 })), sec 1, [(5, 25)], by decide +kernel⟩

theorem witness_FrameBoundaries_none : ∃ (s : State) (t : Time) (means : List (Nat × Nat)),
    ((here s t).dueNow = false ∧ (here s t).clockFalls = false) :=
  ⟨devWith up (fun d => d.onWr (fun w => { w with running := true, num := 7 })), ms 99, [(5, 25)], by decide +kernel⟩

theorem witness_FrameBoundaries_apply : ∃ (s : State) (t : Time) (c : WringerCommit),
    (s.dev.pwr.state = .active ∨ s.dev.pwr.state = .watch) ∧
    s.dev.wr.running = true ∧
    s.dev.wr.pending = some c ∧
    s.dev.wr.start = instant s t ∧
    c.from_ ≤ instant s t :=
  ⟨devWith up (fun d => d.onWr (fun w => { w with running := true, num := 7, start := 5,
                                                  pending := some { mask := 5,
                                                                    captured := { w.live with vibs := updAt (updAt w.live.vibs 2 (fun v => { v with gain := 3 })) 1 (fun v => { v with ac := true }) }, from_ := 5 } })), 5, { mask := 5, captured := { up.dev.wr.live with vibs := updAt (updAt up.dev.wr.live.vibs 2 (fun v => { v with gain := 3 })) 1 (fun v => { v with ac := true }) }, from_ := 5 }, by decide +kernel⟩

theorem witness_FrameBoundaries_waits : ∃ (s : State) (t : Time),
    (s.dev.wr.start ≠ instant s t ∨ s.dev.wr.pending = none) :=
  ⟨up, 5, by decide +kernel⟩

theorem witness_Readout_handoff : ∃ (s : State) (t : Time) (e : EndedFrame),
    (s.dev.pwr.state = .active ∨ s.dev.pwr.state = .watch) ∧
    s.dev.wr.ended = some e ∧
    e.handedOff = false ∧
    e.stop + ns 1400 ≤ instant s t ∧
    instant s t ≤ e.stop + ns 1600 ∧
    e.values.length = 512 :=
  ⟨ended { enabled := true, area := (2 ^ 32 - 7) * ms 100, flags := 1, count := false, scale := 3 } false, ns 1600,
      theEnded { enabled := true, area := (2 ^ 32 - 7) * ms 100, flags := 1, count := false, scale := 3 } false, by decide +kernel⟩

theorem witness_Readout_models : ∃ (s : State) (t : Time) (e : EndedFrame) (h : Handle),
    s.dev.wr.ended = some e ∧
    ((s.dev.models[h]).bind (·.run)).any (fun r => r.frame == e.num) = false :=
  ⟨devWith (ended zeroValue false) (fun d => { d with models := d.models.set 3 (some aModel) }), ns 1600, theEnded zeroValue false, 3,
      by decide +kernel⟩

theorem witness_Readout_count : ∃ (s : State) (t : Time) (e : EndedFrame),
    (s.dev.pwr.state = .active ∨ s.dev.pwr.state = .watch) ∧
    s.dev.wr.ended = some e ∧
    e.counted = false ∧
    instant s t ≤ e.stop + us 12 ∧
    e.values.length = 512 :=
  ⟨ended { enabled := true, area := (2 ^ 32 - 7) * ms 100, flags := 1, count := true, scale := 3 } false, us 12,
      theEnded { enabled := true, area := (2 ^ 32 - 7) * ms 100, flags := 1, count := true, scale := 3 } false, by decide +kernel⟩

theorem witness_Readout_number : ∃ (s : State) (t : Time) (e : EndedFrame),
    (s.dev.pwr.state = .active ∨ s.dev.pwr.state = .watch) ∧
    s.dev.wr.ended = some e ∧
    e.handedOff = true ∧
    e.counted = true ∧
    e.written = false ∧
    instant s t ≤ e.stop + us 12 :=
  ⟨ended { enabled := true, area := (2 ^ 32 - 7) * ms 100, flags := 1, count := true, scale := 3 } true, us 12,
      theEnded { enabled := true, area := (2 ^ 32 - 7) * ms 100, flags := 1, count := true, scale := 3 } true, by decide +kernel⟩

theorem witness_Readout_outside : ∃ (s : State) (t : Time) (e : EndedFrame),
    s.dev.wr.ended = some e ∧
    (instant s t < e.stop + ns 1400 ∨ e.handedOff = true) ∧
    (e.counted = true ∨ e.stop + us 12 < instant s t) ∧
    (e.written = true ∨ e.stop + us 12 < instant s t) :=
  ⟨ended { enabled := true, area := (2 ^ 32 - 7) * ms 100, flags := 1, count := true, scale := 3 } true, us 13,
      theEnded { enabled := true, area := (2 ^ 32 - 7) * ms 100, flags := 1, count := true, scale := 3 } true, by decide +kernel⟩

theorem witness_BlockReports_tedsLog : ∃ (s : State) (t : Time) (l : Fin 4),
    let line := s.dev.teds.lines[l]
    let items := w32 line.overwrites.toNat ++ line.log.flatMap TedsEntry.bytes ++ List.replicate (24 * (16 - line.log.length)) 0
    StartsAwake s 0 ∧
    arg s 0 0 = l.val ∧
    Room s 0 items.length :=
  ⟨argsOf up [3, 0, 0, 0, 0, 0, 0, 8], 3, 3, by decide +kernel⟩

theorem witness_BlockReports_tachStatus : ∃ (s : State) (t : Time) (b : Basket) (i : Fin 4),
    let items := (here s t).tachReport i
    Starts s b ∧
    Held s b .tachs i.val ∧
    arg s b 0 = i.val ∧
    Room s b items.length :=
  ⟨argsOf up [3, 0, 0, 0, 0, 0, 0, 8], 3, 0, 3, by decide +kernel⟩

theorem witness_BlockReports_wrStatus : ∃ (s : State) (t : Time) (b : Basket) (ch : Fin 16),
    let set := if argBit s b 1 0 = true then s.dev.wr.staged else s.dev.wr.live
    let v := set.vibs[ch]
    let pending := s.dev.wr.pending.any (fun p => p.mask[ch])
    let items := w32 v.plan.val ++ w32 v.count.toNat ++ w32 s.dev.wr.clips[ch].toNat ++ w32 pending.toNat ++ w32 v.gain ++ w32 v.ac.toNat
    Starts s b ∧
    Held s b .channels ch.val ∧
    arg s b 0 = ch.val ∧
    Room s b items.length :=
  ⟨argsOf up [15, 1, 0, 0, 0, 0, 0, 8], 3, 0, 15, by decide +kernel⟩

theorem witness_BlockReports_rnStatus : ∃ (s : State) (t : Time) (b : Basket) (pos : Fin 24),
    let c := s.dev.rinse.chains[pos]
    let items := ringReport s.dev.free c.rings[b] ++ w64 c.epochIn.toNat ++ w64 c.epochOut.toNat ++ w64 c.totalIn.toNat ++ w64 c.skipped.toNat ++
      w64 c.totalOut.toNat ++ w32 (packBits [c.pending.isSome, c.swapArmed]) ++ c.settingsReport (argBit s b 1 0) s.dev.rinse.source
    StartsAwake s b ∧
    Held s b .channels pos.val ∧
    arg s b 0 = pos.val ∧
    Room s b items.length :=
  ⟨argsOf up [23, 1, 0, 0, 0, 0, 0, 8], 3, 0, 23, by decide +kernel⟩

theorem witness_BlockReports_prStatus : ∃ (s : State) (t : Time) (b : Basket) (i : Fin 48),
    let items := (here s t).prReport i
    StartsAwake s b ∧
    Held s b .tiles i.val ∧
    arg s b 0 = i.val ∧
    Room s b items.length :=
  ⟨argsOf up [47, 0, 0, 0, 0, 0, 0, 8], 3, 0, 47, by decide +kernel⟩

theorem witness_BlockReports_tileStatus : ∃ (s : State) (t : Time) (b : Basket) (i : Fin 48),
    let items := s.dev.tiles[i].report
    StartsAwake s b ∧
    Held s b .tiles i.val ∧
    arg s b 0 = i.val ∧
    Room s b items.length :=
  ⟨argsOf up [47, 0, 0, 0, 0, 0, 0, 8], 3, 0, 47, by decide +kernel⟩

theorem witness_BlockReports_mdStatus : ∃ (s : State) (t : Time) (b : Basket) (h : Handle) (m : Model),
    let learning := m.learn.map (fun l => l.state.number)
    let items := w32 m.image.modelId.toNat ++ w32 m.state.number ++ w32 m.firstUnit ++ w32 m.unitCount ++ w32 m.wUs ++ w32 m.tags ++ w32 m.margin ++
      w32 (learning.getD (Config.noLearnState s.dev.free))
    StartsAwake s b ∧
    s.dev.models[h] = some m ∧
    m.basket = b ∧
    arg s b 0 = h.val ∧
    Room s b items.length :=
  ⟨argsOf (devWith up (fun d => { d with models := d.models.set 3 (some aModel) })) [3, 0, 0, 0, 0, 0, 0, 8], 3, 0, 3, aModel, by decide +kernel⟩

theorem witness_BlockReports_spLedger : ∃ (s : State) (t : Time) (b : Basket) (c : Basket),
    let items := s.dev.spool.device.report s.dev.spool.inFlight ++ s.dev.spool.baskets[c].report (s.dev.spool.inFlightOf c)
    StartsAwake s b ∧
    arg s b 0 = c.val ∧
    (b = 0 ∨ c = b) ∧
    Room s b items.length :=
  ⟨argsOf up [3, 0, 0, 0, 0, 0, 0, 8], 3, 0, 3, by decide +kernel⟩

theorem witness_BlockReports_veStatus : ∃ (s : State) (t : Time) (b : Basket) (e : Fin 4),
    let v := s.dev.spool.engines[e]
    let idle := w32 (Config.idleWord s.dev.free) ++ w32 (Config.idleWord (s.dev.free + 1))
    let working := (v.busy.map (fun x => w32 x.1.val ++ w32 x.2.1)).getD idle
    let items := working ++ w64 v.descriptors.toNat ++ w64 (v.cycles.toNat + (here s t).busyCycles v)
    StartsAwake s b ∧
    arg s b 0 = e.val ∧
    Room s b items.length :=
  ⟨argsOf up [3, 0, 0, 0, 0, 0, 0, 8], 3, 0, 3, by decide +kernel⟩

theorem witness_BlockReports_lnStatus : ∃ (s : State) (t : Time) (b : Basket) (h : Handle),
    let items := (here s t).lnReport h
    StartsAwake s b ∧
    Machine.Dev.ownsHandle s.dev b h.val = true ∧
    arg s b 0 = h.val ∧
    Room s b items.length :=
  ⟨argsOf (devWith up (fun d => { d with models := d.models.set 3 (some aModel) })) [3, 0, 0, 0, 0, 0, 0, 8], 3, 0, 3, by decide +kernel⟩

theorem witness_BlockReports_psStatus : ∃ (s : State) (t : Time) (b : Basket),
    let items := (here s t).psReport b
    StartsAwake s b ∧
    Room s b items.length :=
  ⟨argsOf up [0, 0, 0, 0, 0, 0, 0, 8], 3, 0, by decide +kernel⟩

theorem witness_BlockReports_psLog : ∃ (s : State) (t : Time) (b : Basket) (e : Entry),
    let items := w32 e.log.length ++ e.log.flatMap PatchLog.bytes
    StartsAwake s b ∧
    (here s t).namedEntry b (arg32 s b 0) = some e ∧
    Room s b items.length :=
  ⟨argsOf (devWith up (fun d => { d with store := { d.store with areas := d.store.areas.set 0 (some ([anEntry], [])) } })) [7, 0, 0, 0, 0, 0, 0, 8],
      3, 0, anEntry, by decide +kernel⟩

theorem witness_BlockReports_lkStatus : ∃ (s : State) (t : Time) (b : Basket),
    let items := (here s t).linkReport (argBit s b 1 0)
    StartsAwake s b ∧
    Room s b items.length :=
  ⟨argsOf up [0, 1, 0, 0, 0, 0, 0, 8], 3, 0, by decide +kernel⟩

theorem witness_BlockReports_lkPartners : ∃ (s : State) (t : Time) (b : Basket) (p : Fin 64),
    let items := s.dev.link.partners[p].report
    StartsAwake s b ∧
    arg s b 0 = p.val + 1 ∧
    Room s b items.length :=
  ⟨argsOf up [64, 0, 0, 0, 0, 0, 0, 8], 3, 0, 63, by decide +kernel⟩

theorem witness_BlockReports_lkLog : ∃ (s : State) (t : Time),
    let items := (here s t).linkLogReport
    StartsAwake s 0 ∧
    Room s 0 items.length :=
  ⟨argsOf up [0, 0, 0, 0, 0, 0, 0, 8], 3, by decide +kernel⟩

theorem witness_BlockReports_bkStatus : ∃ (s : State) (t : Time) (c : Basket),
    let items := (here s t).basketReport c
    Starts s 0 ∧
    arg s 0 0 = c.val ∧
    Room s 0 items.length :=
  ⟨argsOf up [3, 0, 0, 0, 0, 0, 0, 8], 3, 3, by decide +kernel⟩

theorem witness_BlockReports_outside : ∃ (s : State) (t : Time) (b : Basket),
    Starts s b ∧
    s.dev.grants[b].unit (unitOf (arg32 s b 6)) = false ∧
    arg s b 0 = 1 ∧
    b = 0 :=
  ⟨argsOf up [1], 3, 0, by decide +kernel⟩

theorem witness_ThimbleCommands_off : ∃ (s : State) (t : Time) (b : Basket) (i : Fin 32),
    let new : CompSet := { enabled := argBit s b 1 0,
                           source := if arg s b 1 / 2 % 4 = 0 then .channel else if arg s b 1 / 2 % 4 = 1 then .band else .envelope,
                           vib := Fin.ofNat 16 (arg s b 2 % 16), band := Fin.ofNat 32 (arg s b 2 / 256 % 32), low := arg s b 3, high := arg s b 4,
                           hyst := arg s b 5, sampled := argBit s b 1 3, tickKeep := argBit s b 1 4, divider := arg s b 6,
                               maskAbove := argBit s b 1 5,
                           maskBelow := argBit s b 1 6, nextPeriod := argBit s b 1 7, wake := argBit s b 1 8 }
    let c := s.dev.guard.comps[i]
    Starts s b ∧
    arg s b 0 = i.val ∧
    Held s b .comparators i.val ∧
    arg s b 1 / 2 % 4 ≤ 2 ∧
    (i.val < 24 ↔ new.source = .channel) ∧
    (new.source ≠ .channel → Held s b .channels new.vib.val) ∧
    (new.high ≤ 1023 ∧ new.hyst ≤ 63 ∧ new.low < new.high ∧ 2 * new.hyst < new.high - new.low) ∧
    (new.maskAbove = true ∨ new.maskBelow = true) ∧
    (new.tickKeep = true → 1 ≤ new.divider ∧ new.divider ≤ 32) ∧
    (new.tickKeep = false → 50 ≤ new.divider ∧ new.divider ≤ 49152) ∧
    (new.enabled = true → new.source = .band → s.dev.directMode new.vib.val = true) ∧
    new.enabled = false :=
  ⟨argsOf (devWith up (fun d => d.onComp 31 (fun c => { c with set := { c.set with enabled := true } }))) [31, 0x6A, 0x1F0F, 1, 1023, 63, 50], 3, 0,
      31, by decide +kernel⟩

theorem witness_ThimbleCommands_warm : ∃ (s : State) (t : Time) (b : Basket) (i : Fin 32),
    let new : CompSet := { enabled := argBit s b 1 0,
                           source := if arg s b 1 / 2 % 4 = 0 then .channel else if arg s b 1 / 2 % 4 = 1 then .band else .envelope,
                           vib := Fin.ofNat 16 (arg s b 2 % 16), band := Fin.ofNat 32 (arg s b 2 / 256 % 32), low := arg s b 3, high := arg s b 4,
                           hyst := arg s b 5, sampled := argBit s b 1 3, tickKeep := argBit s b 1 4, divider := arg s b 6,
                               maskAbove := argBit s b 1 5,
                           maskBelow := argBit s b 1 6, nextPeriod := argBit s b 1 7, wake := argBit s b 1 8 }
    let c := s.dev.guard.comps[i]
    Starts s b ∧
    arg s b 0 = i.val ∧
    Held s b .comparators i.val ∧
    arg s b 1 / 2 % 4 ≤ 2 ∧
    (i.val < 24 ↔ new.source = .channel) ∧
    (new.source ≠ .channel → Held s b .channels new.vib.val) ∧
    (new.high ≤ 1023 ∧ new.hyst ≤ 63 ∧ new.low < new.high ∧ 2 * new.hyst < new.high - new.low) ∧
    (new.maskAbove = true ∨ new.maskBelow = true) ∧
    (new.tickKeep = true → 1 ≤ new.divider ∧ new.divider ≤ 32) ∧
    (new.tickKeep = false → 50 ≤ new.divider ∧ new.divider ≤ 49152) ∧
    (new.enabled = true → new.source = .band → s.dev.directMode new.vib.val = true) ∧
    new.enabled = true ∧
    (c.set.enabled = false ∨ new.source ≠ c.set.source ∨ new.sampled ≠ c.set.sampled ∨ new.tickKeep ≠ c.set.tickKeep ∨ new.divider ≠ c.set.divider) :=
  ⟨argsOf up [31, 0x6B, 0x1F0F, 1, 1023, 63, 50], 3, 0, 31, by decide +kernel⟩

theorem witness_ThimbleCommands_now : ∃ (s : State) (t : Time) (b : Basket) (i : Fin 32),
    let new : CompSet := { enabled := argBit s b 1 0,
                           source := if arg s b 1 / 2 % 4 = 0 then .channel else if arg s b 1 / 2 % 4 = 1 then .band else .envelope,
                           vib := Fin.ofNat 16 (arg s b 2 % 16), band := Fin.ofNat 32 (arg s b 2 / 256 % 32), low := arg s b 3, high := arg s b 4,
                           hyst := arg s b 5, sampled := argBit s b 1 3, tickKeep := argBit s b 1 4, divider := arg s b 6,
                               maskAbove := argBit s b 1 5,
                           maskBelow := argBit s b 1 6, nextPeriod := argBit s b 1 7, wake := argBit s b 1 8 }
    let c := s.dev.guard.comps[i]
    Starts s b ∧
    arg s b 0 = i.val ∧
    Held s b .comparators i.val ∧
    arg s b 1 / 2 % 4 ≤ 2 ∧
    (i.val < 24 ↔ new.source = .channel) ∧
    (new.source ≠ .channel → Held s b .channels new.vib.val) ∧
    (new.high ≤ 1023 ∧ new.hyst ≤ 63 ∧ new.low < new.high ∧ 2 * new.hyst < new.high - new.low) ∧
    (new.maskAbove = true ∨ new.maskBelow = true) ∧
    (new.tickKeep = true → 1 ≤ new.divider ∧ new.divider ≤ 32) ∧
    (new.tickKeep = false → 50 ≤ new.divider ∧ new.divider ≤ 49152) ∧
    (new.enabled = true → new.source = .band → s.dev.directMode new.vib.val = true) ∧
    new.enabled = true ∧
    c.set.warms new = false ∧
    new.sampled = false ∧
    s.dev.pwr.state ≠ .watch ∧
    new.present c.state = false :=
  ⟨argsOf (devWith up (fun d => d.onComp 31 (fun c => { c with set := { c.set with enabled := true, sampled := false, tickKeep := false,
                                                                                   divider := 50, vib := 15, band := 31 } }))) [31, 0x63, 0x1F0F, 1,
      1023, 63, 50], 3, 0, 31, by decide +kernel⟩

theorem witness_ThimbleCommands_later : ∃ (s : State) (t : Time) (b : Basket) (i : Fin 32),
    let new : CompSet := { enabled := argBit s b 1 0,
                           source := if arg s b 1 / 2 % 4 = 0 then .channel else if arg s b 1 / 2 % 4 = 1 then .band else .envelope,
                           vib := Fin.ofNat 16 (arg s b 2 % 16), band := Fin.ofNat 32 (arg s b 2 / 256 % 32), low := arg s b 3, high := arg s b 4,
                           hyst := arg s b 5, sampled := argBit s b 1 3, tickKeep := argBit s b 1 4, divider := arg s b 6,
                               maskAbove := argBit s b 1 5,
                           maskBelow := argBit s b 1 6, nextPeriod := argBit s b 1 7, wake := argBit s b 1 8 }
    let c := s.dev.guard.comps[i]
    Starts s b ∧
    arg s b 0 = i.val ∧
    Held s b .comparators i.val ∧
    arg s b 1 / 2 % 4 ≤ 2 ∧
    (i.val < 24 ↔ new.source = .channel) ∧
    (new.source ≠ .channel → Held s b .channels new.vib.val) ∧
    (new.high ≤ 1023 ∧ new.hyst ≤ 63 ∧ new.low < new.high ∧ 2 * new.hyst < new.high - new.low) ∧
    (new.maskAbove = true ∨ new.maskBelow = true) ∧
    (new.tickKeep = true → 1 ≤ new.divider ∧ new.divider ≤ 32) ∧
    (new.tickKeep = false → 50 ≤ new.divider ∧ new.divider ≤ 49152) ∧
    (new.enabled = true → new.source = .band → s.dev.directMode new.vib.val = true) ∧
    new.enabled = true ∧
    c.set.warms new = false ∧
    (new.sampled = true ∨ s.dev.pwr.state = .watch) :=
  ⟨argsOf (devWith up (fun d => d.onComp 31 (fun c => { c with set := { c.set with enabled := true, tickKeep := false, divider := 50, vib := 15,
                                                                                   band := 31 } }))) [31, 0x6B, 0x1F0F, 1, 1023, 63, 50], 3, 0, 31,
      by decide +kernel⟩

theorem witness_ThimbleCommands_mask : ∃ (s : State) (t : Time) (o : Fin 8),
    let m : BitVec 32 := BitVec.ofNat 32 (arg32 s 0 1)
    Starts s 0 ∧
    arg s 0 0 = o.val ∧
    (∀ i : Fin 32, m[i] = true → s.dev.maskable o i.val = true) ∧
    ((∀ i : Fin 32, m[i] = true → s.dev.guard.comps[i].latch = false) ∨ s.dev.tripInput o = true) :=
  ⟨argsOf up [7, 5, 0x8000], 3, 7, by decide +kernel⟩

theorem witness_ThimbleCommands_trips : ∃ (s : State) (t : Time) (o : Fin 8) (i : Fin 32),
    let m : BitVec 32 := BitVec.ofNat 32 (arg32 s 0 1)
    Starts s 0 ∧
    arg s 0 0 = o.val ∧
    (∀ j : Fin 32, m[j] = true → s.dev.maskable o j.val = true) ∧
    m[i] = true ∧
    s.dev.guard.comps[i].latch = true ∧
    s.dev.tripInput o = false ∧
    s.dev.guard.outs[o].firing = none ∧
    (∀ c : Basket, s.dev.guard.held[c] = none) :=
  ⟨argsOf (devWith up (fun d => d.onComp 31 (fun c => { c with latch := true }))) [7, 0, 0x8000], 3, 7, 31, by decide +kernel⟩

theorem witness_ThimbleCommands_status : ∃ (s : State) (t : Time) (b : Basket) (i : Fin 32),
    Starts s b ∧
    arg s b 0 = i.val ∧
    Held s b .comparators i.val :=
  ⟨argsOf up [31], 3, 0, 31, by decide +kernel⟩

theorem witness_ThimbleEvents_crossing : ∃ (s : State) (t : Time) (i : Fin 32) (v : Int),
    let c := s.dev.guard.comps[i]
    let src := if c.set.source = .envelope then c.set.vib.val else i.val
    let u := (here s t).bandLevel c v
    let scale := (s.dev.watchedBand c.set).scale
    let beyond := fun (k : Int) => if c.set.source = .band then k * 2 ^ 32 < u * 1020 * 2 ^ scale else (k - 512) * (scaleNv src : Int) < 512 * (v * s.dev.gainOf src)
    let beneath := fun (k : Int) => if c.set.source = .band then u * 1020 * 2 ^ scale < k * 2 ^ 32 else 512 * (v * s.dev.gainOf src) < (k - 512) * (scaleNv src : Int)
    let next := if c.evaluated = false ∨ c.state = .inside then (if beyond c.set.high then CompState.above else if beneath c.set.low then .below else .inside)
      else if c.state = .above then (if beneath c.set.low then .below else if beneath ((c.set.high : Int) - c.set.hyst) then .inside else .above)
      else (if beyond c.set.high then .above else if beyond ((c.set.low : Int) + c.set.hyst) then .inside else .below)
    let stood := if (s.dev.bandLost c.set).isSome = true then some u else none
    let shown := fun (st : CompState) => (st = .above ∧ c.set.maskAbove = true) ∨ (st = .below ∧ c.set.maskBelow = true)
    s.dev.pwr.state ≠ .off ∧
    s.dev.pwr.state ≠ .reset ∧
    c.set.enabled = true ∧
    (c.set.sampled = false ∧ s.dev.pwr.state ≠ .watch) ∧
    (here s t).compHeld i = false ∧
    c.warmUp = false ∧
    c.latch = false ∧
    shown next ∧
    ¬ shown c.state ∧
    (∀ o : Fin 8, s.dev.guard.tripMasks[o][i] = false) ∧
    (∀ (pos : Fin 24) (b : Basket), ∀ r ∈ (s.dev.rinse.chains[pos]).rings[b], (s.dev.grants[b]).comparators[i] = true → r.comp = some i →
        r.total = 0 ∨ r.newest ≠ (here s t).stamp) :=
  ⟨devWith up (fun d => d.onComp 31 (fun c => { c with set := { c.set with enabled := true, sampled := false, wake := true }, evaluated := true })),
      9, 31, 2 ^ 35, by decide +kernel⟩

theorem witness_ThimbleEvents_follows : ∃ (s : State) (t : Time) (i : Fin 32) (v : Int),
    let c := s.dev.guard.comps[i]
    let src := if c.set.source = .envelope then c.set.vib.val else i.val
    let u := (here s t).bandLevel c v
    let scale := (s.dev.watchedBand c.set).scale
    let beyond := fun (k : Int) => if c.set.source = .band then k * 2 ^ 32 < u * 1020 * 2 ^ scale else (k - 512) * (scaleNv src : Int) < 512 * (v * s.dev.gainOf src)
    let beneath := fun (k : Int) => if c.set.source = .band then u * 1020 * 2 ^ scale < k * 2 ^ 32 else 512 * (v * s.dev.gainOf src) < (k - 512) * (scaleNv src : Int)
    let next := if c.evaluated = false ∨ c.state = .inside then (if beyond c.set.high then CompState.above else if beneath c.set.low then .below else .inside)
      else if c.state = .above then (if beneath c.set.low then .below else if beneath ((c.set.high : Int) - c.set.hyst) then .inside else .above)
      else (if beyond c.set.high then .above else if beyond ((c.set.low : Int) + c.set.hyst) then .inside else .below)
    let stood := if (s.dev.bandLost c.set).isSome = true then some u else none
    let shown := fun (st : CompState) => (st = .above ∧ c.set.maskAbove = true) ∨ (st = .below ∧ c.set.maskBelow = true)
    s.dev.pwr.state ≠ .off ∧
    s.dev.pwr.state ≠ .reset ∧
    c.set.enabled = true ∧
    (c.set.sampled = false ∧ s.dev.pwr.state ≠ .watch) ∧
    (here s t).compHeld i = false ∧
    (¬ shown next ∨ shown c.state) :=
  ⟨devWith up (fun d => d.onComp 31 (fun c => { c with set := { c.set with enabled := true, sampled := false, wake := true }, evaluated := true,
                                                       state := .above })), 9, 31, 2 ^ 32 * 1018 / 1020, by decide +kernel⟩

theorem witness_ThimbleEvents_held : ∃ (s : State) (t : Time) (i : Fin 32) (v : Int),
    (here s t).compHeld i = true :=
  ⟨devWith up (fun d => d.onComp 31 (fun c => { c with set := { c.set with enabled := true, sampled := false }, holdUntil := us 12 })), us 12 - 1, 31,
      0, by decide +kernel⟩

theorem witness_ThimbleEvents_trip : ∃ (s : State) (t : Time) (i : Fin 32) (v : Int) (o : Fin 8),
    let c := s.dev.guard.comps[i]
    let src := if c.set.source = .envelope then c.set.vib.val else i.val
    let u := (here s t).bandLevel c v
    let scale := (s.dev.watchedBand c.set).scale
    let beyond := fun (k : Int) => if c.set.source = .band then k * 2 ^ 32 < u * 1020 * 2 ^ scale else (k - 512) * (scaleNv src : Int) < 512 * (v * s.dev.gainOf src)
    let beneath := fun (k : Int) => if c.set.source = .band then u * 1020 * 2 ^ scale < k * 2 ^ 32 else 512 * (v * s.dev.gainOf src) < (k - 512) * (scaleNv src : Int)
    let next := if c.evaluated = false ∨ c.state = .inside then (if beyond c.set.high then CompState.above else if beneath c.set.low then .below else .inside)
      else if c.state = .above then (if beneath c.set.low then .below else if beneath ((c.set.high : Int) - c.set.hyst) then .inside else .above)
      else (if beyond c.set.high then .above else if beyond ((c.set.low : Int) + c.set.hyst) then .inside else .below)
    let stood := if (s.dev.bandLost c.set).isSome = true then some u else none
    let shown := fun (st : CompState) => (st = .above ∧ c.set.maskAbove = true) ∨ (st = .below ∧ c.set.maskBelow = true)
    s.dev.pwr.state ≠ .off ∧
    s.dev.pwr.state ≠ .reset ∧
    c.set.enabled = true ∧
    (c.set.sampled = false ∧ s.dev.pwr.state ≠ .watch) ∧
    (here s t).compHeld i = false ∧
    c.warmUp = false ∧
    c.latch = false ∧
    shown next ∧
    ¬ shown c.state :=
  ⟨devWith (devWith up (fun d => d.onComp 31 (fun c => { c with set := { c.set with enabled := true, sampled := false },
                                                                evaluated := true }))) (fun d => d.onGuard (fun g => { g with tripMasks := Vector.replicate 8 0x80000000 })), 9, 31, 2 ^ 35, 7, by decide +kernel⟩

theorem witness_ThimbleEvents_tick : ∃ (s : State) (t : Time) (i : Fin 32) (v : Int),
    let c := s.dev.guard.comps[i]
    let src := if c.set.source = .envelope then c.set.vib.val else i.val
    let u := (here s t).bandLevel c v
    let scale := (s.dev.watchedBand c.set).scale
    let beyond := fun (k : Int) => if c.set.source = .band then k * 2 ^ 32 < u * 1020 * 2 ^ scale else (k - 512) * (scaleNv src : Int) < 512 * (v * s.dev.gainOf src)
    let beneath := fun (k : Int) => if c.set.source = .band then u * 1020 * 2 ^ scale < k * 2 ^ 32 else 512 * (v * s.dev.gainOf src) < (k - 512) * (scaleNv src : Int)
    let next := if c.evaluated = false ∨ c.state = .inside then (if beyond c.set.high then CompState.above else if beneath c.set.low then .below else .inside)
      else if c.state = .above then (if beneath c.set.low then .below else if beneath ((c.set.high : Int) - c.set.hyst) then .inside else .above)
      else (if beyond c.set.high then .above else if beyond ((c.set.low : Int) + c.set.hyst) then .inside else .below)
    let stood := if (s.dev.bandLost c.set).isSome = true then some u else none
    let shown := fun (st : CompState) => (st = .above ∧ c.set.maskAbove = true) ∨ (st = .below ∧ c.set.maskBelow = true)
    s.dev.pwr.state ≠ .off ∧
    s.dev.pwr.state ≠ .reset ∧
    c.set.enabled = true ∧
    (c.set.sampled = true ∧ s.dev.pwr.fault ≠ some .clock) ∧
    c.waiting = none ∧
    (if c.set.tickKeep = true then (instant s t - s.dev.clk.origin) % (max 1 c.set.divider * 23437500) = 0 else (here s t).sampling = true ∧
        (here s t).onEdge = true ∧ (here s t).clk.edgeFrom (instant s t) % max 1 c.set.divider = 0) ∧
    (here s t).compHeld i = false ∧
    c.warmUp = false ∧
    c.latch = false ∧
    shown next ∧
    (∀ o : Fin 8, s.dev.guard.tripMasks[o][i] = false) ∧
    (∀ (pos : Fin 24) (b : Basket), ∀ r ∈ (s.dev.rinse.chains[pos]).rings[b], (s.dev.grants[b]).comparators[i] = true → r.comp = some i →
        r.total = 0 ∨ r.newest ≠ (here s t).stamp) :=
  ⟨devWith up (fun d => d.onComp 31 (fun c => { c with set := { c.set with enabled := true } })), 750000000, 31, -1, by decide +kernel⟩

theorem witness_ThimbleEvents_tickClears : ∃ (s : State) (t : Time) (i : Fin 32) (v : Int),
    let c := s.dev.guard.comps[i]
    let src := if c.set.source = .envelope then c.set.vib.val else i.val
    let u := (here s t).bandLevel c v
    let scale := (s.dev.watchedBand c.set).scale
    let beyond := fun (k : Int) => if c.set.source = .band then k * 2 ^ 32 < u * 1020 * 2 ^ scale else (k - 512) * (scaleNv src : Int) < 512 * (v * s.dev.gainOf src)
    let beneath := fun (k : Int) => if c.set.source = .band then u * 1020 * 2 ^ scale < k * 2 ^ 32 else 512 * (v * s.dev.gainOf src) < (k - 512) * (scaleNv src : Int)
    let next := if c.evaluated = false ∨ c.state = .inside then (if beyond c.set.high then CompState.above else if beneath c.set.low then .below else .inside)
      else if c.state = .above then (if beneath c.set.low then .below else if beneath ((c.set.high : Int) - c.set.hyst) then .inside else .above)
      else (if beyond c.set.high then .above else if beyond ((c.set.low : Int) + c.set.hyst) then .inside else .below)
    let stood := if (s.dev.bandLost c.set).isSome = true then some u else none
    let shown := fun (st : CompState) => (st = .above ∧ c.set.maskAbove = true) ∨ (st = .below ∧ c.set.maskBelow = true)
    s.dev.pwr.state ≠ .off ∧
    s.dev.pwr.state ≠ .reset ∧
    c.set.enabled = true ∧
    (c.set.sampled = true ∧ s.dev.pwr.fault ≠ some .clock) ∧
    c.waiting = none ∧
    (if c.set.tickKeep = true then (instant s t - s.dev.clk.origin) % (max 1 c.set.divider * 23437500) = 0 else (here s t).sampling = true ∧
        (here s t).onEdge = true ∧ (here s t).clk.edgeFrom (instant s t) % max 1 c.set.divider = 0) ∧
    (here s t).compHeld i = false ∧
    ¬ shown next ∧
    c.set.nextPeriod = true :=
  ⟨devWith up (fun d => d.onComp 31 (fun c => { c with set := { c.set with enabled := true, nextPeriod := true }, latch := true, warmUp := true })),
      750000000, 31, 5, by decide +kernel⟩

theorem witness_ThimbleEvents_tickSetting : ∃ (s : State) (t : Time) (i : Fin 32) (v : Int) (w : CompSet),
    let c := s.dev.guard.comps[i]
    s.dev.pwr.state ≠ .off ∧
    s.dev.pwr.state ≠ .reset ∧
    c.set.enabled = true ∧
    (if c.set.tickKeep = true then (instant s t - s.dev.clk.origin) % (max 1 c.set.divider * 23437500) = 0 else (here s t).sampling = true ∧
        (here s t).onEdge = true ∧ (here s t).clk.edgeFrom (instant s t) % max 1 c.set.divider = 0) ∧
    c.waiting = some w ∧
    s.dev.pwr.fault ≠ some .clock ∧
    s.dev.pwr.state = .active :=
  ⟨devWith up (fun d => d.onComp 31 (fun c => { c with set := { c.set with enabled := true },
                                                       waiting := some { c.set with enabled := true, hyst := 5 } })), 750000000, 31, -1,
      { CompSet.reset 31 with enabled := true, hyst := 5 }, by decide +kernel⟩

theorem witness_ThimbleEvents_noTick : ∃ (s : State) (t : Time) (i : Fin 32) (v : Int),
    let c := s.dev.guard.comps[i]
    (¬ (if c.set.tickKeep = true then (instant s t - s.dev.clk.origin) % (max 1 c.set.divider * 23437500) = 0 else (here s t).sampling = true ∧
        (here s t).onEdge = true ∧ (here s t).clk.edgeFrom (instant s t) % max 1 c.set.divider = 0)) :=
  ⟨(devWith up (fun d => d.onComp 31 (fun c => { c with set := { c.set with enabled := true } }))), 10, 31, 0, by decide +kernel⟩

theorem witness_ThimbleEvents_triggerOutput : ∃ (s : State) (t : Time) (i : Fin 32) (v : Int) (pos : Fin 24) (b : Basket) (r : Ring),
    let c := s.dev.guard.comps[i]
    let src := if c.set.source = .envelope then c.set.vib.val else i.val
    let u := (here s t).bandLevel c v
    let scale := (s.dev.watchedBand c.set).scale
    let beyond := fun (k : Int) => if c.set.source = .band then k * 2 ^ 32 < u * 1020 * 2 ^ scale else (k - 512) * (scaleNv src : Int) < 512 * (v * s.dev.gainOf src)
    let beneath := fun (k : Int) => if c.set.source = .band then u * 1020 * 2 ^ scale < k * 2 ^ 32 else 512 * (v * s.dev.gainOf src) < (k - 512) * (scaleNv src : Int)
    let next := if c.evaluated = false ∨ c.state = .inside then (if beyond c.set.high then CompState.above else if beneath c.set.low then .below else .inside)
      else if c.state = .above then (if beneath c.set.low then .below else if beneath ((c.set.high : Int) - c.set.hyst) then .inside else .above)
      else (if beyond c.set.high then .above else if beyond ((c.set.low : Int) + c.set.hyst) then .inside else .below)
    let stood := if (s.dev.bandLost c.set).isSome = true then some u else none
    let shown := fun (st : CompState) => (st = .above ∧ c.set.maskAbove = true) ∨ (st = .below ∧ c.set.maskBelow = true)
    s.dev.pwr.state ≠ .off ∧
    s.dev.pwr.state ≠ .reset ∧
    c.set.enabled = true ∧
    (c.set.sampled = false ∧ s.dev.pwr.state ≠ .watch) ∧
    (here s t).compHeld i = false ∧
    c.warmUp = false ∧
    c.latch = false ∧
    shown next ∧
    ¬ shown c.state ∧
    (s.dev.rinse.chains[pos]).rings[b] = some r ∧
    (s.dev.grants[b]).comparators[i] = true ∧
    r.comp = some i ∧
    r.state = .running ∧
    r.mode = .triggered ∧
    r.trigAt = none ∧
    r.total ≠ 0 ∧
    r.newest = (here s t).stamp :=
  ⟨devWith (devWith up (fun d => d.onComp 31 (fun c => { c with set := { c.set with enabled := true, sampled := false },
                                                                evaluated := true }))) (fun d => d.putRing 5 0 { aRing with comp := some 31, newest := d.stamp, total := 4, next := 0, post := 2 }), 0, 31, 2 ^ 35, 5, 0, { aRing with comp := some 31, newest := 0, total := 4, next := 0, post := 2 }, by decide +kernel⟩

theorem witness_ThimbleEvents_disabled : ∃ (s : State) (t : Time) (i : Fin 32) (v : Int),
    (s.dev.guard.comps[i]).set.enabled = false :=
  ⟨up, 9, 31, 5, by decide +kernel⟩

theorem witness_ThimbleEvents_warmUp : ∃ (s : State) (t : Time) (i : Fin 32) (v : Int) (k : Time),
    let c := s.dev.guard.comps[i]
    let src := if c.set.source = .envelope then c.set.vib.val else i.val
    let u := (here s t).bandLevel c v
    let scale := (s.dev.watchedBand c.set).scale
    let beyond := fun (k : Int) => if c.set.source = .band then k * 2 ^ 32 < u * 1020 * 2 ^ scale else (k - 512) * (scaleNv src : Int) < 512 * (v * s.dev.gainOf src)
    let beneath := fun (k : Int) => if c.set.source = .band then u * 1020 * 2 ^ scale < k * 2 ^ 32 else 512 * (v * s.dev.gainOf src) < (k - 512) * (scaleNv src : Int)
    let next := if c.evaluated = false ∨ c.state = .inside then (if beyond c.set.high then CompState.above else if beneath c.set.low then .below else .inside)
      else if c.state = .above then (if beneath c.set.low then .below else if beneath ((c.set.high : Int) - c.set.hyst) then .inside else .above)
      else (if beyond c.set.high then .above else if beyond ((c.set.low : Int) + c.set.hyst) then .inside else .below)
    let stood := if (s.dev.bandLost c.set).isSome = true then some u else none
    let shown := fun (st : CompState) => (st = .above ∧ c.set.maskAbove = true) ∨ (st = .below ∧ c.set.maskBelow = true)
    s.dev.pwr.state ≠ .off ∧
    s.dev.pwr.state ≠ .reset ∧
    c.set.enabled = true ∧
    (c.set.sampled = false ∧ s.dev.pwr.state ≠ .watch) ∧
    (here s t).compHeld i = false ∧
    c.warmUp = true ∧
    c.warmUpTick = some k ∧
    k + ns 1500 ≤ instant s t ∧
    c.latch = false ∧
    shown next ∧
    (∀ o : Fin 8, s.dev.guard.tripMasks[o][i] = false) ∧
    (∀ (pos : Fin 24) (b : Basket), ∀ r ∈ (s.dev.rinse.chains[pos]).rings[b], (s.dev.grants[b]).comparators[i] = true → r.comp = some i →
        r.total = 0 ∨ r.newest ≠ (here s t).stamp) :=
  ⟨devWith up (fun d => d.onComp 31 (fun c => { c with set := { c.set with enabled := true, sampled := false }, warmUp := true,
                                                       warmUpTick := some 8 })), ns 1500 + 8, 31, -1, 8, by decide +kernel⟩

theorem witness_ThimbleEvents_warmUpQuiet : ∃ (s : State) (t : Time) (i : Fin 32) (v : Int) (k : Time),
    let c := s.dev.guard.comps[i]
    let src := if c.set.source = .envelope then c.set.vib.val else i.val
    let u := (here s t).bandLevel c v
    let scale := (s.dev.watchedBand c.set).scale
    let beyond := fun (k : Int) => if c.set.source = .band then k * 2 ^ 32 < u * 1020 * 2 ^ scale else (k - 512) * (scaleNv src : Int) < 512 * (v * s.dev.gainOf src)
    let beneath := fun (k : Int) => if c.set.source = .band then u * 1020 * 2 ^ scale < k * 2 ^ 32 else 512 * (v * s.dev.gainOf src) < (k - 512) * (scaleNv src : Int)
    let next := if c.evaluated = false ∨ c.state = .inside then (if beyond c.set.high then CompState.above else if beneath c.set.low then .below else .inside)
      else if c.state = .above then (if beneath c.set.low then .below else if beneath ((c.set.high : Int) - c.set.hyst) then .inside else .above)
      else (if beyond c.set.high then .above else if beyond ((c.set.low : Int) + c.set.hyst) then .inside else .below)
    let stood := if (s.dev.bandLost c.set).isSome = true then some u else none
    let shown := fun (st : CompState) => (st = .above ∧ c.set.maskAbove = true) ∨ (st = .below ∧ c.set.maskBelow = true)
    s.dev.pwr.state ≠ .off ∧
    s.dev.pwr.state ≠ .reset ∧
    c.set.enabled = true ∧
    (c.set.sampled = false ∧ s.dev.pwr.state ≠ .watch) ∧
    (here s t).compHeld i = false ∧
    c.warmUp = true ∧
    c.warmUpTick = some k ∧
    k + ns 1500 ≤ instant s t ∧
    ¬ shown next :=
  ⟨devWith up (fun d => d.onComp 31 (fun c => { c with set := { c.set with enabled := true, sampled := false }, warmUp := true,
                                                       warmUpTick := some 8 })), ns 1500 + 8, 31, 9, 8, by decide +kernel⟩

theorem witness_ThimbleEvents_warmUpEarly : ∃ (s : State) (t : Time) (i : Fin 32) (v : Int),
    let c := s.dev.guard.comps[i]
    (c.warmUp = false ∨ (∀ k ∈ c.warmUpTick, instant s t < k + ns 1500)) :=
  ⟨devWith up (fun d => d.onComp 31 (fun c => { c with set := { c.set with enabled := true, sampled := false }, warmUp := true,
                                                       warmUpTick := some 8 })), ns 1500 + 7, 31, -9, by decide +kernel⟩

theorem witness_ThimbleEvents_gainEnd : ∃ (s : State) (t : Time) (i : Fin 32) (v : Int),
    let c := s.dev.guard.comps[i]
    let src := if c.set.source = .envelope then c.set.vib.val else i.val
    let u := (here s t).bandLevel c v
    let scale := (s.dev.watchedBand c.set).scale
    let beyond := fun (k : Int) => if c.set.source = .band then k * 2 ^ 32 < u * 1020 * 2 ^ scale else (k - 512) * (scaleNv src : Int) < 512 * (v * s.dev.gainOf src)
    let beneath := fun (k : Int) => if c.set.source = .band then u * 1020 * 2 ^ scale < k * 2 ^ 32 else 512 * (v * s.dev.gainOf src) < (k - 512) * (scaleNv src : Int)
    let next := if c.evaluated = false ∨ c.state = .inside then (if beyond c.set.high then CompState.above else if beneath c.set.low then .below else .inside)
      else if c.state = .above then (if beneath c.set.low then .below else if beneath ((c.set.high : Int) - c.set.hyst) then .inside else .above)
      else (if beyond c.set.high then .above else if beyond ((c.set.low : Int) + c.set.hyst) then .inside else .below)
    let stood := if (s.dev.bandLost c.set).isSome = true then some u else none
    let shown := fun (st : CompState) => (st = .above ∧ c.set.maskAbove = true) ∨ (st = .below ∧ c.set.maskBelow = true)
    s.dev.pwr.state ≠ .off ∧
    s.dev.pwr.state ≠ .reset ∧
    c.set.enabled = true ∧
    (c.set.sampled = false ∧ s.dev.pwr.state ≠ .watch) ∧
    c.holdUntil ≠ 0 ∧
    c.holdUntil ≤ instant s t ∧
    (∀ pos : Fin 24, pos.val = i.val → s.dev.fe[pos].cal = none) ∧
    (¬ shown next ∨ shown c.state) :=
  ⟨devWith up (fun d => d.onComp 31 (fun c => { c with set := { c.set with enabled := true, sampled := false }, holdUntil := us 12 })), us 12, 31, 3,
      by decide +kernel⟩

theorem witness_ThimbleEvents_gainEarly : ∃ (s : State) (t : Time) (i : Fin 32) (v : Int),
    ((s.dev.guard.comps[i]).holdUntil = 0 ∨ instant s t < (s.dev.guard.comps[i]).holdUntil) :=
  ⟨devWith up (fun d => d.onComp 31 (fun c => { c with set := { c.set with enabled := true, sampled := false }, holdUntil := us 12 })), us 11, 31, 3,
      by decide +kernel⟩

theorem witness_NeedleCommands_set : ∃ (s : State) (t : Time) (b : Basket) (o : Fin 8),
    let x := s.dev.guard.outs[o]
    let old := x.waiting.getD x.set
    let a := arg32 s b 2
    let c := arg32 s b 4
    let mode := arg s b 1 % 8
    let safe := if arg s b 1 / 16 % 4 = 0 then SafeLevel.low else if arg s b 1 / 16 % 4 = 1 then SafeLevel.high else SafeLevel.highz
    let plain := { old with activeLow := argBit s b 1 3, safe := safe }
    let new : NeedleSet := if mode = 0 then { plain with mode := .off } else if mode = 1 then { plain with mode := .pwm, period := a, active := c }
      else if mode = 2 then { plain with mode := .burst,
                                         burst := arg s b 6 } else if mode = 3 then { plain with mode := .heartbeat, halfUs := a, feedMs := c }
      else { plain with mode := .oneshot, width := a }
    Starts s b ∧
    arg s b 0 = o.val ∧
    Held s b .outputs o.val ∧
    mode ≤ 4 ∧
    arg s b 1 / 16 % 4 ≤ 2 ∧
    (mode = 1 → 2 ≤ a ∧ a ≤ 16777215 ∧ c ≤ a) ∧
    (mode = 2 → 1 ≤ arg s b 6) ∧
    (mode = 3 → 100 ≤ a ∧ a ≤ 1000000 ∧ c ≤ 60000) ∧
    (mode = 4 → 1 ≤ a ∧ a ≤ 16777215) ∧
    (x.firing = none ∨ new.mode = x.set.mode) :=
  ⟨argsOf up [7, 0x29, 2, 0, 2, 0, 1], 3, 0, 7, by decide +kernel⟩

theorem witness_NeedleCommands_synth : ∃ (s : State) (t : Time) (b : Basket),
    let f := arg32 s b 0
    let y := s.dev.guard.synth
    Starts s b ∧
    (s.dev.grants[b]).synth = true ∧
    (1000 ≤ f ∧ f ≤ 5000000) :=
  ⟨argsOf up [1000], 3, 0, by decide +kernel⟩

theorem witness_NeedleCommands_fire : ∃ (s : State) (t : Time) (b : Basket),
    let m := arg s b 0
    let n := arg32 s b 5
    let at_ := arg32 s b 1 + 2 ^ 32 * arg32 s b 3
    let now := (here s t).stamp.toNat
    Starts s b ∧
    (1 ≤ m ∧ m < 256) ∧
    (∀ o : Fin 8, bit m o.val = true → Held s b .outputs o.val) ∧
    1 ≤ n ∧
    (at_ ≤ now ∨ at_ < now + 1000 * n) ∧
    (∀ o : Fin 8, bit m o.val = true → (s.dev.guard.outs[o]).tripped = false ∧ (s.dev.guard.outs[o]).firing = none ∧
        ((s.dev.guard.outs[o]).set.mode = .burst ∨ (s.dev.guard.outs[o]).set.mode = .oneshot)) :=
  ⟨argsOf (devWith up (fun d => d.onOut 7 (fun n => { n with set := { n.set with mode := .burst } }))) [0x80, 9, 0, 0, 0, 1, 0], 3, 0,
      by decide +kernel⟩

theorem witness_NeedleCommands_arm : ∃ (s : State) (t : Time) (b : Basket),
    let m := arg s b 0
    Starts s b ∧
    (1 ≤ m ∧ m < 256) ∧
    (∀ o : Fin 8, bit m o.val = true → Held s b .outputs o.val) ∧
    (s.dev.pwr.state ≠ .hold ∧ s.dev.pwr.state ≠ .fault) ∧
    (∀ o : Fin 8, bit m o.val = true → (s.dev.guard.outs[o]).tripStatus = false ∧ s.dev.tripInput o = false) :=
  ⟨argsOf (devWith up (fun d => d.onOut 7 (fun n => { n with set := { n.set with mode := .burst } }))) [0x80], 3, 0, by decide +kernel⟩

theorem witness_NeedleCommands_tripOne : ∃ (s : State) (t : Time) (b : Basket) (o : Fin 8),
    let x := s.dev.guard.outs[o]
    Starts s b ∧
    Held s b .outputs o.val ∧
    arg s b 0 = 2 ^ o.val ∧
    x.firing = none ∧
    (∀ c : Basket, s.dev.guard.held[c] = none) :=
  ⟨argsOf up [0x80], 3, 0, 7, by decide +kernel⟩

theorem witness_NeedleCommands_trip : ∃ (s : State) (t : Time) (b : Basket),
    let m := arg s b 0
    Starts s b ∧
    (1 ≤ m ∧ m < 256) ∧
    (∀ o : Fin 8, bit m o.val = true → Held s b .outputs o.val) :=
  ⟨argsOf (devWith up (fun d => d.onOut 7 (fun n => { n with set := { n.set with mode := .burst },
                                                             firing := some { start := 0, stamp := 0, stop := 100, tag := 7,
                                                                              cycles := 3 } }))) [0x81], 3, 0, by decide +kernel⟩

theorem witness_NeedleCommands_feed : ∃ (s : State) (t : Time) (b : Basket),
    let m := arg s b 0
    Starts s b ∧
    (1 ≤ m ∧ m < 256) ∧
    (∀ o : Fin 8, bit m o.val = true → Held s b .outputs o.val) ∧
    (∀ o : Fin 8, bit m o.val = true → (s.dev.guard.outs[o]).armed = true ∧ (s.dev.guard.outs[o]).tripped = false ∧
        (s.dev.guard.outs[o]).set.mode = .heartbeat) ∧
    (∀ o : Fin 8, bit m o.val = true →
        (s.dev.guard.outs[o]).set.feedMs = 0 ∨ instant s t < (s.dev.guard.outs[o]).lastFeed + ms (s.dev.guard.outs[o]).set.feedMs) :=
  ⟨argsOf (devWith up (fun d => d.onOut 7 (fun n => { n with set := { n.set with mode := .heartbeat, feedMs := 1 }, armed := true }))) [0x80],
      ms 1 - 1, 0, by decide +kernel⟩

theorem witness_NeedleCommands_feedLate : ∃ (s : State) (t : Time) (b : Basket) (o : Fin 8),
    let x := s.dev.guard.outs[o]
    Starts s b ∧
    Held s b .outputs o.val ∧
    arg s b 0 = 2 ^ o.val ∧
    (x.armed = true ∧ x.tripped = false ∧ x.set.mode = .heartbeat) ∧
    (x.set.feedMs ≠ 0 ∧ x.lastFeed + ms x.set.feedMs ≤ instant s t) :=
  ⟨argsOf (devWith up (fun d => d.onOut 7 (fun n => { n with set := { n.set with mode := .heartbeat, feedMs := 1 }, armed := true }))) [0x80], ms 1,
      0, 7, by decide +kernel⟩

theorem witness_NeedleCommands_status : ∃ (s : State) (t : Time) (b : Basket) (o : Fin 8),
    let x := s.dev.guard.outs[o]
    Starts s b ∧
    arg s b 0 = o.val ∧
    Held s b .outputs o.val :=
  ⟨argsOf up [7], 3, 0, 7, by decide +kernel⟩

theorem witness_NeedleEvents_pwm : ∃ (s : State) (t : Time) (o : Fin 8),
    let x := s.dev.guard.outs[o]
    s.dev.pwr.state ≠ .off ∧
    s.dev.pwr.state ≠ .reset ∧
    s.dev.pwr.fault ≠ some .clock ∧
    (x.armed = true ∧ x.tripped = false ∧ x.set.mode = .pwm) ∧
    x.mark + stretched s.dev.clk.edgeRate (x.set.period * 15625) ≤ instant s t :=
  ⟨devWith up (fun d => d.onOut 7 (fun n => { n with set := { n.set with mode := .pwm, period := 2 }, armed := true, nextPH := some (3, 1) })), 31250,
      7, by decide +kernel⟩

theorem witness_NeedleEvents_heartbeat : ∃ (s : State) (t : Time) (o : Fin 8),
    let x := s.dev.guard.outs[o]
    s.dev.pwr.state ≠ .off ∧
    s.dev.pwr.state ≠ .reset ∧
    s.dev.pwr.fault ≠ some .clock ∧
    (x.armed = true ∧ x.tripped = false ∧ x.set.mode = .heartbeat) ∧
    x.mark + us x.set.halfUs ≤ instant s t :=
  ⟨devWith up (fun d => d.onOut 7 (fun n => { n with set := { n.set with mode := .heartbeat, halfUs := 100 }, armed := true })), us 100, 7,
      by decide +kernel⟩

theorem witness_NeedleEvents_feed : ∃ (s : State) (t : Time) (o : Fin 8),
    let x := s.dev.guard.outs[o]
    (x.armed = true ∧ x.tripped = false ∧ x.set.mode = .heartbeat) ∧
    (x.set.feedMs ≠ 0 ∧ x.lastFeed + ms x.set.feedMs ≤ instant s t) ∧
    x.firing = none ∧
    (∀ c : Basket, s.dev.guard.held[c] = none) :=
  ⟨devWith up (fun d => d.onOut 7 (fun n => { n with set := { n.set with mode := .heartbeat, feedMs := 1 }, armed := true })), ms 1, 7,
      by decide +kernel⟩

theorem witness_NeedleEvents_early : ∃ (s : State) (t : Time) (o : Fin 8),
    let x := s.dev.guard.outs[o]
    (x.armed = false ∨ x.tripped = true ∨ instant s t < x.mark + stretched s.dev.clk.edgeRate (x.set.period * 15625)) ∧
    (x.armed = false ∨ x.tripped = true ∨ instant s t < x.mark + us x.set.halfUs) ∧
    (x.armed = false ∨ x.tripped = true ∨ instant s t < x.lastFeed + ms x.set.feedMs) :=
  ⟨devWith up (fun d => d.onOut 7 (fun n => { n with set := { n.set with mode := .heartbeat, halfUs := 100, feedMs := 1 }, armed := true })),
      us 100 - 1, 7, by decide +kernel⟩

theorem witness_NeedleEvents_lock : ∃ (s : State) (t : Time),
    let y := s.dev.guard.synth
    s.dev.pwr.state ≠ .off ∧
    s.dev.pwr.state ≠ .reset ∧
    s.dev.pwr.fault ≠ some .clock ∧
    y.state = .settling :=
  ⟨up, 5, by decide +kernel⟩

theorem witness_NeedleEvents_calibrated : ∃ (s : State) (t : Time),
    let y := s.dev.guard.synth
    s.dev.pwr.state ≠ .off ∧
    s.dev.pwr.state ≠ .reset ∧
    s.dev.pwr.fault ≠ some .clock ∧
    y.state = .calibrating :=
  ⟨devWith (up) (fun d => d.onGuard (fun g => { g with synth := { g.synth with state := .calibrating } })), 5, by decide +kernel⟩

theorem witness_NeedleEvents_fires : ∃ (s : State) (t : Time) (b : Basket) (h : HeldFire) (r : Running),
    let y := s.dev.guard.synth
    let now := (here s t).stamp
    s.dev.guard.held[b] = some h ∧
    (∀ o : Fin 8, bit h.mask o.val = true → (s.dev.guard.outs[o]).tripped = false ∧ (s.dev.guard.outs[o]).firing = none ∧
        ((s.dev.guard.outs[o]).set.mode = .oneshot ∨ ((s.dev.guard.outs[o]).set.mode = .burst ∧ y.state = .locked ∧ y.waiting = none))) ∧
    (∀ st ∈ h.start, st ≤ now.toNat) ∧
    instant s t < h.deadline ∧
    s.dev.host.pages[b].running = some r ∧
    (r.code = 0x0312 ∧ r.outcome = none) :=
  ⟨pageWith (devWith (devWith up (fun d => d.onOut 7 (fun n => { n with set := { n.set with mode := .burst } }))) (fun d => d.onGuard (fun g => { g with held := g.held.set 2 (some { mask := 0x80, start := some 1, deadline := us 9, tag := 7 }), synth := { g.synth with state := .locked } }))) 2 (fun p => { p with cmdState := .busy, running := some { code := 0x0312, args := p.args, tag := 7, since := 0, outcome := none } }), us 1, 2, { mask := 0x80, start := some 1, deadline := us 9, tag := 7 }, { code := 0x0312, args := Vector.replicate 8 0, tag := 7, since := 0, outcome := none }, by decide +kernel⟩

theorem witness_NeedleEvents_waits : ∃ (s : State) (t : Time) (b : Basket) (h : HeldFire),
    s.dev.guard.held[b] = some h ∧
    (∃ o : Fin 8, bit h.mask o.val = true ∧ ((s.dev.guard.outs[o]).tripped = true ∨ ((s.dev.guard.outs[o]).set.mode = .burst ∧
        s.dev.guard.synth.state ≠ .locked))) ∨ (∃ st ∈ h.start, (here s t).stamp.toNat < st) ∧
    instant s t < h.deadline :=
  ⟨pageWith (devWith (devWith up (fun d => d.onOut 7 (fun n => { n with set := { n.set with mode := .burst } }))) (fun d => d.onGuard (fun g => { g with held := g.held.set 2 (some { mask := 0x80, start := some 1, deadline := us 9, tag := 7 }) }))) 2 (fun p => { p with cmdState := .busy, running := some { code := 0x0312, args := p.args, tag := 7, since := 0, outcome := none } }), us 1, 2, { mask := 0x80, start := some 1, deadline := us 9, tag := 7 }, by decide +kernel⟩

theorem witness_NeedleEvents_deadline : ∃ (s : State) (t : Time) (b : Basket) (h : HeldFire) (r : Running),
    s.dev.guard.held[b] = some h ∧
    h.deadline ≤ instant s t ∧
    s.dev.host.pages[b].running = some r ∧
    (r.code = 0x0312 ∧ r.outcome = none) :=
  ⟨pageWith (devWith (devWith up (fun d => d.onOut 7 (fun n => { n with set := { n.set with mode := .burst } }))) (fun d => d.onGuard (fun g => { g with held := g.held.set 2 (some { mask := 0x80, start := some 1, deadline := us 9, tag := 7 }) }))) 2 (fun p => { p with cmdState := .busy, running := some { code := 0x0312, args := p.args, tag := 7, since := 0, outcome := none } }), us 9, 2, { mask := 0x80, start := some 1, deadline := us 9, tag := 7 }, { code := 0x0312, args := Vector.replicate 8 0, tag := 7, since := 0, outcome := none }, by decide +kernel⟩

theorem witness_NeedleEvents_finished : ∃ (s : State) (t : Time) (o : Fin 8) (f : Firing),
    let x := s.dev.guard.outs[o]
    let y := s.dev.guard.synth
    x.firing = some f ∧
    x.set.mode = .burst ∧
    f.stop ≤ instant s t ∧
    (y.waiting = none ∨ (∀ p : Fin 8, p ≠ o → (s.dev.guard.outs[p]).firing = none)) :=
  ⟨devWith (devWith up (fun d => d.onOut 7 (fun n => { n with set := { n.set with mode := .burst },
                                                              firing := some { start := 5, stamp := 0, stop := 100, tag := 7,
                                                                               cycles := 3 } }))) (fun d => d.onGuard (fun g => { g with synth := { g.synth with waiting := some 1000 } })), 100, 7, { start := 5, stamp := 0, stop := 100, tag := 7, cycles := 3 }, by decide +kernel⟩

theorem witness_NeedleEvents_firing : ∃ (s : State) (t : Time) (o : Fin 8) (f : Firing),
    (s.dev.guard.outs[o]).firing = some f ∧
    instant s t < f.stop :=
  ⟨devWith up (fun d => d.onOut 7 (fun n => { n with firing := some { start := 5, stamp := 0, stop := 100, tag := 7, cycles := 3 } })), 99, 7,
      { start := 5, stamp := 0, stop := 100, tag := 7, cycles := 3 }, by decide +kernel⟩

theorem witness_RinseChains_set : ∃ (s : State) (t : Time) (pos : Fin 24),
    let c := s.dev.rinse.chains[pos]
    let sh := arg s 0 3 / 256 % 32
    StartsAwake s 0 ∧
    arg s 0 0 = pos.val ∧
    Held s 0 .channels pos.val ∧
    (1 ≤ arg s 0 1 ∧ arg s 0 1 ≤ 4096) ∧
    (4 ≤ sh ∧ sh ≤ 24) :=
  ⟨argsOf up [23, 4096, 3, 0x1803, 1], 3, 23, by decide +kernel⟩

theorem witness_RinseChains_coef : ∃ (s : State) (t : Time) (pos : Fin 24),
    let c := s.dev.rinse.chains[pos]
    let n := arg s 0 2
    StartsAwake s 0 ∧
    arg s 0 0 = pos.val ∧
    Held s 0 .channels pos.val ∧
    HeldRange s 0 (arg32 s 0 3) (2 * n) ∧
    (n ≤ if argBit s 0 1 0 = true then 64 else 128) ∧
    (if argBit s 0 1 0 = true then c.live.bank2 else c.live.bank1) ≠ argBit s 0 1 1 ∧
    c.willActivate (argBit s 0 1 0) (argBit s 0 1 1) = false :=
  ⟨argsOf (devWith up (fun d => d.memWrite 0x80000 [1, 2, 0xFF, 0xFF])) [23, 3, 2, 0, 8], 3, 23, by decide +kernel⟩

theorem witness_RinseChains_commitWaits : ∃ (s : State) (t : Time) (pos : Fin 24),
    let c := s.dev.rinse.chains[pos]
    StartsAwake s 0 ∧
    arg s 0 0 = pos.val ∧
    Held s 0 .channels pos.val ∧
    argBit s 0 1 0 = false ∧
    (c.enabled = true ∨ s.dev.pwr.state = .boot) ∧
    c.fits pos.val c.staged = true ∧
    (c.staged.dec = c.live.dec ∨ s.dev.detectorBound pos.val = false) ∧
    c.pending = none :=
  ⟨argsOf (devWith up (fun d => d.onChain 23 (fun c => { c with enabled := true, staged := { c.live with dec := 4 } }))) [23], 3, 23,
      by decide +kernel⟩

theorem witness_RinseChains_commitNow : ∃ (s : State) (t : Time) (pos : Fin 24),
    let c := s.dev.rinse.chains[pos]
    StartsAwake s 0 ∧
    arg s 0 0 = pos.val ∧
    Held s 0 .channels pos.val ∧
    argBit s 0 1 0 = false ∧
    c.enabled = false ∧
    s.dev.pwr.state ≠ .boot ∧
    c.fits pos.val c.staged = true ∧
    (c.staged.dec = c.live.dec ∨ s.dev.detectorBound pos.val = false) ∧
    c.pending = none :=
  ⟨argsOf (devWith up (fun d => d.onChain 23 (fun c => { c with staged := { c.live with dec := 4 } }))) [23], 3, 23, by decide +kernel⟩

theorem witness_RinseChains_revert : ∃ (s : State) (t : Time) (pos : Fin 24),
    let c := s.dev.rinse.chains[pos]
    StartsAwake s 0 ∧
    arg s 0 0 = pos.val ∧
    Held s 0 .channels pos.val ∧
    argBit s 0 1 0 = true ∧
    c.pending = none :=
  ⟨argsOf (devWith up (fun d => d.onChain 23 (fun c => { c with staged := { c.live with dec := 4 } }))) [23, 1], 3, 23, by decide +kernel⟩

theorem witness_RinseChains_swapWaits : ∃ (s : State) (t : Time) (pos : Fin 24),
    let c := s.dev.rinse.chains[pos]
    StartsAwake s 0 ∧
    arg s 0 0 = pos.val ∧
    Held s 0 .channels pos.val ∧
    c.enabled = true ∧
    c.fits pos.val c.live.toggled = true ∧
    (c.live.toggled.dec = c.live.dec ∨ s.dev.detectorBound pos.val = false) ∧
    c.pending = none :=
  ⟨argsOf (devWith up (fun d => d.onChain 23 (fun c => { c with enabled := true }))) [23], 3, 23, by decide +kernel⟩

theorem witness_RinseChains_swapNow : ∃ (s : State) (t : Time) (pos : Fin 24),
    let c := s.dev.rinse.chains[pos]
    StartsAwake s 0 ∧
    arg s 0 0 = pos.val ∧
    Held s 0 .channels pos.val ∧
    c.enabled = false ∧
    c.fits pos.val c.live.toggled = true ∧
    (c.live.toggled.dec = c.live.dec ∨ s.dev.detectorBound pos.val = false) ∧
    c.pending = none :=
  ⟨argsOf up [23], 3, 23, by decide +kernel⟩

theorem witness_RinseChains_conflict : ∃ (s : State) (t : Time) (pos : Fin 24),
    let c := s.dev.rinse.chains[pos]
    StartsAwake s 0 ∧
    arg s 0 0 = pos.val ∧
    Held s 0 .channels pos.val ∧
    c.pending ≠ none :=
  ⟨argsOf (devWith up (fun d => d.onChain 23 (fun c => { c with pending := some { swap := false, target := c.staged, from_ := 0 } }))) [23, 1], 3, 23,
      by decide +kernel⟩

theorem witness_RinseChains_enable : ∃ (s : State) (t : Time) (pos : Fin 24),
    let c := s.dev.rinse.chains[pos]
    StartsAwake s 0 ∧
    arg s 0 0 = pos.val ∧
    Held s 0 .channels pos.val ∧
    argBit s 0 1 0 = true :=
  ⟨argsOf up [23, 1], 3, 23, by decide +kernel⟩

theorem witness_RinseChains_disable : ∃ (s : State) (t : Time) (pos : Fin 24),
    let c := s.dev.rinse.chains[pos]
    StartsAwake s 0 ∧
    arg s 0 0 = pos.val ∧
    Held s 0 .channels pos.val ∧
    argBit s 0 1 0 = false ∧
    (∀ b : Basket, ∀ r ∈ c.rings[b], r.state = .stopped) ∧
    c.pending = none :=
  ⟨argsOf (devWith up (fun d => d.onChain 23 (fun c => { c with enabled := true, waiting := true }))) [23], 3, 23, by decide +kernel⟩

theorem witness_RinseChains_freeze : ∃ (s : State) (t : Time) (pos : Fin 24),
    let c := s.dev.rinse.chains[pos]
    StartsAwake s 0 ∧
    arg s 0 0 = pos.val ∧
    Held s 0 .channels pos.val :=
  ⟨argsOf up [23, 1], 3, 23, by decide +kernel⟩

theorem witness_RinseChains_apply : ∃ (s : State) (t : Time) (pos : Fin 24) (p : ChainCommit),
    let c := s.dev.rinse.chains[pos]
    c.pending = some p ∧
    p.from_ ≤ instant s t ∧
    (s.dev.pwr.state = .active ∨ (s.dev.pwr.state = .boot ∧ p.swap = true)) ∧
    (here s t).boundary pos.val c.live.dec = true ∧
    (here s t).atSync = false :=
  ⟨devWith up (fun d => d.onChain 23 (fun c => { c with enabled := true, pending := some { swap := false, target := { c.live with dec := 2 },
                                                                                           from_ := 9 } })), 15625 * 6144, 23,
      { swap := false, target := { dec := 2, bank1 := false, bank2 := false }, from_ := 9 }, by decide +kernel⟩

theorem witness_RinseChains_waits : ∃ (s : State) (t : Time) (pos : Fin 24),
    let c := s.dev.rinse.chains[pos]
    (∀ p ∈ c.pending, instant s t < p.from_ ∨ (here s t).boundary pos.val c.live.dec = false ∨ (here s t).atSync = true) :=
  ⟨devWith up (fun d => d.onChain 23 (fun c => { c with enabled := true, pending := some { swap := false, target := { c.live with dec := 2 },
                                                                                           from_ := 9 } })), 15625 * 6143, 23, by decide +kernel⟩

theorem witness_DetectorsRings_setDetector : ∃ (s : State) (t : Time) (pos : Fin 24),
    let c := s.dev.rinse.chains[pos]
    let ae := 16 ≤ pos.val ∧ pos.val < 20
    StartsAwake s 0 ∧
    arg s 0 0 = pos.val ∧
    Held s 0 .channels pos.val ∧
    arg s 0 2 ≤ 24 ∧
    1 ≤ arg s 0 3 ∧
    (1 ≤ arg s 0 4 ∧ arg s 0 4 ≤ 24) ∧
    (ae → 1 ≤ arg32 s 0 5 ∧ arg32 s 0 5 ≤ 8388607 ∧ 1 ≤ arg s 0 7) ∧
    (¬ ae → argBit s 0 1 3 = false ∧ arg32 s 0 5 = 0 ∧ arg s 0 7 = 0) :=
  ⟨argsOf up [19, 15, 24, 1, 1, 0xFFFF, 0x7F, 1], 3, 19, by decide +kernel⟩

theorem witness_DetectorsRings_read : ∃ (s : State) (t : Time) (b : Basket) (pos : Fin 24),
    let c := s.dev.rinse.chains[pos]
    StartsAwake s b ∧
    arg s b 0 = pos.val ∧
    Held s b .channels pos.val ∧
    arg s b 1 ≤ 3 :=
  ⟨argsOf up [23, 3], 3, 0, 23, by decide +kernel⟩

theorem witness_DetectorsRings_reset : ∃ (s : State) (t : Time) (pos : Fin 24),
    let c := s.dev.rinse.chains[pos]
    StartsAwake s 0 ∧
    arg s 0 0 = pos.val ∧
    Held s 0 .channels pos.val :=
  ⟨argsOf (devWith up (fun d => d.onChain 23 (fun c => { c with det := { c.det with peak := 5, env := 7, hits := 9 } }))) [23, 9], 3, 23,
      by decide +kernel⟩

theorem witness_DetectorsRings_ringSet : ∃ (s : State) (t : Time) (b : Basket) (pos : Fin 24) (k : Nat),
    let c := s.dev.rinse.chains[pos]
    let mode := arg s b 4 % 4
    StartsAwake s b ∧
    arg s b 0 = pos.val ∧
    Held s b .channels pos.val ∧
    (k < 15 ∧ arg s b 3 = 2 ^ k) ∧
    arg32 s b 1 % 64 = 0 ∧
    mode ≤ 2 ∧
    arg32 s b 6 ≤ 64 * 2 ^ k ∧
    HeldRange s b (arg32 s b 1) (64 * 2 ^ k * (if argBit s b 4 2 = true then 8 else 4)) ∧
    (argBit s b 4 2 = true → Held s b .tachs (arg s b 4 / 16 % 4)) ∧
    (mode = 2 → arg s b 5 = 0xFF ∨ Held s b .comparators (arg s b 5)) ∧
    (∀ r ∈ c.rings[b], r.state = .stopped) :=
  ⟨argsOf up [23, 0, 8, 1, 0x36, 31, 64, 0], 3, 0, 23, 0, by decide +kernel⟩

theorem witness_DetectorsRings_ringStart : ∃ (s : State) (t : Time) (b : Basket) (pos : Fin 24) (r : Ring),
    let c := s.dev.rinse.chains[pos]
    StartsAwake s b ∧
    arg s b 0 = pos.val ∧
    Held s b .channels pos.val ∧
    c.rings[b] = some r ∧
    HeldRange s b r.base (r.length * (if r.withAngle = true then 8 else 4)) :=
  ⟨argsOf (devWith up (fun d => d.onChain 23 (fun c => { c with rings := c.rings.set 0 (some { base := 0x80000, length := 64, mode := .triggered, withAngle := true, tach := 3, comp := none, post := 5, tag := 2, state := .running, next := 7, total := 9, newest := 3, trigAt := none, trigIndex := none, postLeft := 0 }) }))) [23], 3, 0, 23, { base := 0x80000, length := 64, mode := .triggered, withAngle := true, tach := 3, comp := none, post := 5, tag := 2, state := .running, next := 7, total := 9, newest := 3, trigAt := none, trigIndex := none, postLeft := 0 }, by decide +kernel⟩

theorem witness_DetectorsRings_ringStop : ∃ (s : State) (t : Time) (b : Basket) (pos : Fin 24) (r : Ring),
    let c := s.dev.rinse.chains[pos]
    StartsAwake s b ∧
    arg s b 0 = pos.val ∧
    Held s b .channels pos.val ∧
    c.rings[b] = some r ∧
    r.state ≠ .stopped :=
  ⟨argsOf (devWith up (fun d => d.onChain 23 (fun c => { c with rings := c.rings.set 0 (some { base := 0x80000, length := 64, mode := .triggered, withAngle := true, tach := 3, comp := none, post := 5, tag := 2, state := .running, next := 7, total := 9, newest := 3, trigAt := none, trigIndex := none, postLeft := 0 }) }))) [23], 3, 0, 23, { base := 0x80000, length := 64, mode := .triggered, withAngle := true, tach := 3, comp := none, post := 5, tag := 2, state := .running, next := 7, total := 9, newest := 3, trigAt := none, trigIndex := none, postLeft := 0 }, by decide +kernel⟩

theorem witness_DetectorsRings_ringStopped : ∃ (s : State) (t : Time) (b : Basket) (pos : Fin 24),
    let c := s.dev.rinse.chains[pos]
    StartsAwake s b ∧
    arg s b 0 = pos.val ∧
    Held s b .channels pos.val ∧
    (∀ r ∈ c.rings[b], r.state = .stopped) :=
  ⟨argsOf up [23], 3, 0, 23, by decide +kernel⟩

theorem witness_DetectorsRings_trigger : ∃ (s : State) (t : Time) (b : Basket) (pos : Fin 24) (r : Ring),
    let c := s.dev.rinse.chains[pos]
    StartsAwake s b ∧
    arg s b 0 = pos.val ∧
    Held s b .channels pos.val ∧
    c.rings[b] = some r ∧
    r.state ≠ .stopped ∧
    r.mode = .triggered ∧
    (r.state ≠ .running ∨ r.trigAt ≠ none ∨ r.total = 0 ∨ r.newest ≠ (here s t).stamp) :=
  ⟨argsOf (devWith up (fun d => d.onChain 23 (fun c => { c with rings := c.rings.set 0 (some { base := 0x80000, length := 64, mode := .triggered, withAngle := true, tach := 3, comp := none, post := 5, tag := 2, state := .running, next := 7, total := 9, newest := 3, trigAt := none, trigIndex := none, postLeft := 0 }) }))) [23], 3, 0, 23, { base := 0x80000, length := 64, mode := .triggered, withAngle := true, tach := 3, comp := none, post := 5, tag := 2, state := .running, next := 7, total := 9, newest := 3, trigAt := none, trigIndex := none, postLeft := 0 }, by decide +kernel⟩

theorem witness_DetectorsRings_triggerNow : ∃ (s : State) (t : Time) (b : Basket) (pos : Fin 24) (r : Ring),
    let c := s.dev.rinse.chains[pos]
    StartsAwake s b ∧
    arg s b 0 = pos.val ∧
    Held s b .channels pos.val ∧
    c.rings[b] = some r ∧
    r.state = .running ∧
    r.mode = .triggered ∧
    r.trigAt = none ∧
    (r.total ≠ 0 ∧ r.newest = (here s t).stamp) :=
  ⟨argsOf (devWith up (fun d => d.onChain 23 (fun c => { c with rings := c.rings.set 0 (some { base := 0x80000, length := 64, mode := .triggered, withAngle := true, tach := 3, comp := none, post := 1, tag := 2, state := .running, next := 7, total := 9, newest := 20, trigAt := none, trigIndex := none, postLeft := 0 }) }))) [23], 3, 0, 23, { base := 0x80000, length := 64, mode := .triggered, withAngle := true, tach := 3, comp := none, post := 1, tag := 2, state := .running, next := 7, total := 9, newest := 20, trigAt := none, trigIndex := none, postLeft := 0 }, by decide +kernel⟩

theorem witness_DetectorsRings_refused : ∃ (s : State) (t : Time) (b : Basket) (pos : Fin 24),
    let c := s.dev.rinse.chains[pos]
    StartsAwake s b ∧
    arg s b 0 = pos.val ∧
    Held s b .channels pos.val ∧
    (∀ r ∈ c.rings[b], r.state = .stopped ∨ r.mode ≠ .triggered) :=
  ⟨argsOf up [23], 3, 0, 23, by decide +kernel⟩

theorem witness_SyncRows_source : ∃ (s : State) (t : Time),
    StartsAwake s 0 ∧
    arg s 0 0 ≤ 2 :=
  ⟨argsOf up [2], 3, by decide +kernel⟩

theorem witness_SyncRows_command : ∃ (s : State) (t : Time),
    Starts s 0 ∧
    s.dev.pwr.fault ≠ some .clock ∧
    (∀ p : Fin 24, (s.dev.rinse.chains[p]).pending = none ∧ (s.dev.rinse.chains[p]).swapArmed = false) :=
  ⟨devWith (argsOf up []) (fun d => (d.onWr (fun w => { w with running := true })).onChain 7 (fun c => { c with enabled := true })), us 30,
      by decide +kernel⟩

theorem witness_SyncRows_armed : ∃ (s : State) (t : Time) (pos : Fin 24),
    let c := s.dev.rinse.chains[pos]
    Starts s 0 ∧
    s.dev.pwr.fault ≠ some .clock ∧
    (∀ p : Fin 24, (s.dev.rinse.chains[p]).pending = none) ∧
    c.swapArmed = true :=
  ⟨devWith (argsOf up []) (fun d => d.onChain 7 (fun c => { c with swapArmed := true })), us 30, 7, by decide +kernel⟩

theorem witness_SyncRows_pin : ∃ (s : State) (t : Time),
    (s.dev.pwr.state ≠ .off ∧ s.dev.pwr.state ≠ .reset) ∧
    s.dev.pwr.fault ≠ some .clock ∧
    s.dev.rinse.source = .pin ∧
    s.dev.link.live.set.syncOut = false ∧
    (∀ e ∈ s.dev.rinse.lastPinEdge, e + us 10 ≤ instant s t) ∧
    (∀ p : Fin 24, (s.dev.rinse.chains[p]).pending = none ∧ (s.dev.rinse.chains[p]).swapArmed = false) :=
  ⟨devWith up (fun d => (d.onWr (fun w => { w with running := true })).onChain 7 (fun c => { c with enabled := true })), us 30, by decide +kernel⟩

theorem witness_SyncRows_ignored : ∃ (s : State) (t : Time),
    (s.dev.rinse.source ≠ .pin ∨ s.dev.link.live.set.syncOut = true ∨ s.dev.pwr.fault = some .clock ∨ (∃ e ∈ s.dev.rinse.lastPinEdge,
        instant s t < e + us 10)) :=
  ⟨devWith up (fun d => d.onRinse (fun r => { r with lastPinEdge := some 5 })), us 10, by decide +kernel⟩

theorem witness_PressCommands_form : ∃ (s : State) (t : Time) (i : Fin 48),
    let x := s.dev.tiles[i]
    let w := (here s t).w16
    StartsAwake s 0 ∧
    arg s 0 0 = i.val ∧
    Held s 0 .tiles i.val ∧
    x.state = .blank ∧
    0 < (here s t).freeTags 0 ∧
    x.counter + 528 * w ≤ 1622016000 :=
  ⟨argsOf up [47], 3, 47, by decide +kernel⟩

theorem witness_PressCommands_press : ∃ (s : State) (t : Time) (b : Basket) (i : Fin 48),
    let x := s.dev.tiles[i]
    let w := (here s t).w16
    let a := arg s b 1
    let n := arg s b 2
    StartsAwake s b ∧
    arg s b 0 = i.val ∧
    Held s b .tiles i.val ∧
    (1 ≤ n ∧ a + n ≤ 512) ∧
    HeldRange s b (arg32 s b 3) (256 * n) ∧
    (x.state ≠ .blank ∧ x.state ≠ .retired) ∧
    0 < (here s t).freeTags b ∧
    x.counter + n * w ≤ 1622016000 :=
  ⟨argsOf (devWith up (fun d => d.onTile 47 (fun x => { x with state := .spare, armed := true }))) [47, 511, 1, 0, 8], 3, 0, 47, by decide +kernel⟩

theorem witness_PressCommands_inspect : ∃ (s : State) (t : Time) (b : Basket) (i : Fin 48),
    let x := s.dev.tiles[i]
    let w := (here s t).w16
    StartsAwake s b ∧
    arg s b 0 = i.val ∧
    Held s b .tiles i.val ∧
    (x.state ≠ .blank ∧ x.state ≠ .retired) :=
  ⟨argsOf (devWith up (fun d => d.onTile 47 (fun x => { x with state := .spare, armed := true }))) [47], 3, 0, 47, by decide +kernel⟩

theorem witness_PressCommands_calibrate : ∃ (s : State) (t : Time) (b : Basket) (i : Fin 48),
    let x := s.dev.tiles[i]
    let w := (here s t).w16
    StartsAwake s b ∧
    arg s b 0 = i.val ∧
    Held s b .tiles i.val ∧
    (x.state ≠ .blank ∧ x.state ≠ .retired) :=
  ⟨argsOf (devWith up (fun d => d.onTile 47 (fun x => { x with state := .spare }))) [47], 3, 0, 47, by decide +kernel⟩

theorem witness_PressCommands_worn : ∃ (s : State) (t : Time) (b : Basket) (i : Fin 48),
    let x := s.dev.tiles[i]
    let w := (here s t).w16
    StartsAwake s b ∧
    arg s b 0 = i.val ∧
    Held s b .tiles i.val ∧
    (1 ≤ arg s b 2 ∧ arg s b 1 + arg s b 2 ≤ 512) ∧
    HeldRange s b (arg32 s b 3) (256 * arg s b 2) ∧
    (x.state ≠ .blank ∧ x.state ≠ .retired) ∧
    0 < (here s t).freeTags b ∧
    (1622016000 < x.counter + arg s b 2 * w ∧ x.counter ≤ 1622016000) :=
  ⟨argsOf (devWith up (fun d => d.onTile 47 (fun x => { x with state := .spare, counter := 1622016000 }))) [47, 511, 1, 0, 8], 3, 0, 47,
      by decide +kernel⟩

theorem witness_PressCommands_state : ∃ (s : State) (t : Time) (b : Basket) (i : Fin 48),
    let x := s.dev.tiles[i]
    StartsAwake s b ∧
    arg s b 0 = i.val ∧
    Held s b .tiles i.val ∧
    (x.state = .blank ∨ x.state = .retired) :=
  ⟨argsOf up [47], 3, 0, 47, by decide +kernel⟩

theorem witness_PressCommands_upkeep : ∃ (s : State) (t : Time),
    StartsAwake s 0 ∧
    (1 ≤ arg s 0 0 ∧ arg s 0 0 ≤ 168) ∧
    (1 ≤ arg s 0 1 ∧ arg s 0 1 ≤ 100) :=
  ⟨argsOf up [168, 100, 1], 3, by decide +kernel⟩

theorem witness_PressEvents_begins : ∃ (s : State) (t : Time) (i : Fin 48) (op : PressOp) (r : List PressOp) (a first : Nat),
    let x := s.dev.tiles[i]
    let w := (here s t).w16
    (s.dev.pwr.state = .active ∨ s.dev.pwr.state = .boot) ∧
    s.dev.pwr.restored = true ∧
    x.queue = op :: r ∧
    x.op = none ∧
    (x.state = .spare ∨ x.state = .ready) ∧
    (op.kind = .press ∧ op.source = .records a first ∧ op.rows ≠ [] ∧ op.selfFails = 0) ∧
    ((here s t).freeFor i op = true ∧ (here s t).groupBusy i op = false) ∧
    x.counter + op.rows.length * w ≤ 1622016000 :=
  ⟨devWith (devWith up (fun d => d.onTile 47 (fun x => { x with state := .spare,
                                                                queue := [{ PressOp.of .press 0 7 none (.records 0x80000 5) [5, 6] 3 with rows := [5, 6] }] }))) (fun d => d.onPwr (fun w => { w with restored := true, vddpOk := true })), 9, 47, { PressOp.of .press 0 7 none (.records 0x80000 5) [5, 6] 3 with rows := [5, 6] }, [], 0x80000, 5, by decide +kernel⟩

theorem witness_PressEvents_inspects : ∃ (s : State) (t : Time) (i : Fin 48),
    let x := s.dev.tiles[i]
    (s.dev.pwr.state = .active ∨ s.dev.pwr.state = .boot) ∧
    s.dev.pwr.restored = true ∧
    x.queue = [] ∧
    x.op = none ∧
    x.state = .suspect ∧
    x.due = true ∧
    (∀ h : Fin 16, s.dev.models[h] = none) ∧
    (∀ j : Fin 48, j ≠ i → (s.dev.tiles[j]).op = none ∧ (s.dev.tiles[j]).state ≠ .suspect) ∧
    x.counter < enduranceBudget :=
  ⟨devWith (devWith up (fun d => d.onTile 47 (fun x => { x with state := .suspect,
                                                                due := true }))) (fun d => d.onPwr (fun w => { w with restored := true, vddpOk := true })), 9, 47, by decide +kernel⟩

theorem witness_PressEvents_idle : ∃ (s : State) (t : Time) (i : Fin 48),
    let x := s.dev.tiles[i]
    (x.queue = [] ∧ x.due = false) :=
  ⟨up, 9, 47, by decide +kernel⟩

theorem witness_PressEvents_precedence : ∃ (s : State) (t : Time) (i : Fin 48) (op : PressOp),
    let x := s.dev.tiles[i]
    x.state ≠ .suspect ∧
    x.op = none ∧
    x.queue.head? = some op ∧
    (here s t).freeFor i op = false ∧
    op.since + sec 1 ≤ instant s t :=
  ⟨devWith (devWith up (fun d => d.onTile 47 (fun x => { x with state := .spare,
                                                                queue := [{ PressOp.of .press 0 7 none (.records 0x80000 5) [5, 6] 3 with rows := [5] }] }))) (fun d => d.onModels (fun v => v.set 3 (some { aModel with run := some { aRun with states := [(47, .ready)] } }))), sec 1 + 3, 47, { PressOp.of .press 0 7 none (.records 0x80000 5) [5, 6] 3 with rows := [5] }, by decide +kernel⟩

theorem witness_PressEvents_row : ∃ (s : State) (t : Time) (i : Fin 48) (iters : Nat) (after : List CellRead) (op : PressOp) (f : RowFlight),
    let x := s.dev.tiles[i]
    let w := (here s t).w16
    let y := x.setLevels f.row (after.filter (fun c => f.outs.contains c.column))
    (s.dev.pwr.state = .active ∨ s.dev.pwr.state = .boot ∨ s.dev.pwr.state = .hold ∨ s.dev.pwr.state = .fault) ∧
    x.op = some op ∧
    op.inFlight = some f ∧
    (op.step = .rows ∧ op.darnQueue = [] ∧ 1 < op.rows.length) ∧
    instant s t = f.start + max (us 12) (us (5 * iters)) ∧
    (f.outs ≠ [] ∧ 2 ≤ iters ∧ iters ≤ 12) ∧
    y.outCells op f.row = [] ∧
    (∀ u ∈ s.dev.spool.tags, u.id = f.tag → u.aborting = false) :=
  ⟨devWith (devWith up (fun d => d.onTile 47 (fun x => { x with state := .pressing,
                                                                op := some { PressOp.of .press 0 7 none (.records 0x80000 5) [5, 6] 3 with step := .rows, rows := [5, 6], targets := [{ row := 5, codes := [1], seams := List.replicate 8 0, rems := List.replicate 8 0 }], inFlight := some ({ row := 5, tag := 9, start := 9, outs := [0] }) } }))) (fun d => d), us 12 + 9, 47, 2, [{ column := 0, level := 256 }], { PressOp.of .press 0 7 none (.records 0x80000 5) [5, 6] 3 with step := .rows, rows := [5, 6], targets := [{ row := 5, codes := [1], seams := List.replicate 8 0, rems := List.replicate 8 0 }], inFlight := some ({ row := 5, tag := 9, start := 9, outs := [0] }) }, { row := 5, tag := 9, start := 9, outs := [0] }, by decide +kernel⟩

theorem witness_PressEvents_rowUnpulsed : ∃ (s : State) (t : Time) (i : Fin 48) (op : PressOp) (f : RowFlight),
    let x := s.dev.tiles[i]
    let w := (here s t).w16
    (s.dev.pwr.state = .active ∨ s.dev.pwr.state = .boot) ∧
    x.op = some op ∧
    op.inFlight = some f ∧
    (op.step = .rows ∧ op.darnQueue = [] ∧ 1 < op.rows.length) ∧
    instant s t = f.start + us 12 ∧
    f.outs = [] ∧
    op.inspects = false :=
  ⟨devWith up (fun d => d.onTile 47 (fun x => { x with state := .pressing,
                                                       op := some { PressOp.of .press 0 7 none (.records 0x80000 5) [5, 6] 3 with step := .rows, rows := [5, 6], targets := [{ row := 5, codes := [1], seams := List.replicate 8 0, rems := List.replicate 8 0 }], inFlight := some ({ row := 5, tag := 9, start := 9, outs := [] }) } })), us 12 + 9, 47, { PressOp.of .press 0 7 none (.records 0x80000 5) [5, 6] 3 with step := .rows, rows := [5, 6], targets := [{ row := 5, codes := [1], seams := List.replicate 8 0, rems := List.replicate 8 0 }], inFlight := some ({ row := 5, tag := 9, start := 9, outs := [] }) }, { row := 5, tag := 9, start := 9, outs := [] }, by decide +kernel⟩

theorem witness_PressEvents_rowEarly : ∃ (s : State) (t : Time) (i : Fin 48) (iters : Nat) (after : List CellRead) (op : PressOp) (f : RowFlight),
    let x := s.dev.tiles[i]
    x.op = some op ∧
    op.inFlight = some f ∧
    instant s t ≠ f.start + max (us 12) (us (5 * iters)) :=
  ⟨devWith up (fun d => d.onTile 47 (fun x => { x with state := .pressing,
                                                       op := some { PressOp.of .press 0 7 none (.records 0x80000 5) [5, 6] 3 with step := .rows, rows := [5, 6], targets := [{ row := 5, codes := [1], seams := List.replicate 8 0, rems := List.replicate 8 0 }], inFlight := some ({ row := 5, tag := 9, start := 9, outs := [0] }) } })), us 12 + 8, 47, 2, [], { PressOp.of .press 0 7 none (.records 0x80000 5) [5, 6] 3 with step := .rows, rows := [5, 6], targets := [{ row := 5, codes := [1], seams := List.replicate 8 0, rems := List.replicate 8 0 }], inFlight := some ({ row := 5, tag := 9, start := 9, outs := [0] }) }, { row := 5, tag := 9, start := 9, outs := [0] }, by decide +kernel⟩

theorem witness_PressEvents_noRow : ∃ (s : State) (t : Time) (i : Fin 48),
    let x := s.dev.tiles[i]
    (∀ op ∈ x.op, op.inFlight = none) :=
  ⟨up, 9, 47, by decide +kernel⟩

theorem witness_PressEvents_closes : ∃ (s : State) (t : Time) (i : Fin 48) (op : PressOp),
    let x := s.dev.tiles[i]
    let y := x.effective op
    (s.dev.pwr.state = .active ∨ s.dev.pwr.state = .boot) ∧
    x.op = some op ∧
    (op.step = .closing ∧ op.kind = .press) ∧
    (op.darnQueue = [] ∧ op.selfFails = 0 ∧ op.inconsistent = [] ∧ op.stopped = false ∧ op.report = none) ∧
    (y.selfCheck s.dev.free).passes = true :=
  ⟨devWith up (fun d => d.onTile 47 (fun x => { x with state := .pressing,
                                                       op := some { PressOp.of .press 0 7 none (.records 0x80000 5) [5, 6] 3 with step := .closing, rows := [] } })), 9, 47, { PressOp.of .press 0 7 none (.records 0x80000 5) [5, 6] 3 with step := .closing, rows := [] }, by decide +kernel, by decide +kernel, by decide +kernel, by decide +kernel, selfCheck_blank (by decide +kernel) (by decide +kernel) _⟩

theorem witness_PressEvents_fails : ∃ (s : State) (t : Time) (i : Fin 48) (op : PressOp),
    let x := s.dev.tiles[i]
    (s.dev.pwr.state = .active ∨ s.dev.pwr.state = .boot) ∧
    x.op = some op ∧
    (op.step = .closing ∧ op.kind = .press) ∧
    (op.darnQueue = [] ∧ op.selfFails = 0 ∧ op.serving = false) ∧
    ((x.effective op).selfCheck s.dev.free).passes = false :=
  ⟨devWith up (fun d => d.onTile 47 (fun x => { x with remainders := [(0, 2 ^ 60)], state := .pressing,
                                                       op := some { PressOp.of .press 0 7 none (.records 0x80000 5) [5, 6] 3 with step := .closing, rows := [] } })), 9, 47, { PressOp.of .press 0 7 none (.records 0x80000 5) [5, 6] 3 with step := .closing, rows := [] }, by decide +kernel, by decide +kernel, by decide +kernel, by decide +kernel, selfCheck_clipped (by decide +kernel) _⟩

theorem witness_PressEvents_notClosing : ∃ (s : State) (t : Time) (i : Fin 48),
    let x := s.dev.tiles[i]
    (∀ op ∈ x.op, op.step ≠ .closing) :=
  ⟨up, 9, 47, by decide +kernel⟩

theorem witness_PressEvents_due : ∃ (s : State) (t : Time) (i : Fin 48),
    let x := s.dev.tiles[i]
    let w := (here s t).w16
    (x.state ≠ .blank ∧ x.state ≠ .retired) ∧
    (s.dev.upkeep.auto = true ∧ x.needsPress = false ∧ x.op = none) ∧
    s.dev.upkeep.baseHours * 7200 ≤ x.age ∧
    x.due = false :=
  ⟨devWith up (fun d => d.onTile 47 (fun x => { x with state := .spare, age := 168 * 7200 })), 9, 47, by decide +kernel⟩

theorem witness_PressEvents_notDue : ∃ (s : State) (t : Time) (i : Fin 48),
    let x := s.dev.tiles[i]
    (s.dev.upkeep.auto = false ∨ x.age < s.dev.upkeep.baseHours * 7200) :=
  ⟨up, 9, 47, by decide +kernel⟩

theorem witness_PressEvents_drift : ∃ (s : State) (t : Time) (moved : List CellDrift),
    (s.dev.pwr.state ≠ .off ∧ s.dev.pwr.state ≠ .reset) ∧
    s.dev.pwr.driftAt + sec 1 ≤ instant s t :=
  ⟨devWith up (fun d => d.onTile 47 (fun x => { x with state := .spare })), sec 1, [{ tile := 3, row := 5, column := 6, level := 255 }],
      by decide +kernel⟩

theorem witness_PressEvents_driftEarly : ∃ (s : State) (t : Time) (moved : List CellDrift),
    instant s t < s.dev.pwr.driftAt + sec 1 :=
  ⟨devWith up (fun d => d.onTile 47 (fun x => { x with state := .spare })), sec 1 - 1, [{ tile := 3, row := 5, column := 6, level := 255 }],
      by decide +kernel⟩

theorem witness_PressEvents_vddpOut : ∃ (s : State) (t : Time) (pulsed : List CellDrift),
    s.dev.pwr.vddpOk = true ∧
    (s.dev.pwr.state ≠ .off ∧ s.dev.pwr.state ≠ .reset) :=
  ⟨devWith up (fun d => d.onPwr (fun w => { w with vddpOk := true })), 9, [], by decide +kernel⟩

theorem witness_PressEvents_vddpCell : ∃ (s : State) (t : Time) (c : CellDrift) (f : RowFlight),
    s.dev.pwr.vddpOk = true ∧
    (s.dev.pwr.state ≠ .off ∧ s.dev.pwr.state ≠ .reset) ∧
    ((s.dev.tiles[c.tile]).op.bind (·.inFlight)) = some f ∧
    (c.row = f.row ∧ c.column ∈ f.outs) :=
  ⟨devWith (devWith up (fun d => d.onTile 47 (fun x => { x with state := .pressing,
                                                                op := some { PressOp.of .press 0 7 none (.records 0x80000 5) [5, 6] 3 with step := .rows, rows := [5, 6], targets := [{ row := 5, codes := [1], seams := List.replicate 8 0, rems := List.replicate 8 0 }], inFlight := some { row := 5, tag := 9, start := 9, outs := [0] } } }))) (fun d => d.onPwr (fun w => { w with vddpOk := true })), 9, { tile := 47, row := 5, column := 0, level := 100 }, { row := 5, tag := 9, start := 9, outs := [0] }, by decide +kernel⟩

theorem witness_PressEvents_vddpIn : ∃ (s : State) (t : Time),
    s.dev.pwr.vddpOk = false ∧
    (s.dev.pwr.state ≠ .off ∧ s.dev.pwr.state ≠ .reset) :=
  ⟨devWith up (fun d => d.onPwr (fun w => { w with vddpOk := false })), 9, by decide +kernel⟩

theorem witness_ModelCommands_load : ∃ (s : State) (t : Time) (b : Basket) (h : Handle) (m : Model),
    let f := (here s t).fit ((here s t).ctx s.chip s.fuse.blown b)
    StartsAwake s b ∧
    Held s b .units (arg s b 5) ∧
    (argBit s b 0 0 = false → HeldRange s b (arg32 s b 1) (arg32 s b 3)) ∧
    (here s t).modelCount b < 4 ∧
    (here s t).freeHandle = some h ∧
    (f.refused = none ∧ f.model = some m ∧ f.mismatch = false) ∧
    (here s t).storeTakes m f.entry = true ∧
    (∀ i : Fin 48, i ∈ m.place → (s.dev.tiles[i]).counter + 512 * (here s t).w16 ≤ 1622016000) :=
  by
  have p := theFit_passes
  cases hm : theFit.model with
  | none => rw [hm] at p; exact absurd p (by decide)
  | some m =>
    rw [hm] at p
    simp only [Bool.and_eq_true, Option.isNone_iff_eq_none, Bool.not_eq_true'] at p
    exact ⟨loading, 3, 0, 0, m, by decide +kernel, by decide +kernel, by decide +kernel, by decide +kernel, by decide +kernel,
      ⟨p.1.1, hm, p.1.2⟩, p.2, fun i _ => (by decide +kernel : ∀ i : Fin 48,
          (loading.dev.tiles[i]).counter + 512 * (here loading 3).w16 ≤ 1622016000) i⟩

theorem witness_ModelCommands_refused : ∃ (s : State) (t : Time) (b : Basket) (e : Err),
    let f := (here s t).fit ((here s t).ctx s.chip s.fuse.blown b)
    StartsAwake s b ∧
    Held s b .units (arg s b 5) ∧
    (argBit s b 0 0 = false → HeldRange s b (arg32 s b 1) (arg32 s b 3)) ∧
    (here s t).modelCount b < 4 ∧
    (here s t).freeHandle ≠ none ∧
    f.refused = some e :=
  ⟨argsOf loading [0, 0, 9, 475, 0, 10], 3, 0, .fitImage, by decide +kernel⟩

theorem witness_ModelCommands_check : ∃ (s : State) (t : Time) (b : Basket),
    let f := (here s t).fit ((here s t).ctx s.chip s.fuse.blown b)
    StartsAwake s b ∧
    Held s b .units (arg s b 5) ∧
    (argBit s b 0 0 = false → HeldRange s b (arg32 s b 1) (arg32 s b 3)) :=
  ⟨argsOf loading [0, 0, 9, 475, 0, 10], 3, 0, by decide +kernel⟩

theorem witness_ModelCommands_unload : ∃ (s : State) (t : Time) (b : Basket) (h : Handle) (m : Model),
    StartsAwake s b ∧
    arg s b 0 = h.val ∧
    s.dev.models[h] = some m ∧
    m.basket = b :=
  ⟨argsOf (devWith up (fun d => { d with models := d.models.set 3 (some aModel) })) [3], 3, 0, 3, aModel, by decide +kernel⟩

theorem witness_ModelCommands_horizon : ∃ (s : State) (t : Time) (c : Basket),
    StartsAwake s 0 ∧
    arg s 0 0 = c.val ∧
    (1 ≤ arg s 0 1 ∧ arg s 0 1 ≤ 18262) ∧
    (25 ≤ arg s 0 2 ∧ arg s 0 2 ≤ 140) :=
  ⟨argsOf up [3, 18262, 140], 3, 3, by decide +kernel⟩

theorem witness_ModelCommands_gone : ∃ (s : State) (t : Time) (h : Handle) (m : Model),
    s.dev.models[h] = some m ∧
    m.state = .unloading ∧
    m.run = none ∧
    (∀ i : Fin 48, (s.dev.tiles[i]).op.all (fun o => o.handle != some h) = true) :=
  ⟨devWith up (fun d => { d with models := d.models.set 3 (some { aModel with state := .unloading }) }), 3, 3, { aModel with state := .unloading },
      by decide +kernel⟩

theorem witness_ModelCommands_waits : ∃ (s : State) (t : Time) (h : Handle),
    (∀ m ∈ s.dev.models[h], m.state ≠ .unloading ∨ m.run ≠ none) :=
  ⟨up, 3, 3, by decide +kernel⟩

theorem witness_MemoryCommands_status : ∃ (s : State) (t : Time) (b : Basket),
    StartsAwake s b :=
  ⟨devWith up (fun d => d.memWrite 0x80000 [3]), 3, 0, by decide +kernel⟩

theorem witness_MemoryCommands_clear : ∃ (s : State) (t : Time) (b : Basket) (a : Nat),
    let first := arg s b 0
    let n := arg s b 1
    StartsAwake s b ∧
    1 ≤ n ∧
    (∀ i ∈ List.range n, Held s b .units (first + i)) ∧
    s.dev.unitsBusy first n = false :=
  ⟨argsOf (devWith up (fun d => d.memWrite 0x80000 [3])) [8, 1], 3, 0, 0x80000, by decide +kernel⟩

theorem witness_MemoryCommands_busy : ∃ (s : State) (t : Time) (b : Basket),
    let first := arg s b 0
    let n := arg s b 1
    StartsAwake s b ∧
    1 ≤ n ∧
    (∀ i ∈ List.range n, Held s b .units (first + i)) ∧
    s.dev.unitsBusy first n = true :=
  ⟨argsOf (devWith up (fun d => { d with models := d.models.set 3 (some aModel) })) [8, 2], 3, 0, by decide +kernel⟩

theorem witness_MemoryCommands_ageing : ∃ (s : State) (t : Time),
    StartsAwake s 0 ∧
    arg s 0 0 ≠ 0 ∧
    (arg s 0 0 ≤ 1000 ∨ arg s 0 0 = 0xFFFF) :=
  ⟨argsOf up [1000], 3, by decide +kernel⟩

theorem witness_Runs_starts : ∃ (s : State) (t : Time) (h : Handle) (m : Model) (e : EndedFrame),
    let pol := if (m.image.layers[0]?).any (fun l => !l.vector) = true then m.policy 0 (here s t).foundState else Busy.go []
    s.dev.models[h] = some m ∧
    s.dev.wr.ended = some e ∧
    (m.state = .loaded ∧ m.run = none ∧ m.dueFor e.num = true ∧ m.lastRun ≠ e.num) ∧
    (e.stop = instant s t ∧ e.blanked = false) ∧
    s.dev.pwr.state = .active ∧
    s.dev.spool.tags.length + m.image.bindings.length ≤ 4096 ∧
    pol ≠ Busy.stop ∧
    (∀ i : Fin 48, (s.dev.tiles[i]).counter + 512 * (here s t).w16 ≤ 1622016000) ∧
    m.image.blocks.all (fun b => decide (b.rowCount ≤ 512)) = true :=
  ⟨devWith ((devWith up (fun d => { d with models := d.models.set 3 (some { aModel with image := { anImage with reload := some { qspi := false, passes := [[(0, 0)]] } } }) }))) (fun d => d.onWr (fun w => { w with ended := some justEnded })), 0, 3, { aModel with image := { anImage with reload := some { qspi := false, passes := [[(0, 0)]] } } }, justEnded, by decide +kernel⟩

theorem witness_Runs_stops : ∃ (s : State) (t : Time) (h : Handle) (m : Model) (e : EndedFrame),
    let pol := if (m.image.layers[0]?).any (fun l => !l.vector) = true then m.policy 0 (here s t).foundState else Busy.go []
    s.dev.models[h] = some m ∧
    s.dev.wr.ended = some e ∧
    (m.state = .loaded ∧ m.run = none ∧ m.dueFor e.num = true ∧ m.lastRun ≠ e.num) ∧
    (e.stop = instant s t ∧ e.blanked = false) ∧
    s.dev.pwr.state = .active ∧
    s.dev.spool.tags.length + m.image.bindings.length ≤ 4096 ∧
    (m.image.reload = none ∧ m.learn = none) ∧
    pol = Busy.stop :=
  ⟨devWith ((devWith (devWith up (fun d => { d with models := d.models.set 3 (some { aModel with image := { anImage with slices := anImage.slices.map (fun x => { x with busy := 2 }) } }) })) (fun d => d))) (fun d => d.onWr (fun w => { w with ended := some justEnded })), 0, 3, { aModel with image := { anImage with slices := anImage.slices.map (fun x => { x with busy := 2 }) } }, justEnded, by decide +kernel⟩

theorem witness_Runs_notStarted : ∃ (s : State) (t : Time) (h : Handle),
    (s.dev.wr.ended = none ∨ s.dev.models[h] = none ∨ s.dev.pwr.state = .hold) :=
  ⟨up, 0, 3, by decide +kernel⟩

theorem witness_Runs_gather : ∃ (s : State) (t : Time) (h : Handle) (m : Model) (r : Run) (x : Tag) (bd : Binding),
    let g := (here s t).gatherBinding m r.frame x.index bd
    let a := m.targetAddr h bd
    s.dev.models[h] = some m ∧
    m.run = some r ∧
    (s.dev.spool.ofRun h).filter (fun u => u.kind == .gather && u.status == .issued) = [x] ∧
    (∀ u ∈ s.dev.spool.tags, u.id = x.id → u = x) ∧
    (m.image.bindings[x.index]? = some bd ∧ bd.kind ≤ 2) ∧
    (here s t).gatherable r.frame bd = true ∧
    (8 ≤ m.firstUnit ∧ a + g.bytes.length ≤ 0x1800000) ∧
    (bd.isFp = false → bd.target + bd.count ≤ 8192) ∧
    r.gathered = false :=
  ⟨devWith (devWith up (fun d => { d with models := d.models.set 3 (some { aModel with run := some { aRun with frame := 7 } }) })) (fun d => d.onSpool (fun p => { p with tags := [{ Tag.of .gather 0 (some 3) 3 none with status := .issued }] }) |>.onWr (fun w => { w with ended := some justEnded })), 9, 3, { aModel with run := some { aRun with frame := 7 } }, { aRun with frame := 7 }, { Tag.of .gather 0 (some 3) 3 none with status := .issued }, { kind := 0, source := 1, frame := 0, missing := 0, first := 0, count := 2, target := 0, node := 0, slot := 0, detector := 0 }, by decide +kernel⟩

theorem witness_Runs_copy : ∃ (s : State) (t : Time) (m : Model) (k i : Nat) (bd : Binding),
    (bd.kind = 0 ∧ bd.source = 1 ∧ bd.frame = 0) :=
  ⟨devWith up (fun d => d.memWrite 0x1000 [3, 9, 0, 0, 4, 10]), 9, aModel, 7, 0, { kind := 0, source := 1, frame := 0, missing := 0, first := 0,
                                                                                   count := 2, target := 0, node := 0, slot := 0, detector := 0 },
      by decide +kernel⟩

theorem witness_Runs_notGathered : ∃ (s : State) (t : Time) (h : Handle),
    (∀ m ∈ s.dev.models[h], m.run = none) :=
  ⟨up, 9, 3, by decide +kernel⟩

theorem witness_Runs_staged : ∃ (s : State) (t : Time) (h : Handle) (m : Model) (r : Run) (e : Nat × Nat) (es : List (Nat × Nat)) (bk : Block) (i : Fin 48),
    let bs := (here s t).blockBytes m bk
    s.dev.models[h] = some m ∧
    m.run = some r ∧
    r.reloadQueue = e :: es ∧
    (here s t).reloading h { r with reloadQueue := [] } = false ∧
    (m.image.blocks[e.2]? = some bk ∧ m.place[e.1]? = some i) ∧
    crc32 bs = bk.dataCrc ∧
    m.bufferAddr m.image.stagingBuffer + bs.length ≤ 0x1800000 ∧
    (s.dev.tiles[i]).counter + bk.rowCount * (here s t).w16 ≤ 1622016000 :=
  ⟨(devWith up (fun d => { d with models := d.models.set 3 (some { aModel with qspi := false, imageAddr := 0x80000,
                                                                               image := { anImage with blocks := [{ rowFirst := 0, rowCount := 2, darnReserve := 0, dataOffset := 0, dataCrc := crc32 (List.replicate 512 0) }], reload := some { qspi := true, passes := [[(0, 0)]] } }, run := some { aRun with reloadQueue := [(0, 0)] } }) })), 9, 3, { aModel with qspi := false, imageAddr := 0x80000, image := { anImage with blocks := [{ rowFirst := 0, rowCount := 2, darnReserve := 0, dataOffset := 0, dataCrc := crc32 (List.replicate 512 0) }], reload := some { qspi := true, passes := [[(0, 0)]] } }, run := some { aRun with reloadQueue := [(0, 0)] } }, { aRun with reloadQueue := [(0, 0)] }, (0, 0), [], { rowFirst := 0, rowCount := 2, darnReserve := 0, dataOffset := 0, dataCrc := crc32 (List.replicate 512 0) }, 5, by decide +kernel⟩

theorem witness_Runs_bad : ∃ (s : State) (t : Time) (h : Handle) (m : Model) (r : Run) (e : Nat × Nat) (es : List (Nat × Nat)) (bk : Block),
    let bs := (here s t).blockBytes m bk
    let a := m.bufferAddr m.image.stagingBuffer
    s.dev.models[h] = some m ∧
    m.run = some r ∧
    r.reloadQueue = e :: es ∧
    (here s t).reloading h { r with reloadQueue := [] } = false ∧
    m.image.blocks[e.2]? = some bk ∧
    crc32 ((here s t).blockBytes m bk) ≠ bk.dataCrc ∧
    (m.learn = none ∧ r.seamFailed = []) ∧
    (8 ≤ m.firstUnit ∧ a + bs.length ≤ 0x1800000) :=
  ⟨(devWith up (fun d => { d with models := d.models.set 3 (some { aModel with qspi := false, imageAddr := 0x80000,
                                                                               image := { anImage with blocks := [{ rowFirst := 0, rowCount := 2, darnReserve := 0, dataOffset := 0, dataCrc := 0 }], reload := some { qspi := true, passes := [[(0, 0)]] } }, run := some { aRun with reloadQueue := [(0, 0)] } }) })), 9, 3, { aModel with qspi := false, imageAddr := 0x80000, image := { anImage with blocks := [{ rowFirst := 0, rowCount := 2, darnReserve := 0, dataOffset := 0, dataCrc := 0 }], reload := some { qspi := true, passes := [[(0, 0)]] } }, run := some { aRun with reloadQueue := [(0, 0)] } }, { aRun with reloadQueue := [(0, 0)] }, (0, 0), [], { rowFirst := 0, rowCount := 2, darnReserve := 0, dataOffset := 0, dataCrc := 0 }, by decide +kernel⟩

theorem witness_Runs_ends : ∃ (s : State) (t : Time) (h : Handle) (m : Model) (r : Run),
    s.dev.models[h] = some m ∧
    (m.run = some r ∧ m.learn = none) ∧
    (r.finished = true ∧ r.seamFailed = []) ∧
    (s.dev.spool.ofRun h).all (fun u => u.kind == .learn && u.status == .issued) = true ∧
    instant s t < r.deadline ∧
    s.dev.pwr.state ≠ .watch :=
  ⟨(devWith up (fun d => { d with models := d.models.set 3 (some { aModel with run := some { aRun with finished := true, verdict := some 0x4002 } }) })), 9, 3, { aModel with run := some { aRun with finished := true, verdict := some 0x4002 } }, { aRun with finished := true, verdict := some 0x4002 }, by decide +kernel⟩

theorem witness_Runs_wakes : ∃ (s : State) (t : Time) (h : Handle) (m : Model) (r : Run) (v : BitVec 16),
    s.dev.models[h] = some m ∧
    (m.run = some r ∧ m.learn = none) ∧
    (r.finished = true ∧ r.seamFailed = []) ∧
    s.dev.spool.ofRun h = [] ∧
    instant s t < r.deadline ∧
    s.dev.pwr.state = .watch ∧
    (r.verdict = some v ∧ v.toNat % 256 ≠ 0 ∧ s.dev.pwr.wakeMask[2] = true) :=
  ⟨devWith (devWith up (fun d => { d with models := d.models.set 3 (some { aModel with run := some { aRun with finished := true, verdict := some 0x4002 } }) })) (fun d => d.onPwr (fun w => { w with state := .watch, wakeMask := 4 })), 9, 3, { aModel with run := some { aRun with finished := true, verdict := some 0x4002 } }, { aRun with finished := true, verdict := some 0x4002 }, 0x4002, by decide +kernel⟩

theorem witness_Runs_late : ∃ (s : State) (t : Time) (h : Handle) (m : Model) (r : Run),
    s.dev.models[h] = some m ∧
    (m.run = some r ∧ m.learn = none) ∧
    r.seamFailed = [] ∧
    r.deadline ≤ instant s t :=
  ⟨(devWith up (fun d => { d with models := d.models.set 3 (some { aModel with run := some aRun }) })), sec 1, 3, { aModel with run := some aRun },
      aRun, by decide +kernel⟩

theorem witness_Runs_lateEnd : ∃ (s : State) (t : Time) (h : Handle) (m : Model) (r : Run),
    s.dev.models[h] = some m ∧
    (m.run = some r ∧ m.learn = none) ∧
    (r.seamFailed = [] ∧ r.finished = true) ∧
    s.dev.spool.ofRun h = [] ∧
    r.deadline ≤ instant s t :=
  ⟨(devWith up (fun d => { d with models := d.models.set 3 (some { aModel with run := some { aRun with finished := true } }) })), sec 1, 3,
      { aModel with run := some { aRun with finished := true } }, { aRun with finished := true }, by decide +kernel⟩

theorem witness_Runs_inTime : ∃ (s : State) (t : Time) (h : Handle) (m : Model) (r : Run),
    s.dev.models[h] = some m ∧
    m.run = some r ∧
    (instant s t < r.deadline ∧ r.finished = false) :=
  ⟨(devWith up (fun d => { d with models := d.models.set 3 (some { aModel with run := some aRun }) })), 9, 3, { aModel with run := some aRun }, aRun,
      by decide +kernel⟩

theorem witness_Runs_suspects : ∃ (s : State) (t : Time) (h : Handle) (m : Model) (r : Run) (i : Fin 48) (n : Nat),
    let x := s.dev.tiles[i]
    s.dev.models[h] = some m ∧
    (m.run = some r ∧ m.learn = none) ∧
    (r.finished = true ∧ r.seamFailed = [(i, n)]) ∧
    s.dev.spool.ofRun h = [] ∧
    instant s t < r.deadline ∧
    s.dev.pwr.state ≠ .watch ∧
    (x.state = .ready ∧ x.due = false ∧ x.needsPress = false) :=
  ⟨devWith (devWith up (fun d => { d with models := d.models.set 3 (some { aModel with run := some { aRun with finished := true, seamFailed := [(5, 2)] } }) })) (fun d => d.onTile 5 (fun x => { x with state := .ready })), 9, 3, { aModel with run := some { aRun with finished := true, seamFailed := [(5, 2)] } }, { aRun with finished := true, seamFailed := [(5, 2)] }, 5, 2, by decide +kernel⟩

theorem witness_Layers_opens : ∃ (s : State) (t : Time) (h : Handle) (m : Model) (r : Run) (l : Layer) (us : List Nat),
    let st := (here s t).layerState r
    let pol := if l.vector = true then Busy.go r.usable else m.policy r.layer st
    let seen := if r.waitFor = true ∧ l.vector = false then r.states ++ (m.layerTiles r.layer).map (fun i => (i, st i)) else r.states
    let able := fun (x : Slice) (k : Nat) => (m.replicaTile x k).any (fun i => ({ r with states := seen }.stateOf i).computes)
    let tiled := fun (x : Nat × Slice) (k : Nat) => if able x.2 k = true then [(TagKind.phases, x.1, k), (TagKind.move, x.1, k)] else []
    let slices := if l.vector = true then [] else m.image.layerSlices r.layer
    let work := slices.flatMap (fun x => (List.range x.2.tiles.length).flatMap (tiled x)) ++ (m.image.layerDescs l).map (fun x => (TagKind.vector,
        x.1, 0))
    s.dev.models[h] = some m ∧
    m.run = some r ∧
    m.image.layers[r.layer]? = some l ∧
    (r.layerOn = false ∧ r.gathered = true ∧ r.finished = false) ∧
    instant s t < r.deadline ∧
    (m.image.reload = none ∧ (here s t).reloading h r = false) ∧
    (l.vector = true → r.waitFor = false) ∧
    pol = .go us ∧
    s.dev.spool.tags.length + work.length ≤ 4096 :=
  ⟨(devWith up (fun d => { d with models := d.models.set 3 (some { aModel with run := some { aRun with gathered := true, states := [(5, .ready)] } }) })), 9, 3, { aModel with run := some { aRun with gathered := true, states := [(5, .ready)] } }, { aRun with gathered := true, states := [(5, .ready)] }, { vector := false, pass := 0, inFormat := 0, weightFormat := 0, inCount := 2, outCount := 1, firstSlice := 0, sliceCount := 1, descFirst := 0, descCount := 0, biasOffset := 0, outBytes := 8, input := 0xFFFF, softHead := false }, [0], by decide +kernel⟩

theorem witness_Layers_waits : ∃ (s : State) (t : Time) (h : Handle) (m : Model) (r : Run) (l : Layer),
    let st := (here s t).layerState r
    let pol := if l.vector = true then Busy.go r.usable else m.policy r.layer st
    s.dev.models[h] = some m ∧
    m.run = some r ∧
    m.image.layers[r.layer]? = some l ∧
    (r.layerOn = false ∧ r.gathered = true ∧ r.finished = false) ∧
    instant s t < r.deadline ∧
    (m.image.reload = none ∧ (here s t).reloading h r = false) ∧
    (l.vector = false ∧ pol = .wait) :=
  ⟨(devWith up (fun d => { d with models := d.models.set 3 (some { aModel with run := some { aRun with gathered := true, states := [(5, .pressing)] },
                                                                               image := { anImage with slices := anImage.slices.map (fun x => { x with busy := 1 }) }, place := [5] }) })), 9, 3, { aModel with run := some { aRun with gathered := true, states := [(5, .pressing)] }, image := { anImage with slices := anImage.slices.map (fun x => { x with busy := 1 }) }, place := [5] }, { aRun with gathered := true, states := [(5, .pressing)] }, { vector := false, pass := 0, inFormat := 0, weightFormat := 0, inCount := 2, outCount := 1, firstSlice := 0, sliceCount := 1, descFirst := 0, descCount := 0, biasOffset := 0, outBytes := 8, input := 0xFFFF, softHead := false }, by decide +kernel⟩

theorem witness_Layers_stops : ∃ (s : State) (t : Time) (h : Handle) (m : Model) (r : Run) (l : Layer),
    let st := (here s t).layerState r
    let pol := if l.vector = true then Busy.go r.usable else m.policy r.layer st
    s.dev.models[h] = some m ∧
    m.run = some r ∧
    m.image.layers[r.layer]? = some l ∧
    (r.layerOn = false ∧ r.gathered = true ∧ r.finished = false) ∧
    instant s t < r.deadline ∧
    (m.image.reload = none ∧ (here s t).reloading h r = false) ∧
    (l.vector = false ∧ pol = .stop) ∧
    (m.learn = none ∧ r.seamFailed = []) :=
  ⟨(devWith up (fun d => { d with models := d.models.set 3 (some { aModel with run := some { aRun with gathered := true, states := [(5, .pressing)] },
                                                                               image := { anImage with slices := anImage.slices.map (fun x => { x with busy := 2 }) }, place := [5] }) })), 9, 3, { aModel with run := some { aRun with gathered := true, states := [(5, .pressing)] }, image := { anImage with slices := anImage.slices.map (fun x => { x with busy := 2 }) }, place := [5] }, { aRun with gathered := true, states := [(5, .pressing)] }, { vector := false, pass := 0, inFormat := 0, weightFormat := 0, inCount := 2, outCount := 1, firstSlice := 0, sliceCount := 1, descFirst := 0, descCount := 0, biasOffset := 0, outBytes := 8, input := 0xFFFF, softHead := false }, by decide +kernel⟩

theorem witness_Layers_passes : ∃ (s : State) (t : Time) (h : Handle) (m : Model) (r : Run) (l : Layer) (p : Reload),
    s.dev.models[h] = some m ∧
    m.run = some r ∧
    m.image.layers[r.layer]? = some l ∧
    (r.layerOn = false ∧ r.gathered = true ∧ r.finished = false) ∧
    instant s t < r.deadline ∧
    (m.image.reload = some p ∧ p.qspi = true) ∧
    r.passDone ≤ l.pass ∧
    (here s t).reloading h r = false :=
  ⟨(devWith up (fun d => { d with models := d.models.set 3 (some { aModel with run := some { aRun with gathered := true, states := [(5, .ready)] },
                                                                               image := { anImage with reload := some { qspi := true, passes := [[(0, 0)]] } } }) })), 9, 3, { aModel with run := some { aRun with gathered := true, states := [(5, .ready)] }, image := { anImage with reload := some { qspi := true, passes := [[(0, 0)]] } } }, { aRun with gathered := true, states := [(5, .ready)] }, { vector := false, pass := 0, inFormat := 0, weightFormat := 0, inCount := 2, outCount := 1, firstSlice := 0, sliceCount := 1, descFirst := 0, descCount := 0, biasOffset := 0, outBytes := 8, input := 0xFFFF, softHead := false }, { qspi := true, passes := [[(0, 0)]] }, by decide +kernel⟩

theorem witness_Layers_notStarted : ∃ (s : State) (t : Time) (h : Handle) (m : Model) (r : Run) (l : Layer),
    s.dev.models[h] = some m ∧
    m.run = some r ∧
    m.image.layers[r.layer]? = some l ∧
    (r.layerOn = true ∨ r.gathered = false ∨ r.finished = true ∨ r.deadline ≤ instant s t) :=
  ⟨(devWith up (fun d => { d with models := d.models.set 3 (some { aModel with run := some aRun }) })), 9, 3, { aModel with run := some aRun }, aRun,
      { vector := false, pass := 0, inFormat := 0, weightFormat := 0, inCount := 2, outCount := 1, firstSlice := 0, sliceCount := 1, descFirst := 0,
        descCount := 0, biasOffset := 0, outBytes := 8, input := 0xFFFF, softHead := false }, by decide +kernel⟩

theorem witness_Layers_issued : ∃ (s : State) (t : Time) (u : UnitId) (x : Tag),
    s.dev.pwr.halted = false ∧
    s.dev.spool.unitFree u = true ∧
    (x ∈ s.dev.spool.tags ∧ x.waitsFor u = true) ∧
    (s.dev.spool.tags.all (fun y => !y.waitsFor u || y == x || x.before y)) = true ∧
    (u = .gatherer ∨ u = .store ∨ (∃ i : Fin 48, u = .path i)) :=
  ⟨devWith up (fun d => d.onSpool (fun p => { p with tags := [{ Tag.of .learn 0 (some 3) 3 none with id := 9 },
                                                     { Tag.of .learn 0 (some 3) 2 (some 7) with id := 10 }] })), 9, .store,
      { Tag.of .learn 0 (some 3) 2 (some 7) with id := 10 }, by decide +kernel⟩

theorem witness_Layers_engine : ∃ (s : State) (t : Time) (e : Fin 4) (x : Tag) (h : Handle),
    s.dev.pwr.halted = false ∧
    s.dev.spool.engines[e].busy = none ∧
    (x ∈ s.dev.spool.tags ∧ x.waitsFor (.engine e) = true ∧ x.handle = some h) ∧
    (s.dev.spool.tags.all (fun y => !y.waitsFor (.engine e) || y == x || x.before y)) = true :=
  ⟨devWith up (fun d => d.onSpool (fun p => { p with tags := [{ Tag.of .vector 0 (some 3) 3 none with id := 9 },
                                                     { Tag.of .vector 0 (some 3) 2 (some 7) with id := 10, engine := some 3 }] })), 9, 3,
      { Tag.of .vector 0 (some 3) 2 (some 7) with id := 10, engine := some 3 }, 3, by decide +kernel⟩

theorem witness_Layers_tile : ∃ (s : State) (t : Time) (i : Fin 48) (x : Tag) (h : Handle) (m : Model) (r : Run) (sl : Slice) (l : Layer),
    s.dev.pwr.halted = false ∧
    s.dev.spool.unitFree (.tile i) = true ∧
    (x ∈ s.dev.spool.tags ∧ x.waitsFor (.tile i) = true ∧ x.handle = some h) ∧
    (s.dev.spool.tags.all (fun y => !y.waitsFor (.tile i) || y == x || x.before y)) = true ∧
    s.dev.models[h] = some m ∧
    m.run = some r ∧
    (m.image.slices[x.index]? = some sl ∧ m.image.layers[sl.layer]? = some l) :=
  ⟨devWith (devWith up (fun d => { d with models := d.models.set 3 (some { aModel with run := some aRun }) })) (fun d => d.onSpool (fun p => { p with tags := [{ Tag.of .phases 0 (some 3) 3 none with id := 9, tile := some 5, status := .ready }] })), 9, 5, { Tag.of .phases 0 (some 3) 3 none with id := 9, tile := some 5, status := .ready }, 3, { aModel with run := some aRun }, aRun, { layer := 0, dMode := false, replicas := 1, tiles := [0], rowFirst := 0, rowCount := 2, outFirst := 0, outCount := 1, inFirst := 0, outBase := 0, budget := 8, shift := 0, seamTol := 4, busy := 0 }, { vector := false, pass := 0, inFormat := 0, weightFormat := 0, inCount := 2, outCount := 1, firstSlice := 0, sliceCount := 1, descFirst := 0, descCount := 0, biasOffset := 0, outBytes := 8, input := 0xFFFF, softHead := false }, by decide +kernel⟩

theorem witness_Layers_noneWaits : ∃ (s : State) (t : Time) (u : UnitId),
    (s.dev.spool.tags = [] ∧ (∀ i : Fin 48, (s.dev.tiles[i]).op = none)) :=
  ⟨up, 9, .engine 2, by decide +kernel⟩

theorem witness_Layers_press : ∃ (s : State) (t : Time) (i : Fin 48) (g : Fin 8) (op : PressOp) (row : Nat) (rest : List Nat),
    let x := s.dev.tiles[i]
    (s.dev.pwr.halted = false ∧ s.dev.pwr.vddpOk = true) ∧
    (s.dev.pwr.state = .active ∨ s.dev.pwr.state = .boot) ∧
    (here s t).rowWaiting g.val = some i ∧
    s.dev.spool.unitFree (.press g) = true ∧
    (x.op = some op ∧ op.rows = row :: rest) ∧
    (x.counter < 1638400000 ∧ (here s t).recorded i x = true ∧ (here s t).tagAvailable op = true) ∧
    s.dev.spool.tags.length < 4096 :=
  ⟨devWith up (fun d => (d.onPwr (fun w => { w with restored := true,
                                                    vddpOk := true })).onTile 47 (fun x => { x with state := .pressing, armed := true, op := some { PressOp.of .press 0 7 none (.records 0x80000 5) [5, 6] 3 with step := .rows, targets := [{ row := 5, codes := List.replicate 240 1, seams := List.replicate 8 0, rems := List.replicate 8 0 }] } })), 9, 47, 7, { PressOp.of .press 0 7 none (.records 0x80000 5) [5, 6] 3 with step := .rows, targets := [{ row := 5, codes := List.replicate 240 1, seams := List.replicate 8 0, rems := List.replicate 8 0 }] }, 5, [6], by decide +kernel⟩

theorem witness_Layers_worn : ∃ (s : State) (t : Time) (i : Fin 48) (g : Fin 8) (op : PressOp),
    let x := s.dev.tiles[i]
    (s.dev.pwr.halted = false ∧ s.dev.pwr.vddpOk = true) ∧
    (s.dev.pwr.state = .active ∨ s.dev.pwr.state = .boot) ∧
    (here s t).rowWaiting g.val = some i ∧
    s.dev.spool.unitFree (.press g) = true ∧
    (x.op = some op ∧ op.inspects = false) ∧
    1638400000 ≤ x.counter :=
  ⟨devWith up (fun d => (d.onPwr (fun w => { w with restored := true,
                                                    vddpOk := true })).onTile 47 (fun x => { x with state := .pressing, counter := 1638400000, op := some { PressOp.of .press 0 7 none (.records 0x80000 5) [5, 6] 3 with step := .rows, targets := [{ row := 5, codes := List.replicate 240 1, seams := List.replicate 8 0, rems := List.replicate 8 0 }] } })), 9, 47, 7, { PressOp.of .press 0 7 none (.records 0x80000 5) [5, 6] 3 with step := .rows, targets := [{ row := 5, codes := List.replicate 240 1, seams := List.replicate 8 0, rems := List.replicate 8 0 }] }, by decide +kernel⟩

theorem witness_Layers_ages : ∃ (s : State) (t : Time) (x : Tag) (n : Nat),
    s.dev.spool.tags.find? (fun y => y.id == x.id) = some x ∧
    s.dev.spool.ageing = some n ∧
    (x.status = .ready ∧ x.aborting = false ∧ 0 < x.level) ∧
    x.readyAt + (x.priority - x.level + 1) * us (100 * n) ≤ instant s t :=
  ⟨devWith up (fun d => d.onSpool (fun p => { p with tags := [{ Tag.of .learn 0 (some 3) 3 none with id := 9 }], ageing := some 10 })), us 1000,
      { Tag.of .learn 0 (some 3) 3 none with id := 9 }, 10, by decide +kernel⟩

theorem witness_Layers_notAged : ∃ (s : State) (t : Time) (x : Fin 4096),
    (s.dev.spool.ageing = none ∨ s.dev.spool.tags = []) :=
  ⟨up, 9, 3, by decide +kernel⟩

theorem witness_Layers_phase : ∃ (s : State) (t : Time) (i : Fin 48) (x : Tag) (h : Handle) (m : Model) (r : Run) (p : Planned) (ph : Phase) (rest : List Phase) (sl : Slice) (l : Layer),
    let y := s.dev.tiles[i]
    let int8 := l.weightFormat == 2
    let out := (p.handed.map (·.yields)).getD (y.phase sl int8 l.inFormat ph s.dev.free)
    let begins := max p.accepted (y.phaseEnd + if y.lastMode = some (!sl.dMode) then ns 200 else 0)
    let due := (p.handed.map (fun x => x.opened + ns 800)).getD (begins + if sl.dMode = true then ns 120 else ns 800)
    let driven : Tile := if p.handed = none then { y with lastMode := some sl.dMode, phaseEnd := instant s t } else y
    let z := { driven with clipped := y.clipped + BitVec.ofNat 32 out.clips, compared := y.compared + BitVec.ofNat 32 out.made,
                           seamFailures := y.seamFailures + BitVec.ofNat 32 out.failed }
    s.dev.pwr.halted = false ∧
    s.dev.spool.tags.find? (fun u => u.kind == .phases && u.tile == some i && u.status == .issued) = some x ∧
    (x.aborting = false ∧ x.handle = some h) ∧
    s.dev.models[h] = some m ∧
    m.run = some r ∧
    r.planned.find? (fun q => q.tag == x.id) = some p ∧
    (p.tile = i ∧ p.phases = ph :: rest) ∧
    (m.image.slices[x.index]? = some sl ∧ m.image.layers[sl.layer]? = some l) ∧
    due ≤ instant s t :=
  ⟨devWith (devWith up (fun d => { d with models := d.models.set 3 (some { aModel with run := some { aRun with gathered := true, layerOn := true, usable := [0], accums := [{ slice := 0, replica := 0, sums := [0] }], planned := [{ tag := 9, tile := 5, slice := 0, replica := 0, phases := [{ drives := [(0, 9, 9)], negative := false, plane := none }], accepted := 0, handed := none }] } }) })) (fun d => d.onSpool (fun p => { p with tags := [{ Tag.of .phases 0 (some 3) 3 none with id := 9, tile := some 5, status := .issued }] })), us 1, 5, { Tag.of .phases 0 (some 3) 3 none with id := 9, tile := some 5, status := .issued }, 3, { aModel with run := some { aRun with gathered := true, layerOn := true, usable := [0], accums := [{ slice := 0, replica := 0, sums := [0] }], planned := [{ tag := 9, tile := 5, slice := 0, replica := 0, phases := [{ drives := [(0, 9, 9)], negative := false, plane := none }], accepted := 0, handed := none }] } }, { aRun with gathered := true, layerOn := true, usable := [0], accums := [{ slice := 0, replica := 0, sums := [0] }], planned := [{ tag := 9, tile := 5, slice := 0, replica := 0, phases := [{ drives := [(0, 9, 9)], negative := false, plane := none }], accepted := 0, handed := none }] }, { tag := 9, tile := 5, slice := 0, replica := 0, phases := [{ drives := [(0, 9, 9)], negative := false, plane := none }], accepted := 0, handed := none }, { drives := [(0, 9, 9)], negative := false, plane := none }, [], { layer := 0, dMode := false, replicas := 1, tiles := [0], rowFirst := 0, rowCount := 2, outFirst := 0, outCount := 1, inFirst := 0, outBase := 0, budget := 8, shift := 0, seamTol := 4, busy := 0 }, { vector := false, pass := 0, inFormat := 0, weightFormat := 0, inCount := 2, outCount := 1, firstSlice := 0, sliceCount := 1, descFirst := 0, descCount := 0, biasOffset := 0, outBytes := 8, input := 0xFFFF, softHead := false }, by decide +kernel⟩

theorem witness_Layers_early : ∃ (s : State) (t : Time) (i : Fin 48) (x : Tag) (h : Handle) (m : Model) (r : Run) (p : Planned) (ph : Phase) (rest : List Phase) (sl : Slice) (l : Layer),
    let y := s.dev.tiles[i]
    let int8 := l.weightFormat == 2
    let out := (p.handed.map (·.yields)).getD (y.phase sl int8 l.inFormat ph s.dev.free)
    let begins := max p.accepted (y.phaseEnd + if y.lastMode = some (!sl.dMode) then ns 200 else 0)
    let due := (p.handed.map (fun x => x.opened + ns 800)).getD (begins + if sl.dMode = true then ns 120 else ns 800)
    let driven : Tile := if p.handed = none then { y with lastMode := some sl.dMode, phaseEnd := instant s t } else y
    let z := { driven with clipped := y.clipped + BitVec.ofNat 32 out.clips, compared := y.compared + BitVec.ofNat 32 out.made,
                           seamFailures := y.seamFailures + BitVec.ofNat 32 out.failed }
    s.dev.spool.tags.find? (fun u => u.kind == .phases && u.tile == some i && u.status == .issued) = some x ∧
    (x.aborting = false ∧ x.handle = some h) ∧
    s.dev.models[h] = some m ∧
    m.run = some r ∧
    r.planned.find? (fun q => q.tag == x.id) = some p ∧
    (p.tile = i ∧ p.phases = ph :: rest) ∧
    (m.image.slices[x.index]? = some sl ∧ m.image.layers[sl.layer]? = some l) ∧
    instant s t < due :=
  ⟨devWith (devWith up (fun d => { d with models := d.models.set 3 (some { aModel with run := some { aRun with gathered := true, layerOn := true, usable := [0], accums := [{ slice := 0, replica := 0, sums := [0] }], planned := [{ tag := 9, tile := 5, slice := 0, replica := 0, phases := [{ drives := [(0, 9, 9)], negative := false, plane := none }], accepted := 0, handed := none }] } }) })) (fun d => d.onSpool (fun p => { p with tags := [{ Tag.of .phases 0 (some 3) 3 none with id := 9, tile := some 5, status := .issued }] })), ns 799, 5, { Tag.of .phases 0 (some 3) 3 none with id := 9, tile := some 5, status := .issued }, 3, { aModel with run := some { aRun with gathered := true, layerOn := true, usable := [0], accums := [{ slice := 0, replica := 0, sums := [0] }], planned := [{ tag := 9, tile := 5, slice := 0, replica := 0, phases := [{ drives := [(0, 9, 9)], negative := false, plane := none }], accepted := 0, handed := none }] } }, { aRun with gathered := true, layerOn := true, usable := [0], accums := [{ slice := 0, replica := 0, sums := [0] }], planned := [{ tag := 9, tile := 5, slice := 0, replica := 0, phases := [{ drives := [(0, 9, 9)], negative := false, plane := none }], accepted := 0, handed := none }] }, { tag := 9, tile := 5, slice := 0, replica := 0, phases := [{ drives := [(0, 9, 9)], negative := false, plane := none }], accepted := 0, handed := none }, { drives := [(0, 9, 9)], negative := false, plane := none }, [], { layer := 0, dMode := false, replicas := 1, tiles := [0], rowFirst := 0, rowCount := 2, outFirst := 0, outCount := 1, inFirst := 0, outBase := 0, budget := 8, shift := 0, seamTol := 4, busy := 0 }, { vector := false, pass := 0, inFormat := 0, weightFormat := 0, inCount := 2, outCount := 1, firstSlice := 0, sliceCount := 1, descFirst := 0, descCount := 0, biasOffset := 0, outBytes := 8, input := 0xFFFF, softHead := false }, by decide +kernel⟩

theorem witness_Layers_lastPhase : ∃ (s : State) (t : Time) (i : Fin 48) (x : Tag) (h : Handle) (m : Model) (p : Planned) (ph : Phase) (rest : List Phase) (sl : Slice) (l : Layer),
    let y := s.dev.tiles[i]
    let int8 := l.weightFormat == 2
    let out := (p.handed.map (·.yields)).getD (y.phase sl int8 l.inFormat ph s.dev.free)
    let begins := max p.accepted (y.phaseEnd + if y.lastMode = some (!sl.dMode) then ns 200 else 0)
    let due := (p.handed.map (fun x => x.opened + ns 800)).getD (begins + if sl.dMode = true then ns 120 else ns 800)
    let driven : Tile := if p.handed = none then { y with lastMode := some sl.dMode, phaseEnd := instant s t } else y
    let z := { driven with clipped := y.clipped + BitVec.ofNat 32 out.clips, compared := y.compared + BitVec.ofNat 32 out.made,
                           seamFailures := y.seamFailures + BitVec.ofNat 32 out.failed }
    s.dev.pwr.halted = false ∧
    s.dev.spool.tags.find? (fun u => u.kind == .phases && u.tile == some i && u.status == .issued) = some x ∧
    (x.aborting = true ∧ x.handle = some h) ∧
    s.dev.models[h] = some m ∧
    m.leaving.find? (fun q => q.tag == x.id) = some p ∧
    (p.tile = i ∧ p.phases = ph :: rest) ∧
    (m.image.slices[x.index]? = some sl ∧ m.image.layers[sl.layer]? = some l) ∧
    due ≤ instant s t :=
  ⟨devWith (devWith up (fun d => { d with models := d.models.set 3 (some { aModel with leaving := [{ tag := 9, tile := 5, slice := 0, replica := 0, phases := [{ drives := [(0, 9, 9)], negative := false, plane := none }], accepted := 0, handed := none }] }) })) (fun d => d.onSpool (fun p => { p with tags := [{ Tag.of .phases 0 (some 3) 3 none with id := 9, aborting := true, tile := some 5, status := .issued }] })), us 1, 5, { Tag.of .phases 0 (some 3) 3 none with id := 9, aborting := true, tile := some 5, status := .issued }, 3, { aModel with leaving := [{ tag := 9, tile := 5, slice := 0, replica := 0, phases := [{ drives := [(0, 9, 9)], negative := false, plane := none }], accepted := 0, handed := none }] }, { tag := 9, tile := 5, slice := 0, replica := 0, phases := [{ drives := [(0, 9, 9)], negative := false, plane := none }], accepted := 0, handed := none }, { drives := [(0, 9, 9)], negative := false, plane := none }, [], { layer := 0, dMode := false, replicas := 1, tiles := [0], rowFirst := 0, rowCount := 2, outFirst := 0, outCount := 1, inFirst := 0, outBase := 0, budget := 8, shift := 0, seamTol := 4, busy := 0 }, { vector := false, pass := 0, inFormat := 0, weightFormat := 0, inCount := 2, outCount := 1, firstSlice := 0, sliceCount := 1, descFirst := 0, descCount := 0, biasOffset := 0, outBytes := 8, input := 0xFFFF, softHead := false }, by decide +kernel⟩

theorem witness_Layers_aborted : ∃ (s : State) (t : Time) (i : Fin 48) (x : Tag),
    s.dev.pwr.halted = false ∧
    s.dev.spool.tags.find? (fun u => u.kind == .phases && u.tile == some i && u.status == .issued) = some x ∧
    x.aborting = true ∧
    (∀ h ∈ x.handle, ∀ m ∈ s.dev.models[h], m.leaving.all (fun q => q.tag != x.id) = true) :=
  ⟨devWith up (fun d => d.onSpool (fun p => { p with tags := [{ Tag.of .phases 0 (some 3) 3 none with id := 9, aborting := true, tile := some 5, status := .issued }] })), 9, 5, { Tag.of .phases 0 (some 3) 3 none with id := 9, aborting := true, tile := some 5, status := .issued }, by decide +kernel⟩

theorem witness_Layers_noPhase : ∃ (s : State) (t : Time) (i : Fin 48),
    s.dev.spool.tags.all (fun u => u.tile != some i) = true :=
  ⟨up, 9, 5, by decide +kernel⟩

theorem witness_Layers_output : ∃ (s : State) (t : Time) (h : Handle) (m : Model) (r : Run) (l : Layer),
    let mine := s.dev.spool.ofRun h
    let moves := mine.filter (fun u => u.kind == .move)
    let a := m.addrOf 0x202
    let b := m.bufferAddr r.layer
    s.dev.models[h] = some m ∧
    m.run = some r ∧
    m.image.layers[r.layer]? = some l ∧
    (r.layerOn = true ∧ l.vector = false ∧ m.learn = none) ∧
    (moves ≠ [] ∧ mine.all (fun u => u.kind != .phases) = true ∧ moves.all (fun u => u.status == .issued) = true) ∧
    (a + 2 * l.outCount ≤ 0x1800000 ∧ b + 2 * l.outCount ≤ 0x1800000) ∧
    (a + 2 * l.outCount ≤ b ∨ b + 2 * l.outCount ≤ a) :=
  ⟨devWith (devWith up (fun d => { d with models := d.models.set 3 (some { aModel with run := some { aRun with layerOn := true, usable := [0], accums := [{ slice := 0, replica := 0, sums := [40000] }] } }) })) (fun d => d.onSpool (fun p => { p with tags := [{ Tag.of .move 0 (some 3) 3 none with id := 9, status := .issued }] })), 9, 3, { aModel with run := some { aRun with layerOn := true, usable := [0], accums := [{ slice := 0, replica := 0, sums := [40000] }] } }, { aRun with layerOn := true, usable := [0], accums := [{ slice := 0, replica := 0, sums := [40000] }] }, { vector := false, pass := 0, inFormat := 0, weightFormat := 0, inCount := 2, outCount := 1, firstSlice := 0, sliceCount := 1, descFirst := 0, descCount := 0, biasOffset := 0, outBytes := 8, input := 0xFFFF, softHead := false }, by decide +kernel⟩

theorem witness_Layers_noOutput : ∃ (s : State) (t : Time) (h : Handle) (m : Model) (r : Run) (l : Layer),
    s.dev.models[h] = some m ∧
    m.run = some r ∧
    m.image.layers[r.layer]? = some l ∧
    (r.layerOn = false ∨ l.vector = true) :=
  ⟨(devWith up (fun d => { d with models := d.models.set 3 (some { aModel with run := some aRun }) })), 9, 3, { aModel with run := some aRun }, aRun,
      { vector := false, pass := 0, inFormat := 0, weightFormat := 0, inCount := 2, outCount := 1, firstSlice := 0, sliceCount := 1, descFirst := 0,
        descCount := 0, biasOffset := 0, outBytes := 8, input := 0xFFFF, softHead := false }, by decide +kernel⟩

theorem witness_Layers_completes : ∃ (s : State) (t : Time) (e : Fin 4) (h : Handle) (m : Model) (i : Nat) (x : Desc) (l : Layer) (k : Nat) (g : Tag) (start : Time),
    s.dev.spool.engines[e].busy = some (h, i, g.id, start) ∧
    s.dev.pwr.halted = false ∧
    (start < instant s t ∧ instant s t ≤ start + 960 * x.cycles) ∧
    (s.dev.spool.tag g.id = some g ∧ g.aborting = false) ∧
    s.dev.models[h] = some m ∧
    (m.image.descs[i]? = some x ∧ m.image.descLayer i = some (l, k)) :=
  ⟨(devWith (devWith up (fun d => { d with models := d.models.set 3 (some { aModel with image := { anImage with descs := [{ op := 3, inFormat := 3, outFormat := 3, engine := 0xFF, count := 2, src := 0, src2 := 0x202, dst := 1, param := 0 }] }, run := some { aRun with layer := 1, layerOn := true } }) })) (fun d => d.onSpool (fun p => { p with tags := [{ Tag.of .vector 0 (some 3) 3 none with id := 9, status := .issued }], engines := p.engines.set 2 { busy := some (3, 0, 9, 0), descriptors := 4, cycles := 5 } }))), 9, 2, 3, { aModel with image := { anImage with descs := [{ op := 3, inFormat := 3, outFormat := 3, engine := 0xFF, count := 2, src := 0, src2 := 0x202, dst := 1, param := 0 }] }, run := some { aRun with layer := 1, layerOn := true } }, 0, { op := 3, inFormat := 3, outFormat := 3, engine := 0xFF, count := 2, src := 0, src2 := 0x202, dst := 1, param := 0 }, { vector := true, pass := 0, inFormat := 0, weightFormat := 0, inCount := 1, outCount := 1, firstSlice := 0, sliceCount := 0, descFirst := 0, descCount := 1, biasOffset := 0, outBytes := 8, input := 0, softHead := false }, 1, { Tag.of .vector 0 (some 3) 3 none with id := 9, status := .issued }, 0, by decide +kernel⟩

theorem witness_Layers_adds : ∃ (s : State) (t : Time) (m : Model) (r : Run) (l : Layer) (x : Desc) (n : Nat),
    (x.op = 3 ∧ x.inFormat = 3) ∧
    (x.src ≠ 0x203 ∧ x.src2 ≠ 0x203) :=
  ⟨devWith up (fun d => d.memWrite (aModel.addrOf 0) [0xFF, 0x7F, 0xFE, 0xFF, 3, 0, 9, 0, 4, 0]), 9,
      { aModel with image := { anImage with descs := [{ op := 3, inFormat := 3, outFormat := 3, engine := 0xFF, count := 2, src := 0, src2 := 0x202,
                                                        dst := 1, param := 0 }] }, run := some { aRun with layer := 1, layerOn := true } }, aRun,
      { vector := true, pass := 0, inFormat := 0, weightFormat := 0, inCount := 1, outCount := 1, firstSlice := 0, sliceCount := 0, descFirst := 0,
        descCount := 1, biasOffset := 0, outBytes := 8, input := 0, softHead := false }, { op := 3, inFormat := 3, outFormat := 3, engine := 0xFF,
                                                                                           count := 2, src := 0, src2 := 0x202, dst := 1,
                                                                                           param := 0 }, 5, by decide +kernel⟩

theorem witness_Layers_noDescriptor : ∃ (s : State) (t : Time) (e : Fin 4),
    s.dev.spool.engines[e].busy = none :=
  ⟨up, 9, 2, by decide +kernel⟩

theorem witness_Layers_learns : ∃ (s : State) (t : Time) (h : Handle) (m : Model) (r : Run) (l : Layer),
    let mine := s.dev.spool.ofRun h
    let moves := mine.filter (fun u => u.kind == .move)
    s.dev.models[h] = some m ∧
    m.run = some r ∧
    m.image.layers[r.layer]? = some l ∧
    (r.layerOn = true ∧ l.vector = false ∧ m.learn ≠ none) ∧
    m.image.layers.length = r.layer + 1 ∧
    (moves ≠ [] ∧ mine = moves ∧ moves.all (fun u => u.status == .issued) = true) ∧
    s.dev.spool.tags.length ≤ 4096 :=
  ⟨(devWith (devWith up (fun d => { d with models := d.models.set 3 (some { aModel with run := some { aRun with layerOn := true, usable := [0], accums := [{ slice := 0, replica := 0, sums := [40000] }] }, image := { anImage with layers := anImage.layers.take 1 }, learn := some theLearn }) })) (fun d => d.onSpool (fun p => { p with tags := [{ Tag.of .move 0 (some 3) 3 none with id := 9, status := .issued }] }))), 9, 3, { aModel with run := some { aRun with layerOn := true, usable := [0], accums := [{ slice := 0, replica := 0, sums := [40000] }] }, image := { anImage with layers := anImage.layers.take 1 }, learn := some theLearn }, { aRun with layerOn := true, usable := [0], accums := [{ slice := 0, replica := 0, sums := [40000] }] }, { vector := false, pass := 0, inFormat := 0, weightFormat := 0, inCount := 2, outCount := 1, firstSlice := 0, sliceCount := 1, descFirst := 0, descCount := 0, biasOffset := 0, outBytes := 8, input := 0xFFFF, softHead := false }, by decide +kernel⟩

theorem witness_Caches_shares : ∃ (s : State) (t : Time) (e : Fin 4) (n : Fin 393216) (own : Bool) (o : List (Fin 4)),
    let l := s.dev.spool.line n.val
    (s.dev.pwr.state = .active ∨ (s.dev.pwr.state = .watch ∧ ∃ h : Handle, (s.dev.models[h]).any (fun m => m.run.isSome) = true)) ∧
    (l.writeback = false ∧ l.waiting = [] ∧ own = false) ∧
    (l.state = .uncached ∨ l.state = .shared o ∧ o.contains e = false) ∧
    (s.dev.spool.lines.filter (fun x => x.line % 64 == n.val % 64 && x.line != n.val && x.cachedBy e)).length < 4 :=
  ⟨devWith up (fun d => d.onSpool (fun p => { p with lines := [{ line := 9, state := .shared [0], writeback := false, writeFrom := 0,
                                                                 keepShared := false, purge := false, waiting := [] }] })), 9, 2, 9, false, [0],
      by decide +kernel⟩

theorem witness_Caches_owns : ∃ (s : State) (t : Time) (e : Fin 4) (n : Fin 393216) (own : Bool) (o : List (Fin 4)),
    let l := s.dev.spool.line n.val
    (s.dev.pwr.state = .active ∨ (s.dev.pwr.state = .watch ∧ ∃ h : Handle, (s.dev.models[h]).any (fun m => m.run.isSome) = true)) ∧
    (l.writeback = false ∧ l.waiting = [] ∧ own = true) ∧
    (l.state = .uncached ∨ l.state = .shared o) ∧
    (s.dev.spool.lines.filter (fun x => x.line % 64 == n.val % 64 && x.line != n.val && x.cachedBy e)).length < 4 :=
  ⟨devWith up (fun d => d.onSpool (fun p => { p with lines := [{ line := 9, state := .shared [0, 2], writeback := false, writeFrom := 0,
                                                                 keepShared := false, purge := false, waiting := [] }] })), 9, 2, 9, true, [0, 2],
      by decide +kernel⟩

theorem witness_Caches_waits : ∃ (s : State) (t : Time) (e : Fin 4) (n : Fin 393216) (own : Bool) (by_ : Fin 4) (since : Time),
    let l := s.dev.spool.line n.val
    (s.dev.pwr.state = .active ∨ (s.dev.pwr.state = .watch ∧ ∃ h : Handle, (s.dev.models[h]).any (fun m => m.run.isSome) = true)) ∧
    (l.writeback = false ∧ l.waiting = []) ∧
    (l.state = .owned by_ since ∧ by_ ≠ e) ∧
    (s.dev.spool.lines.filter (fun x => x.line % 64 == n.val % 64 && x.line != n.val && x.cachedBy e)).length < 4 :=
  ⟨devWith up (fun d => d.onSpool (fun p => { p with lines := [{ line := 9, state := .owned 0 5, writeback := false, writeFrom := 0,
                                                                 keepShared := false, purge := false, waiting := [] }] })), 15365, 2, 9, false, 0, 5,
      by decide +kernel⟩

theorem witness_Caches_during : ∃ (s : State) (t : Time) (e : Fin 4) (n : Fin 393216) (own : Bool),
    let l := s.dev.spool.line n.val
    (s.dev.pwr.state = .active ∨ (s.dev.pwr.state = .watch ∧ ∃ h : Handle, (s.dev.models[h]).any (fun m => m.run.isSome) = true)) ∧
    l.writeback = true ∧
    l.waiting.any (fun w => w.1 == e) = false ∧
    (s.dev.spool.lines.filter (fun x => x.line % 64 == n.val % 64 && x.line != n.val && x.cachedBy e)).length < 4 :=
  ⟨devWith up (fun d => d.onSpool (fun p => { p with lines := [{ line := 9, state := .owned 0 5, writeback := true, writeFrom := 0,
                                                                 keepShared := true, purge := false, waiting := [(1, true)] }] })), 9, 2, 9, false,
      by decide +kernel⟩

theorem witness_Caches_evicts : ∃ (s : State) (t : Time) (e : Fin 4) (n : Fin 393216) (own : Bool),
    let l := s.dev.spool.line n.val
    let held := s.dev.spool.lines.filter (fun x => x.line % 64 == n.val % 64 && x.line != n.val && x.cachedBy e)
    (s.dev.pwr.state = .active ∨ (s.dev.pwr.state = .watch ∧ ∃ h : Handle, (s.dev.models[h]).any (fun m => m.run.isSome) = true)) ∧
    (l.writeback = false ∧ l.waiting = [] ∧ l.state = .uncached) ∧
    4 ≤ held.length :=
  ⟨devWith up (fun d => d.onSpool (fun p => { p with lines := [{ line := 73, state := .shared [2], writeback := false, writeFrom := 0,
                                                                 keepShared := false, purge := false, waiting := [] },
                                                     { line := 137, state := .shared [2], writeback := false, writeFrom := 0, keepShared := false,
                                                       purge := false, waiting := [] }, { line := 201, state := .owned 2 3, writeback := false,
                                                                                          writeFrom := 0, keepShared := false, purge := false,
                                                                                          waiting := [] }, { line := 265, state := .owned 2 3, writeback := false, writeFrom := 0, keepShared := false, purge := false, waiting := [] }] })), 9, 2, 9, true, by decide +kernel⟩

theorem witness_Caches_holds : ∃ (s : State) (t : Time) (e : Fin 4) (n : Fin 393216) (own : Bool),
    let l := s.dev.spool.line n.val
    (s.dev.pwr.state = .active ∨ (s.dev.pwr.state = .watch ∧ ∃ h : Handle, (s.dev.models[h]).any (fun m => m.run.isSome) = true)) ∧
    (l.writeback = false ∧ l.serves e own = true) :=
  ⟨devWith up (fun d => d.onSpool (fun p => { p with lines := [{ line := 9, state := .owned 2 5, writeback := false, writeFrom := 0,
                                                                 keepShared := false, purge := false, waiting := [] }] })), 9, 2, 9, true,
      by decide +kernel⟩

theorem witness_Caches_asleep : ∃ (s : State) (t : Time) (e : Fin 4) (n : Fin 393216) (own : Bool),
    s.dev.pwr.state ≠ .active ∧
    (s.dev.pwr.state = .watch → ∀ h : Handle, (s.dev.models[h]).any (fun m => m.run.isSome) = false) :=
  ⟨State.reset, 9, 2, 9, true, by decide +kernel⟩

theorem witness_Caches_written : ∃ (s : State) (t : Time) (n : Fin 393216) (by_ : Fin 4) (since : Time),
    let l := s.dev.spool.line n.val
    (l.writeback = true ∧ l.writeFrom + 3840 ≤ instant s t) ∧
    (l.waiting = [] ∧ l.state = .owned by_ since) :=
  ⟨devWith up (fun d => d.onSpool (fun p => { p with lines := [{ line := 9, state := .owned 2 5, writeback := true, writeFrom := 0,
                                                                 keepShared := false, purge := false, waiting := [] }] })), 3840, 9, 2, 5,
      by decide +kernel⟩

theorem witness_Caches_serves : ∃ (s : State) (t : Time) (n : Fin 393216) (by_ e : Fin 4) (since : Time) (own : Bool),
    let l := s.dev.spool.line n.val
    (l.writeback = true ∧ l.writeFrom + 3840 ≤ instant s t) ∧
    (l.waiting = [(e, own)] ∧ l.state = .owned by_ since ∧ by_ ≠ e) :=
  ⟨devWith up (fun d => d.onSpool (fun p => { p with lines := [{ line := 9, state := .owned 2 5, writeback := true, writeFrom := 0,
                                                                 keepShared := true, purge := false, waiting := [(1, false)] }] })), 3840, 9, 2, 1, 5,
      false, by decide +kernel⟩

theorem witness_Caches_rotates : ∃ (s : State) (t : Time) (n : Fin 393216) (e f : Fin 4) (by_ : Fin 4) (since : Time),
    let l := s.dev.spool.line n.val
    (l.writeback = true ∧ l.writeFrom + 3840 ≤ instant s t) ∧
    (l.waiting = [(e, true), (f, true)] ∧ l.keepShared = false ∧ l.state = .owned by_ since) ∧
    e ≠ f :=
  ⟨devWith up (fun d => d.onSpool (fun p => { p with lines := [{ line := 9, state := .owned 2 5, writeback := true, writeFrom := 0,
                                                                 keepShared := false, purge := false, waiting := [(0, true), (3, true)] }] })), 3840,
      9, 0, 3, 2, 5, by decide +kernel⟩

theorem witness_Caches_notWritten : ∃ (s : State) (t : Time) (n : Fin 393216),
    let l := s.dev.spool.line n.val
    (l.writeback = false ∨ instant s t < l.writeFrom + 3840) :=
  ⟨up, 9, 9, by decide +kernel⟩

theorem witness_Caches_recalls : ∃ (s : State) (t : Time) (n : Fin 393216) (by_ e : Fin 4) (since : Time) (own : Bool),
    let l := s.dev.spool.line n.val
    (l.state = .owned by_ since ∧ l.waiting = [(e, own)] ∧ l.writeback = false) ∧
    since + 15360 ≤ instant s t :=
  ⟨devWith up (fun d => d.onSpool (fun p => { p with lines := [{ line := 9, state := .owned 2 5, writeback := false, writeFrom := 0,
                                                                 keepShared := false, purge := false, waiting := [(1, false)] }] })), 15365, 9, 2, 1,
      5, false, by decide +kernel⟩

theorem witness_Caches_purges : ∃ (s : State) (t : Time) (n : Fin 393216) (by_ : Fin 4) (since : Time),
    let l := s.dev.spool.line n.val
    (l.state = .owned by_ since ∧ l.waiting = [] ∧ l.writeback = false ∧ l.purge = true) ∧
    since + 15360 ≤ instant s t :=
  ⟨devWith up (fun d => d.onSpool (fun p => { p with lines := [{ line := 9, state := .owned 2 5, writeback := false, writeFrom := 0,
                                                                 keepShared := false, purge := true, waiting := [] }] })), 15365, 9, 2, 5,
      by decide +kernel⟩

theorem witness_Caches_stillHeld : ∃ (s : State) (t : Time) (n : Fin 393216) (by_ : Fin 4) (since : Time),
    let l := s.dev.spool.line n.val
    l.state = .owned by_ since ∧
    (instant s t < since + 15360 ∨ (l.waiting = [] ∧ l.purge = false)) :=
  ⟨devWith up (fun d => d.onSpool (fun p => { p with lines := [{ line := 9, state := .owned 2 5, writeback := false, writeFrom := 0,
                                                                 keepShared := false, purge := false, waiting := [(1, false)] }] })), 15364, 9, 2, 5,
      by decide +kernel⟩

theorem witness_LearnCommands_adopts : ∃ (s : State) (t : Time) (b : Basket) (h : Handle) (m : Model) (l : Learn) (sp : LearnSpec),
    StartsAwake s b ∧
    arg s b 0 = h.val ∧
    (s.dev.models[h] = some m ∧ m.learn = some l ∧ m.image.learn = some sp) ∧
    (m.basket = b ∨ b = 0) ∧
    l.state = .frozen :=
  ⟨argsOf (devWith up (fun d => { d with models := d.models.set 3 (some { aModel with image := { anImage with learn := some theSpec },
                                                                                      learn := some { theLearn with state := .frozen } }) })) [3], 9,
      0, 3, { aModel with image := { anImage with learn := some theSpec }, learn := some { theLearn with state := .frozen } },
      { theLearn with state := .frozen }, theSpec, by decide +kernel⟩

theorem witness_LearnCommands_doubt : ∃ (s : State) (t : Time) (b : Basket) (h : Handle) (m : Model) (l : Learn) (sp : LearnSpec),
    StartsAwake s b ∧
    arg s b 0 = h.val ∧
    (s.dev.models[h] = some m ∧ m.learn = some l ∧ m.image.learn = some sp) ∧
    (m.basket = b ∨ b = 0) ∧
    (l.state = .learning ∧ l.doubt = true) :=
  ⟨argsOf (devWith up (fun d => { d with models := d.models.set 3 (some { aModel with image := { anImage with learn := some theSpec },
                                                                                      learn := some { theLearn with doubt := true } }) })) [3], 9, 0,
      3, { aModel with image := { anImage with learn := some theSpec }, learn := some { theLearn with doubt := true } },
      { theLearn with doubt := true }, theSpec, by decide +kernel⟩

theorem witness_LearnCommands_noAck : ∃ (s : State) (t : Time) (b : Basket) (h : Handle) (m : Model) (l : Learn) (sp : LearnSpec),
    StartsAwake s b ∧
    arg s b 0 = h.val ∧
    (s.dev.models[h] = some m ∧ m.learn = some l ∧ m.image.learn = some sp) ∧
    (m.basket = b ∨ b = 0) ∧
    (l.state ≠ .frozen ∧ (l.state ≠ .learning ∨ l.doubt = false)) :=
  ⟨argsOf (devWith up (fun d => { d with models := d.models.set 3 (some { aModel with image := { anImage with learn := some theSpec },
                                                                                      learn := some theLearn }) })) [3], 9, 0, 3,
      { aModel with image := { anImage with learn := some theSpec }, learn := some theLearn }, theLearn, theSpec, by decide +kernel⟩

theorem witness_LearnCommands_patch : ∃ (s : State) (t : Time) (b : Basket) (h : Handle) (m : Model) (l : Learn) (sp : LearnSpec),
    StartsAwake s b ∧
    arg s b 0 = h.val ∧
    (s.dev.models[h] = some m ∧ m.learn = some l ∧ m.image.learn = some sp) ∧
    m.basket = b :=
  ⟨argsOf (devWith up (fun d => { d with models := d.models.set 3 (some { aModel with image := { anImage with learn := some theSpec },
                                                                                      learn := some theLearn }) })) [3], 9, 0, 3,
      { aModel with image := { anImage with learn := some theSpec }, learn := some theLearn }, theLearn, theSpec, by decide +kernel⟩

theorem witness_LearnCommands_recommission : ∃ (s : State) (t : Time) (b : Basket) (h : Handle) (m : Model) (l : Learn) (sp : LearnSpec),
    let base := m.addrOf m.image.baselineId
    let n := m.image.baselineCount
    let head := m.addrOf 0x201
    let codes := codeWords l.imageCodes
    StartsAwake s b ∧
    arg s b 0 = h.val ∧
    (s.dev.models[h] = some m ∧ m.learn = some l ∧ m.image.learn = some sp) ∧
    m.basket = b ∧
    (base + 8 * n ≤ 0x1800000 ∧ head + codes.length ≤ 0x1800000) ∧
    (m.image.stats.isSome = true → base + 8 * n ≤ head ∨ head + codes.length ≤ base) :=
  ⟨argsOf (devWith up (fun d => { d with models := d.models.set 3 (some { aModel with image := { anImage with learn := some theSpec },
                                                                                      learn := some { theLearn with imageCodes := [-3, 4] } }) })) [3], 9, 0, 3, { aModel with image := { anImage with learn := some theSpec }, learn := some { theLearn with imageCodes := [-3, 4] } }, { theLearn with imageCodes := [-3, 4] }, theSpec, by decide +kernel⟩

theorem witness_LearnCommands_none : ∃ (s : State) (t : Time) (b : Basket) (h : Handle) (m : Model),
    StartsAwake s b ∧
    arg s b 0 = h.val ∧
    (s.dev.models[h] = some m ∧ m.learn = none ∧ m.basket = b) :=
  ⟨argsOf (devWith up (fun d => { d with models := d.models.set 3 (some aModel) })) [3], 9, 0, 3, aModel, by decide +kernel⟩

theorem witness_LearnCommands_forget : ∃ (s : State) (t : Time) (b : Basket),
    let id := arg32 s b 0
    StartsAwake s b ∧
    ((here s t).namedEntry b id).isSome = true ∧
    (∀ h : Handle, (s.dev.models[h]).all (fun m => m.basket != b || m.image.modelId.toNat != id) = true) :=
  ⟨argsOf (devWith up (fun d => d.onStore (fun s => { s with areas := s.areas.set 0 (some ([anEntry], [])) }))) [7], 9, 0, by decide +kernel⟩

theorem witness_LearnCommands_loaded : ∃ (s : State) (t : Time) (b : Basket),
    let id := arg32 s b 0
    StartsAwake s b ∧
    ((here s t).namedEntry b id).isSome = true ∧
    (∃ h : Fin 16, (s.dev.models[h]).any (fun m => m.basket == b && m.image.modelId.toNat == id) = true) :=
  ⟨argsOf (devWith up (fun d => { d with models := d.models.set 3 (some { aModel with image := { anImage with learn := some theSpec },
                                                                                      learn := some theLearn }) })) [9], 9, 0, by decide +kernel⟩

theorem witness_PatchStore_set : ∃ (s : State) (t : Time),
    StartsAwake s 0 ∧
    (1 ≤ arg s 0 0 ∧ arg s 0 0 ≤ 168) ∧
    (20 ≤ arg s 0 1 ∧ arg s 0 1 ≤ 1000) :=
  ⟨argsOf up [168, 20], 9, by decide +kernel⟩

theorem witness_PatchStore_put : ∃ (s : State) (t : Time) (b : Basket),
    let a := arg32 s b 0
    let n := arg32 s b 2
    StartsAwake s b ∧
    (0 < n ∧ HeldRange s b a n) ∧
    n ≤ (here s t).freePatchQuota b + (s.dev.store.area b).2.length :=
  ⟨argsOf up [0, 8, 3, 0], 9, 0, by decide +kernel⟩

theorem witness_PatchStore_noRoom : ∃ (s : State) (t : Time) (b : Basket),
    let a := arg32 s b 0
    let n := arg32 s b 2
    StartsAwake s b ∧
    (0 < n ∧ HeldRange s b a n) ∧
    (here s t).freePatchQuota b + (s.dev.store.area b).2.length < n :=
  ⟨argsOf up [0, 8, 0, 5], 9, 0, by decide +kernel⟩

theorem witness_PatchStore_get : ∃ (s : State) (t : Time) (b : Basket),
    let a := arg32 s b 0
    let blob := (s.dev.store.area b).2
    StartsAwake s b ∧
    HeldRange s b a blob.length :=
  ⟨argsOf (devWith up (fun d => d.onStore (fun s => { s with areas := s.areas.set 0 (some ([anEntry], [3, 4, 0])) }))) [0, 8], 9, 0,
      by decide +kernel⟩

theorem witness_PatchStore_checkpoint : ∃ (s : State) (t : Time) (b : Basket),
    StartsAwake s b :=
  ⟨up, 9, 0, by decide +kernel⟩

theorem witness_PatchStore_starts : ∃ (s : State) (t : Time),
    let old := s.dev.store
    (s.dev.pwr.state = .active ∨ s.dev.pwr.state = .boot) ∧
    (s.dev.pwr.selected = true ∧ old.writing = none ∧ old.trigger = true ∧ old.pfailAt = none) ∧
    old.writes[old.nextBank] ≠ 99999 :=
  ⟨devWith up (fun d => d.onStore (fun s => { s with trigger := true })), 9, by decide +kernel⟩

theorem witness_PatchStore_worn : ∃ (s : State) (t : Time),
    let old := s.dev.store
    s.dev.pwr.state = .active ∧
    (s.dev.pwr.selected = true ∧ old.writing = none ∧ old.trigger = true ∧ old.pfailAt = none) ∧
    old.writes[old.nextBank] = 99999 :=
  ⟨devWith up (fun d => d.onStore (fun s => { s with trigger := true, writes := ⟨#[99999, 5], rfl⟩ })), 9, by decide +kernel⟩

theorem witness_PatchStore_notStarted : ∃ (s : State) (t : Time),
    (s.dev.store.writing ≠ none ∨ (s.dev.pwr.state = .active ∧ s.dev.store.trigger = false) ∨ s.dev.pwr.state = .watch) :=
  ⟨up, 9, by decide +kernel⟩

theorem witness_PatchStore_valid : ∃ (s : State) (t : Time) (w : StoreWrite),
    let old := s.dev.store
    old.writing = some w ∧
    (w.started < instant s t ∧ instant s t ≤ w.ends) ∧
    (old.pfailAt = none ∧ w.patches = [] ∧ old.serving = Vector.replicate 4 false) :=
  ⟨devWith up (fun d => d.onStore (fun s => { s with writing := some { bank := 0, seq := 9, bytes := [1, 2], clean := false, started := 0,
                                                                       ends := us 50, again := false, step := 819200, atPfail := false, arms := [],
                                                                       patches := [] } })), us 50,
      { bank := 0, seq := 9, bytes := [1, 2], clean := false, started := 0, ends := us 50, again := false, step := 819200, atPfail := false,
        arms := [], patches := [] }, by decide +kernel⟩

theorem witness_PatchStore_serves : ∃ (s : State) (t : Time) (w : StoreWrite) (b : Basket) (run : Running),
    let old := s.dev.store
    old.writing = some w ∧
    (w.started < instant s t ∧ instant s t ≤ w.ends) ∧
    (old.pfailAt = none ∧ w.patches = []) ∧
    (∀ c : Basket, old.serving[c] = decide (c = b)) ∧
    (s.dev.host.pages[b].running = some run ∧ run.code = 0x0715 ∧ run.outcome = none) :=
  ⟨(devWith (devWith up (fun d => d.onStore (fun s => { s with writing := some { bank := 0, seq := 9, bytes := [1, 2], clean := false, started := 0,
                                                                                 ends := us 50, again := false, step := 819200, atPfail := false,
                                                                                 arms := [], patches := [] },
                                                               serving := s.serving.set 2 true }))) (fun d => d.onPage 2 (fun p => { p with running := some { code := 0x0715, args := Vector.replicate 8 0, tag := 0, since := 0, outcome := none } }))), us 50, { bank := 0, seq := 9, bytes := [1, 2], clean := false, started := 0, ends := us 50, again := false, step := 819200, atPfail := false, arms := [], patches := [] }, 2, { code := 0x0715, args := Vector.replicate 8 0, tag := 0, since := 0, outcome := none }, by decide +kernel⟩

theorem witness_PatchStore_repeats : ∃ (s : State) (t : Time) (w : StoreWrite),
    let old := s.dev.store
    old.writing = some w ∧
    (w.started < instant s t ∧ instant s t ≤ w.ends) ∧
    (w.again = false ∧ old.pfailAt = none ∧ s.dev.pwr.state ≠ .fault) ∧
    old.writes[old.nextBank] ≠ 99999 :=
  ⟨devWith up (fun d => d.onStore (fun s => { s with writing := some { bank := 0, seq := 9, bytes := [1, 2], clean := false, started := 0,
                                                                       ends := us 50, again := false, step := 819200, atPfail := false, arms := [],
                                                                       patches := [] } })), us 50,
      { bank := 0, seq := 9, bytes := [1, 2], clean := false, started := 0, ends := us 50, again := false, step := 819200, atPfail := false,
        arms := [], patches := [] }, by decide +kernel⟩

theorem witness_PatchStore_fails : ∃ (s : State) (t : Time) (w : StoreWrite),
    let old := s.dev.store
    old.writing = some w ∧
    (w.started < instant s t ∧ instant s t ≤ w.ends) ∧
    (w.again = true ∨ old.pfailAt ≠ none ∨ s.dev.pwr.state = .fault) ∧
    old.serving = Vector.replicate 4 false :=
  ⟨devWith up (fun d => d.onStore (fun s => { s with writing := some { bank := 0, seq := 9, bytes := [1, 2], clean := false, started := 0,
                                                                       ends := us 50, again := true, step := 819200, atPfail := false, arms := [],
                                                                       patches := [] } })), us 50,
      { bank := 0, seq := 9, bytes := [1, 2], clean := false, started := 0, ends := us 50, again := true, step := 819200, atPfail := false,
        arms := [], patches := [] }, by decide +kernel⟩

theorem witness_PatchStore_notWriting : ∃ (s : State) (t : Time) (v : Bool),
    s.dev.store.writing = none :=
  ⟨up, 9, true, by decide +kernel⟩

theorem witness_PatchStore_due : ∃ (s : State) (t : Time),
    s.dev.pwr.selected = true :=
  ⟨up, 9, by decide +kernel⟩

theorem witness_PatchStore_notSelected : ∃ (s : State) (t : Time),
    s.dev.pwr.selected = false :=
  ⟨State.reset, 9, by decide +kernel⟩

theorem witness_LinkSettings_set : ∃ (s : State) (t : Time) (set : LinkSet),
    StartsAwake s 0 ∧
    zeroSetting (arg s 0 0) (arg32 s 0 1) (arg s 0 1) (arg s 0 2) = false ∧
    s.dev.link.staged.set.put (arg s 0 0) (arg32 s 0 1) (arg s 0 1) (arg s 0 2) = some set :=
  ⟨argsOf up [2, 64], 9, { LinkSet.reset with node := 64 }, by decide +kernel⟩

theorem witness_LinkSettings_zero : ∃ (s : State) (t : Time),
    StartsAwake s 0 ∧
    zeroSetting (arg s 0 0) (arg32 s 0 1) (arg s 0 1) (arg s 0 2) = true :=
  ⟨argsOf up [3, 0], 9, by decide +kernel⟩

theorem witness_LinkSettings_range : ∃ (s : State) (t : Time),
    StartsAwake s 0 ∧
    zeroSetting (arg s 0 0) (arg32 s 0 1) (arg s 0 1) (arg s 0 2) = false ∧
    s.dev.link.staged.set.put (arg s 0 0) (arg32 s 0 1) (arg s 0 1) (arg s 0 2) = none :=
  ⟨argsOf up [2, 65], 9, by decide +kernel⟩

theorem witness_LinkSettings_entry : ∃ (s : State) (t : Time) (e : SlotEntry),
    StartsAwake s 0 ∧
    (arg s 0 0 < 512 ∧ argBit s 0 5 15 = false ∧ arg s 0 5 % 4 ≤ 2) ∧
    (arg s 0 1 = e.slot + 256 * e.owner ∧ arg s 0 2 = (e.basket.val + 4 * e.kind + 16 * e.use + 64 * e.silent.toNat) + 256 * e.base) ∧
    (arg s 0 3 = e.repExp + 256 * e.span ∧ arg s 0 4 = e.maxLen + 256 * e.rank) ∧
    (e.source = if arg s 0 5 % 4 = 1 then .features (arg s 0 6) (arg s 0 7) else if arg s 0 5 % 4 = 2 then .buffer else .none) ∧
    (arg s 0 5 % 4 = 1 → 1 ≤ arg s 0 7 ∧ arg s 0 7 ≤ 256) ∧
    (e.slot ≤ 254 ∧ e.owner ≤ 64 ∧ e.kind ≤ 2 ∧ e.use ≤ 2 ∧ e.repExp ≤ 6 ∧ e.base < 2 ^ e.repExp ∧ 1 ≤ e.span ∧ e.span ≤ 8 ∧ e.maxLen ≤ 128 ∧
        e.rank ≤ 4) :=
  ⟨argsOf up [511, 5 + 256 * 3, 16, 256, 4, 2], 9, { dataEntry with use := 1 }, by decide +kernel⟩

theorem witness_LinkSettings_erase : ∃ (s : State) (t : Time),
    StartsAwake s 0 ∧
    (arg s 0 0 < 512 ∧ argBit s 0 5 15 = true) :=
  ⟨argsOf up [511, 0, 0, 0, 0, 0x8000], 9, by decide +kernel⟩

theorem witness_LinkSettings_revert : ∃ (s : State) (t : Time),
    StartsAwake s 0 ∧
    argBit s 0 4 0 = true ∧
    s.dev.link.pending = none :=
  ⟨argsOf up [0, 0, 0, 0, 1], 9, by decide +kernel⟩

theorem witness_LinkSettings_captured : ∃ (s : State) (t : Time),
    let l := s.dev.link
    StartsAwake s 0 ∧
    argBit s 0 4 0 = false ∧
    (l.pending = none ∧ (here s t).linkAgrees l.staged = true) ∧
    (l.synced = true ∧ l.live.set.topology ≠ .off) :=
  ⟨argsOf (onBus (fun l => { l with staged := l.live })) [0], ms 5, by decide +kernel⟩

theorem witness_LinkSettings_conflict : ∃ (s : State) (t : Time),
    let l := s.dev.link
    StartsAwake s 0 ∧
    argBit s 0 4 0 = false ∧
    (l.pending ≠ none ∨ (here s t).linkAgrees l.staged = false) :=
  ⟨argsOf (onBus (fun l => { l with staged := { l.live with set := { l.live.set with cycleUs := 250 } } })) [0], ms 5, by decide +kernel⟩

theorem witness_LinkSettings_atOnce : ∃ (s : State) (t : Time),
    let l := s.dev.link
    let c := (here s t).clk
    let n := c.edgeFrom (instant s t)
    let free := { c with edgeNo := n, edgeAt := c.edgeTime n, edgeRate := 0 }
    StartsAwake s 0 ∧
    argBit s 0 4 0 = false ∧
    (l.pending = none ∧ (here s t).linkAgrees l.staged = true) ∧
    s.dev.pwr.state = .active ∧
    (l.live.set.topology = .off ∧ l.state = .off ∧ l.claims = []) ∧
    l.staged.set.topology = .bus :=
  ⟨argsOf (devWith up (fun d => d.onLink (fun l => { l with staged := (busLink l).live }))) [0], 9, by decide +kernel⟩

theorem witness_LinkSettings_applies : ∃ (s : State) (t : Time) (p : LinkCommit),
    let l := s.dev.link
    let c := (here s t).clk
    let n := c.edgeFrom (instant s t)
    let free := { c with edgeNo := n, edgeAt := c.edgeTime n, edgeRate := 0 }
    s.dev.pwr.state = .active ∧
    (l.pending = some p ∧ (here s t).linkCommitDue p = true) ∧
    (l.claims = [] ∧ l.state = .joined) ∧
    (p.copy.set.topology ≠ .off ∧ p.copy.set.topology ≠ .ring ∧ l.live.set.leaves p.copy.set = false) :=
  ⟨onBus (fun l => { l with pending := some { copy := { l.live with entries := [] }, from_ := 9, at_ := 0 } }), ms 5,
      { copy := { set := { LinkSet.reset with topology := .bus, node := 3 }, entries := [] }, from_ := 9, at_ := 0 }, by decide +kernel⟩

theorem witness_LinkSettings_leaves : ∃ (s : State) (t : Time) (p : LinkCommit),
    let l := s.dev.link
    let c := (here s t).clk
    let n := c.edgeFrom (instant s t)
    let free := { c with edgeNo := n, edgeAt := c.edgeTime n, edgeRate := 0 }
    s.dev.pwr.state = .active ∧
    (l.pending = some p ∧ (here s t).linkCommitDue p = true) ∧
    (l.claims = [] ∧ l.state = .joined) ∧
    (p.copy.set.topology ≠ .off ∧ l.live.set.leaves p.copy.set = true) :=
  ⟨onBus (fun l => { l with pending := some { copy := { l.live with set := { l.live.set with slots := 15 } }, from_ := 9, at_ := 0 } }), ms 5,
      { copy := { set := { LinkSet.reset with topology := .bus, node := 3, slots := 15 }, entries := theEntries }, from_ := 9, at_ := 0 },
      by decide +kernel⟩

theorem witness_LinkSettings_notDue : ∃ (s : State) (t : Time),
    (∀ p ∈ s.dev.link.pending, (here s t).linkCommitDue p = false) :=
  ⟨onBus (fun l => { l with pending := some { copy := l.live, from_ := 9, at_ := 1 } }), ms 5, by decide +kernel⟩

theorem witness_LinkCommands_send : ∃ (s : State) (t : Time) (b : Basket) (e : SlotEntry),
    let l := s.dev.link
    let n := arg s b 0
    let a := arg32 s b 1
    let k := arg s b 3
    StartsAwake s b ∧
    l.pending = none ∧
    assocGet? n l.live.entries = some e ∧
    ((l.treat n e).kind = 0 ∧ (l.treat n e).owner = l.live.set.node ∧ (l.treat n e).basket = b) ∧
    k ≤ e.maxLen ∧
    HeldRange s b a (2 * k) :=
  ⟨argsOf (onBus (fun l => l)) [2, 0, 8, 4], ms 5, 0, dataEntry, by decide +kernel⟩

theorem witness_LinkCommands_foreign : ∃ (s : State) (t : Time) (b : Basket),
    StartsAwake s b ∧
    ((assocGet? (arg s b 0) s.dev.link.live.entries).all (fun e => (s.dev.link.treat (arg s b 0) e).owner != s.dev.link.live.set.node)) = true :=
  ⟨argsOf (onBus (fun l => l)) [6, 0, 8, 4], ms 5, 0, by decide +kernel⟩

theorem witness_LinkCommands_claim : ∃ (s : State) (t : Time) (c : Basket) (e : SlotEntry),
    let l := s.dev.link
    let n := arg s 0 0
    StartsAwake s 0 ∧
    arg s 0 1 = c.val ∧
    (assocGet? n l.live.entries = some e ∧ e.kind = 2 ∧ l.pending = none) ∧
    (l.state = .joined ∧ 0 < l.live.set.minislots) ∧
    (l.claims.all (fun k => k.entry != n || (!k.inForce && k.node != l.live.set.node))) = true :=
  ⟨argsOf (onBus (fun l => l)) [8, 3], ms 5, 3, { dataEntry with slot := 8, owner := 0, kind := 2, source := .none }, by decide +kernel⟩

theorem witness_LinkCommands_noClaim : ∃ (s : State) (t : Time),
    let l := s.dev.link
    StartsAwake s 0 ∧
    arg s 0 1 < 4 ∧
    (assocGet? (arg s 0 0) l.live.entries).isSome = true :=
  ⟨argsOf (onBus (fun l => l)) [2, 3], ms 5, by decide +kernel⟩

theorem witness_LinkCommands_release : ∃ (s : State) (t : Time) (c : Claim),
    let l := s.dev.link
    StartsAwake s 0 ∧
    (assocGet? (arg s 0 0) l.live.entries).isSome = true ∧
    (l.claimOn (arg s 0 0) = some c ∧ c.node = l.live.set.node) :=
  ⟨argsOf (onBus (fun l => { l with claims := [aClaim] })) [8], ms 5, aClaim, by decide +kernel⟩

theorem witness_LinkCommands_notHeld : ∃ (s : State) (t : Time),
    let l := s.dev.link
    StartsAwake s 0 ∧
    (assocGet? (arg s 0 0) l.live.entries).isSome = true ∧
    l.claimOn (arg s 0 0) = none :=
  ⟨argsOf (onBus (fun l => l)) [8], ms 5, by decide +kernel⟩

theorem witness_LinkCommands_mail : ∃ (s : State) (t : Time) (b : Basket),
    let l := s.dev.link
    let a := arg32 s b 1
    let k := arg s b 3
    StartsAwake s b ∧
    (here s t).mailRight b = true ∧
    HeldRange s b a (2 * k) ∧
    (arg s b 0 % 256 ≤ 64 ∧ k + 1 ≤ l.live.set.maxDyn) ∧
    (l.state = .joined ∧ 0 < l.live.set.minislots) ∧
    l.mailOut[b] = none :=
  ⟨argsOf (onBus (fun l => l)) [64 + 256, 0, 8, 4], ms 5, 0, by decide +kernel⟩

theorem witness_LinkCommands_mailBusy : ∃ (s : State) (t : Time) (b : Basket),
    let l := s.dev.link
    let a := arg32 s b 1
    let k := arg s b 3
    StartsAwake s b ∧
    (here s t).mailRight b = true ∧
    HeldRange s b a (2 * k) ∧
    (arg s b 0 % 256 ≤ 64 ∧ k + 1 ≤ l.live.set.maxDyn) ∧
    (l.state = .joined ∧ 0 < l.live.set.minislots) ∧
    l.mailOut[b] ≠ none :=
  ⟨argsOf (onBus (fun l => { l with mailOut := l.mailOut.set 0 (some [1]) })) [64, 0, 8, 4], ms 5, 0, by decide +kernel⟩

theorem witness_LinkCommands_read : ∃ (s : State) (t : Time) (b : Basket) (m : Mail) (r : List Mail),
    let l := s.dev.link
    let a := arg32 s b 0
    let bytes := wordBytes m.words
    StartsAwake s b ∧
    (here s t).mailRight b = true ∧
    l.mailIn[b] = m :: r ∧
    HeldRange s b a bytes.length :=
  ⟨argsOf (onBus (fun l => { l with mailIn := l.mailIn.set 0 [{ node := 9, basket := 2, words := [3, 4] }] })) [0, 8], ms 5, 0,
      { node := 9, basket := 2, words := [3, 4] }, [], by decide +kernel⟩

theorem witness_LinkCommands_empty : ∃ (s : State) (t : Time) (b : Basket),
    StartsAwake s b ∧
    (here s t).mailRight b = true ∧
    s.dev.link.mailIn[b] = [] ∧
    HeldRange s b (arg32 s b 0) 0 :=
  ⟨argsOf (onBus (fun l => l)) [0, 8], ms 5, 0, by decide +kernel⟩

theorem witness_LinkCommands_rearm : ∃ (s : State) (t : Time),
    let l := s.dev.link
    StartsAwake s 0 ∧
    (l.state = .fenced ∧ l.fence = .guard) :=
  ⟨onBus (fun l => { l with state := .fenced, fence := .guard }), ms 5, by decide +kernel⟩

theorem witness_LinkCommands_noRearm : ∃ (s : State) (t : Time),
    StartsAwake s 0 ∧
    (s.dev.link.state ≠ .fenced ∨ s.dev.link.fence ≠ .guard) :=
  ⟨onBus (fun l => l), ms 5, by decide +kernel⟩

theorem witness_LinkTiming_begins : ∃ (s : State) (t : Time),
    let l := s.dev.link
    (s.dev.pwr.state = .active ∨ s.dev.pwr.state = .boot) ∧
    (l.everSynced = true ∧ instant s t = l.nextCycle) ∧
    l.state = .joined ∧
    (s.dev.wr.live.frame.source ≠ .network ∧ s.dev.rinse.source = .pin) :=
  ⟨onBus (fun l => l), ms 6, by decide +kernel⟩

theorem witness_LinkTiming_joins : ∃ (s : State) (t : Time),
    let l := s.dev.link
    (s.dev.pwr.state = .active ∨ s.dev.pwr.state = .boot) ∧
    (l.everSynced = true ∧ instant s t = l.nextCycle) ∧
    (l.state = .integrate ∧ l.fullCycle = true ∧ l.badPacket = false) ∧
    (l.timeNow ≠ [] ∧ l.timeLast.all (fun n => l.timeNow.contains n) = true) ∧
    l.cycleE.any (fun e => decide (e.2.natAbs ≤ l.live.set.offsetLimit * 76800)) = true :=
  ⟨onBus (fun l => { l with state := .integrate, timeNow := [1], cycleE := some (1, 76800) }), ms 6, by decide +kernel⟩

theorem witness_LinkTiming_holdover : ∃ (s : State) (t : Time),
    let l := s.dev.link
    (s.dev.pwr.state = .watch ∨ s.dev.pwr.state = .hold) ∧
    (l.everSynced = true ∧ instant s t = l.nextCycle) ∧
    s.dev.wr.live.frame.source ≠ .network :=
  ⟨devWith (onBus (fun l => l)) (fun d => d.onPwr (fun w => { w with state := .watch })), ms 6, by decide +kernel⟩

theorem witness_LinkTiming_notYet : ∃ (s : State) (t : Time),
    let l := s.dev.link
    (l.everSynced = false ∨ instant s t ≠ l.nextCycle) :=
  ⟨onBus (fun l => l), ms 5, by decide +kernel⟩

theorem witness_LinkTiming_corrects : ∃ (s : State) (t : Time) (k : Nat) (e : Int),
    let l := s.dev.link
    (s.dev.pwr.state = .active ∨ s.dev.pwr.state = .boot) ∧
    l.cycleE = some (k, e) ∧
    (l.synced = true ∧ l.corrected = false) ∧
    (l.at l.live.set.nitAt ≤ instant s t ∧ instant s t < l.nextCycle) :=
  ⟨onBus (fun l => { l with cycleE := some (1, 76800) }), ms 5 + us 960, 1, 76800, by decide +kernel⟩

theorem witness_LinkTiming_noOffset : ∃ (s : State) (t : Time),
    s.dev.link.cycleE = none :=
  ⟨onBus (fun l => l), ms 5 + us 960, by decide +kernel⟩

theorem witness_LinkTiming_requests : ∃ (s : State) (t : Time),
    let l := s.dev.link
    (s.dev.pwr.state = .active ∨ s.dev.pwr.state = .boot) ∧
    (l.live.set.topology = .ring ∧ l.everSynced = true ∧ l.guardBlocked = false) ∧
    (l.state = .joined ∨ l.state = .listen) ∧
    (l.counter % 8 = 0 ∧ instant s t = l.at l.live.set.staticUs) :=
  ⟨onRing (fun l => l), ms 5 + us 800, by decide +kernel⟩

theorem witness_LinkTiming_notAsked : ∃ (s : State) (t : Time),
    let l := s.dev.link
    (l.live.set.topology ≠ .ring ∨ l.counter % 8 ≠ 0) :=
  ⟨onBus (fun l => l), ms 5 + us 800, by decide +kernel⟩

theorem witness_LinkTiming_coldstarts : ∃ (s : State) (t : Time) (p : Nat),
    let l := s.dev.link
    (s.dev.pwr.state = .active ∨ s.dev.pwr.state = .boot) ∧
    (l.state = .listen ∧ l.live.set.coldstart = some p) ∧
    l.stateAt + us ((2 + p) * l.live.set.cycleUs) ≤ instant s t ∧
    l.everSynced = true :=
  ⟨onBus (fun l => { l with state := .listen, stateAt := 9, live := { l.live with set := { l.live.set with coldstart := some 1 } } }), ms 9, 1,
      by decide +kernel⟩

theorem witness_LinkTiming_forms : ∃ (s : State) (t : Time) (p : Nat),
    let l := s.dev.link
    (s.dev.pwr.state = .active ∨ s.dev.pwr.state = .boot) ∧
    (l.state = .listen ∧ l.live.set.coldstart = some p) ∧
    l.stateAt + us ((2 + p) * l.live.set.cycleUs) ≤ instant s t ∧
    l.everSynced = false :=
  ⟨onBus (fun l => { l with state := .listen, everSynced := false, stateAt := 9,
                            live := { l.live with set := { l.live.set with coldstart := some 1 } } }), ms 9, 1, by decide +kernel⟩

theorem witness_LinkTiming_listens : ∃ (s : State) (t : Time),
    let l := s.dev.link
    (s.dev.pwr.state = .active ∨ s.dev.pwr.state = .boot) ∧
    (l.state = .listen ∧ l.live.set.coldstart = none) ∧
    l.stateAt + us (2 * l.live.set.cycleUs) ≤ instant s t :=
  ⟨onBus (fun l => { l with state := .listen, stateAt := 9 }), ms 9, by decide +kernel⟩

theorem witness_LinkTiming_notListening : ∃ (s : State) (t : Time),
    s.dev.link.state ≠ .listen :=
  ⟨onBus (fun l => l), ms 9, by decide +kernel⟩

theorem witness_LinkTiming_loses : ∃ (s : State) (t : Time) (r : Nat),
    let l := s.dev.link
    (s.dev.pwr.state = .active ∨ s.dev.pwr.state = .boot) ∧
    l.state = .joined ∧
    (l.live.set.syncLoss ≤ l.missCycles ∧ r = 1) ∨ (l.missCycles < l.live.set.syncLoss ∧ 2 ≤ l.offCycles ∧
        r = 2) ∨ (l.missCycles < l.live.set.syncLoss ∧ l.offCycles < 2 ∧ 64 ≤ l.clampCycles ∧ r = 3) :=
  ⟨onBus (fun l => { l with offCycles := 2 }), ms 9, 2, by decide +kernel⟩

theorem witness_LinkTiming_keepsSync : ∃ (s : State) (t : Time),
    let l := s.dev.link
    (s.dev.link.state ≠ .joined ∨ (l.missCycles < l.live.set.syncLoss ∧ l.offCycles < 2 ∧ l.clampCycles < 64)) :=
  ⟨onBus (fun l => { l with offCycles := 1 }), ms 9, by decide +kernel⟩

theorem witness_LinkTiming_takesOver : ∃ (s : State) (t : Time) (p : Nat),
    let l := s.dev.link
    (s.dev.pwr.state = .active ∨ s.dev.pwr.state = .boot) ∧
    (l.live.set.coldstart = some p ∧ l.live.set.topology = .ring ∧ l.state = .joined) ∧
    (l.root ≠ l.live.set.node ∧ 2 + p ≤ l.noStartup) :=
  ⟨onRing (fun l => { l with noStartup := 3, live := { l.live with set := { l.live.set with coldstart := some 1 } } }), ms 9, 1, by decide +kernel⟩

theorem witness_LinkTiming_noTakeover : ∃ (s : State) (t : Time),
    (s.dev.link.live.set.coldstart = none ∨ s.dev.link.root = s.dev.link.live.set.node) :=
  ⟨onRing (fun l => l), ms 9, by decide +kernel⟩

theorem witness_LinkTraffic_reference : ∃ (s : State) (t : Time) (n : Fin 512) (e : SlotEntry),
    let l := s.dev.link
    (s.dev.pwr.state = .active ∨ s.dev.pwr.state = .boot) ∧
    (assocGet? n.val l.entries = some e ∧ e.owner = l.live.set.node ∧ e.inCycle l.counter = true) ∧
    instant s t = l.at (e.slot * l.live.set.slotUs + l.live.set.apoUs) ∧
    (l.guardBlocked = false ∧ l.live.set.topology ≠ .ring ∧ l.claims = [] ∧ l.entryPorts e ≠ []) ∧
    e.kind = 1 ∧
    (l.state = .joined ∨ l.state = .coldstart) :=
  ⟨onBus (fun l => l), ms 5 + us 52, 4, { dataEntry with slot := 1, kind := 1, rank := 1, source := .none, maxLen := 8 }, by decide +kernel⟩

theorem witness_LinkTraffic_data : ∃ (s : State) (t : Time) (n : Fin 512) (e : SlotEntry) (ws : List Word) (at_ : Time),
    let l := s.dev.link
    (s.dev.pwr.state = .active ∨ s.dev.pwr.state = .boot) ∧
    (assocGet? n.val l.entries = some e ∧ e.owner = l.live.set.node ∧ e.inCycle l.counter = true) ∧
    instant s t = l.at (e.slot * l.live.set.slotUs + l.live.set.apoUs) ∧
    (l.guardBlocked = false ∧ l.live.set.topology ≠ .ring ∧ l.claims = [] ∧ l.entryPorts e ≠ []) ∧
    (e.kind = 0 ∧ l.state = .joined ∧ e.source = .buffer) ∧
    (assocGet? n.val l.buffers = some (ws, at_) ∧ at_ + us 10 ≤ instant s t) :=
  ⟨onBus (fun l => { l with buffers := [(2, [3, 4], 9)] }), ms 5 + us 252, 2, dataEntry, [3, 4], 9, by decide +kernel⟩

theorem witness_LinkTraffic_null : ∃ (s : State) (t : Time) (n : Fin 512) (e : SlotEntry),
    let l := s.dev.link
    (s.dev.pwr.state = .active ∨ s.dev.pwr.state = .boot) ∧
    (assocGet? n.val l.entries = some e ∧ e.owner = l.live.set.node ∧ e.inCycle l.counter = true) ∧
    instant s t = l.at (e.slot * l.live.set.slotUs + l.live.set.apoUs) ∧
    (l.guardBlocked = false ∧ l.live.set.topology ≠ .ring ∧ l.claims = [] ∧ l.entryPorts e ≠ []) ∧
    (e.kind = 0 ∧ l.state = .joined ∧ e.source = .buffer) ∧
    (assocGet? n.val l.buffers = none ∧ e.silent = false) :=
  ⟨onBus (fun l => l), ms 5 + us 252, 2, dataEntry, by decide +kernel⟩

theorem witness_LinkTraffic_silent : ∃ (s : State) (t : Time) (n : Fin 512) (e : SlotEntry),
    let l := s.dev.link
    (s.dev.pwr.state = .active ∨ s.dev.pwr.state = .boot) ∧
    (assocGet? n.val l.entries = some e ∧ e.owner = l.live.set.node ∧ e.inCycle l.counter = true) ∧
    instant s t = l.at (e.slot * l.live.set.slotUs + l.live.set.apoUs) ∧
    (l.guardBlocked = false ∧ l.live.set.topology ≠ .ring ∧ l.claims = [] ∧ l.entryPorts e ≠ []) ∧
    (e.kind = 0 ∧ l.state = .joined ∧ e.source = .buffer) ∧
    (assocGet? n.val l.buffers = none ∧ e.silent = true) :=
  ⟨onBus (fun l => { l with live := { l.live with entries := [(2, { dataEntry with silent := true })] } }), ms 5 + us 252, 2,
      { dataEntry with silent := true }, by decide +kernel⟩

theorem witness_LinkTraffic_startup : ∃ (s : State) (t : Time) (n : Fin 512),
    let l := s.dev.link
    (s.dev.pwr.state = .active ∨ s.dev.pwr.state = .boot) ∧
    (l.live.set.topology = .ring ∧ l.root = l.live.set.node) ∧
    (l.state = .joined ∨ l.state = .coldstart) ∧
    (instant s t = l.at (l.live.set.nitAt + l.live.set.apoUs) ∧ l.guardBlocked = false) ∧
    ((l.ports[1]).sendingBreak = false ∧ (l.ports[3]).sendingBreak = false) :=
  ⟨onRing (fun l => { l with root := 3 }), ms 5 + us 952, 2, by decide +kernel⟩

theorem witness_LinkTraffic_notMine : ∃ (s : State) (t : Time) (n : Fin 512),
    let l := s.dev.link
    (l.state = .listen ∨ l.state = .integrate ∨ l.state = .fenced ∨ l.state = .off) :=
  ⟨State.reset, 9, 2, by decide +kernel⟩

theorem witness_LinkTraffic_dynamic : ∃ (s : State) (t : Time) (m : Nat),
    let l := s.dev.link
    let ws := (here s t).announcePayload
    let len := l.live.set.packetNs ws.length
    (s.dev.pwr.state = .active ∨ s.dev.pwr.state = .boot) ∧
    (l.state = .joined ∧ l.live.set.topology = .bus ∧ l.guardBlocked = false) ∧
    (m < l.live.set.minislots ∧ instant s t = l.at (l.live.set.staticUs + m * l.live.set.miniUs)) ∧
    (l.dynOwner 0 m = some l.live.set.node ∧ (l.dyn[(0 : Fin 2)]).sent = false ∧ l.dynOwner 1 m ≠ some l.live.set.node) ∧
    (l.dynPacket = none ∧ l.notices = [] ∧ l.claims = [] ∧ l.announceDue = true) ∧
    ws.length ≤ l.live.set.maxDyn ∧
    (m + (len + 1000 * l.live.set.miniUs - 1) / (1000 * l.live.set.miniUs) + 1 ≤ l.live.set.minislots ∧ 1 ≤ l.live.set.miniUs) :=
  ⟨onBus (fun l => { l with announceDue := true, dyn := Vector.replicate 2 DynChannel.reset |>.set 1 { next := 9, idx := 0, sent := false } }),
      ms 5 + us 802, 2, by decide +kernel⟩

theorem witness_LinkTraffic_notTurn : ∃ (s : State) (t : Time) (m : Nat),
    ((here s t).lset.minislots ≤ m ∨ s.dev.link.live.set.channels.all (fun c => s.dev.link.dynOwner c m != some s.dev.link.live.set.node) = true) :=
  ⟨onBus (fun l => l), ms 5 + us 803, 3, by decide +kernel⟩

theorem witness_LinkTraffic_announces : ∃ (s : State) (t : Time),
    let l := s.dev.link
    (s.dev.pwr.state = .active ∨ s.dev.pwr.state = .boot) ∧
    (l.state = .joined ∧ l.announceAt + l.live.set.announce ≤ l.cycleIndex) :=
  ⟨onBus (fun l => { l with cycleIndex := 64 }), ms 5, by decide +kernel⟩

theorem witness_LinkTraffic_notAnnounced : ∃ (s : State) (t : Time),
    s.dev.link.cycleIndex < s.dev.link.announceAt + s.dev.link.live.set.announce :=
  ⟨onBus (fun l => l), ms 5, by decide +kernel⟩

theorem witness_LinkTraffic_delivers : ∃ (s : State) (t : Time) (rx : Reception) (k : Nat),
    let l := s.dev.link
    let p := Packet.read rx.bytes
    (s.dev.pwr.state = .active ∨ s.dev.pwr.state = .boot) ∧
    (l.state = .joined ∧ l.live.set.topology = .bus) ∧
    (frameFault false rx p = none ∧ (here s t).placeFault 0 rx p = none) ∧
    (p.type = 1 ∧ p.node ≠ l.live.set.node ∧ p.slot < 255) ∧
    (l.partners.toList[p.node - 1]?).any (fun q => q.state == .present) = true ∧
    (∀ h : Fin 16, s.dev.models[h] = none) ∧
    (here s t).blockFrame p.slot = some k ∧
    l.minislotAt rx.sop = none :=
  ⟨hearing, ms 5 + us 390, received dataPacket, 4, by decide +kernel⟩

theorem witness_LinkTraffic_codes : ∃ (s : State) (t : Time) (rx : Reception),
    let l := s.dev.link
    (s.dev.pwr.state = .active ∨ s.dev.pwr.state = .boot) ∧
    (l.state = .joined ∧ l.live.set.topology = .bus) ∧
    rx.codeOk = false ∧
    l.minislotAt rx.sop = none :=
  ⟨hearing, ms 5 + us 390, { received dataPacket with codeOk := false }, by decide +kernel⟩

theorem witness_LinkTraffic_unused : ∃ (s : State) (t : Time) (port : Fin 4) (rx : Reception),
    let l := s.dev.link
    (l.state = .off ∨ l.live.set.uses port = false) :=
  ⟨hearing, ms 5 + us 390, 1, received dataPacket, by decide +kernel⟩

theorem witness_PartnersAndGuards_silent : ∃ (s : State) (t : Time) (i : Fin 64),
    let l := s.dev.link
    let q := l.partners[i]
    (s.dev.pwr.state = .active ∨ s.dev.pwr.state = .boot) ∧
    (q.state = .present ∧ l.live.set.silence < q.quiet) :=
  ⟨onBus (fun l => { l with partners := updAt l.partners 8 (fun q => { q with state := .present, quiet := 9 }) }), 9, 8, by decide +kernel⟩

theorem witness_PartnersAndGuards_gone : ∃ (s : State) (t : Time) (i : Fin 64),
    let l := s.dev.link
    let q := l.partners[i]
    (s.dev.pwr.state = .active ∨ s.dev.pwr.state = .boot) ∧
    (q.state ≠ .gone ∧ l.live.set.gone < q.quiet) :=
  ⟨onBus (fun l => { l with partners := updAt l.partners 8 (fun q => { q with state := .silent, quiet := 257 }) }), 9, 8, by decide +kernel⟩

theorem witness_PartnersAndGuards_heardOf : ∃ (s : State) (t : Time) (i : Fin 64),
    let l := s.dev.link
    (l.partners[i].quiet ≤ l.live.set.silence ∧ l.partners[i].quiet ≤ l.live.set.gone) :=
  ⟨hearing, 9, 8, by decide +kernel⟩

theorem witness_PartnersAndGuards_claims : ∃ (s : State) (t : Time) (n : Fin 512) (c : Claim) (e : SlotEntry),
    let l := s.dev.link
    (s.dev.pwr.state = .active ∨ s.dev.pwr.state = .boot) ∧
    (l.synced = true ∧ l.counter = 0 ∧ instant s t = l.cycleAt) ∧
    l.claims.find? (fun k => k.entry == n.val && !k.inForce && decide (2 ≤ k.unopposed)) = some c ∧
    (assocGet? n.val l.live.entries = some e ∧ e.kind = 2 ∧ l.claimOn n.val = none) :=
  ⟨onBus (fun l => { l with claims := [{ aClaim with inForce := false, unopposed := 2 }] }), ms 5, 8,
      { aClaim with inForce := false, unopposed := 2 }, { dataEntry with slot := 8, owner := 0, kind := 2, source := .none }, by decide +kernel⟩

theorem witness_PartnersAndGuards_reverts : ∃ (s : State) (t : Time) (n : Fin 512) (c : Claim) (e : SlotEntry),
    let l := s.dev.link
    (s.dev.pwr.state = .active ∨ s.dev.pwr.state = .boot) ∧
    (l.synced = true ∧ l.counter = 0 ∧ instant s t = l.cycleAt) ∧
    (l.claimOn n.val = some c ∧ l.live.set.revert ≤ c.silentFor) ∧
    assocGet? n.val l.live.entries = some e :=
  ⟨onBus (fun l => { l with claims := [{ aClaim with silentFor := 64 }] }), ms 5, 8, { aClaim with silentFor := 64 },
      { dataEntry with slot := 8, owner := 0, kind := 2, source := .none }, by decide +kernel⟩

theorem witness_PartnersAndGuards_noClaim : ∃ (s : State) (t : Time) (n : Fin 512),
    s.dev.link.claims = [] :=
  ⟨hearing, ms 5, 8, by decide +kernel⟩

theorem witness_PartnersAndGuards_drifts : ∃ (s : State) (t : Time) (v : Nat),
    let l := s.dev.link
    let n := 40 * l.live.set.cycleUs
    let off := (v - n) + (n - v)
    let dev := off * 10000 / max 1 n
    (s.dev.pwr.state = .active ∨ s.dev.pwr.state = .boot) ∧
    (n < 200 * off ∧ l.state = .joined ∧ l.guardBlocked = false) :=
  ⟨hearing, ms 5, 40201, by decide +kernel⟩

theorem witness_PartnersAndGuards_blocks : ∃ (s : State) (t : Time) (v : Nat),
    let l := s.dev.link
    let n := 40 * l.live.set.cycleUs
    let off := (v - n) + (n - v)
    let dev := off * 10000 / max 1 n
    (s.dev.pwr.state = .active ∨ s.dev.pwr.state = .boot) ∧
    (n < 200 * off ∧ l.state ≠ .joined ∧ l.state ≠ .off ∧ l.guardBlocked = false) :=
  ⟨onBus (fun l => { l with state := .listen }), ms 5, 39799, by decide +kernel⟩

theorem witness_PartnersAndGuards_steady : ∃ (s : State) (t : Time) (v : Nat),
    let l := s.dev.link
    let n := 40 * l.live.set.cycleUs
    let off := (v - n) + (n - v)
    let dev := off * 10000 / max 1 n
    (s.dev.pwr.state = .active ∨ s.dev.pwr.state = .boot) ∧
    (200 * off ≤ n ∧ l.state ≠ .off) :=
  ⟨hearing, ms 5, 40200, by decide +kernel⟩

theorem witness_PartnersAndGuards_releases : ∃ (s : State) (t : Time) (v : Nat),
    let l := s.dev.link
    let n := 40 * l.live.set.cycleUs
    let off := (v - n) + (n - v)
    let dev := off * 10000 / max 1 n
    (s.dev.pwr.state = .active ∨ s.dev.pwr.state = .boot) ∧
    (200 * off ≤ n ∧ l.guardBlocked = true ∧ 64 ≤ l.guardGood) :=
  ⟨onBus (fun l => { l with guardBlocked := true, guardGood := 64 }), ms 5, 39800, by decide +kernel⟩

theorem witness_PartnersAndGuards_notReleased : ∃ (s : State) (t : Time) (v : Nat),
    let l := s.dev.link
    let n := 40 * l.live.set.cycleUs
    let off := (v - n) + (n - v)
    let dev := off * 10000 / max 1 n
    (l.guardBlocked = false ∨ l.guardGood < 64 ∨ n < 200 * off) :=
  ⟨onBus (fun l => { l with guardBlocked := true, guardGood := 63 }), ms 5, 40000, by decide +kernel⟩

theorem witness_PartnersAndGuards_violates : ∃ (s : State) (t : Time) (v : Nat),
    let l := s.dev.link
    let at_ := v * 19200 * l.guardExpected / max 1 l.guardCount
    (s.dev.pwr.state = .active ∨ s.dev.pwr.state = .boot) ∧
    (l.state ≠ .off ∧ l.state ≠ .fenced ∧ l.guardViolations < 7) ∧
    l.live.set.channels.any (fun c => !l.gateOpen c at_ none) = true :=
  ⟨hearing, ms 5, 40, by decide +kernel⟩

theorem witness_PartnersAndGuards_fences : ∃ (s : State) (t : Time) (v : Nat),
    let l := s.dev.link
    let at_ := v * 19200 * l.guardExpected / max 1 l.guardCount
    (s.dev.pwr.state = .active ∨ s.dev.pwr.state = .boot) ∧
    (l.state ≠ .off ∧ l.state ≠ .fenced ∧ l.guardViolations = 7) ∧
    l.live.set.channels.any (fun c => !l.gateOpen c at_ none) = true :=
  ⟨onBus (fun l => { l with guardViolations := 7 }), ms 5, 40, by decide +kernel⟩

theorem witness_PartnersAndGuards_open : ∃ (s : State) (t : Time) (v : Nat),
    let l := s.dev.link
    let at_ := v * 19200 * l.guardExpected / max 1 l.guardCount
    l.live.set.channels.all (fun c => l.gateOpen c at_ none) = true :=
  ⟨State.reset, 9, 40, by decide +kernel⟩

theorem witness_PartnersAndGuards_cuts : ∃ (s : State) (t : Time) (i : Fin 4),
    let l := s.dev.link
    (s.dev.pwr.state = .active ∨ s.dev.pwr.state = .boot) ∧
    (l.live.set.isHub = true ∧ l.branchCut[i] = none ∧ 3 ≤ l.branchBlocked[i]) :=
  ⟨onHub (fun l => { l with branchBlocked := l.branchBlocked.set 2 3 }), ms 5, 2, by decide +kernel⟩

theorem witness_PartnersAndGuards_notCut : ∃ (s : State) (t : Time) (i : Fin 4),
    let l := s.dev.link
    (l.live.set.isHub = false ∨ l.branchBlocked[i] < 3) :=
  ⟨hearing, ms 5, 2, by decide +kernel⟩

theorem witness_PartnersAndGuards_readmits : ∃ (s : State) (t : Time) (i : Fin 4),
    let l := s.dev.link
    (s.dev.pwr.state = .active ∨ s.dev.pwr.state = .boot) ∧
    (l.branchCut[i] = some 0 ∧ instant s t = l.cycleAt) :=
  ⟨onHub (fun l => { l with branchCut := l.branchCut.set 2 (some 0) }), ms 5, 2, by decide +kernel⟩

theorem witness_PartnersAndGuards_staysCut : ∃ (s : State) (t : Time) (i : Fin 4),
    let l := s.dev.link
    l.branchCut[i] ≠ some 0 :=
  ⟨onHub (fun l => { l with branchCut := l.branchCut.set 2 (some 1) }), ms 5, 2, by decide +kernel⟩

theorem witness_PartnersAndGuards_breaks : ∃ (s : State) (t : Time) (up_ : Bool),
    let l := s.dev.link
    let p : Fin 4 := if up_ = true then 0 else 2
    let q : Fin 4 := if up_ = true then 3 else 1
    (s.dev.pwr.state = .active ∨ s.dev.pwr.state = .boot) ∧
    (l.live.set.topology = .ring ∧ l.state ≠ .off) ∧
    l.ports[p].broken = false :=
  ⟨onRing (fun l => l), ms 5, true, by decide +kernel⟩

theorem witness_PartnersAndGuards_stillBroken : ∃ (s : State) (t : Time) (up_ : Bool),
    let l := s.dev.link
    let p : Fin 4 := if up_ = true then 0 else 2
    (s.dev.pwr.state = .active ∨ s.dev.pwr.state = .boot) ∧
    (l.live.set.topology = .ring ∧ l.state ≠ .off) ∧
    l.ports[p].broken = true :=
  ⟨onRing (fun l => l.onPort 0 (fun q => { q with broken := true, breakFree := 5 })), ms 5, true, by decide +kernel⟩

theorem witness_PartnersAndGuards_stops : ∃ (s : State) (t : Time) (up_ : Bool),
    let l := s.dev.link
    let p : Fin 4 := if up_ = true then 0 else 2
    let q : Fin 4 := if up_ = true then 3 else 1
    (s.dev.pwr.state = .active ∨ s.dev.pwr.state = .boot) ∧
    (l.ports[p].broken = true ∧ l.ports[q].sendingBreak = true ∧ 64 ≤ l.ports[p].breakFree) :=
  ⟨onRing (fun l => (l.onPort 0 (fun q => { q with broken := true, breakFree := 64 })).onPort 3 (fun q => { q with sendingBreak := true })), ms 5,
      true, by decide +kernel⟩

theorem witness_PartnersAndGuards_repairs : ∃ (s : State) (t : Time) (up_ : Bool),
    let l := s.dev.link
    let p : Fin 4 := if up_ = true then 0 else 2
    let q : Fin 4 := if up_ = true then 3 else 1
    (s.dev.pwr.state = .active ∨ s.dev.pwr.state = .boot) ∧
    (l.counter = 0 ∧ instant s t = l.cycleAt) ∧
    (l.ports[p].broken = true ∧ l.ports[q].sendingBreak = false ∧ 64 ≤ l.ports[p].breakFree) :=
  ⟨onRing (fun l => l.onPort 0 (fun q => { q with broken := true, breakFree := 64 })), ms 5, true, by decide +kernel⟩

theorem witness_PartnersAndGuards_notRing : ∃ (s : State) (t : Time) (p : Fin 4),
    let l := s.dev.link
    (l.live.set.topology ≠ .ring ∧ l.ports[p].broken = false) :=
  ⟨hearing, ms 5, 0, by decide +kernel⟩

end
end

namespace Sys2Proof.Proofs
open Machine Laws

/-! ## Vectors and bits -/

/-- Entry i of a vector after a map with numbers. -/
theorem vmap_getElem {α β : Type} {n : Nat} (v : Vector α n) (f : Nat → α → β) (i : Nat) (hi : i < n) : (vmap v f)[i] = f i v[i] := by
  simp [vmap]

theorem getElem?_toList_fin {α : Type} {n : Nat} (v : Vector α n) (i : Fin n) : v.toList[i.val]? = some v[i] := by simp

theorem bit_ofNat_toNat {w n i : Nat} (hi : i < w) : bit (BitVec.ofNat w n).toNat i = bit n i := by
  have h : ∀ x, bit x i = x.testBit i := fun x => by simp [bit, Nat.testBit_eq_decide_div_mod_eq, beq_eq_decide]
  rw [h, h, BitVec.toNat_ofNat, Nat.testBit_mod_two_pow]
  simp [hi]

/-! ## Rows -/

/-- A row that answers a next state with the device d. -/
theorem does_of {i : Instr} {s : State} {t : Time} {changed : List Part} {effect : Dev → Prop} {d : Dev}
    (hi : exec i s = .next { s with dev := d }) (hk : Keeps changed (here s t) d) (he : effect d) : Does i s t changed effect :=
  ⟨_, hi, rfl, rfl, rfl, hk, he⟩

/-- A row that leaves the device as it finds it. -/
theorem does_nothing {i : Instr} {s : State} {t : Time} (hi : exec i s = .next { s with dev := here s t }) : Does i s t [] (fun _ => True) :=
  does_of hi (Keeps.refl _ _) trivial

/-- A frame without a part that turns out the same. -/
theorem Keeps.without {ps qs : List Part} {d e : Dev} (q : Part) (h : Keeps ps d e) (hq : q.same d e) (hs : ∀ p ∈ ps, p = q ∨ p ∈ qs) :
    Keeps qs d e := by
  intro p hp
  by_cases hm : p ∈ ps
  · rcases hs p hm with rfl | hm
    · exact hq
    · exact absurd hm hp
  · exact h p hm

/-! ## Commands that pass their checks -/

section
variable {i : Instr} {c : Command} {s : State} {t : Time} {b : Basket}

@[simp] theorem operands_arg (n : Fin 8) : (operands s t b).arg n = arg s b n := rfl

@[simp] theorem operands_argBit (n : Fin 8) (k : Nat) : (operands s t b).argBit n k = argBit s b n k := rfl

@[simp] theorem operands_arg32 (n : Fin 7) : (operands s t b).arg32 n.val = arg32 s b n := by
  have h : n.val < 8 ∧ n.val + 1 < 8 := by omega
  simp only [Ctx.arg32, at?, h, dif_pos]
  rfl

@[simp] theorem judged_wr : (judged c s t b).wr = s.dev.wr := rfl

/-- The checks of R815 for a command with which WATCH and a boot record have nothing to do. -/
theorem judge_awake (hs : StartsAwake s b) (h0 : c.sup = true → b = 0) (h1 : c.names (operands s t b) (judged c s t b) = true)
    (h2 : c.zero (operands s t b) (judged c s t b) = false) (h3 : c.range (operands s t b) (judged c s t b) = none) :
    c.judge (operands s t b) (judged c s t b) = c.state (operands s t b) (judged c s t b) := by
  have e0 : (c.sup && (operands s t b).b != 0) = false := by
    cases hc : c.sup
    · rfl
    · show (b != 0) = false
      simp [h0 hc]
  have e1 : ((judged c s t b).pwr.state == Power.watch) = false := by
    have : (judged c s t b).pwr.state ≠ .watch := hs.2
    simpa using this
  have e2 : (operands s t b).boot = false := rfl
  simp only [Command.judge, e0, e1, e2, h1, h2, h3, Bool.not_true, Bool.false_and, Bool.false_eq_true, if_false]

/-- A command that passes its checks and changes neither the host side nor the clock completes in its step (R777, R813). -/
theorem completes_awake {changed : List Part} {effect : Dev → Prop} {d : Dev} (hi : exec i s = hostCommand c t b s) (hs : StartsAwake s b)
    (h0 : c.sup = true → b = 0) (h1 : c.names (operands s t b) (judged c s t b) = true)
    (h2 : c.zero (operands s t b) (judged c s t b) = false) (h3 : c.range (operands s t b) (judged c s t b) = none)
    (h4 : c.state (operands s t b) (judged c s t b) = none) (ha : c.act (operands s t b) (judged c s t b) = (d, .ok []))
    (hk : Keeps changed (judged c s t b) d) (hn : Part.host ∉ changed ∧ Part.clk ∉ changed) (he : effect (d.complete b (success []))) :
    Completes i s t b 0 0 0 0 changed effect :=
  completes_of i c s t b 0 0 0 0 changed effect d [] hi hs.1 ((judge_awake hs h0 h1 h2 h3).trans h4) ha rfl (hk .host hn.1)
    (Keeps.mono hk (fun _ hp => List.mem_cons_of_mem _ hp)) (hk .clk hn.2) he

/-- The host side once a command that has just been accepted completes, at the instant of the device (R777). -/
theorem complete_host_at {d : Dev} (hd : d.host = (judged c s t b).host) (e r0 r1 r2 r3 : Word) :
    (d.complete b { error := e, results := ⟨#[r0, r1, r2, r3], rfl⟩ }).host = doneHost s.dev.host b e r0 r1 r2 r3 d.now := by
  show ({ d.host with pages := upd d.host.pages b (fun p => p.complete _ d.now) } : HostSide) = _
  rw [hd]
  simp only [judged, Dev.onPage, Dev.onHost, upd_eq_set, Dev.tick, doneHost, donePage, Page.complete, Page.accept, Page.raise, Irq.bit,
    Fin.getElem_fin, Vector.getElem_set_self, Vector.set_set]
  rfl

/-- A command that its state check refuses does nothing else (R778). -/
theorem refuses_awake {e : Err} (hi : exec i s = hostCommand c t b s) (hs : StartsAwake s b)
    (h0 : c.sup = true → b = 0) (h1 : c.names (operands s t b) (judged c s t b) = true)
    (h2 : c.zero (operands s t b) (judged c s t b) = false) (h3 : c.range (operands s t b) (judged c s t b) = none)
    (h4 : c.state (operands s t b) (judged c s t b) = some e) (he : e ≠ .noSuch) : Refuses i s t b e := by
  refine ⟨_, hi.trans (hostCommand_refused c s t b e hs.1 ((judge_awake hs h0 h1 h2 h3).trans h4)), rfl, rfl, rfl, ?_, ?_⟩
  · rw [if_neg he]
    exact Keeps.andThen (complete_keeps _ _ _) (fun _ hp => hp) (onPage_keeps _ _ _)
  · rw [if_neg he]
    exact complete_host_at (c := c) rfl _ _ _ _ _

end
end Sys2Proof.Proofs

namespace Sys2Proof.Proofs
open Machine Laws

/-! ## WR_SET_PLAN, WR_SET_CHANNEL, WR_SET_FRAME (R50 to R52, R170, R172) -/

section
variable {s : State} {t : Time}

@[simp] theorem complete_wr (d : Dev) (b : Basket) (o : CmdOutcome) : (d.complete b o).wr = d.wr := rfl

@[simp] theorem operands_tach (d : Dev) (n : Nat) : (operands s t 0).tach d n = at? d.grants[(0 : Basket)].tachs n false := rfl

@[simp] theorem judged_grants {c : Command} {b : Basket} : (judged c s t b).grants = s.dev.grants := rfl

/-- A command that stages Wringer settings. -/
theorem completes_stageWr {i : Instr} {c : Command} {f : WringerSet → WringerSet} (hi : exec i s = hostCommand c t 0 s) (hs : StartsAwake s 0)
    (h1 : c.names (operands s t 0) (judged c s t 0) = true) (h2 : c.zero (operands s t 0) (judged c s t 0) = false)
    (h3 : c.range (operands s t 0) (judged c s t 0) = none) (h4 : c.state (operands s t 0) (judged c s t 0) = none)
    (ha : c.act (operands s t 0) (judged c s t 0) = ((judged c s t 0).stageWr f, .ok [])) :
    Completes i s t 0 0 0 0 0 [.wr] (fun d => d.wr = { s.dev.wr with staged := f s.dev.wr.staged }) :=
  completes_awake hi hs (fun _ => rfl) h1 h2 h3 h4 ha (stageWr_keeps _ _) (by decide) rfl

theorem wrSetPlan_wide (pl : Fin 8) (hs : StartsAwake s 0) (h0 : arg s 0 0 = pl.val) (h1 : arg s 0 1 = 0xFF) (h2 : arg s 0 2 % 32 ≤ 24)
    (h3 : arg s 0 2 / 256 % 16 ≤ 8) (h4 : 128000 ≤ arg32 s 0 3 ∧ arg32 s 0 3 ≤ 10240000) (h5 : 4 ≤ arg s 0 5 ∧ arg s 0 5 ≤ 40)
    (h6 : 100 ≤ arg s 0 6 ∧ arg s 0 6 ≤ 5000) :
    let p := { s.dev.wr.staged.plans[pl] with spectral := arg s 0 2 % 32, envelope := arg s 0 2 / 256 % 16, carrier := arg32 s 0 3,
                                                 carrierQ := arg s 0 5, corner := arg s 0 6 }
    Completes (.wrSetPlan t 0) s t 0 0 0 0 0 [.wr]
      (fun d => d.wr = { s.dev.wr with staged := { s.dev.wr.staged with plans := s.dev.wr.staged.plans.set pl.val p } }) := by
  intro p
  have a3 : (operands s t 0).arg32 3 = arg32 s 0 3 := operands_arg32 3
  refine completes_stageWr (f := fun w => { w with
      plans := w.plans.set pl.val { w.plans[pl] with
        spectral := arg s 0 2 % 32, envelope := arg s 0 2 / 256 % 16, carrier := arg32 s 0 3, carrierQ := arg s 0 5, corner := arg s 0 6 } })
    rfl hs ?_ rfl ?_ rfl ?_
  · simp [cmdWrSetPlan, h1]
  · simp [cmdWrSetPlan, argRange, bits, h0, h1, h2, h3, h4, h5, h6, a3]
  · simp [cmdWrSetPlan, bits, h0, h1, a3]

theorem wrSetPlan_band (pl : Fin 8) (n : Fin 32) (hs : StartsAwake s 0) (h0 : arg s 0 0 = pl.val) (h1 : arg s 0 1 = n.val)
    (h5 : 8 ≤ arg s 0 5 ∧ arg s 0 5 ≤ 160)
    (ho : argBit s 0 2 0 = true → Held s 0 .tachs (arg s 0 2 / 2 % 4) ∧ 64 ≤ arg32 s 0 3 ∧ arg32 s 0 3 ≤ 131072)
    (hz : argBit s 0 2 0 = false → 512 ≤ arg32 s 0 3 ∧ arg32 s 0 3 ≤ 10240000) :
    let x : Band := { order := argBit s 0 2 0, tach := if argBit s 0 2 0 then Fin.ofNat 4 (arg s 0 2 / 2 % 4) else 0, centre := arg32 s 0 3,
                      q := arg s 0 5, square := argBit s 0 2 3, scale := arg s 0 2 / 16 % 8 }
    let p := { s.dev.wr.staged.plans[pl] with bands := s.dev.wr.staged.plans[pl].bands.set n.val x }
    Completes (.wrSetPlan t 0) s t 0 0 0 0 0 [.wr]
      (fun d => d.wr = { s.dev.wr with staged := { s.dev.wr.staged with plans := s.dev.wr.staged.plans.set pl.val p } }) := by
  intro x p
  have a3 : (operands s t 0).arg32 3 = arg32 s 0 3 := operands_arg32 3
  have ne : n.val ≠ 255 := by omega
  have hx : bandOfArgs (operands s t 0) (arg s 0 5) = x := by simp [bandOfArgs, x, a3, bits]
  refine completes_stageWr (f := fun w => { w with plans := w.plans.set pl.val { w.plans[pl] with bands := w.plans[pl].bands.set n.val x } })
    rfl hs ?_ rfl ?_ rfl ?_
  · cases hb : argBit s 0 2 0
    · simp [cmdWrSetPlan, hb]
    · have held : at? s.dev.grants[(0 : Basket)].tachs (arg s 0 2 / 2 % 4) false = true := (ho hb).1
      simpa [cmdWrSetPlan, hb, bits] using Or.inr held
  · have within : x.inRange = true := by
      cases hb : argBit s 0 2 0
      · simp [Band.inRange, x, hb, h5, hz hb]
      · simp [Band.inRange, x, hb, h5, (ho hb).2]
    simp [cmdWrSetPlan, argRange, h0, h1, ne, hx, within]
  · simp [cmdWrSetPlan, h0, h1, ne, hx, updAt, upd]

theorem wrSetChannel_stages (ch : Fin 16) (hs : StartsAwake s 0) (hh : Held s 0 .channels ch.val) (h0 : arg s 0 0 = ch.val) :
    let v := { s.dev.wr.staged.vibs[ch] with plan := Fin.ofNat 8 (arg s 0 1 % 8), count := argBit s 0 1 4 }
    Completes (.wrSetChannel t 0) s t 0 0 0 0 0 [.wr]
      (fun d => d.wr = { s.dev.wr with staged := { s.dev.wr.staged with vibs := s.dev.wr.staged.vibs.set ch.val v } }) := by
  intro v
  refine completes_stageWr (f := fun w => { w with
      vibs := w.vibs.set ch.val { w.vibs[ch] with plan := Fin.ofNat 8 (arg s 0 1 % 8), count := argBit s 0 1 4 } }) rfl hs ?_ rfl rfl rfl ?_
  · have held : (operands s t 0).channel (judged cmdWrSetChannel s t 0) ch.val = true := hh
    show (decide (arg s 0 0 < 16) && (operands s t 0).channel _ (arg s 0 0)) = true
    simp only [h0, held, ch.isLt, decide_true, Bool.and_true]
  · simp [cmdWrSetChannel, h0, bits]

theorem wrSetFrame_time (hs : StartsAwake s 0) (h0 : arg s 0 0 = 0) (h2 : 1000 ≤ arg32 s 0 2 ∧ arg32 s 0 2 ≤ 60000000) :
    let f := { s.dev.wr.staged.frame with source := .time, timeLen := arg32 s 0 2 }
    Completes (.wrSetFrame t 0) s t 0 0 0 0 0 [.wr]
      (fun d => d.wr = { s.dev.wr with staged := { s.dev.wr.staged with frame := f } }) := by
  intro f
  have a2 : (operands s t 0).arg32 2 = arg32 s 0 2 := operands_arg32 2
  refine completes_stageWr (f := fun w => { w with frame := { w.frame with source := .time, timeLen := arg32 s 0 2 } }) rfl hs ?_ ?_ ?_ rfl ?_
  · simp [cmdWrSetFrame, h0]
  · simp only [cmdWrSetFrame, a2, beq_eq_false_iff_ne]; omega
  · simp [cmdWrSetFrame, argRange, h0, a2, h2]
  · simp [cmdWrSetFrame, h0, a2]

theorem wrSetFrame_angle (i : Fin 4) (hs : StartsAwake s 0) (h0 : arg s 0 0 = 1) (h1 : arg s 0 1 = i.val) (hh : Held s 0 .tachs i.val)
    (h2 : 1 ≤ arg32 s 0 2 ∧ arg32 s 0 2 ≤ 4096) :
    let f := { s.dev.wr.staged.frame with source := .angle, tach := i, angleLen := arg32 s 0 2 }
    Completes (.wrSetFrame t 0) s t 0 0 0 0 0 [.wr]
      (fun d => d.wr = { s.dev.wr with staged := { s.dev.wr.staged with frame := f } }) := by
  intro f
  have a2 : (operands s t 0).arg32 2 = arg32 s 0 2 := operands_arg32 2
  refine completes_stageWr (f := fun w => { w with frame := { w.frame with source := .angle, tach := i, angleLen := arg32 s 0 2 } })
    rfl hs ?_ ?_ ?_ rfl ?_
  · have held : (operands s t 0).tach (judged cmdWrSetFrame s t 0) i.val = true := hh
    simpa [cmdWrSetFrame, h0, h1] using held
  · simp only [cmdWrSetFrame, a2, beq_eq_false_iff_ne]; omega
  · simp [cmdWrSetFrame, argRange, h0, a2, h2]
  · simp [cmdWrSetFrame, h0, h1, a2]

/-- What WR_SET_FRAME asks of a length in network mode. -/
theorem cmdWrSetFrame_range_network {x : Ctx} {d : Dev} (h : x.arg 0 = 2) :
    cmdWrSetFrame.range x d = argRange (d.cycleLengths.all (netLenInRange (x.arg32 2))) := by
  simp [cmdWrSetFrame, h]

theorem wrSetFrame_network (hs : StartsAwake s 0) (h0 : arg s 0 0 = 2) (h2 : 1 ≤ arg32 s 0 2 ∧ arg32 s 0 2 ≤ 240000)
    (hc : ∀ c ∈ s.dev.cycleLengths, 1000 ≤ arg32 s 0 2 * c ∧ arg32 s 0 2 * c ≤ 60000000) :
    let f := { s.dev.wr.staged.frame with source := .network, netLen := arg32 s 0 2 }
    Completes (.wrSetFrame t 0) s t 0 0 0 0 0 [.wr]
      (fun d => d.wr = { s.dev.wr with staged := { s.dev.wr.staged with frame := f } }) := by
  intro f
  have a2 : (operands s t 0).arg32 2 = arg32 s 0 2 := operands_arg32 2
  have within : (judged cmdWrSetFrame s t 0).cycleLengths.all (netLenInRange (arg32 s 0 2)) = true := by
    show s.dev.cycleLengths.all _ = true
    simp only [List.all_eq_true, netLenInRange, Bool.and_eq_true, decide_eq_true_eq]
    exact fun c h => ⟨⟨h2, (hc c h).1⟩, (hc c h).2⟩
  refine completes_stageWr (f := fun w => { w with frame := { w.frame with source := .network, netLen := arg32 s 0 2 } }) rfl hs ?_ ?_ ?_ rfl ?_
  · simp [cmdWrSetFrame, h0]
  · simp only [cmdWrSetFrame, a2, beq_eq_false_iff_ne]; omega
  · rw [cmdWrSetFrame_range_network (x := operands s t 0) h0, a2, within]; rfl
  · simp [cmdWrSetFrame, h0, a2]

/-! ## WR_COMMIT (R174, R175, R822, R827) -/

theorem merge_vibs (a b : WringerSet) (mask : BitVec 16) (ch : Fin 16) :
    (a.merge b mask).vibs[ch] = if bit mask.toNat ch.val = true then b.vibs[ch] else a.vibs[ch] := by
  simp [WringerSet.merge, vmap_getElem]

/-- The state check of WR_COMMIT. -/
theorem cmdWrCommit_state (x : Ctx) (d : Dev) : cmdWrCommit.state x d =
    if x.argBit 1 0 then need d.wr.pending.isNone .busy
    else firstErr [need d.wr.pending.isNone .stagedConflict, need (d.wringerAgrees (BitVec.ofNat 16 (x.arg 0))) .stagedConflict] := rfl

theorem wrCommit_captures (hs : StartsAwake s 0) (h1 : argBit s 0 1 0 = false) (hp : s.dev.wr.pending = none)
    (ha : s.dev.wringerAgrees (BitVec.ofNat 16 (arg s 0 0)) = true) :
    let c : WringerCommit := { mask := BitVec.ofNat 16 (arg s 0 0), captured := s.dev.wr.staged, from_ := instant s t + us 50 }
    Completes (.wrCommit t 0) s t 0 0 0 0 0 [.wr] (fun d => d.wr = { s.dev.wr with pending := some c }) := by
  intro c
  have agrees : (judged cmdWrCommit s t 0).wringerAgrees (BitVec.ofNat 16 (arg s 0 0)) = true := ha
  refine completes_awake (c := cmdWrCommit) (d := (judged cmdWrCommit s t 0).onWr (fun w => { w with pending := some c }))
    rfl hs (fun _ => rfl) rfl rfl rfl ?_ ?_ (onWr_keeps _ _) (by decide) rfl
  · simp [cmdWrCommit_state, h1, hp, agrees, need, firstErr]
  · simp [cmdWrCommit, h1]
    rfl

theorem wrCommit_reverts (hs : StartsAwake s 0) (h1 : argBit s 0 1 0 = true) (hp : s.dev.wr.pending = none) :
    Completes (.wrCommit t 0) s t 0 0 0 0 0 [.wr] (fun d => d.wr = { s.dev.wr with staged := d.wr.staged } ∧
      d.wr.staged.plans = s.dev.wr.live.plans ∧ d.wr.staged.frame = s.dev.wr.live.frame ∧ d.wr.staged.tachs = s.dev.wr.live.tachs ∧
      ∀ ch : Fin 16, d.wr.staged.vibs[ch] = if argBit s 0 0 ch.val = true then s.dev.wr.live.vibs[ch] else s.dev.wr.staged.vibs[ch]) := by
  let staged := s.dev.wr.staged.merge s.dev.wr.live (BitVec.ofNat 16 (arg s 0 0))
  refine completes_awake (c := cmdWrCommit) (d := (judged cmdWrCommit s t 0).onWr (fun w => { w with staged := staged }))
    rfl hs (fun _ => rfl) rfl rfl rfl ?_ ?_ (onWr_keeps _ _) (by decide) ⟨rfl, rfl, rfl, rfl, fun ch => ?_⟩
  · simp [cmdWrCommit_state, h1, hp, need]
  · simp [cmdWrCommit, h1, staged]
  · show staged.vibs[ch] = _
    rw [merge_vibs, bit_ofNat_toNat ch.isLt]
    rfl

theorem wrCommit_refused (hs : StartsAwake s 0) (hp : s.dev.wr.pending ≠ none) :
    Refuses (.wrCommit t 0) s t 0 (if argBit s 0 1 0 = true then .busy else .stagedConflict) := by
  have waits : s.dev.wr.pending.isNone = false := by
    rw [Bool.eq_false_iff, ne_eq, Option.isNone_iff_eq_none]; exact hp
  refine refuses_awake (c := cmdWrCommit) rfl hs (fun _ => rfl) rfl rfl rfl ?_ (by split <;> decide)
  rw [cmdWrCommit_state]
  cases h1 : argBit s 0 1 0 <;> simp [h1, need, firstErr, waits]

end

/-- Settles O36: each command stages its own fields; WR_COMMIT captures the staged copy, reverts it, or is refused while one is pending. -/
theorem wringerSettings : Obligations.WringerSettings := by
  unfold Obligations.WringerSettings
  refine ⟨fun s t pl hs h0 h1 h2 h3 h4 h5 h6 => wrSetPlan_wide pl hs h0 h1 h2 h3 h4 h5 h6,
    fun s t pl n hs h0 h1 h5 ho hz => wrSetPlan_band pl n hs h0 h1 h5 ?_ hz,
    fun s t ch hs hh h0 => wrSetChannel_stages ch hs hh h0, fun s t hs h0 h2 => wrSetFrame_time hs h0 h2,
    fun s t i hs h0 h1 hh h2 => wrSetFrame_angle i hs h0 h1 hh h2, fun s t hs h0 h2 hc => wrSetFrame_network hs h0 h2 hc,
    fun s t hs h1 hp ha => wrCommit_captures hs h1 hp ha, fun s t hs h1 hp => wrCommit_reverts hs h1 hp,
    fun s t hs hp => wrCommit_refused hs hp⟩
  have : (Fin.ofNat 4 (arg s 0 2 / 2 % 4)).val = arg s 0 2 / 2 % 4 := by simp
  rwa [this] at ho

end Sys2Proof.Proofs

namespace Sys2Proof.Proofs
open Machine Laws

/-! ## A SYNC reaches the chains (R267, R268, R271, R276, R282) -/

/-- A chain after the swap that is armed for a SYNC (R276). -/
def swappedAtSync (pos : Nat) (c : Chain) : Chain :=
  if c.swapArmed then { c with swapArmed := false, live := if c.fits pos c.live.toggled then c.live.toggled else c.live } else c

/-- A chain after the epoch that a SYNC begins (R267, R268). -/
def epochAtSync (d : Dev) (pos : Nat) (c : Chain) : Chain :=
  if !d.rinsing || !c.enabled then c else if c.waiting || !d.boundary pos c.live.dec then c.breakEpoch else c.nextEpoch

theorem swappedAtSync_unarmed {c : Chain} (pos : Nat) (h : c.swapArmed = false) : swappedAtSync pos c = c := by simp [swappedAtSync, h]

theorem swappedAtSync_armed {c : Chain} (pos : Nat) (h : c.swapArmed = true) : (swappedAtSync pos c).swapArmed = false ∧
    (swappedAtSync pos c).live = if c.fits pos c.live.toggled = true then c.live.toggled else c.live := by
  simp [swappedAtSync, h]

theorem swappedAtSync_dec (pos : Nat) (c : Chain) : (swappedAtSync pos c).live.dec = c.live.dec := by
  unfold swappedAtSync
  split
  · dsimp only
    split <;> rfl
  · rfl

@[simp] theorem epochAtSync_live (d : Dev) (pos : Nat) (c : Chain) : (epochAtSync d pos c).live = c.live := by
  unfold epochAtSync
  split
  · rfl
  · split <;> rfl

@[simp] theorem epochAtSync_swapArmed (d : Dev) (pos : Nat) (c : Chain) : (epochAtSync d pos c).swapArmed = c.swapArmed := by
  unfold epochAtSync
  split
  · rfl
  · split <;> rfl

/-- The epoch depends on the instant, the power state and G alone. -/
theorem epochAtSync_congr {d d' : Dev} (hc : d'.clk = d.clk) (hp : d'.pwr = d.pwr) (hz : d'.rinse.zeroEdge = d.rinse.zeroEdge) :
    epochAtSync d' = epochAtSync d := by
  have hr : d'.rinsing = d.rinsing := by unfold Dev.rinsing; rw [hp]
  have hb : d'.boundary = d.boundary := by
    funext pos dec
    simp only [Dev.boundary, Dev.onGrid, Dev.onEdge, Dev.sampleEdge, Dev.now, Rinse.phase, hc, hz]
  funext pos c
  unfold epochAtSync
  rw [hr, hb]

theorem rinseApply_of_pending_none {d : Dev} {p : Fin 24} (h : d.rinse.chains[p].pending = none) : d.rinseApply p.val = d := by
  unfold Dev.rinseApply
  rw [getElem?_toList_fin]
  simp only [h]

/-- What an armed swap does to the Rinse at a SYNC. -/
theorem syncSwap_rinse (d : Dev) (p : Fin 24) :
    (d.syncSwap p.val false).rinse = { d.rinse with chains := d.rinse.chains.set p.val (swappedAtSync p.val d.rinse.chains[p]) } := by
  unfold Dev.syncSwap swappedAtSync
  rw [getElem?_toList_fin]
  dsimp only
  cases ha : d.rinse.chains[p].swapArmed
  · simp
  · simp only [Bool.not_true, Bool.false_eq_true, if_false, if_true]
    split
    · simp only [onChain_rinse, updAt_fin]
    · rw [(postHeld_keeps _ _ _) .rinse (by decide)]
      simp only [onChain_rinse, updAt_fin]

theorem syncSwap_unarmed {d : Dev} {p : Fin 24} (h : d.rinse.chains[p].swapArmed = false) (b : Bool) : d.syncSwap p.val b = d := by
  unfold Dev.syncSwap
  rw [getElem?_toList_fin]
  simp only [h, Bool.not_false, if_true]

/-- A SYNC at a chain without a commit pending: its armed swap, then its epoch. -/
theorem syncChain_of_pending_none {d : Dev} {p : Fin 24} (h : d.rinse.chains[p].pending = none) :
    d.syncChain p.val = if d.rinsing then (d.syncSwap p.val false).onChain p.val (fun c =>
      if !c.enabled then c else if c.waiting || !d.boundary p.val d.rinse.chains[p].live.dec then c.breakEpoch else c.nextEpoch)
    else d.syncSwap p.val false := by
  have hr : (d.syncSwap p.val false).rinsing = d.rinsing := by
    unfold Dev.rinsing
    rw [(syncSwap_keeps d p.val false) .pwr (by decide)]
  unfold Dev.syncChain
  dsimp only
  rw [rinseApply_of_pending_none h]
  simp only [getElem?_toList_fin, h, Bool.false_and, hr]
  cases d.rinsing <;> rfl

theorem syncChain_rinse {d : Dev} {p : Fin 24} (h : d.rinse.chains[p].pending = none) :
    (d.syncChain p.val).rinse =
      { d.rinse with chains := d.rinse.chains.set p.val (epochAtSync d p.val (swappedAtSync p.val d.rinse.chains[p])) } := by
  rw [syncChain_of_pending_none h, epochAtSync, swappedAtSync_dec]
  cases d.rinsing
  · simp only [Bool.false_eq_true, if_false, Bool.not_false, Bool.true_or, if_true]
    exact syncSwap_rinse d p
  · simp only [if_true, onChain_rinse, syncSwap_rinse, updAt_fin, Bool.not_true, Bool.false_or]
    simp

theorem syncChain_host {d : Dev} {p : Fin 24} (h : d.rinse.chains[p].pending = none) (ha : d.rinse.chains[p].swapArmed = false) :
    (d.syncChain p.val).host = d.host := by
  rw [syncChain_of_pending_none h, syncSwap_unarmed ha]
  split <;> rfl

theorem syncChain_chain_other {d : Dev} {p q : Fin 24} (h : d.rinse.chains[p].pending = none) (hq : q ≠ p) :
    (d.syncChain p.val).rinse.chains[q] = d.rinse.chains[q] := by
  have : p.val ≠ q.val := fun e => hq (Fin.ext e.symm)
  rw [syncChain_rinse h]
  simp [Vector.getElem_set_ne, this]

/-- A SYNC reaches each of some chains once; then G is 0 at its edge. -/
theorem syncChains_spec (l : List (Fin 24)) (hl : l.Nodup) (d : Dev) (h : ∀ p ∈ l, d.rinse.chains[p].pending = none) :
    (d.syncChains (l.map (·.val))).rinse = { d.rinse with
        zeroEdge := if d.atSync = true then d.rinse.zeroEdge else d.clk.edgeFrom d.now,
        oldPhase := if d.atSync = true then d.rinse.oldPhase else d.rinse.phase (d.clk.edgeFrom d.now),
        syncStamp := d.stamp, chains := (d.syncChains (l.map (·.val))).rinse.chains } ∧
      (∀ p : Fin 24, (d.syncChains (l.map (·.val))).rinse.chains[p] =
        if p ∈ l then epochAtSync d p.val (swappedAtSync p.val d.rinse.chains[p]) else d.rinse.chains[p]) ∧
      ((∀ p ∈ l, d.rinse.chains[p].swapArmed = false) → (d.syncChains (l.map (·.val))).host = d.host) := by
  induction l generalizing d with
  | nil =>
    cases ha : d.atSync <;> simp [Dev.syncChains, ha]
  | cons p ps ih =>
    obtain ⟨hp, hps⟩ := List.nodup_cons.mp hl
    have hpend := h p List.mem_cons_self
    have hother : ∀ q ∈ ps, (d.syncChain p.val).rinse.chains[q] = d.rinse.chains[q] := fun q hq =>
      syncChain_chain_other hpend (fun e => hp (e ▸ hq))
    have hclk : (d.syncChain p.val).clk = d.clk := (syncChain_keeps d p.val) .clk (by decide)
    have hpwr : (d.syncChain p.val).pwr = d.pwr := (syncChain_keeps d p.val) .pwr (by decide)
    have hr := syncChain_rinse hpend
    have hz : (d.syncChain p.val).rinse.zeroEdge = d.rinse.zeroEdge := by rw [hr]
    have hat : (d.syncChain p.val).atSync = d.atSync := by simp only [Dev.atSync, Dev.now, hz, hclk]
    have hst : (d.syncChain p.val).stamp = d.stamp := by simp only [Dev.stamp, Dev.stampAt, Dev.sampleEdge, hclk]
    obtain ⟨irinse, ichains, ihost⟩ := ih hps (d.syncChain p.val) (fun q hq => by
      rw [hother q hq]; exact h q (List.mem_cons_of_mem _ hq))
    simp only [List.map_cons, Dev.syncChains]
    refine ⟨?_, fun q => ?_, fun ha => ?_⟩
    · rw [irinse, hat, hst]
      simp only [Dev.now, hclk, Rinse.phase, hr]
    · rw [ichains q, epochAtSync_congr hclk hpwr hz]
      by_cases hq : q = p
      · subst hq
        simp [hp, hr]
      · rw [syncChain_chain_other hpend hq]
        simp [hq]
    · rw [ihost (fun q hq => by rw [hother q hq]; exact ha q (List.mem_cons_of_mem _ hq)), syncChain_host hpend (ha p List.mem_cons_self)]

theorem range24_eq : List.range 24 = (List.finRange 24).map (·.val) := by decide

/-- The chains after a SYNC that finds no commit pending. -/
theorem sync_spec (d : Dev) (h : ∀ p : Fin 24, d.rinse.chains[p].pending = none) :
    d.sync.rinse = { d.rinse with
        zeroEdge := if d.atSync = true then d.rinse.zeroEdge else d.clk.edgeFrom d.now,
        oldPhase := if d.atSync = true then d.rinse.oldPhase else d.rinse.phase (d.clk.edgeFrom d.now),
        syncStamp := d.stamp, chains := d.sync.rinse.chains } ∧
      (∀ p : Fin 24, d.sync.rinse.chains[p] = epochAtSync d p.val (swappedAtSync p.val d.rinse.chains[p])) ∧
      ((∀ p : Fin 24, d.rinse.chains[p].swapArmed = false) → d.sync.host = d.host) := by
  unfold Dev.sync
  rw [range24_eq]
  obtain ⟨hr, hc, hh⟩ := syncChains_spec (List.finRange 24) (List.nodup_finRange 24) d (fun p _ => h p)
  exact ⟨hr, fun p => by rw [hc p, if_pos (List.mem_finRange p)], fun ha => hh (fun p _ => ha p)⟩

/-- An epoch as the statements write it. -/
theorem epochAtSync_eq (d : Dev) (pos : Nat) (c : Chain) : epochAtSync d pos c =
    if c.enabled = false ∨ (d.pwr.state ≠ .boot ∧ d.pwr.state ≠ .active) then c
    else if c.waiting = true ∨ d.boundary pos c.live.dec = false then c.breakEpoch
    else { c with epochIn := BitVec.ofNat 64 (c.epochIn.toNat % max 1 c.live.dec), epochOut := 0, firstOut := true } := by
  have hr : (!d.rinsing || !c.enabled) = true ↔ (c.enabled = false ∨ (d.pwr.state ≠ .boot ∧ d.pwr.state ≠ .active)) := by
    simp only [Dev.rinsing, Bool.or_eq_true, Bool.not_eq_true', Bool.or_eq_false_iff, beq_eq_false_iff_ne]
    exact or_comm
  simp only [epochAtSync, hr, Chain.nextEpoch, Bool.or_eq_true, Bool.not_eq_true']

/-! ## A SYNC moves the frame grid (R56, R157, R948) -/

theorem bne_eq_decide_ne (a b : Nat) : (a != b) = decide (a ≠ b) := by
  rw [Bool.eq_iff_iff]
  simp

theorem syncFrame_wr (d : Dev) : d.syncFrame.wr =
    if d.wr.running = false ∨ d.wr.live.frame.source ≠ .time ∨ (d.pwr.state ≠ .active ∧ d.pwr.state ≠ .watch) then d.wr
    else if d.now < d.wr.start + us 20 then { d.wr with gridOrigin := d.now, gridCount := 0 }
    else { d.wr with due := some { at_ := d.now, cut := decide (d.now ≠ d.gridNext) } } := by
  have hq : (!d.wr.running || d.wr.live.frame.source != .time || !(d.pwr.state == .active || d.pwr.state == .watch)) = true ↔
      (d.wr.running = false ∨ d.wr.live.frame.source ≠ .time ∨ (d.pwr.state ≠ .active ∧ d.pwr.state ≠ .watch)) := by
    simp only [Bool.or_eq_true, Bool.not_eq_true', bne_iff_ne, Bool.or_eq_false_iff, beq_eq_false_iff_ne, or_assoc]
  unfold Dev.syncFrame
  by_cases h : d.wr.running = false ∨ d.wr.live.frame.source ≠ .time ∨ (d.pwr.state ≠ .active ∧ d.pwr.state ≠ .watch)
  · rw [if_pos (hq.mpr h), if_pos h]
  · rw [if_neg (fun e => h (hq.mp e)), if_neg h]
    have running : d.wr.running = true := by
      by_contra e; exact h (Or.inl (by simpa using e))
    split
    · rfl
    · simp only [Dev.makeDue, running, if_true, onWr_wr]
      rw [bne_eq_decide_ne]

/-! ## RN_SET_SYNC, SYS_SYNC and the pin -/

theorem stamp_congr {d d' : Dev} (hc : d'.clk = d.clk) : d'.stamp = d.stamp := by
  simp only [Dev.stamp, Dev.stampAt, Dev.sampleEdge, hc]

theorem gridNext_congr {d d' : Dev} (hc : d'.clk = d.clk) (hw : d'.wr = d.wr) : d'.gridNext = d.gridNext := by
  simp only [Dev.gridNext, Dev.sampleEdge, hc, hw]

theorem atSync_congr {d d' : Dev} (hc : d'.clk = d.clk) (hz : d'.rinse.zeroEdge = d.rinse.zeroEdge) : d'.atSync = d.atSync := by
  simp only [Dev.atSync, Dev.now, hc, hz]

/-- A SYNC that finds no commit pending and no swap armed, at an instant at_ of a device that differs from s's in neither the Wringer nor the
power state, and in the Rinse at most in the last pin edge. -/
theorem sync_quiet {s : State} {at_ : Time} {D : Dev} (hc : D.clk = (here s at_).clk) (hn : (here s at_).now = at_) (hp : D.pwr = s.dev.pwr)
    (hw : D.wr = s.dev.wr) (edge : Option Time) (hr : D.rinse = { s.dev.rinse with lastPinEdge := edge })
    (hq : ∀ p : Fin 24, (s.dev.rinse.chains[p]).pending = none ∧ (s.dev.rinse.chains[p]).swapArmed = false) :
    let e := here s at_
    let w := s.dev.wr
    let r := s.dev.rinse
    let d := D.sync.syncFrame
    d.rinse = { r with zeroEdge := if e.atSync = true then r.zeroEdge else e.clk.edgeFrom at_,
                       oldPhase := if e.atSync = true then r.oldPhase else r.phase (e.clk.edgeFrom at_),
                       syncStamp := e.stamp, lastPinEdge := edge, chains := d.rinse.chains } ∧
    (∀ p : Fin 24, d.rinse.chains[p] = if (s.dev.rinse.chains[p]).enabled = false ∨ (s.dev.pwr.state ≠ .boot ∧
        s.dev.pwr.state ≠ .active) then s.dev.rinse.chains[p]
      else if (s.dev.rinse.chains[p]).waiting = true ∨ e.boundary p.val (s.dev.rinse.chains[p]).live.dec = false then (s.dev.rinse.chains[p]).breakEpoch
      else { s.dev.rinse.chains[p] with epochIn := BitVec.ofNat 64 ((s.dev.rinse.chains[p]).epochIn.toNat % max 1 (s.dev.rinse.chains[p]).live.dec),
                                        epochOut := 0, firstOut := true }) ∧
    d.wr = (if w.running = false ∨ w.live.frame.source ≠ .time ∨ (s.dev.pwr.state ≠ .active ∧ s.dev.pwr.state ≠ .watch) then w
      else if at_ < w.start + us 20 then { w with gridOrigin := at_, gridCount := 0 }
      else { w with due := some { at_ := at_, cut := decide (at_ ≠ e.gridNext) } }) ∧
    d.host = D.host := by
  intro e w r d
  have hz : D.rinse.zeroEdge = e.rinse.zeroEdge := by rw [hr]; rfl
  have hnow : D.now = at_ := by simpa only [Dev.now, hc] using hn
  have hch : ∀ p : Fin 24, D.rinse.chains[p] = s.dev.rinse.chains[p] := fun p => by rw [hr]
  obtain ⟨srinse, schains, shost⟩ := sync_spec D (fun p => by rw [hch p]; exact (hq p).1)
  have hsync := sync_keeps D
  have dr : d.rinse = D.sync.rinse := (syncFrame_keeps D.sync) .rinse (by decide)
  refine ⟨?_, fun p => ?_, ?_, ?_⟩
  · rw [dr]
    refine srinse.trans ?_
    simp only [atSync_congr hc hz, stamp_congr hc, hnow, hc, hr]
    rfl
  · rw [dr, schains p, hch p, swappedAtSync_unarmed _ (hq p).2, epochAtSync_congr (d := e) hc hp hz, epochAtSync_eq]
    rfl
  · have hsw : D.sync.wr = w := (hsync .wr (by decide)).trans hw
    have hsc : D.sync.clk = e.clk := (hsync .clk (by decide)).trans hc
    have hsp : D.sync.pwr = s.dev.pwr := (hsync .pwr (by decide)).trans hp
    have hsn : D.sync.now = at_ := by simpa only [Dev.now, hsc] using hn
    rw [syncFrame_wr, hsw, hsp, hsn, gridNext_congr (d := e) hsc hsw]
  · exact ((syncFrame_keeps D.sync) .host (by decide)).trans (shost (fun p => by rw [hch p]; exact (hq p).2))

section
variable {s : State} {t : Time}

theorem rnSetSync_sets (hs : StartsAwake s 0) (h0 : arg s 0 0 ≤ 2) :
    let x := if arg s 0 0 = 0 then SyncSource.pin else if arg s 0 0 = 1 then .everyCycle else .cycle0
    Completes (.rnSetSync t 0) s t 0 0 0 0 0 [.rinse] (fun d => d.rinse = { s.dev.rinse with source := x }) := by
  intro x
  have hx : (match arg s 0 0 with | 0 => SyncSource.pin | 1 => .everyCycle | _ => .cycle0) = x := by
    unfold x
    split
    · simp_all
    · simp_all
    · simp_all
  refine completes_awake (c := cmdRnSetSync) (d := (judged cmdRnSetSync s t 0).onRinse (fun r => { r with source := x })) rfl hs (fun _ => rfl)
    rfl rfl ?_ rfl ?_ (onRinse_keeps _ _) (by decide) rfl
  · simp [cmdRnSetSync, argRange, h0]
  · rw [← hx]
    rfl

/-- The instant at which SYS_SYNC acts: the first SAMPLE edge after its acceptance (R265). -/
def sysSyncAt (s : State) (t : Time) : Time := max (instant s t) ((here s t).sampleEdge (instant s t + 1) 0)

theorem instant_le_self {s : State} {t u : Time} (h : instant s t ≤ u) : instant s u = u :=
  max_eq_right (le_trans (le_max_left _ _) h)

/-- The device at which SYS_SYNC's SYNC takes place. -/
def sysSyncDev (s : State) (t : Time) : Dev := (judged cmdSysSync s t 0).tick ((here s t).sampleEdge (instant s t + 1) 0)

theorem sysSyncDev_clk : (sysSyncDev s t).clk = (here s (sysSyncAt s t)).clk := by
  have h : instant s (sysSyncAt s t) = sysSyncAt s t := instant_le_self (t := t) (le_max_left _ _)
  show { s.dev.clk with now := sysSyncAt s t } = { s.dev.clk with now := instant s (sysSyncAt s t) }
  rw [h]

theorem here_sysSyncAt_now : (here s (sysSyncAt s t)).now = sysSyncAt s t := instant_le_self (t := t) (le_max_left _ _)

/-- What SYS_SYNC does once accepted. -/
theorem sysSync_exec (hs : Starts s 0) (hf : s.dev.pwr.fault ≠ some .clock) :
    exec (.sysSync t 0) s = .next { s with dev :=
      (sysSyncDev s t).sync.syncFrame.complete 0 (success (leWords 4 ((sysSyncDev s t).sync.syncFrame.stamp).toNat)) } := by
  have sampling : (judged cmdSysSync s t 0).sampling = true := by
    have ha : (judged cmdSysSync s t 0).pwr.state.answers = true := answers_of _ hs.1.1 hs.1.2.1
    have hc : (judged cmdSysSync s t 0).pwr.fault ≠ some .clock := hf
    simp only [Dev.sampling, ha, Bool.true_and, bne_iff_ne]
    exact hc
  refine hostCommand_ok cmdSysSync s t 0 _ _ hs ?_ ?_
  · exact judge_none _ _ _ (fun _ => rfl) rfl rfl rfl (fun _ => by decide) (fun h => by cases h) rfl
  · show ((if (judged cmdSysSync s t 0).sampling then _ else _ : Dev), _) = _
    simp only [sampling, if_true]
    rfl

theorem sysSync_keeps (d : Dev) : Keeps [.clk, .host, .wr, .rinse] d d.sync.syncFrame :=
  Keeps.andThen (syncFrame_keeps _) (by decide) (Keeps.mono (sync_keeps d) (by decide))

/-- The words of a timestamp as a command returns it. -/
theorem success_stamp (n : Nat) : success (leWords 4 n) = { error := 0, results :=
    ⟨#[BitVec.ofNat 16 n, BitVec.ofNat 16 (n / 65536), BitVec.ofNat 16 (n / 2 ^ 32), BitVec.ofNat 16 (n / 2 ^ 48)], rfl⟩ } := by
  have h2 : n / 65536 / 65536 = n / 2 ^ 32 := by norm_num [Nat.div_div_eq_div_mul]
  have h3 : n / 2 ^ 32 / 65536 = n / 2 ^ 48 := by norm_num [Nat.div_div_eq_div_mul]
  simp only [success, leWords, results4, h2, h3]
  rfl

/-- SYS_SYNC answers a next state, keeps its frame, and leaves behind what its SYNC does. -/
theorem sysSync_does {effect : Dev → Prop} (hs : Starts s 0) (hf : s.dev.pwr.fault ≠ some .clock)
    (he : effect ((sysSyncDev s t).sync.syncFrame.complete 0 (success (leWords 4 ((sysSyncDev s t).sync.syncFrame.stamp).toNat)))) :
    Does (.sysSync t 0) s t [.clk, .host, .wr, .rinse] effect := by
  refine does_of (sysSync_exec hs hf) ?_ he
  refine Keeps.andThen (complete_keeps _ _ _) (by decide) (Keeps.andThen (sysSync_keeps _) (by decide) ?_)
  exact Keeps.andThen (tick_keeps _ _) (by decide) (Keeps.mono (onPage_keeps _ _ _) (by decide))

theorem sysSync_quiet (hs : Starts s 0) (hf : s.dev.pwr.fault ≠ some .clock)
    (hq : ∀ p : Fin 24, (s.dev.rinse.chains[p]).pending = none ∧ (s.dev.rinse.chains[p]).swapArmed = false) :
    let at_ := max (instant s t) ((here s t).sampleEdge (instant s t + 1) 0)
    let e := here s at_
    let stamp := e.stamp
    let edge := e.clk.edgeFrom at_
    let r := s.dev.rinse
    let w := s.dev.wr
    Does (.sysSync t 0) s t [.clk, .host, .wr, .rinse] (fun d =>
      d.clk = { s.dev.clk with now := at_ } ∧
      d.host = doneHost s.dev.host 0 0 (BitVec.ofNat 16 stamp.toNat) (BitVec.ofNat 16 (stamp.toNat / 65536)) (BitVec.ofNat 16 (stamp.toNat / 2 ^ 32))
        (BitVec.ofNat 16 (stamp.toNat / 2 ^ 48)) at_ ∧
      d.rinse = { r with zeroEdge := if e.atSync = true then r.zeroEdge else edge, oldPhase := if e.atSync = true then r.oldPhase else r.phase edge,
                         syncStamp := stamp, chains := d.rinse.chains } ∧
      (∀ p : Fin 24, d.rinse.chains[p] = if (s.dev.rinse.chains[p]).enabled = false ∨ (s.dev.pwr.state ≠ .boot ∧
          s.dev.pwr.state ≠ .active) then s.dev.rinse.chains[p]
        else if (s.dev.rinse.chains[p]).waiting = true ∨ e.boundary p.val (s.dev.rinse.chains[p]).live.dec = false then (s.dev.rinse.chains[p]).breakEpoch
        else { s.dev.rinse.chains[p] with epochIn := BitVec.ofNat 64 ((s.dev.rinse.chains[p]).epochIn.toNat % max 1 (s.dev.rinse.chains[p]).live.dec),
                                          epochOut := 0, firstOut := true }) ∧
      d.wr = (if w.running = false ∨ w.live.frame.source ≠ .time ∨ (s.dev.pwr.state ≠ .active ∧ s.dev.pwr.state ≠ .watch) then w
        else if at_ < w.start + us 20 then { w with gridOrigin := at_, gridCount := 0 }
        else { w with due := some { at_ := at_, cut := decide (at_ ≠ e.gridNext) } })) := by
  intro at_ e stamp edge r w
  have hclk : (sysSyncDev s t).clk = e.clk := sysSyncDev_clk
  obtain ⟨hrinse, hchains, hwr, hhost⟩ := sync_quiet hclk here_sysSyncAt_now rfl rfl s.dev.rinse.lastPinEdge rfl hq
  have fclk : (sysSyncDev s t).sync.syncFrame.clk = e.clk :=
    (((syncFrame_keeps _) .clk (by decide)).trans ((sync_keeps _) .clk (by decide))).trans hclk
  have fnow : (sysSyncDev s t).sync.syncFrame.now = at_ := by
    simp only [Dev.now, fclk]; exact here_sysSyncAt_now
  have hat : instant s at_ = at_ := here_sysSyncAt_now
  have hhost : (sysSyncDev s t).sync.syncFrame.host = (judged cmdSysSync s t 0).host := hhost
  refine sysSync_does hs hf ?_
  generalize (sysSyncDev s t).sync.syncFrame = F at *
  refine ⟨?_, ?_, hrinse, hchains, hwr⟩
  · refine fclk.trans ?_
    show { s.dev.clk with now := instant s at_ } = _
    rw [hat]
  · rw [stamp_congr fclk, success_stamp, complete_host_at hhost, fnow]

theorem sysSync_swaps (pos : Fin 24) (hs : Starts s 0) (hf : s.dev.pwr.fault ≠ some .clock)
    (hp : ∀ p : Fin 24, (s.dev.rinse.chains[p]).pending = none) (ha : (s.dev.rinse.chains[pos]).swapArmed = true) :
    let c := s.dev.rinse.chains[pos]
    Does (.sysSync t 0) s t [.clk, .host, .wr, .rinse] (fun d => (d.rinse.chains[pos]).swapArmed = false ∧
        d.host.pages[(0 : Basket)].cmdState = .done ∧
      (d.rinse.chains[pos]).live = if c.fits pos.val c.live.toggled = true then c.live.toggled else c.live) := by
  intro c
  obtain ⟨-, schains, -⟩ := sync_spec (sysSyncDev s t) hp
  have dr : (sysSyncDev s t).sync.syncFrame.rinse = (sysSyncDev s t).sync.rinse := (syncFrame_keeps _) .rinse (by decide)
  have after : (sysSyncDev s t).sync.syncFrame.rinse.chains[pos] = epochAtSync (sysSyncDev s t) pos.val (swappedAtSync pos.val c) := by
    rw [dr, schains pos]; rfl
  obtain ⟨unarmed, live⟩ := swappedAtSync_armed pos.val ha
  refine sysSync_does hs hf ?_
  generalize (sysSyncDev s t).sync.syncFrame = F at *
  refine ⟨?_, ?_, ?_⟩
  · show (F.rinse.chains[pos]).swapArmed = false
    rw [after, epochAtSync_swapArmed, unarmed]
  · show (upd F.host.pages 0 _)[(0 : Basket)].cmdState = .done
    rw [upd_same]
    rfl
  · show (F.rinse.chains[pos]).live = _
    rw [after, epochAtSync_live, live]

/-- The device at an edge of the SYNC pin: the edge is noted, and nothing else yet. -/
def pinNoted (s : State) (t : Time) : Dev := (here s t).onRinse (fun r => { r with lastPinEdge := some (instant s t) })

/-- Is the pin edge one that makes no SYNC (R265, R270, R935)? -/
def pinIgnored (s : State) (t : Time) : Bool :=
  (match s.dev.rinse.lastPinEdge with | none => false | some e => decide (instant s t < e + us 10)) || !(here s t).sampling ||
    s.dev.rinse.source != .pin || s.dev.link.live.set.syncOut

theorem syncPinEdge_exec (s : State) (t : Time) : exec (.syncPinEdge t) s = .next { s with dev :=
      (if pinIgnored s t then pinNoted s t
       else (((pinNoted s t).onFree (· + 1)).tick ((here s t).syncCapture s.dev.free)).sync.syncFrame) } := rfl

theorem syncPinEdge_ignored
    (h : s.dev.rinse.source ≠ .pin ∨ s.dev.link.live.set.syncOut = true ∨ s.dev.pwr.fault = some .clock ∨ (∃ e ∈ s.dev.rinse.lastPinEdge,
        instant s t < e + us 10)) :
    Does (.syncPinEdge t) s t [.rinse] (fun d => d.rinse = { s.dev.rinse with lastPinEdge := some (instant s t) }) := by
  have quiet : pinIgnored s t = true := by
    unfold pinIgnored
    rcases h with hsrc | hout | hclk | ⟨e, he, hlt⟩
    · simp [hsrc]
    · simp [hout]
    · have : (here s t).sampling = false := by simp [Dev.sampling, here, hclk]
      simp [this]
    · have he : s.dev.rinse.lastPinEdge = some e := he
      simp [he, hlt]
  exact does_of (d := pinNoted s t) (by rw [syncPinEdge_exec, if_pos quiet]) (onRinse_keeps _ _) rfl

theorem syncPinEdge_taken (hpow : s.dev.pwr.state ≠ .off ∧ s.dev.pwr.state ≠ .reset) (hf : s.dev.pwr.fault ≠ some .clock)
    (hsrc : s.dev.rinse.source = .pin) (hout : s.dev.link.live.set.syncOut = false)
    (hlate : ∀ e ∈ s.dev.rinse.lastPinEdge, e + us 10 ≤ instant s t)
    (hq : ∀ p : Fin 24, (s.dev.rinse.chains[p]).pending = none ∧ (s.dev.rinse.chains[p]).swapArmed = false) :
    let first := (here s t).sampleEdge (instant s t + ns 1 + 1) 0
    let last := (here s t).sampleEdge (instant s t + ns 5) 0
    let w := s.dev.wr
    let r := s.dev.rinse
    Does (.syncPinEdge t) s t [.clk, .wr, .rinse, .free] (fun d =>
      let at_ := d.clk.now
      let e := here s at_
      let edge := e.clk.edgeFrom at_
      (at_ = max (instant s t) first ∨ at_ = max (instant s t) last) ∧ d.clk = { s.dev.clk with now := at_ } ∧
      d.rinse = { r with zeroEdge := if e.atSync = true then r.zeroEdge else edge, oldPhase := if e.atSync = true then r.oldPhase else r.phase edge,
                         syncStamp := e.stamp, lastPinEdge := some (instant s t), chains := d.rinse.chains } ∧
      (∀ p : Fin 24, d.rinse.chains[p] = if (s.dev.rinse.chains[p]).enabled = false ∨ (s.dev.pwr.state ≠ .boot ∧
          s.dev.pwr.state ≠ .active) then s.dev.rinse.chains[p]
        else if (s.dev.rinse.chains[p]).waiting = true ∨ e.boundary p.val (s.dev.rinse.chains[p]).live.dec = false then (s.dev.rinse.chains[p]).breakEpoch
        else { s.dev.rinse.chains[p] with epochIn := BitVec.ofNat 64 ((s.dev.rinse.chains[p]).epochIn.toNat % max 1 (s.dev.rinse.chains[p]).live.dec),
                                          epochOut := 0, firstOut := true }) ∧
      d.wr = (if w.running = false ∨ w.live.frame.source ≠ .time ∨ (s.dev.pwr.state ≠ .active ∧ s.dev.pwr.state ≠ .watch) then w
        else if at_ < w.start + us 20 then { w with gridOrigin := at_, gridCount := 0 }
        else { w with due := some { at_ := at_, cut := decide (at_ ≠ e.gridNext) } })) := by
  intro first last w r
  have sampling : (here s t).sampling = true := by
    have ha : (here s t).pwr.state.answers = true := answers_of _ hpow.1 hpow.2
    have hc : (here s t).pwr.fault ≠ some .clock := hf
    simp only [Dev.sampling, ha, Bool.true_and, bne_iff_ne]
    exact hc
  have taken : ¬ pinIgnored s t = true := by
    unfold pinIgnored
    cases he : s.dev.rinse.lastPinEdge with
    | none => simp [sampling, hsrc, hout]
    | some e => simp [sampling, hsrc, hout, hlate e he]
  let cap := (here s t).syncCapture s.dev.free
  let at_ := max (instant s t) cap
  have hat : instant s at_ = at_ := instant_le_self (t := t) (le_max_left _ _)
  let D := ((pinNoted s t).onFree (· + 1)).tick cap
  have hclk : D.clk = (here s at_).clk := by
    show { s.dev.clk with now := at_ } = { s.dev.clk with now := instant s at_ }
    rw [hat]
  obtain ⟨hrinse, hchains, hwr, hhost⟩ := sync_quiet (D := D) hclk hat rfl rfl (some (instant s t)) rfl hq
  have fclk : D.sync.syncFrame.clk = { s.dev.clk with now := at_ } :=
    ((syncFrame_keeps _) .clk (by decide)).trans ((sync_keeps _) .clk (by decide))
  have fnow : D.sync.syncFrame.clk.now = at_ := by rw [fclk]
  have kept : Keeps [.clk, .host, .wr, .rinse, .free] (here s t) D.sync.syncFrame := by
    refine Keeps.andThen (sysSync_keeps D) (by decide) (Keeps.andThen (tick_keeps _ _) (by decide) ?_)
    exact Keeps.andThen (onFree_keeps _ _) (by decide) (Keeps.mono (onRinse_keeps _ _) (by decide))
  refine does_of (d := D.sync.syncFrame) (by rw [syncPinEdge_exec, if_neg taken]) ?_ ?_
  · exact Keeps.without .host kept hhost (by decide)
  · generalize D.sync.syncFrame = F at *
    dsimp only
    rw [fnow]
    refine ⟨?_, fclk, hrinse, hchains, hwr⟩
    show max (instant s t) (if Config.syncNext s.dev.free then last else first) = _ ∨
      max (instant s t) (if Config.syncNext s.dev.free then last else first) = _
    split
    · exact Or.inr rfl
    · exact Or.inl rfl

end

/-- Settles O46: a SYNC, from the command or the pin, at its SAMPLE edge. -/
theorem syncRows : Obligations.SyncRows := by
  unfold Obligations.SyncRows
  exact ⟨fun s t hs h0 => rnSetSync_sets hs h0, fun s t hs hf hq => sysSync_quiet hs hf hq, fun s t pos hs hf hp ha => sysSync_swaps pos hs hf hp ha,
    fun s t hpow hf hsrc hout hlate hq => syncPinEdge_taken hpow hf hsrc hout hlate hq, fun s t h => syncPinEdge_ignored h⟩

end Sys2Proof.Proofs

namespace Sys2Proof.Proofs
open Machine Laws

/-! ## Bytes of numbers -/

@[simp] theorem leBytes_length (n v : Nat) : (leBytes n v).length = n := by
  induction n generalizing v with
  | zero => rfl
  | succ n ih => simp [leBytes, ih]

@[simp] theorem w32_length (v : Nat) : (w32 v).length = 4 := leBytes_length 4 v

@[simp] theorem w64_length (v : Nat) : (w64 v).length = 8 := leBytes_length 8 v

theorem leValue_leBytes (n v : Nat) : leValue (leBytes n v) = v % 256 ^ n := by
  induction n generalizing v with
  | zero => simp [leBytes, leValue, Nat.mod_one]
  | succ n ih =>
    have h : v % 256 ^ (n + 1) = v % 256 + 256 * (v / 256 % 256 ^ n) := by rw [pow_succ', Nat.mod_mul]
    simp only [leBytes, leValue, ih, h, BitVec.toNat_ofNat, Nat.reducePow]

/-! ## Ranges of the SRAM -/

theorem Sram.bytes_length (m : Sram) (a n : Nat) : (m.bytes a n).length = n := by
  induction n generalizing a with
  | zero => rfl
  | succ n ih => simp [Sram.bytes, ih]

/-- Memories that read the same over a range have the same bytes there. -/
theorem Sram.bytes_congr {m m' : Sram} {a n : Nat} (h : ∀ x, a ≤ x → x < a + n → m'.get x = m.get x) : m'.bytes a n = m.bytes a n := by
  induction n generalizing a with
  | zero => rfl
  | succ n ih =>
    simp only [Sram.bytes]
    rw [h a le_rfl (by omega), ih (fun x h1 h2 => h x (by omega) (by omega))]

theorem Sram.value_congr {m m' : Sram} {a n : Nat} (h : ∀ x, a ≤ x → x < a + n → m'.get x = m.get x) : m'.value a n = m.value a n := by
  simp only [Sram.value, Sram.bytes_congr h]

/-- Consecutive bytes read as they were written. -/
theorem Sram.bytes_setBytes_same (m : Sram) (a : Nat) (vs : List Byte) (h : a + vs.length ≤ sramSize) :
    (m.setBytes a vs).bytes a vs.length = vs := by
  have get : ∀ k (hk : k < vs.length), (m.setBytes a vs).get (a + k) = vs[k] := fun k hk => Sram.get_setBytes_same vs m a k hk h
  generalize m.setBytes a vs = m' at get
  clear h m
  induction vs generalizing a with
  | nil => rfl
  | cons v vs ih =>
    have first := get 0 (by simp)
    have rest := ih (a + 1) (fun k hk => by
      have := get (k + 1) (by simp; omega)
      simpa [Nat.add_assoc, Nat.add_comm 1 k] using this)
    simp only [List.length_cons, Sram.bytes, rest]
    simpa using first

theorem Sram.unchangedOutside_setBytes (m : Sram) (a : Nat) (vs : List Byte) : UnchangedOutside m (m.setBytes a vs) a vs.length :=
  fun _ hx => Sram.get_setBytes_other _ _ _ _ hx

theorem unchangedOutside_refl (m : Sram) (a n : Nat) : UnchangedOutside m m a n := fun _ _ => rfl

/-- Two writes inside a range. -/
theorem unchangedOutside_trans {m m' m'' : Sram} {a n b k c l : Nat} (h : UnchangedOutside m m' b k) (h' : UnchangedOutside m' m'' c l)
    (hb : a ≤ b ∧ b + k ≤ a + n) (hc : a ≤ c ∧ c + l ≤ a + n) : UnchangedOutside m m'' a n := fun x hx => by
  rw [h' x (by omega), h x (by omega)]

theorem unchangedOutside_widen {m m' : Sram} {a n b k : Nat} (h : UnchangedOutside m m' b k) (hb : a ≤ b ∧ b + k ≤ a + n) :
    UnchangedOutside m m' a n := fun x hx => h x (by omega)

/-! ## Band records (Table 04-1, R158 to R167) -/

theorem bandRecord_length (v : Nat) (valid count : Bool) (flags : BitVec 5) : (bandRecord v valid count flags).length = 4 := w32_length _

theorem bandRecord_value (v : Nat) (valid count : Bool) (flags : BitVec 5) :
    leValue (bandRecord v valid count flags) = v % 2 ^ 24 * 256 + (if valid then 64 else 0) + (if count then 32 else 0) + flags.toNat := by
  rw [bandRecord, w32, leValue_leBytes, Nat.mod_eq_of_lt]
  have := flags.isLt
  split <;> split <;> omega

/-- The CLIP flag stands in bit 2 of a band record. -/
theorem bandRecord_clip (v : Nat) (valid count : Bool) (flags : BitVec 5) :
    bit (leValue (bandRecord v valid count flags)) 2 = flags.getLsbD 2 := by
  have hf : flags.getLsbD 2 = decide (flags.toNat / 4 % 2 = 1) := by
    rw [BitVec.getLsbD, Nat.testBit_eq_decide_div_mod_eq]
  have hlt := flags.isLt
  rw [bandRecord_value, hf, bit, beq_eq_decide]
  congr 1
  simp only [eq_iff_iff]
  split <;> split <;> omega

/-- Some TDC code lies within 0.6 tau of a pulse (R161). -/
theorem tdcCodes_ne_nil {p : Nat} (h : p ≤ 255 * 2 ^ 32) : tdcCodes p ≠ [] := by
  refine List.ne_nil_of_mem (a := (p + 2 ^ 31) / 2 ^ 32) ?_
  simp only [tdcCodes, List.mem_filter, List.mem_range, decide_eq_true_eq]
  omega

/-- The TDC copy is one of the codes that R161 allows. -/
theorem tdcCopy_mem (draw f : Nat) {p : Nat} (h : p ≤ 255 * 2 ^ 32) : tdcCopy draw f p ∈ tdcCodes p := by
  have hpos : 0 < (tdcCodes p).length := List.length_pos_iff.mpr (tdcCodes_ne_nil h)
  have hlt : Config.tdcChoice draw f % max 1 (tdcCodes p).length < (tdcCodes p).length := by
    rw [Nat.max_eq_right hpos]; exact Nat.mod_lt _ hpos
  simp only [tdcCopy, List.getD_eq_getElem _ _ hlt]
  exact List.getElem_mem hlt

theorem tdcCopy_spec (draw f : Nat) {p : Nat} (h : p ≤ 255 * 2 ^ 32) :
    5 * (((tdcCopy draw f p * 2 ^ 32 : Nat) : Int) - p).natAbs ≤ 3 * 2 ^ 32 ∧ tdcCopy draw f p ≤ 255 := by
  have := tdcCopy_mem draw f h
  simp only [tdcCodes, List.mem_filter, List.mem_range, decide_eq_true_eq] at this
  exact ⟨this.2, by omega⟩

theorem pulse_le (e : EndedFrame) (v : BandValue) : e.pulse v ≤ 255 * 2 ^ 32 := min_le_left _ _

/-- The record of each kind of band at the handoff (R158 to R161, R167, R879). -/
theorem record_direct (e : EndedFrame) (draw f : Nat) (v : BandValue) : e.record draw f v false =
    if v.enabled = false then some (bandRecord 0 false false 0, false)
    else if v.count = true then none
    else if e.blanked = true then some (bandRecord 0 false false 16, false)
    else some (bandRecord (tdcCopy draw f (e.pulse v)) true false (addClip v.flags (e.pulseClips v)), (addClip v.flags (e.pulseClips v)).getLsbD 2) := by
  cases h1 : v.enabled <;> cases h2 : v.count <;> cases h3 : e.blanked <;> simp [EndedFrame.record, h1, h2, h3]

/-- The record of each kind of band at the count readout (R163 to R165, R879). -/
theorem record_count (e : EndedFrame) (draw f : Nat) (v : BandValue) : e.record draw f v true =
    if v.enabled = false ∨ v.count = false then none
    else if e.blanked = true then some (bandRecord 0 false true 16, false)
    else some (bandRecord (e.countWord v).1 true true (addClip v.flags (e.countWord v).2), (addClip v.flags (e.countWord v).2).getLsbD 2) := by
  cases h1 : v.enabled <;> cases h2 : v.count <;> cases h3 : e.blanked <;> simp [EndedFrame.record, h1, h2, h3]

/-- A record has four bytes, and says CLIP where the clip counter counts. -/
theorem record_some {e : EndedFrame} {draw f : Nat} {v : BandValue} {m c : Bool} {bs : List Byte} (h : e.record draw f v m = some (bs, c)) :
    bs.length = 4 ∧ c = (v.enabled && v.count == m && bit (leValue bs) 2) := by
  have whole : ∀ (x : Nat) (valid count : Bool) (flags : BitVec 5) (k : Bool), k = flags.getLsbD 2 → v.enabled = true → v.count = m →
      some (bandRecord x valid count flags, k) = some (bs, c) → bs.length = 4 ∧ c = (v.enabled && v.count == m && bit (leValue bs) 2) := by
    intro x valid count flags k hk he hm heq
    obtain ⟨rfl, rfl⟩ := Prod.mk.inj (Option.some.inj heq)
    exact ⟨bandRecord_length _ _ _ _, by rw [hk, bandRecord_clip, he, hm]; simp⟩
  cases m with
  | false =>
    rw [record_direct] at h
    split at h
    · next he =>
      obtain ⟨rfl, rfl⟩ := Prod.mk.inj (Option.some.inj h)
      exact ⟨bandRecord_length _ _ _ _, by simp [he]⟩
    · next he =>
      split at h
      · cases h
      · next hc =>
        have he : v.enabled = true := by simpa using he
        have hc : v.count = false := by simpa using hc
        split at h
        · exact whole _ _ _ _ _ rfl he hc h
        · exact whole _ _ _ _ _ rfl he hc h
  | true =>
    rw [record_count] at h
    split at h
    · cases h
    · next hv =>
      have hv : v.enabled = true ∧ v.count = true := by simpa using hv
      split at h
      · exact whole _ _ _ _ _ rfl hv.1 hv.2 h
      · exact whole _ _ _ _ _ rfl hv.1 hv.2 h

/-- A band without a record at a readout does not count there either. -/
theorem record_none {e : EndedFrame} {draw f : Nat} {v : BandValue} {m : Bool} (h : e.record draw f v m = none) :
    (v.enabled && v.count == m) = false := by
  cases m with
  | false =>
    rw [record_direct] at h
    cases he : v.enabled <;> cases hc : v.count <;> cases hb : e.blanked <;> simp_all
  | true =>
    rw [record_count] at h
    cases he : v.enabled <;> cases hc : v.count <;> cases hb : e.blanked <;> simp_all

/-! ## A readout writes its records one after the other -/

/-- The bands from f on whose record at a readout leaves CLIP in the word of the memory m, among those of a channel (R169). -/
def clippedFrom (m : Sram) (num : Nat) (mode : Bool) (ch : Nat) (vs : List BandValue) (f : Nat) : Nat :=
  (vs.zipIdx f).countP (fun x => x.2 / 32 == ch && (x.1.enabled && x.1.count == mode && bit (m.value (recordAddr num x.2) 4) 2))

theorem updAt_getElem {α : Type} {n : Nat} (v : Vector α n) (i : Nat) (j : Fin n) (f : α → α) :
    (updAt v i f)[j] = if i = j.val then f v[j] else v[j] := by
  unfold updAt
  by_cases hi : i < n
  · rw [dif_pos hi]
    by_cases hij : i = j.val
    · subst hij; simp [upd]
    · simp [upd, hij, Vector.getElem_set_ne]
  · have : i ≠ j.val := by omega
    rw [dif_neg hi, if_neg this]

theorem countClip_wr (d : Dev) (ch : Nat) (clip : Bool) :
    (d.countClip ch clip).wr = { d.wr with clips := if clip then updAt d.wr.clips ch (· + 1) else d.wr.clips } := by
  unfold Dev.countClip
  split <;> rfl

@[simp] theorem countClip_sram (d : Dev) (ch : Nat) (clip : Bool) : (d.countClip ch clip).sram = d.sram :=
  (countClip_keeps d ch clip) .sram (by decide)

/-- What the records of the bands from f on are after a readout: each one written, or as it was, and CLIP counted. -/
theorem writeRecords_spec (e : EndedFrame) (draw : Nat) (mode : Bool) (vs : List BandValue) (f : Nat) (d : Dev) (hf : f + vs.length ≤ 512) :
    UnchangedOutside d.sram (d.writeRecords e draw mode f vs).sram (recordAddr e.num f) (4 * vs.length) ∧
    (∀ k (hk : k < vs.length), match e.record draw (f + k) vs[k] mode with
      | none => ∀ x, recordAddr e.num (f + k) ≤ x → x < recordAddr e.num (f + k) + 4 →
          (d.writeRecords e draw mode f vs).sram.get x = d.sram.get x
      | some r => (d.writeRecords e draw mode f vs).sram.bytes (recordAddr e.num (f + k)) 4 = r.1) ∧
    (d.writeRecords e draw mode f vs).wr = { d.wr with clips := (d.writeRecords e draw mode f vs).wr.clips } ∧
    ∀ ch : Fin 16, (d.writeRecords e draw mode f vs).wr.clips[ch] =
      d.wr.clips[ch] + BitVec.ofNat 32 (clippedFrom (d.writeRecords e draw mode f vs).sram e.num mode ch.val vs f) := by
  induction vs generalizing f d with
  | nil => exact ⟨unchangedOutside_refl _ _ _, fun k hk => by simp at hk, rfl, fun ch => by simp [Dev.writeRecords, clippedFrom]⟩
  | cons v vs ih =>
    simp only [List.length_cons] at hf
    cases hr : e.record draw f v mode with
    | none =>
      obtain ⟨iout, irec, iwr, iclips⟩ := ih (f + 1) d (by omega)
      have step : d.writeRecords e draw mode f (v :: vs) = d.writeRecords e draw mode (f + 1) vs := by
        simp only [Dev.writeRecords, hr]
      rw [step]
      refine ⟨unchangedOutside_widen iout (by simp only [recordAddr, List.length_cons]; omega), fun k hk => ?_, iwr, fun ch => ?_⟩
      · cases k with
        | zero =>
          simp only [Nat.add_zero, List.getElem_cons_zero, hr]
          intro x h1 h2
          exact iout x (by simp only [recordAddr] at *; omega)
        | succ k =>
          have := irec k (by simpa using hk)
          simpa only [List.getElem_cons_succ, Nat.add_assoc, Nat.add_comm 1 k] using this
      · rw [iclips ch]
        simp [clippedFrom, record_none hr]
    | some r =>
      obtain ⟨bs, c⟩ := r
      obtain ⟨hlen, hclip⟩ := record_some hr
      let d1 := (d.memWrite (recordAddr e.num f) bs).countClip (f / 32) c
      obtain ⟨iout, irec, iwr, iclips⟩ := ih (f + 1) d1 (by omega)
      have step : d.writeRecords e draw mode f (v :: vs) = d1.writeRecords e draw mode (f + 1) vs := by
        simp only [Dev.writeRecords, hr]; rfl
      have h1 : d1.sram = d.sram.setBytes (recordAddr e.num f) bs := by simp [d1]
      have own : UnchangedOutside d.sram d1.sram (recordAddr e.num f) 4 := by
        rw [h1, ← hlen]; exact Sram.unchangedOutside_setBytes _ _ _
      have word : (d1.writeRecords e draw mode (f + 1) vs).sram.bytes (recordAddr e.num f) 4 = bs := by
        rw [Sram.bytes_congr (m := d1.sram) (fun x _ h2 => iout x (by simp only [recordAddr] at *; omega)), h1, ← hlen]
        exact Sram.bytes_setBytes_same _ _ _ (by simp only [recordAddr, sramSize, hlen]; omega)
      rw [step]
      refine ⟨unchangedOutside_trans own iout (by simp only [List.length_cons]; omega) (by simp only [recordAddr, List.length_cons]; omega), fun k hk => ?_, ?_,
        fun ch => ?_⟩
      · cases k with
        | zero =>
          simp only [Nat.add_zero, List.getElem_cons_zero, hr]
          exact word
        | succ k =>
          have := irec k (by simpa using hk)
          simp only [List.getElem_cons_succ, show f + (k + 1) = f + 1 + k by omega]
          cases hk' : e.record draw (f + 1 + k) (vs[k]'(by simpa using hk)) mode with
          | none =>
            simp only [hk'] at this ⊢
            intro x h3 h4
            rw [this x h3 h4]
            exact own x (by simp only [recordAddr] at *; omega)
          | some r =>
            simp only [hk'] at this ⊢
            exact this
      · rw [iwr]
        simp [d1, countClip_wr]
      · have hv : (v.enabled && v.count == mode && bit ((d1.writeRecords e draw mode (f + 1) vs).sram.value (recordAddr e.num f) 4) 2) = c := by
          rw [Sram.value, word, ← hclip]
        have hcount : clippedFrom (d1.writeRecords e draw mode (f + 1) vs).sram e.num mode ch.val (v :: vs) f =
            clippedFrom (d1.writeRecords e draw mode (f + 1) vs).sram e.num mode ch.val vs (f + 1) + if f / 32 = ch.val ∧ c = true then 1 else 0 := by
          simp only [clippedFrom, List.zipIdx_cons, List.countP_cons, hv, Bool.and_eq_true, beq_iff_eq]
        have hd1 : d1.wr.clips[ch] = d.wr.clips[ch] + if f / 32 = ch.val ∧ c = true then 1 else 0 := by
          simp only [d1, countClip_wr, Dev.memWrite_wr]
          cases c with
          | false => simp
          | true =>
            simp only [if_true, updAt_getElem, and_true]
            split <;> simp
        rw [iclips ch, hcount, hd1]
        split
        · rw [BitVec.ofNat_add, BitVec.add_assoc, BitVec.add_comm 1]
          rfl
        · simp

end Sys2Proof.Proofs

namespace Sys2Proof.Proofs
open Machine Laws

/-! ## CLIP counts by channel (R169) -/

/-- The entries of a numbered list, counted by number. -/
theorem countP_zipIdx {α : Type} (p : α × Nat → Bool) (vs : List α) (f : Nat) :
    (vs.zipIdx f).countP p = (List.range vs.length).countP (fun k => (vs[k]?).any (fun v => p (v, f + k))) := by
  induction vs generalizing f with
  | nil => rfl
  | cons v vs ih =>
    rw [List.zipIdx_cons, List.countP_cons, ih, List.length_cons, List.range_succ_eq_map, List.countP_cons, List.countP_map]
    simp [Function.comp_def, Nat.add_assoc, Nat.add_comm 1]

/-- Of n blocks of 32 numbers, those of one block. -/
theorem countP_block (q : Nat → Bool) (ch n : Nat) : (List.range (32 * n)).countP (fun f => f / 32 == ch && q f) =
    if ch < n then (List.range 32).countP (fun i => q (32 * ch + i)) else 0 := by
  induction n with
  | zero => rfl
  | succ n ih =>
    have block : ((List.range 32).map (32 * n + ·)).countP (fun f => f / 32 == ch && q f) =
        if n = ch then (List.range 32).countP (fun i => q (32 * ch + i)) else 0 := by
      rw [List.countP_map]
      split
      · next h =>
        subst h
        refine List.countP_congr (fun i hi => ?_)
        have hi : i < 32 := List.mem_range.mp hi
        simp [show (32 * n + i) / 32 = n by omega]
      · next h =>
        rw [List.countP_eq_zero]
        intro i hi
        have hi : i < 32 := List.mem_range.mp hi
        simp [show (32 * n + i) / 32 = n by omega, h]
    rw [Nat.mul_succ, List.range_add, List.countP_append, ih, block]
    by_cases h1 : ch < n
    · simp [h1, show ch < n + 1 by omega, show n ≠ ch by omega]
    · by_cases h2 : n = ch
      · simp [h2]
      · simp [h1, h2, show ¬ ch < n + 1 by omega]

theorem clippedFrom_zero (m : Sram) (num : Nat) (mode : Bool) (ch : Fin 16) {vs : List BandValue} (h : vs.length = 512) :
    clippedFrom m num mode ch.val vs 0 = ((List.range 32).filter (fun i =>
      (vs[32 * ch.val + i]?).any (fun v => v.enabled && v.count == mode && bit (m.value (recordAddr num (32 * ch.val + i)) 4) 2))).length := by
  have hpred : (fun k => (vs[k]?).any (fun v => (0 + k) / 32 == ch.val && (v.enabled && v.count == mode && bit (m.value (recordAddr num (0 + k)) 4) 2))) =
      fun k => k / 32 == ch.val && (vs[k]?).any (fun v => v.enabled && v.count == mode && bit (m.value (recordAddr num k) 4) 2) := by
    funext k
    cases vs[k]? <;> simp
  rw [clippedFrom, countP_zipIdx, hpred, h, show 512 = 32 * 16 from rfl, countP_block, if_pos ch.isLt, List.countP_eq_length_filter]

/-! ## HANDOFF (R29 to R31) -/

section
variable {s : State} {t : Time} {e : EndedFrame}

/-- The device once the records of a handoff are written. -/
def handoffRecords (s : State) (t : Time) (e : EndedFrame) : Dev :=
  ((((here s t).onFree (· + 1)).writeRecords e s.dev.free false 0 e.values).onWr (fun w => { w with ended := some { e with handedOff := true } }))

/-- HANDOFF with an ended frame. -/
theorem handoff_exec (he : s.dev.wr.ended = some e) : exec (.handoff t) s = .next { s with dev :=
      (if !(here s t).wringing || e.handedOff || decide (instant s t < e.stop + ns 1400) || decide (e.stop + ns 1600 < instant s t) then here s t
       else (handoffRecords s t e).handRuns e (handoffRecords s t e).loaded) } := by
  have h : (here s t).wr.ended = some e := he
  show Host.Outcome.next ({ s with dev := (match (here s t).wr.ended with | none => here s t | some e => _) } : State) = _
  simp only [h]
  rfl

theorem wringing_of (h : s.dev.pwr.state = .active ∨ s.dev.pwr.state = .watch) : (here s t).wringing = true := by
  show (s.dev.pwr.state == .active || s.dev.pwr.state == .watch) = true
  rcases h with h | h <;> simp [h]

theorem handRuns_keeps_handoff : Keeps [.wr, .tiles, .models, .spool, .sram, .free] (here s t)
    ((handoffRecords s t e).handRuns e (handoffRecords s t e).loaded) :=
  Keeps.andThen (handRuns_keeps _ _ _) (by decide) (Keeps.andThen (onWr_keeps _ _) (by decide)
    (Keeps.andThen (writeRecords_keeps _ _ _ _ _ _) (by decide) (Keeps.mono (onFree_keeps _ _) (by decide))))

/-- The word of a feature of the frame in its slot. -/
theorem value_of_bytes {m : Sram} {a : Nat} {bs : List Byte} (h : m.bytes a 4 = bs) : m.value a 4 = leValue bs := by rw [Sram.value, h]

theorem handoff_writes (hpow : s.dev.pwr.state = .active ∨ s.dev.pwr.state = .watch) (he : s.dev.wr.ended = some e) (hh : e.handedOff = false)
    (h1 : e.stop + ns 1400 ≤ instant s t) (h2 : instant s t ≤ e.stop + ns 1600) (hl : e.values.length = 512) :
    let word := fun (d : Dev) (f : Nat) => d.sram.value (recordAddr e.num f) 4
    Does (.handoff t) s t [.wr, .tiles, .models, .spool, .sram, .free] (fun d =>
      d.wr = { s.dev.wr with ended := some { e with handedOff := true }, clips := d.wr.clips } ∧
      UnchangedOutside s.dev.sram d.sram (recordAddr e.num 0) 2048 ∧
      (∀ ch : Fin 16, d.wr.clips[ch] = s.dev.wr.clips[ch] + BitVec.ofNat 32 ((List.range 32).filter (fun i =>
        (e.values[32 * ch.val + i]?).any (fun v => v.enabled && !v.count && bit (word d (32 * ch.val + i)) 2))).length) ∧
      ∀ (f : Fin 512), ∀ v ∈ e.values[f.val]?,
        (v.enabled = false → word d f.val = 0) ∧
        (v.enabled = true → v.count = true → word d f.val = word s.dev f.val) ∧
        (v.enabled = true → v.count = false → e.blanked = true → word d f.val = 16) ∧
        (v.enabled = true → v.count = false → e.blanked = false →
          5 * (((word d f.val / 256 * 2 ^ 32 : Nat) : Int) - (e.pulse v : Nat)).natAbs ≤ 3 * 2 ^ 32 ∧
          word d f.val / 256 ≤ 255 ∧ word d f.val % 256 = 64 + (addClip v.flags (e.pulseClips v)).toNat)) := by
  intro word
  have taken : ¬ (!(here s t).wringing || e.handedOff || decide (instant s t < e.stop + ns 1400) || decide (e.stop + ns 1600 < instant s t)) = true := by
    simp [wringing_of hpow, hh, h1, h2]
  refine does_of (by rw [handoff_exec he, if_neg taken]) handRuns_keeps_handoff ?_
  have hk := handRuns_keeps (handoffRecords s t e) e (handoffRecords s t e).loaded
  have hwr := hk .wr (by decide)
  have hsram := hk .sram (by decide)
  generalize (handoffRecords s t e).handRuns e (handoffRecords s t e).loaded = d at hwr hsram ⊢
  obtain ⟨out, recs, wr, clips⟩ := writeRecords_spec e s.dev.free false e.values 0 ((here s t).onFree (· + 1)) (by omega)
  have hsram : d.sram = (((here s t).onFree (· + 1)).writeRecords e s.dev.free false 0 e.values).sram := hsram
  have hwr : d.wr = { (((here s t).onFree (· + 1)).writeRecords e s.dev.free false 0 e.values).wr with ended := some { e with handedOff := true } } := hwr
  rw [← hsram] at out recs clips
  refine ⟨?_, ?_, fun ch => ?_, fun f v hv => ?_⟩
  · rw [hwr, wr]
    rfl
  · rw [hl] at out
    exact out
  · have hc : d.wr.clips = (((here s t).onFree (· + 1)).writeRecords e s.dev.free false 0 e.values).wr.clips := by rw [hwr]
    rw [hc, clips ch, clippedFrom_zero _ _ _ _ hl]
    simp only [beq_false]
    rfl
  · have hv : e.values[f.val]? = some v := hv
    obtain ⟨hlt, hvf⟩ := List.getElem?_eq_some_iff.mp hv
    have hrec := recs f.val hlt
    rw [hvf, Nat.zero_add, record_direct] at hrec
    refine ⟨fun h => ?_, fun h hc => ?_, fun h hc hb => ?_, fun h hc hb => ?_⟩
    · simp only [h, if_true] at hrec
      rw [show word d f.val = _ from value_of_bytes hrec, bandRecord_value]
      rfl
    · simp only [h, hc, Bool.true_eq_false, if_false, if_true] at hrec
      exact Sram.value_congr hrec
    · simp only [h, hc, hb, Bool.true_eq_false, Bool.false_eq_true, if_false, if_true] at hrec
      rw [show word d f.val = _ from value_of_bytes hrec, bandRecord_value]
      rfl
    · simp only [h, hc, hb, Bool.true_eq_false, Bool.false_eq_true, if_false] at hrec
      obtain ⟨near, small⟩ := tdcCopy_spec s.dev.free f.val (pulse_le e v)
      have hf := (addClip v.flags (e.pulseClips v)).isLt
      have hw : word d f.val = tdcCopy s.dev.free f.val (e.pulse v) * 256 + 64 + (addClip v.flags (e.pulseClips v)).toNat := by
        rw [show word d f.val = _ from value_of_bytes hrec, bandRecord_value, Nat.mod_eq_of_lt (by omega)]
        simp
      have hq : word d f.val / 256 = tdcCopy s.dev.free f.val (e.pulse v) := by omega
      rw [hq]
      exact ⟨near, small, by omega⟩

/-! ## The models at a handoff (R30) -/

theorem onRun_model_other (d : Dev) {h k : Handle} (hk : k ≠ h) (f : Run → Run) : (d.onRun h f).models[k] = d.models[k] :=
  upd_other _ _ _ _ hk

theorem handTile_model_other (d : Dev) {h k : Handle} (hk : k ≠ h) (m : Model) (e : EndedFrame) (x : Nat × Slice) (l : Layer) (i : Fin 48) :
    (d.handTile h m e x l i).models[k] = d.models[k] := onRun_model_other _ hk _

theorem handSlice_model_other {h k : Handle} (hk : k ≠ h) (m : Model) (r : Run) (e : EndedFrame) (x : Nat × Slice) (l : Layer)
    (is : List (Fin 48)) (d : Dev) : (d.handSlice h m r e x l is).models[k] = d.models[k] := by
  induction is generalizing d with
  | nil => rfl
  | cons i is ih =>
    rw [Dev.handSlice, ih]
    split
    · exact handTile_model_other _ hk _ _ _ _ _
    · rfl

theorem handSlices_model_other {h k : Handle} (hk : k ≠ h) (m : Model) (r : Run) (e : EndedFrame) (xs : List (Nat × Slice)) (d : Dev) :
    (d.handSlices h m r e xs).models[k] = d.models[k] := by
  induction xs generalizing d with
  | nil => rfl
  | cons x xs ih =>
    rw [Dev.handSlices, ih]
    split
    · split
      · exact handSlice_model_other hk _ _ _ _ _ _ _
      · rfl
    · rfl

/-- The handoff drives the tiles of no model but those with a run of its frame. -/
theorem handRuns_model_other {k : Handle} (e : EndedFrame) (ms : List (Handle × Model))
    (hm : ∀ x ∈ ms, x.1 = k → x.2.run.any (fun r => r.frame == e.num) = false) (d : Dev) : (d.handRuns e ms).models[k] = d.models[k] := by
  induction ms generalizing d with
  | nil => rfl
  | cons x ms ih =>
    obtain ⟨h, m⟩ := x
    rw [Dev.handRuns, ih (fun x hx => hm x (List.mem_cons_of_mem _ hx))]
    split
    · next r hr =>
      split
      · next hf =>
        refine handSlices_model_other (fun hk => ?_) _ _ _ _ _
        have := hm (h, m) List.mem_cons_self hk.symm
        simp [hr, hf] at this
      · rfl
    · rfl

theorem loaded_model {d : Dev} {h : Handle} {m : Model} (hx : (h, m) ∈ d.loaded) : d.models[h] = some m := by
  obtain ⟨k, -, hk⟩ := List.mem_filterMap.mp hx
  obtain ⟨m', hm', heq⟩ := Option.map_eq_some_iff.mp hk
  obtain ⟨rfl, rfl⟩ := Prod.mk.inj heq
  exact hm'

theorem handoff_model (h : Handle) (he : s.dev.wr.ended = some e)
    (hm : ((s.dev.models[h]).bind (·.run)).any (fun r => r.frame == e.num) = false) :
    Does (.handoff t) s t [.wr, .tiles, .models, .spool, .sram, .free] (fun d => d.models[h] = s.dev.models[h]) := by
  have hmodels : (handoffRecords s t e).models = s.dev.models := (writeRecords_keeps _ _ _ _ _ _) .models (by decide)
  refine does_of (handoff_exec he) ?_ ?_
  · split
    · exact Keeps.refl _ _
    · exact handRuns_keeps_handoff
  · split
    · rfl
    · rw [handRuns_model_other e _ (fun x hx hk => ?_), hmodels]
      have hx : s.dev.models[h] = some x.2 := by
        rw [← hk, ← hmodels]; exact loaded_model hx
      simpa [hx] using hm

/-! ## COUNT_MODE_READOUT and FEATURE_FRAME_WRITTEN (R32, R163 to R165, R168) -/

/-- The device after the count readout of an ended frame. -/
def countedRecords (s : State) (t : Time) (e : EndedFrame) : Dev :=
  ((here s t).writeRecords e 0 true 0 e.values).onWr (fun w => { w with ended := some { e with counted := true } })

theorem countModeReadout_exec (he : s.dev.wr.ended = some e) : exec (.countModeReadout t) s = .next { s with dev :=
      (if !(here s t).wringing || e.counted || decide (e.stop + us 12 < instant s t) then here s t else countedRecords s t e) } := by
  have h : (here s t).wr.ended = some e := he
  show Host.Outcome.next ({ s with dev := (match (here s t).wr.ended with | none => here s t | some e => _) } : State) = _
  simp only [h]
  rfl

theorem countModeReadout_writes (hpow : s.dev.pwr.state = .active ∨ s.dev.pwr.state = .watch) (he : s.dev.wr.ended = some e)
    (hc : e.counted = false) (h2 : instant s t ≤ e.stop + us 12) (hl : e.values.length = 512) :
    let word := fun (d : Dev) (f : Nat) => d.sram.value (recordAddr e.num f) 4
    Does (.countModeReadout t) s t [.wr, .spool, .sram] (fun d =>
      d.wr = { s.dev.wr with ended := some { e with counted := true }, clips := d.wr.clips } ∧
      UnchangedOutside s.dev.sram d.sram (recordAddr e.num 0) 2048 ∧
      (∀ ch : Fin 16, d.wr.clips[ch] = s.dev.wr.clips[ch] + BitVec.ofNat 32 ((List.range 32).filter (fun i =>
        (e.values[32 * ch.val + i]?).any (fun v => v.enabled && v.count && bit (word d (32 * ch.val + i)) 2))).length) ∧
      ∀ (f : Fin 512), ∀ v ∈ e.values[f.val]?,
        (v.enabled = false ∨ v.count = false → word d f.val = word s.dev f.val) ∧
        (v.enabled = true → v.count = true → e.blanked = true → word d f.val = 48) ∧
        (v.enabled = true → v.count = true → e.blanked = false →
          d.sram.bytes (recordAddr e.num f.val) 4 = bandRecord (e.countWord v).1 true true (addClip v.flags (e.countWord v).2))) := by
  intro word
  have taken : ¬ (!(here s t).wringing || e.counted || decide (e.stop + us 12 < instant s t)) = true := by
    simp [wringing_of hpow, hc, h2]
  refine does_of (d := countedRecords s t e) (by rw [countModeReadout_exec he, if_neg taken])
    (Keeps.andThen (onWr_keeps _ _) (by decide) (writeRecords_keeps _ _ _ _ _ _)) ?_
  obtain ⟨out, recs, wr, clips⟩ := writeRecords_spec e 0 true e.values 0 (here s t) (by omega)
  refine ⟨?_, ?_, fun ch => ?_, fun f v hv => ?_⟩
  · show ({ ((here s t).writeRecords e 0 true 0 e.values).wr with ended := some { e with counted := true } } : Wringer) = _
    rw [wr]
    rfl
  · rw [hl] at out
    exact out
  · refine (clips ch).trans ?_
    rw [clippedFrom_zero _ _ _ _ hl]
    simp only [beq_true]
    rfl
  · have hv : e.values[f.val]? = some v := hv
    obtain ⟨hlt, hvf⟩ := List.getElem?_eq_some_iff.mp hv
    have hrec := recs f.val hlt
    rw [hvf, Nat.zero_add, record_count] at hrec
    refine ⟨fun h => ?_, fun h hc hb => ?_, fun h hc hb => ?_⟩
    · simp only [h, if_true] at hrec
      exact Sram.value_congr hrec
    · simp only [h, hc, hb, Bool.true_eq_false, or_self, if_false, if_true] at hrec
      rw [show word (countedRecords s t e) f.val = _ from value_of_bytes hrec, bandRecord_value]
      rfl
    · simp only [h, hc, hb, Bool.true_eq_false, Bool.false_eq_true, or_self, if_false] at hrec
      exact hrec

theorem featureFrameWritten_exec (he : s.dev.wr.ended = some e) : exec (.featureFrameWritten t) s = .next { s with dev :=
      (if !(here s t).wringing || !e.handedOff || !e.counted || e.written || decide (e.stop + us 12 < instant s t) then here s t
       else (here s t).frameWritten e) } := by
  have h : (here s t).wr.ended = some e := he
  show Host.Outcome.next ({ s with dev := (match (here s t).wr.ended with | none => here s t | some e => _) } : State) = _
  simp only [h]
  rfl

/-- Bytes written one after the other read as they were written. -/
theorem Sram.bytes_append (m : Sram) (a n k : Nat) : m.bytes a (n + k) = m.bytes a n ++ m.bytes (a + n) k := by
  induction n generalizing a with
  | zero => simp [Sram.bytes]
  | succ n ih =>
    rw [show n + 1 + k = n + k + 1 by omega]
    simp only [Sram.bytes, ih, List.cons_append, show a + 1 + n = a + (n + 1) by omega]

theorem featureFrameWritten_writes (hpow : s.dev.pwr.state = .active ∨ s.dev.pwr.state = .watch) (he : s.dev.wr.ended = some e)
    (hh : e.handedOff = true) (hc : e.counted = true) (hw : e.written = false) (h2 : instant s t ≤ e.stop + us 12) :
    let a := e.num % 2 * 0x1000 + 0x800
    Does (.featureFrameWritten t) s t [.wr, .spool, .sram] (fun d =>
      d.wr = { s.dev.wr with ended := some { e with written := true } } ∧ UnchangedOutside s.dev.sram d.sram a 24 ∧
      d.sram.bytes a 8 = w64 e.startStamp.toNat ∧ d.sram.bytes (a + 8) 8 = w64 e.stopStamp.toNat ∧ d.sram.bytes (a + 16) 8 = w64 e.num) := by
  intro a
  have taken : ¬ (!(here s t).wringing || !e.handedOff || !e.counted || e.written || decide (e.stop + us 12 < instant s t)) = true := by
    simp [wringing_of hpow, hh, hc, hw, h2]
  refine does_of (d := (here s t).frameWritten e) (by rw [featureFrameWritten_exec he, if_neg taken]) (frameWritten_keeps _ _) ?_
  have sram : ((here s t).frameWritten e).sram =
      (s.dev.sram.setBytes a (w64 e.startStamp.toNat ++ w64 e.stopStamp.toNat)).setBytes (a + 16) (w64 e.num) := by
    rw [show a + 16 = e.num % 2 * 0x1000 + 0x810 by omega]
    simp only [Dev.frameWritten, onWr_sram, Dev.memWrite_sram]
    rfl
  have hlen : (w64 e.startStamp.toNat ++ w64 e.stopStamp.toNat).length = 16 := by simp
  have ha : a + 24 ≤ sramSize := by simp only [a, sramSize]; omega
  have out1 := Sram.unchangedOutside_setBytes s.dev.sram a (w64 e.startStamp.toNat ++ w64 e.stopStamp.toNat)
  have own1 := Sram.bytes_setBytes_same s.dev.sram a (w64 e.startStamp.toNat ++ w64 e.stopStamp.toNat) (by omega)
  rw [hlen] at out1 own1
  generalize s.dev.sram.setBytes a (w64 e.startStamp.toNat ++ w64 e.stopStamp.toNat) = m at sram out1 own1
  have out2 := Sram.unchangedOutside_setBytes m (a + 16) (w64 e.num)
  have own2 := Sram.bytes_setBytes_same m (a + 16) (w64 e.num) (by rw [w64_length]; omega)
  rw [w64_length] at out2 own2
  rw [← sram] at out2 own2
  have stamps : ((here s t).frameWritten e).sram.bytes a 16 = w64 e.startStamp.toNat ++ w64 e.stopStamp.toNat :=
    (Sram.bytes_congr (fun x _ hx => out2 x (Or.inl hx))).trans own1
  rw [show (16 : Nat) = 8 + 8 from rfl, Sram.bytes_append] at stamps
  obtain ⟨b1, b2⟩ := List.append_inj stamps (by rw [Sram.bytes_length, w64_length])
  refine ⟨?_, unchangedOutside_trans out1 out2 (by omega) (by omega), b1, b2, own2⟩
  show ({ s.dev.wr with ended := some { e with handedOff := true, counted := true, written := true } } : Wringer) = _
  simp [hh, hc]

/-- No part of the readout is due. -/
theorem readout_nothing (he : s.dev.wr.ended = some e) (h1 : instant s t < e.stop + ns 1400 ∨ e.handedOff = true)
    (h2 : e.counted = true ∨ e.stop + us 12 < instant s t) (h3 : e.written = true ∨ e.stop + us 12 < instant s t) :
    Does (.handoff t) s t [] (fun _ => True) ∧ Does (.countModeReadout t) s t [] (fun _ => True) ∧
      Does (.featureFrameWritten t) s t [] (fun _ => True) := by
  refine ⟨does_nothing ?_, does_nothing ?_, does_nothing ?_⟩
  · rw [handoff_exec he, if_pos]
    rcases h1 with h | h <;> simp [h]
  · rw [countModeReadout_exec he, if_pos]
    rcases h2 with h | h <;> simp [h]
  · rw [featureFrameWritten_exec he, if_pos]
    rcases h3 with h | h <;> simp [h]

end

/-- Settles O38: the handoff, the count readout, and the stamps and number of the frame. -/
theorem readout : Obligations.Readout := by
  unfold Obligations.Readout
  exact ⟨fun s t e hpow he hh h1 h2 hl => handoff_writes hpow he hh h1 h2 hl, fun s t e h he hm => handoff_model h he hm,
    fun s t e hpow he hc h2 hl => countModeReadout_writes hpow he hc h2 hl,
    fun s t e hpow he hh hc hw h2 => featureFrameWritten_writes hpow he hh hc hw h2, fun s t e he h1 h2 h3 => readout_nothing he h1 h2 h3⟩

end Sys2Proof.Proofs

namespace Sys2Proof.Proofs
open Machine Laws

/-! ## Records and interrupt bits: what they make of the host side -/

theorem post_host (d : Dev) (to_ : Nat → Bool) (stamp : BitVec 64) (e : Ev) : (d.post to_ stamp e).host =
    { d.host with pages := vmap d.host.pages (fun i p => if to_ i then p.take (at? d.host.enable i false) d.clk.now stamp e else p) } := rfl

theorem raise_host (d : Dev) (to_ : Nat → Bool) (i : Irq) : (d.raise to_ i).host =
    { d.host with pages := vmap d.host.pages (fun n p => if to_ n then p.raise i d.clk.now else p) } := rfl

theorem post_host_congr {d d' : Dev} (hh : d'.host = d.host) (hc : d'.clk = d.clk) (to_ : Nat → Bool) (stamp : BitVec 64) (e : Ev) :
    (d'.post to_ stamp e).host = (d.post to_ stamp e).host := by rw [post_host, post_host, hh, hc]

theorem raise_host_congr {d d' : Dev} (hh : d'.host = d.host) (hc : d'.clk = d.clk) (to_ : Nat → Bool) (i : Irq) :
    (d'.raise to_ i).host = (d.raise to_ i).host := by rw [raise_host, raise_host, hh, hc]

theorem postAll_host_congr {d d' : Dev} (hh : d'.host = d.host) (hc : d'.clk = d.clk) (e : Ev) : (d'.postAll e).host = (d.postAll e).host := by
  have he : d'.everyEnabled = d.everyEnabled := by unfold Dev.everyEnabled Dev.enabled; rw [hh]
  unfold Dev.postAll
  rw [he, stamp_congr hc, post_host_congr hh hc]

/-- No interrupt bit of any page clears from d to e. -/
def IrqStays (d e : Dev) : Prop := ∀ (b : Basket) (i : Fin 13), d.host.pages[b].irqPending[i] = true → e.host.pages[b].irqPending[i] = true

theorem IrqStays.refl (d : Dev) : IrqStays d d := fun _ _ h => h

/-- One more step that clears none. -/
theorem IrqStays.andThen {d e f : Dev} (h : IrqStays e f) (h' : IrqStays d e) : IrqStays d f := fun b i hi => h b i (h' b i hi)

theorem IrqStays.of_keeps {ps : List Part} {d e : Dev} (h : Keeps ps d e) (hp : Part.host ∉ ps) : IrqStays d e := fun b i hi => by
  rw [show e.host = d.host from h .host hp]; exact hi

theorem Page.raise_irqPending (p : Page) (x : Irq) (t : Time) (i : Fin 13) :
    (p.raise x t).irqPending[i] = if i = x.bit then true else p.irqPending[i] := by
  by_cases h : i = x.bit
  · subst h; simp [Page.raise]
  · have : x.bit.val ≠ i.val := fun e => h (Fin.ext e.symm)
    simp [Page.raise, h, this, Vector.getElem_set_ne]

theorem Page.take_irqPending (p : Page) (on : Bool) (t : Time) (stamp : BitVec 64) (e : Ev) (i : Fin 13) (h : p.irqPending[i] = true) :
    (p.take on t stamp e).irqPending[i] = true := by
  unfold Page.take
  dsimp only
  split
  · exact h
  · rw [Page.raise_irqPending]
    split
    · rfl
    · exact h

theorem onPages_irqStays (d : Dev) (to_ : Nat → Bool) (f : Nat → Page → Page)
    (hf : ∀ n p (i : Fin 13), p.irqPending[i] = true → (f n p).irqPending[i] = true) : IrqStays d (d.onPages to_ f) := by
  intro b i h
  show (vmap d.host.pages (fun n p => if to_ n then f n p else p))[b.val].irqPending[i] = true
  rw [vmap_getElem]
  split
  · exact hf _ _ _ h
  · exact h

theorem post_irqStays (d : Dev) (to_ : Nat → Bool) (stamp : BitVec 64) (e : Ev) : IrqStays d (d.post to_ stamp e) :=
  onPages_irqStays _ _ _ (fun _ p i h => Page.take_irqPending p _ _ _ _ i h)

theorem raise_irqStays (d : Dev) (to_ : Nat → Bool) (x : Irq) : IrqStays d (d.raise to_ x) :=
  onPages_irqStays _ _ _ (fun _ p i h => by rw [Page.raise_irqPending]; split <;> simp_all)

theorem raise_everyBasket (d : Dev) (x : Irq) (b : Basket) : (d.raise everyBasket x).host.pages[b].irqPending[x.bit] = true := by
  show (vmap d.host.pages (fun n p => if everyBasket n then p.raise x d.now else p))[b.val].irqPending[x.bit] = true
  rw [vmap_getElem]
  exact (Page.raise_irqPending _ _ _ _).trans (if_pos rfl)

theorem seamFailures_irqStays (h : Handle) (l : List (Fin 48 × Nat)) (d : Dev) : IrqStays d (d.seamFailures h l) := by
  induction l generalizing d with
  | nil => exact IrqStays.refl _
  | cons x l ih =>
    exact IrqStays.andThen (ih _) (IrqStays.andThen (post_irqStays _ _ _ _) (IrqStays.of_keeps (onTile_keeps _ _ _) (by decide)))

theorem postLearn_irqStays (d : Dev) (h : Handle) (b : Basket) (x y : Learn) : IrqStays d (d.postLearn h b x y) := by
  unfold Dev.postLearn
  split
  · exact IrqStays.refl _
  · refine IrqStays.andThen (IrqStays.of_keeps (trigger_keeps _) (by decide)) ?_
    split
    · exact post_irqStays _ _ _ _
    · exact IrqStays.refl _

theorem learnEnd_irqStays (d : Dev) (h : Handle) (m : Model) (r : Run) (v : RunView) : IrqStays d (d.learnEnd h m r v) := by
  unfold Dev.learnEnd
  split
  · refine IrqStays.andThen (postLearn_irqStays _ _ _ _ _) (IrqStays.andThen (postLearn_irqStays _ _ _ _ _)
      (IrqStays.andThen (IrqStays.of_keeps (onLearn_keeps _ _ _) (by decide)) ?_))
    have write : ∀ (d : Dev) (c : Bool) (a : Nat) (bs : List Byte), IrqStays d (if c then d.memWrite a bs else d) := fun d c a bs => by
      split
      · exact IrqStays.of_keeps (memWrite_keeps _ _ _) (by decide)
      · exact IrqStays.refl _
    split
    · refine IrqStays.andThen (write _ _ _ _) ?_
      split
      · exact write _ _ _ _
      · exact IrqStays.refl _
    · split
      · exact write _ _ _ _
      · exact IrqStays.refl _
  · exact IrqStays.refl _

/-! ## The end of a run, stage by stage (R482 to R487) -/

/-- The flags that the status record of a run holds (Table 10-4). -/
def endFlags (r : Run) (x : Err) : BitVec 7 := r.flags ||| (if r.seamFailed.isEmpty then 0 else 64) ||| (if x == .ok then 0 else 32)

/-- The event of a run that ends. -/
def endEvent (h : Handle) (r : Run) (x : Err) : Ev := { event := .runEnd, subject := h.val, data0 := x.code.toNat, data1 := r.frame % 65536 }

/-- A model once its run has ended, with the phases that its tiles still finish. -/
def endedModel (m : Model) (r : Run) (x : Err) (left : List Planned) : Model :=
  { m with run := none, leaving := m.leaving ++ left, lastResult := x.code, update := m.update + 2,
           runsDone := if x == .ok then m.runsDone + 1 else m.runsDone, runsEarly := if x == .ok then m.runsEarly else m.runsEarly + 1,
           verdict := if x == .ok then r.verdict.getD m.verdict else m.verdict, novelty := if x == .ok then r.novelty.getD m.novelty else m.novelty }

/-- What the learning side sees of the run. -/
def endView (r : Run) (x : Err) : RunView :=
  { tr := r.tr, ok := x == .ok, clean := x == .ok && endFlags r x == 0, novelty := if x == .ok then r.novelty else none, top := r.verdictTop,
    label := r.label, base := r.baseShadow.isSome, head := r.headShadow.isSome }

/-- The tiles have the counts of the run and the marks of its seam failures. -/
def endTiles (d : Dev) (h : Handle) (m : Model) (r : Run) : Dev := (d.tileCounts m r).seamFailures h r.seamFailed

/-- The model has lost its run. -/
def endModel (d : Dev) (h : Handle) (r : Run) (x : Err) : Dev :=
  d.onModel h (fun m => endedModel m r x (if x == .ok then [] else d.phasesLeft r))

/-- The status record is written. -/
def endRecord (d : Dev) (h : Handle) (r : Run) (x : Err) : Dev :=
  match d.model h with
  | some m' => d.memWrite (0x70000 + 0x400 * h.val) (d.statusRecord m' r x.code (endFlags r x).toNat)
  | none => d

/-- The tags of the run are completed or aborted. -/
def endTags (d : Dev) (h : Handle) (x : Err) : Dev :=
  if x == .ok then d.retireTags true ((d.spool.ofRun h).map (·.id)) else (d.abortRun h).dropReloads h

/-- The event and the interrupt. -/
def endNotice (d : Dev) (h : Handle) (m : Model) (r : Run) (x : Err) : Dev :=
  (d.postTo m.basket (endEvent h r x)).raise (toBasket m.basket) .runEnd

/-- A verdict wakes (R876). -/
def endWake (d : Dev) (r : Run) (x : Err) : Dev :=
  if x == .ok && r.verdict.any (fun v => v.toNat % 256 != 0) && d.pwr.state == .watch then d.wakeBy 2 else d

/-- The learning side has seen the run, and a patch that is due starts. -/
def endLearn (d : Dev) (h : Handle) (m : Model) (r : Run) (x : Err) : Dev :=
  if x == .ok || (d.learnEnd h m r (endView r x)).pwr.state == .active then (d.learnEnd h m r (endView r x)).patchAtEnd h
  else d.learnEnd h m r (endView r x)

/-- A run in flight ends in these stages. -/
theorem endRun_stages {d : Dev} {h : Handle} {m : Model} {r : Run} (x : Err) (hm : d.models[h] = some m) (hr : m.run = some r) :
    d.endRun h x =
      endLearn (endWake (endNotice (endTags (endRecord (endModel (endTiles d h m r) h r x) h r x) h x) h m r x) r x) h m r x := by
  have hm : d.model h = some m := hm
  unfold Dev.endRun
  simp only [hm, hr]
  rfl

theorem endRun_idle {d : Dev} {h : Handle} (x : Err) (hm : (d.models[h]).bind (·.run) = none) : d.endRun h x = d := by
  have hm : (d.model h).bind (·.run) = none := hm
  unfold Dev.endRun
  cases h1 : d.model h with
  | none => rfl
  | some m =>
    have h2 : m.run = none := by simpa [h1] using hm
    simp only [h2]

theorem endTiles_keeps (d : Dev) (h : Handle) (m : Model) (r : Run) : Keeps [.host, .tiles] d (endTiles d h m r) :=
  Keeps.andThen (seamFailures_keeps _ _ _) (by decide) (Keeps.mono (tileCounts_keeps _ _ _) (by decide))

theorem endModel_keeps (d : Dev) (h : Handle) (r : Run) (x : Err) : Keeps [.models] d (endModel d h r x) := onModel_keeps _ _ _

theorem endRecord_keeps (d : Dev) (h : Handle) (r : Run) (x : Err) : Keeps [.spool, .sram] d (endRecord d h r x) := by
  unfold endRecord
  split
  · exact memWrite_keeps _ _ _
  · exact Keeps.refl _ _

theorem endTags_keeps (d : Dev) (h : Handle) (x : Err) : Keeps [.spool, .tiles] d (endTags d h x) := by
  unfold endTags
  split
  · exact Keeps.mono (retireTags_keeps _ _ _) (by decide)
  · exact Keeps.andThen (dropReloads_keeps _ _) (by decide) (Keeps.mono (abortRun_keeps _ _) (by decide))

theorem endNotice_keeps (d : Dev) (h : Handle) (m : Model) (r : Run) (x : Err) : Keeps [.host] d (endNotice d h m r x) :=
  Keeps.andThen (raise_keeps _ _ _) (by decide) (postTo_keeps _ _ _)

theorem endWake_keeps (d : Dev) (r : Run) (x : Err) : Keeps [.pwr] d (endWake d r x) := by
  unfold endWake
  split
  · exact wakeBy_keeps _ _
  · exact Keeps.refl _ _

theorem endNotice_irqStays (d : Dev) (h : Handle) (m : Model) (r : Run) (x : Err) : IrqStays d (endNotice d h m r x) :=
  IrqStays.andThen (raise_irqStays _ _ _) (post_irqStays _ _ _ _)

theorem endTiles_irqStays (d : Dev) (h : Handle) (m : Model) (r : Run) : IrqStays d (endTiles d h m r) :=
  IrqStays.andThen (seamFailures_irqStays _ _ _) (IrqStays.of_keeps (tileCounts_keeps _ _ _) (by decide))

theorem endLearn_irqStays (d : Dev) (h : Handle) (m : Model) (r : Run) (x : Err) : IrqStays d (endLearn d h m r x) := by
  unfold endLearn
  split
  · exact IrqStays.andThen (IrqStays.of_keeps (patchAtEnd_keeps _ _) (by decide)) (learnEnd_irqStays _ _ _ _ _)
  · exact learnEnd_irqStays _ _ _ _ _

theorem endRun_irqStays (d : Dev) (h : Handle) (x : Err) : IrqStays d (d.endRun h x) := by
  cases hm : d.models[h] with
  | none => rw [endRun_idle x (by rw [hm]; rfl)]; exact IrqStays.refl _
  | some m =>
    cases hr : m.run with
    | none => rw [endRun_idle x (by rw [hm]; exact hr)]; exact IrqStays.refl _
    | some r =>
      rw [endRun_stages x hm hr]
      refine IrqStays.andThen (endLearn_irqStays _ _ _ _ _) (IrqStays.andThen (IrqStays.of_keeps (endWake_keeps _ _ _) (by decide))
        (IrqStays.andThen (endNotice_irqStays _ _ _ _ _) (IrqStays.andThen (IrqStays.of_keeps (endTags_keeps _ _ _) (by decide)) ?_)))
      exact IrqStays.andThen (IrqStays.of_keeps (endRecord_keeps _ _ _ _) (by decide))
        (IrqStays.andThen (IrqStays.of_keeps (endModel_keeps _ _ _ _) (by decide)) (endTiles_irqStays _ _ _ _))

theorem runsLate_irqStays (hs : List Handle) (d : Dev) : IrqStays d (d.runsLate hs) := by
  induction hs generalizing d with
  | nil => exact IrqStays.refl _
  | cons h hs ih =>
    refine IrqStays.andThen (ih _) ?_
    unfold Dev.runLate
    split
    · exact IrqStays.refl _
    · split
      · exact IrqStays.refl _
      · exact endRun_irqStays _ _ _

theorem runsMissed_irqStays (k : Nat) (hs : List Handle) (d : Dev) : IrqStays d (d.runsMissed k hs) := by
  induction hs generalizing d with
  | nil => exact IrqStays.refl _
  | cons h hs ih =>
    unfold Dev.runsMissed
    split
    · exact ih _
    · split
      · exact IrqStays.andThen (ih _) (IrqStays.andThen (post_irqStays _ _ _ _) (IrqStays.of_keeps (onModel_keeps _ _ _) (by decide)))
      · exact ih _

end Sys2Proof.Proofs

namespace Sys2Proof.Proofs
open Machine Laws

/-! ## What the functions of the band clocks leave of the Wringer -/

/-- The functions that set band clocks leave the rest of the Wringer. -/
theorem prefilter_wr (l : List (Nat × Band)) (d : Dev) : (d.prefilter l).wr = { d.wr with clocks := (d.prefilter l).wr.clocks } := by
  induction l generalizing d with
  | nil => rfl
  | cons x l ih => exact (ih _).trans rfl

theorem holdClocks_wr (l : List (Nat × Band)) (d : Dev) : (d.holdClocks l).wr = { d.wr with clocks := (d.holdClocks l).wr.clocks } := by
  induction l generalizing d with
  | nil => rfl
  | cons x l ih => exact (ih _).trans rfl

theorem retune_wr (old : WringerSet) (l : List (Nat × Band)) (d : Dev) :
    (d.retune old l).wr = { d.wr with clocks := (d.retune old l).wr.clocks } := by
  induction l generalizing d with
  | nil => rfl
  | cons x l ih => exact (ih _).trans rfl

theorem retuneCarriers_wr (old : WringerSet) (l : List Nat) (d : Dev) :
    (d.retuneCarriers old l).wr = { d.wr with clocks := (d.retuneCarriers old l).wr.clocks } := by
  induction l generalizing d with
  | nil => rfl
  | cons x l ih => exact (ih _).trans rfl

theorem openBands_wr (l : List (Nat × Band)) (d : Dev) :
    (d.openBands l).wr = { d.wr with clocks := (d.openBands l).wr.clocks, bandSettle := (d.openBands l).wr.bandSettle } := by
  induction l generalizing d with
  | nil => rfl
  | cons x l ih => exact (ih _).trans rfl

/-! ## FRAME_BOUNDARY (R24 to R28, R157) -/

@[simp] theorem countOn_bandSettle (w : Wringer) (now : Time) (due : Bool) : (w.countOn now due).bandSettle = w.bandSettle := by
  unfold Wringer.countOn
  split
  · rfl
  · split <;> rfl
  · split
    · rfl
    · split <;> rfl

@[simp] theorem countOn_clocks (w : Wringer) (now : Time) (due : Bool) : (w.countOn now due).clocks = w.clocks := by
  unfold Wringer.countOn
  split
  · rfl
  · split <;> rfl
  · split
    · rfl
    · split <;> rfl

section
variable {s : State} {t : Time} {means : List (Nat × Nat)}

/-- FRAME_BOUNDARY by its cases. -/
theorem frameBoundary_exec : exec (.frameBoundary t means) s = .next { s with dev :=
      (if !(here s t).wringing || !s.dev.wr.running || !((here s t).dueNow || (here s t).clockFalls) then here s t
       else if decide (instant s t < s.dev.wr.start + us 20) then (here s t).mergeBoundary
       else (here s t).takeBoundary means) } := rfl

theorem boundary_falls (hpow : s.dev.pwr.state = .active ∨ s.dev.pwr.state = .watch) (hrun : s.dev.wr.running = true)
    (hfall : (here s t).dueNow = true ∨ (here s t).clockFalls = true) :
    ¬ (!(here s t).wringing || !s.dev.wr.running || !((here s t).dueNow || (here s t).clockFalls)) = true := by
  have hfall : ((here s t).dueNow || (here s t).clockFalls) = true := by simpa using hfall
  rw [wringing_of hpow, hrun, hfall]
  decide

theorem frameBoundary_takes (hpow : s.dev.pwr.state = .active ∨ s.dev.pwr.state = .watch) (hrun : s.dev.wr.running = true)
    (hfall : (here s t).dueNow = true ∨ (here s t).clockFalls = true) (hlate : s.dev.wr.start + us 20 ≤ instant s t) :
    exec (.frameBoundary t means) s = .next { s with dev := (here s t).takeBoundary means } := by
  rw [frameBoundary_exec, if_neg (boundary_falls hpow hrun hfall), if_neg (by simpa using hlate)]

/-- The ended frame of a boundary. -/
def endedFrame (d : Dev) (means : List (Nat × Nat)) (truncated : Bool) : EndedFrame :=
  { num := d.wr.num, start := d.wr.start, stop := d.now, startStamp := d.wr.startStamp, stopStamp := d.stamp, tref := d.tref,
    truncated := truncated, blanked := false, values := d.bandValues means truncated, handedOff := false, counted := false, written := false }

/-- The device once the detectors are copied, the event posted and the interrupt set. -/
def boundaryNoticed (d : Dev) (truncated : Bool) : Dev :=
  ((d.detectorCopy d.wr.num).postAll { event := .frameEnd, data0 := d.wr.num % 65536, data1 := truncated.toNat }).raise everyBasket .frame

/-- The device in the next frame, before the clocks of its bands are set. -/
def nextFrame (d : Dev) (means : List (Nat × Nat)) (truncated : Bool) : Dev :=
  (boundaryNoticed d truncated).onWr (fun x => { x with
    ended := some (endedFrame d means truncated), num := d.wr.num + 1, start := (boundaryNoticed d truncated).now,
    startStamp := (boundaryNoticed d truncated).stamp, prevLen := (boundaryNoticed d truncated).now - d.wr.start, due := none,
    truncate := false, bridge := false })

/-- Forgetting the settle windows leaves the rest of a Wringer. -/
theorem forgetWindows_wr {p : Dev} {w : Wringer} (h : p.wr = { w with clocks := p.wr.clocks }) :
    p.forgetWindows.wr = { w with bandSettle := p.forgetWindows.wr.bandSettle, clocks := p.forgetWindows.wr.clocks } := by
  have own : p.forgetWindows.wr = { p.wr with bandSettle := p.forgetWindows.wr.bandSettle } := rfl
  rw [own, h]

theorem endFrame_eq (d : Dev) (truncated : Bool) : d.endFrame means truncated false =
    ((nextFrame d means truncated).prefilter ((nextFrame d means truncated).wr.live.onBands.filter (·.2.order))).forgetWindows := by
  unfold Dev.endFrame
  rfl

theorem boundaryNoticed_keeps (d : Dev) (truncated : Bool) : Keeps [.host, .rinse, .spool, .sram] d (boundaryNoticed d truncated) :=
  Keeps.andThen (raise_keeps _ _ _) (by decide) (Keeps.andThen (postAll_keeps _ _) (by decide) (Keeps.mono (detectorCopy_keeps _ _) (by decide)))

/-- The Wringer after a boundary, but for the clocks and settle windows of its bands. -/
theorem endFrame_wr (d : Dev) (truncated : Bool) : (d.endFrame means truncated false).wr =
    { d.wr with ended := some (endedFrame d means truncated), num := d.wr.num + 1, start := d.now, startStamp := d.stamp,
                prevLen := d.now - d.wr.start, due := none, truncate := false, bridge := false,
                bandSettle := (d.endFrame means truncated false).wr.bandSettle, clocks := (d.endFrame means truncated false).wr.clocks } := by
  have hk := boundaryNoticed_keeps d truncated
  have hclk : (boundaryNoticed d truncated).clk = d.clk := hk .clk (by decide)
  have hwr : (boundaryNoticed d truncated).wr = d.wr := hk .wr (by decide)
  have hnow : (boundaryNoticed d truncated).now = d.now := by simp only [Dev.now, hclk]
  have next : (nextFrame d means truncated).wr = { d.wr with
      ended := some (endedFrame d means truncated), num := d.wr.num + 1, start := d.now, startStamp := d.stamp,
      prevLen := d.now - d.wr.start, due := none, truncate := false, bridge := false } := by
    simp only [nextFrame, onWr_wr, hwr, hnow, stamp_congr hclk]
  have pre := prefilter_wr ((nextFrame d means truncated).wr.live.onBands.filter (·.2.order)) (nextFrame d means truncated)
  rw [next] at pre
  rw [endFrame_eq]
  exact forgetWindows_wr pre

theorem takeBoundary_wr (d : Dev) : (d.takeBoundary means).wr =
    ({ d.wr with ended := some (endedFrame d means d.frameTruncated), num := d.wr.num + 1, start := d.now, startStamp := d.stamp,
                 prevLen := d.now - d.wr.start, due := none, truncate := false, bridge := false,
                 bandSettle := (d.takeBoundary means).wr.bandSettle, clocks := (d.takeBoundary means).wr.clocks } : Wringer).countOn
      d.now d.dueNow := by
  let f := d.endFrame means d.frameTruncated false
  have hnow : f.now = d.now := by
    have : f.clk = d.clk := (endFrame_keeps _ _ _ _) .clk (by decide)
    simp only [Dev.now, this]
  have h : (d.takeBoundary means).wr = f.wr.countOn d.now d.dueNow := by
    have h1 := (runsMissed_keeps ((f.onWr (fun w => w.countOn f.now d.dueNow)).runsLate (List.finRange 16))
      d.wr.num (List.finRange 16)) .wr (by decide)
    have h2 := (runsLate_keeps (f.onWr (fun w => w.countOn f.now d.dueNow)) (List.finRange 16)) .wr (by decide)
    rw [← hnow]
    exact h1.trans h2
  have hf : f.wr = _ := endFrame_wr d d.frameTruncated
  rw [h, countOn_bandSettle, countOn_clocks, hf]

theorem takeBoundary_irq (d : Dev) (b : Basket) : (d.takeBoundary means).host.pages[b].irqPending[Irq.frame.bit] = true := by
  have hk : Keeps [.wr, .fe, .tachs] (boundaryNoticed d d.frameTruncated) (d.endFrame means d.frameTruncated false) := by
    rw [endFrame_eq]
    exact Keeps.andThen (forgetWindows_keeps _) (by decide) (Keeps.andThen (prefilter_keeps _ _) (by decide)
      (Keeps.mono (onWr_keeps _ _) (by decide)))
  have raised : IrqStays (boundaryNoticed d d.frameTruncated) (d.takeBoundary means) :=
    IrqStays.andThen (runsMissed_irqStays _ _ _) (IrqStays.andThen (runsLate_irqStays _ _)
      (IrqStays.andThen (IrqStays.of_keeps (onWr_keeps _ _) (by decide)) (IrqStays.of_keeps hk (by decide))))
  exact raised b Irq.frame.bit (raise_everyBasket _ _ _)

theorem frameBoundary_ends (hpow : s.dev.pwr.state = .active ∨ s.dev.pwr.state = .watch) (hrun : s.dev.wr.running = true)
    (hfall : (here s t).dueNow = true ∨ (here s t).clockFalls = true) (hlate : s.dev.wr.start + us 20 ≤ instant s t) :
    let w := s.dev.wr
    let cut := (here s t).frameTruncated
    let e : EndedFrame := { num := w.num, start := w.start, stop := instant s t, startStamp := w.startStamp, stopStamp := (here s t).stamp,
                            tref := (here s t).tref, truncated := cut, blanked := false, values := (here s t).bandValues means cut,
                            handedOff := false, counted := false, written := false }
    let i := Instr.frameBoundary t means
    Does i s t (touches i) (fun d =>
      d.wr = ({ w with ended := some e, num := w.num + 1, start := instant s t, startStamp := (here s t).stamp, prevLen := instant s t - w.start,
                       due := none, truncate := false, bridge := false, bandSettle := d.wr.bandSettle,
                           clocks := d.wr.clocks } : Wringer).countOn (instant s t) (here s t).dueNow ∧
      ∀ b : Basket, d.host.pages[b].irqPending[Irq.frame.bit] = true) :=
  does_of (frameBoundary_takes hpow hrun hfall hlate) (Keeps.mono (takeBoundary_keeps _ _) (fun _ hp => hp))
    ⟨takeBoundary_wr _, fun b => takeBoundary_irq _ b⟩

/-! ## A boundary without models -/

theorem runLate_none {d : Dev} {h : Handle} (hm : d.models[h] = none) : d.runLate h = d := by
  have hm : d.model h = none := hm
  unfold Dev.runLate
  simp only [hm, Option.bind_none]

theorem runsLate_none (hs : List Handle) {d : Dev} (hm : ∀ h : Handle, d.models[h] = none) : d.runsLate hs = d := by
  induction hs with
  | nil => rfl
  | cons h hs ih => rw [Dev.runsLate, runLate_none (hm h), ih]

theorem runsMissed_none (k : Nat) (hs : List Handle) {d : Dev} (hm : ∀ h : Handle, d.models[h] = none) : d.runsMissed k hs = d := by
  induction hs with
  | nil => rfl
  | cons h hs ih =>
    have : d.model h = none := hm h
    simp only [Dev.runsMissed, this, ih]

theorem takeBoundary_without_models {d : Dev} (hm : ∀ h : Fin 16, d.models[h] = none) :
    d.takeBoundary means =
      (d.endFrame means d.frameTruncated false).onWr (fun w => w.countOn (d.endFrame means d.frameTruncated false).now d.dueNow) := by
  have hmodels : (d.endFrame means d.frameTruncated false).models = d.models := (endFrame_keeps _ _ _ _) .models (by decide)
  have taken : d.takeBoundary means = (((d.endFrame means d.frameTruncated false).onWr
      (fun w => w.countOn (d.endFrame means d.frameTruncated false).now d.dueNow)).runsLate (List.finRange 16)).runsMissed
        d.wr.num (List.finRange 16) := rfl
  rw [taken]
  generalize d.endFrame means d.frameTruncated false = f at hmodels ⊢
  have no_model : ∀ h : Handle, (f.onWr (fun w => w.countOn f.now d.dueNow)).models[h] = none := fun h => by
    rw [onWr_models, hmodels, hm]
  rw [runsLate_none _ no_model, runsMissed_none _ _ no_model]

theorem detectorBytes_length (c : Chain) (now : Time) : (c.detectorBytes now).length = 32 := by
  have h : ∀ k ∈ List.range 4, ((if c.detSet.on k then w32 ((c.detAt now).value k) ++ w32 ((at? (c.detAt now).flags k 0).toNat + 256)
      else w32 0 ++ w32 0) : List Byte).length = 8 := fun k _ => by split <;> simp
  rw [Chain.detectorBytes, List.length_flatMap, List.map_congr_left h]
  rfl

theorem detectorsBytes_length (v : Vector Chain 24) (now : Time) : (v.toList.flatMap (fun c => c.detectorBytes now)).length = 0x300 := by
  have h : ∀ c ∈ v.toList, ((fun c : Chain => c.detectorBytes now) c).length = 32 := fun c _ => detectorBytes_length c now
  rw [List.length_flatMap, List.map_congr_left h]
  simp

/-- The detector values of a frame and its number reach its slot (R258, R466). -/
theorem detectorCopy_sram (d : Dev) (k : Nat) :
    let a := 0x2000 + k % 2 * 0x400
    (d.detectorCopy k).sram.bytes (a + 0x300) 8 = w64 k ∧
      (d.detectorCopy k).sram.bytes a 0x300 = d.rinse.chains.toList.flatMap (fun c => c.detectorBytes d.now) ∧
      UnchangedOutside d.sram (d.detectorCopy k).sram a 0x308 := by
  intro a
  have sram : (d.detectorCopy k).sram =
      (d.sram.setBytes a (d.rinse.chains.toList.flatMap (fun c => c.detectorBytes d.now))).setBytes (a + 0x300) (w64 k) := by
    simp only [Dev.detectorCopy, onRinse_sram, Dev.memWrite_sram]
    rfl
  have hlen := detectorsBytes_length d.rinse.chains d.now
  have ha : a + 0x308 ≤ sramSize := by simp only [a, sramSize]; omega
  have out1 := Sram.unchangedOutside_setBytes d.sram a (d.rinse.chains.toList.flatMap (fun c => c.detectorBytes d.now))
  have own1 := Sram.bytes_setBytes_same d.sram a (d.rinse.chains.toList.flatMap (fun c => c.detectorBytes d.now)) (by omega)
  rw [hlen] at out1 own1
  generalize d.sram.setBytes a (d.rinse.chains.toList.flatMap (fun c => c.detectorBytes d.now)) = m at sram out1 own1
  have out2 := Sram.unchangedOutside_setBytes m (a + 0x300) (w64 k)
  have own2 := Sram.bytes_setBytes_same m (a + 0x300) (w64 k) (by rw [w64_length]; omega)
  rw [w64_length, ← sram] at out2 own2
  exact ⟨own2, (Sram.bytes_congr (fun x _ hx => out2 x (Or.inl hx))).trans own1, unchangedOutside_trans out1 out2 (by omega) (by omega)⟩

theorem frameBoundary_without_models (hpow : s.dev.pwr.state = .active ∨ s.dev.pwr.state = .watch) (hrun : s.dev.wr.running = true)
    (hfall : (here s t).dueNow = true ∨ (here s t).clockFalls = true) (hlate : s.dev.wr.start + us 20 ≤ instant s t)
    (hm : ∀ h : Fin 16, s.dev.models[h] = none) :
    let k := s.dev.wr.num
    let a := 0x2000 + k % 2 * 0x400
    let e : Ev := { event := .frameEnd, data0 := k % 65536, data1 := (here s t).frameTruncated.toNat }
    Does (.frameBoundary t means) s t [.host, .fe, .tachs, .wr, .rinse, .spool, .sram] (fun d =>
      d.host = (((here s t).postAll e).raise everyBasket .frame).host ∧
      d.sram.bytes (a + 0x300) 8 = w64 k ∧ d.sram.bytes a 0x300 = s.dev.rinse.chains.toList.flatMap (fun c => c.detectorBytes (instant s t)) ∧
      UnchangedOutside s.dev.sram d.sram a 0x308) := by
  intro k a e
  have without := takeBoundary_without_models (d := here s t) (means := means) hm
  have hend : Keeps [.fe, .tachs, .wr] (boundaryNoticed (here s t) (here s t).frameTruncated) ((here s t).takeBoundary means) := by
    rw [without, endFrame_eq]
    exact Keeps.andThen (onWr_keeps _ _) (by decide) (Keeps.andThen (forgetWindows_keeps _) (by decide)
      (Keeps.andThen (prefilter_keeps _ _) (by decide) (Keeps.mono (onWr_keeps _ _) (by decide))))
  refine does_of (frameBoundary_takes hpow hrun hfall hlate)
    (Keeps.andThen hend (by decide) (Keeps.mono (boundaryNoticed_keeps _ _) (by decide))) ⟨?_, ?_⟩
  · rw [hend .host (by decide)]
    have copy := detectorCopy_keeps (here s t) (here s t).wr.num
    exact raise_host_congr (postAll_host_congr (copy .host (by decide)) (copy .clk (by decide)) e)
      (((postAll_keeps _ _) .clk (by decide)).trans ((copy .clk (by decide)).trans ((postAll_keeps _ _) .clk (by decide)).symm)) _ _
  · have hs : ((here s t).takeBoundary means).sram = ((here s t).detectorCopy k).sram := (hend .sram (by decide)).trans
      (((raise_keeps _ _ _) .sram (by decide)).trans ((postAll_keeps _ _) .sram (by decide)))
    rw [hs]
    exact detectorCopy_sram (here s t) k

/-- A boundary too soon after the one before merges into it (R157). -/
theorem frameBoundary_merges (hpow : s.dev.pwr.state = .active ∨ s.dev.pwr.state = .watch) (hrun : s.dev.wr.running = true)
    (hfall : (here s t).dueNow = true ∨ (here s t).clockFalls = true) (hsoon : instant s t < s.dev.wr.start + us 20) :
    let w := s.dev.wr
    let mark := w.truncate || w.bridge || (w.live.frame.source == .angle && w.fallback)
    Does (.frameBoundary t means) s t [.wr] (fun d =>
      d.wr = { w.countOn (instant s t) (here s t).dueNow with due := none, truncate := mark, bridge := false }) :=
  does_of (by rw [frameBoundary_exec, if_neg (boundary_falls hpow hrun hfall), if_pos (by simpa using hsoon)]) (mergeBoundary_keeps _) rfl

theorem frameBoundary_nothing (h : (here s t).dueNow = false ∧ (here s t).clockFalls = false) :
    Does (.frameBoundary t means) s t [] (fun _ => True) :=
  does_nothing (by rw [frameBoundary_exec, if_pos (by simp [h.1, h.2])])

end
end Sys2Proof.Proofs

namespace Sys2Proof.Proofs
open Machine Laws

/-! ## WRINGER_COMMIT_APPLY (R174, R175, R822) -/

/-- What a commit is about in the Wringer: its settings, the commit that waits and the number of the frame. -/
def settingsOf (w : Wringer) : WringerSet × WringerSet × Option WringerCommit × Nat := (w.live, w.staged, w.pending, w.num)

theorem settingsOf_clocks {w v : Wringer} {c : Vector BandClock 528} (h : w = { v with clocks := c }) : settingsOf w = settingsOf v := by rw [h]; rfl

theorem openBands_settings (d : Dev) (l : List (Nat × Band)) : settingsOf (d.openBands l).wr = settingsOf d.wr := by rw [openBands_wr l d]; rfl

theorem applyFrame_settings (d : Dev) (old : WringerSet) : settingsOf (d.applyFrame old).wr = settingsOf d.wr := by
  unfold Dev.applyFrame
  dsimp only
  split
  case h_1 => split <;> rfl
  case h_2 => split <;> rfl
  case h_3 =>
    split
    · split
      · rfl
      · split <;> rfl
    · split <;> rfl

/-- The front end of a channel whose gain and coupling stay is left alone. -/
theorem applyVib_same (d : Dev) (ch : Nat) {old new : VibSet} (hg : new.gain = old.gain) (ha : new.ac = old.ac) : d.applyVib ch old new = d := by
  simp [Dev.applyVib, hg, ha]

/-- A change of channel `ch` leaves the front end of every other channel. -/
theorem applyVib_other (d : Dev) (old new : VibSet) {ch i : Nat} (hi : i < 24) (h : ch ≠ i) : (d.applyVib ch old new).fe[i] = d.fe[i] := by
  have onChannel_other : ∀ (d : Dev) f, (d.onChannel ch f).fe[i] = d.fe[i] := fun d f => by
    show (updAt d.fe ch f)[i] = d.fe[i]
    exact (updAt_getElem d.fe ch ⟨i, hi⟩ f).trans (if_neg h)
  unfold Dev.applyVib
  dsimp only
  split <;> split
  · rfl
  · exact onChannel_other _ _
  · exact onChannel_other _ _
  · exact (onChannel_other _ _).trans (onChannel_other _ _)

theorem applyVibs_fe (chs : List Nat) (d : Dev) {old new : WringerSet} {ch : Fin 16} (hg : new.vibs[ch].gain = old.vibs[ch].gain)
    (ha : new.vibs[ch].ac = old.vibs[ch].ac) : (d.applyVibs old new chs).fe[ch.val] = d.fe[ch.val] := by
  induction chs generalizing d with
  | nil => rfl
  | cons c chs ih =>
    rw [Dev.applyVibs, ih]
    split
    next a b hold hnew =>
      by_cases hc : c = ch.val
      · subst hc
        rw [getElem?_toList_fin, Option.some.injEq] at hold hnew
        subst hold hnew
        rw [applyVib_same _ _ hg ha]
      · exact applyVib_other _ _ _ (by omega) hc
    next => rfl

/-! ### Tach inputs (R128, R140) -/

theorem reconfigure_none (is : List (Fin 4)) (d : Dev) {new : WringerSet}
    (h : ∀ i : Fin 4, d.wr.live.tachs[i].reconfigures new.tachs[i] = false) : d.reconfigure new is = d := by
  induction is with
  | nil => rfl
  | cons i is ih => rw [Dev.reconfigure, if_pos (by simpa [Dev.tachSet] using h i), ih]

/-- What losing the loop of tach `i` leaves: the Wringer but for its clocks, and every other tach input. -/
theorem reconfigure_step (d : Dev) (i : Fin 4) (new : WringerSet) (is : List (Fin 4)) :
    ∃ d' : Dev, d.reconfigure new (i :: is) = d'.reconfigure new is ∧ d'.wr = { d.wr with clocks := d'.wr.clocks } ∧
      ∀ j : Fin 4, (j = i → d.wr.live.tachs[i].reconfigures new.tachs[i] = false) → d'.tachs[j] = d.tachs[j] := by
  by_cases h : d.wr.live.tachs[i].reconfigures new.tachs[i] = true
  case neg =>
    exact ⟨d, by rw [Dev.reconfigure, if_pos (by simpa [Dev.tachSet] using h)], rfl, fun _ _ => rfl⟩
  case pos =>
    have other : ∀ (d : Dev) f (j : Fin 4), j ≠ i → (d.onLoop i f).tachs[j] = d.tachs[j] := fun d f j hj => by
      have hv : ¬ i.val = j.val := fun e => hj (Fin.ext e.symm)
      simp [Dev.onLoop, Dev.onTach, Dev.onTachs, upd, hv]
    have hne : ∀ j : Fin 4, (j = i → d.wr.live.tachs[i].reconfigures new.tachs[i] = false) → j ≠ i := fun j hj e => by
      rw [hj e] at h
      exact absurd h (by decide)
    refine ⟨_, by rw [Dev.reconfigure, if_neg (by simpa [Dev.tachSet] using h)], ?_, fun j hj => ?_⟩
    · split
      · rfl
      · exact ((postTach_keeps _ _ _ _) .wr (by decide)).trans (holdClocks_wr _ _)
    · split
      · exact other _ _ _ (hne j hj)
      · exact congrArg (fun v : Vector Tach 4 => v[j]) ((postTach_keeps _ _ _ _) .tachs (by decide)) |>.trans ((other _ _ _ (hne j hj)).trans
          (congrArg (fun v : Vector Tach 4 => v[j]) ((holdClocks_keeps _ _) .tachs (by decide))))

theorem reconfigure_spec (is : List (Fin 4)) (d : Dev) (new : WringerSet) :
    (d.reconfigure new is).wr = { d.wr with clocks := (d.reconfigure new is).wr.clocks } ∧
      ∀ i : Fin 4, d.wr.live.tachs[i].reconfigures new.tachs[i] = false → (d.reconfigure new is).tachs[i] = d.tachs[i] := by
  induction is generalizing d with
  | nil => exact ⟨rfl, fun _ _ => rfl⟩
  | cons j is ih =>
    obtain ⟨d', step, hwr, htach⟩ := reconfigure_step d j new is
    obtain ⟨ihwr, ihtach⟩ := ih d'
    have hlive : d'.wr.live = d.wr.live := by rw [hwr]
    rw [step]
    refine ⟨ihwr.trans (by rw [hwr]), fun i hi => (ihtach i (by rw [hlive]; exact hi)).trans (htach i (fun e => e ▸ hi))⟩

/-! ### The commit -/

theorem bit_toNat (m : BitVec 16) (ch : Fin 16) : bit m.toNat ch.val = m[ch] := by
  simp [bit, BitVec.getElem_eq_testBit_toNat, Nat.testBit_eq_decide_div_mod_eq, beq_eq_decide]

/-- The channels of its mask take their settings from a commit. -/
theorem merge_vibs_masked (a b : WringerSet) (mask : BitVec 16) (ch : Fin 16) :
    (a.merge b mask).vibs[ch] = if mask[ch] = true then b.vibs[ch] else a.vibs[ch] := by
  rw [merge_vibs, bit_toNat]

section
variable (d : Dev) (c : WringerCommit)

/-- The device with the settings of a commit live. -/
def withLive : Dev :=
  (d.reconfigure (d.wr.live.merge c.captured c.mask) (List.finRange 4)).onWr
    (fun w => { w with live := d.wr.live.merge c.captured c.mask, pending := none })

/-- The device with the frame clock and the band clocks that follow from the settings of a commit. -/
def withClocks : Dev :=
  let new := d.wr.live.merge c.captured c.mask
  ((((((withLive d c).applyVibs d.wr.live new (List.range 16)).applyFrame d.wr.live).retune d.wr.live new.onBands).prefilter
    new.onBands).retuneCarriers d.wr.live (List.range 16)).openBands (d.wr.live.resettled new)

theorem applyWringer_eq : d.applyWringer c = (withClocks d c).postAll { event := .commitApplied, subject := 1, data0 := c.mask.toNat } := rfl

/-- After the front ends only the Wringer changes. -/
theorem withClocks_keeps :
    Keeps [.wr] ((withLive d c).applyVibs d.wr.live (d.wr.live.merge c.captured c.mask) (List.range 16)) (withClocks d c) :=
  Keeps.andThen (openBands_keeps _ _) (by decide) (Keeps.andThen (retuneCarriers_keeps _ _ _) (by decide)
    (Keeps.andThen (prefilter_keeps _ _) (by decide) (Keeps.andThen (retune_keeps _ _ _) (by decide) (applyFrame_keeps _ _))))

theorem withClocks_settings : settingsOf (withClocks d c).wr = (d.wr.live.merge c.captured c.mask, d.wr.staged, none, d.wr.num) := by
  have live : settingsOf (withLive d c).wr = (d.wr.live.merge c.captured c.mask, d.wr.staged, none, d.wr.num) := by
    have h := (reconfigure_spec (List.finRange 4) d (d.wr.live.merge c.captured c.mask)).1
    simp only [withLive, onWr_wr, settingsOf]
    rw [h]
  have vibs : ((withLive d c).applyVibs d.wr.live (d.wr.live.merge c.captured c.mask) (List.range 16)).wr = (withLive d c).wr :=
    (applyVibs_keeps _ _ _ _) .wr (by decide)
  exact (openBands_settings _ _).trans ((settingsOf_clocks (retuneCarriers_wr _ _ _)).trans ((settingsOf_clocks (prefilter_wr _ _)).trans
    ((settingsOf_clocks (retune_wr _ _ _)).trans ((applyFrame_settings _ _).trans ((congrArg settingsOf vibs).trans live)))))

theorem applyWringer_settings : settingsOf (d.applyWringer c).wr = (d.wr.live.merge c.captured c.mask, d.wr.staged, none, d.wr.num) :=
  (congrArg settingsOf ((postAll_keeps _ _) .wr (by decide))).trans (withClocks_settings d c)

theorem applyWringer_tachs (i : Fin 4) (h : d.wr.live.tachs[i].reconfigures c.captured.tachs[i] = false) :
    (d.applyWringer c).tachs[i] = d.tachs[i] := by
  have after : (d.applyWringer c).tachs = (withLive d c).tachs := ((postAll_keeps _ _) .tachs (by decide)).trans
    (((withClocks_keeps d c) .tachs (by decide)).trans ((applyVibs_keeps _ _ _ _) .tachs (by decide)))
  rw [after]
  exact (reconfigure_spec (List.finRange 4) d (d.wr.live.merge c.captured c.mask)).2 i h

theorem applyWringer_fe (ch : Fin 16) (h : c.mask[ch] = false ∨
    (c.captured.vibs[ch].gain = d.wr.live.vibs[ch].gain ∧ c.captured.vibs[ch].ac = d.wr.live.vibs[ch].ac)) :
    (d.applyWringer c).fe[ch.val] = d.fe[ch.val] := by
  have after : (d.applyWringer c).fe = ((withLive d c).applyVibs d.wr.live (d.wr.live.merge c.captured c.mask) (List.range 16)).fe :=
    ((postAll_keeps _ _) .fe (by decide)).trans ((withClocks_keeps d c) .fe (by decide))
  have before : (withLive d c).fe = d.fe := ((onWr_keeps _ _) .fe (by decide)).trans ((reconfigure_keeps _ _ _) .fe (by decide))
  have same : (d.wr.live.merge c.captured c.mask).vibs[ch].gain = d.wr.live.vibs[ch].gain ∧
      (d.wr.live.merge c.captured c.mask).vibs[ch].ac = d.wr.live.vibs[ch].ac := by
    rw [merge_vibs_masked]
    obtain h | h := h
    · simp [h]
    · split
      · exact h
      · exact ⟨rfl, rfl⟩
  simp only [after, applyVibs_fe _ _ same.1 same.2, before]

theorem applyWringer_host (h : ∀ i : Fin 4, d.wr.live.tachs[i].reconfigures c.captured.tachs[i] = false) :
    (d.applyWringer c).host = (d.postAll { event := .commitApplied, subject := 1, data0 := c.mask.toNat }).host := by
  have live : Keeps [.wr] d (withLive d c) := by
    unfold withLive
    rw [reconfigure_none _ d (new := d.wr.live.merge c.captured c.mask) h]
    exact onWr_keeps _ _
  have before : Keeps [.fe, .guard, .wr] d (withClocks d c) :=
    Keeps.andThen (withClocks_keeps d c) (by decide) (Keeps.andThen (applyVibs_keeps _ _ _ _) (by decide) (Keeps.mono live (by decide)))
  rw [applyWringer_eq]
  exact postAll_host_congr (before .host (by decide)) (before .clk (by decide)) _

variable {s : State} {t : Time}

/-- WRINGER_COMMIT_APPLY by its cases. -/
theorem wringerCommitApply_exec : exec (.wringerCommitApply t) s = .next { s with dev :=
    (match s.dev.wr.pending with
      | none => here s t
      | some c => if s.dev.wr.running && (here s t).wringing && s.dev.wr.start == instant s t && decide (c.from_ ≤ instant s t) then
          (here s t).applyWringer c else here s t) } := rfl

theorem wringerCommitApply_applies {c : WringerCommit} (hpow : s.dev.pwr.state = .active ∨ s.dev.pwr.state = .watch)
    (hrun : s.dev.wr.running = true) (hp : s.dev.wr.pending = some c) (hstart : s.dev.wr.start = instant s t) (hfrom : c.from_ ≤ instant s t) :
    exec (.wringerCommitApply t) s = .next { s with dev := (here s t).applyWringer c } := by
  have due : (s.dev.wr.running && (here s t).wringing && s.dev.wr.start == instant s t && decide (c.from_ ≤ instant s t)) = true := by
    simp [hrun, wringing_of hpow, hstart, hfrom]
  rw [wringerCommitApply_exec, hp]
  simp only [due, if_true]

theorem wringerCommitApply_commits {c : WringerCommit} (hpow : s.dev.pwr.state = .active ∨ s.dev.pwr.state = .watch)
    (hrun : s.dev.wr.running = true) (hp : s.dev.wr.pending = some c) (hstart : s.dev.wr.start = instant s t) (hfrom : c.from_ ≤ instant s t) :
    let live := s.dev.wr.live
    let e : Ev := { event := .commitApplied, subject := 1, data0 := c.mask.toNat }
    Does (.wringerCommitApply t) s t [.host, .fe, .tachs, .wr, .guard] (fun d =>
      d.wr.pending = none ∧ d.wr.staged = s.dev.wr.staged ∧ d.wr.num = s.dev.wr.num ∧ d.wr.live.plans = c.captured.plans ∧
      d.wr.live.frame = c.captured.frame ∧ d.wr.live.tachs = c.captured.tachs ∧
      (∀ ch : Fin 16, d.wr.live.vibs[ch] = if c.mask[ch] = true then c.captured.vibs[ch] else live.vibs[ch]) ∧
      (∀ i : Fin 4, live.tachs[i].reconfigures c.captured.tachs[i] = false → d.tachs[i] = s.dev.tachs[i]) ∧
      (∀ ch : Fin 16, (c.mask[ch] = false ∨ (c.captured.vibs[ch].gain = live.vibs[ch].gain ∧ c.captured.vibs[ch].ac = live.vibs[ch].ac)) →
        d.fe[ch.val] = s.dev.fe[ch.val]) ∧
      ((∀ i : Fin 4, live.tachs[i].reconfigures c.captured.tachs[i] = false) → d.host = ((here s t).postAll e).host)) := by
  intro live e
  refine does_of (wringerCommitApply_applies hpow hrun hp hstart hfrom) (applyWringer_keeps _ _) ?_
  have settings := applyWringer_settings (here s t) c
  simp only [settingsOf, Prod.mk.injEq] at settings
  obtain ⟨hlive, hstaged, hpending, hnum⟩ := settings
  refine ⟨hpending, hstaged, hnum, ?_, ?_, ?_, fun ch => ?_, fun i hi => applyWringer_tachs _ c i hi, fun ch hch => applyWringer_fe _ c ch hch,
    fun h => applyWringer_host _ c h⟩
  · rw [hlive]; rfl
  · rw [hlive]; rfl
  · rw [hlive]; rfl
  · rw [hlive, merge_vibs_masked]; rfl

theorem wringerCommitApply_nothing (h : s.dev.wr.start ≠ instant s t ∨ s.dev.wr.pending = none) :
    Does (.wringerCommitApply t) s t [] (fun _ => True) := by
  refine does_nothing ?_
  rw [wringerCommitApply_exec]
  split
  next => rfl
  next c hp =>
    obtain h | h := h
    · rw [if_neg (by simp [h])]
    · rw [hp] at h; cases h

end

/-- Settles O37: the boundary by what it leaves of the Wringer, of the slot and of the pages; the commit by its settings, which none of the clock
functions after it touches. -/
theorem frameBoundaries : Obligations.FrameBoundaries := by
  unfold Obligations.FrameBoundaries
  refine ⟨?_, ?_, ?_, ?_, ?_, ?_⟩
  · intro s t means hpow hrun hfall hlate
    exact frameBoundary_ends hpow hrun hfall hlate
  · intro s t means hpow hrun hfall hlate hm
    exact frameBoundary_without_models hpow hrun hfall hlate hm
  · intro s t means hpow hrun hfall hsoon
    exact frameBoundary_merges hpow hrun hfall hsoon
  · intro s t means h
    exact frameBoundary_nothing h
  · intro s t c hpow hrun hp hstart hfrom
    exact wringerCommitApply_commits hpow hrun hp hstart hfrom
  · intro s t h
    exact wringerCommitApply_nothing h

end Sys2Proof.Proofs

namespace Sys2Proof.Proofs
open Machine Laws

/-! ## Models, tiles and runs -/

section
variable {d : Dev} {h : Handle} {m : Model} {r : Run}

theorem onModel_models (hm : d.models[h] = some m) (f : Model → Model) : (d.onModel h f).models = d.models.set h.val (some (f m)) := by
  show upd d.models h (fun x => x.map f) = _
  rw [upd_eq_set, hm]
  rfl

theorem onRun_models (hm : d.models[h] = some m) (hr : m.run = some r) (f : Run → Run) :
    (d.onRun h f).models = d.models.set h.val (some { m with run := some (f r) }) := by
  rw [Dev.onRun, onModel_models hm, hr]
  rfl

theorem models_set_same {v : Vector (Option Model) 16} {x : Option Model} {w : Vector (Option Model) 16} (hw : w = v.set h.val x) : w[h] = x := by
  rw [hw]
  simp

theorem onTile_tiles (d : Dev) (i : Fin 48) (f : Tile → Tile) : (d.onTile i f).tiles = d.tiles.set i.val (f d.tiles[i]) := rfl

theorem memWrite_tags (d : Dev) (a : Nat) (vs : List Byte) : (d.memWrite a vs).spool.tags = d.spool.tags := rfl

end

/-! ## Tags in flight (R474, Table 10-3) -/

theorem ofRun_congr {p q : Spool} (hpq : p.tags = q.tags) (h : Handle) : p.ofRun h = q.ofRun h := by rw [Spool.ofRun, Spool.ofRun, hpq]

/-- What a tag stands for: its number, its kind, its run and whether that run has ended. -/
def Tag.work (t : Tag) : Fin 4096 × TagKind × Option Handle × Bool := (t.id, t.kind, t.handle, t.aborting)

theorem released_work (t : Tag) (id : Fin 4096) (now : Time) : Tag.work (t.released id now) = Tag.work t := by
  unfold Tag.released
  dsimp only
  split <;> rfl

/-- A tag left after a retirement is another one that was there. -/
theorem retire_from {p : Spool} {now : Time} {id : Fin 4096} {done : Bool} {u : Tag} (hu : u ∈ (p.retire now id done).tags) :
    u.id ≠ id ∧ ∃ v ∈ p.tags, Tag.work u = Tag.work v := by
  unfold Spool.retire at hu
  split at hu
  next hnone =>
    have := List.find?_eq_none.mp hnone u hu
    exact ⟨by simpa using this, u, hu, rfl⟩
  next t _ =>
    have kept : ∀ v ∈ p.tags.filter (fun u => u.id != id), v.id ≠ id ∧ v ∈ p.tags := fun v hv => by
      obtain ⟨hv, hne⟩ := List.mem_filter.mp hv
      exact ⟨by simpa using hne, hv⟩
    cases done with
    | false =>
      obtain ⟨hne, hmem⟩ := kept u hu
      exact ⟨hne, u, hmem, rfl⟩
    | true =>
      obtain ⟨v, hv, rfl⟩ := List.mem_map.mp hu
      obtain ⟨hne, hmem⟩ := kept v hv
      have same := released_work v id now
      refine ⟨fun heq => hne ?_, v, hmem, same⟩
      exact (congrArg Prod.fst same).symm.trans heq

theorem retireTags_from {done : Bool} (ids : List (Fin 4096)) {d : Dev} {u : Tag} (hu : u ∈ (d.retireTags done ids).spool.tags) :
    u.id ∉ ids ∧ ∃ v ∈ d.spool.tags, Tag.work u = Tag.work v := by
  induction ids generalizing d with
  | nil => exact ⟨List.not_mem_nil, u, hu, rfl⟩
  | cons i ids ih =>
    obtain ⟨hids, v, hv, hw⟩ := ih hu
    obtain ⟨hne, w, hmem, hw'⟩ := retire_from hv
    refine ⟨fun hin => ?_, w, hmem, hw.trans hw'⟩
    obtain heq | hin := List.mem_cons.mp hin
    · exact hne ((congrArg Prod.fst hw).symm.trans heq)
    · exact hids hin

/-- A completed tag leaves, and the tags of a run that are left stay its own. -/
theorem ofRun_retire {p : Spool} {t : Tag} {id : Fin 4096} (now : Time) (hf : p.tags.find? (fun t => t.id == id) = some t) (h : Handle) :
    (p.retire now id true).ofRun h = ((p.ofRun h).filter (fun u => u.id != id)).map (fun u => u.released id now) := by
  have same : ∀ u : Tag, ((u.released id now).handle == some h && !(u.released id now).aborting) = (u.handle == some h && !u.aborting) := fun u => by
    obtain ⟨-, -, hh, ha⟩ : _ ∧ _ ∧ _ ∧ _ := by simpa [Tag.work] using released_work u id now
    rw [hh, ha]
  have tags : (p.retire now id true).tags = (p.tags.filter (fun u => u.id != id)).map (fun u => u.released id now) := by
    simp only [Spool.retire, hf, if_true]
  rw [Spool.ofRun, tags, List.filter_map, Spool.ofRun, List.filter_filter, List.filter_filter]
  congr 1
  refine List.filter_congr (fun u _ => ?_)
  rw [Function.comp_apply, same, Bool.and_comm]

theorem retire_device {p : Spool} {t : Tag} {id : Fin 4096} (now : Time) (hf : p.tags.find? (fun t => t.id == id) = some t) (done : Bool) :
    (p.retire now id done).device = p.device.retire done := by
  simp only [Spool.retire, hf]

/-! ## Tags of a run that ends (R482) -/

theorem mem_ofRun {p : Spool} {h : Handle} {u : Tag} : u ∈ p.ofRun h ↔ u ∈ p.tags ∧ u.handle = some h ∧ u.aborting = false := by
  simp [Spool.ofRun]

/-- Retiring the tags of a run leaves none of them. -/
theorem ofRun_retireTags (d : Dev) (h : Handle) (done : Bool) : (d.retireTags done ((d.spool.ofRun h).map (·.id))).spool.ofRun h = [] := by
  refine List.eq_nil_iff_forall_not_mem.mpr (fun u hu => ?_)
  obtain ⟨hu, hh, ha⟩ := mem_ofRun.mp hu
  obtain ⟨hids, v, hv, hw⟩ := retireTags_from _ hu
  obtain ⟨hid, -, hh', ha'⟩ : _ ∧ _ ∧ _ ∧ _ := by simpa [Tag.work] using hw
  exact hids (List.mem_map.mpr ⟨v, mem_ofRun.mpr ⟨hv, hh' ▸ hh, ha' ▸ ha⟩, hid.symm⟩)

/-- An aborted run has no tag left but those that finish a step for it. -/
theorem ofRun_abortRun (d : Dev) (h : Handle) : (d.abortRun h).spool.ofRun h = [] := by
  refine List.eq_nil_iff_forall_not_mem.mpr (fun u hu => ?_)
  obtain ⟨hu, hh, ha⟩ := mem_ofRun.mp hu
  obtain ⟨hids, v, hv, hw⟩ := retireTags_from _ hu
  obtain ⟨hid, -, hh', ha'⟩ : _ ∧ _ ∧ _ ∧ _ := by simpa [Tag.work] using hw
  obtain ⟨x, hx, rfl⟩ := List.mem_map.mp hv
  by_cases step : (x.handle == some h && x.hasStep) = true
  · rw [if_pos step] at ha'
    rw [ha'] at ha
    cases ha
  · rw [if_neg step] at hid hh' ha'
    have hmine : x ∈ d.spool.ofRun h := mem_ofRun.mpr ⟨hx, hh' ▸ hh, ha' ▸ ha⟩
    refine hids (List.mem_map.mpr ⟨x, List.mem_filter.mpr ⟨hmine, ?_⟩, hid.symm⟩)
    simpa [show x.handle = some h from hh' ▸ hh] using step

/-! ## Allocation (R474) -/

/-- With fewer than 4096 tags in flight one is FREE. -/
theorem freeId_some {p : Spool} (hp : p.tags.length < 4096) : ∃ i, p.freeId = some i := by
  rw [← Option.isSome_iff_exists, ← Option.not_isNone, Bool.not_eq_true', Bool.eq_false_iff, ne_eq, Option.isNone_iff_eq_none]
  intro hnone
  have taken : List.range 4096 ⊆ p.tags.map (·.id.val) := fun i hi => by
    have := List.find?_eq_none.mp hnone i hi
    simpa using this
  have := (List.subperm_of_subset List.nodup_range taken).length_le
  rw [List.length_range, List.length_map] at this
  omega

/-- With a FREE tag an allocation adds it and counts it. -/
theorem alloc_spool {p : Spool} {i : Nat} (now : Time) (t : Tag) (hi : p.freeId = some i) :
    (p.alloc now t).1 = { p with tags := p.tags ++ [t.created (Fin.ofNat 4096 i) now], device := p.device.allocate,
                                 baskets := upd p.baskets t.basket Ledger.allocate } := by
  unfold Spool.alloc
  split
  · next h => rw [hi] at h; cases h
  · next j h =>
    rw [hi] at h
    obtain rfl := Option.some.inj h
    with_reducible rfl

theorem runTag_spool {d : Dev} (t : Tag) (hd : d.spool.tags.length < 4096) :
    ∃ n : Fin 4096, (d.runTag t).1.spool.tags = d.spool.tags ++ [t.created n d.now] ∧
      (d.runTag t).1.spool.device = Ledger.allocate d.spool.device := by
  obtain ⟨i, hi⟩ := freeId_some hd
  have taken : (d.runTag t).1.spool = (d.spool.alloc d.now t).1 := by rw [Dev.runTag, onSpool_spool]
  rw [taken, alloc_spool _ _ hi]
  exact ⟨_, rfl, rfl⟩

theorem gatherTags_nil (d : Dev) (h : Handle) (m : Model) (r : Run) : d.gatherTags h m r [] = d := by
  unfold Dev.gatherTags
  with_reducible rfl

theorem gatherTags_cons (d : Dev) (h : Handle) (m : Model) (r : Run) (i : Nat) (is : List Nat) :
    d.gatherTags h m r (i :: is) = ((d.runTag { m.tag h r .gather with index := i }).1).gatherTags h m r is := by
  conv_lhs => unfold Dev.gatherTags

/-- A READY GATHER tag of a run, and its number in the list of the bindings. -/
def isGather (h : Handle) (m : Model) (deadline : Time) (x : Tag × Nat) : Bool :=
  x.1.kind == .gather && x.1.index == x.2 && x.1.status == .ready && x.1.handle == some h && x.1.priority == m.image.priority &&
    x.1.deadline == some deadline && x.1.basket == m.basket

theorem gatherTags_spool (h : Handle) (m : Model) (r : Run) (n : Nat) (k : Nat) (d : Dev) (hd : d.spool.tags.length + n ≤ 4096) :
    ∃ ts : List Tag, (d.gatherTags h m r (List.range' k n)).spool.tags = d.spool.tags ++ ts ∧ ts.length = n ∧
      (ts.zipIdx k).all (isGather h m r.deadline) = true ∧
      (d.gatherTags h m r (List.range' k n)).spool.device.allocated = d.spool.device.allocated + BitVec.ofNat 64 n := by
  induction n generalizing k d with
  | zero => exact ⟨[], by simp [gatherTags_nil]⟩
  | succ n ih =>
    obtain ⟨i, tags, device⟩ := runTag_spool (d := d) { m.tag h r .gather with index := k } (by omega)
    rw [List.range'_succ, gatherTags_cons]
    generalize (d.runTag { m.tag h r .gather with index := k }).1 = d' at tags device ⊢
    obtain ⟨ts, hts, hlen, hall, halloc⟩ := ih (k + 1) d' (by rw [tags, List.length_append, List.length_singleton]; omega)
    refine ⟨({ m.tag h r .gather with index := k } : Tag).created i d.now :: ts, ?_, ?_, ?_, ?_⟩
    · rw [hts, tags, List.append_assoc]
      rfl
    · rw [List.length_cons, hlen]
    · rw [List.zipIdx_cons, List.all_cons, hall]
      simp [isGather, Tag.created, Model.tag, Tag.of]
    · rw [halloc, device]
      show d.spool.device.allocated + 1 + BitVec.ofNat 64 n = _
      rw [BitVec.add_assoc, Nat.add_comm n 1, BitVec.ofNat_add]
      rfl

end Sys2Proof.Proofs

namespace Sys2Proof.Proofs
open Machine Laws

/-! ## What the stages of a run's end depend on -/

theorem phasesLeft_congr {d e : Dev} (hs : d.spool.tags = e.spool.tags) (r : Run) : d.phasesLeft r = e.phasesLeft r := by
  unfold Dev.phasesLeft Spool.tag
  rw [hs]

theorem statusRecord_congr {d e : Dev} (hc : d.clk = e.clk) (m : Model) (r : Run) (code : Word) (flags : Nat) :
    d.statusRecord m r code flags = e.statusRecord m r code flags := by
  unfold Dev.statusRecord
  rw [stamp_congr hc]

theorem statusRecord_length (d : Dev) (m : Model) (r : Run) (code : Word) (flags : Nat) : (d.statusRecord m r code flags).length = 320 := by
  simp only [Dev.statusRecord, List.length_append, w64_length, w32_length, leBytes_length, List.length_map, List.length_take,
    List.length_replicate, List.length_cons, List.length_nil]
  omega

/-- The flags of a run in its status record. -/
theorem statusRecord_flags (d : Dev) (m : Model) (r : Run) (code : Word) {flags : Nat} (hf : flags < 65536) :
    leValue (((d.statusRecord m r code flags).drop 26).take 2) = flags := by
  have before : (w64 r.frame ++ w64 r.start.toNat ++ w64 d.stamp.toNat ++ leBytes 2 code.toNat).length = 26 := by simp
  have cut : ∀ as cs : List Byte, as.length = 26 → ((as ++ (leBytes 2 flags ++ cs)).drop 26).take 2 = leBytes 2 flags := fun as cs ha => by
    rw [List.drop_append_of_le_length (by omega), ← ha, List.drop_length, List.nil_append, List.take_append_of_le_length (by simp),
      List.take_of_length_le (by simp)]
  have shape : d.statusRecord m r code flags = (w64 r.frame ++ w64 r.start.toNat ++ w64 d.stamp.toNat ++ leBytes 2 code.toNat) ++ (leBytes 2 flags ++
      (w32 r.clips ++ w32 r.saturations ++ w32 r.unchecked ++ w32 m.runsDone.toNat ++ w32 m.runsEarly.toNat ++ w32 m.runsMissed.toNat ++
        leBytes 2 r.tagsPeak ++ [0, 0] ++ w32 m.update.toNat ++ w32 0 ++ ((r.replicas ++ List.replicate 256 0).take 256).map (BitVec.ofNat 8))) := by
    simp only [Dev.statusRecord, List.append_assoc]
  rw [shape, cut _ _ before, leValue_leBytes, Nat.mod_eq_of_lt (by omega)]

/-- A tile of a model with the counts of its run (R300, R332). -/
def ranTile (m : Model) (r : Run) (i : Fin 48) (x : Tile) : Tile :=
  if m.place.contains i = true then
    { x with clipsRun := BitVec.ofNat 32 (((r.counts.find? (fun c => c.tile == i)).map (·.clips)).getD 0),
             uncheckedRun := BitVec.ofNat 32 (((r.counts.find? (fun c => c.tile == i)).map (·.unchecked)).getD 0) }
  else x

theorem tileCounts_tile (d : Dev) (m : Model) (r : Run) (i : Fin 48) : (d.tileCounts m r).tiles[i] = ranTile m r i d.tiles[i] := by
  have place : m.place.any (fun p => p.val == i.val) = m.place.contains i := by
    rw [List.contains_eq_any_beq]
    congr 1
    funext p
    simp [Fin.ext_iff, eq_comm, beq_eq_decide]
  have count : (fun c : TileCount => c.tile.val == i.val) = (fun c => c.tile == i) := by
    funext c
    simp [Fin.ext_iff, beq_eq_decide]
  show (vmap d.tiles _)[i.val] = _
  rw [vmap_getElem]
  simp only [place, count, ranTile]
  rfl

/-- A tile without the operations of a run's reload plan that have not begun. -/
def dropTile (h : Handle) (x : Tile) : Tile := { x with queue := x.queue.filter (fun o => !(o.kind == .reload && o.handle == some h)) }

theorem dropReloads_tile (d : Dev) (h : Handle) (i : Fin 48) : (d.dropReloads h).tiles[i] = dropTile h d.tiles[i] := by
  show (d.tiles.map (dropTile h))[i.val] = _
  rw [Vector.getElem_map]
  rfl

/-! ## The end of a run that does not learn -/

section
variable {d : Dev} {h : Handle} {m : Model} {r : Run} {x : Err}

theorem learnEnd_unlearned (hl : m.learn = none) (v : RunView) : d.learnEnd h m r v = d := by
  unfold Dev.learnEnd
  simp only [hl]

theorem patchAtEnd_unlearned (hm : d.models[h] = some m) (hl : m.learn = none) : d.patchAtEnd h = d := by
  have hm : d.model h = some m := hm
  unfold Dev.patchAtEnd
  simp only [hm, hl]

/-- The end of a run up to its event. -/
def endedDev (d : Dev) (h : Handle) (m : Model) (r : Run) (x : Err) : Dev :=
  endNotice (endTags (endRecord (endModel (endTiles d h m r) h r x) h r x) h x) h m r x

/-- The model of a run that has ended. -/
theorem endModel_models (hm : d.models[h] = some m) (m' : Model) : (endModel (endTiles d h m' r) h r x).models =
    d.models.set h.val (some (endedModel m r x (if x == .ok then [] else d.phasesLeft r))) := by
  have models : (endTiles d h m' r).models = d.models := (endTiles_keeps _ _ _ _) .models (by decide)
  have spool : (endTiles d h m' r).spool = d.spool := (endTiles_keeps _ _ _ _) .spool (by decide)
  have hm' : (endTiles d h m' r).models[h] = some m := by rw [models, hm]
  rw [endModel, onModel_models hm', models, phasesLeft_congr (congrArg Spool.tags spool)]

theorem endedDev_models (hm : d.models[h] = some m) : (endedDev d h m r x).models =
    d.models.set h.val (some (endedModel m r x (if x == .ok then [] else d.phasesLeft r))) :=
  ((endNotice_keeps _ _ _ _ _) .models (by decide)).trans (((endTags_keeps _ _ _) .models (by decide)).trans
    (((endRecord_keeps _ _ _ _) .models (by decide)).trans (endModel_models hm m)))

/-- Without a learning section the end of a run is that of its work. -/
theorem endRun_unlearned (hm : d.models[h] = some m) (hr : m.run = some r) (hl : m.learn = none) :
    d.endRun h x = endWake (endedDev d h m r x) r x := by
  have models : (endWake (endedDev d h m r x) r x).models = _ :=
    ((endWake_keeps _ _ _) .models (by decide)).trans (endedDev_models hm)
  rw [endRun_stages x hm hr]
  show endLearn (endWake (endedDev d h m r x) r x) h m r x = _
  generalize endWake (endedDev d h m r x) r x = e at models ⊢
  rw [endLearn, learnEnd_unlearned hl, patchAtEnd_unlearned (models_set_same models) (show (endedModel m r x _).learn = none from hl), ite_self]

theorem endedDev_ofRun : (endedDev d h m r x).spool.ofRun h = [] := by
  refine (ofRun_congr (congrArg Spool.tags ((endNotice_keeps _ _ _ _ _) .spool (by decide))) h).trans ?_
  unfold endTags
  split
  · exact ofRun_retireTags _ _ _
  · exact (ofRun_congr (congrArg Spool.tags ((dropReloads_keeps _ _) .spool (by decide))) h).trans (ofRun_abortRun _ _)

/-- Between the marks of the tiles and the event the host side stands still. -/
theorem endTags_frame : Keeps [.tiles, .models, .spool, .sram] (endTiles d h m r)
    (endTags (endRecord (endModel (endTiles d h m r) h r x) h r x) h x) :=
  Keeps.andThen (endTags_keeps _ _ _) (by decide) (Keeps.andThen (endRecord_keeps _ _ _ _) (by decide)
    (Keeps.mono (endModel_keeps _ _ _ _) (by decide)))

theorem endedDev_keeps : Keeps [.host, .tiles, .models, .spool, .sram] d (endedDev d h m r x) :=
  Keeps.andThen (endNotice_keeps _ _ _ _ _) (by decide) (Keeps.andThen endTags_frame (by decide)
    (Keeps.mono (endTiles_keeps _ _ _ _) (by decide)))

theorem postTo_host_congr {d d' : Dev} (hh : d'.host = d.host) (hc : d'.clk = d.clk) (b : Basket) (e : Ev) :
    (d'.postTo b e).host = (d.postTo b e).host := by
  unfold Dev.postTo
  rw [stamp_congr hc, post_host_congr hh hc]

/-- What the event and the interrupt make of a page follows from the host side and the clock. -/
theorem endNotice_host_congr {d d' : Dev} (hh : d'.host = d.host) (hc : d'.clk = d.clk) :
    (endNotice d' h m r x).host = (endNotice d h m r x).host :=
  raise_host_congr (postTo_host_congr hh hc _ _)
    (((postTo_keeps _ _ _) .clk (by decide)).trans (hc.trans ((postTo_keeps _ _ _) .clk (by decide)).symm)) _ _

theorem endedDev_host : (endedDev d h m r x).host = (endNotice (endTiles d h m r) h m r x).host :=
  endNotice_host_congr (endTags_frame .host (by decide)) (endTags_frame .clk (by decide))

/-- A run whose seams all held marks no tile. -/
theorem endTiles_sound (hf : r.seamFailed = []) : endTiles d h m r = d.tileCounts m r := by
  rw [endTiles, hf]
  rfl

theorem endedDev_host_sound (hf : r.seamFailed = []) : (endedDev d h m r x).host = (endNotice d h m r x).host := by
  rw [endedDev_host, endTiles_sound hf]
  exact endNotice_host_congr ((tileCounts_keeps _ _ _) .host (by decide)) ((tileCounts_keeps _ _ _) .clk (by decide))

theorem endedDev_tile (i : Fin 48) :
    (endedDev d h m r x).tiles[i] = if x == .ok then (endTiles d h m r).tiles[i] else dropTile h (endTiles d h m r).tiles[i] := by
  have before : (endRecord (endModel (endTiles d h m r) h r x) h r x).tiles = (endTiles d h m r).tiles :=
    ((endRecord_keeps _ _ _ _) .tiles (by decide)).trans ((endModel_keeps _ _ _ _) .tiles (by decide))
  have after : (endedDev d h m r x).tiles = (endTags (endRecord (endModel (endTiles d h m r) h r x) h r x) h x).tiles :=
    (endNotice_keeps _ _ _ _ _) .tiles (by decide)
  generalize endRecord (endModel (endTiles d h m r) h r x) h r x = e at before after
  have tags : (endTags e h x).tiles[i] = if x == .ok then e.tiles[i] else dropTile h e.tiles[i] := by
    unfold endTags
    split
    · exact congrArg (fun v : Vector Tile 48 => v[i]) ((retireTags_keeps _ _ _) .tiles (by decide))
    · exact (dropReloads_tile _ _ _).trans (congrArg (fun v : Vector Tile 48 => dropTile h v[i]) ((abortRun_keeps _ _) .tiles (by decide)))
  simp only [after, tags, before]

/-- The status record of a run that ends, at its place (Table 10-4). -/
theorem endedDev_sram (hm : d.models[h] = some m) : (endedDev d h m r x).sram = d.sram.setBytes (0x70000 + 0x400 * h.val)
    (d.statusRecord (endedModel m r x (if x == .ok then [] else d.phasesLeft r)) r x.code (endFlags r x).toNat) := by
  have after : (endedDev d h m r x).sram = (endRecord (endModel (endTiles d h m r) h r x) h r x).sram :=
    ((endNotice_keeps _ _ _ _ _) .sram (by decide)).trans ((endTags_keeps _ _ _) .sram (by decide))
  have before : Keeps [.host, .tiles, .models] d (endModel (endTiles d h m r) h r x) :=
    Keeps.andThen (endModel_keeps _ _ _ _) (by decide) (Keeps.mono (endTiles_keeps _ _ _ _) (by decide))
  have model : (endModel (endTiles d h m r) h r x).model h = _ := models_set_same (endModel_models hm m)
  rw [after, endRecord]
  simp only [model, Dev.memWrite_sram]
  rw [show (endModel (endTiles d h m r) h r x).sram = d.sram from before .sram (by decide), statusRecord_congr (before .clk (by decide))]

/-- The status record is read back as it was written, and nothing else of the SRAM has changed. -/
theorem endedDev_record (hm : d.models[h] = some m) :
    (endedDev d h m r x).sram.bytes (0x70000 + 0x400 * h.val) 320 =
        d.statusRecord (endedModel m r x (if x == .ok then [] else d.phasesLeft r)) r x.code (endFlags r x).toNat ∧
      UnchangedOutside d.sram (endedDev d h m r x).sram (0x70000 + 0x400 * h.val) 320 := by
  have hlen := statusRecord_length d (endedModel m r x (if x == .ok then [] else d.phasesLeft r)) r x.code (endFlags r x).toNat
  rw [endedDev_sram hm]
  generalize d.statusRecord (endedModel m r x (if x == .ok then [] else d.phasesLeft r)) r x.code (endFlags r x).toNat = bs at hlen ⊢
  have own := Sram.bytes_setBytes_same d.sram (0x70000 + 0x400 * h.val) bs (by rw [hlen]; simp only [sramSize]; omega)
  have out := Sram.unchangedOutside_setBytes d.sram (0x70000 + 0x400 * h.val) bs
  rw [hlen] at own out
  exact ⟨own, out⟩

theorem endWake_awake (hp : d.pwr.state ≠ .watch) : endWake d r x = d := by
  rw [endWake, if_neg]
  simp [hp]

theorem endedModel_ok (m : Model) (r : Run) : endedModel m r .ok [] =
    { m with run := none, lastResult := Err.ok.code, update := m.update + 2, runsDone := m.runsDone + 1, verdict := r.verdict.getD m.verdict,
             novelty := r.novelty.getD m.novelty } := by
  simp [endedModel]

theorem endedModel_early (m : Model) (r : Run) (left : List Planned) (hx : (x == .ok) = false) : endedModel m r x left =
    { m with run := none, leaving := m.leaving ++ left, lastResult := x.code, update := m.update + 2, runsEarly := m.runsEarly + 1 } := by
  simp [endedModel, hx]

end
end Sys2Proof.Proofs

namespace Sys2Proof.Proofs
open Machine Laws

/-! ## RUN_END and RUN_DEADLINE (R484, R487) -/

section
variable {s : State} {t : Time} {h : Handle} {m : Model} {r : Run}

/-- RUN_END with a run in flight. -/
theorem runEnd_exec (hm : s.dev.models[h] = some m) (hr : m.run = some r) : exec (.runEnd t h) s = .next { s with dev :=
      (if !(here s t).runDone h r then here s t else (here s t).endRun h (if r.deadline ≤ instant s t then .runLate else .ok)) } := by
  have run : ((here s t).model h).bind (·.run) = some r := by
    show (s.dev.models[h]).bind (·.run) = some r
    rw [hm]
    exact hr
  show Host.Outcome.next ({ s with dev := (match ((here s t).model h).bind (·.run) with | none => here s t | some r => _) } : State) = _
  simp only [run]
  rfl

/-- RUN_DEADLINE with a run in flight. -/
theorem runDeadline_exec (hm : s.dev.models[h] = some m) (hr : m.run = some r) : exec (.runDeadline t h) s = .next { s with dev :=
      (if instant s t < r.deadline then here s t else (here s t).endRun h (if r.waitFor then .tileBusy else .runLate)) } := by
  have run : ((here s t).model h).bind (·.run) = some r := by
    show (s.dev.models[h]).bind (·.run) = some r
    rw [hm]
    exact hr
  show Host.Outcome.next ({ s with dev := (here s t).runLate h } : State) = _
  unfold Dev.runLate
  simp only [run]
  rfl

/-- A run whose work is done, with no tag left but that of its learning, ends. -/
theorem runDone_of (hf : r.finished = true) (ht : (s.dev.spool.ofRun h).all (fun u => u.kind == .learn && u.status == .issued) = true) :
    (here s t).runDone h r = true := by
  show (r.finished && (s.dev.spool.ofRun h).all (fun u => u.kind == .learn && u.status == .issued)) = true
  rw [hf, ht]
  rfl

/-- Before its deadline a run whose work is done ends with E_OK. -/
theorem runEnd_ok (hm : s.dev.models[h] = some m) (hr : m.run = some r ∧ m.learn = none) (hf : r.finished = true)
    (ht : (s.dev.spool.ofRun h).all (fun u => u.kind == .learn && u.status == .issued) = true) (hlate : instant s t < r.deadline) :
    exec (.runEnd t h) s = .next { s with dev := endWake (endedDev (here s t) h m r .ok) r .ok } := by
  have hm' : (here s t).models[h] = some m := hm
  rw [runEnd_exec hm hr.1, runDone_of hf ht, if_neg (by decide), if_neg (Nat.not_le.mpr hlate), endRun_unlearned hm' hr.1 hr.2]

theorem endFlags_ok (hf : r.seamFailed = []) : endFlags r .ok = r.flags := by
  simp [endFlags, hf]

theorem endFlags_early (hf : r.seamFailed = []) {x : Err} (hx : (x == .ok) = false) : endFlags r x = r.flags ||| 32 := by
  simp [endFlags, hf, hx]

/-- A run that ends with E_OK: the record, the counters, the tiles, the tags, the event and the interrupt. -/
theorem runEnd_completes (hm : s.dev.models[h] = some m) (hr : m.run = some r ∧ m.learn = none) (hf : r.finished = true ∧ r.seamFailed = [])
    (ht : (s.dev.spool.ofRun h).all (fun u => u.kind == .learn && u.status == .issued) = true) (hlate : instant s t < r.deadline)
    (hp : s.dev.pwr.state ≠ .watch) :
    let m' := { m with run := none, lastResult := Err.ok.code, update := m.update + 2, runsDone := m.runsDone + 1,
                       verdict := r.verdict.getD m.verdict, novelty := r.novelty.getD m.novelty }
    let record := (here s t).statusRecord m' r Err.ok.code r.flags.toNat
    Does (.runEnd t h) s t [.host, .tiles, .models, .spool, .sram] (fun d => (∀ i : Fin 48, d.tiles[i] = ranTile m r i s.dev.tiles[i]) ∧
      d.models = s.dev.models.set h.val (some m') ∧ d.sram.bytes (0x70000 + 0x400 * h.val) record.length = record ∧
      UnchangedOutside s.dev.sram d.sram (0x70000 + 0x400 * h.val) record.length ∧
      d.spool.ofRun h = [] ∧ d.host = (endNotice (here s t) h m r .ok).host) := by
  intro m' record
  rw [show record.length = 320 from statusRecord_length _ _ _ _ _]
  have hm' : (here s t).models[h] = some m := hm
  have awake : (endedDev (here s t) h m r .ok).pwr.state ≠ .watch := by
    rw [show (endedDev (here s t) h m r .ok).pwr = s.dev.pwr from endedDev_keeps .pwr (by decide)]
    exact hp
  have models := endedDev_models (r := r) (x := .ok) hm'
  obtain ⟨record, out⟩ := endedDev_record (r := r) (x := .ok) hm'
  rw [if_pos (by decide), endedModel_ok] at models record
  rw [endFlags_ok hf.2] at record
  refine does_of (runEnd_ok hm hr hf.1 ht hlate) ?_ ?_
  · rw [endWake_awake awake]
    exact endedDev_keeps
  · rw [endWake_awake awake]
    refine ⟨fun i => ?_, models, record, out, endedDev_ofRun, endedDev_host_sound hf.2⟩
    rw [endedDev_tile, if_pos (by decide), endTiles_sound hf.2, tileCounts_tile]
    rfl

/-- In WATCH a verdict that the wake mask passes wakes (R876). -/
theorem runEnd_wakes {v : BitVec 16} (hm : s.dev.models[h] = some m) (hr : m.run = some r ∧ m.learn = none)
    (hf : r.finished = true ∧ r.seamFailed = []) (ht : s.dev.spool.ofRun h = []) (hlate : instant s t < r.deadline)
    (hp : s.dev.pwr.state = .watch) (hv : r.verdict = some v ∧ v.toNat % 256 ≠ 0 ∧ s.dev.pwr.wakeMask[2] = true) :
    Does (.runEnd t h) s t [.pwr, .host, .tiles, .models, .spool, .sram] (fun d =>
      d.pwr = { s.dev.pwr with wakes := s.dev.pwr.wakes ||| 4 }) := by
  refine does_of (runEnd_ok hm hr hf.1 (by rw [ht]; rfl) hlate)
    (Keeps.andThen (endWake_keeps _ _ _) (by decide) (Keeps.mono endedDev_keeps (by decide))) ?_
  obtain ⟨hverdict, hnonzero, hmask⟩ := hv
  have pwr : (endedDev (here s t) h m r .ok).pwr = s.dev.pwr := endedDev_keeps .pwr (by decide)
  have mask : s.dev.pwr.wakeMask.getLsbD 2 = true := (BitVec.getLsbD_eq_getElem (by decide)).trans hmask
  generalize endedDev (here s t) h m r .ok = d at pwr ⊢
  have wakes : endWake d r .ok = d.wakeBy 2 := by
    rw [endWake, if_pos]
    simp [hverdict, hnonzero, pwr, hp]
  rw [wakes, Dev.wakeBy, if_pos (by simp [pwr, hp, mask])]
  show ({ d.pwr with wakes := d.pwr.wakes ||| BitVec.ofNat 3 (2 ^ 2) } : Pwr) = _
  rw [pwr]
  rfl

/-! ### A run that ends early -/

/-- What a run that ends early leaves behind. -/
theorem endedDev_early {d : Dev} {x : Err} (hm : d.models[h] = some m) (hf : r.seamFailed = []) (hx : (x == .ok) = false) :
    let m' := { m with run := none, leaving := m.leaving ++ d.phasesLeft r, lastResult := x.code, update := m.update + 2,
                       runsEarly := m.runsEarly + 1 }
    (endedDev d h m r x).models = d.models.set h.val (some m') ∧
      (endedDev d h m r x).sram.bytes (0x70000 + 0x400 * h.val) 320 = d.statusRecord m' r x.code (r.flags ||| 32).toNat ∧
      UnchangedOutside d.sram (endedDev d h m r x).sram (0x70000 + 0x400 * h.val) 320 ∧
      (endedDev d h m r x).spool.ofRun h = [] ∧ (endedDev d h m r x).host = (endNotice d h m r x).host ∧
      ∀ i : Fin 48, (endedDev d h m r x).tiles[i] = dropTile h (ranTile m r i d.tiles[i]) := by
  intro m'
  have models := endedDev_models (r := r) (x := x) hm
  obtain ⟨record, out⟩ := endedDev_record (r := r) (x := x) hm
  rw [hx, if_neg (by decide), endedModel_early _ _ _ hx] at models record
  rw [endFlags_early hf hx] at record
  refine ⟨models, record, out, endedDev_ofRun, endedDev_host_sound hf, fun i => ?_⟩
  rw [endedDev_tile, hx, if_neg (by decide), endTiles_sound hf, tileCounts_tile]

/-- A run that ends early wakes nothing. -/
theorem endWake_early {d : Dev} {x : Err} (hx : (x == .ok) = false) : endWake d r x = d := by
  rw [endWake, hx, if_neg]
  simp

/-- The counts of a run leave the operations that wait on a tile. -/
theorem dropTile_ranTile (h : Handle) (m : Model) (r : Run) (i : Fin 48) (x : Tile) : dropTile h (ranTile m r i x) =
    { ranTile m r i x with queue := x.queue.filter (fun o => !(o.kind == .reload && o.handle == some h)) } := by
  unfold dropTile ranTile
  split <;> rfl

/-- The code of a run at its deadline. -/
theorem lateCode (w : Bool) : (if w = true then Err.tileBusy.code else Err.runLate.code) = (if w = true then Err.tileBusy else Err.runLate).code := by
  split <;> rfl

theorem runDeadline_ends (hm : s.dev.models[h] = some m) (hr : m.run = some r ∧ m.learn = none) (hf : r.seamFailed = [])
    (hlate : r.deadline ≤ instant s t) :
    let code := if r.waitFor = true then Err.tileBusy.code else Err.runLate.code
    let m' := { m with run := none, leaving := m.leaving ++ (here s t).phasesLeft r, lastResult := code, update := m.update + 2,
                       runsEarly := m.runsEarly + 1 }
    let e : Ev := { event := .runEnd, subject := h.val, data0 := code.toNat, data1 := r.frame % 65536 }
    let record := (here s t).statusRecord m' r code (r.flags ||| 32).toNat
    Does (.runDeadline t h) s t [.host, .tiles, .models, .spool, .sram] (fun d => d.models = s.dev.models.set h.val (some m') ∧
      d.sram.bytes (0x70000 + 0x400 * h.val) record.length = record ∧
      UnchangedOutside s.dev.sram d.sram (0x70000 + 0x400 * h.val) record.length ∧
      d.spool.ofRun h = [] ∧ d.host = (((here s t).postTo m.basket e).raise (toBasket m.basket) .runEnd).host ∧
      ∀ i : Fin 48, d.tiles[i] =
        { ranTile m r i s.dev.tiles[i] with queue := (s.dev.tiles[i]).queue.filter (fun o => !(o.kind == .reload && o.handle == some h)) }) := by
  rw [lateCode]
  intro code m' e record
  rw [show record.length = 320 from statusRecord_length _ _ _ _ _]
  have hm' : (here s t).models[h] = some m := hm
  have hx : ((if r.waitFor = true then Err.tileBusy else Err.runLate) == .ok) = false := by
    split <;> rfl
  obtain ⟨models, own, out, ofRun, host, tiles⟩ := endedDev_early hm' hf hx
  refine does_of (d := endedDev (here s t) h m r (if r.waitFor = true then .tileBusy else .runLate)) ?_ endedDev_keeps
    ⟨models, own, out, ofRun, host, fun i => (tiles i).trans (dropTile_ranTile _ _ _ _ _)⟩
  rw [runDeadline_exec hm hr.1, if_neg (Nat.not_lt.mpr hlate), endRun_unlearned hm' hr.1 hr.2, endWake_early hx]

theorem runEnd_late (hm : s.dev.models[h] = some m) (hr : m.run = some r ∧ m.learn = none) (hf : r.seamFailed = [] ∧ r.finished = true)
    (ht : s.dev.spool.ofRun h = []) (hlate : r.deadline ≤ instant s t) :
    Does (.runEnd t h) s t [.host, .tiles, .models, .spool, .sram] (fun d => d.models = s.dev.models.set h.val
      (some { m with run := none, leaving := m.leaving ++ (here s t).phasesLeft r, lastResult := Err.runLate.code, update := m.update + 2,
                     runsEarly := m.runsEarly + 1 })) := by
  have hm' : (here s t).models[h] = some m := hm
  refine does_of (d := endedDev (here s t) h m r .runLate) ?_ endedDev_keeps (endedDev_early hm' hf.1 (by decide)).1
  rw [runEnd_exec hm hr.1, runDone_of hf.2 (by rw [ht]; rfl), if_neg (by decide), if_pos hlate, endRun_unlearned hm' hr.1 hr.2,
    endWake_early (by decide)]

theorem run_goes_on (hm : s.dev.models[h] = some m) (hr : m.run = some r) (hg : instant s t < r.deadline ∧ r.finished = false) :
    Does (.runDeadline t h) s t [] (fun _ => True) ∧ Does (.runEnd t h) s t [] (fun _ => True) := by
  have busy : (here s t).runDone h r = false := by
    show (r.finished && _) = false
    rw [hg.2]
    rfl
  exact ⟨does_nothing (by rw [runDeadline_exec hm hr, if_pos hg.1]), does_nothing (by rw [runEnd_exec hm hr, busy, if_pos (by decide)])⟩

/-! ### A seam that failed (R323, R324, R373) -/

theorem seamFailures_one (d : Dev) (h : Handle) (i : Fin 48) (n : Nat) : d.seamFailures h [(i, n)] =
    (d.onTile i (fun x =>
      { (if x.state == TileState.ready || x.state == .suspect then x.schedule d.now else x) with
          state := if x.state == TileState.ready then .suspect else x.state })).postTile i
      { event := .seamFail, subject := i.val, data0 := h.val, data1 := n } := rfl

/-- The counts of a run leave what an inspection goes by. -/
theorem ranTile_upkeep (m : Model) (r : Run) (i : Fin 48) (x : Tile) :
    (ranTile m r i x).state = x.state ∧ (ranTile m r i x).due = x.due ∧ (ranTile m r i x).needsPress = x.needsPress := by
  unfold ranTile
  split <;> exact ⟨rfl, rfl, rfl⟩

/-- A READY tile without an inspection that is due becomes SUSPECT, its inspection due. -/
theorem suspect_of_ready {y : Tile} {now : Time} (hs : y.state = .ready) (hd : y.due = false) (hn : y.needsPress = false) :
    ({ (if y.state == TileState.ready || y.state == .suspect then y.schedule now else y) with
        state := if y.state == TileState.ready then .suspect else y.state } : Tile) = { y with state := .suspect, due := true, dueSince := now } := by
  simp [Tile.schedule, Tile.makeDue, Tile.alive, hs, hd, hn]

/-- Bytes in the middle of a range. -/
theorem Sram.bytes_slice (m : Sram) (a n k j : Nat) : m.bytes (a + n) k = ((m.bytes a (n + k + j)).drop n).take k := by
  rw [Nat.add_assoc, Sram.bytes_append, List.drop_append_of_le_length (by rw [Sram.bytes_length]),
    List.drop_of_length_le (by rw [Sram.bytes_length]), List.nil_append, Sram.bytes_append,
    List.take_append_of_le_length (by rw [Sram.bytes_length]), List.take_of_length_le (by rw [Sram.bytes_length])]

theorem runEnd_suspect {i : Fin 48} {n : Nat} (hm : s.dev.models[h] = some m) (hr : m.run = some r ∧ m.learn = none)
    (hf : r.finished = true ∧ r.seamFailed = [(i, n)]) (ht : s.dev.spool.ofRun h = []) (hlate : instant s t < r.deadline)
    (hp : s.dev.pwr.state ≠ .watch)
    (hx : s.dev.tiles[i].state = .ready ∧ s.dev.tiles[i].due = false ∧ s.dev.tiles[i].needsPress = false) :
    let fail : Ev := { event := .seamFail, subject := i.val, data0 := h.val, data1 := n }
    Does (.runEnd t h) s t [.host, .tiles, .models, .spool, .sram] (fun d =>
      (∀ j : Fin 48, j ≠ i → d.tiles[j] = ranTile m r j s.dev.tiles[j]) ∧
      d.tiles[i] = { ranTile m r i s.dev.tiles[i] with state := .suspect, due := true, dueSince := instant s t } ∧
      d.sram.value (0x70000 + 0x400 * h.val + 26) 2 = (r.flags ||| 64).toNat ∧
      d.host = (endNotice ((here s t).postHeld (fun g => g.tiles[i]) fail) h m r .ok).host) := by
  intro fail
  have hm' : (here s t).models[h] = some m := hm
  have awake : (endedDev (here s t) h m r .ok).pwr.state ≠ .watch := by
    rw [show (endedDev (here s t) h m r .ok).pwr = s.dev.pwr from endedDev_keeps .pwr (by decide)]
    exact hp
  have ready := ranTile_upkeep m r i s.dev.tiles[i]
  have counted : ∀ j : Fin 48, ((here s t).tileCounts m r).tiles[j] = ranTile m r j s.dev.tiles[j] := fun j => tileCounts_tile _ m r j
  have marks : endTiles (here s t) h m r = (((here s t).tileCounts m r).onTile i (fun x =>
      { (if x.state == TileState.ready || x.state == .suspect then x.schedule (instant s t) else x) with
          state := if x.state == TileState.ready then .suspect else x.state })).postTile i fail := by
    rw [endTiles, hf.2, seamFailures_one]
    rfl
  have tiles : (endTiles (here s t) h m r).tiles = ((here s t).tileCounts m r).tiles.set i.val
      { ranTile m r i s.dev.tiles[i] with state := .suspect, due := true, dueSince := instant s t } := by
    rw [marks, show (Dev.postTile _ i fail).tiles = _ from (postTile_keeps _ _ _) .tiles (by decide), onTile_tiles, counted,
      suspect_of_ready (ready.1.trans hx.1) (ready.2.1.trans hx.2.1) (ready.2.2.trans hx.2.2)]
  have own : ∀ j : Fin 48, (endedDev (here s t) h m r .ok).tiles[j] = (endTiles (here s t) h m r).tiles[j] := fun j => by
    rw [endedDev_tile, if_pos (by decide)]
  refine does_of (runEnd_ok hm hr hf.1 (by rw [ht]; rfl) hlate) ?_ ?_
  · rw [endWake_awake awake]
    exact endedDev_keeps
  · rw [endWake_awake awake]
    refine ⟨fun j hj => ?_, ?_, ?_, ?_⟩
    · have hv : i.val ≠ j.val := fun e => hj (Fin.ext e.symm)
      rw [own]
      simp only [tiles, Fin.getElem_fin, Vector.getElem_set_ne, hv, ne_eq, not_false_eq_true]
      exact counted j
    · rw [own]
      simp [tiles]
    · have flags : endFlags r .ok = r.flags ||| 64 := by simp [endFlags, hf.2]
      have record := (endedDev_record (r := r) (x := .ok) hm').1
      have cut := Sram.bytes_slice (endedDev (here s t) h m r .ok).sram (0x70000 + 0x400 * h.val) 26 2 292
      rw [Sram.value, cut, record, flags]
      exact statusRecord_flags _ _ _ _ (by omega)
    · rw [endedDev_host, marks]
      exact endNotice_host_congr (post_host_congr rfl rfl _ _ _) rfl

end
end Sys2Proof.Proofs

namespace Sys2Proof.Proofs
open Machine Laws

/-! ## GATHER (R469) -/

/-- A binding that does not go to an FP buffer gathers a byte for each of its elements. -/
theorem gatherBinding_length (d : Dev) (m : Model) (k i : Nat) {b : Binding} (hk : b.kind ≤ 2) (hf : b.isFp = false) :
    (d.gatherBinding m k i b).bytes.length = b.count := by
  have kind : b.kind = 0 ∧ b.source ≠ 2 ∨ b.kind = 1 := by
    simp only [Binding.isFp, Bool.or_eq_false_iff, Bool.and_eq_false_imp, beq_iff_eq, beq_eq_false_iff_ne, ne_eq] at hf
    omega
  obtain ⟨h0, hs⟩ | h1 := kind
  · simp only [Dev.gatherBinding, h0, Dev.gatherFeature, if_neg hs]
    split
    · simp
    · simp
  · simp only [Dev.gatherBinding, h1, Dev.gatherRemote]
    split
    · rw [Sram.bytes_length]
    · split
      · rw [Sram.bytes_length]
      · simp

/-- What a FEATURE binding of the frame's own count records gathers. -/
theorem gatherBinding_feature (d : Dev) (m : Model) (k i : Nat) {b : Binding} (hb : b.kind = 0 ∧ b.source = 1 ∧ b.frame = 0) :
    let v := fun (i : Nat) => d.sram.value (k % 2 * 0x1000 + 4 * (b.first + i)) 4
    (d.gatherBinding m k i b).bytes = (List.range b.count).map (fun i => BitVec.ofNat 8 (v i / 256)) ∧
      (d.gatherBinding m k i b).flags = (List.range b.count).foldl (fun f i => f ||| v i % 32) 0 := by
  obtain ⟨hk, hs, hf⟩ := hb
  simp [Dev.gatherBinding, hk, Dev.gatherFeature, hs, hf, recordAddr, List.foldl_map, Function.comp_def]

/-- The input vector of a model with 0 in the elements that no binding fills (R426, R470). -/
def zeroedInput (d : Dev) (h : Handle) (m : Model) : List Byte :=
  (List.range 8192).map (fun e => if m.image.bound e then d.sram.get (0x50000 + 0x2000 * h.val + e) else 0)

theorem zeroedInput_length (d : Dev) (h : Handle) (m : Model) : (zeroedInput d h m).length = 8192 := by
  rw [zeroedInput, List.length_map, List.length_range]

theorem zeroedInput_getElem (d : Dev) (h : Handle) (m : Model) (e : Nat) (he : e < (zeroedInput d h m).length) :
    (zeroedInput d h m)[e] = if m.image.bound e then d.sram.get (0x50000 + 0x2000 * h.val + e) else 0 := by
  simp only [zeroedInput, List.getElem_map, List.getElem_range]

theorem zeroUnbound_sram (d : Dev) (h : Handle) (m : Model) :
    (∀ e : Fin 8192, (d.zeroUnbound h m).sram.get (0x50000 + 0x2000 * h.val + e.val) =
      if m.image.bound e.val then d.sram.get (0x50000 + 0x2000 * h.val + e.val) else 0) ∧
      UnchangedOutside d.sram (d.zeroUnbound h m).sram (0x50000 + 0x2000 * h.val) 8192 := by
  have sram : (d.zeroUnbound h m).sram = d.sram.setBytes (0x50000 + 0x2000 * h.val) (zeroedInput d h m) := Dev.memWrite_sram _ _ _
  have hlen := zeroedInput_length d h m
  have entry := zeroedInput_getElem d h m
  rw [sram]
  generalize zeroedInput d h m = vs at hlen entry ⊢
  refine ⟨fun e => ?_, fun y hy => Sram.get_setBytes_other _ _ _ _ (by rw [hlen]; exact hy)⟩
  have he : e.val < vs.length := by rw [hlen]; exact e.isLt
  rw [Sram.get_setBytes_same _ _ _ _ he (by rw [hlen]; simp only [sramSize]; omega), entry]

section
variable {s : State} {t : Time} {h : Handle} {m : Model} {r : Run} {x : Tag} {bd : Binding}

/-- The device once one GATHER tag has been carried out. -/
def gatheredDev (d : Dev) (h : Handle) (m : Model) (k : Nat) (x : Tag) (bd : Binding) : Dev :=
  ((d.memWrite (m.targetAddr h bd) (d.gatherBinding m k x.index bd).bytes).onRun h
    (fun r => { r with flags := r.flags ||| BitVec.ofNat 7 (d.gatherBinding m k x.index bd).flags })).retireTags true [x.id]

/-- GATHER with one tag that can be carried out. -/
theorem gather_exec (hm : s.dev.models[h] = some m) (hr : m.run = some r)
    (ho : (s.dev.spool.ofRun h).filter (fun u => u.kind == .gather && u.status == .issued) = [x]) (hb : m.image.bindings[x.index]? = some bd)
    (hg : (here s t).gatherable r.frame bd = true) : exec (.gather t h) s = .next { s with dev :=
      (if !r.gathered && !((gatheredDev (here s t) h m r.frame x bd).spool.ofRun h).any (fun t => t.kind == .gather) then
        ((gatheredDev (here s t) h m r.frame x bd).zeroUnbound h m).onRun h (fun r => { r with gathered := true })
      else gatheredDev (here s t) h m r.frame x bd) } := by
  have model : (here s t).model h = some m := hm
  have mine : ((here s t).spool.ofRun h).filter (fun u => u.kind == .gather && u.status == .issued) = [x] := ho
  have tag : (here s t).gatherTag h m r.frame x = gatheredDev (here s t) h m r.frame x bd := by
    unfold Dev.gatherTag
    simp only [hb, hg]
    rfl
  have all : (here s t).gatherAll h m r.frame [x] = gatheredDev (here s t) h m r.frame x bd := tag
  have run : exec (.gather t h) s = .next { s with dev :=
      (match (here s t).model h with
        | none => here s t
        | some m =>
          match m.run with
          | none => here s t
          | some r =>
            let d := (here s t).gatherAll h m r.frame (((here s t).spool.ofRun h).filter (fun u => u.kind == .gather && u.status == .issued))
            if !r.gathered && !(d.spool.ofRun h).any (fun t => t.kind == .gather) then
              (d.zeroUnbound h m).onRun h (fun r => { r with gathered := true })
            else d) } := rfl
  rw [run]
  simp only [model, hr, mine, all]

/-- What carrying out one GATHER tag does. -/
theorem gatheredDev_spec (d : Dev) (hm : d.models[h] = some m) (hr : m.run = some r) (hx : x ∈ d.spool.ofRun h) (k : Nat) :
    let g := d.gatherBinding m k x.index bd
    let e := gatheredDev d h m k x bd
    e.models = d.models.set h.val (some { m with run := some { r with flags := r.flags ||| BitVec.ofNat 7 g.flags } }) ∧
      e.sram = d.sram.setBytes (m.targetAddr h bd) g.bytes ∧ e.spool.tags.all (fun u => u.id != x.id) = true ∧
      e.spool.device.completed = d.spool.device.completed + 1 ∧
      (e.spool.ofRun h).any (fun t => t.kind == .gather) = !(d.spool.ofRun h).all (fun u => u.kind != .gather || u.id == x.id) := by
  intro g e
  have found : ∃ u, d.spool.tags.find? (fun u => u.id == x.id) = some u := by
    rw [← Option.isSome_iff_exists, List.find?_isSome]
    exact ⟨x, (mem_ofRun.mp hx).1, by simp⟩
  obtain ⟨u, hu⟩ := found
  let w := (d.memWrite (m.targetAddr h bd) g.bytes).onRun h (fun r => { r with flags := r.flags ||| BitVec.ofNat 7 g.flags })
  have retired : e.spool = w.spool.retire w.now x.id true := rfl
  have tags : w.spool.tags = d.spool.tags := rfl
  have device : w.spool.device = d.spool.device := rfl
  have hu' : w.spool.tags.find? (fun u => u.id == x.id) = some u := hu
  refine ⟨?_, ?_, ?_, ?_, ?_⟩
  · have models : (d.memWrite (m.targetAddr h bd) g.bytes).models = d.models := (memWrite_keeps _ _ _) .models (by decide)
    have hm' : (d.memWrite (m.targetAddr h bd) g.bytes).models[h] = some m := by rw [models, hm]
    exact ((retireTags_keeps _ _ _) .models (by decide)).trans ((onRun_models hm' hr _).trans (by rw [models]))
  · exact ((retireTags_keeps _ _ _) .sram (by decide)).trans (Dev.memWrite_sram _ _ _)
  · rw [List.all_eq_true]
    intro v hv
    rw [retired] at hv
    simpa using (retire_from hv).1
  · rw [retired, retire_device _ hu', device]
    rfl
  · rw [retired, ofRun_retire _ hu', ofRun_congr tags]
    have kind : ∀ v : Tag, (v.released x.id w.now).kind = v.kind := fun v => by
      obtain ⟨-, hk, -, -⟩ : _ ∧ _ ∧ _ ∧ _ := by simpa [Tag.work] using released_work v x.id w.now
      exact hk
    simp only [List.any_map, Function.comp_def, kind, List.any_filter]
    rw [Bool.eq_iff_iff]
    simp only [List.any_eq_true, Bool.not_eq_true', List.all_eq_false, Bool.and_eq_true, bne_iff_ne, beq_iff_eq, Bool.or_eq_true, not_or, ne_eq,
      not_not, and_comm]

/-- A binding's elements lie in its own part of the input vector, or beyond all input vectors. -/
theorem target_or (hk : bd.kind ≤ 2) (hfirst : 8 ≤ m.firstUnit) (d : Dev) (k i : Nat) :
    (bd.isFp = false ∧ m.targetAddr h bd = 0x50000 + 0x2000 * h.val + bd.target ∧ (d.gatherBinding m k i bd).bytes.length = bd.count) ∨
      0x50000 + 0x2000 * h.val + 8192 ≤ m.targetAddr h bd := by
  cases hf : bd.isFp with
  | false => exact Or.inl ⟨rfl, by simp [Model.targetAddr, hf], gatherBinding_length _ _ _ _ hk hf⟩
  | true =>
    have := h.isLt
    refine Or.inr ?_
    simp only [Model.targetAddr, hf, if_true, Model.bufferAddr]
    omega

/-- The elements of a binding of the image are bound. -/
theorem bound_of {n e : Nat} (hb : m.image.bindings[n]? = some bd) (hf : bd.isFp = false) (h1 : bd.target ≤ e) (h2 : e < bd.target + bd.count) :
    m.image.bound e = true := by
  rw [Image.bound, List.any_eq_true]
  exact ⟨bd, List.mem_of_getElem? hb, by simp [hf, h1, h2]⟩

theorem gather_one (hm : s.dev.models[h] = some m) (hr : m.run = some r)
    (ho : (s.dev.spool.ofRun h).filter (fun u => u.kind == .gather && u.status == .issued) = [x])
    (hb : m.image.bindings[x.index]? = some bd ∧ bd.kind ≤ 2) (hg : (here s t).gatherable r.frame bd = true)
    (ha : 8 ≤ m.firstUnit ∧ m.targetAddr h bd + ((here s t).gatherBinding m r.frame x.index bd).bytes.length ≤ 0x1800000)
    (hv : bd.isFp = false → bd.target + bd.count ≤ 8192) (hgathered : r.gathered = false) :
    let g := (here s t).gatherBinding m r.frame x.index bd
    let a := m.targetAddr h bd
    let last := (s.dev.spool.ofRun h).all (fun u => u.kind != .gather || u.id == x.id)
    let input := 0x50000 + 0x2000 * h.val
    Does (.gather t h) s t [.models, .spool, .sram] (fun d => d.sram.bytes a g.bytes.length = g.bytes ∧
        UnchangedOutsideBoth s.dev.sram d.sram a g.bytes.length input 8192 ∧
      d.models = s.dev.models.set h.val (some { m with run := some { r with flags := r.flags ||| BitVec.ofNat 7 g.flags, gathered := last } }) ∧
      d.spool.tags.all (fun u => u.id != x.id) = true ∧ d.spool.device.completed = s.dev.spool.device.completed + 1 ∧
      (last = true → ∀ e : Fin 8192, m.image.bound e.val = false → d.sram.get (input + e.val) = 0) ∧
      (∀ e : Fin 8192, m.image.bound e.val = true → input + e.val < a ∨ a + g.bytes.length ≤ input + e.val →
          d.sram.get (input + e.val) = s.dev.sram.get (input + e.val))) := by
  intro g a last input
  have hx : x ∈ s.dev.spool.ofRun h := (List.mem_filter.mp (ho ▸ List.mem_singleton_self x : x ∈ _)).1
  have place := target_or (h := h) hb.2 ha.1 (here s t) r.frame x.index
  have run := gather_exec hm hr ho hb.1 hg
  obtain ⟨models, sram, tags, completed, rest⟩ := gatheredDev_spec (bd := bd) (here s t) hm hr hx r.frame
  have frame : Keeps [.models, .spool, .sram] (here s t) (gatheredDev (here s t) h m r.frame x bd) :=
    Keeps.andThen (retireTags_keeps _ _ _) (by decide) (Keeps.andThen (onRun_keeps _ _ _) (by decide)
      (Keeps.mono (memWrite_keeps _ _ _) (by decide)))
  have own := Sram.bytes_setBytes_same s.dev.sram a g.bytes ha.2
  have out : UnchangedOutside s.dev.sram (s.dev.sram.setBytes a g.bytes) a g.bytes.length := Sram.unchangedOutside_setBytes _ _ _
  rw [show s.dev.sram.setBytes a g.bytes = _ from sram.symm] at own out
  generalize gatheredDev (here s t) h m r.frame x bd = e at run models sram tags completed rest frame own out
  have rest : (e.spool.ofRun h).any (fun t => t.kind == .gather) = !last := rest
  rw [hgathered, rest, Bool.not_not, Bool.not_false, Bool.true_and] at run
  cases hl : last with
  | false =>
    rw [hl, if_neg (by decide)] at run
    refine does_of run frame ⟨own, fun y hy _ => out y hy, ?_, tags, completed, fun h => absurd h (by decide), fun i _ hi => out _ hi⟩
    rw [models, ← hgathered]
    rfl
  | true =>
    rw [hl, if_pos rfl] at run
    obtain ⟨zero, kept⟩ := zeroUnbound_sram e h m
    have zframe : Keeps [.spool, .sram] e (e.zeroUnbound h m) := memWrite_keeps _ _ _
    have ztags : (e.zeroUnbound h m).spool.tags = e.spool.tags := memWrite_tags _ _ _
    have zdevice : (e.zeroUnbound h m).spool.device = e.spool.device := rfl
    generalize e.zeroUnbound h m = z at run zero kept zframe ztags zdevice
    have zmodels : z.models = e.models := zframe .models (by decide)
    have hm' : z.models[h] = some _ := models_set_same (zmodels.trans models)
    refine does_of run (Keeps.andThen (onRun_keeps _ _ _) (by decide) (Keeps.andThen zframe (by decide) frame)) ?_
    have fsram : (z.onRun h (fun r => { r with gathered := true })).sram = z.sram := rfl
    have fspool : (z.onRun h (fun r => { r with gathered := true })).spool = z.spool := rfl
    rw [fsram, fspool, ztags, zdevice]
    refine ⟨?_, fun y hy hy' => ?_, ?_, tags, completed, fun _ i hi => ?_, fun i hi hi' => ?_⟩
    · refine (Sram.bytes_congr (fun y hy hy' => ?_)).trans own
      obtain ⟨hf, haddr, hlen⟩ | hbeyond := place
      · have haddr : a = input + bd.target := haddr
        have hlen : g.bytes.length = bd.count := hlen
        have hbound := hv hf
        have hy0 : input + (y - input) = y := by omega
        have := zero ⟨y - input, by omega⟩
        simp only [bound_of hb.1 hf (show bd.target ≤ y - input by omega) (by omega), if_true] at this
        rw [hy0] at this
        exact this
      · exact kept y (Or.inr (hbeyond.trans hy))
    · exact (kept y hy').trans (out y hy)
    · rw [onRun_models hm' rfl, zmodels, models, Vector.set_set]
      rfl
    · exact (zero i).trans (if_neg (by rw [hi]; decide))
    · exact ((zero i).trans (if_pos hi)).trans (out _ hi')

/-- Without a run none of its rows does anything. -/
theorem runs_idle (hn : ∀ m ∈ s.dev.models[h], m.run = none) :
    Does (.gather t h) s t [] (fun _ => True) ∧ Does (.reloadBlockRead t h) s t [] (fun _ => True) ∧ Does (.runEnd t h) s t [] (fun _ => True) ∧
      Does (.runDeadline t h) s t [] (fun _ => True) := by
  have run : ((here s t).model h).bind (·.run) = none := by
    show (s.dev.models[h]).bind (·.run) = none
    cases hm : s.dev.models[h] with
    | none => rfl
    | some m => exact hn m hm
  refine ⟨does_nothing ?_, does_nothing ?_, does_nothing ?_, does_nothing ?_⟩
  · show Host.Outcome.next ({ s with dev := (match (here s t).model h with | none => here s t | some m => _) } : State) = _
    cases hm : (here s t).model h with
    | none => rfl
    | some m =>
      simp only [hn m hm]
      rfl
  · show Host.Outcome.next ({ s with dev := (match (here s t).model h with | none => here s t | some m => _) } : State) = _
    cases hm : (here s t).model h with
    | none => rfl
    | some m =>
      simp only [hn m hm]
      rfl
  · show Host.Outcome.next ({ s with dev := (match ((here s t).model h).bind (·.run) with | none => here s t | some r => _) } : State) = _
    simp only [run]
  · show Host.Outcome.next ({ s with dev := (here s t).runLate h } : State) = _
    unfold Dev.runLate
    simp only [run]

end
end Sys2Proof.Proofs

namespace Sys2Proof.Proofs
open Machine Laws

/-! ## Reload (R358, R430, R432) -/

theorem qspiRead_readCommand (s : State) (a n : Nat) :
    qspiRead s.dev.pwr.qspiOpcode s.dev.pwr.qspiClock s.dev.pwr.qspiDummy a n = readCommand s a n := by
  have opcode : (if 0x1000000 < a + n then wideOpcode s.dev.pwr.qspiOpcode else s.dev.pwr.qspiOpcode) = (readCommand s a n).opcode := by
    by_cases hw : 0x1000000 < a + n <;> simp [readCommand, wideOpcode, hw]
  have mode : ∀ op : BitVec 8, (if op = 0xEB ∨ op = 0xEC then some (0xFF : Byte) else none) =
      if (op == 0xEB || op == 0xEC) = true then some 0xFF else none :=
    fun op => by simp
  have dummy : ∀ op : BitVec 8, (if s.dev.pwr.qspiDummy = 0xFF then opcodeDummy op else s.dev.pwr.qspiDummy) =
      if s.dev.pwr.qspiDummy ≠ 0xFF then s.dev.pwr.qspiDummy else if (op == 0xEB || op == 0xEC) = true then 4
        else if (op == 0x03 || op == 0x13) = true then 0 else 8 := fun op => by
    have apart : (op = 0x03#8 ∨ op = 0x13#8) → ¬ (op = 0xEB#8 ∨ op = 0xEC#8) := by
      rintro (rfl | rfl) <;> decide
    have swap : (if op = 0x03#8 ∨ op = 0x13#8 then 0 else if op = 0xEB#8 ∨ op = 0xEC#8 then 4 else 8) =
        if op = 0xEB#8 ∨ op = 0xEC#8 then 4 else if op = 0x03#8 ∨ op = 0x13#8 then 0 else 8 := by
      by_cases h : op = 0x03#8 ∨ op = 0x13#8
      · simp only [if_pos h, if_neg (apart h)]
      · simp only [if_neg h]
    by_cases h1 : s.dev.pwr.qspiDummy = 0xFF
    · simpa [opcodeDummy, h1] using swap
    · simp [h1]
  unfold qspiRead
  dsimp only
  rw [opcode, mode, dummy]
  rfl

/-- A tile whose endurance suffices for a block is not refused it (R357, R358). -/
theorem not_worn {d : Dev} {x : Tile} {n : Nat} (hx : x.counter + n * d.w16 ≤ 1622016000) : d.worn x n = false := by
  have budget : enduranceBudget - upkeepReserve = 1622016000 := rfl
  rw [Dev.worn, Tile.remaining, budget, decide_eq_false_iff_not]
  omega

theorem queueOp_tiles (d : Dev) (i : Fin 48) (op : PressOp) :
    (d.queueOp i op).tiles = d.tiles.set i.val { d.tiles[i] with queue := d.tiles[i].queue ++ [op] } :=
  ((pressNeeds_keeps _ _) .tiles (by decide)).trans rfl

/-- The RELOAD of a block. -/
def reloadOp (d : Dev) (h : Handle) (m : Model) (k : Nat) (b : Block) : PressOp :=
  PressOp.of .reload m.basket 0 (some h) (.block h k) ((List.range b.rowCount).map (b.rowFirst + ·)) d.now

theorem queueReload_of {d : Dev} {h : Handle} {m : Model} {e : Nat × Nat} {i : Fin 48} {b : Block} (hi : m.place[e.1]? = some i)
    (hb : m.image.blocks[e.2]? = some b) (hw : d.tiles[i].counter + b.rowCount * d.w16 ≤ 1622016000) :
    d.queueReload h m e = d.queueOp i (reloadOp d h m e.2 b) := by
  unfold Dev.queueReload
  simp only [hi, hb, not_worn hw]
  rfl

section
variable {s : State} {t : Time} {h : Handle} {m : Model} {r : Run} {e : Nat × Nat} {es : List (Nat × Nat)} {bk : Block}

/-- The device with the next block of a pass in the staging. -/
def stagedDev (d : Dev) (m : Model) (b : Block) : Dev :=
  (if m.qspi then d.readFlash (m.imageAddr + m.image.weights + b.dataOffset) (256 * b.rowCount) else d).memWrite
    (m.bufferAddr m.image.stagingBuffer) (d.blockBytes m b)

theorem stagedDev_keeps (d : Dev) (m : Model) (b : Block) : Keeps [.spool, .sram, .qspi] d (stagedDev d m b) := by
  refine Keeps.andThen (memWrite_keeps _ _ _) (by decide) ?_
  split
  · exact Keeps.mono (readFlash_keeps _ _ _) (by decide)
  · exact Keeps.refl _ _

theorem stagedDev_tags (d : Dev) (m : Model) (b : Block) : (stagedDev d m b).spool.tags = d.spool.tags := by
  rw [stagedDev, memWrite_tags]
  split
  · exact congrArg Spool.tags ((readFlash_keeps _ _ _) .spool (by decide))
  · rfl

theorem stagedDev_sram (d : Dev) (m : Model) (b : Block) : (stagedDev d m b).sram =
    d.sram.setBytes (m.bufferAddr m.image.stagingBuffer) (d.blockBytes m b) := by
  rw [stagedDev, Dev.memWrite_sram]
  split
  · rw [show (Dev.readFlash _ _ _).sram = d.sram from (readFlash_keeps _ _ _) .sram (by decide)]
  · rfl

theorem stagedDev_qspi (hq : m.qspi = true) (hn : bk.rowCount ≠ 0) :
    (stagedDev (here s t) m bk).qspi = [readCommand s (m.imageAddr + m.image.weights + bk.dataOffset) (256 * bk.rowCount)] := by
  have read : (stagedDev (here s t) m bk).qspi = ((here s t).readFlash (m.imageAddr + m.image.weights + bk.dataOffset) (256 * bk.rowCount)).qspi := by
    rw [stagedDev, hq]
    exact (memWrite_keeps _ _ _) .qspi (by decide)
  rw [read, Dev.readFlash, if_neg (by omega), ← qspiRead_readCommand]
  rfl

/-- RELOAD_BLOCK_READ with a block to read. -/
theorem reloadBlockRead_exec (hm : s.dev.models[h] = some m) (hr : m.run = some r) (hq : r.reloadQueue = e :: es)
    (hn : (here s t).reloading h { r with reloadQueue := [] } = false) (hb : m.image.blocks[e.2]? = some bk) :
    exec (.reloadBlockRead t h) s = .next { s with dev :=
      (if crc32 ((here s t).blockBytes m bk) != bk.dataCrc then
        ((stagedDev (here s t) m bk).postTo m.basket { event := .reloadBad, subject := h.val, data0 := e.2 }).endRun h .fitImage
      else ((stagedDev (here s t) m bk).onRun h (fun r => { r with reloadQueue := es })).queueReload h m e) } := by
  have model : (here s t).model h = some m := hm
  have run : exec (.reloadBlockRead t h) s = .next { s with dev :=
      (match (here s t).model h with
        | none => here s t
        | some m =>
          match m.run with
          | none => here s t
          | some r =>
            match r.reloadQueue with
            | [] => here s t
            | e :: es =>
              if (here s t).reloading h { r with reloadQueue := [] } then here s t
              else match m.image.blocks[e.2]? with
                | none => here s t
                | some b =>
                  if crc32 ((here s t).blockBytes m b) != b.dataCrc then
                    ((stagedDev (here s t) m b).postTo m.basket { event := .reloadBad, subject := h.val, data0 := e.2 }).endRun h .fitImage
                  else ((stagedDev (here s t) m b).onRun h (fun r => { r with reloadQueue := es })).queueReload h m e) } := rfl
  rw [run]
  simp only [model, hr, hq, hn, hb, Bool.false_eq_true, if_false]

/-- A block whose CRC is right is staged and its RELOAD queued. -/
theorem reloadBlockRead_queues {i : Fin 48} (hm : s.dev.models[h] = some m) (hr : m.run = some r) (hq : r.reloadQueue = e :: es)
    (hn : (here s t).reloading h { r with reloadQueue := [] } = false) (hb : m.image.blocks[e.2]? = some bk ∧ m.place[e.1]? = some i)
    (hcrc : crc32 ((here s t).blockBytes m bk) = bk.dataCrc)
    (ha : m.bufferAddr m.image.stagingBuffer + ((here s t).blockBytes m bk).length ≤ 0x1800000)
    (hw : (s.dev.tiles[i]).counter + bk.rowCount * (here s t).w16 ≤ 1622016000) :
    let bs := (here s t).blockBytes m bk
    let a := m.bufferAddr m.image.stagingBuffer
    let op := PressOp.of .reload m.basket 0 (some h) (.block h e.2) ((List.range bk.rowCount).map (bk.rowFirst + ·)) (instant s t)
    Does (.reloadBlockRead t h) s t [.tiles, .models, .spool, .sram, .store, .qspi] (fun d =>
      (m.qspi = true → bk.rowCount ≠ 0 → d.qspi = [readCommand s (m.imageAddr + m.image.weights + bk.dataOffset) (256 * bk.rowCount)]) ∧
      d.sram.bytes a bs.length = bs ∧ UnchangedOutside s.dev.sram d.sram a bs.length ∧
      d.models = s.dev.models.set h.val (some { m with run := some { r with reloadQueue := es } }) ∧
      d.tiles = s.dev.tiles.set i.val { s.dev.tiles[i] with queue := s.dev.tiles[i].queue ++ [op] }) := by
  intro bs a op
  have run := reloadBlockRead_exec hm hr hq hn hb.1
  rw [if_neg (by simp [hcrc])] at run
  have staged := stagedDev_keeps (here s t) m bk
  have sram : (stagedDev (here s t) m bk).sram = s.dev.sram.setBytes a bs := stagedDev_sram _ _ _
  have own := Sram.bytes_setBytes_same s.dev.sram a bs ha
  have out : UnchangedOutside s.dev.sram (s.dev.sram.setBytes a bs) a bs.length := Sram.unchangedOutside_setBytes _ _ _
  rw [← sram] at own out
  have qspi := fun h1 h2 => stagedDev_qspi (s := s) (t := t) (m := m) (bk := bk) h1 h2
  generalize stagedDev (here s t) m bk = d at run staged own out qspi
  have taken : Keeps [.models] d (d.onRun h (fun r => { r with reloadQueue := es })) := onRun_keeps _ _ _
  have models : (d.onRun h (fun r => { r with reloadQueue := es })).models =
      s.dev.models.set h.val (some { m with run := some { r with reloadQueue := es } }) := by
    have same : d.models = s.dev.models := staged .models (by decide)
    rw [onRun_models (by rw [same, hm]) hr, same]
  have tiles : (d.onRun h (fun r => { r with reloadQueue := es })).tiles = s.dev.tiles :=
    (taken .tiles (by decide)).trans (staged .tiles (by decide))
  have pwr : (d.onRun h (fun r => { r with reloadQueue := es })).pwr = (here s t).pwr := (taken .pwr (by decide)).trans (staged .pwr (by decide))
  have clk : (d.onRun h (fun r => { r with reloadQueue := es })).clk = (here s t).clk := (taken .clk (by decide)).trans (staged .clk (by decide))
  generalize d.onRun h (fun r => { r with reloadQueue := es }) = d' at run taken models tiles pwr clk
  have weight : d'.w16 = (here s t).w16 := by unfold Dev.w16; rw [pwr]
  have worn : d'.tiles[i].counter + bk.rowCount * d'.w16 ≤ 1622016000 := by
    simp only [tiles, weight]
    exact hw
  have queued : reloadOp d' h m e.2 bk = op := by
    have now : d'.now = instant s t := congrArg Clock.now clk
    rw [reloadOp, now]
  rw [queueReload_of hb.2 hb.1 worn, queued] at run
  have frame := queueOp_keeps d' i op
  have sram' : (d'.queueOp i op).sram = d.sram := (frame .sram (by decide)).trans (taken .sram (by decide))
  refine does_of run (Keeps.andThen frame (by decide) (Keeps.andThen taken (by decide) (Keeps.mono staged (by decide))))
    ⟨fun h1 h2 => ?_, ?_, ?_, ?_, ?_⟩
  · rw [show (d'.queueOp i op).qspi = d.qspi from (frame .qspi (by decide)).trans (taken .qspi (by decide))]
    exact qspi h1 h2
  · rw [sram']; exact own
  · rw [sram']; exact out
  · rw [show (d'.queueOp i op).models = d'.models from frame .models (by decide), models]
  · rw [queueOp_tiles]
    simp only [tiles]

/-- A block whose CRC is wrong is staged too and ends the run. -/
theorem reloadBlockRead_bad (hm : s.dev.models[h] = some m) (hr : m.run = some r) (hq : r.reloadQueue = e :: es)
    (hn : (here s t).reloading h { r with reloadQueue := [] } = false) (hb : m.image.blocks[e.2]? = some bk)
    (hcrc : crc32 ((here s t).blockBytes m bk) ≠ bk.dataCrc) (hl : m.learn = none ∧ r.seamFailed = [])
    (ha : 8 ≤ m.firstUnit ∧ m.bufferAddr m.image.stagingBuffer + ((here s t).blockBytes m bk).length ≤ 0x1800000) :
    let bs := (here s t).blockBytes m bk
    let a := m.bufferAddr m.image.stagingBuffer
    let ev : Ev := { event := .runEnd, subject := h.val, data0 := Err.fitImage.code.toNat, data1 := r.frame % 65536 }
    let bad : Ev := { event := .reloadBad, subject := h.val, data0 := e.2 }
    Does (.reloadBlockRead t h) s t [.host, .tiles, .models, .spool, .sram, .qspi] (fun d =>
      d.models = s.dev.models.set h.val (some { m with run := none, leaving := m.leaving ++ (here s t).phasesLeft r, lastResult := Err.fitImage.code,
                                                       update := m.update + 2, runsEarly := m.runsEarly + 1 }) ∧
      d.spool.ofRun h = [] ∧ d.sram.bytes a bs.length = bs ∧ UnchangedOutsideBoth s.dev.sram d.sram a bs.length (0x70000 + 0x400 * h.val) 320 ∧
      d.host = ((((here s t).postTo m.basket bad).postTo m.basket ev).raise (toBasket m.basket) .runEnd).host) := by
  intro bs a ev bad
  have run := reloadBlockRead_exec hm hr hq hn hb
  rw [if_pos (by simpa using hcrc)] at run
  have staged := stagedDev_keeps (here s t) m bk
  have tags : (stagedDev (here s t) m bk).spool.tags = s.dev.spool.tags := stagedDev_tags _ _ _
  have sram : (stagedDev (here s t) m bk).sram = s.dev.sram.setBytes a bs := stagedDev_sram _ _ _
  have own := Sram.bytes_setBytes_same s.dev.sram a bs ha.2
  have out : UnchangedOutside s.dev.sram (s.dev.sram.setBytes a bs) a bs.length := Sram.unchangedOutside_setBytes _ _ _
  rw [← sram] at own out
  generalize stagedDev (here s t) m bk = d at run staged tags own out
  have told : Keeps [.host] d (d.postTo m.basket bad) := postTo_keeps _ _ _
  have host : (d.postTo m.basket bad).host = ((here s t).postTo m.basket bad).host :=
    postTo_host_congr (staged .host (by decide)) (staged .clk (by decide)) _ _
  have clk : (d.postTo m.basket bad).clk = ((here s t).postTo m.basket bad).clk :=
    (told .clk (by decide)).trans ((staged .clk (by decide)).trans ((postTo_keeps _ _ _) .clk (by decide)).symm)
  generalize d.postTo m.basket bad = d' at run told host clk
  have same : d'.models = s.dev.models := (told .models (by decide)).trans (staged .models (by decide))
  have hm' : d'.models[h] = some m := by rw [same, hm]
  have sram' : d'.sram = d.sram := told .sram (by decide)
  have early : (Err.fitImage == .ok) = false := by decide
  rw [endRun_unlearned hm' hr hl.1, endWake_early early] at run
  obtain ⟨models, -, record, ofRun, host', -⟩ := endedDev_early hm' hl.2 early
  refine does_of run (Keeps.andThen endedDev_keeps (by decide) (Keeps.andThen told (by decide) (Keeps.mono staged (by decide))))
    ⟨?_, ofRun, ?_, fun y hy hy' => ?_, ?_⟩
  · rw [models, same, phasesLeft_congr (e := here s t) ((congrArg Spool.tags (told .spool (by decide))).trans tags)]
  · refine (Sram.bytes_congr (fun y hy _ => ?_)).trans own
    have haddr : 0x80000 ≤ a := by
      show 0x80000 ≤ m.firstUnit * 65536 + _
      omega
    have := h.isLt
    rw [← sram']
    exact record y (Or.inr (by omega))
  · rw [record y hy', sram']
    exact out y hy
  · rw [host']
    exact endNotice_host_congr host clk

end
end Sys2Proof.Proofs

namespace Sys2Proof.Proofs
open Machine Laws

/-! ## The reload plan as a pass begins (R430) -/

theorem w16_congr {d e : Dev} (h : d.pwr = e.pwr) : d.w16 = e.w16 := by
  unfold Dev.w16
  rw [h]

/-- The RELOADs that entries of a pass queue on a tile. -/
def reloadsOf (d : Dev) (h : Handle) (m : Model) (i : Fin 48) (es : List (Nat × Nat)) : List PressOp :=
  es.filterMap (fun p => if m.place[p.1]? = some i then (m.image.blocks[p.2]?).map (reloadOp d h m p.2) else none)

theorem reloadsOf_congr {d d' : Dev} (hc : d'.clk = d.clk) (h : Handle) (m : Model) (i : Fin 48) (es : List (Nat × Nat)) :
    reloadsOf d' h m i es = reloadsOf d h m i es := by
  have now : d'.now = d.now := congrArg Clock.now hc
  have op : reloadOp d' h m = reloadOp d h m := by
    funext k b
    rw [reloadOp, reloadOp, now]
  rw [reloadsOf, reloadsOf, op]

section
variable {h : Handle} {m : Model} (hb : m.image.blocks.all (fun b => decide (b.rowCount ≤ 512)) = true)
include hb

/-- One entry with endurance to spare queues its RELOAD on its tile. -/
theorem queueReload_spec (e : Nat × Nat) (d : Dev) (hw : ∀ i : Fin 48, d.tiles[i].counter + 512 * d.w16 ≤ 1622016000) :
    Keeps [.tiles, .store] d (d.queueReload h m e) ∧
      ∀ i : Fin 48, (d.queueReload h m e).tiles[i] = { d.tiles[i] with queue := d.tiles[i].queue ++ reloadsOf d h m i [e] } := by
  cases hi : m.place[e.1]? with
  | none =>
    have idle : d.queueReload h m e = d := by
      unfold Dev.queueReload
      simp only [hi]
    rw [idle]
    exact ⟨Keeps.refl _ _, fun i => by simp [reloadsOf, hi]⟩
  | some j =>
    cases hk : m.image.blocks[e.2]? with
    | none =>
      have idle : d.queueReload h m e = d := by
        unfold Dev.queueReload
        simp only [hi, hk]
      rw [idle]
      exact ⟨Keeps.refl _ _, fun i => by simp [reloadsOf, hk]⟩
    | some b =>
      have rows : b.rowCount ≤ 512 := by
        simpa using List.all_eq_true.mp hb b (List.mem_of_getElem? hk)
      have endures : d.tiles[j].counter + b.rowCount * d.w16 ≤ 1622016000 :=
        (Nat.add_le_add_left (Nat.mul_le_mul_right _ rows) _).trans (hw j)
      rw [queueReload_of hi hk endures]
      refine ⟨queueOp_keeps _ _ _, fun i => ?_⟩
      simp only [queueOp_tiles]
      by_cases hij : j = i
      · subst hij
        simp [reloadsOf, hi, hk]
      · have hv : j.val ≠ i.val := fun h => hij (Fin.ext h)
        simp [reloadsOf, hi, hij, hv, Vector.getElem_set_ne]

theorem queueReloads_spec (es : List (Nat × Nat)) (d : Dev) (hw : ∀ i : Fin 48, d.tiles[i].counter + 512 * d.w16 ≤ 1622016000) :
    Keeps [.tiles, .store] d (d.queueReloads h m es) ∧
      ∀ i : Fin 48, (d.queueReloads h m es).tiles[i] = { d.tiles[i] with queue := d.tiles[i].queue ++ reloadsOf d h m i es } := by
  induction es generalizing d with
  | nil => exact ⟨Keeps.refl _ _, fun i => by simp [Dev.queueReloads, reloadsOf]⟩
  | cons e es ih =>
    obtain ⟨frame, tiles⟩ := queueReload_spec hb e d hw
    have weight : (d.queueReload h m e).w16 = d.w16 := w16_congr (frame .pwr (by decide))
    obtain ⟨frame', tiles'⟩ := ih (d.queueReload h m e) (fun i => by rw [tiles, weight]; exact hw i)
    refine ⟨Keeps.andThen frame' (by decide) frame, fun i => ?_⟩
    have split : reloadsOf d h m i (e :: es) = reloadsOf d h m i [e] ++ reloadsOf d h m i es := by
      rw [reloadsOf, reloadsOf, reloadsOf, ← List.filterMap_append]
      rfl
    rw [Dev.queueReloads, tiles', tiles, reloadsOf_congr (frame .clk (by decide)), split, List.append_assoc]

/-- The first pass of a reload plan begins. -/
theorem beginPass_spec {r : Reload} (hr : m.image.reload = some r) {d : Dev} {mm : Model} {run : Run} (hm : d.models[h] = some mm)
    (hrun : mm.run = some run) (hq : run.reloadQueue = []) (hw : ∀ i : Fin 48, d.tiles[i].counter + 512 * d.w16 ≤ 1622016000) :
    let es := (r.passes[0]?).getD []
    let d' := d.beginPass h m 0
    Keeps [.tiles, .models, .store] d d' ∧
      d'.models = d.models.set h.val (some { mm with run := some { run with passDone := 1, reloadQueue := if r.qspi then es else [] } }) ∧
      ∀ i : Fin 48, d'.tiles[i] = { d.tiles[i] with queue := d.tiles[i].queue ++ reloadsOf d h m i (if r.qspi then [] else es) } := by
  intro es d'
  have begun : d' = if r.qspi then (d.onRun h (fun r => { r with passDone := 1 })).onRun h (fun r => { r with reloadQueue := es })
      else (d.onRun h (fun r => { r with passDone := 1 })).queueReloads h m es := by
    show d.beginPass h m 0 = _
    unfold Dev.beginPass
    simp only [hr]
    rfl
  have taken : Keeps [.models] d (d.onRun h (fun r => { r with passDone := 1 })) := onRun_keeps _ _ _
  have models := onRun_models hm hrun (fun r => { r with passDone := 1 })
  have tiles : (d.onRun h (fun r => { r with passDone := 1 })).tiles = d.tiles := taken .tiles (by decide)
  rw [begun]
  generalize d.onRun h (fun r => { r with passDone := 1 }) = f at taken models tiles
  cases r.qspi with
  | true =>
    have after : Keeps [.models] f (f.onRun h (fun r => { r with reloadQueue := es })) := onRun_keeps _ _ _
    refine ⟨Keeps.andThen after (by decide) (Keeps.mono taken (by decide)), ?_, fun i => ?_⟩
    · rw [if_pos rfl, onRun_models (models_set_same models) rfl, models, Vector.set_set]
      rfl
    · have same : (f.onRun h (fun r => { r with reloadQueue := es })).tiles = d.tiles := (after .tiles (by decide)).trans tiles
      simp only [if_true, same, reloadsOf, List.filterMap_nil, List.append_nil]
  | false =>
    have weight : f.w16 = d.w16 := w16_congr (taken .pwr (by decide))
    obtain ⟨frame, queued⟩ := queueReloads_spec hb es f (fun i => by simp only [tiles, weight]; exact hw i)
    refine ⟨Keeps.andThen frame (by decide) (Keeps.mono taken (by decide)), ?_, fun i => ?_⟩
    · rw [if_neg (by decide), show (f.queueReloads h m es).models = f.models from frame .models (by decide), models, ← hq]
      rfl
    · rw [if_neg (by decide), queued, reloadsOf_congr (taken .clk (by decide))]
      simp only [tiles]
      rfl

end

/-! ## The policy of the first layer (R333 to R335) -/

/-- What the busy policy decides at the start of a run; a VECTOR layer has none. -/
def firstPolicy (m : Model) (state : Fin 48 → TileState) : Busy :=
  if (m.image.layers[0]?).any (fun l => !l.vector) = true then m.policy 0 state else Busy.go []

/-- The replicas that a policy lets take part. -/
def Busy.usable : Busy → List Nat
  | .go us => us
  | _ => []

section
variable {d : Dev} {h : Handle} {m mm : Model} {r : Run} {state : Fin 48 → TileState}

theorem applyPolicy_stops (hp : firstPolicy m state = .stop) : d.applyPolicy h m 0 state = d.endRun h .tileBusy := by
  unfold firstPolicy at hp
  unfold Dev.applyPolicy
  cases hl : m.image.layers[0]? with
  | none => simp [hl] at hp
  | some l =>
    cases hv : l.vector with
    | true => simp [hl, hv] at hp
    | false =>
      have hp : m.policy 0 state = .stop := by simpa [hl, hv] using hp
      simp only [hv, hp]
      rfl

/-- A policy that does not stop the run says which replicas take part, or that it waits. -/
theorem applyPolicy_goes (hm : d.models[h] = some mm) (hr : mm.run = some r) (hfresh : r.waitFor = false ∧ r.usable = [])
    (hp : firstPolicy m state ≠ .stop) : Keeps [.models] d (d.applyPolicy h m 0 state) ∧
      (d.applyPolicy h m 0 state).models = d.models.set h.val
        (some { mm with run := some { r with usable := Busy.usable (firstPolicy m state), waitFor := decide (firstPolicy m state = .wait) } }) := by
  have stays : firstPolicy m state = .go [] → d.models = d.models.set h.val
      (some { mm with run := some { r with usable := Busy.usable (firstPolicy m state), waitFor := decide (firstPolicy m state = .wait) } }) := fun hgo => by
    have same : ({ r with usable := Busy.usable (firstPolicy m state), waitFor := decide (firstPolicy m state = .wait) } : Run) = r := by
      rw [hgo, show decide (Busy.go [] = .wait) = r.waitFor from hfresh.1.symm, show Busy.usable (.go []) = r.usable from hfresh.2.symm]
    rw [same, ← hr]
    show d.models = d.models.set h.val (some mm)
    rw [← hm]
    exact (Vector.set_getElem_self _).symm
  cases hl : m.image.layers[0]? with
  | none =>
    have idle : d.applyPolicy h m 0 state = d := by
      unfold Dev.applyPolicy
      simp only [hl]
    rw [idle]
    exact ⟨Keeps.refl _ _, stays (by simp [firstPolicy, hl])⟩
  | some l =>
    cases hv : l.vector with
    | true =>
      have idle : d.applyPolicy h m 0 state = d := by
        unfold Dev.applyPolicy
        simp only [hl, hv, if_true]
      rw [idle]
      exact ⟨Keeps.refl _ _, stays (by simp [firstPolicy, hl, hv])⟩
    | false =>
      have first : firstPolicy m state = m.policy 0 state := by simp [firstPolicy, hl, hv]
      rw [first] at hp ⊢
      cases hpol : m.policy 0 state with
      | stop => exact absurd hpol hp
      | wait =>
        have run : d.applyPolicy h m 0 state = d.onRun h (fun r => { r with waitFor := true }) := by
          unfold Dev.applyPolicy
          simp only [hl, hv, hpol, Bool.false_eq_true, if_false]
        rw [run]
        refine ⟨onRun_keeps _ _ _, (onRun_models hm hr _).trans ?_⟩
        rw [show Busy.usable .wait = r.usable from hfresh.2.symm]
        rfl
      | go us =>
        have run : d.applyPolicy h m 0 state = d.onRun h (fun r =>
            { r with usable := us, waitFor := false,
                     states := if r.waitFor then r.states ++ (m.layerTiles 0).map (fun i => (i, state i)) else r.states }) := by
          unfold Dev.applyPolicy
          simp only [hl, hv, hpol, Bool.false_eq_true, if_false]
        rw [run]
        refine ⟨onRun_keeps _ _ _, (onRun_models hm hr _).trans ?_⟩
        simp [hfresh.1, Busy.usable]

end
end Sys2Proof.Proofs

namespace Sys2Proof.Proofs
open Machine Laws

/-! ## RUN_START (R438, R480, R483) -/

/-- The learning section at the start of a run (R537). -/
def startLearn (m : Model) (tr : Nat) : Option Learn := m.learn.map (fun l => match m.image.learn with | some s => l.atStart s tr | none => l)

theorem startLearn_eq (m : Model) (tr : Nat) :
    startLearn m tr = m.learn.map (fun l => (m.image.learn.map (fun sp => l.atStart sp tr)).getD l) := by
  unfold startLearn
  cases m.image.learn <;> rfl

/-- The model at the start of a run. -/
def startModel (m : Model) (tr : Nat) : Model := { m with learn := startLearn m tr }

/-- The run of a frame as it starts. -/
def newRun (d : Dev) (h : Handle) (m : Model) (e : EndedFrame) : Run :=
  Run.new e.num e.stopStamp.toNat d.stamp (d.deadlineOf m e.stop) (m.place.map (fun i => (i, d.foundState i)))
    ((startLearn m e.stopStamp.toNat).bind (d.pendingLabel h))

theorem newRun_eq (d : Dev) (h : Handle) (m : Model) (e : EndedFrame) : newRun d h m e =
    Run.new e.num e.stopStamp.toNat d.stamp (d.deadlineOf m e.stop) (m.place.map (fun i => (i, d.foundState i)))
      ((m.learn.map (fun l => (m.image.learn.map (fun sp => l.atStart sp e.stopStamp.toNat)).getD l)).bind (d.pendingLabel h)) := by
  rw [newRun, startLearn_eq]

/-- A learning state that changes is recorded (R559). -/
def startNoted (d : Dev) (m : Model) (tr : Nat) : Dev :=
  if m.learn.map (·.state) == (startLearn m tr).map (·.state) then d else d.trigger

/-- The run is in flight with its GATHER tags. -/
def startTagged (d : Dev) (h : Handle) (m : Model) (e : EndedFrame) : Dev :=
  (((startNoted d m e.stopStamp.toNat).onModel h
    (fun _ => { startModel m e.stopStamp.toNat with run := some (newRun d h m e), lastRun := e.num })).gatherTags h
      (startModel m e.stopStamp.toNat) (newRun d h m e) (List.range m.image.bindings.length)).notePeak h

/-- The first pass of its reload plan has begun. -/
def startPassed (d : Dev) (h : Handle) (m : Model) (e : EndedFrame) : Dev :=
  if m.image.reload.isSome then (startTagged d h m e).beginPass h (startModel m e.stopStamp.toNat) 0 else startTagged d h m e

/-- A run starts in these stages. -/
theorem startRun_stages (d : Dev) (h : Handle) (m : Model) (e : EndedFrame) :
    d.startRun h m e = (startPassed d h m e).applyPolicy h (startModel m e.stopStamp.toNat) 0 (startPassed d h m e).foundState := rfl

theorem startNoted_keeps (d : Dev) (m : Model) (tr : Nat) : Keeps [.store] d (startNoted d m tr) := by
  unfold startNoted
  split
  · exact Keeps.refl _ _
  · exact trigger_keeps _

/-- Without a learning section nothing is to be recorded. -/
theorem startNoted_unlearned {m : Model} (hl : m.learn = none) (d : Dev) (tr : Nat) : startNoted d m tr = d := by
  simp [startNoted, startLearn, hl]

theorem startTagged_keeps (d : Dev) (h : Handle) (m : Model) (e : EndedFrame) :
    Keeps [.models, .spool] (startNoted d m e.stopStamp.toNat) (startTagged d h m e) :=
  Keeps.andThen (notePeak_keeps _ _) (by decide) (Keeps.andThen (gatherTags_keeps _ _ _ _ _) (by decide)
    (Keeps.mono (onModel_keeps _ _ _) (by decide)))

theorem notePeak_models {d : Dev} {h : Handle} {m : Model} {r : Run} (hm : d.models[h] = some m) (hr : m.run = some r) (h0 : r.tagsPeak = 0) :
    (d.notePeak h).models = d.models.set h.val (some { m with run := some { r with tagsPeak := (d.spool.ofRun h).length } }) := by
  rw [Dev.notePeak, onRun_models hm hr, h0, Nat.zero_max]

/-- The tags and the model of a run that has started. -/
theorem startTagged_spec {d : Dev} {h : Handle} {m : Model} (e : EndedFrame) (hm : d.models[h] = some m)
    (hroom : d.spool.tags.length + m.image.bindings.length ≤ 4096) :
    ∃ ts : List Tag, (startTagged d h m e).spool.tags = d.spool.tags ++ ts ∧ ts.length = m.image.bindings.length ∧
      ts.zipIdx.all (isGather h m (newRun d h m e).deadline) = true ∧
      (startTagged d h m e).spool.device.allocated = d.spool.device.allocated + BitVec.ofNat 64 m.image.bindings.length ∧
      (startTagged d h m e).models = d.models.set h.val (some { startModel m e.stopStamp.toNat with
        lastRun := e.num,
        run := some { newRun d h m e with tagsPeak := ((startTagged d h m e).spool.ofRun h).length } }) := by
  let f : Dev := (startNoted d m e.stopStamp.toNat).onModel h
    (fun _ => { startModel m e.stopStamp.toNat with run := some (newRun d h m e), lastRun := e.num })
  let g : Dev := f.gatherTags h (startModel m e.stopStamp.toNat) (newRun d h m e) (List.range m.image.bindings.length)
  have noted := startNoted_keeps d m e.stopStamp.toNat
  have same : (startNoted d m e.stopStamp.toNat).models = d.models := noted .models (by decide)
  have fmodels : f.models = d.models.set h.val (some { startModel m e.stopStamp.toNat with run := some (newRun d h m e), lastRun := e.num }) := by
    rw [show f.models = _ from onModel_models (by rw [same, hm]) _, same]
  have fspool : f.spool = d.spool := noted .spool (by decide)
  have gmodels : g.models = f.models := (gatherTags_keeps _ _ _ _ _) .models (by decide)
  have tagged : startTagged d h m e = g.notePeak h := rfl
  have peak : (startTagged d h m e).spool = g.spool := (notePeak_keeps _ _) .spool (by decide)
  obtain ⟨ts, htags, hlen, hall, halloc⟩ := gatherTags_spool h (startModel m e.stopStamp.toNat) (newRun d h m e) m.image.bindings.length 0 f
    (by rw [fspool]; exact hroom)
  rw [← List.range_eq_range', fspool] at htags halloc
  refine ⟨ts, ?_, hlen, hall, ?_, ?_⟩
  · rw [peak]
    exact htags
  · rw [peak]
    exact halloc
  · rw [peak, tagged, notePeak_models (models_set_same (gmodels.trans fmodels)) rfl rfl, gmodels, fmodels, Vector.set_set]

section
variable {s : State} {t : Time} {h : Handle} {m : Model} {e : EndedFrame}

/-- RUN_START by its cases. -/
theorem runStart_cases : exec (.runStart t h) s = .next { s with dev :=
    (match (here s t).model h, (here s t).wr.ended with
      | some m, some e => if (here s t).mayStart m e then (here s t).startRun h m e else here s t
      | _, _ => here s t) } := rfl

/-- RUN_START of a loaded model, with an ended frame. -/
theorem runStart_exec (hm : s.dev.models[h] = some m) (he : s.dev.wr.ended = some e) :
    exec (.runStart t h) s = .next { s with dev := (if (here s t).mayStart m e then (here s t).startRun h m e else here s t) } := by
  have model : (here s t).model h = some m := hm
  have ended : (here s t).wr.ended = some e := he
  rw [runStart_cases]
  simp only [model, ended]

theorem runStart_starts (hm : s.dev.models[h] = some m) (he : s.dev.wr.ended = some e)
    (hdue : m.state = .loaded ∧ m.run = none ∧ m.dueFor e.num = true ∧ m.lastRun ≠ e.num) (hstop : e.stop = instant s t ∧ e.blanked = false)
    (hp : s.dev.pwr.state = .active) : exec (.runStart t h) s = .next { s with dev := (here s t).startRun h m e } := by
  obtain ⟨hload, hrun, hfor, hlast⟩ := hdue
  have now : (here s t).now = e.stop := hstop.1.symm
  have power : (here s t).pwr.state = .active := hp
  have may : (here s t).mayStart m e = true := by
    simp [Dev.mayStart, hload, hrun, hfor, hlast, now, hstop.2, power]
  rw [runStart_exec hm he, if_pos may]

/-- The tiles of a pass as a run finds them: only their queues have grown. -/
theorem foundState_congr {d d' : Dev} (h : ∀ i : Fin 48, d'.tiles[i].precedence = d.tiles[i].precedence ∧ d'.tiles[i].state = d.tiles[i].state) :
    d'.foundState = d.foundState := by
  funext i
  rw [Dev.foundState, Dev.foundState, (h i).1, (h i).2]

/-- The device of a run whose first pass has begun. -/
theorem startPassed_spec {d : Dev} (e : EndedFrame) (hm : d.models[h] = some m)
    (hroom : d.spool.tags.length + m.image.bindings.length ≤ 4096)
    (hw : ∀ i : Fin 48, d.tiles[i].counter + 512 * d.w16 ≤ 1622016000)
    (hb : m.image.blocks.all (fun b => decide (b.rowCount ≤ 512)) = true) :
    let es := (m.image.reload.map (fun r => (r.passes[0]?).getD [])).getD []
    let qspi := m.image.reload.any (·.qspi)
    Keeps [.tiles, .models, .spool, .store] d (startPassed d h m e) ∧ (startPassed d h m e).spool = (startTagged d h m e).spool ∧
      (startPassed d h m e).models = d.models.set h.val (some { startModel m e.stopStamp.toNat with
        lastRun := e.num,
        run := some { newRun d h m e with tagsPeak := ((startTagged d h m e).spool.ofRun h).length, passDone := m.image.reload.isSome.toNat,
                                          reloadQueue := if qspi = true then es else [] } }) ∧
      ∀ i : Fin 48, (startPassed d h m e).tiles[i] =
        { d.tiles[i] with queue := d.tiles[i].queue ++ reloadsOf d h m i (if qspi = true then [] else es) } := by
  intro es qspi
  obtain ⟨-, -, -, -, -, models⟩ := startTagged_spec e hm hroom
  have frame : Keeps [.models, .spool, .store] d (startTagged d h m e) :=
    Keeps.andThen (startTagged_keeps d h m e) (by decide) (Keeps.mono (startNoted_keeps _ _ _) (by decide))
  have tiles : (startTagged d h m e).tiles = d.tiles := frame .tiles (by decide)
  have weight : (startTagged d h m e).w16 = d.w16 := w16_congr (frame .pwr (by decide))
  have clk : (startTagged d h m e).clk = d.clk := frame .clk (by decide)
  cases hr : m.image.reload with
  | none =>
    have idle : startPassed d h m e = startTagged d h m e := by
      rw [startPassed, hr]
      rfl
    have hes : es = [] := by simp only [es, hr, Option.map_none, Option.getD_none]
    rw [idle, hes, ite_self]
    refine ⟨Keeps.mono frame (by decide), rfl, ?_, fun i => ?_⟩
    · rw [models]
      rfl
    · simp [tiles, reloadsOf]
  | some r =>
    have begun : startPassed d h m e = (startTagged d h m e).beginPass h (startModel m e.stopStamp.toNat) 0 := by
      rw [startPassed, hr]
      rfl
    have hes : es = (r.passes[0]?).getD [] := by simp only [es, hr, Option.map_some, Option.getD_some]
    have hqspi : qspi = r.qspi := by simp only [qspi, hr, Option.any_some]
    obtain ⟨frame', models', tiles'⟩ := beginPass_spec (m := startModel m e.stopStamp.toNat) hb hr (models_set_same models) rfl rfl
      (fun i => by simp only [tiles, weight]; exact hw i)
    rw [← begun, ← hes, ← hqspi] at models' tiles'
    rw [← begun] at frame'
    refine ⟨Keeps.andThen frame' (by decide) (Keeps.mono frame (by decide)), frame' .spool (by decide), ?_, fun i => ?_⟩
    · rw [models', models, Vector.set_set]
      rfl
    · rw [tiles', reloadsOf_congr clk]
      simp only [tiles]
      rfl

end
end Sys2Proof.Proofs

namespace Sys2Proof.Proofs
open Machine Laws

/-! ## The start of a run by what its policy decides -/

section
variable {s : State} {t : Time} {h : Handle} {m : Model} {e : EndedFrame}

/-- The run goes on, or waits for its tiles. -/
theorem runStart_goes (hm : s.dev.models[h] = some m) (he : s.dev.wr.ended = some e)
    (hdue : m.state = .loaded ∧ m.run = none ∧ m.dueFor e.num = true ∧ m.lastRun ≠ e.num) (hstop : e.stop = instant s t ∧ e.blanked = false)
    (hp : s.dev.pwr.state = .active) (hroom : s.dev.spool.tags.length + m.image.bindings.length ≤ 4096)
    (hpol : firstPolicy m (here s t).foundState ≠ .stop) (hw : ∀ i : Fin 48, (s.dev.tiles[i]).counter + 512 * (here s t).w16 ≤ 1622016000)
    (hb : m.image.blocks.all (fun b => decide (b.rowCount ≤ 512)) = true) :
    let pol := firstPolicy m (here s t).foundState
    let learn := startLearn m e.stopStamp.toNat
    let new := newRun (here s t) h m e
    let pass := (m.image.reload.map (fun r => (r.passes[0]?).getD [])).getD []
    let qspi := m.image.reload.any (·.qspi)
    let l := s.dev.spool.tags.length
    let goes := fun (r : Run) => { r with usable := Busy.usable pol, waitFor := decide (pol = Busy.wait) }
    let withPass := fun (r : Run) => { r with passDone := m.image.reload.isSome.toNat, reloadQueue := if qspi = true then pass else [] }
    Does (.runStart t h) s t [.tiles, .models, .spool, .store] (fun d =>
      d.models = s.dev.models.set h.val
        (some { m with learn := learn, lastRun := e.num, run := some { goes (withPass new) with tagsPeak := (d.spool.ofRun h).length } }) ∧
      d.spool.tags.take l = s.dev.spool.tags ∧ d.spool.tags.length = l + m.image.bindings.length ∧
      (d.spool.tags.drop l).zipIdx.all (isGather h m new.deadline) = true ∧
      d.spool.device.allocated = s.dev.spool.device.allocated + BitVec.ofNat 64 m.image.bindings.length ∧
      ∀ i : Fin 48, let x := s.dev.tiles[i]
        d.tiles[i] = { x with queue := x.queue ++ reloadsOf (here s t) h m i (if qspi = true then [] else pass) }) := by
  intro pol learn new pass qspi l goes withPass
  have hm' : (here s t).models[h] = some m := hm
  have run := runStart_starts hm he hdue hstop hp
  obtain ⟨ts, htags, hlen, hall, halloc, -⟩ := startTagged_spec e hm' hroom
  obtain ⟨frame, spool, models, tiles⟩ := startPassed_spec e hm' hroom hw hb
  have tiles : ∀ i : Fin 48, (startPassed (here s t) h m e).tiles[i] =
      { s.dev.tiles[i] with queue := s.dev.tiles[i].queue ++ reloadsOf (here s t) h m i (if qspi = true then [] else pass) } := tiles
  rw [startRun_stages] at run
  have found : (startPassed (here s t) h m e).foundState = (here s t).foundState :=
    foundState_congr (fun i => by rw [tiles]; exact ⟨rfl, rfl⟩)
  rw [found] at run
  rw [← spool] at htags halloc models
  generalize startPassed (here s t) h m e = d at run frame models tiles htags halloc
  obtain ⟨frame', models'⟩ := applyPolicy_goes (m := startModel m e.stopStamp.toNat) (state := (here s t).foundState)
    (models_set_same models) rfl ⟨rfl, rfl⟩ hpol
  generalize d.applyPolicy h (startModel m e.stopStamp.toNat) 0 (here s t).foundState = d' at run frame' models'
  have spool' : d'.spool = d.spool := frame' .spool (by decide)
  have tags : d'.spool.tags = s.dev.spool.tags ++ ts := by rw [spool']; exact htags
  refine does_of run (Keeps.andThen frame' (by decide) frame) ⟨?_, ?_, ?_, ?_, ?_, fun i => ?_⟩
  · rw [models', models, Vector.set_set, spool']
    rfl
  · rw [tags]
    exact List.take_left
  · rw [tags, List.length_append, hlen]
  · rw [tags, List.drop_left]
    exact hall
  · rw [spool']
    exact halloc
  · simp only [show d'.tiles = d.tiles from frame' .tiles (by decide)]
    exact tiles i

theorem startModel_unlearned (hl : m.learn = none) (tr : Nat) : startModel m tr = m := by
  have unlearned : startLearn m tr = m.learn := by rw [startLearn, hl]; rfl
  rw [startModel, unlearned]

/-- A run that ends at its start has counted nothing. -/
theorem stopped_tile {m' : Model} {r : Run} (hc : r.counts = []) (i : Fin 48) (x : Tile) :
    let left := x.queue.filter (fun o => !(o.kind == .reload && o.handle == some h))
    let clear := if m'.place.contains i = true then { x with clipsRun := 0, uncheckedRun := 0 } else x
    dropTile h (ranTile m' r i x) = { clear with queue := left } := by
  intro left clear
  unfold ranTile
  rw [hc]
  by_cases hi : m'.place.contains i = true
  · simp only [clear, if_pos hi]
    rfl
  · simp only [clear, if_neg hi]
    rfl

/-- A run that ends at its start, with nothing done and nothing planned. -/
theorem endRun_fresh {d : Dev} {r : Run} {k : Nat} (hm : d.models[h] = some { m with lastRun := k, run := some r }) (hl : m.learn = none)
    (hr : m.run = none) (hfresh : r.seamFailed = [] ∧ r.counts = [] ∧ r.planned = []) :
    Keeps [.host, .tiles, .models, .spool, .sram] d (d.endRun h .tileBusy) ∧
      (d.endRun h .tileBusy).models = d.models.set h.val
        (some { m with lastRun := k, lastResult := Err.tileBusy.code, update := m.update + 2, runsEarly := m.runsEarly + 1 }) ∧
      (d.endRun h .tileBusy).spool.ofRun h = [] ∧ UnchangedOutside d.sram (d.endRun h .tileBusy).sram (0x70000 + 0x400 * h.val) 320 ∧
      (d.endRun h .tileBusy).host = (endNotice d h m r .tileBusy).host ∧
      ∀ i : Fin 48, (d.endRun h .tileBusy).tiles[i] = dropTile h (ranTile m r i d.tiles[i]) := by
  have early : (Err.tileBusy == .ok) = false := by decide
  have left : d.phasesLeft r = [] := by rw [Dev.phasesLeft, hfresh.2.2]; rfl
  obtain ⟨models, -, out, ofRun, host, tiles⟩ := endedDev_early hm hfresh.1 early
  rw [endRun_unlearned hm rfl hl, endWake_early early]
  refine ⟨endedDev_keeps, ?_, ofRun, out, host, tiles⟩
  rw [models, left]
  simp only [List.append_nil, hr]

/-- The policy stops the run at once (R333). -/
theorem runStart_stops (hm : s.dev.models[h] = some m) (he : s.dev.wr.ended = some e)
    (hdue : m.state = .loaded ∧ m.run = none ∧ m.dueFor e.num = true ∧ m.lastRun ≠ e.num) (hstop : e.stop = instant s t ∧ e.blanked = false)
    (hp : s.dev.pwr.state = .active) (hroom : s.dev.spool.tags.length + m.image.bindings.length ≤ 4096)
    (hn : m.image.reload = none ∧ m.learn = none) (hpol : firstPolicy m (here s t).foundState = .stop) :
    let ev : Ev := { event := .runEnd, subject := h.val, data0 := Err.tileBusy.code.toNat, data1 := e.num % 65536 }
    Does (.runStart t h) s t [.host, .tiles, .models, .spool, .sram] (fun d =>
      d.models = s.dev.models.set h.val (some { m with lastRun := e.num, lastResult := Err.tileBusy.code, update := m.update + 2,
                                                       runsEarly := m.runsEarly + 1 }) ∧
      d.spool.ofRun h = [] ∧ UnchangedOutside s.dev.sram d.sram (0x70000 + 0x400 * h.val) 320 ∧
      (∀ i : Fin 48, let x := s.dev.tiles[i]
        let left := x.queue.filter (fun o => !(o.kind == .reload && o.handle == some h))
        let clear := if m.place.contains i = true then { x with clipsRun := 0, uncheckedRun := 0 } else x
        d.tiles[i] = { clear with queue := left }) ∧
      d.host = (((here s t).postTo m.basket ev).raise (toBasket m.basket) .runEnd).host) := by
  intro ev
  have hm' : (here s t).models[h] = some m := hm
  have run := runStart_starts hm he hdue hstop hp
  obtain ⟨-, -, -, -, -, models⟩ := startTagged_spec e hm' hroom
  have frame := startTagged_keeps (here s t) h m e
  rw [startNoted_unlearned hn.2] at frame
  have passed : startPassed (here s t) h m e = startTagged (here s t) h m e := by
    rw [startPassed, hn.1]
    rfl
  rw [startRun_stages, passed, startModel_unlearned hn.2] at run
  rw [startModel_unlearned hn.2] at models
  generalize startTagged (here s t) h m e = d at run models frame
  have fresh : ∃ r : Run, r.frame = e.num ∧ (r.seamFailed = [] ∧ r.counts = [] ∧ r.planned = []) ∧
      d.models = s.dev.models.set h.val (some { m with lastRun := e.num, run := some r }) := ⟨_, rfl, ⟨rfl, rfl, rfl⟩, models⟩
  obtain ⟨r, hframe, hfresh, models⟩ := fresh
  have tiles : d.tiles = s.dev.tiles := frame .tiles (by decide)
  have found : d.foundState = (here s t).foundState := foundState_congr (fun i => by simp only [tiles]; exact ⟨rfl, rfl⟩)
  rw [found, applyPolicy_stops hpol] at run
  obtain ⟨frame', models', ofRun, out, host, tiles'⟩ := endRun_fresh (models_set_same models) hn.2 hdue.2.1 hfresh
  refine does_of run (Keeps.andThen frame' (by decide) (Keeps.mono frame (by decide))) ⟨?_, ofRun, ?_, fun i => ?_, ?_⟩
  · rw [models', models, Vector.set_set]
  · rw [show s.dev.sram = d.sram from (frame .sram (by decide)).symm]
    exact out
  · simp only [tiles', tiles]
    exact stopped_tile hfresh.2.1 i _
  · rw [host, endNotice_host_congr (frame .host (by decide)) (frame .clk (by decide)), endNotice, endEvent, hframe]

theorem runStart_nothing (hn : s.dev.wr.ended = none ∨ s.dev.models[h] = none ∨ s.dev.pwr.state = .hold) :
    Does (.runStart t h) s t [] (fun _ => True) := by
  refine does_nothing ?_
  cases hm : s.dev.models[h] with
  | none =>
    have model : (here s t).model h = none := hm
    rw [runStart_cases]
    simp only [model]
  | some m =>
    cases he : s.dev.wr.ended with
    | none =>
      have model : (here s t).model h = some m := hm
      have ended : (here s t).wr.ended = none := he
      rw [runStart_cases]
      simp only [model, ended]
    | some e =>
      have hold : (here s t).pwr.state = .hold := by
        obtain h0 | h0 | h0 := hn
        · rw [he] at h0; cases h0
        · rw [hm] at h0; cases h0
        · exact h0
      have may : (here s t).mayStart m e = false := by simp [Dev.mayStart, hold]
      rw [runStart_exec hm he, may, if_neg (by decide)]

end
end Sys2Proof.Proofs

namespace Sys2Proof.Proofs
open Machine Laws

/-- Settles O51: each row by the stages it runs through — the start by its tags, its pass and its policy, the end by its tiles, its model, its
record, its tags and its event. -/
theorem runs : Obligations.Runs := by
  unfold Obligations.Runs
  refine ⟨?_, ?_, ?_, ?_, ?_, ?_, ?_, ?_, ?_, ?_, ?_, ?_, ?_, ?_⟩
  · intro s t h m e pol hm he hdue hstop hp hroom hpol hw hb
    have goes := runStart_goes hm he hdue hstop hp hroom hpol hw hb
    rw [startLearn_eq, newRun_eq] at goes
    exact goes
  · intro s t h m e pol hm he hdue hstop hp hroom hn hpol
    exact runStart_stops hm he hdue hstop hp hroom hn hpol
  · intro s t h hn
    exact runStart_nothing hn
  · intro s t h m r x bd g a hm hr ho _ hb hg ha hv hgathered
    exact gather_one hm hr ho hb hg ha hv hgathered
  · intro s t m k i bd hb
    exact gatherBinding_feature (here s t) m k i hb
  · intro s t h hn
    exact runs_idle hn
  · intro s t h m r e es bk i bs hm hr hq hn hb hcrc ha hw
    exact reloadBlockRead_queues hm hr hq hn hb hcrc ha hw
  · intro s t h m r e es bk bs a hm hr hq hn hb hcrc hl ha
    exact reloadBlockRead_bad hm hr hq hn hb hcrc hl ha
  · intro s t h m r hm hr hf ht hlate hp
    exact runEnd_completes hm hr hf ht hlate hp
  · intro s t h m r v hm hr hf ht hlate hp hv
    exact runEnd_wakes hm hr hf ht hlate hp hv
  · intro s t h m r hm hr hf hlate
    exact runDeadline_ends hm hr hf hlate
  · intro s t h m r hm hr hf ht hlate
    exact runEnd_late hm hr hf ht hlate
  · intro s t h m r hm hr hg
    exact run_goes_on hm hr hg
  · intro s t h m r i n x hm hr hf ht hlate hp hx
    exact runEnd_suspect hm hr hf ht hlate hp hx

end Sys2Proof.Proofs

namespace Sys2Proof.Proofs
open Machine Laws

/-! ## Commands that start, in WATCH too -/

section
variable {i : Instr} {c : Command} {s : State} {t : Time} {b : Basket}

@[simp] theorem judged_fe : (judged c s t b).fe = s.dev.fe := rfl

@[simp] theorem judged_now : (judged c s t b).now = instant s t := rfl

/-- A resource that the basket holds passes the check of its name. -/
theorem operands_channel_held {n : Nat} (hh : Held s b .channels n) : (operands s t b).channel (judged c s t b) n = true := hh

/-- The checks of R815 for a command that WATCH accepts (R874). -/
theorem judge_watch (hw : watchAccepts c.code = true) (h0 : c.sup = true → b = 0) (h1 : c.names (operands s t b) (judged c s t b) = true)
    (h2 : c.zero (operands s t b) (judged c s t b) = false) (h3 : c.range (operands s t b) (judged c s t b) = none)
    (h4 : c.state (operands s t b) (judged c s t b) = none) : c.judge (operands s t b) (judged c s t b) = none :=
  judge_none c _ _ h0 h1 h2 h3 (fun _ => hw) (fun h => by cases h) h4

/-- A command that passes its checks and changes neither the host side nor the clock completes with its results (R777). -/
theorem completes_results {r0 r1 r2 r3 : Word} {changed : List Part} {effect : Dev → Prop} {d : Dev} {rs : List Word}
    (hi : exec i s = hostCommand c t b s) (hs : Starts s b) (hj : c.judge (operands s t b) (judged c s t b) = none)
    (ha : c.act (operands s t b) (judged c s t b) = (d, .ok rs)) (hr : results4 rs = ⟨#[r0, r1, r2, r3], rfl⟩)
    (hk : Keeps changed (judged c s t b) d) (hn : Part.host ∉ changed ∧ Part.clk ∉ changed) (he : effect (d.complete b (success rs))) :
    Completes i s t b r0 r1 r2 r3 changed effect :=
  completes_of i c s t b r0 r1 r2 r3 changed effect d rs hi hs hj ha hr (hk .host hn.1)
    (Keeps.mono hk (fun _ hp => List.mem_cons_of_mem _ hp)) (hk .clk hn.2) he

/-- A long command that passes its checks stays BUSY (R774, R813). -/
theorem begins_awake {changed : List Part} {effect : Dev → Prop} {d : Dev} (hi : exec i s = hostCommand c t b s) (hs : StartsAwake s b)
    (h0 : c.sup = true → b = 0) (h1 : c.names (operands s t b) (judged c s t b) = true)
    (h2 : c.zero (operands s t b) (judged c s t b) = false) (h3 : c.range (operands s t b) (judged c s t b) = none)
    (h4 : c.state (operands s t b) (judged c s t b) = none) (ha : c.act (operands s t b) (judged c s t b) = (d, .wait))
    (hk : Keeps changed (judged c s t b) d) (hn : Part.host ∉ changed) (he : effect d) : Begins i s t b c.code changed effect := by
  refine ⟨_, hi.trans (hostCommand_wait c s t b d hs.1 ((judge_awake hs h0 h1 h2 h3).trans h4) ha), rfl, rfl, rfl, ?_, hk .host hn, he⟩
  exact Keeps.andThen hk (fun _ hp => List.mem_cons_of_mem _ hp) (Keeps.mono (onPage_keeps _ _ _) (by simp))

end

/-! ## FE_SET_CHANNEL, FE_SET_COEF, FE_RESTART_SENSOR, FE_STATUS (R67, R97 to R101, R802) -/

section
variable {s : State} {t : Time} {b : Basket} {pos : Fin 24}

/-- A command of basket 0 that changes one channel of the front end. -/
theorem completes_onChannel {i : Instr} {c : Command} {f : Channel → Channel} (hi : exec i s = hostCommand c t 0 s) (hs : StartsAwake s 0)
    (h1 : c.names (operands s t 0) (judged c s t 0) = true) (h2 : c.zero (operands s t 0) (judged c s t 0) = false)
    (h3 : c.range (operands s t 0) (judged c s t 0) = none) (h4 : c.state (operands s t 0) (judged c s t 0) = none)
    (ha : c.act (operands s t 0) (judged c s t 0) = ((judged c s t 0).onChannel pos.val f, .ok [])) :
    Completes i s t 0 0 0 0 0 [.fe] (fun d => d.fe = s.dev.fe.set pos.val (f s.dev.fe[pos])) :=
  completes_awake hi hs (fun _ => rfl) h1 h2 h3 h4 ha (onChannel_keeps _ _ _) (by decide) (updAt_fin _ _ _)

theorem feSetChannel_sets (hs : StartsAwake s 0) (hh : Held s 0 .channels pos.val) (h0 : arg s 0 0 = pos.val)
    (hvib : pos.val < 16 → arg s 0 1 % 8 ≤ 6) (hother : 16 ≤ pos.val → arg s 0 1 % 16 = 0) (h2 : arg s 0 2 ≤ 60000)
    (h3 : 1 ≤ arg s 0 3) (h4 : 0 < arg s 0 4 ∧ arg s 0 4 < 0x7C00) :
    let c := { s.dev.fe[pos] with settleMs := arg s 0 2, calLimit := arg s 0 3, sensitivity := BitVec.ofNat 16 (arg s 0 4) }
    let v : VibSet → VibSet := fun v => { v with gain := arg s 0 1 % 8, ac := argBit s 0 1 3 }
    let vibs := updAt s.dev.wr.staged.vibs pos.val v
    Completes (.feSetChannel t 0) s t 0 0 0 0 0 [.fe, .wr] (fun d =>
      d.fe = s.dev.fe.set pos.val c ∧ d.wr = { s.dev.wr with staged := { s.dev.wr.staged with vibs := vibs } }) := by
  intro c v vibs
  let d := ((judged cmdFeSetChannel s t 0).onChannel pos.val (fun c =>
    { c with settleMs := arg s 0 2, calLimit := arg s 0 3, sensitivity := BitVec.ofNat 16 (arg s 0 4) })).onWr
      (fun w => { w with staged := { s.dev.wr.staged with vibs := vibs } })
  have gain : if pos.val < 16 then arg s 0 1 % 8 ≤ 6 else arg s 0 1 % 16 = 0 := by
    split
    next h => exact hvib h
    next h => exact hother (by omega)
  refine completes_awake (c := cmdFeSetChannel) (d := d) rfl hs (fun _ => rfl) ?_ rfl ?_ rfl ?_ ?_ (by decide) ⟨updAt_fin _ _ _, rfl⟩
  · simpa [cmdFeSetChannel, h0] using operands_channel_held hh
  · simp [cmdFeSetChannel, argRange, bits, positiveFp16, h0, gain, h2, h3, h4]
  · simp [cmdFeSetChannel, bits, h0, d, vibs, v]
  · exact Keeps.andThen (onWr_keeps _ _) (by decide) (Keeps.mono (onChannel_keeps _ _ _) (by decide))

theorem feSetCoef_sets (hs : StartsAwake s 0) (hh : Held s 0 .channels pos.val) (h0 : arg s 0 0 = pos.val)
    (ho : -8388608 ≤ signed 32 (arg32 s 0 1) ∧ signed 32 (arg32 s 0 1) ≤ 8388607)
    (hg : 49 * 4194304 ≤ 50 * arg32 s 0 3 ∧ 50 * arg32 s 0 3 ≤ 51 * 4194304) :
    Completes (.feSetCoef t 0) s t 0 0 0 0 0 [.fe]
      (fun d => d.fe = s.dev.fe.set pos.val { s.dev.fe[pos] with offset := signed 32 (arg32 s 0 1), gain := arg32 s 0 3 }) := by
  have a1 : (operands s t 0).arg32 1 = arg32 s 0 1 := operands_arg32 1
  have a3 : (operands s t 0).arg32 3 = arg32 s 0 3 := operands_arg32 3
  refine completes_onChannel (c := cmdFeSetCoef) (f := fun c => { c with offset := signed 32 (arg32 s 0 1), gain := arg32 s 0 3 })
    rfl hs ?_ rfl ?_ rfl ?_
  · simpa [cmdFeSetCoef, h0] using operands_channel_held hh
  · simp [cmdFeSetCoef, argRange, a1, a3, ho, hg]
  · simp [cmdFeSetCoef, a1, a3, h0]

theorem feRestartSensor_restarts (hs : StartsAwake s 0) (hh : Held s 0 .channels pos.val) (h0 : arg s 0 0 = pos.val) :
    Completes (.feRestartSensor t 0) s t 0 0 0 0 0 [.fe]
      (fun d => d.fe = s.dev.fe.set pos.val (s.dev.fe[pos].startSettle (instant s t))) := by
  refine completes_onChannel (c := cmdFeRestartSensor) (f := fun c => c.startSettle (instant s t)) rfl hs ?_ rfl rfl rfl ?_
  · simpa [cmdFeRestartSensor, h0] using operands_channel_held hh
  · simp [cmdFeRestartSensor, h0]

/-- What FE_STATUS answers. -/
theorem cmdFeStatus_act {x : Ctx} {d : Dev} (h0 : x.arg 0 = pos.val) : cmdFeStatus.act x d =
    (d, .ok ([BitVec.ofNat 16 (packBits [d.host.pages[x.b].overload[pos], d.fe[pos].settle.any (·.has d.now), d.identified pos.val,
      d.departed pos.val, d.fe[pos].cal.isSome])] ++ leWords 2 d.fe[pos].overloads.toNat ++ [BitVec.ofNat 16 (d.liveGain pos.val)])) := by
  simp [cmdFeStatus, h0]

theorem feStatus_answers (hs : Starts s b) (hh : Held s b .channels pos.val) (h0 : arg s b 0 = pos.val) :
    let c := s.dev.fe[pos]
    let n := c.overloads.toNat
    let flags := packBits [s.dev.host.pages[b].overload[pos], c.settle.any (fun w => w.has (instant s t)), (here s t).identified pos.val,
      (here s t).departed pos.val, c.cal.isSome]
    Completes (.feStatus t b) s t b (BitVec.ofNat 16 flags) (BitVec.ofNat 16 n) (BitVec.ofNat 16 (n / 65536))
      (BitVec.ofNat 16 (s.dev.liveGain pos.val)) [] (fun _ => True) := by
  intro c n flags
  have overload : (judged cmdFeStatus s t b).host.pages[b].overload = s.dev.host.pages[b].overload := by
    simp [judged, Dev.onPage, upd, Page.accept, Dev.tick]
  refine completes_results (c := cmdFeStatus) rfl hs (judge_watch rfl (fun h => by cases h) ?_ rfl rfl rfl)
    (cmdFeStatus_act (x := operands s t b) (d := judged cmdFeStatus s t b) h0) ?_
    (Keeps.refl _ _) (by decide) trivial
  · simpa [cmdFeStatus, h0] using operands_channel_held hh
  · show results4 [BitVec.ofNat 16 (packBits [(judged cmdFeStatus s t b).host.pages[b].overload[pos], _, _, _, _]), _, _, _] = _
    rw [overload]
    rfl

end

/-- Settles O29: each command by its checks and by what it does to its channel. -/
theorem frontEndCommands : Obligations.FrontEndCommands := by
  unfold Obligations.FrontEndCommands
  refine ⟨?_, ?_, ?_, ?_⟩
  · intro s t pos hs hh h0 hvib hother h2 h3 h4 h4'
    exact feSetChannel_sets hs hh h0 hvib hother h2 h3 ⟨h4, h4'⟩
  · intro s t pos o hs hh h0 ho ho' hg hg'
    exact feSetCoef_sets hs hh h0 ⟨ho, ho'⟩ ⟨hg, hg'⟩
  · intro s t pos hs hh h0
    exact feRestartSensor_restarts hs hh h0
  · intro s t b pos hs hh h0
    exact feStatus_answers hs hh h0

end Sys2Proof.Proofs

namespace Sys2Proof.Proofs
open Machine Laws

/-! ## FE_CAL_OFFSET and FE_CAL_GAIN (R90, R96) -/

section
variable {s : State} {t : Time} {pos : Fin 24}

/-- A calibration of basket 0 whose window begins now. -/
def freshCalibration (gain : Bool) (now : Time) : Calibration :=
  { gain := gain, start := now, stop := now + ms 64, basket := 0, n1 := 0, sum1 := 0, sq1 := 0, n2 := 0, sum2 := 0, sq2 := 0, dirty := false }

theorem calCommand_names {code : Word} {gain : Bool} (hh : Held s 0 .channels pos.val) (h0 : arg s 0 0 = pos.val) :
    (calCommand code gain).names (operands s t 0) (judged (calCommand code gain) s t 0) = true := by
  simpa [calCommand, h0] using operands_channel_held (c := calCommand code gain) (t := t) hh

/-- A calibration is refused while the channel is calibrating. -/
theorem calCommand_state {code : Word} {gain : Bool} {x : Ctx} {d : Dev} (h0 : x.arg 0 = pos.val) :
    (calCommand code gain).state x d = need d.fe[pos].cal.isNone .busy := by simp [calCommand, h0]

theorem calCommand_begins {i : Instr} {code : Word} {gain : Bool} (hi : exec i s = hostCommand (calCommand code gain) t 0 s)
    (hs : StartsAwake s 0) (hh : Held s 0 .channels pos.val) (h0 : arg s 0 0 = pos.val) (hc : s.dev.fe[pos].cal = none) :
    Begins i s t 0 code [.fe]
      (fun d => d.fe = s.dev.fe.set pos.val { s.dev.fe[pos] with cal := some (freshCalibration gain (instant s t)) }) := by
  refine begins_awake (c := calCommand code gain)
    (d := (judged (calCommand code gain) s t 0).onChannel pos.val (fun c => { c with cal := some (freshCalibration gain (instant s t)) }))
    hi hs (fun _ => rfl) (calCommand_names hh h0) rfl rfl ?_ ?_ (onChannel_keeps _ _ _) (by decide) (updAt_fin _ _ _)
  · rw [calCommand_state (x := operands s t 0) h0, judged_fe, hc]; rfl
  · simp [calCommand, freshCalibration, h0]
    rfl

theorem calCommand_refused {i : Instr} {code : Word} {gain : Bool} (hi : exec i s = hostCommand (calCommand code gain) t 0 s)
    (hs : StartsAwake s 0) (hh : Held s 0 .channels pos.val) (h0 : arg s 0 0 = pos.val) (hc : s.dev.fe[pos].cal ≠ none) :
    Refuses i s t 0 .busy := by
  refine refuses_awake hi hs (fun _ => rfl) (calCommand_names hh h0) rfl rfl ?_ (by decide)
  rw [calCommand_state (x := operands s t 0) h0, judged_fe, need, if_neg]
  rwa [Option.isNone_iff_eq_none]

end

/-! ## The end of a calibration (R90 to R92, R94) -/

section
variable {d : Dev} {pos : Fin 24} {k : Calibration}

/-- What a calibration whose window ends comes to: the new coefficient, or none. -/
def calResult (d : Dev) (pos : Fin 24) (k : Calibration) : Option Int := k.outcome pos d.fe[pos].calLimit (Config.calRoundUp d.free)

/-- A channel after a calibration. -/
def calibrated (c : Channel) (k : Calibration) (result : Option Int) : Channel :=
  { c with cal := none, taints := { start := k.stop, stop := some (k.stop + us 12) } :: c.taints,
           offset := match result with | some v => if k.gain then c.offset else v | none => c.offset,
           gain := match result with | some v => if k.gain then v.toNat else c.gain | none => c.gain }

/-- What the command of a calibration answers. -/
def calAnswer : Option Int → CmdOutcome
  | some v => success (leWords 2 (v % (2 ^ 32 : Nat)).toNat)
  | none => refusal .calDirty

theorem calEnd_eq : d.calEnd pos k = ((d.onFree (· + 1)).onChannel pos.val (fun c => calibrated c k (calResult d pos k))).finish k.basket
    (if k.gain then 0x0203 else 0x0202) (calAnswer (calResult d pos k)) := by
  unfold Dev.calEnd
  show (match calResult d pos k with | none => _ | some v => _) = _
  cases calResult d pos k <;> rfl

theorem calEnd_fe : (d.calEnd pos k).fe = d.fe.set pos.val (calibrated d.fe[pos] k (calResult d pos k)) := by
  rw [calEnd_eq]
  exact updAt_fin _ _ _

/-- An outcome reaches the page of its command. -/
theorem finish_host {b : Basket} {code : Word} {o : CmdOutcome} {r : Running} (hr : d.host.pages[b].running = some r) (hc : r.code = code)
    (ho : r.outcome = none) : (d.finish b code o).host =
      withPage d.host b { d.host.pages[b] with running := some { r with outcome := some o } } := by
  simp only [Dev.finish, Dev.onPage, onHost_host, upd_eq_set, hr, hc, ho, beq_self_eq_true, Bool.and_self, if_true]
  rfl

theorem calEnd_host {r : Running} (hr : d.host.pages[k.basket].running = some r) (hc : r.code = if k.gain then 0x0203 else 0x0202)
    (ho : r.outcome = none) : (d.calEnd pos k).host = withPage d.host k.basket
      { d.host.pages[k.basket] with running := some { r with outcome := some (calAnswer (calResult d pos k)) } } := by
  rw [calEnd_eq]
  exact finish_host hr hc ho

/-- A spoilt calibration has no coefficient. -/
theorem calResult_dirty (h : k.dirty = true) : calResult d pos k = none := by simp [calResult, Calibration.outcome, h]

theorem fullScale_natAbs (pos : Nat) : (fullScale pos).natAbs = 2 ^ (converterBits pos - 1) := Int.natAbs_natCast _

/-- A mean that is a whole number, near enough to zero, is the offset. -/
theorem calResult_mean (hg : k.gain = false) (hd : k.dirty = false) (hn : k.n1 ≠ 0)
    (hq : (k.n1 : Int) * k.sq1 - k.sum1 * k.sum1 ≤ ((k.n1 * d.fe[pos].calLimit : Nat) : Int) ^ 2) (hw : k.sum1 % k.n1 = 0)
    (hl : 100 * (k.sum1 / k.n1).natAbs ≤ 2 ^ (converterBits pos.val - 1)) : calResult d pos k = some (k.sum1 / k.n1) := by
  have quiet : tooActive k.n1 k.sum1 k.sq1 d.fe[pos].calLimit = false := decide_eq_false (not_lt.mpr hq)
  have mean : ∀ up, k.coefficient pos.val up = some (k.sum1 / k.n1) := fun up => by
    simp only [Calibration.coefficient, hg, Bool.false_eq_true, if_false, hn, freeRound, hw, if_true, fullScale_natAbs]
    exact if_neg (not_lt.mpr hl)
  simp only [calResult, Calibration.outcome, hd, quiet, hg, mean, Bool.false_and, Bool.or_self, Bool.false_eq_true, if_false]

variable {s : State} {t : Time}

theorem calWindowEnd_exec (hc : s.dev.fe[pos].cal = some k) (hstop : k.stop ≤ instant s t) :
    exec (.calWindowEnd t pos) s = .next { s with dev := (here s t).calEnd pos k } := by
  have cal : (here s t).fe[pos].cal = some k := hc
  have ended : k.stop ≤ (here s t).now := hstop
  show Host.Outcome.next { s with dev := match (here s t).fe[pos].cal with | some k => _ | none => _ } = _
  simp only [cal]
  exact congrArg (fun d => Host.Outcome.next { s with dev := d }) (if_pos ended)

theorem calWindowEnd_ends {r : Running} (hc : s.dev.fe[pos].cal = some k) (hstop : k.stop ≤ instant s t)
    (hr : s.dev.host.pages[k.basket].running = some r) (hcode : r.code = if k.gain then 0x0203 else 0x0202) (ho : r.outcome = none) :
    let c := s.dev.fe[pos]
    let idle := { c with cal := none, taints := { start := k.stop, stop := some (k.stop + us 12) } :: c.taints }
    let mean := k.sum1 / k.n1
    let answered (o : CmdOutcome) := withPage s.dev.host k.basket { s.dev.host.pages[k.basket] with running := some { r with outcome := some o } }
    Does (.calWindowEnd t pos) s t [.fe, .host, .free] (fun d =>
      (∀ p : Fin 24, p ≠ pos → d.fe[p] = s.dev.fe[p]) ∧
      d.fe[pos] = { idle with offset := d.fe[pos].offset, gain := d.fe[pos].gain } ∧
      (k.dirty = true → d.fe[pos] = idle ∧ d.host = answered { error := 0x0009, results := Vector.replicate 4 0 }) ∧
      ((k.gain = false ∧ k.dirty = false ∧ k.n1 ≠ 0 ∧ (k.n1 : Int) * k.sq1 - k.sum1 * k.sum1 ≤ ((k.n1 * c.calLimit : Nat) : Int) ^ 2 ∧
        k.sum1 % k.n1 = 0 ∧ 100 * mean.natAbs ≤ 2 ^ (converterBits pos.val - 1)) →
        d.fe[pos] = { idle with offset := mean } ∧
        d.host = answered { error := 0, results := results4 (leWords 2 (mean % (2 ^ 32 : Nat)).toNat) })) := by
  intro c idle mean answered
  have host : ((here s t).calEnd pos k).host = answered (calAnswer (calResult (here s t) pos k)) := calEnd_host (d := here s t) hr hcode ho
  have channel : ((here s t).calEnd pos k).fe[pos] = calibrated c k (calResult (here s t) pos k) := by
    rw [calEnd_fe]; exact Vector.getElem_set_self _
  refine does_of (calWindowEnd_exec hc hstop) (Keeps.mono (calEnd_keeps _ _ _) (by decide)) ⟨fun p hp => ?_, ?_, fun hd => ?_, ?_⟩
  · rw [calEnd_fe]
    exact Vector.getElem_set_ne _ _ (fun e => hp (Fin.ext e.symm))
  · rw [channel]; rfl
  · rw [channel, host, calResult_dirty hd]
    exact ⟨rfl, rfl⟩
  · rintro ⟨hg, hd, hn, hq, hw, hl⟩
    have result : calResult (here s t) pos k = some mean := calResult_mean (d := here s t) hg hd hn hq hw hl
    rw [channel, host, result]
    exact ⟨by simp only [calibrated, hg, Bool.false_eq_true, if_false]; rfl, rfl⟩

theorem settleEnd_forgets :
    let c := s.dev.fe[pos]
    let left := c.settle.filter (fun w => w.has (instant s t) || (s.dev.wr.running && w.meets s.dev.wr.start (instant s t)))
    Does (.settleEnd t pos) s t [.fe] (fun d => d.fe = s.dev.fe.set pos.val { c with settle := left }) :=
  does_of rfl (onChannel_keeps _ _ _) (updAt_fin _ _ _)

end

/-- Settles O30: a calibration begins or is refused by its state check; its end by the coefficient that it comes to. -/
theorem calibrationRows : Obligations.CalibrationRows := by
  unfold Obligations.CalibrationRows
  refine ⟨?_, ?_, ?_, ?_, ?_⟩
  · intro s t pos hs hh h0 hc
    exact calCommand_begins rfl hs hh h0 hc
  · intro s t pos hs hh h0 hc
    exact calCommand_begins rfl hs hh h0 hc
  · intro s t pos hs hh h0 hc
    exact ⟨calCommand_refused (code := 0x0202) rfl hs hh h0 hc, calCommand_refused (code := 0x0203) rfl hs hh h0 hc⟩
  · intro s t pos k r hc hstop hr hcode ho
    exact calWindowEnd_ends hc hstop hr hcode ho
  · intro s t pos
    exact settleEnd_forgets

end Sys2Proof.Proofs

namespace Sys2Proof.Proofs
open Machine Laws

/-! ## TEDS_SET_SCAN and TEDS_BIND (R71, R78, R103) -/

section
variable {s : State} {t : Time}

theorem tedsSetScan_sets (hs : StartsAwake s 0) (h0 : arg s 0 0 ≤ 600) :
    Completes (.tedsSetScan t 0) s t 0 0 0 0 0 [.teds] (fun d =>
      d.teds = { s.dev.teds with period := arg s 0 0, lines := d.teds.lines } ∧
      ∀ l : Fin 4, d.teds.lines[l] = { s.dev.teds.lines[l] with nextScan := instant s t + ms (100 * arg s 0 0) }) := by
  refine completes_awake (c := cmdTedsSetScan) (effect := fun _ => _) rfl hs (fun _ => rfl) rfl rfl ?_ rfl rfl (onTeds_keeps _ _) (by decide)
    ⟨rfl, fun l => ?_⟩
  · simp [cmdTedsSetScan, argRange, h0]
  · exact vmap_getElem _ _ _ _

/-- TEDS_BIND with a channel: the identity leaves every other entry (R103). -/
theorem cmdTedsBind_binds {x : Ctx} {d : Dev} {e : Fin 32} {pos : Fin 24} (h0 : x.arg 0 = e.val) (h5 : x.arg 5 = pos.val) :
    cmdTedsBind.act x d = (d.onTeds (fun t => { t with
      bindings := (vmap d.teds.bindings (fun _ y => y.filter (fun z => z.1 != BitVec.ofNat 64 (x.arg64 1)))).set e.val
        (some (BitVec.ofNat 64 (x.arg64 1), pos)) }), .ok []) := by
  let identity := BitVec.ofNat 64 (x.arg64 1)
  have kept : vmap d.teds.bindings (fun _ y => (match y with
      | some (i, p) => if (true && i == identity) = true then none else some (i, p)
      | none => none)) = vmap d.teds.bindings (fun _ y => y.filter (fun z => z.1 != identity)) := by
    refine Vector.ext fun i hi => ?_
    rw [vmap_getElem, vmap_getElem]
    cases d.teds.bindings[i] with
    | none => rfl
    | some z => by_cases h : z.1 = identity <;> simp [Option.filter, h]
  simp only [cmdTedsBind, h0, h5, pos.isLt, dif_pos, updAt_fin]
  exact congrArg (fun v => (d.onTeds (fun t => { t with bindings := Vector.set v e.val (some (identity, pos)) }), Reply.ok [])) kept

/-- TEDS_BIND without a channel empties its entry (R103). -/
theorem cmdTedsBind_empties {x : Ctx} {d : Dev} {e : Fin 32} (h0 : x.arg 0 = e.val) (h5 : x.arg 5 = 0xFFFF) :
    cmdTedsBind.act x d = (d.onTeds (fun t => { t with bindings := d.teds.bindings.set e.val none }), .ok []) := by
  have kept : vmap d.teds.bindings (fun _ y => (match y with
      | some (i, p) => if (false && i == BitVec.ofNat 64 (x.arg64 1)) = true then none else some (i, p)
      | none => none)) = d.teds.bindings := by
    refine Vector.ext fun i hi => ?_
    rw [vmap_getElem]
    cases d.teds.bindings[i] <;> rfl
  simp only [cmdTedsBind, h0, h5, updAt_fin]
  exact congrArg (fun v => (d.onTeds (fun t => { t with bindings := Vector.set v e.val none }), Reply.ok [])) kept

theorem operands_arg64_1 (b : Basket) : (operands s t b).arg64 1 = arg32 s b 1 + 2 ^ 32 * arg32 s b 3 := by
  have a1 : (operands s t b).arg32 1 = arg32 s b 1 := operands_arg32 1
  have a3 : (operands s t b).arg32 3 = arg32 s b 3 := operands_arg32 3
  rw [Ctx.arg64, a1, a3]

theorem tedsBind_binds (e : Fin 32) (pos : Fin 24) (hs : StartsAwake s 0) (h0 : arg s 0 0 = e.val) (h5 : arg s 0 5 = pos.val)
    (hh : Held s 0 .channels pos.val) :
    let id : BitVec 64 := BitVec.ofNat 64 (arg32 s 0 1 + 2 ^ 32 * arg32 s 0 3)
    Completes (.tedsBind t 0) s t 0 0 0 0 0 [.teds] (fun d =>
      d.teds = { s.dev.teds with bindings := d.teds.bindings } ∧ d.teds.bindings[e] = some (id, pos) ∧
      ∀ f : Fin 32, f ≠ e → d.teds.bindings[f] = (s.dev.teds.bindings[f]).filter (fun x => x.1 != id)) := by
  intro id
  have act := cmdTedsBind_binds (x := operands s t 0) (d := judged cmdTedsBind s t 0) h0 h5
  rw [operands_arg64_1] at act
  refine completes_awake (c := cmdTedsBind) rfl hs (fun _ => rfl) ?_ rfl ?_ rfl act (onTeds_keeps _ _) (by decide)
    ⟨rfl, Vector.getElem_set_self _, fun f hf => ?_⟩
  · simp [cmdTedsBind, h5, operands_channel_held hh]
  · simp [cmdTedsBind, argRange, h0]
  · exact (Vector.getElem_set_ne e.isLt f.isLt (fun h => hf (Fin.ext h.symm))).trans (vmap_getElem _ _ _ _)

theorem tedsBind_empties (e : Fin 32) (hs : StartsAwake s 0) (h0 : arg s 0 0 = e.val) (h5 : arg s 0 5 = 0xFFFF) :
    Completes (.tedsBind t 0) s t 0 0 0 0 0 [.teds] (fun d => d.teds = { s.dev.teds with bindings := s.dev.teds.bindings.set e.val none }) := by
  refine completes_awake (c := cmdTedsBind) rfl hs (fun _ => rfl) ?_ rfl ?_ rfl
    (cmdTedsBind_empties (x := operands s t 0) (d := judged cmdTedsBind s t 0) h0 h5) (onTeds_keeps _ _) (by decide) rfl
  · simp [cmdTedsBind, h5]
  · simp [cmdTedsBind, argRange, h0]

end

/-! ## A scan of a line (R71 to R73, R80) -/

theorem postHeld_host_congr {d d' : Dev} (hh : d'.host = d.host) (hc : d'.clk = d.clk) (hg : d'.grants = d.grants) (held : Grants → Bool) (e : Ev) :
    (d'.postHeld held e).host = (d.postHeld held e).host := by
  have to_ : d'.holders held = d.holders held := by unfold Dev.holders; rw [hg]
  unfold Dev.postHeld
  rw [to_, stamp_congr hc, post_host_congr hh hc]

section
variable {d : Dev} {line : Fin 4} {n : Nat} {pos : Fin 24}

/-- The event of a memory that is bound. -/
theorem tedsMove_bound {identity : BitVec 64} (hb : d.teds.bound identity = some (n, pos)) (e : Event) : d.tedsMove line identity e =
    d.postHeld (fun g => g.channels[pos]) { event := e, subject := line.val, data0 := n, data1 := pos.val } := by
  have held : d.tedsHeld identity = fun g => g.channels[pos] := by funext g; simp only [Dev.tedsHeld, hb]
  simp only [Dev.tedsMove, hb, held]

/-- What a scan finds of a memory that answers every read. -/
def Readable (r : TedsRead) : Prop := r.idCrcOk = true ∧ r.readOk = true ∧ r.checksumOk = true ∧ r.templateOk = true

/-- A memory that has just arrived and been read. -/
def arrived (identity : BitVec 64) : TedsMemory :=
  { identity := identity, present := true, missed := 0, failedReads := 0, isRead := true, bad := false, departed := false }

/-- An arrival: the settle timer of the channel restarts, the event is posted, and the memory is known as read (R72, R75, R80, R99). -/
theorem tedsFound_arrives {r : TedsRead} (hl : d.teds.lines[line].memories = []) (hr : Readable r)
    (hb : d.teds.bound r.identity = some (n, pos)) : d.tedsFound line 0 r =
      ((d.onChannel pos.val (fun c => c.startSettle d.now)).tedsMove line r.identity .tedsArrive).onLine line
        (fun l => l.put (arrived r.identity)) := by
  obtain ⟨-, hread, hsum, htemplate⟩ := hr
  have fresh : d.teds.lines[line].memory? r.identity = none := by simp only [TedsLine.memory?, hl, List.find?_nil]
  simp only [Dev.tedsFound, fresh, Option.getD_none, Bool.not_false, if_true, hb, Bool.false_eq_true, if_false, hread, hsum, htemplate,
    Bool.not_true, Nat.reduceLeDiff]
  rfl

/-- A memory missed in one scan already departs (R73). -/
theorem tedsMissed_departs {m : TedsMemory} (hm : m.missed = 1) (hd : m.departed = false) : d.tedsMissed line m =
    (d.onLine line (fun l => l.put { m with present := false, missed := 2, departed := true })).tedsMove line m.identity .tedsLeave := by
  simp [Dev.tedsMissed, hm, hd]

/-- The end of a scan times the next one (R71). -/
def nextTimed (d : Dev) (line : Fin 4) : Dev := d.onLine line (fun l => { l with nextScan := d.now + ms (100 * d.teds.period) })

theorem nextTimed_timed {T : Teds} {x : TedsLine} (hd : d.teds = { T with lines := T.lines.set line.val x }) : (nextTimed d line).teds =
    { T with lines := T.lines.set line.val { x with nextScan := d.now + ms (100 * T.period) } } := by
  simp [nextTimed, upd_eq_set, hd]

theorem put_first {x : TedsLine} (hx : x.memories = []) (m : TedsMemory) : x.put m = { x with memories := [m] } := by simp [TedsLine.put, hx]

theorem put_only {x : TedsLine} {m m' : TedsMemory} (hx : x.memories = [m]) (hm : m'.identity = m.identity) :
    x.put m' = { x with memories := [m'] } := by simp [TedsLine.put, hx, hm]

theorem tedsScan_one {r : TedsRead} (hl : d.teds.lines[line].memories = []) (hr : Readable r) : d.tedsScan line [r] =
    nextTimed (d.tedsFound line 0 r) line := by
  have good : [r].filter (·.idCrcOk) = [r] := by simp [hr.1]
  have wrong : [r].filter (fun r => !r.idCrcOk) = [] := by simp [hr.1]
  simp only [Dev.tedsScan, good, wrong, hl, List.filter_nil]
  rfl

theorem tedsScan_none {m : TedsMemory} (hl : d.teds.lines[line].memories = [m]) : d.tedsScan line [] = nextTimed (d.tedsMissed line m) line := by
  simp only [Dev.tedsScan, hl, List.filter_nil]
  rfl

variable {s : State} {t : Time} {l : Fin 4}

/-- TEDS_SCAN by its cases. -/
theorem tedsScan_exec (found : List TedsRead) : exec (.tedsScan t l found) s = .next { s with dev :=
    (if s.dev.teds.period != 0 && decide (s.dev.teds.lines[l].nextScan ≤ instant s t) &&
        (s.dev.pwr.state == .active || s.dev.pwr.state == .boot) then
      (here s t).tedsScan l found else here s t) } := rfl

theorem tedsScan_due (found : List TedsRead) (hp : s.dev.teds.period ≠ 0) (hn : s.dev.teds.lines[l].nextScan ≤ instant s t)
    (hpow : s.dev.pwr.state = .active ∨ s.dev.pwr.state = .boot) :
    exec (.tedsScan t l found) s = .next { s with dev := (here s t).tedsScan l found } := by
  have awake : (s.dev.pwr.state == .active || s.dev.pwr.state == .boot) = true := by simpa using hpow
  rw [tedsScan_exec, if_pos]
  simp only [bne_iff_ne.mpr hp, decide_eq_true hn, awake, Bool.and_self]

theorem tedsScan_arrives {r : TedsRead} (hp : s.dev.teds.period ≠ 0) (hn : s.dev.teds.lines[l].nextScan ≤ instant s t)
    (hpow : s.dev.pwr.state = .active ∨ s.dev.pwr.state = .boot) (hl : s.dev.teds.lines[l].memories = []) (hr : Readable r)
    (hb : s.dev.teds.bound r.identity = some (n, pos)) :
    let m : TedsMemory := { identity := r.identity, present := true, missed := 0, failedReads := 0, isRead := true, bad := false, departed := false }
    let line := { s.dev.teds.lines[l] with memories := [m], nextScan := instant s t + ms (100 * s.dev.teds.period) }
    Does (.tedsScan t l [r]) s t [.teds, .fe, .host] (fun d =>
      d.teds = { s.dev.teds with lines := s.dev.teds.lines.set l.val line } ∧
      d.fe = s.dev.fe.set pos.val (s.dev.fe[pos].startSettle (instant s t)) ∧
      d.host = ((here s t).postHeld (fun g => g.channels[pos]) { event := .tedsArrive, subject := l.val, data0 := n, data1 := pos.val }).host) := by
  intro m line
  let settled := (here s t).onChannel pos.val (fun c => c.startSettle (instant s t))
  let known := (settled.tedsMove l r.identity .tedsArrive).onLine l (fun x => x.put (arrived r.identity))
  have scan : (here s t).tedsScan l [r] = nextTimed known l := by
    rw [tedsScan_one (d := here s t) hl hr, tedsFound_arrives (d := here s t) hl hr hb]; rfl
  have moved : Keeps [.host] settled (settled.tedsMove l r.identity .tedsArrive) := tedsMove_keeps _ _ _ _
  have teds : known.teds = { s.dev.teds with lines := s.dev.teds.lines.set l.val { s.dev.teds.lines[l] with memories := [m] } } := by
    rw [← put_first hl m]
    show ({ (settled.tedsMove l r.identity .tedsArrive).teds with lines := _ } : Teds) = _
    rw [show (settled.tedsMove l r.identity .tedsArrive).teds = s.dev.teds from moved .teds (by decide)]
    rfl
  have now : known.now = instant s t := congrArg Clock.now (moved .clk (by decide))
  refine does_of (tedsScan_due _ hp hn hpow) (Keeps.mono (tedsScan_keeps _ _ _) (by decide)) ?_
  rw [scan]
  refine ⟨?_, (moved .fe (by decide)).trans (updAt_fin _ _ _), ?_⟩
  · rw [nextTimed_timed teds, now]
  · show (settled.tedsMove l r.identity .tedsArrive).host = _
    rw [tedsMove_bound (d := settled) hb]
    exact postHeld_host_congr rfl rfl rfl _ _

theorem tedsScan_departs {m : TedsMemory} (hp : s.dev.teds.period ≠ 0) (hn : s.dev.teds.lines[l].nextScan ≤ instant s t)
    (hpow : s.dev.pwr.state = .active ∨ s.dev.pwr.state = .boot) (hl : s.dev.teds.lines[l].memories = [m]) (hm : m.missed = 1)
    (hd : m.departed = false) (hb : s.dev.teds.bound m.identity = some (n, pos)) :
    let gone := { m with present := false, missed := 2, departed := true }
    let line := { s.dev.teds.lines[l] with memories := [gone], nextScan := instant s t + ms (100 * s.dev.teds.period) }
    Does (.tedsScan t l []) s t [.teds, .host] (fun d =>
      d.teds = { s.dev.teds with lines := s.dev.teds.lines.set l.val line } ∧
      d.host = ((here s t).postHeld (fun g => g.channels[pos]) { event := .tedsLeave, subject := l.val, data0 := n, data1 := pos.val }).host) := by
  intro gone line
  let known := (here s t).onLine l (fun x => x.put gone)
  have scan : (here s t).tedsScan l [] = nextTimed (known.tedsMove l m.identity .tedsLeave) l := by
    rw [tedsScan_none (d := here s t) hl, tedsMissed_departs hm hd]
  have moved : Keeps [.host] known (known.tedsMove l m.identity .tedsLeave) := tedsMove_keeps _ _ _ _
  have teds : (known.tedsMove l m.identity .tedsLeave).teds =
      { s.dev.teds with lines := s.dev.teds.lines.set l.val { s.dev.teds.lines[l] with memories := [gone] } } := by
    rw [← put_only hl (show gone.identity = m.identity from rfl)]
    exact moved .teds (by decide)
  have now : (known.tedsMove l m.identity .tedsLeave).now = instant s t := congrArg Clock.now (moved .clk (by decide))
  have bound : known.teds.bound m.identity = some (n, pos) := hb
  refine does_of (tedsScan_due _ hp hn hpow) ?_ ?_
  · rw [scan]
    exact Keeps.andThen (onLine_keeps _ _ _) (by decide) (Keeps.andThen moved (by decide) (Keeps.mono (onLine_keeps _ _ _) (by decide)))
  · rw [scan]
    refine ⟨?_, ?_⟩
    · rw [nextTimed_timed teds, now]
    · show (known.tedsMove l m.identity .tedsLeave).host = _
      rw [tedsMove_bound bound]
      exact postHeld_host_congr rfl rfl rfl _ _

theorem tedsScan_idle (found : List TedsRead) (h : s.dev.teds.period = 0 ∨ instant s t < s.dev.teds.lines[l].nextScan) :
    Does (.tedsScan t l found) s t [] (fun _ => True) := by
  refine does_nothing ?_
  rw [tedsScan_exec, if_neg]
  intro due
  simp only [Bool.and_eq_true, bne_iff_ne, decide_eq_true_eq] at due
  obtain ⟨⟨hp, hn⟩, -⟩ := due
  obtain h | h := h
  · exact hp h
  · exact absurd hn (not_le.mpr h)

end

/-- Settles O31: the settings by their commands, a scan by the one memory that it finds or misses. -/
theorem tedsRows : Obligations.TedsRows := by
  unfold Obligations.TedsRows
  refine ⟨?_, ?_, ?_, ?_, ?_, ?_⟩
  · intro s t hs h0
    exact tedsSetScan_sets hs h0
  · intro s t e pos hs h0 h5 hh
    exact tedsBind_binds e pos hs h0 h5 hh
  · intro s t e hs h0 h5
    exact tedsBind_empties e hs h0 h5
  · intro s t l r n pos hp hn hpow hl hr hb
    exact tedsScan_arrives hp hn hpow hl hr hb
  · intro s t l m n pos hp hn hpow hl hm hd hb
    exact tedsScan_departs hp hn hpow hl hm hd hb
  · intro s t l found h
    exact tedsScan_idle found h

end Sys2Proof.Proofs

namespace Sys2Proof.Proofs
open Machine Laws

/-! ## Flag bits beside a value -/

theorem packBits_testBit (bs : List Bool) (i : Nat) : (packBits bs).testBit i = bs.getD i false := by
  induction bs generalizing i with
  | nil => simp [packBits]
  | cons b bs ih =>
    cases i with
    | zero => cases b <;> simp [packBits, Nat.testBit_zero]
    | succ i =>
      have half : packBits (b :: bs) / 2 = packBits bs := by
        show ((if b then 1 else 0) + 2 * packBits bs) / 2 = packBits bs
        split <;> omega
      rw [Nat.testBit_succ, half, ih, List.getD_cons_succ]

theorem packBits_lt (bs : List Bool) : packBits bs < 2 ^ bs.length := by
  induction bs with
  | nil => decide
  | cons b bs ih =>
    show (if b then 1 else 0) + 2 * packBits bs < 2 ^ (bs.length + 1)
    rw [Nat.pow_succ]
    split <;> omega

/-- A word with a value of 24 bits above a byte of four flags (Table 02-3). -/
theorem flaggedWord_value {v : Nat} (hv : v < 2 ^ 24) {bs : List Bool} (hb : bs.length = 4) :
    (BitVec.ofNat 32 (v * 256 + packBits bs)).toNat / 256 = v := by
  have := packBits_lt bs
  rw [hb] at this
  rw [BitVec.toNat_ofNat]
  omega

theorem flaggedWord_flag (v : Nat) {bs : List Bool} {i : Nat} (hb : bs.length = 4) (hi : i < 8) :
    (BitVec.ofNat 32 (v * 256 + packBits bs)).getLsbD i = bs.getD i false := by
  have low : (v * 256 + packBits bs) % 2 ^ 8 = packBits bs := by
    have := packBits_lt bs
    rw [hb] at this
    omega
  have := Nat.testBit_mod_two_pow (v * 256 + packBits bs) 8 i
  rw [low, packBits_testBit] at this
  rw [this, BitVec.getLsbD_ofNat]
  simp [hi, show i < 32 by omega]

/-! ## Overload at a sample (R70, R949, R950, log entry 10) -/

section
variable {d : Dev} {pos : Fin 24} {level : InputLevel}

/-- A level within 99.5 % of full scale and within the common-mode range. -/
def Within (d : Dev) (pos : Fin 24) (level : InputLevel) : Prop :=
  1000 * (d.gainOf pos.val * level.diff.natAbs) ≤ 995 * scaleNv pos.val ∧
    (pos.val < 16 → 500000000 ≤ level.common ∧ level.common ≤ 2800000000)

/-- A level beyond 100.5 % of full scale, or outside the common-mode range only, with the sign of R950. -/
def Beyond (d : Dev) (pos : Fin 24) (level : InputLevel) (neg : Bool) : Prop :=
  (1005 * scaleNv pos.val < 1000 * (d.gainOf pos.val * level.diff.natAbs) ∧ neg = decide (level.diff < 0)) ∨
    (1000 * (d.gainOf pos.val * level.diff.natAbs) ≤ 995 * scaleNv pos.val ∧ pos.val < 16 ∧
      ((level.common < 500000000 ∧ neg = true) ∨ (2800000000 < level.common ∧ neg = false)))

theorem beyondScale_low {p g : Nat} {x : Int} (h : 1000 * (g * x.natAbs) ≤ 995 * scaleNv p) : beyondScale p g x = false := by
  have least : scaleNv p * 9950 ≤ scaleNv p * (9950 + Config.overloadLimit p % 101) := Nat.mul_le_mul_left _ (by omega)
  have : x.natAbs * g = g * x.natAbs := Nat.mul_comm _ _
  simp only [beyondScale, decide_eq_false_iff_not]
  omega

theorem beyondScale_high {p g : Nat} {x : Int} (h : 1005 * scaleNv p < 1000 * (g * x.natAbs)) : beyondScale p g x = true := by
  have most : scaleNv p * (9950 + Config.overloadLimit p % 101) ≤ scaleNv p * 10050 := Nat.mul_le_mul_left _ (by omega)
  have : x.natAbs * g = g * x.natAbs := Nat.mul_comm _ _
  simp only [beyondScale, decide_eq_true_eq]
  omega

theorem overloadAt_within (h : Within d pos level) : d.overloadAt pos.val level = none := by
  obtain ⟨hscale, hcommon⟩ := h
  have inside : outOfCommon pos.val level.common = false := by
    by_cases hp : pos.val < 16
    · have := hcommon hp
      simp only [outOfCommon, hp, decide_true, Bool.true_and, Bool.or_eq_false_iff, decide_eq_false_iff_not]
      omega
    · simp [outOfCommon, hp]
  simp only [Dev.overloadAt, beyondScale_low hscale, inside, Bool.false_eq_true, if_false]

theorem overloadAt_beyond {neg : Bool} (h : Beyond d pos level neg) : d.overloadAt pos.val level = some neg := by
  obtain ⟨hscale, rfl⟩ | ⟨hscale, hp, hcommon⟩ := h
  · simp only [Dev.overloadAt, beyondScale_high hscale, if_true]
  · have outside : outOfCommon pos.val level.common = true ∧ decide (level.common < 500000000) = neg := by
      simp only [outOfCommon, hp, decide_true, Bool.true_and, Bool.or_eq_true, decide_eq_true_eq]
      obtain ⟨hc, rfl⟩ | ⟨hc, rfl⟩ := hcommon
      · exact ⟨Or.inl hc, decide_eq_true hc⟩
      · exact ⟨Or.inr hc, decide_eq_false (by omega)⟩
    simp only [Dev.overloadAt, beyondScale_low hscale, outside.1, outside.2, Bool.false_eq_true, if_false, if_true]

/-! ## The sample word (Table 02-3, R66, R67, R82, R83, R93, R97) -/

/-- The code of a sample word: 0 in calibration, full scale in overload, else the corrected raw code. -/
def sampleCode (pos : Nat) (c : Channel) (overload : Option Bool) (raw : Int) : Int :=
  if c.cal.isSome then 0
  else match overload with
    | some negative => if negative then -(fullScale pos) else fullScale pos - 1
    | none => correctCode pos c.offset c.gain raw

/-- The overload that the detector of a channel sees; none during a calibration. -/
def overloadSeen (d : Dev) (pos : Nat) (c : Channel) (level : InputLevel) : Option Bool :=
  if c.cal.isSome then none else d.overloadAt pos level

/-- The flags of a sample word: TAINTED, SETTLING, OVERLOAD, CAL_ACTIVE. -/
def sampleFlags (d : Dev) (pos : Nat) (c : Channel) (overload : Option Bool) : List Bool :=
  [overload.isSome || c.cal.isSome || d.departed pos || (d.taints pos).any (fun w => w.has d.now), c.settle.any (fun w => w.has d.now),
    overload.isSome, c.cal.isSome]

theorem sampleWord_eq (d : Dev) (pos : Nat) (c : Channel) (level : InputLevel) (raw : Int) {o : Option Bool}
    (ho : overloadSeen d pos c level = o) : d.sampleWord pos c level raw =
      BitVec.ofNat 32 (((sampleCode pos c o raw * (2 ^ (24 - converterBits pos) : Nat)) % (2 ^ 24 : Nat)).toNat * 256 +
        packBits (sampleFlags d pos c o)) := by subst ho; rfl

theorem sampleWord_value (d : Dev) (pos : Nat) (c : Channel) (level : InputLevel) (raw : Int) {o : Option Bool}
    (ho : overloadSeen d pos c level = o) :
    (((d.sampleWord pos c level raw).toNat / 256 : Nat) : Int) = sampleCode pos c o raw * 2 ^ (24 - converterBits pos) % 2 ^ 24 := by
  have low : 0 ≤ sampleCode pos c o raw * (2 ^ (24 - converterBits pos) : Nat) % (2 ^ 24 : Nat) := Int.emod_nonneg _ (by decide)
  have high : sampleCode pos c o raw * (2 ^ (24 - converterBits pos) : Nat) % (2 ^ 24 : Nat) < (2 ^ 24 : Nat) := Int.emod_lt_of_pos _ (by decide)
  rw [sampleWord_eq d pos c level raw ho, flaggedWord_value (by omega) rfl, Int.toNat_of_nonneg low]
  push_cast
  rfl

theorem sampleWord_flag (d : Dev) (pos : Nat) (c : Channel) (level : InputLevel) (raw : Int) {o : Option Bool}
    (ho : overloadSeen d pos c level = o) {i : Nat} (hi : i < 4) :
    (d.sampleWord pos c level raw).getLsbD i = (sampleFlags d pos c o).getD i false := by
  rw [sampleWord_eq d pos c level raw ho, flaggedWord_flag _ rfl (by omega)]

/-! ## SAMPLE -/

/-- The device once a channel holds its new sample word. -/
def sampled (d : Dev) (pos : Fin 24) (level : InputLevel) (raw : Int) : Dev :=
  d.onChannel pos.val (fun c => { c with sample := d.sampleWord pos.val d.fe[pos] level raw })

/-- The device after a sample that is taken. -/
def sampleDev (d : Dev) (pos : Fin 24) (level : InputLevel) (raw : Int) : Dev :=
  ((sampled d pos level raw).calSample pos.val raw).rinseInput pos.val (d.sampleWord pos.val d.fe[pos] level raw)

theorem calSample_sample (pos : Fin 24) (d : Dev) (raw : Int) : (d.calSample pos.val raw).fe[pos].sample = d.fe[pos].sample := by
  unfold Dev.calSample
  rw [getElem?_toList_fin]
  dsimp only
  split
  · rfl
  · split
    · rfl
    · simp

theorem calSample_idle (pos : Fin 24) {d : Dev} (raw : Int) (hc : d.fe[pos].cal = none) : d.calSample pos.val raw = d := by
  unfold Dev.calSample
  rw [getElem?_toList_fin]
  simp only [hc]

variable {s : State} {t : Time} {raw : Int}

/-- SAMPLE by its cases. -/
theorem sample_exec : exec (.sample t pos { raw := raw, level := level }) s = .next { s with dev :=
    (if !(here s t).samples pos.val then here s t else sampleDev (here s t) pos level raw) } := rfl

theorem sample_taken (hs : (here s t).samples pos.val = true) : exec (.sample t pos { raw := raw, level := level }) s =
    .next { s with dev := sampleDev (here s t) pos level raw } := by
  simp only [sample_exec, hs, Bool.not_true, Bool.false_eq_true, if_false]

/-- A sample that is taken: its channel holds the word, and is otherwise as it was when it is not calibrating. -/
theorem sample_does {effect : Dev → Prop} (hs : (here s t).samples pos.val = true)
    (he : ∀ d w, w = (here s t).sampleWord pos.val s.dev.fe[pos] level raw → d.fe[pos].sample = w →
      (s.dev.fe[pos].cal = none → d.fe = s.dev.fe.set pos.val { s.dev.fe[pos] with sample := w }) → effect d) :
    Does (.sample t pos { raw := raw, level := level }) s t [.fe, .host, .rinse, .spool, .sram] effect := by
  let word := (here s t).sampleWord pos.val s.dev.fe[pos] level raw
  let d := sampled (here s t) pos level raw
  have fe : ((d.calSample pos.val raw).rinseInput pos.val word).fe = (d.calSample pos.val raw).fe := rinseInput_keeps _ _ _ .fe (by decide)
  have new : d.fe = s.dev.fe.set pos.val { s.dev.fe[pos] with sample := word } := updAt_fin _ _ _
  have channel : d.fe[pos] = { s.dev.fe[pos] with sample := word } := by rw [new]; exact Vector.getElem_set_self _
  refine does_of (sample_taken hs) ?_ (he _ word rfl ?_ fun hc => ?_)
  · exact Keeps.andThen (rinseInput_keeps _ _ _) (by decide)
      (Keeps.andThen (calSample_keeps _ _ _) (by decide) (Keeps.mono (onChannel_keeps _ _ _) (by decide)))
  · show ((d.calSample pos.val raw).rinseInput pos.val word).fe[pos].sample = word
    rw [fe, calSample_sample, channel]
  · exact fe.trans ((congrArg Dev.fe (calSample_idle pos raw (by rw [channel]; exact hc))).trans new)

theorem correctCode_eq (pos : Nat) (offset : Int) (gain : Nat) (raw : Int) : correctCode pos offset gain raw =
    clampInt (-(2 ^ (converterBits pos - 1))) (2 ^ (converterBits pos - 1) - 1) (divRoundAway ((raw - offset) * gain) 0x400000) := by
  simp only [correctCode, saturateCode, fullScale]
  push_cast
  rfl

theorem sample_within (hs : (here s t).samples pos.val = true) (h : s.dev.fe[pos].cal ≠ none ∨ Within (here s t) pos level) :
    let c := s.dev.fe[pos]
    let full : Int := 2 ^ (converterBits pos.val - 1)
    let code : Int := if c.cal.isSome then 0 else clampInt (-full) (full - 1) (divRoundAway ((raw - c.offset) * c.gain) 0x400000)
    Does (.sample t pos { raw := raw, level := level }) s t [.fe, .host, .rinse, .spool, .sram] (fun d =>
      let w := d.fe[pos].sample
      (w.toNat / 256 : Int) = code * 2 ^ (24 - converterBits pos.val) % 2 ^ 24 ∧
      w.getLsbD 1 = c.settle.any (fun x => x.has (instant s t)) ∧ w.getLsbD 2 = false ∧ w.getLsbD 3 = c.cal.isSome ∧
      w.getLsbD 0 = (c.cal.isSome || (here s t).departed pos.val || ((here s t).taints pos.val).any (fun x => x.has (instant s t))) ∧
      (c.cal = none → d.fe = s.dev.fe.set pos.val { c with sample := w })) := by
  intro c full code
  have seen : overloadSeen (here s t) pos.val c level = none := by
    by_cases hc : c.cal.isSome = true
    · simp only [overloadSeen, hc, if_true]
    · have idle : c.cal = none := by simpa using hc
      simp only [overloadSeen, hc, Bool.false_eq_true, if_false, overloadAt_within (h.resolve_left (not_not.mpr idle))]
  have value : sampleCode pos.val c none raw = code := by simp only [sampleCode, correctCode_eq]; rfl
  refine sample_does hs fun d w hw sample fe => ?_
  rw [← sample] at hw fe
  have flag : ∀ {i}, i < 4 → d.fe[pos].sample.getLsbD i = (sampleFlags (here s t) pos.val c none).getD i false := fun hi => by
    rw [hw]; exact sampleWord_flag _ _ _ _ _ seen hi
  refine ⟨?_, flag (i := 1) (by decide), flag (i := 2) (by decide), flag (i := 3) (by decide), flag (i := 0) (by decide), fe⟩
  rw [← value, hw, ← sampleWord_value _ _ _ _ _ seen]
  rfl

theorem sample_beyond {neg : Bool} (hs : (here s t).samples pos.val = true) (hc : s.dev.fe[pos].cal = none)
    (h : Beyond (here s t) pos level neg) :
    let c := s.dev.fe[pos]
    let full : Int := 2 ^ (converterBits pos.val - 1)
    Does (.sample t pos { raw := raw, level := level }) s t [.fe, .host, .rinse, .spool, .sram] (fun d =>
      let w := d.fe[pos].sample
      (w.toNat / 256 : Int) = (if neg then -full else full - 1) * 2 ^ (24 - converterBits pos.val) % 2 ^ 24 ∧
      w.getLsbD 0 = true ∧ w.getLsbD 1 = c.settle.any (fun x => x.has (instant s t)) ∧ w.getLsbD 2 = true ∧ w.getLsbD 3 = false ∧
      d.fe = s.dev.fe.set pos.val { c with sample := w }) := by
  intro c full
  have idle : c.cal = none := hc
  have seen : overloadSeen (here s t) pos.val c level = some neg := by
    simp only [overloadSeen, idle, Option.isSome_none, Bool.false_eq_true, if_false, overloadAt_beyond h]
  have value : sampleCode pos.val c (some neg) raw = if neg then -full else full - 1 := by
    simp only [sampleCode, idle, Option.isSome_none, Bool.false_eq_true, if_false, fullScale, full]
    push_cast
    rfl
  refine sample_does hs fun d w hw sample fe => ?_
  rw [← sample] at hw fe
  have flag : ∀ {i}, i < 4 → d.fe[pos].sample.getLsbD i = (sampleFlags (here s t) pos.val c (some neg)).getD i false := fun hi => by
    rw [hw]; exact sampleWord_flag _ _ _ _ _ seen hi
  have calm : d.fe[pos].sample.getLsbD 3 = c.cal.isSome := flag (i := 3) (by decide)
  refine ⟨?_, flag (i := 0) (by decide), flag (i := 1) (by decide), flag (i := 2) (by decide), by rw [calm, idle]; rfl, fe hc⟩
  rw [← value, hw, ← sampleWord_value _ _ _ _ _ seen]
  rfl

/-- A chain that is not enabled, without a commit that could be due, skips its input (R273). -/
theorem rinseInput_skips {d : Dev} (word : BitVec 32) (he : d.rinse.chains[pos].enabled = false) (hp : d.rinse.chains[pos].pending = none) :
    d.rinseInput pos.val word = d.onChain pos.val (fun c => { c with skipped := c.skipped + 1 }) := by
  unfold Dev.rinseInput
  rw [rinseApply_of_pending_none hp]
  dsimp only
  rw [getElem?_toList_fin]
  simp only [he, Bool.not_false, Bool.true_or, if_true]

theorem sample_skipped (hs : (here s t).samples pos.val = true) (he : s.dev.rinse.chains[pos].enabled = false)
    (hp : s.dev.rinse.chains[pos].pending = none) :
    let c := s.dev.rinse.chains[pos]
    Does (.sample t pos { raw := raw, level := level }) s t [.fe, .rinse] (fun d =>
      d.rinse = { s.dev.rinse with chains := s.dev.rinse.chains.set pos.val { c with skipped := c.skipped + 1 } }) := by
  intro c
  let d := (sampled (here s t) pos level raw).calSample pos.val raw
  have before : Keeps [.fe] (here s t) d :=
    Keeps.andThen (calSample_keeps _ _ _) (fun _ hp => hp) (Keeps.mono (onChannel_keeps _ _ _) (by decide))
  have rinse : d.rinse = s.dev.rinse := before .rinse (by decide)
  have skips : sampleDev (here s t) pos level raw = d.onChain pos.val (fun c => { c with skipped := c.skipped + 1 }) :=
    rinseInput_skips _ (by rw [rinse]; exact he) (by rw [rinse]; exact hp)
  refine does_of ((sample_taken hs).trans (congrArg (fun d => Host.Outcome.next { s with dev := d }) skips)) ?_ ?_
  · exact Keeps.andThen (onChain_keeps _ _ _) (by decide) (Keeps.mono before (by decide))
  · rw [onChain_rinse, rinse, updAt_fin]

/-! ## OVERLOAD_START and OVERLOAD_END (R83, R84, R89, R802, R949) -/

/-- OVERLOAD_START by its cases. -/
theorem overloadStart_exec : exec (.overloadStart t pos level) s = .next { s with dev :=
    (if !(here s t).samples pos.val then here s t
    else match (here s t).overloadAt pos.val level with
      | none => here s t
      | some negative => (here s t).overloadStart pos negative) } := rfl

/-- OVERLOAD_END by its cases. -/
theorem overloadEnd_exec : exec (.overloadEnd t { pos := pos, level := level }) s = .next { s with dev :=
    (if !(here s t).samples pos.val || (s.dev.fe[pos].cal.isNone && ((here s t).overloadAt pos.val level).isSome) then here s t
    else (here s t).onChannel pos.val (fun c =>
      { c with episodes := c.episodes.map (fun w => if w.stop.isNone then { w with stop := some (instant s t) } else w) })) } := rfl

theorem offSample_nothing (hs : (here s t).samples pos.val = false) :
    Does (.sample t pos { raw := raw, level := level }) s t [] (fun _ => True) ∧ Does (.overloadStart t pos level) s t [] (fun _ => True) ∧
      Does (.overloadEnd t { pos := pos, level := level }) s t [] (fun _ => True) :=
  ⟨does_nothing (sample_exec.trans (by rw [hs]; rfl)), does_nothing (overloadStart_exec.trans (by rw [hs]; rfl)),
    does_nothing (overloadEnd_exec.trans (by rw [hs]; rfl))⟩

/-- No episode opens while one is open or during a calibration (R949, Table 02-7). -/
theorem overloadStart_open {d : Dev} (neg : Bool) (h : d.fe[pos].inOverload = true ∨ d.fe[pos].cal ≠ none) : d.overloadStart pos neg = d := by
  have shut : (d.fe[pos].inOverload || d.fe[pos].cal.isSome) = true := by
    rwa [Bool.or_eq_true, ← Option.ne_none_iff_isSome]
  simp only [Dev.overloadStart, shut, if_true]

theorem overloadStart_nothing (h : s.dev.fe[pos].inOverload = true ∨ s.dev.fe[pos].cal ≠ none ∨ Within (here s t) pos level) :
    Does (.overloadStart t pos level) s t [] (fun _ => True) := by
  refine does_nothing (overloadStart_exec.trans (congrArg (fun d => Host.Outcome.next { s with dev := d }) ?_))
  by_cases within : Within (here s t) pos level
  · simp only [overloadAt_within within, ite_self]
  · have shut : s.dev.fe[pos].inOverload = true ∨ s.dev.fe[pos].cal ≠ none := by
      obtain h | h | h := h
      · exact Or.inl h
      · exact Or.inr h
      · exact absurd h within
    split
    · rfl
    · split
      · rfl
      · exact overloadStart_open (d := here s t) _ shut

theorem overloadEnd_ends (hs : (here s t).samples pos.val = true) (h : s.dev.fe[pos].cal ≠ none ∨ Within (here s t) pos level) :
    let c := s.dev.fe[pos]
    let closed := c.episodes.map (fun w => if w.stop = none then { w with stop := some (instant s t) } else w)
    Does (.overloadEnd t { pos := pos, level := level }) s t [.fe] (fun d => d.fe = s.dev.fe.set pos.val { c with episodes := closed }) := by
  intro c closed
  have back : (s.dev.fe[pos].cal.isNone && ((here s t).overloadAt pos.val level).isSome) = false := by
    obtain h | h := h
    · rw [Option.ne_none_iff_isSome] at h
      rw [Option.isNone_eq_false_iff.mpr h, Bool.false_and]
    · rw [overloadAt_within h, Option.isSome_none, Bool.and_false]
  have ends : exec (.overloadEnd t { pos := pos, level := level }) s = .next { s with dev := (here s t).onChannel pos.val (fun c =>
      { c with episodes := c.episodes.map (fun w => if w.stop.isNone then { w with stop := some (instant s t) } else w) }) } := by
    simp only [overloadEnd_exec, hs, back, Bool.not_true, Bool.or_self, Bool.false_eq_true, if_false]
  refine does_of ends (onChannel_keeps _ _ _) ((updAt_fin _ _ _).trans ?_)
  simp only [Option.isNone_iff_eq_none]
  rfl

theorem overloadEnd_stays {neg : Bool} (hc : s.dev.fe[pos].cal = none) (h : Beyond (here s t) pos level neg) :
    Does (.overloadEnd t { pos := pos, level := level }) s t [] (fun _ => True) := by
  refine does_nothing (overloadEnd_exec.trans ?_)
  rw [hc, overloadAt_beyond h, Option.isNone_none, Option.isSome_some, Bool.and_self, Bool.or_true]
  rfl

end
end Sys2Proof.Proofs

namespace Sys2Proof.Proofs
open Machine Laws

/-! ## Pages that an event reaches -/

theorem holdersOnly_basket (d : Dev) (held : Grants → Bool) (b : Basket) : d.holdersOnly held b.val = held d.grants[b] := by
  simp only [Dev.holdersOnly, getElem?_toList_fin]

theorem onPages_page (d : Dev) (to_ : Nat → Bool) (f : Nat → Page → Page) (b : Basket) :
    (d.onPages to_ f).host.pages[b] = if to_ b.val then f b.val d.host.pages[b] else d.host.pages[b] := vmap_getElem _ _ _ _

theorem postHeld_page (d : Dev) (held : Grants → Bool) (e : Ev) (b : Basket) : (d.postHeld held e).host.pages[b] =
    if d.holders held b.val then d.host.pages[b].take (d.enabled b.val) d.now d.stamp e else d.host.pages[b] := onPages_page _ _ _ _

theorem Page.take_overload (p : Page) (on : Bool) (now : Time) (stamp : BitVec 64) (e : Ev) : (p.take on now stamp e).overload = p.overload := by
  unfold Page.take
  dsimp only
  split <;> rfl

/-- A record changes no interrupt bit but EVT_LOST (R797). -/
theorem Page.take_irqPending_other (p : Page) (on : Bool) (now : Time) (stamp : BitVec 64) (e : Ev) {i : Fin 13} (hi : i ≠ Irq.evtLost.bit) :
    (p.take on now stamp e).irqPending[i] = p.irqPending[i] := by
  unfold Page.take
  dsimp only
  split
  · rfl
  · rw [Page.raise_irqPending, if_neg hi]

/-- What a record makes of a FIFO depends on the FIFO and the records posted. -/
theorem Page.take_fifo_congr {p q : Page} (hf : q.fifo = p.fifo) (hp : q.posted = p.posted) (on : Bool) (now : Time) (stamp : BitVec 64) (e : Ev) :
    (q.take on now stamp e).fifo = (p.take on now stamp e).fifo := by
  unfold Page.take
  dsimp only
  rw [hf, hp]
  split <;> rfl

/-! ## An overload episode opens (R83, R89, R802, R949) -/

section
variable {pos : Fin 24} {level : InputLevel} {s : State} {t : Time}

/-- A new episode of a channel, counted. -/
def episodeOpened (d : Dev) (pos : Fin 24) : Dev :=
  d.onChannel pos.val (fun c => { c with episodes := { start := d.now, stop := none } :: c.episodes, overloads := c.overloads + 1 })

/-- The flag and the interrupt of the baskets that hold the channel. -/
def overloadFlagged (d : Dev) (pos : Fin 24) : Dev :=
  (d.onPages (d.holdersOnly (fun g => g.channels[pos])) (fun _ p =>
    { p with overload := p.overload.set pos true, overloadSetAt := p.overloadSetAt.set pos d.now })).raise
      (d.holdersOnly (fun g => g.channels[pos])) .overload

/-- The record of an overload start: EV_OVERLOAD with the sign and the counter. -/
def overloadEvent (pos : Fin 24) (neg : Bool) (count : BitVec 32) : Ev :=
  { event := .overload, subject := pos.val, data0 := neg.toNat, data1 := count.toNat }

theorem overloadStart_eq {d : Dev} (neg : Bool) (ho : d.fe[pos].inOverload = false) (hc : d.fe[pos].cal = none) : d.overloadStart pos neg =
    (overloadFlagged (episodeOpened d pos) pos).postHeld (fun g => g.channels[pos]) (overloadEvent pos neg (d.fe[pos].overloads + 1)) := by
  have counted : (episodeOpened d pos).fe[pos].overloads = d.fe[pos].overloads + 1 := by
    rw [episodeOpened, onChannel_fe, updAt_fin]
    exact congrArg Channel.overloads (Vector.getElem_set_self _)
  simp only [Dev.overloadStart, ho, hc, Option.isSome_none, Bool.or_self, Bool.false_eq_true, if_false]
  rw [overloadEvent, ← counted]
  rfl

/-- The page of a basket after an overload start, before its record. -/
theorem overloadFlagged_page (d : Dev) (b : Basket) :
    let p := (overloadFlagged d pos).host.pages[b]
    p.overload[pos] = (d.host.pages[b].overload[pos] || d.grants[b].channels[pos]) ∧
    p.irqPending[Irq.overload.bit] = (d.host.pages[b].irqPending[Irq.overload.bit] || d.grants[b].channels[pos]) ∧
    p.fifo = d.host.pages[b].fifo ∧ p.posted = d.host.pages[b].posted := by
  intro p
  have page : p = if d.grants[b].channels[pos] then
      ({ d.host.pages[b] with overload := d.host.pages[b].overload.set pos true,
                              overloadSetAt := d.host.pages[b].overloadSetAt.set pos d.now } : Page).raise .overload d.now
      else d.host.pages[b] := by
    show (Dev.raise _ _ _).host.pages[b] = _
    rw [Dev.raise, onPages_page, onPages_page, holdersOnly_basket]
    split <;> rfl
  rw [page]
  by_cases held : d.grants[b].channels[pos] = true
  · simp only [held, if_true, Bool.or_true]
    exact ⟨Vector.getElem_set_self _, (Page.raise_irqPending _ _ _ _).trans (if_pos rfl), rfl, rfl⟩
  · simp only [held, Bool.false_eq_true, if_false, Bool.or_false, and_self]

theorem overloadStart_starts {neg : Bool} (hs : (here s t).samples pos.val = true) (ho : s.dev.fe[pos].inOverload = false)
    (hc : s.dev.fe[pos].cal = none) (h : Beyond (here s t) pos level neg) :
    let c := s.dev.fe[pos]
    let held := fun g : Grants => g.channels[pos]
    Does (.overloadStart t pos level) s t [.fe, .host] (fun d =>
      d.fe = s.dev.fe.set pos.val { c with episodes := { start := instant s t, stop := none } :: c.episodes, overloads := c.overloads + 1 } ∧
      (∀ b : Basket, d.host.pages[b].overload[pos] = (s.dev.host.pages[b].overload[pos] || held (s.dev.grants[b])) ∧
        d.host.pages[b].irqPending[7] = (s.dev.host.pages[b].irqPending[7] || held (s.dev.grants[b])) ∧
        d.host.pages[b].fifo = ((here s t).postHeld held { event := .overload, subject := pos.val, data0 := neg.toNat,
                                                           data1 := (c.overloads + 1).toNat }).host.pages[b].fifo)) := by
  intro c held
  let e := overloadEvent pos neg (c.overloads + 1)
  let flagged := overloadFlagged (episodeOpened (here s t) pos) pos
  have starts : exec (.overloadStart t pos level) s = .next { s with dev := flagged.postHeld held e } := by
    simp only [overloadStart_exec, hs, overloadAt_beyond h, Bool.not_true, Bool.false_eq_true, if_false]
    rw [overloadStart_eq (d := here s t) neg ho hc]
    rfl
  have flags : Keeps [.host] (episodeOpened (here s t) pos) flagged :=
    Keeps.andThen (raise_keeps _ _ _) (fun _ hp => hp) (onPages_keeps _ _ _)
  have frame : Keeps [.fe, .host] (here s t) (flagged.postHeld held e) :=
    Keeps.andThen (postHeld_keeps _ _ _) (by decide) (Keeps.andThen flags (by decide) (Keeps.mono (onChannel_keeps _ _ _) (by decide)))
  refine does_of starts frame ⟨?_, fun b => ?_⟩
  · exact ((postHeld_keeps flagged held e) .fe (by decide)).trans ((flags .fe (by decide)).trans (updAt_fin _ _ _))
  · obtain ⟨overload, irq, fifo, posted⟩ := overloadFlagged_page (pos := pos) (episodeOpened (here s t) pos) b
    have holders : flagged.holders held = (here s t).holders held := rfl
    have enabled : flagged.enabled b.val = (here s t).enabled b.val := rfl
    have stamp : flagged.stamp = (here s t).stamp := rfl
    rw [postHeld_page, postHeld_page, holders, enabled, stamp]
    split
    · exact ⟨(congrArg (·[pos]) (Page.take_overload _ _ _ _ _)).trans overload, (Page.take_irqPending_other _ _ _ _ _ (by decide)).trans irq,
        Page.take_fifo_congr fifo posted _ _ _ _⟩
    · exact ⟨overload, irq, fifo⟩

end

/-- Settles O32: a sample word by the overload that its channel sees, an episode by the row that opens it and the row that closes it. -/
theorem sampleRows : Obligations.SampleRows := by
  unfold Obligations.SampleRows
  refine ⟨?_, ?_, ?_, ?_, ?_, ?_, ?_, ?_⟩
  · intro s t pos level raw hs h
    exact sample_within hs h
  · intro s t pos level raw neg hs hc h
    exact sample_beyond hs hc h
  · intro s t pos level raw hs he hp
    exact sample_skipped hs he hp
  · intro s t pos level raw hs
    exact offSample_nothing hs
  · intro s t pos level neg hs ho hc h
    exact overloadStart_starts hs ho hc h
  · intro s t pos level h
    exact overloadStart_nothing h
  · intro s t pos level hs h
    exact overloadEnd_ends hs h
  · intro s t pos level neg hc h
    exact overloadEnd_stays hc h

end Sys2Proof.Proofs

namespace Sys2Proof.Proofs
open Machine Laws

/-! ## Commands marked block (R817, R818) -/

/-- A range that begins in a unit which the basket does not hold is not held. -/
theorem range_unheld {g : Grants} {a : Nat} (n : Nat) (h : g.unit (unitOf a) = false) : g.range a n = false := by
  have unheld : (List.range ((a + (n - 1)) / 65536 - a / 65536 + 1)).all (fun i => g.unit (a / 65536 + i)) = false :=
    List.all_eq_false.mpr ⟨0, by simp, by simpa [unitOf] using h⟩
  rw [Grants.range, unheld, Bool.and_false]

theorem range_inside {g : Grants} {a n : Nat} (h : g.range a n = true) : a + n ≤ sramSize := by
  simp only [Grants.range, Bool.and_eq_true, decide_eq_true_eq] at h
  exact h.1.1

section
variable {i : Instr} {s : State} {t : Time} {b : Basket} {code : Word} {sup : Bool} {names : Ctx → Dev → Bool}
  {range : Ctx → Dev → Option Err} {report : Ctx → Dev → List Byte} {items : List Byte}

@[simp] theorem operands_report : (operands s t b).report = arg32 s b 6 := operands_arg32 6

/-- The device once basket b has accepted a command of this code. -/
def accepted (code : Word) (s : State) (t : Time) (b : Basket) : Dev := (here s t).onPage b (fun p => p.accept code (instant s t))

theorem blockCommand_names (x : Ctx) (d : Dev) : (blockCommand code sup names range report).names x d =
    (names x d && x.memory d x.report (report x d).length) := rfl

theorem blockCommand_range (x : Ctx) (d : Dev) : (blockCommand code sup names range report).range x d =
    firstErr [argRange (x.report % 4 == 0), range x d] := rfl

theorem blockCommand_act (x : Ctx) (d : Dev) : (blockCommand code sup names range report).act x d =
    ((d.memWrite x.report (report x d)).onFree (· + 16), .ok [BitVec.ofNat 16 (report x d).length]) := rfl

/-- A block command that passes its checks stores its report and answers its length. -/
theorem blockCommand_reports (hi : exec i s = hostCommand (blockCommand code sup names range report) t b s) (hs : Starts s b)
    (hw : s.dev.pwr.state = .watch → watchAccepts code = true) (h0 : sup = true → b = 0)
    (hn : names (operands s t b) (accepted code s t b) = true) (hr : range (operands s t b) (accepted code s t b) = none)
    (hitems : report (operands s t b) (accepted code s t b) = items) (room : Room s b items.length) : Reports i s t b items := by
  obtain ⟨aligned, held⟩ := room
  let c := blockCommand code sup names range report
  let d := accepted code s t b
  have named : c.names (operands s t b) d = true := by
    have memory : (operands s t b).memory d (arg32 s b 6) items.length = true := held
    rw [blockCommand_names, hn, hitems, operands_report, memory, Bool.and_self]
  have ranged : c.range (operands s t b) d = none := by
    rw [blockCommand_range, hr, operands_report, aligned]
    rfl
  have acted : c.act (operands s t b) d = ((d.memWrite (arg32 s b 6) items).onFree (· + 16), .ok [BitVec.ofNat 16 items.length]) := by
    rw [blockCommand_act, hitems, operands_report]
  refine completes_results (c := c) hi hs (judge_none _ _ _ h0 named rfl ranged hw (fun h => by cases h) rfl) acted rfl
    (Keeps.andThen (onFree_keeps _ _) (by decide) (Keeps.mono (memWrite_keeps _ _ _) (by decide))) (by decide) ⟨?_, ?_⟩
  · exact Sram.bytes_setBytes_same _ _ _ (range_inside held)
  · exact Sram.unchangedOutside_setBytes _ _ _

/-- The same outside WATCH. -/
theorem blockCommand_reports_awake (hi : exec i s = hostCommand (blockCommand code sup names range report) t b s) (hs : StartsAwake s b)
    (h0 : sup = true → b = 0) (hn : names (operands s t b) (accepted code s t b) = true)
    (hr : range (operands s t b) (accepted code s t b) = none) (hitems : report (operands s t b) (accepted code s t b) = items)
    (room : Room s b items.length) : Reports i s t b items :=
  blockCommand_reports hi hs.1 (fun h => absurd h hs.2) h0 hn hr hitems room

/-- Entering a violation leaves the pages, and what it makes of the log does not depend on them. -/
theorem logViolation_pages (h : HostSide) (pages : Vector Page 4) (stamp : BitVec 64) (b : Basket) (kind : BitVec 4) (addr : Nat) :
    ({ h with pages := pages } : HostSide).logViolation stamp b kind addr = { h.logViolation stamp b kind addr with pages := pages } := by
  unfold HostSide.logViolation
  dsimp only
  split
  · split
    · rfl
    · split <;> rfl
  · rfl

/-- A page that counts one more violation (R735). -/
def countViolation (p : Page) : Page := { p with violations := p.violations + 1 }

/-- A violation of basket 0 is counted on its page and logged. -/
theorem violate_zero_host (d : Dev) (kind : BitVec 4) (addr : Nat) : (d.violate 0 kind addr).host =
    { d.host.logViolation d.stamp 0 kind addr with pages := d.host.pages.set 0 (countViolation d.host.pages[0]) } :=
  logViolation_pages d.host (d.host.pages.set 0 (countViolation d.host.pages[0])) d.stamp 0 kind addr

/-- The page of a command that basket 0 may not give: that of any refusal, over the violation (R730, R778). -/
theorem violate_complete_host (n : Nat) :
    (((accepted code s t 0).violate 0 5 n).complete 0 (refusal .noSuch)).host =
      doneHost ((here s t).violate 0 5 n).host 0 Err.noSuch.code 0 0 0 0 (instant s t) := by
  have completed : ∀ d : Dev, (d.complete 0 (refusal .noSuch)).host =
      { d.host with pages := d.host.pages.set 0 (d.host.pages[0].complete (refusal .noSuch) d.now) } := fun _ => rfl
  have now : ((accepted code s t 0).violate 0 5 n).now = instant s t := rfl
  have logged : (accepted code s t 0).host.logViolation (accepted code s t 0).stamp 0 5 n =
      { (here s t).host.logViolation (here s t).stamp 0 5 n with
        pages := (here s t).host.pages.set 0 ((here s t).host.pages[0].accept code (instant s t)) } := logViolation_pages _ _ _ _ _ _
  have page : (accepted code s t 0).host.pages = (here s t).host.pages.set 0 ((here s t).host.pages[0].accept code (instant s t)) := rfl
  have ended : ∀ h : HostSide, doneHost h 0 Err.noSuch.code 0 0 0 0 (instant s t) =
      { h with pages := h.pages.set 0 (donePage h.pages[0] Err.noSuch.code 0 0 0 0 (instant s t)) } := fun _ => rfl
  rw [completed, now, violate_zero_host, logged, page, ended, violate_zero_host]
  simp only [Vector.getElem_set_self, Vector.set_set]
  rfl

/-- A block command with its report outside the grant of basket 0 is refused with E_NO_SUCH (R812, R817). -/
theorem blockCommand_refused (hi : exec i s = hostCommand (blockCommand code sup names range report) t 0 s) (hs : Starts s 0)
    (hu : s.dev.grants[(0 : Basket)].unit (unitOf (arg32 s 0 6)) = false) : NoSuch i s t 0 code := by
  let c := blockCommand code sup names range report
  have unnamed : c.names (operands s t 0) (accepted code s t 0) = false := by
    have memory : ∀ n, (operands s t 0).memory (accepted code s t 0) (arg32 s 0 6) n = false := fun n => range_unheld n hu
    show (names _ _ && (operands s t 0).memory _ (operands s t 0).report _) = false
    rw [operands_report, memory, Bool.and_false]
  have refused : c.judge (operands s t 0) (accepted code s t 0) = some .noSuch := by
    have sup : (c.sup && (operands s t 0).b != 0) = false := Bool.and_false _
    simp only [Command.judge, sup, unnamed, Bool.not_false, Bool.false_eq_true, if_false, if_true]
  refine ⟨_, hi.trans (hostCommand_refused c s t 0 .noSuch hs refused), rfl, rfl, rfl, ?_, violate_complete_host code.toNat⟩
  have violated : Keeps [.host] (here s t) ((accepted code s t 0).violate 0 5 code.toNat) :=
    Keeps.andThen (violate_keeps _ _ _ _) (fun _ hp => hp) (onPage_keeps _ _ _)
  exact Keeps.andThen (complete_keeps _ _ _) (fun _ hp => hp) violated

end
end Sys2Proof.Proofs

namespace Sys2Proof.Proofs
open Machine Laws

/-! ## The reports (Table 16-3): each command at the device that has accepted it, which reads as the device before -/

section
variable {s : State} {t : Time} {b : Basket}

theorem tedsLog_reports (l : Fin 4) (hs : StartsAwake s 0) (h0 : arg s 0 0 = l.val) :
    let line := s.dev.teds.lines[l]
    let items := w32 line.overwrites.toNat ++ line.log.flatMap TedsEntry.bytes ++ List.replicate (24 * (16 - line.log.length)) 0
    Room s 0 items.length → Reports (.tedsLog t 0) s t 0 items := by
  intro line items room
  refine blockCommand_reports_awake rfl hs (fun _ => rfl) rfl ?_ ?_ room
  · simp [argRange, h0]
  · show (match s.dev.teds.lines.toList[arg s 0 0]? with | none => _ | some l => _) = items
    rw [h0, getElem?_toList_fin]

theorem tachStatus_reports (i : Fin 4) (hs : Starts s b) (hh : Held s b .tachs i.val) (h0 : arg s b 0 = i.val)
    (room : Room s b ((here s t).tachReport i).length) : Reports (.tachStatus t b) s t b ((here s t).tachReport i) := by
  refine blockCommand_reports rfl hs (fun _ => rfl) (fun h => by cases h) ?_ rfl ?_ room
  · show (operands s t b).tach _ (arg s b 0) = true
    rw [h0]
    exact hh
  · have exists_ : (operands s t b).arg 0 < 4 := by rw [operands_arg, h0]; exact i.isLt
    have named : (⟨(operands s t b).arg 0, exists_⟩ : Fin 4) = i := Fin.ext h0
    simp only [exists_, dif_pos, named]
    rfl

/-- The items of WR_STATUS. -/
theorem wrReport_eq (d : Dev) (ch : Fin 16) (staged : Bool) : d.wrReport ch.val staged =
    let v := (if staged = true then d.wr.staged else d.wr.live).vibs[ch]
    w32 v.plan.val ++ w32 v.count.toNat ++ w32 d.wr.clips[ch].toNat ++ w32 (d.wr.pending.any (fun p => p.mask[ch])).toNat ++ w32 v.gain ++
      w32 v.ac.toNat := by
  let v := (if staged = true then d.wr.staged else d.wr.live).vibs[ch]
  have pending : (match d.wr.pending with | none => false | some p => bit p.mask.toNat ch.val) = d.wr.pending.any (fun p => p.mask[ch]) := by
    cases d.wr.pending with
    | none => rfl
    | some p => exact bit_toNat _ _
  rw [Dev.wrReport, getElem?_toList_fin, at?_fin]
  exact congrArg (fun x => w32 v.plan.val ++ w32 v.count.toNat ++ w32 d.wr.clips[ch].toNat ++ w32 x.toNat ++ w32 v.gain ++ w32 v.ac.toNat) pending

theorem wrStatus_reports (ch : Fin 16) (hs : Starts s b) (hh : Held s b .channels ch.val) (h0 : arg s b 0 = ch.val) :
    let set := if argBit s b 1 0 = true then s.dev.wr.staged else s.dev.wr.live
    let v := set.vibs[ch]
    let pending := s.dev.wr.pending.any (fun p => p.mask[ch])
    let items := w32 v.plan.val ++ w32 v.count.toNat ++ w32 s.dev.wr.clips[ch].toNat ++ w32 pending.toNat ++ w32 v.gain ++ w32 v.ac.toNat
    Room s b items.length → Reports (.wrStatus t b) s t b items := by
  intro set v pending items room
  refine blockCommand_reports rfl hs (fun _ => rfl) (fun h => by cases h) ?_ rfl ?_ room
  · show (decide (arg s b 0 < 16) && (operands s t b).channel _ (arg s b 0)) = true
    rw [h0, decide_eq_true ch.isLt]
    exact hh
  · show (accepted _ s t b).wrReport (arg s b 0) _ = items
    rw [h0, wrReport_eq]
    rfl

theorem rnStatus_reports (pos : Fin 24) (hs : StartsAwake s b) (hh : Held s b .channels pos.val) (h0 : arg s b 0 = pos.val) :
    let c := s.dev.rinse.chains[pos]
    let items := ringReport s.dev.free c.rings[b] ++ w64 c.epochIn.toNat ++ w64 c.epochOut.toNat ++ w64 c.totalIn.toNat ++ w64 c.skipped.toNat ++
      w64 c.totalOut.toNat ++ w32 (packBits [c.pending.isSome, c.swapArmed]) ++ c.settingsReport (argBit s b 1 0) s.dev.rinse.source
    Room s b items.length → Reports (.rnStatus t b) s t b items := by
  intro c items room
  refine blockCommand_reports_awake rfl hs (fun h => by cases h) ?_ rfl ?_ room
  · show (operands s t b).channel _ (arg s b 0) = true
    rw [h0]
    exact hh
  · show (accepted _ s t b).rnReport (arg s b 0) b (argBit s b 1 0) = items
    rw [h0, Dev.rnReport, getElem?_toList_fin]
    rfl

/-- The tile that ARG0 names. -/
theorem operands_tileArg (i : Fin 48) (h0 : arg s b 0 = i.val) : (operands s t b).tileArg = i := by
  rw [Ctx.tileArg, operands_arg, h0, Fin.ofNat_val_eq_self]

theorem prStatus_reports (i : Fin 48) (hs : StartsAwake s b) (hh : Held s b .tiles i.val) (h0 : arg s b 0 = i.val)
    (room : Room s b ((here s t).prReport i).length) : Reports (.prStatus t b) s t b ((here s t).prReport i) := by
  refine blockCommand_reports_awake rfl hs (fun h => by cases h) ?_ rfl ?_ room
  · show (operands s t b).tile _ (arg s b 0) = true
    rw [h0]
    exact hh
  · show (accepted _ s t b).prReport (operands s t b).tileArg = _
    rw [operands_tileArg i h0]
    rfl

theorem tileStatus_reports (i : Fin 48) (hs : StartsAwake s b) (hh : Held s b .tiles i.val) (h0 : arg s b 0 = i.val)
    (room : Room s b s.dev.tiles[i].report.length) : Reports (.tileStatus t b) s t b s.dev.tiles[i].report := by
  refine blockCommand_reports_awake rfl hs (fun h => by cases h) ?_ rfl ?_ room
  · show (operands s t b).tile _ (arg s b 0) = true
    rw [h0]
    exact hh
  · exact congrArg (fun j : Fin 48 => s.dev.tiles[j].report) (operands_tileArg i h0)

/-- The handle that ARG0 names. -/
theorem operands_handleArg (h : Handle) (h0 : arg s b 0 = h.val) : (operands s t b).handleArg = h := by
  rw [Ctx.handleArg, operands_arg, h0, Fin.ofNat_val_eq_self]

theorem ownsHandle_of {d : Dev} {h : Handle} {m : Model} (hm : d.models[h] = some m) : d.ownsHandle m.basket h.val = true := by
  simp only [Dev.ownsHandle, at?_fin, hm, beq_self_eq_true]

theorem mdStatus_reports (h : Handle) (m : Model) (hs : StartsAwake s b) (hm : s.dev.models[h] = some m) (hb : m.basket = b)
    (h0 : arg s b 0 = h.val) :
    let learning := m.learn.map (fun l => l.state.number)
    let items := w32 m.image.modelId.toNat ++ w32 m.state.number ++ w32 m.firstUnit ++ w32 m.unitCount ++ w32 m.wUs ++ w32 m.tags ++ w32 m.margin ++
      w32 (learning.getD (Config.noLearnState s.dev.free))
    Room s b items.length → Reports (.mdStatus t b) s t b items := by
  intro learning items room
  refine blockCommand_reports_awake rfl hs (fun h => by cases h) ?_ rfl ?_ room
  · show Dev.ownsHandle (accepted _ s t b) b (arg s b 0) = true
    rw [h0, ← hb]
    exact ownsHandle_of hm
  · show (accepted _ s t b).mdReport (operands s t b).handleArg = items
    have model : (accepted 0x0604 s t b).model h = some m := hm
    rw [operands_handleArg h h0, Dev.mdReport, model]
    simp only [items, learning]
    cases m.learn <;> rfl

theorem spLedger_reports (c : Basket) (hs : StartsAwake s b) (h0 : arg s b 0 = c.val) (hc : b = 0 ∨ c = b) :
    let items := s.dev.spool.device.report s.dev.spool.inFlight ++ s.dev.spool.baskets[c].report (s.dev.spool.inFlightOf c)
    Room s b items.length → Reports (.spLedger t b) s t b items := by
  intro items room
  refine blockCommand_reports_awake rfl hs (fun h => by cases h) rfl ?_ ?_ room
  · show argRange (decide (arg s b 0 < 4) && (b == 0 || arg s b 0 == b.val)) = none
    have own : (b == 0 || c.val == b.val) = true := by
      obtain rfl | rfl := hc
      · rfl
      · rw [beq_self_eq_true c.val, Bool.or_true]
    rw [h0, decide_eq_true c.isLt, own]
    rfl
  · show (accepted _ s t b).ledgerReport (arg s b 0) = items
    rw [h0, Dev.ledgerReport, at?_fin, Fin.ofNat_val_eq_self]
    rfl

theorem veStatus_reports (e : Fin 4) (hs : StartsAwake s b) (h0 : arg s b 0 = e.val) :
    let v := s.dev.spool.engines[e]
    let idle := w32 (Config.idleWord s.dev.free) ++ w32 (Config.idleWord (s.dev.free + 1))
    let working := (v.busy.map (fun x => w32 x.1.val ++ w32 x.2.1)).getD idle
    let items := working ++ w64 v.descriptors.toNat ++ w64 (v.cycles.toNat + (here s t).busyCycles v)
    Room s b items.length → Reports (.veStatus t b) s t b items := by
  intro v idle working items room
  refine blockCommand_reports_awake rfl hs (fun h => by cases h) rfl ?_ ?_ room
  · simp [argRange, h0]
  · show (accepted _ s t b).engineReport (arg s b 0) = items
    have busy : (match v.busy with | some (h, i, _) => w32 h.val ++ w32 i | none => idle) = working := by
      simp only [working]
      cases v.busy <;> rfl
    rw [h0, Dev.engineReport, at?_fin]
    exact congrArg (fun x => x ++ w64 v.descriptors.toNat ++ w64 (v.cycles.toNat + (here s t).busyCycles v)) busy

theorem lnStatus_reports (h : Handle) (hs : StartsAwake s b) (ho : Machine.Dev.ownsHandle s.dev b h.val = true) (h0 : arg s b 0 = h.val)
    (room : Room s b ((here s t).lnReport h).length) : Reports (.lnStatus t b) s t b ((here s t).lnReport h) := by
  refine blockCommand_reports_awake rfl hs (fun h => by cases h) ?_ rfl ?_ room
  · show Dev.ownsHandle (accepted _ s t b) b (arg s b 0) = true
    rw [h0]
    exact ho
  · show (accepted _ s t b).lnReport (operands s t b).handleArg = _
    rw [operands_handleArg h h0]
    rfl

theorem psStatus_reports (hs : StartsAwake s b) (room : Room s b ((here s t).psReport b).length) :
    Reports (.psStatus t b) s t b ((here s t).psReport b) :=
  blockCommand_reports_awake rfl hs (fun h => by cases h) rfl rfl rfl room

theorem lkStatus_reports (hs : StartsAwake s b) (room : Room s b ((here s t).linkReport (argBit s b 1 0)).length) :
    Reports (.lkStatus t b) s t b ((here s t).linkReport (argBit s b 1 0)) :=
  blockCommand_reports_awake rfl hs (fun h => by cases h) rfl rfl rfl room

theorem lkLog_reports (hs : StartsAwake s 0) (room : Room s 0 (here s t).linkLogReport.length) :
    Reports (.lkLog t 0) s t 0 (here s t).linkLogReport :=
  blockCommand_reports_awake rfl hs (fun _ => rfl) rfl rfl rfl room

theorem lkPartners_reports (p : Fin 64) (hs : StartsAwake s b) (h0 : arg s b 0 = p.val + 1)
    (room : Room s b s.dev.link.partners[p].report.length) : Reports (.lkPartners t b) s t b s.dev.link.partners[p].report := by
  refine blockCommand_reports_awake rfl hs (fun h => by cases h) rfl ?_ ?_ room
  · simp [argRange, h0]
  · show (match s.dev.link.partners.toList[arg s b 0 - 1]? with | none => _ | some p => _) = _
    rw [h0, Nat.add_sub_cancel, getElem?_toList_fin]

/-- The entries that a snapshot of the store holds come from the models, the SRAM and the store. -/
theorem snapshot_congr {d d' : Dev} (h : ∀ m l spec, d'.entryOf m l spec = d.entryOf m l spec) (ms : List (Handle × Model)) (x : Store) :
    d'.snapshot ms x = d.snapshot ms x := by
  induction ms generalizing x with
  | nil => rfl
  | cons m ms ih =>
    obtain ⟨n, m⟩ := m
    unfold Dev.snapshot
    split
    · rw [h, ih]
    · exact ih x

theorem accepted_namedEntry (code : Word) (id : Nat) : (accepted code s t b).namedEntry b id = (here s t).namedEntry b id := by
  unfold Dev.namedEntry
  exact congrArg (fun x : Store => (x.area b).1.find? _) 
    (snapshot_congr (d := here s t) (d' := accepted code s t b) (fun _ _ _ => rfl) (here s t).loaded s.dev.store)

theorem psLog_reports (e : Entry) (hs : StartsAwake s b) (he : (here s t).namedEntry b (arg32 s b 0) = some e) :
    let items := w32 e.log.length ++ e.log.flatMap PatchLog.bytes
    Room s b items.length → Reports (.psLog t b) s t b items := by
  intro items room
  have a0 : (operands s t b).arg32 0 = arg32 s b 0 := operands_arg32 0
  have named : (accepted 0x0712 s t b).namedEntry b ((operands s t b).arg32 0) = some e := by rw [a0, accepted_namedEntry, he]
  refine blockCommand_reports_awake rfl hs (fun h => by cases h) ?_ rfl ?_ room
  · show ((accepted _ s t b).namedEntry b ((operands s t b).arg32 0)).isSome = true
    rw [named]
    rfl
  · show (match (accepted _ s t b).namedEntry b ((operands s t b).arg32 0) with | none => _ | some e => _) = items
    rw [named]

/-- The counters of a page that BK_STATUS reports, once a command has been accepted. -/
theorem accepted_counters (code : Word) (c : Basket) : (accepted code s t b).host.pages[c].violations = (here s t).host.pages[c].violations ∧
    (accepted code s t b).host.pages[c].busConflicts = (here s t).host.pages[c].busConflicts := by
  show (upd (here s t).host.pages b _)[c].violations = _ ∧ (upd (here s t).host.pages b _)[c].busConflicts = _
  by_cases h : c = b
  · subst h
    rw [upd_same]
    exact ⟨rfl, rfl⟩
  · rw [upd_other _ _ _ _ h]
    exact ⟨rfl, rfl⟩

theorem bkStatus_reports (c : Basket) (hs : Starts s 0) (h0 : arg s 0 0 = c.val) (room : Room s 0 ((here s t).basketReport c).length) :
    Reports (.bkStatus t 0) s t 0 ((here s t).basketReport c) := by
  refine blockCommand_reports rfl hs (fun _ => rfl) (fun _ => rfl) rfl ?_ ?_ room
  · simp [argRange, h0]
  · have target : grantTarget (operands s t 0) = c := by rw [grantTarget, operands_arg, h0, Fin.ofNat_val_eq_self]
    obtain ⟨violations, conflicts⟩ := accepted_counters (s := s) (t := t) (b := 0) 0x0A03 c
    show (accepted 0x0A03 s t 0).basketReport (grantTarget (operands s t 0)) = _
    rw [target, Dev.basketReport, Dev.basketReport]
    simp only [violations, conflicts]
    rfl

end

/-- Settles O39: one rule for a block command that passes its checks and one for a report outside the grant; each command by its report. -/
theorem blockReports : Obligations.BlockReports := by
  unfold Obligations.BlockReports
  refine ⟨?_, ?_, ?_, ?_, ?_, ?_, ?_, ?_, ?_, ?_, ?_, ?_, ?_, ?_, ?_, ?_, ?_⟩
  · intro s t l _ _ hs h0 room
    exact tedsLog_reports l hs h0 room
  · intro s t b i _ hs hh h0 room
    exact tachStatus_reports i hs hh h0 room
  · intro s t b ch _ _ _ _ hs hh h0 room
    exact wrStatus_reports ch hs hh h0 room
  · intro s t b pos _ _ hs hh h0 room
    exact rnStatus_reports pos hs hh h0 room
  · intro s t b i _ hs hh h0 room
    exact prStatus_reports i hs hh h0 room
  · intro s t b i _ hs hh h0 room
    exact tileStatus_reports i hs hh h0 room
  · intro s t b h m _ _ hs hm hb h0 room
    exact mdStatus_reports h m hs hm hb h0 room
  · intro s t b c _ hs h0 hc room
    exact spLedger_reports c hs h0 hc room
  · intro s t b e _ _ _ _ hs h0 room
    exact veStatus_reports e hs h0 room
  · intro s t b h _ hs ho h0 room
    exact lnStatus_reports h hs ho h0 room
  · intro s t b _ hs room
    exact psStatus_reports hs room
  · intro s t b e _ hs he room
    exact psLog_reports e hs he room
  · intro s t b _ hs room
    exact lkStatus_reports hs room
  · intro s t b p _ hs h0 room
    exact lkPartners_reports p hs h0 room
  · intro s t _ hs room
    exact lkLog_reports hs room
  · intro s t c _ hs h0 room
    exact bkStatus_reports c hs h0 room
  · intro s t b hs hu _ hb
    subst hb
    have refused : ∀ {i code sup names range report}, exec i s = hostCommand (blockCommand code sup names range report) t 0 s →
        NoSuch i s t 0 code := fun hi => blockCommand_refused hi hs hu
    simp only [List.forall_mem_cons, List.not_mem_nil, false_imp_iff, implies_true, and_true]
    exact ⟨refused rfl, refused rfl, refused rfl, refused rfl, refused rfl, refused rfl, refused rfl, refused rfl, refused rfl, refused rfl,
      refused rfl, refused rfl, refused rfl, refused rfl, refused rfl, refused rfl⟩

end Sys2Proof.Proofs

namespace Sys2Proof.Proofs
open Machine Laws

/-! ## TACH_SET, TACH_SET_LOOP, TACH_SET_INDEX (R119, R137 to R139, Table 03-6) -/

section
variable {s : State} {t : Time} {i : Fin 4}

/-- A command of basket 0 that stages settings of the tach input that ARG0 names, which it holds. -/
theorem completes_stageTach {x : Instr} {c : Command} {f : TachSet → TachSet} (hx : exec x s = hostCommand c t 0 s) (hs : StartsAwake s 0)
    (hh : Held s 0 .tachs i.val) (h0 : arg s 0 0 = i.val) (h1 : c.names = fun x d => x.tach d (x.arg 0))
    (h2 : c.zero (operands s t 0) (judged c s t 0) = false) (h3 : c.range (operands s t 0) (judged c s t 0) = none)
    (h4 : c.state (operands s t 0) (judged c s t 0) = none)
    (ha : c.act (operands s t 0) (judged c s t 0) = ((judged c s t 0).stageTach (arg s 0 0) f, .ok [])) :
    Completes x s t 0 0 0 0 0 [.wr] (fun d => d.wr = { s.dev.wr with
      staged := { s.dev.wr.staged with tachs := s.dev.wr.staged.tachs.set i.val (f s.dev.wr.staged.tachs[i]) } }) := by
  refine completes_stageWr (f := fun w => { w with tachs := w.tachs.set i.val (f w.tachs[i]) }) hx hs ?_ h2 h3 h4 (ha.trans ?_)
  · rw [h1]
    show (operands s t 0).tach _ (arg s 0 0) = true
    rw [h0]
    exact hh
  · simp only [h0, Dev.stageTach, updAt_fin]
    rfl

theorem tachSet_stages (hs : StartsAwake s 0) (hh : Held s 0 .tachs i.val) (h0 : arg s 0 0 = i.val)
    (hres : 6 ≤ arg s 0 1 / 8 % 32 ∧ arg s 0 1 / 8 % 32 ≤ 16) (hlim : 1 ≤ arg s 0 1 / 256 % 16 ∧ arg s 0 1 / 256 % 16 ≤ 8)
    (hppr : 1 ≤ arg s 0 2 ∧ arg s 0 2 ≤ 1024) (hlo : 10 ≤ arg32 s 0 5 ∧ arg32 s 0 5 ≤ arg32 s 0 3)
    (hhi : 10 ≤ arg32 s 0 3 ∧ arg32 s 0 3 ≤ 100000) (hrate : 2 ^ (arg s 0 1 / 8 % 32) * arg32 s 0 3 ≤ 256000000) :
    let x := { s.dev.wr.staged.tachs[i] with
      mode := tachModeOf (arg s 0 1 % 4), logRes := arg s 0 1 / 8 % 32, freewheelLimit := arg s 0 1 / 256 % 16, ppr := arg s 0 2,
      maxRate := arg32 s 0 3, minRate := arg32 s 0 5 }
    Completes (.tachSet t 0) s t 0 0 0 0 0 [.wr]
      (fun d => d.wr = { s.dev.wr with staged := { s.dev.wr.staged with tachs := s.dev.wr.staged.tachs.set i.val x } }) := by
  have a3 : (operands s t 0).arg32 3 = arg32 s 0 3 := operands_arg32 3
  have a5 : (operands s t 0).arg32 5 = arg32 s 0 5 := operands_arg32 5
  have ppr : arg s 0 2 ≠ 0 := by omega
  refine completes_stageTach (c := cmdTachSet) (f := fun x => { x with
      mode := tachModeOf (arg s 0 1 % 4), logRes := arg s 0 1 / 8 % 32, freewheelLimit := arg s 0 1 / 256 % 16, ppr := arg s 0 2,
      maxRate := arg32 s 0 3, minRate := arg32 s 0 5 }) rfl hs hh h0 rfl ?_ ?_ rfl ?_
  · simp [cmdTachSet, ppr]
  · simp [cmdTachSet, argRange, bits, a3, a5, hres, hlim, hppr, hlo, hhi, hrate]
  · simp [cmdTachSet, bits, a3, a5]

theorem tachSetLoop_stages (hs : StartsAwake s 0) (hh : Held s 0 .tachs i.val) (h0 : arg s 0 0 = i.val)
    (hbw : 1 ≤ arg s 0 1 ∧ arg s 0 1 ≤ 500) (hamax : 1 ≤ arg s 0 2 ∧ arg s 0 2 ≤ 50000) (hetol : 1 ≤ arg s 0 3 ∧ arg s 0 3 ≤ 50)
    (hhyst : 1 ≤ arg s 0 4 ∧ arg s 0 4 ≤ 50) (hflood : 50 ≤ arg s 0 5 ∧ arg s 0 5 ≤ 98)
    (hfall : 1000 ≤ arg32 s 0 6 ∧ arg32 s 0 6 ≤ 60000000) :
    let x := { s.dev.wr.staged.tachs[i] with bw := arg s 0 1, amax := arg s 0 2, etol := arg s 0 3, hysteresis := arg s 0 4,
                                             floodThreshold := arg s 0 5, fallback := arg32 s 0 6 }
    Completes (.tachSetLoop t 0) s t 0 0 0 0 0 [.wr]
      (fun d => d.wr = { s.dev.wr with staged := { s.dev.wr.staged with tachs := s.dev.wr.staged.tachs.set i.val x } }) := by
  have a6 : (operands s t 0).arg32 6 = arg32 s 0 6 := operands_arg32 6
  refine completes_stageTach (c := cmdTachSetLoop) (f := fun x => { x with
      bw := arg s 0 1, amax := arg s 0 2, etol := arg s 0 3, hysteresis := arg s 0 4, floodThreshold := arg s 0 5,
      fallback := arg32 s 0 6 }) rfl hs hh h0 rfl rfl ?_ rfl ?_
  · simp [cmdTachSetLoop, argRange, a6, hbw, hamax, hetol, hhyst, hflood, hfall]
  · simp [cmdTachSetLoop, a6]

theorem tachSetIndex_stages (hs : StartsAwake s 0) (hh : Held s 0 .tachs i.val) (h0 : arg s 0 0 = i.val) (h2 : arg s 0 2 ≤ 0x100) :
    let id : Option (BitVec 8) := if arg s 0 2 = 0x100 then none else some (BitVec.ofNat 8 (arg s 0 2))
    let x := { s.dev.wr.staged.tachs[i] with indexOn := argBit s 0 1 0, expected := id }
    Completes (.tachSetIndex t 0) s t 0 0 0 0 0 [.wr]
      (fun d => d.wr = { s.dev.wr with staged := { s.dev.wr.staged with tachs := s.dev.wr.staged.tachs.set i.val x } }) := by
  intro id x
  refine completes_stageTach (c := cmdTachSetIndex) (f := fun x => { x with indexOn := argBit s 0 1 0, expected := id }) rfl hs hh h0 rfl rfl ?_ rfl rfl
  show argRange (decide (arg s 0 2 ≤ 0x100)) = none
  rw [decide_eq_true h2]
  rfl

end

/-- Settles O33: one rule for a command that stages a tach input; each of the three by its ranges and its fields. -/
theorem tachSettings : Obligations.TachSettings := by
  unfold Obligations.TachSettings
  refine ⟨?_, ?_, ?_⟩
  · intro s t i res lim hi lo hs hh h0 hres hlim hppr hlo hhi hrate
    exact tachSet_stages hs hh h0 hres hlim hppr hlo hhi hrate
  · intro s t i hs hh h0 hbw hamax hetol hhyst hflood hfall
    exact tachSetLoop_stages hs hh h0 hbw hamax hetol hhyst hflood hfall
  · intro s t i hs hh h0 h2
    exact tachSetIndex_stages hs hh h0 h2

end Sys2Proof.Proofs

namespace Sys2Proof.Proofs
open Machine Laws

/-! ## One tach input (Table 17-6, Table 14-4) -/

section
variable {d d' : Dev} {i j : Fin 4} {s : State} {t : Time}

/-- The converters run in every state but OFF and RESET, unless the CLOCK fault is on (Table 17-6). -/
theorem here_sampling (hoff : s.dev.pwr.state ≠ .off) (hreset : s.dev.pwr.state ≠ .reset) (hclock : s.dev.pwr.fault ≠ some .clock) :
    (here s t).sampling = true := by
  have answers : (here s t).pwr.state.answers = true := answers_of _ hoff hreset
  have runs : ((here s t).pwr.fault != some .clock) = true := bne_iff_ne.mpr hclock
  rw [Dev.sampling, answers, runs]
  rfl

theorem onLoop_tachs (f : TachLoop → TachLoop) : (d.onLoop i f).tachs = upd d.tachs i (fun x => { x with loop := f x.loop }) := rfl

@[simp] theorem onLoop_wr (f : TachLoop → TachLoop) : (d.onLoop i f).wr = d.wr := rfl

theorem onLoop_same (f : TachLoop → TachLoop) : (d.onLoop i f).tachs[i] = { d.tachs[i] with loop := f d.tachs[i].loop } :=
  upd_same _ _ _

theorem onLoop_other (f : TachLoop → TachLoop) (h : j ≠ i) : (d.onLoop i f).tachs[j] = d.tachs[j] := upd_other _ _ _ _ h

theorem onTach_same (f : Tach → Tach) : (d.onTach i f).tachs[i] = f d.tachs[i] := upd_same _ _ _

theorem onTach_other (f : Tach → Tach) (h : j ≠ i) : (d.onTach i f).tachs[j] = d.tachs[j] := upd_other _ _ _ _ h

/-- A record of a tach input depends on the pages, the clock and the grants. -/
theorem postTach_host_congr (hh : d'.host = d.host) (hc : d'.clk = d.clk) (hg : d'.grants = d.grants) (stamp : BitVec 64) (e : Ev) :
    (d'.postTach i stamp e).host = (d.postTach i stamp e).host := by
  have to_ : d'.holders (fun g => g.tachs[i]) = d.holders (fun g => g.tachs[i]) := by unfold Dev.holders; rw [hg]
  unfold Dev.postTach
  rw [to_, post_host_congr hh hc]

@[simp] theorem postTach_tachs (stamp : BitVec 64) (e : Ev) : (d.postTach i stamp e).tachs = d.tachs := rfl

@[simp] theorem postTach_wr (stamp : BitVec 64) (e : Ev) : (d.postTach i stamp e).wr = d.wr := rfl

@[simp] theorem postTach_tachSet (stamp : BitVec 64) (e : Ev) : (d.postTach i stamp e).tachSet j = d.tachSet j := rfl

@[simp] theorem onTach_tachSet (f : Tach → Tach) : (d.onTach i f).tachSet j = d.tachSet j := rfl

end

/-! ## ANGLE_LOST (R55, R127 to R129) -/

section
variable {d d' : Dev} {i : Fin 4}

/-- Every bit of the held angle word but the low four is an angle; bit 1 says ANGLE_LOST (Table 03-5). -/
theorem lose_heldWord (l : TachLoop) (ppr : Nat) (now : Time) : (l.lose ppr now).heldWord.getLsbD 1 = true := by
  simp [TachLoop.lose]

/-- What the loss of angle of tach i makes of the device d: the loop is in ANGLE_LOST and acquires afresh, its word holds, the event is posted,
and the Wringer changes only in its band clocks, or goes to fallback when its frames are counted on the tach. -/
def LosesAngle (d : Dev) (i : Fin 4) (reason : Nat) (d' : Dev) : Prop :=
  (∀ j : Fin 4, j ≠ i → d'.tachs[j] = d.tachs[j]) ∧
  d'.tachs[i].loop.state = .lost ∧ d'.tachs[i].loop.abs = false ∧ d'.tachs[i].loop.acq = 0 ∧ d'.tachs[i].loop.heldWord.getLsbD 1 = true ∧
  d'.host = (d.postTach i d.stamp { event := .angleLost, subject := i.val, data0 := reason }).host ∧
  (d.wr.live.frame.source ≠ .angle ∨ d.wr.live.frame.tach ≠ i → d'.wr = { d.wr with clocks := d'.wr.clocks }) ∧
  (d.wr.live.frame.source = .angle → d.wr.live.frame.tach = i → d'.wr.fallback = true)

/-- The loop of a tach before its loss does not matter, so a change of it may come first. -/
theorem LosesAngle.of_onLoop {reason : Nat} {f : TachLoop → TachLoop} (h : LosesAngle (d.onLoop i f) i reason d') : LosesAngle d i reason d' := by
  obtain ⟨others, loop⟩ := h
  exact ⟨fun j hj => (others j hj).trans (onLoop_other f hj), loop⟩

/-- The loop in ANGLE_LOST, the clocks of its bands held (R127, R129). -/
def loopLost (d : Dev) (i : Fin 4) : Dev := (d.holdClocks (d.wr.live.orderBands i)).onLoop i (fun l => l.lose (d.tachSet i).ppr d.now)

theorem loopLost_keeps : Keeps [.tachs, .wr] d (loopLost d i) :=
  Keeps.andThen (onLoop_keeps _ _ _) (by decide) (Keeps.mono (holdClocks_keeps _ _) (by decide))

theorem loopLost_wr : (loopLost d i).wr = { d.wr with clocks := (loopLost d i).wr.clocks } := by
  rw [loopLost, onLoop_wr]
  exact holdClocks_wr _ _

theorem loopLost_tachs : (loopLost d i).tachs = (d.onLoop i (fun l => l.lose (d.tachSet i).ppr d.now)).tachs := by
  have held : (d.holdClocks (d.wr.live.orderBands i)).tachs = d.tachs := holdClocks_keeps _ _ .tachs (by decide)
  rw [loopLost, onLoop_tachs, onLoop_tachs, held]

/-- The loss of angle with its event, before the frame clock hears of it. -/
def angleDropped (d : Dev) (i : Fin 4) (reason : Nat) : Dev :=
  (loopLost d i).postTach i (loopLost d i).stamp { event := .angleLost, subject := i.val, data0 := reason }

theorem angleDropped_host (reason : Nat) : (angleDropped d i reason).host =
    (d.postTach i d.stamp { event := .angleLost, subject := i.val, data0 := reason }).host := by
  have keeps : Keeps [.tachs, .wr] d (loopLost d i) := loopLost_keeps
  have clk : (loopLost d i).clk = d.clk := keeps .clk (by decide)
  rw [angleDropped, stamp_congr clk]
  exact postTach_host_congr (keeps .host (by decide)) clk (keeps .grants (by decide)) _ _

theorem angleDropped_wr (reason : Nat) : (angleDropped d i reason).wr = (loopLost d i).wr := by rw [angleDropped, postTach_wr]

theorem angleDropped_tachs (reason : Nat) : (angleDropped d i reason).tachs = (loopLost d i).tachs := by rw [angleDropped, postTach_tachs]

/-- A loss in a loop that tracks: with frames counted on the tach, the fallback begins too (R55). -/
theorem angleLost_eq {reason : Nat} (h : d.tachs[i].loop.state ≠ .lost) : d.angleLost i reason =
    if d.wr.live.frame.source == .angle && d.wr.live.frame.tach == i then
      (if d.wr.fallback then angleDropped d i reason else (angleDropped d i reason).makeDue
        (!decide (d.wr.revEnd ≤ d.tachs[i].loop.revs (d.tachSet i).ppr d.now))).onWr (fun w => { w with fallback := true, relock := false })
    else angleDropped d i reason := by
  have tracks : (d.tachs[i].loop.state == .lost) = false := beq_eq_false_iff_ne.mpr h
  have live : (loopLost d i).wr.live = d.wr.live := by rw [loopLost_wr]
  have fallback : (loopLost d i).wr.fallback = d.wr.fallback := by rw [loopLost_wr]
  rw [← live, ← fallback]
  unfold Dev.angleLost
  simp only [tracks, Bool.false_eq_true, if_false]
  rfl

theorem angleLost_loses (reason : Nat) (h : d.tachs[i].loop.state ≠ .lost) : LosesAngle d i reason (d.angleLost i reason) := by
  have after : Keeps [.wr] (angleDropped d i reason) (d.angleLost i reason) := by
    rw [angleLost_eq h]
    split
    · split
      · exact onWr_keeps _ _
      · exact Keeps.andThen (onWr_keeps _ _) (by decide) (makeDue_keeps _ _)
    · exact Keeps.refl _ _
  have host : (d.angleLost i reason).host = (angleDropped d i reason).host := after .host (by decide)
  have tachs : (d.angleLost i reason).tachs = (angleDropped d i reason).tachs := after .tachs (by decide)
  rw [angleDropped_tachs, loopLost_tachs] at tachs
  have loop : (d.angleLost i reason).tachs[i].loop = d.tachs[i].loop.lose (d.tachSet i).ppr d.now := by rw [tachs, onLoop_same]
  refine ⟨fun j hj => ?_, ?_, ?_, ?_, ?_, ?_, fun hw => ?_, fun hs ht => ?_⟩
  · rw [tachs, onLoop_other _ hj]
  · rw [loop, TachLoop.lose]
  · rw [loop, TachLoop.lose]
  · rw [loop, TachLoop.lose]
  · rw [loop, lose_heldWord]
  · rw [host, angleDropped_host]
  · have other : ¬ (d.wr.live.frame.source == .angle && d.wr.live.frame.tach == i) = true := by
      rw [Bool.and_eq_true, beq_iff_eq, beq_iff_eq, not_and_or]
      exact hw
    rw [angleLost_eq h, if_neg other, angleDropped_wr]
    exact loopLost_wr
  · have counted : (d.wr.live.frame.source == .angle && d.wr.live.frame.tach == i) = true := by simp [hs, ht]
    rw [angleLost_eq h, if_pos counted, onWr_wr]

end

end Sys2Proof.Proofs

namespace Sys2Proof.Proofs
open Machine Laws

/-! ## TACH_EDGE (R113, R116 to R118, R128) -/

section
variable {d : Dev} {i : Fin 4} {x e : Time}

/-- An edge that is judged now, on an input that is on and, where it is OPTICAL, in no flood window (R113). -/
structure EdgeJudged (d : Dev) (i : Fin 4) (x : Time) : Prop where
  on : (d.tachSet i).mode ≠ .off
  due : d.judgeable (d.tachSet i) x = true
  dark : (d.tachSet i).mode = .optical → d.tachs[i].flooded x = false

theorem EdgeJudged.notIgnored (h : EdgeJudged d i x) : ((d.tachSet i).mode == .off || !d.judgeable (d.tachSet i) x ||
    ((d.tachSet i).mode == .optical && d.tachs[i].flooded x)) = false := by
  have off : ((d.tachSet i).mode == .off) = false := beq_eq_false_iff_ne.mpr h.on
  have flood : ((d.tachSet i).mode == .optical && d.tachs[i].flooded x) = false := by
    rw [Bool.and_eq_false_imp, beq_iff_eq]
    exact h.dark
  rw [off, h.due, flood]
  rfl

/-- An edge that is not judged does nothing. -/
theorem tachEdge_ignored (h : (d.tachSet i).mode = .off ∨ ((d.tachSet i).mode = .optical ∧ d.tachs[i].flooded x = true) ∨
    d.judgeable (d.tachSet i) x = false) : d.tachEdge i x = d := by
  have ignored : ((d.tachSet i).mode == .off || !d.judgeable (d.tachSet i) x ||
      ((d.tachSet i).mode == .optical && d.tachs[i].flooded x)) = true := by
    obtain off | ⟨optical, flooded⟩ | undue := h
    · simp [off]
    · rw [optical, flooded, beq_self_eq_true, Bool.and_self, Bool.or_true]
    · simp [undue]
  simp only [Dev.tachEdge, ignored, if_true]

/-- A locked loop after an edge that it accepts, with the predictions under the free value n (log entry 11). -/
def followEdge (l : TachLoop) (set : TachSet) (n : Nat) (x e : Time) : TachLoop :=
  { l with edges := l.edges + 1, lastEdge := some x, lastInterval := some (x - e),
           lag := Config.pllLag n (set.effectiveBw l.tpred) l.tpred (x - e),
           tpred := max 1 (Config.pllPredict n (set.effectiveBw l.tpred) l.tpred (x - e)) }

theorem tachEdge_accepts (h : EdgeJudged d i x) (hl : d.tachs[i].loop.state = .locked) (he : d.tachs[i].loop.lastEdge = some e)
    (hg : (d.tachSet i).inGate (((x - e : Nat) : Int) - d.tachs[i].loop.tpred).natAbs d.tachs[i].loop.tpred = true)
    (ho : (d.tachSet i).over (x - e) = false) :
    d.tachEdge i x = (d.onFree (· + 1)).onLoop i (fun l => followEdge l (d.tachSet i) d.free x e) := by
  simp only [Dev.tachEdge, h.notIgnored, hl, he, hg, ho, Option.getD_some, Bool.not_true, Bool.false_eq_true, if_false]
  rfl

theorem tachEdge_rejects (h : EdgeJudged d i x) (hl : d.tachs[i].loop.state = .locked) (he : d.tachs[i].loop.lastEdge = some e)
    (hg : (d.tachSet i).inGate (((x - e : Nat) : Int) - d.tachs[i].loop.tpred).natAbs d.tachs[i].loop.tpred = false) :
    d.tachEdge i x = d.onLoop i (fun l => { l with rejectedEdges := l.rejectedEdges + 1 }) := by
  simp only [Dev.tachEdge, h.notIgnored, hl, he, hg, Option.getD_some, Bool.not_false, Bool.false_eq_true, if_false, if_true]

theorem tachEdge_tooFast (h : EdgeJudged d i x) (hl : d.tachs[i].loop.state = .locked) (he : d.tachs[i].loop.lastEdge = some e)
    (hg : (d.tachSet i).inGate (((x - e : Nat) : Int) - d.tachs[i].loop.tpred).natAbs d.tachs[i].loop.tpred = true)
    (ho : (d.tachSet i).over (x - e) = true) : d.tachEdge i x = d.angleLost i 2 := by
  simp only [Dev.tachEdge, h.notIgnored, hl, he, hg, ho, Option.getD_some, Bool.not_true, Bool.false_eq_true, if_false, if_true]

/-- A loop whose acquisition has seen too few intervals is not ready to lock (R118). -/
theorem notReady {l : TachLoop} {set : TachSet} (h : l.acq < 2 * set.ppr) : l.ready set = false := by
  rw [TachLoop.ready, decide_eq_false (not_le.mpr h), Bool.false_and]

/-- The first edge after a loss begins an acquisition. -/
theorem acquire_first {l : TachLoop} (set : TachSet) (he : l.lastEdge = none) :
    l.acquire set x = { l with lastEdge := some x, lastInterval := none, acq := 0 } := by
  rw [TachLoop.acquire, he]

theorem tachEdge_firstEdge (h : EdgeJudged d i x) (hppr : 0 < (d.tachSet i).ppr) (hl : d.tachs[i].loop.state = .lost)
    (he : d.tachs[i].loop.lastEdge = none) : d.tachEdge i x = d.onLoop i (fun l => l.acquire (d.tachSet i) x) := by
  have waits : (d.onLoop i (fun l => l.acquire (d.tachSet i) x)).tachs[i].loop.ready (d.tachSet i) = false := by
    rw [onLoop_same, acquire_first _ he]
    exact notReady (Nat.mul_pos Nat.two_pos hppr)
  simp only [Dev.tachEdge, h.notIgnored, hl, waits, Bool.false_eq_true, if_false]

end

section
variable {s : State} {t : Time} {i : Fin 4} {x e : Time}

/-- TACH_EDGE by its cases. -/
theorem tachEdge_exec : exec (.tachEdge t { tach := i, edge := x }) s =
    .next { s with dev := if (here s t).sampling then (here s t).tachEdge i x else here s t } := rfl

/-- TACH_EDGE with the converters running. -/
theorem tachEdge_runs {d : Dev} (hs : (here s t).sampling = true) (hd : (here s t).tachEdge i x = d) :
    exec (.tachEdge t { tach := i, edge := x }) s = .next { s with dev := d } := by
  rw [tachEdge_exec, hs, if_pos rfl, hd]

theorem tachEdge_counted (hs : (here s t).sampling = true) (h : EdgeJudged (here s t) i x) (hl : s.dev.tachs[i].loop.state = .locked)
    (he : s.dev.tachs[i].loop.lastEdge = some e)
    (hg : s.dev.wr.live.tachs[i].inGate (((x - e : Nat) : Int) - s.dev.tachs[i].loop.tpred).natAbs s.dev.tachs[i].loop.tpred = true)
    (ho : s.dev.wr.live.tachs[i].over (x - e) = false) :
    let l := s.dev.tachs[i].loop
    Does (.tachEdge t { tach := i, edge := x }) s t [.tachs, .free] (fun d => (∀ j : Fin 4, j ≠ i → d.tachs[j] = s.dev.tachs[j]) ∧
      d.tachs[i] = { s.dev.tachs[i] with loop := { l with
        edges := l.edges + 1, lastEdge := some x, lastInterval := some (x - e), lag := d.tachs[i].loop.lag, tpred := d.tachs[i].loop.tpred } } ∧
      0 < d.tachs[i].loop.tpred) := by
  intro l
  refine does_of (tachEdge_runs hs (tachEdge_accepts h hl he hg ho)) ?_ ⟨fun j hj => onLoop_other _ hj, ?_, ?_⟩
  · exact Keeps.andThen (onLoop_keeps _ _ _) (by decide) (Keeps.mono (onFree_keeps _ _) (by decide))
  · rw [onLoop_same]
    rfl
  · rw [onLoop_same]
    exact Nat.lt_of_lt_of_le Nat.one_pos (Nat.le_max_left _ _)

/-- A row that changes only the loop of one tach input. -/
theorem does_onLoop {r : Instr} {f : TachLoop → TachLoop} (hr : exec r s = .next { s with dev := (here s t).onLoop i f }) :
    Does r s t [.tachs] (fun d => (∀ j : Fin 4, j ≠ i → d.tachs[j] = s.dev.tachs[j]) ∧
      d.tachs[i] = { s.dev.tachs[i] with loop := f s.dev.tachs[i].loop }) :=
  does_of hr (onLoop_keeps _ _ _) ⟨fun _ hj => onLoop_other _ hj, onLoop_same _⟩

/-- A row that loses the angle of a tach input whose loop tracks. -/
theorem does_angleLost {r : Instr} {reason : Nat} (hl : s.dev.tachs[i].loop.state ≠ .lost)
    (hr : exec r s = .next { s with dev := (here s t).angleLost i reason }) : Does r s t [.tachs, .host, .wr] (LosesAngle (here s t) i reason) :=
  does_of hr (Keeps.mono (angleLost_keeps _ _ _) (by decide)) (angleLost_loses reason hl)

theorem tachEdge_acquires (hs : (here s t).sampling = true) (h : EdgeJudged (here s t) i x) (hppr : 0 < s.dev.wr.live.tachs[i].ppr)
    (hl : s.dev.tachs[i].loop.state = .lost) (he : s.dev.tachs[i].loop.lastEdge = none) :
    Does (.tachEdge t { tach := i, edge := x }) s t [.tachs] (fun d => (∀ j : Fin 4, j ≠ i → d.tachs[j] = s.dev.tachs[j]) ∧
      d.tachs[i] = { s.dev.tachs[i] with loop := { s.dev.tachs[i].loop with lastEdge := some x, lastInterval := none, acq := 0 } }) := by
  rw [← acquire_first s.dev.wr.live.tachs[i] he]
  exact does_onLoop (tachEdge_runs hs (tachEdge_firstEdge h hppr hl he))

theorem tachEdge_nothing (h : s.dev.wr.live.tachs[i].mode = .off ∨ (s.dev.wr.live.tachs[i].mode = .optical ∧ s.dev.tachs[i].flooded x = true) ∨
    (here s t).judgeable s.dev.wr.live.tachs[i] x = false) : Does (.tachEdge t { tach := i, edge := x }) s t [] (fun _ => True) := by
  refine does_nothing ?_
  rw [tachEdge_exec, tachEdge_ignored (d := here s t) h, ite_self]

end

/-! ## INDEX_CODE (R108, R109, R119) -/

section
variable {s : State} {t : Time} {i : Fin 4} {r : IndexRead}

/-- INDEX_CODE by its cases. -/
theorem indexCode_exec : exec (.indexCode t i r) s = .next { s with dev :=
    (if !(here s t).sampling || s.dev.wr.live.tachs[i].mode == .off || !s.dev.wr.live.tachs[i].indexOn ||
        decide (instant s t < (here s t).sampleEdge (codeStop r + us 2) 1) then here s t
    else match indexFault r s.dev.wr.live.tachs[i] (s.dev.tachs[i].floodMeets r.start (codeStop r)) with
      | some (reason, id) => (here s t).indexBad i reason id
      | none => (here s t).indexGood i r) } := rfl

/-- A code that is judged: the converters run, the input is on and reads codes, and no flood that began before its end can still be confirmed. -/
structure CodeJudged (s : State) (t : Time) (i : Fin 4) (r : IndexRead) : Prop where
  sampling : (here s t).sampling = true
  on : s.dev.wr.live.tachs[i].mode ≠ .off
  reads : s.dev.wr.live.tachs[i].indexOn = true
  due : (here s t).sampleEdge (codeStop r + us 2) 1 ≤ instant s t

theorem CodeJudged.notIgnored (h : CodeJudged s t i r) : (!(here s t).sampling || s.dev.wr.live.tachs[i].mode == .off ||
    !s.dev.wr.live.tachs[i].indexOn || decide (instant s t < (here s t).sampleEdge (codeStop r + us 2) 1)) = false := by
  rw [h.sampling, h.reads, beq_eq_false_iff_ne.mpr h.on, decide_eq_false (not_lt.mpr h.due)]
  rfl

theorem indexCode_rejected {reason id : Nat} (h : CodeJudged s t i r)
    (hf : indexFault r s.dev.wr.live.tachs[i] (s.dev.tachs[i].floodMeets r.start (codeStop r)) = some (reason, id)) :
    let x := s.dev.tachs[i]
    Does (.indexCode t i r) s t [.tachs, .host] (fun d =>
      d.tachs = s.dev.tachs.set i.val { x with rejectedCodes := x.rejectedCodes + 1 } ∧
      d.host = ((here s t).postTach i (here s t).stamp { event := .indexBad, subject := i.val, data0 := reason, data1 := id }).host) := by
  intro x
  have bad : exec (.indexCode t i r) s = .next { s with dev := (here s t).indexBad i reason id } := by
    rw [indexCode_exec, h.notIgnored, hf]
    rfl
  refine does_of bad (Keeps.mono (indexBad_keeps _ _ _ _) (by decide)) ⟨?_, ?_⟩
  · rw [Dev.indexBad, postTach_tachs, onTach_tachs, upd_eq_set]
    rfl
  · exact postTach_host_congr rfl rfl rfl _ _

/-- The loop in ANGLE_LOST once a valid code with its START edge at a phase is remembered, and paired when it agrees with the one before (R119). -/
def rememberCode (l : TachLoop) (set : TachSet) (id : BitVec 8) (phase : Int) : TachLoop :=
  { l with code := some (id, phase), paired := l.agrees set l.code id phase }

theorem indexGood_lost {d : Dev} (hl : d.tachs[i].loop.state = .lost) (ha : d.tachs[i].loop.acq < 2 * (d.tachSet i).ppr) : d.indexGood i r =
    (d.onTach i (fun x => { x with lastId := codeIdentity r })).onLoop i
      (fun l => rememberCode l (d.tachSet i) (codeIdentity r) (d.tachs[i].loop.phase r.start)) := by
  let known := (d.onTach i (fun x => { x with lastId := codeIdentity r })).onLoop i
      (fun l => rememberCode l (d.tachSet i) (codeIdentity r) (d.tachs[i].loop.phase r.start))
  have acq : known.tachs[i].loop.acq = d.tachs[i].loop.acq := by rw [onLoop_same, onTach_same]; rfl
  have waits : ¬ known.tachs[i].loop.ready (d.tachSet i) = true := by rw [notReady (acq ▸ ha)]; decide
  simp only [Dev.indexGood, hl]
  exact if_neg waits

theorem indexCode_remembered (h : CodeJudged s t i r)
    (hf : indexFault r s.dev.wr.live.tachs[i] (s.dev.tachs[i].floodMeets r.start (codeStop r)) = none)
    (hl : s.dev.tachs[i].loop.state = .lost) (ha : s.dev.tachs[i].loop.acq < 2 * s.dev.wr.live.tachs[i].ppr) :
    let l := s.dev.tachs[i].loop
    Does (.indexCode t i r) s t [.tachs] (fun d => (∀ j : Fin 4, j ≠ i → d.tachs[j] = s.dev.tachs[j]) ∧
      d.tachs[i].lastId = codeIdentity r ∧
      d.tachs[i].loop = { l with code := some (codeIdentity r, l.phase r.start), paired := d.tachs[i].loop.paired }) := by
  intro l
  have good : exec (.indexCode t i r) s = .next { s with dev := (here s t).indexGood i r } := by
    rw [indexCode_exec, h.notIgnored, hf]
    rfl
  rw [indexGood_lost (d := here s t) hl ha] at good
  refine does_of good ?_ ⟨fun j hj => ?_, ?_, ?_⟩
  · exact Keeps.andThen (onLoop_keeps _ _ _) (by decide) (onTach_keeps _ _ _)
  · rw [onLoop_other _ hj, onTach_other _ hj]
    rfl
  · rw [onLoop_same, onTach_same]
  · rw [onLoop_same, onTach_same]
    rfl

end

/-! ## FREEWHEEL, FREEWHEEL_LIMIT, UNDERSPEED (R117, R123, R126 to R128) -/

section
variable {s : State} {t : Time} {i : Fin 4}

/-- A loop that freewheels from an instant (R123). -/
def freewheelFrom (l : TachLoop) (start : Time) : TachLoop :=
  { l with state := .freewheel, freeStart := start, resume := 0, resumeK := 0, freeWins := { start := start, stop := none } :: l.freeWins }

theorem enterFreewheel_eq (d : Dev) (start : Time) : d.enterFreewheel i start =
    (d.onLoop i (fun l => freewheelFrom l start)).postTach i (d.stampAt start) { event := .freewheel, subject := i.val } := rfl

/-- FREEWHEEL by its cases. -/
theorem freewheel_exec : exec (.freewheel t i) s = .next { s with dev :=
    (match s.dev.tachs[i].loop.state, s.dev.tachs[i].loop.lastEdge with
    | .locked, some e =>
      if (here s t).sampling && (here s t).settledTo s.dev.wr.live.tachs[i] (e + (3 * s.dev.tachs[i].loop.tpred + 1) / 2) then
        (here s t).enterFreewheel i (instant s t) else here s t
    | _, _ => here s t) } := rfl

theorem freewheel_enters {e : Time} (hs : (here s t).sampling = true) (hl : s.dev.tachs[i].loop.state = .locked)
    (he : s.dev.tachs[i].loop.lastEdge = some e)
    (hd : (here s t).settledTo s.dev.wr.live.tachs[i] (e + (3 * s.dev.tachs[i].loop.tpred + 1) / 2) = true) :
    let l := s.dev.tachs[i].loop
    Does (.freewheel t i) s t [.tachs, .host] (fun d => (∀ j : Fin 4, j ≠ i → d.tachs[j] = s.dev.tachs[j]) ∧
      d.tachs[i].loop = { l with state := .freewheel, freeStart := instant s t, resume := 0, resumeK := 0,
                                 freeWins := { start := instant s t, stop := none } :: l.freeWins } ∧
      d.host = ((here s t).postTach i ((here s t).stampAt (instant s t)) { event := .freewheel, subject := i.val }).host) := by
  intro l
  have enters : exec (.freewheel t i) s = .next { s with dev := (here s t).enterFreewheel i (instant s t) } := by
    simp only [freewheel_exec, hl, he, hs, hd, Bool.and_self, if_true]
  refine does_of enters (Keeps.mono (enterFreewheel_keeps _ _ _) (by decide)) ?_
  rw [enterFreewheel_eq]
  refine ⟨fun j hj => ?_, ?_, ?_⟩
  · rw [postTach_tachs, onLoop_other _ hj]
    rfl
  · rw [postTach_tachs, onLoop_same]
    rfl
  · exact postTach_host_congr rfl rfl rfl _ _

/-- FREEWHEEL_LIMIT by its cases. -/
theorem freewheelLimit_exec : exec (.freewheelLimit t i) s = .next { s with dev :=
    (let set := s.dev.wr.live.tachs[i]
    let stop := s.dev.tachs[i].loop.freeEnd set
    if (here s t).sampling && s.dev.tachs[i].loop.state == .freewheel && (here s t).settledTo set stop then
      ((here s t).onLoop i (fun l => { l with freeWins := closeWins stop l.freeWins })).angleLost i 1 else here s t) } := rfl

theorem freewheelLimit_loses (hs : (here s t).sampling = true) (hl : s.dev.tachs[i].loop.state = .freewheel)
    (hd : (here s t).settledTo s.dev.wr.live.tachs[i] (s.dev.tachs[i].loop.freeEnd s.dev.wr.live.tachs[i]) = true) :
    Does (.freewheelLimit t i) s t [.tachs, .host, .wr] (LosesAngle (here s t) i 1) := by
  let closed := (here s t).onLoop i (fun l => { l with freeWins := closeWins (s.dev.tachs[i].loop.freeEnd s.dev.wr.live.tachs[i]) l.freeWins })
  have loses : exec (.freewheelLimit t i) s = .next { s with dev := closed.angleLost i 1 } := by
    simp only [freewheelLimit_exec, hs, hl, hd, beq_self_eq_true, Bool.and_self, if_true]
    rfl
  have tracks : closed.tachs[i].loop.state ≠ .lost := by
    rw [onLoop_same]
    exact ne_of_eq_of_ne hl (by decide)
  refine does_of loses ?_ (LosesAngle.of_onLoop (angleLost_loses 1 tracks))
  exact Keeps.andThen (angleLost_keeps _ _ _) (by decide) (Keeps.mono (onLoop_keeps _ _ _) (by decide))

/-- UNDERSPEED by its cases. -/
theorem underspeed_exec : exec (.underspeed t i) s = .next { s with dev :=
    (if (here s t).sampling && s.dev.tachs[i].loop.state != .lost && s.dev.wr.live.tachs[i].under s.dev.tachs[i].loop.tpred then
      (here s t).angleLost i 3 else here s t) } := rfl

theorem underspeed_loses (hs : (here s t).sampling = true) (hl : s.dev.tachs[i].loop.state ≠ .lost)
    (hu : s.dev.wr.live.tachs[i].under s.dev.tachs[i].loop.tpred = true) :
    Does (.underspeed t i) s t [.tachs, .host, .wr] (LosesAngle (here s t) i 3) := by
  refine does_angleLost hl (underspeed_exec.trans ?_)
  rw [hs, hu, bne_iff_ne.mpr hl]
  rfl

end

/-- Settles O34: an edge by the verdict of the gate and of the maximum rate, a code by its first fault, and every loss of angle by one lemma. -/
theorem tachEvents : Obligations.TachEvents := by
  unfold Obligations.TachEvents
  refine ⟨?_, ?_, ?_, ?_, ?_, ?_, ?_, ?_, ?_, ?_⟩
  · intro s t i x e set l hoff hreset hclock hmode hjudge hflood hl he hg ho
    exact tachEdge_counted (here_sampling hoff hreset hclock) ⟨hmode, hjudge, hflood⟩ hl he hg ho
  · intro s t i x e set l hoff hreset hclock hmode hjudge hflood hl he hg
    exact does_onLoop (tachEdge_runs (here_sampling hoff hreset hclock) (tachEdge_rejects ⟨hmode, hjudge, hflood⟩ hl he hg))
  · intro s t i x e set l hoff hreset hclock hmode hjudge hflood hl he hg ho
    exact does_angleLost (ne_of_eq_of_ne hl (by decide))
      (tachEdge_runs (here_sampling hoff hreset hclock) (tachEdge_tooFast ⟨hmode, hjudge, hflood⟩ hl he hg ho))
  · intro s t i x set l hoff hreset hclock hmode hjudge hflood hppr hl he
    exact tachEdge_acquires (here_sampling hoff hreset hclock) ⟨hmode, hjudge, hflood⟩ hppr hl he
  · intro s t i x set h
    exact tachEdge_nothing h
  · intro s t i r reason id set hoff hreset hclock hmode hon hdue hf
    exact indexCode_rejected ⟨here_sampling hoff hreset hclock, hmode, hon, hdue⟩ hf
  · intro s t i r set l hoff hreset hclock hmode hon hdue hf hl ha
    exact indexCode_remembered ⟨here_sampling hoff hreset hclock, hmode, hon, hdue⟩ hf hl ha
  · intro s t i e l hoff hreset hclock hl he hd
    exact freewheel_enters (here_sampling hoff hreset hclock) hl he hd
  · intro s t i set l hoff hreset hclock hl hd
    exact freewheelLimit_loses (here_sampling hoff hreset hclock) hl hd
  · intro s t i set l hoff hreset hclock hl hu
    exact underspeed_loses (here_sampling hoff hreset hclock) hl hu

end Sys2Proof.Proofs

namespace Sys2Proof.Proofs
open Machine Laws

/-! ## Band values that a freewheel window overlaps (R133, R135) -/

section
variable {d : Dev} {i : Fin 4}

/-- A band value with FREEWHEEL (Table 04-1). -/
def freeMarked (v : BandValue) : BandValue := { v with flags := v.flags ||| 8 }

/-- The band values of the ended frame, if there is one. -/
def endedValues (d : Dev) : Option (List BandValue) := d.wr.ended.map (·.values)

/-- One step of the marking of the ended frame: the value v of feature f. -/
def markValue (i : Fin 4) (e : EndedFrame) (d : Dev) (x : BandValue × Nat) : Dev :=
  if x.1.enabled && !e.blanked && d.freeMarks i x.2 then d.markFree e x.2 x.1 else d

theorem markFree_wr (e : EndedFrame) (f : Nat) (v : BandValue) : (d.markFree e f v).wr =
    { d.wr with ended := d.wr.ended.map (fun e => { e with values := e.values.modify f freeMarked }) } := by
  unfold Dev.markFree
  dsimp only
  generalize (if v.count then e.counted else e.handedOff) = out
  cases out <;> rfl

/-- Marking changes the ended frame alone. -/
theorem markValue_wr (e : EndedFrame) (x : BandValue × Nat) : (markValue i e d x).wr = { d.wr with ended := (markValue i e d x).wr.ended } := by
  unfold markValue
  split
  · rw [markFree_wr]
  · rfl

theorem markValues_wr (e : EndedFrame) (xs : List (BandValue × Nat)) (d : Dev) :
    (xs.foldl (markValue i e) d).wr = { d.wr with ended := (xs.foldl (markValue i e) d).wr.ended } := by
  induction xs generalizing d with
  | nil => rfl
  | cons x xs ih =>
    rw [List.foldl_cons, ih, markValue_wr]

/-- The ended frame is marked value by value when the window began before its end. -/
theorem markEnded_of_overlap {e : EndedFrame} {start : Time} (he : d.wr.ended = some e) (hs : start < e.stop) :
    d.markEnded i start = e.values.zipIdx.foldl (markValue i e) d := by
  simp only [Dev.markEnded, he, if_neg (not_le.mpr hs)]
  rfl

theorem markEnded_of_past {start : Time} (h : ∀ e, d.wr.ended = some e → e.stop ≤ start) : d.markEnded i start = d := by
  unfold Dev.markEnded
  split
  case h_1 => rfl
  case h_2 e he => exact if_pos (h e he)

theorem markEnded_wr (start : Time) : (d.markEnded i start).wr = { d.wr with ended := (d.markEnded i start).wr.ended } := by
  by_cases past : ∀ e, d.wr.ended = some e → e.stop ≤ start
  · rw [markEnded_of_past past]
  · push Not at past
    obtain ⟨e, he, hs⟩ := past
    rw [markEnded_of_overlap he hs]
    exact markValues_wr e _ d

/-- The frame of the device is counted on a tach. -/
def CountsOn (d : Dev) (i : Fin 4) : Prop := d.wr.live.frame.source = .angle ∧ d.wr.live.frame.tach = i

/-- With frames counted on the tach every enabled value is marked. -/
theorem markValue_values {e : EndedFrame} (hb : e.blanked = false) (hc : CountsOn d i) (v : BandValue) (f : Nat) :
    endedValues (markValue i e d (v, f)) = (endedValues d).map (fun vs => if v.enabled then vs.modify f freeMarked else vs) := by
  obtain ⟨source, tach⟩ := hc
  have marks : d.freeMarks i f = true := by
    rw [Dev.freeMarks, source, tach, beq_self_eq_true, beq_self_eq_true]
    rfl
  unfold markValue endedValues
  cases v.enabled
  · simp [Function.comp_def]
  · simp only [hb, marks, Bool.not_false, Bool.and_self, if_true, markFree_wr, Option.map_map]
    rfl

theorem markValue_countsOn {e : EndedFrame} {x : BandValue × Nat} (hc : CountsOn d i) : CountsOn (markValue i e d x) i := by
  have live : (markValue i e d x).wr.live = d.wr.live := by rw [markValue_wr]
  rw [CountsOn, live]
  exact hc

theorem markValues_values {e : EndedFrame} (hb : e.blanked = false) (vs done : List BandValue) (d : Dev) (hc : CountsOn d i)
    (hd : endedValues d = some (done ++ vs)) : endedValues ((vs.zipIdx done.length).foldl (markValue i e) d) =
      some (done ++ vs.map (fun v => if v.enabled then freeMarked v else v)) := by
  induction vs generalizing done d with
  | nil => exact hd
  | cons v vs ih =>
    let v' := if v.enabled then freeMarked v else v
    have marked : endedValues (markValue i e d (v, done.length)) = some ((done ++ [v']) ++ vs) := by
      rw [markValue_values hb hc, hd, Option.map_some]
      cases hv : v.enabled
      · simp [v', hv]
      · simp [v', hv, List.modify_eq_take_drop]
    have rest := ih (done ++ [v']) _ (markValue_countsOn hc) marked
    rw [List.length_append, List.append_assoc] at rest
    exact rest

end

end Sys2Proof.Proofs

namespace Sys2Proof.Proofs
open Machine Laws

/-! ## FLOOD_START (R110, R112 to R114, R123) -/

section
variable {d : Dev} {i : Fin 4} {c : Time}

/-- The windows of an input once a flood from an instant is the newest of the two kept (R110). -/
def withFlood (c : Time) (ws : List Win) : List Win := ({ start := c, stop := none } :: ws).take 2

/-- The event of a flood. -/
def floodEvent (i : Fin 4) : Ev := { event := .flood, subject := i.val }

/-- A flood on an index input opens its window; on a tach input that is not OPTICAL it does no more. -/
theorem floodStart_index (hm : (d.tachSet i).mode ≠ .optical) : d.floodStart i true c =
    (d.onTach i (fun x => { x with floodIndex := withFlood c x.floodIndex })).postTach i (d.stampAt c) (floodEvent i) := by
  have calm : ((d.tachSet i).mode == .optical) = false := beq_eq_false_iff_ne.mpr hm
  simp only [Dev.floodStart, postTach_tachSet, onTach_tachSet, calm, Bool.false_and, Bool.false_eq_true, if_false, if_true]
  rfl

/-- The device with a flood on an optical head, before its loop hears of it. -/
def headFlooded (d : Dev) (i : Fin 4) (c : Time) : Dev :=
  (d.onTach i (fun x => { x with floodTach := withFlood c x.floodTach })).postTach i (d.stampAt c) (floodEvent i)

theorem headFlooded_tachs : (headFlooded d i c).tachs = upd d.tachs i (fun x => { x with floodTach := withFlood c x.floodTach }) := by
  rw [headFlooded, postTach_tachs, onTach_tachs]

/-- A flood on an optical head sends its locked loop into freewheel from the crossing (R113, R123). -/
theorem floodStart_head (hm : (d.tachSet i).mode = .optical) (hl : d.tachs[i].loop.state = .locked) : d.floodStart i false c =
    ((headFlooded d i c).enterFreewheel i c).markEnded i c := by
  have locked : (headFlooded d i c).tachs[i].loop.state = .locked := by rw [headFlooded_tachs, upd_same, hl]
  have wheels : ((d.tachSet i).mode == .optical && (headFlooded d i c).tachs[i].loop.state == .locked) = true := by rw [hm, locked]; rfl
  exact if_pos wheels

/-- The loop of a flooded head freewheels from the crossing. -/
theorem headFlooded_freewheels : ((headFlooded d i c).enterFreewheel i c).tachs = d.tachs.set i.val
    { d.tachs[i] with floodTach := withFlood c d.tachs[i].floodTach, loop := freewheelFrom d.tachs[i].loop c } := by
  rw [enterFreewheel_eq, postTach_tachs, onLoop_tachs, headFlooded_tachs, upd_eq_set, upd_same, upd_eq_set, Vector.set_set]

theorem headFlooded_wr : ((headFlooded d i c).enterFreewheel i c).wr = d.wr := by
  rw [enterFreewheel_eq, postTach_wr, onLoop_wr, headFlooded, postTach_wr, onTach_wr]

/-- The two events of a flood on an optical head with a locked loop. -/
theorem headFlooded_host : ((headFlooded d i c).enterFreewheel i c).host =
    ((d.postTach i (d.stampAt c) (floodEvent i)).postTach i (d.stampAt c) { event := .freewheel, subject := i.val }).host := by
  rw [enterFreewheel_eq]
  exact postTach_host_congr rfl rfl rfl _ _

end

section
variable {s : State} {t : Time} {i : Fin 4} {c : Time}

/-- FLOOD_START by its cases. -/
theorem floodStart_exec (onIndex : Bool) : exec (.floodStart t i onIndex c) s = .next { s with dev :=
    (if (here s t).sampling && decide (c + us 2 ≤ instant s t) && decide (instant s t ≤ (here s t).sampleEdge (c + us 2) 0) &&
        !floodAt (if onIndex then s.dev.tachs[i].floodIndex else s.dev.tachs[i].floodTach) (instant s t) &&
        (if onIndex then s.dev.wr.live.tachs[i].mode != .off else s.dev.wr.live.tachs[i].mode == .optical) then
      (here s t).floodStart i onIndex c else here s t) } := rfl

/-- The converters run and a flood that crossed at c is confirmed at this SAMPLE edge (R45, R110). -/
structure FloodConfirmed (s : State) (t c : Time) : Prop where
  sampling : (here s t).sampling = true
  held : c + us 2 ≤ instant s t
  captured : instant s t ≤ (here s t).sampleEdge (c + us 2) 0

theorem floodStart_confirmed {onIndex : Bool} (h : FloodConfirmed s t c)
    (hopen : floodAt (if onIndex then s.dev.tachs[i].floodIndex else s.dev.tachs[i].floodTach) (instant s t) = false)
    (hmode : (if onIndex then s.dev.wr.live.tachs[i].mode != .off else s.dev.wr.live.tachs[i].mode == .optical) = true) :
    exec (.floodStart t i onIndex c) s = .next { s with dev := (here s t).floodStart i onIndex c } := by
  rw [floodStart_exec, h.sampling, decide_eq_true h.held, decide_eq_true h.captured, hopen, hmode]
  rfl

theorem floodStart_onIndex (h : FloodConfirmed s t c) (hmode : s.dev.wr.live.tachs[i].mode = .digital ∨ s.dev.wr.live.tachs[i].mode = .analogue)
    (hopen : floodAt s.dev.tachs[i].floodIndex (instant s t) = false) :
    let x := s.dev.tachs[i]
    Does (.floodStart t i true c) s t [.tachs, .host] (fun d =>
      d.tachs = s.dev.tachs.set i.val { x with floodIndex := ({ start := c, stop := none } :: x.floodIndex).take 2 } ∧
      d.host = ((here s t).postTach i ((here s t).stampAt c) { event := .flood, subject := i.val }).host) := by
  intro x
  have on : (s.dev.wr.live.tachs[i].mode != .off) = true := by obtain h | h := hmode <;> rw [h] <;> rfl
  have electric : s.dev.wr.live.tachs[i].mode ≠ .optical := by obtain h | h := hmode <;> rw [h] <;> decide
  have opens := floodStart_confirmed (onIndex := true) h hopen on
  rw [floodStart_index (d := here s t) electric] at opens
  refine does_of opens ?_ ⟨?_, ?_⟩
  · exact Keeps.andThen (postTach_keeps _ _ _ _) (by decide) (Keeps.mono (onTach_keeps _ _ _) (by decide))
  · rw [postTach_tachs, onTach_tachs, upd_eq_set]
    rfl
  · exact postTach_host_congr rfl rfl rfl _ _

/-- FLOOD_START on an optical head with a locked loop. -/
theorem floodStart_onHead (h : FloodConfirmed s t c) (hmode : s.dev.wr.live.tachs[i].mode = .optical)
    (hopen : floodAt s.dev.tachs[i].floodTach (instant s t) = false) (hl : s.dev.tachs[i].loop.state = .locked) :
    exec (.floodStart t i false c) s = .next { s with dev := ((headFlooded (here s t) i c).enterFreewheel i c).markEnded i c } := by
  have optical : (s.dev.wr.live.tachs[i].mode == .optical) = true := by rw [hmode]; rfl
  rw [floodStart_confirmed (onIndex := false) h hopen optical, floodStart_head (d := here s t) hmode hl]

theorem headFlooded_keeps (d : Dev) : Keeps [.tachs, .host, .wr, .spool, .sram] d (((headFlooded d i c).enterFreewheel i c).markEnded i c) :=
  Keeps.andThen (markEnded_keeps _ _ _) (by decide) (Keeps.andThen (enterFreewheel_keeps _ _ _) (by decide)
    (Keeps.andThen (postTach_keeps _ _ _ _) (by decide) (Keeps.mono (onTach_keeps _ _ _) (by decide))))

theorem floodStart_freewheels (h : FloodConfirmed s t c) (hmode : s.dev.wr.live.tachs[i].mode = .optical)
    (hopen : floodAt s.dev.tachs[i].floodTach (instant s t) = false) (hl : s.dev.tachs[i].loop.state = .locked) :
    let x := s.dev.tachs[i]
    let l := { x.loop with state := .freewheel, freeStart := c, resume := 0, resumeK := 0,
                           freeWins := { start := c, stop := none } :: x.loop.freeWins }
    let e : Ev := { event := .flood, subject := i.val }
    let e' : Ev := { event := .freewheel, subject := i.val }
    Does (.floodStart t i false c) s t [.tachs, .host, .wr, .spool, .sram] (fun d =>
      d.tachs = s.dev.tachs.set i.val { x with floodTach := ({ start := c, stop := none } :: x.floodTach).take 2, loop := l } ∧
      d.host = (((here s t).postTach i ((here s t).stampAt c) e).postTach i ((here s t).stampAt c) e').host ∧
      d.wr = { s.dev.wr with ended := d.wr.ended } ∧
      (∀ f, s.dev.wr.ended = some f → f.stop ≤ c → d.wr = s.dev.wr ∧ d.sram = s.dev.sram)) := by
  intro x l e e'
  let entered := (headFlooded (here s t) i c).enterFreewheel i c
  have wr : entered.wr = s.dev.wr := headFlooded_wr
  have marked : Keeps [.wr, .spool, .sram] entered (entered.markEnded i c) := markEnded_keeps _ _ _
  have tachs : (entered.markEnded i c).tachs = entered.tachs := marked .tachs (by decide)
  have host : (entered.markEnded i c).host = entered.host := marked .host (by decide)
  refine does_of (floodStart_onHead h hmode hopen hl) (headFlooded_keeps _) ⟨?_, ?_, ?_, fun f hf hstop => ?_⟩
  · rw [tachs, headFlooded_freewheels]
    rfl
  · rw [host, headFlooded_host]
    rfl
  · rw [markEnded_wr, wr]
  · have past : entered.markEnded i c = entered := markEnded_of_past fun e he => by
      rw [wr, hf, Option.some.injEq] at he
      exact he ▸ hstop
    rw [past]
    exact ⟨wr, rfl⟩

theorem floodStart_marks {f : EndedFrame} (h : FloodConfirmed s t c) (hmode : s.dev.wr.live.tachs[i].mode = .optical)
    (hopen : floodAt s.dev.tachs[i].floodTach (instant s t) = false) (hl : s.dev.tachs[i].loop.state = .locked)
    (hf : s.dev.wr.ended = some f) (hstop : c < f.stop) (hb : f.blanked = false)
    (hc : s.dev.wr.live.frame.source = .angle ∧ s.dev.wr.live.frame.tach = i) :
    Does (.floodStart t i false c) s t [.tachs, .host, .wr, .spool, .sram] (fun d =>
      d.wr.ended.map (·.values) = some (f.values.map (fun v => if v.enabled then { v with flags := v.flags ||| 8 } else v))) := by
  let entered := (headFlooded (here s t) i c).enterFreewheel i c
  have wr : entered.wr = s.dev.wr := headFlooded_wr
  have ended : entered.wr.ended = some f := by rw [wr, hf]
  have counts : CountsOn entered i := by rw [CountsOn, wr]; exact hc
  have values : endedValues entered = some ([] ++ f.values) := by rw [endedValues, ended]; rfl
  refine does_of (floodStart_onHead h hmode hopen hl) (headFlooded_keeps _) ?_
  rw [markEnded_of_overlap ended hstop]
  exact markValues_values hb f.values [] entered counts values

/-- A flood that is not confirmed at this instant, that falls in an open window, or on an input that is not OPTICAL does nothing. -/
theorem floodStart_nothing (h : instant s t < c + us 2 ∨ (here s t).sampleEdge (c + us 2) 0 < instant s t ∨
    floodAt s.dev.tachs[i].floodTach (instant s t) = true ∨ s.dev.wr.live.tachs[i].mode ≠ .optical) :
    Does (.floodStart t i false c) s t [] (fun _ => True) := by
  refine does_nothing ?_
  rw [floodStart_exec, if_neg]
  intro starts
  simp only [Bool.and_eq_true, decide_eq_true_eq, Bool.not_eq_true', Bool.false_eq_true, if_false, beq_iff_eq] at starts
  obtain ⟨⟨⟨⟨-, held⟩, captured⟩, shut⟩, optical⟩ := starts
  obtain early | late | isOpen | electric := h
  · exact absurd held (not_le.mpr early)
  · exact absurd captured (not_le.mpr late)
  · rw [isOpen] at shut
    cases shut
  · exact electric optical

end

/-! ## FLOOD_END (R111) -/

section
variable {s : State} {t : Time} {i : Fin 4} {fall : FloodFall}

/-- FLOOD_END by its cases. -/
theorem floodEnd_exec : exec (.floodEnd t i fall) s = .next { s with dev :=
    (if instant s t < fall.below + us 100 then here s t
    else (here s t).onTach i (fun x => if fall.onIndex then { x with floodIndex := endFlood fall.below x.floodIndex }
      else { x with floodTach := endFlood fall.below x.floodTach })) } := rfl

/-- A flood that has ended changes one tach input. -/
theorem floodEnd_ends (h : fall.below + us 100 ≤ instant s t) : Does (.floodEnd t i fall) s t [.tachs] (fun d =>
    d.tachs = s.dev.tachs.set i.val (if fall.onIndex then { s.dev.tachs[i] with floodIndex := endFlood fall.below s.dev.tachs[i].floodIndex }
      else { s.dev.tachs[i] with floodTach := endFlood fall.below s.dev.tachs[i].floodTach })) :=
  does_of (floodEnd_exec.trans (congrArg (fun d => Host.Outcome.next { s with dev := d }) (if_neg (not_lt.mpr h)))) (onTach_keeps _ _ _) rfl

theorem floodEnd_early (h : instant s t < fall.below + us 100) : Does (.floodEnd t i fall) s t [] (fun _ => True) :=
  does_nothing (floodEnd_exec.trans (congrArg (fun d => Host.Outcome.next { s with dev := d }) (if_pos h)))

end

/-- Settles O35: an index flood opens a window, a head flood also lets the loop freewheel, and the marking of the ended frame goes value by value. -/
theorem floodRows : Obligations.FloodRows := by
  unfold Obligations.FloodRows
  refine ⟨?_, ?_, ?_, ?_, ?_, ?_⟩
  · intro s t i c set x hoff hreset hclock hmode ⟨held, captured⟩ hopen
    exact floodStart_onIndex ⟨here_sampling hoff hreset hclock, held, captured⟩ hmode hopen
  · intro s t i c set x hoff hreset hclock hmode ⟨held, captured⟩ hopen hl
    exact floodStart_freewheels ⟨here_sampling hoff hreset hclock, held, captured⟩ hmode hopen hl
  · intro s t i c f set x hoff hreset hclock hmode ⟨held, captured⟩ hopen hl hf hstop hb hsource htach
    exact floodStart_marks ⟨here_sampling hoff hreset hclock, held, captured⟩ hmode hopen hl hf hstop hb ⟨hsource, htach⟩
  · intro s t i c x h
    exact floodStart_nothing h
  · intro s t i below x h ended
    exact ⟨floodEnd_ends (fall := { onIndex := false, below := below }) h, floodEnd_ends (fall := { onIndex := true, below := below }) h⟩
  · intro s t i onIndex below h
    exact floodEnd_early h

end Sys2Proof.Proofs

namespace Sys2Proof.Proofs
open Machine Laws

/-! ## Entries that a row changes one after the other -/

/-- A run over a list of distinct keys whose steps change one entry each: the entries named change once, the others stay. -/
theorem eachEntry {κ α : Type} [DecidableEq κ] {run : List κ → Dev → Dev} {step : κ → Dev → Dev} {entry : Dev → κ → α} {g : κ → α → α}
    {Same : Dev → Prop} (nil : ∀ d, run [] d = d) (cons : ∀ k ks d, run (k :: ks) d = run ks (step k d))
    (keeps : ∀ k d, Same d → Same (step k d)) (named : ∀ k d, Same d → entry (step k d) k = g k (entry d k))
    (other : ∀ k j d, Same d → j ≠ k → entry (step k d) j = entry d j) (l : List κ) (hl : l.Nodup) (d : Dev) (hd : Same d) :
    Same (run l d) ∧ ∀ j, entry (run l d) j = if j ∈ l then g j (entry d j) else entry d j := by
  induction l generalizing d with
  | nil => exact ⟨(nil d).symm ▸ hd, fun j => by rw [nil]; rfl⟩
  | cons k ks ih =>
    obtain ⟨hk, hks⟩ := List.nodup_cons.mp hl
    obtain ⟨same, entries⟩ := ih hks (step k d) (keeps k d hd)
    rw [cons]
    refine ⟨same, fun j => ?_⟩
    rw [entries j]
    by_cases h : j = k
    · subst h
      rw [if_neg hk, if_pos List.mem_cons_self, named j d hd]
    · rw [other k j d hd h]
      simp only [List.mem_cons, h, false_or]

/-- Only the Needle outputs differ. -/
def OnlyOuts (d e : Dev) : Prop := ∃ outs, e = { d with guard := { d.guard with outs := outs } }

/-- Only the comparators differ. -/
def OnlyComps (d e : Dev) : Prop := ∃ comps, e = { d with guard := { d.guard with comps := comps } }

theorem OnlyOuts.refl (d : Dev) : OnlyOuts d d := ⟨d.guard.outs, rfl⟩

theorem OnlyComps.refl (d : Dev) : OnlyComps d d := ⟨d.guard.comps, rfl⟩

theorem OnlyOuts.onOut {d e : Dev} (h : OnlyOuts d e) (o : Fin 8) (f : Needle → Needle) : OnlyOuts d (e.onOut o f) := by
  obtain ⟨outs, rfl⟩ := h
  exact ⟨_, rfl⟩

theorem OnlyComps.onComp {d e : Dev} (h : OnlyComps d e) (i : Fin 32) (f : Comparator → Comparator) : OnlyComps d (e.onComp i f) := by
  obtain ⟨comps, rfl⟩ := h
  exact ⟨_, rfl⟩

theorem OnlyOuts.guard {d e : Dev} (h : OnlyOuts d e) : e.guard = { d.guard with outs := e.guard.outs } := by
  obtain ⟨outs, rfl⟩ := h
  rfl

theorem OnlyComps.guard {d e : Dev} (h : OnlyComps d e) : e.guard = { d.guard with comps := e.guard.comps } := by
  obtain ⟨comps, rfl⟩ := h
  rfl

@[simp] theorem onOut_same (d : Dev) (o : Fin 8) (f : Needle → Needle) : (d.onOut o f).guard.outs[o] = f d.guard.outs[o] := upd_same _ _ _

theorem onOut_other (d : Dev) {o p : Fin 8} (f : Needle → Needle) (h : p ≠ o) : (d.onOut o f).guard.outs[p] = d.guard.outs[p] :=
  upd_other _ _ _ _ h

@[simp] theorem onComp_same (d : Dev) (i : Fin 32) (f : Comparator → Comparator) : (d.onComp i f).guard.comps[i] = f d.guard.comps[i] :=
  upd_same _ _ _

theorem onComp_other (d : Dev) {i j : Fin 32} (f : Comparator → Comparator) (h : j ≠ i) :
    (d.onComp i f).guard.comps[j] = d.guard.comps[j] := upd_other _ _ _ _ h

theorem onOut_congr {d : Dev} {o : Fin 8} {f g : Needle → Needle} (h : f d.guard.outs[o] = g d.guard.outs[o]) : d.onOut o f = d.onOut o g := by
  unfold Dev.onOut upd
  rw [h]

theorem onComp_congr {d : Dev} {i : Fin 32} {f g : Comparator → Comparator} (h : f d.guard.comps[i] = g d.guard.comps[i]) :
    d.onComp i f = d.onComp i g := by
  unfold Dev.onComp upd
  rw [h]

/-- A change that changes nothing. -/
theorem onOut_id {d : Dev} {o : Fin 8} {f : Needle → Needle} (h : f d.guard.outs[o] = d.guard.outs[o]) : d.onOut o f = d := by
  unfold Dev.onOut upd
  rw [h]
  exact congrArg (fun v => ({ d with guard := { d.guard with outs := v } } : Dev)) (Vector.set_getElem_self _)

theorem onComp_id {d : Dev} {i : Fin 32} {f : Comparator → Comparator} (h : f d.guard.comps[i] = d.guard.comps[i]) : d.onComp i f = d := by
  unfold Dev.onComp upd
  rw [h]
  exact congrArg (fun v => ({ d with guard := { d.guard with comps := v } } : Dev)) (Vector.set_getElem_self _)

/-- A trip input depends on the latches and the trip masks (R206). -/
theorem tripInput_congr {d e : Dev} (hc : e.guard.comps = d.guard.comps) (hm : e.guard.tripMasks = d.guard.tripMasks) (o : Fin 8) :
    e.tripInput o = d.tripInput o := by
  unfold Dev.tripInput
  rw [hc, hm]

/-! ## Violations of register writes (R735, R766) -/

/-- The device once a violation is counted and logged (R735 to R737). -/
def violationLogged (d : Dev) (b : Basket) (kind : BitVec 4) (addr : Nat) : Dev :=
  (d.onPage b countViolation).onHost (fun h => h.logViolation (d.onPage b countViolation).stamp b kind addr)

theorem violate_eq (d : Dev) (b : Basket) (kind : BitVec 4) (addr : Nat) : d.violate b kind addr =
    if b = 0 then violationLogged d b kind addr else (violationLogged d b kind addr).raise (toBasket 0) .violation := rfl

theorem violationLogged_page (d : Dev) (b : Basket) (kind : BitVec 4) (addr : Nat) (c : Basket) :
    (violationLogged d b kind addr).host.pages[c] = if c = b then countViolation d.host.pages[c] else d.host.pages[c] := by
  have logged : (violationLogged d b kind addr).host.pages = (d.onPage b countViolation).host.pages :=
    (congrArg HostSide.pages (logViolation_pages (d.onPage b countViolation).host (d.onPage b countViolation).host.pages
      (d.onPage b countViolation).stamp b kind addr)).trans rfl
  rw [logged]
  split
  next h => subst h; exact upd_same _ _ _
  next h => exact upd_other _ _ _ _ h

/-- What a violation leaves of the OVERLOAD_STATUS of a page and of its counter. -/
theorem violate_page (d : Dev) (b : Basket) (kind : BitVec 4) (addr : Nat) (c : Basket) :
    (d.violate b kind addr).host.pages[c].overload = d.host.pages[c].overload ∧
    (d.violate b kind addr).host.pages[c].violations = d.host.pages[c].violations + (if c = b then 1#32 else 0#32) := by
  have logged := violationLogged_page d b kind addr c
  have counted : (violationLogged d b kind addr).host.pages[c].overload = d.host.pages[c].overload ∧
      (violationLogged d b kind addr).host.pages[c].violations = d.host.pages[c].violations + (if c = b then 1#32 else 0#32) := by
    rw [logged]
    split
    · exact ⟨rfl, rfl⟩
    · exact ⟨rfl, (BitVec.add_zero _).symm⟩
  rw [violate_eq]
  by_cases h : b = 0
  · simpa only [h, if_true] using counted
  · simp only [h, if_false]
    rw [Dev.raise, onPages_page]
    split <;> exact counted

/-- Each foreign bit of a written word counts one violation of the basket that wrote it (R766). -/
theorem violateBits_page (b : Basket) (off n : Nat) (d : Dev) :
    (∀ c : Basket, (d.violateBits b off n).host.pages[c].overload = d.host.pages[c].overload) ∧
    (d.violateBits b off n).host.pages[b].violations = d.host.pages[b].violations + BitVec.ofNat 32 n := by
  induction n generalizing d with
  | zero => exact ⟨fun _ => rfl, (BitVec.add_zero _).symm⟩
  | succ n ih =>
    obtain ⟨overload, violations⟩ := ih (d.violate b 4 off)
    refine ⟨fun c => (overload c).trans (violate_page d b 4 off c).1, ?_⟩
    rw [Dev.violateBits, violations, (violate_page d b 4 off b).2, if_pos rfl, BitVec.add_assoc, Nat.add_comm n 1, BitVec.ofNat_add]

/-! ## TRIP_STATUS_CLEAR, THIMBLE_LATCH_CLEAR, OVERLOAD_STATUS_CLEAR, RESET_CAUSE_CLEAR -/

section
variable {s : State} {t : Time} {b : Basket}

theorem reachable_of (h : Reaches s b) : (here s t).reachable b = true := by
  obtain ⟨hoff, hreset, hen⟩ := h
  have on : (here s t).enabled b = true := (at?_fin _ _ _).trans hen
  simp only [Dev.reachable, on, Bool.and_true]
  exact answers_of _ hoff hreset

/-- A row whose device turns out to be the one that it finds. -/
theorem does_stay {i : Instr} {d : Dev} (hi : exec i s = .next { s with dev := d }) (hd : d = here s t) : Does i s t [] (fun _ => True) :=
  does_nothing (hi.trans (by rw [hd]))

/-- A register write that a page takes. -/
theorem does_write {i : Instr} {d : Dev} {changed : List Part} {effect : Dev → Prop} (h : Reaches s b)
    (hi : exec i s = .next { s with dev := if (here s t).reachable b then d else here s t }) (hk : Keeps changed (here s t) d)
    (he : effect d) : Does i s t changed effect := by
  rw [reachable_of h, if_pos rfl] at hi
  exact does_of hi hk he

/-- An output after a write of TRIP_STATUS on the page of b (R228, R766, R768). -/
def tripWritten (d : Dev) (b : Basket) (val : Word) (o : Fin 8) (x : Needle) : Needle :=
  if bit val.toNat o.val = true ∧ (d.grants[b]).holds .outputs o.val = true ∧ d.tripInput o = false ∧ x.tripSetAt ≠ d.now
  then { x with tripStatus := false } else x

theorem tripClear_eq (d : Dev) (o : Fin 8) : d.tripClear o =
    d.onOut o (fun x => if d.tripInput o = false ∧ x.tripSetAt ≠ d.now then { x with tripStatus := false } else x) := by
  unfold Dev.tripClear
  by_cases h : d.tripInput o = false ∧ d.guard.outs[o].tripSetAt ≠ d.now
  · rw [if_neg (by simpa using h)]
    exact (onOut_congr (if_pos h)).symm
  · rw [if_pos (by simpa [or_iff_not_imp_left] using h)]
    exact (onOut_id (if_neg h)).symm

theorem tripsClear_spec (val : Word) (d : Dev) : OnlyOuts d (d.tripsClear b val (List.finRange 8)) ∧
    ∀ o : Fin 8, (d.tripsClear b val (List.finRange 8)).guard.outs[o] = tripWritten d b val o d.guard.outs[o] := by
  have stepped : ∀ (o : Fin 8) (e : Dev), OnlyOuts d e →
      (if bit val.toNat o.val && e.grants[b].outputs[o] then e.tripClear o else e) = e.onOut o (tripWritten d b val o) := by
    rintro o e ⟨outs, rfl⟩
    have held : (d.grants[b]).holds .outputs o.val = d.grants[b].outputs[o] := at?_fin _ _ _
    by_cases h : bit val.toNat o.val = true ∧ d.grants[b].outputs[o] = true
    · rw [if_pos (by simpa using h), tripClear_eq]
      refine onOut_congr ?_
      simp only [tripWritten, held, h, true_and]
      rfl
    · rw [if_neg (by simpa using h)]
      refine (onOut_id (if_neg fun hw => h ⟨hw.1, held ▸ hw.2.1⟩)).symm
  obtain ⟨same, outs⟩ := eachEntry (run := fun os e => e.tripsClear b val os) (Same := OnlyOuts d)
    (entry := fun e o => e.guard.outs[o]) (g := tripWritten d b val) (fun _ => rfl) (fun _ _ _ => rfl)
    (fun o e he => by rw [stepped o e he]; exact he.onOut _ _)
    (fun o e he => by rw [stepped o e he]; exact onOut_same _ _ _)
    (fun o p e he hp => by rw [stepped o e he]; exact onOut_other _ _ hp)
    (List.finRange 8) (List.nodup_finRange 8) d (OnlyOuts.refl d)
  exact ⟨same, fun o => (outs o).trans (if_pos (List.mem_finRange o))⟩

theorem tripStatusClear_clears (val : BitVec 16) (h : Reaches s b) :
    Does (.tripStatusClear t b val) s t [.host, .guard] (fun d =>
      d.guard = { s.dev.guard with outs := d.guard.outs } ∧
      (∀ o : Fin 8, d.guard.outs[o] = tripWritten (here s t) b val o s.dev.guard.outs[o]) ∧
      d.host.pages[b].violations = s.dev.host.pages[b].violations +
        BitVec.ofNat 32 (foreignBits val 0 8 (fun i => (s.dev.grants[b]).holds .outputs i))) := by
  obtain ⟨same, outs⟩ := tripsClear_spec (b := b) val (here s t)
  have guard : ((here s t).writeTrip b val).guard = ((here s t).tripsClear b val (List.finRange 8)).guard :=
    violateBits_keeps _ _ _ _ .guard (by decide)
  refine does_write (d := (here s t).writeTrip b val) h rfl (writeTrip_keeps _ _ _) ⟨?_, fun o => ?_, ?_⟩
  · rw [guard]
    exact same.guard
  · rw [guard]
    exact outs o
  · refine (violateBits_page b _ _ _).2.trans ?_
    obtain ⟨outs, he⟩ := same
    rw [he]
    rfl

/-- A comparator after a write of a word of THIMBLE_LATCH on the page of b (R197, R766). -/
def latchWritten (d : Dev) (b : Basket) (val : Word) (first : Nat) (i : Fin 32) (c : Comparator) : Comparator :=
  if first ≤ i.val ∧ i.val < first + 16 ∧ bit val.toNat (i.val - first) = true ∧ (d.grants[b]).holds .comparators i.val = true
  then { c with latch := false } else c

/-- A latch whose condition does not fall at this instant clears (R197, R199). -/
theorem latchClear_eq {d : Dev} {i : Fin 32} (h : d.guard.comps[i].latchSetAt ≠ d.now) :
    d.latchClear i = d.onComp i (fun c => { c with latch := false }) := by
  unfold Dev.latchClear
  by_cases hl : d.guard.comps[i].latch = true
  · simp only [hl, h, Bool.not_true, Bool.false_eq_true, if_false]
  · rw [Bool.not_eq_true] at hl
    simp only [hl, Bool.not_false, if_true]
    exact (onComp_id (by rw [← hl])).symm

theorem latchWritten_setAt (d : Dev) (val : Word) (first : Nat) (i : Fin 32) (c : Comparator) :
    (latchWritten d b val first i c).latchSetAt = c.latchSetAt := by
  unfold latchWritten
  split <;> rfl

theorem latchesClear_spec (val : Word) (first : Nat) (d : Dev) (hd : ∀ i : Fin 32, d.guard.comps[i].latchSetAt ≠ d.now) :
    OnlyComps d (d.latchesClear b val first (List.finRange 32)) ∧
    ∀ i : Fin 32, (d.latchesClear b val first (List.finRange 32)).guard.comps[i] = latchWritten d b val first i d.guard.comps[i] := by
  have stepped : ∀ (i : Fin 32) (e : Dev), OnlyComps d e ∧ (∀ j : Fin 32, e.guard.comps[j].latchSetAt ≠ d.now) →
      (if first ≤ i.val ∧ i.val < first + 16 ∧ bit val.toNat (i.val - first) = true ∧ (e.grants[b]).comparators[i] = true then e.latchClear i
        else e) = e.onComp i (latchWritten d b val first i) := by
    rintro i e ⟨⟨comps, rfl⟩, he⟩
    have held : (d.grants[b]).holds .comparators i.val = d.grants[b].comparators[i] := at?_fin _ _ _
    by_cases h : first ≤ i.val ∧ i.val < first + 16 ∧ bit val.toNat (i.val - first) = true ∧ d.grants[b].comparators[i] = true
    · rw [if_pos h, latchClear_eq (he i)]
      exact onComp_congr (if_pos (held.symm ▸ h)).symm
    · rw [if_neg h]
      exact (onComp_id (if_neg (held.symm ▸ h))).symm
  obtain ⟨⟨same, -⟩, comps⟩ := eachEntry (run := fun is e => e.latchesClear b val first is)
    (Same := fun e => OnlyComps d e ∧ ∀ j : Fin 32, e.guard.comps[j].latchSetAt ≠ d.now)
    (entry := fun e i => e.guard.comps[i]) (g := latchWritten d b val first) (fun _ => rfl) (fun _ _ _ => rfl)
    (fun i e he => by
      rw [stepped i e he]
      refine ⟨he.1.onComp _ _, fun j => ?_⟩
      by_cases h : j = i
      · subst h
        rw [onComp_same, latchWritten_setAt]
        exact he.2 j
      · rw [onComp_other _ _ h]
        exact he.2 j)
    (fun i e he => by rw [stepped i e he]; exact onComp_same _ _ _)
    (fun i j e he hj => by rw [stepped i e he]; exact onComp_other _ _ hj)
    (List.finRange 32) (List.nodup_finRange 32) d ⟨OnlyComps.refl d, hd⟩
  exact ⟨same, fun i => (comps i).trans (if_pos (List.mem_finRange i))⟩

theorem thimbleLatchClear_clears (word : Fin 2) (val : BitVec 16) (h : Reaches s b)
    (hq : ∀ i : Fin 32, s.dev.guard.comps[i].latchSetAt ≠ instant s t) :
    Does (.thimbleLatchClear t b word val) s t [.host, .guard] (fun d =>
      d.guard = { s.dev.guard with comps := d.guard.comps } ∧
      (∀ i : Fin 32, d.guard.comps[i] = latchWritten (here s t) b val (16 * word.val) i s.dev.guard.comps[i]) ∧
      d.host.pages[b].violations = s.dev.host.pages[b].violations +
        BitVec.ofNat 32 (foreignBits val (16 * word.val) 32 (fun i => (s.dev.grants[b]).holds .comparators i))) := by
  obtain ⟨same, comps⟩ := latchesClear_spec (b := b) val (16 * word.val) (here s t) hq
  have guard : ((here s t).writeLatch b word.val val).guard = ((here s t).latchesClear b val (16 * word.val) (List.finRange 32)).guard :=
    violateBits_keeps _ _ _ _ .guard (by decide)
  have frame : Keeps [.host, .guard] (here s t) ((here s t).writeLatch b word.val val) := by
    refine Keeps.andThen (violateBits_keeps _ _ _ _) (by decide) ?_
    obtain ⟨comps, he⟩ := same
    rw [he]
    exact Keeps.mono (onGuard_keeps (here s t) (fun g => { g with comps := comps })) (by decide)
  refine does_write (d := (here s t).writeLatch b word.val val) h rfl frame ⟨?_, fun i => ?_, ?_⟩
  · rw [guard]
    exact same.guard
  · rw [guard]
    exact comps i
  · refine (violateBits_page b _ _ _).2.trans ?_
    obtain ⟨comps, he⟩ := same
    rw [he]
    rfl

theorem overloadStatusClear_clears (word : Fin 2) (val : BitVec 16) (h : Reaches s b) :
    Does (.overloadStatusClear t b word val) s t [.host] (fun d =>
      (∀ i : Fin 24, d.host.pages[b].overload[i] = (s.dev.host.pages[b].overload[i] &&
        !decide (16 * word.val ≤ i.val ∧ i.val < 16 * word.val + 16 ∧ bit val.toNat (i.val - 16 * word.val) = true ∧
          Held s b .channels i.val ∧ s.dev.host.pages[b].overloadSetAt[i] ≠ instant s t))) ∧
      d.host.pages[b].violations = s.dev.host.pages[b].violations +
        BitVec.ofNat 32 (foreignBits val (16 * word.val) 24 (fun i => (s.dev.grants[b]).holds .channels i)) ∧
      (∀ c : Basket, c ≠ b → d.host.pages[c].overload = s.dev.host.pages[c].overload)) := by
  refine does_write (d := (here s t).clearOverload b word val) h rfl (clearOverload_keeps _ _ _ _) ⟨fun i => ?_, ?_, fun c hc => ?_⟩
  · unfold Dev.clearOverload
    rw [(violateBits_page b _ _ _).1 b, show ∀ f, ((here s t).onPage b f).host.pages[b] = f s.dev.host.pages[b] from fun f => upd_same _ _ _]
    refine (vmap_getElem _ _ i.val i.isLt).trans ?_
    rw [at?_fin]
    congr 2
    simp only [Bool.decide_and, Bool.decide_eq_true, Bool.and_assoc, bne_eq_decide_ne]
    rfl
  · unfold Dev.clearOverload
    rw [(violateBits_page b _ _ _).2, show ∀ f, ((here s t).onPage b f).host.pages[b] = f s.dev.host.pages[b] from fun f => upd_same _ _ _]
    rfl
  · unfold Dev.clearOverload
    rw [(violateBits_page b _ _ _).1 c]
    exact congrArg Page.overload (upd_other _ _ _ _ hc)

theorem resetCauseClear_clears (val : BitVec 16) (h : Reaches s 0) :
    Does (.resetCauseClear t 0 val) s t [.keep] (fun d =>
      d.keep = { s.dev.keep with resetCause := s.dev.keep.resetCause &&& ~~~(val.setWidth 5) }) :=
  does_write h rfl (clearCause_keeps _ _ _) rfl

/-- Only basket 0 has RESET_CAUSE (R718, R805). -/
theorem resetCauseClear_other (val : BitVec 16) (hb : b ≠ 0) : Does (.resetCauseClear t b val) s t [] (fun _ => True) := by
  have stays : (if (here s t).reachable b then (here s t).clearCause b val else here s t) = here s t := by
    rw [show (here s t).clearCause b val = here s t from if_neg hb, ite_self]
  exact does_stay rfl stays

end

/-- Settles O15: each register clears the bits that are written, held and not set at this instant; the others count as violations. -/
theorem statusClears : Obligations.StatusClears := by
  unfold Obligations.StatusClears
  refine ⟨?_, ?_, ?_, ?_, ?_⟩
  · intro s t b val h
    exact tripStatusClear_clears val h
  · intro s t b word val h hq
    exact thimbleLatchClear_clears word val h hq
  · intro s t b word val h
    exact overloadStatusClear_clears word val h
  · intro s t val h
    exact resetCauseClear_clears val h
  · intro s t b val hb
    exact resetCauseClear_other val hb

end Sys2Proof.Proofs

namespace Sys2Proof.Proofs
open Machine Laws

/-! ## A trip (R221 to R226) -/

section
variable {d : Dev} {o : Fin 8} {reason : TripReason}

/-- An output that trips now. -/
def trippedBy (reason : TripReason) (now : Time) (x : Needle) : Needle :=
  { x with tripped := true, armed := false, tripStatus := true, tripSetAt := now, reason := reason, trips := x.trips + 1 }

/-- The same with what it fired cut off (R226). -/
def cutOff (reason : TripReason) (now : Time) (x : Needle) : Needle := { trippedBy reason now x with firing := none }

theorem cutOff_of_idle {x : Needle} (h : x.firing = none) (now : Time) : cutOff reason now x = trippedBy reason now x := by
  unfold cutOff trippedBy
  rw [← h]

/-- The record of a trip (R225). -/
def tripEvent (o : Fin 8) (reason : TripReason) (count : BitVec 32) : Ev :=
  { event := .trip, subject := o.val, data0 := reason.number, data1 := count.toNat % 65536 }

/-- The TRIP bit of the baskets that hold an output, and the record of its trip (R225). -/
def tripNoticed (d : Dev) (o : Fin 8) (e : Ev) : Dev := (d.raise (d.holdersOnly (outHeld o)) .trip).postHeld (outHeld o) e

/-- An output has tripped and its trip is noticed. -/
def tripMarked (d : Dev) (o : Fin 8) (reason : TripReason) : Dev :=
  tripNoticed (d.onOut o (trippedBy reason d.now)) o (tripEvent o reason (d.guard.outs[o].trips + 1))

theorem tripNoticed_keeps (d : Dev) (o : Fin 8) (e : Ev) : Keeps [.host] d (tripNoticed d o e) :=
  Keeps.andThen (postHeld_keeps _ _ _) (fun _ hp => hp) (raise_keeps _ _ _)

@[simp] theorem tripMarked_guard : (tripMarked d o reason).guard = (d.onOut o (trippedBy reason d.now)).guard :=
  tripNoticed_keeps _ _ _ .guard (by decide)

theorem trip_eq : d.trip o reason = (match (tripMarked d o reason).guard.outs[o].firing with
    | some f => (tripMarked d o reason).fireEnd o f true
    | none => tripMarked d o reason).dropHeld o [0, 1, 2, 3] := by
  have count : (d.onOut o (trippedBy reason d.now)).guard.outs[o].trips = d.guard.outs[o].trips + 1 := by rw [onOut_same]; rfl
  unfold tripMarked
  rw [tripEvent, ← count]
  rfl

theorem synthRelease_guard (d : Dev) : d.synthRelease.guard = { d.guard with synth := d.synthRelease.guard.synth } := by
  unfold Dev.synthRelease
  split
  · rfl
  · split <;> rfl

/-- The output that fired, and the synthesiser when it waited for the last burst (R214, R222). -/
theorem fireEnd_guard (f : Firing) (aborted : Bool) : (d.fireEnd o f aborted).guard =
    { d.guard with outs := upd d.guard.outs o (fun x => { x with firing := none }), synth := (d.fireEnd o f aborted).guard.synth } :=
  (synthRelease_guard _).trans rfl

theorem dropHeld_guard (bs : List Basket) (d : Dev) : (d.dropHeld o bs).guard = { d.guard with held := (d.dropHeld o bs).guard.held } := by
  have finished : ∀ (e : Dev) (b : Basket) (x : CmdOutcome), (e.finish b 0x0312 x).guard = e.guard := fun e b x =>
    finish_keeps e b 0x0312 x .guard (by decide)
  induction bs generalizing d with
  | nil => rfl
  | cons b bs ih =>
    unfold Dev.dropHeld
    split
    · split
      · rw [ih, finished]
        rfl
      · exact ih d
    · exact ih d

/-- Without a held fire nothing is dropped. -/
theorem dropHeld_none (bs : List Basket) (h : ∀ c : Basket, d.guard.held[c] = none) : d.dropHeld o bs = d := by
  induction bs with
  | nil => rfl
  | cons b bs ih =>
    unfold Dev.dropHeld
    rw [h b]
    exact ih

/-- What a trip leaves of the comparators, the trip masks and the outputs. -/
theorem trip_guard : (d.trip o reason).guard.comps = d.guard.comps ∧ (d.trip o reason).guard.tripMasks = d.guard.tripMasks ∧
    (d.trip o reason).guard.outs = upd d.guard.outs o (cutOff reason d.now) := by
  rw [trip_eq, dropHeld_guard]
  have firing : (tripMarked d o reason).guard.outs[o].firing = d.guard.outs[o].firing := by
    rw [tripMarked_guard, onOut_same]; rfl
  have comps : (tripMarked d o reason).guard.comps = d.guard.comps := by rw [tripMarked_guard]; rfl
  have masks : (tripMarked d o reason).guard.tripMasks = d.guard.tripMasks := by rw [tripMarked_guard]; rfl
  have marked : (tripMarked d o reason).guard.outs = upd d.guard.outs o (trippedBy reason d.now) := congrArg Guard.outs tripMarked_guard
  rw [firing]
  cases h : d.guard.outs[o].firing with
  | none =>
    refine ⟨comps, masks, ?_⟩
    show (tripMarked d o reason).guard.outs = _
    rw [marked, upd, upd, cutOff_of_idle h]
  | some f =>
    show (Dev.fireEnd _ _ _ _).guard.comps = _ ∧ (Dev.fireEnd _ _ _ _).guard.tripMasks = _ ∧ (Dev.fireEnd _ _ _ _).guard.outs = _
    rw [fireEnd_guard, marked]
    refine ⟨comps, masks, ?_⟩
    simp only [upd, Fin.getElem_fin, Vector.getElem_set_self, Vector.set_set]
    rfl

/-- The trip of an output that does not fire, while no fire is held. -/
theorem trip_quiet (hf : d.guard.outs[o].firing = none) (hh : ∀ c : Basket, d.guard.held[c] = none) :
    d.trip o reason = tripMarked d o reason := by
  have firing : (tripMarked d o reason).guard.outs[o].firing = none := by
    rw [tripMarked_guard, onOut_same]; exact hf
  rw [trip_eq, firing]
  exact dropHeld_none _ (by rw [tripMarked_guard]; exact hh)

/-- The comparators, the trip masks and the instant are the same. -/
def SameInputs (d e : Dev) : Prop := e.guard.comps = d.guard.comps ∧ e.guard.tripMasks = d.guard.tripMasks ∧ e.clk = d.clk

theorem SameInputs.refl (d : Dev) : SameInputs d d := ⟨rfl, rfl, rfl⟩

theorem SameInputs.trip {e : Dev} (h : SameInputs d e) (o : Fin 8) (reason : TripReason) : SameInputs d (e.trip o reason) := by
  obtain ⟨comps, masks, clk⟩ := h
  exact ⟨trip_guard.1.trans comps, trip_guard.2.1.trans masks, (trip_keeps e o reason .clk (by decide)).trans clk⟩

theorem SameInputs.onOut {e : Dev} (h : SameInputs d e) (o : Fin 8) (f : Needle → Needle) : SameInputs d (e.onOut o f) := h

theorem SameInputs.tripInput {e : Dev} (h : SameInputs d e) (o : Fin 8) : e.tripInput o = d.tripInput o := tripInput_congr h.1 h.2.1 o

theorem SameInputs.now {e : Dev} (h : SameInputs d e) : e.now = d.now := congrArg Clock.now h.2.2

theorem trip_same : (d.trip o reason).guard.outs[o] = cutOff reason d.now d.guard.outs[o] := by
  rw [trip_guard.2.2]
  exact upd_same _ _ _

theorem trip_other {p : Fin 8} (h : p ≠ o) : (d.trip o reason).guard.outs[p] = d.guard.outs[p] := by
  rw [trip_guard.2.2]
  exact upd_other _ _ _ _ h

/-- Every output of a list trips. -/
theorem tripAll_spec (os : List (Fin 8)) (h : os.Nodup) (d : Dev) : SameInputs d (d.tripAll reason os) ∧
    ∀ p : Fin 8, (d.tripAll reason os).guard.outs[p] = if p ∈ os then cutOff reason d.now d.guard.outs[p] else d.guard.outs[p] :=
  eachEntry (run := fun os e => e.tripAll reason os) (Same := SameInputs d) (entry := fun e p => e.guard.outs[p])
    (g := fun _ => cutOff reason d.now) (fun _ => rfl) (fun _ _ _ => rfl) (fun o _ he => he.trip o reason)
    (fun _ e he => by rw [trip_same, he.now]) (fun _ _ _ _ hp => trip_other hp) os h d (SameInputs.refl d)

/-- An output when its trip input has just gone active (R206, R223). -/
def edgeTripped (d : Dev) (was : Fin 8 → Bool) (o : Fin 8) (x : Needle) : Needle :=
  if d.tripInput o = true ∧ was o = false then cutOff .thimble d.now x else x

/-- The outputs of a list trip whose trip inputs have gone active. -/
theorem tripEdges_spec (was : Fin 8 → Bool) (os : List (Fin 8)) (h : os.Nodup) (d : Dev) : SameInputs d (d.tripEdges was os) ∧
    ∀ p : Fin 8, (d.tripEdges was os).guard.outs[p] = if p ∈ os then edgeTripped d was p d.guard.outs[p] else d.guard.outs[p] := by
  have active : ∀ o e, SameInputs d e → ((e.tripInput o && !was o) = true ↔ d.tripInput o = true ∧ was o = false) := fun o e he => by
    rw [he.tripInput]; simp
  refine eachEntry (run := fun os e => e.tripEdges was os) (Same := SameInputs d) (entry := fun e p => e.guard.outs[p])
    (g := edgeTripped d was) (step := fun o e => if e.tripInput o && !was o then e.trip o .thimble else e)
    (fun _ => rfl) (fun _ _ _ => rfl) (fun o e he => ?_) (fun o e he => ?_) (fun o p e he hp => ?_) os h d (SameInputs.refl d)
  · split
    · exact he.trip o .thimble
    · exact he
  · dsimp only [edgeTripped]
    simp only [active o e he]
    split
    · rw [trip_same, he.now]
    · rfl
  · split
    · exact trip_other hp
    · rfl

/-- No trip input has gone active. -/
theorem tripEdges_none {was : Fin 8 → Bool} (os : List (Fin 8)) (h : ∀ o ∈ os, d.tripInput o = true → was o = true) : d.tripEdges was os = d := by
  induction os with
  | nil => rfl
  | cons o os ih =>
    have calm : ¬ (d.tripInput o && !was o) = true := by
      intro active
      simp only [Bool.and_eq_true, Bool.not_eq_true'] at active
      rw [h o List.mem_cons_self active.1] at active
      exact Bool.noConfusion active.2
    unfold Dev.tripEdges
    rw [if_neg calm]
    exact ih (fun p hp => h p (List.mem_cons_of_mem _ hp))

end

/-! ## Trips on the pages: a trip completes no command (R777) -/

/-- CMD_COUNT of every page is the same. -/
def CountsStay (d e : Dev) : Prop := ∀ c : Basket, e.host.pages[c].cmdCount = d.host.pages[c].cmdCount

theorem CountsStay.refl (d : Dev) : CountsStay d d := fun _ => rfl

theorem CountsStay.trans {d e f : Dev} (h : CountsStay d e) (h' : CountsStay e f) : CountsStay d f := fun c => (h' c).trans (h c)

theorem CountsStay.of_host {d e : Dev} (h : e.host = d.host) : CountsStay d e := fun c => by rw [h]

theorem onPages_countsStay (d : Dev) (to_ : Nat → Bool) (f : Nat → Page → Page) (hf : ∀ n p, (f n p).cmdCount = p.cmdCount) :
    CountsStay d (d.onPages to_ f) := fun c => by
  rw [onPages_page]
  split
  · exact hf _ _
  · rfl

theorem raise_countsStay (d : Dev) (to_ : Nat → Bool) (i : Irq) : CountsStay d (d.raise to_ i) := onPages_countsStay _ _ _ (fun _ _ => rfl)

theorem post_countsStay (d : Dev) (to_ : Nat → Bool) (stamp : BitVec 64) (e : Ev) : CountsStay d (d.post to_ stamp e) :=
  onPages_countsStay _ _ _ (fun _ p => by
    unfold Page.take
    dsimp only
    split <;> rfl)

theorem finish_countsStay (d : Dev) (b : Basket) (code : Word) (o : CmdOutcome) : CountsStay d (d.finish b code o) := fun c => by
  by_cases h : c = b
  · subst h
    rw [Dev.finish, show ∀ f, (d.onPage c f).host.pages[c] = f d.host.pages[c] from fun f => upd_same _ _ _]
    split
    · split <;> rfl
    · rfl
  · exact congrArg Page.cmdCount (upd_other _ _ _ _ h)

theorem fireEnd_countsStay (d : Dev) (o : Fin 8) (f : Firing) (aborted : Bool) : CountsStay d (d.fireEnd o f aborted) := by
  unfold Dev.fireEnd
  refine CountsStay.trans ?_ (CountsStay.of_host (synthRelease_keeps _ .host (by decide)))
  exact post_countsStay ((d.draw.2).onOut o (fun x => { x with firing := none })) _ _ _

theorem dropHeld_countsStay (o : Fin 8) (bs : List Basket) (d : Dev) : CountsStay d (d.dropHeld o bs) := by
  induction bs generalizing d with
  | nil => exact CountsStay.refl d
  | cons b bs ih =>
    unfold Dev.dropHeld
    split
    · split
      · exact CountsStay.trans (finish_countsStay (d.onGuard _) b 0x0312 _) (ih _)
      · exact ih d
    · exact ih d

theorem trip_countsStay (d : Dev) (o : Fin 8) (reason : TripReason) : CountsStay d (d.trip o reason) := by
  have marked : CountsStay d (tripMarked d o reason) :=
    CountsStay.trans (raise_countsStay (d.onOut o (trippedBy reason d.now)) _ _) (post_countsStay _ _ _ _)
  rw [trip_eq]
  refine CountsStay.trans ?_ (dropHeld_countsStay _ _ _)
  split
  · exact marked.trans (fireEnd_countsStay _ _ _ _)
  · exact marked

theorem tripAll_countsStay (reason : TripReason) (os : List (Fin 8)) (d : Dev) : CountsStay d (d.tripAll reason os) := by
  induction os generalizing d with
  | nil => exact CountsStay.refl d
  | cons o os ih => exact (trip_countsStay d o reason).trans (ih _)

end Sys2Proof.Proofs

namespace Sys2Proof.Proofs
open Machine Laws

/-! ## Effects that follow from others -/

theorem does_imp {i : Instr} {s : State} {t : Time} {changed : List Part} {effect effect' : Dev → Prop} (h : Does i s t changed effect)
    (he : ∀ d, effect d → effect' d) : Does i s t changed effect' := by
  obtain ⟨s', hi, hc, hf, hp, hk, hd⟩ := h
  exact ⟨s', hi, hc, hf, hp, hk, he _ hd⟩

theorem completes_imp {h : HostSide} {i : Instr} {s : State} {t : Time} {b : Basket} {r0 r1 r2 r3 : Word} {changed : List Part}
    {effect effect' : Dev → Prop} (hc : CompletesOver h i s t b r0 r1 r2 r3 changed effect) (he : ∀ d, effect d → effect' d) :
    CompletesOver h i s t b r0 r1 r2 r3 changed effect' := does_imp hc fun d hd => ⟨hd.1, he d hd.2⟩

/-! ## Commands that WATCH accepts and that complete in their step (R777, R874) -/

section
variable {i : Instr} {c : Command} {s : State} {t : Time} {b : Basket}

@[simp] theorem judged_guard : (judged c s t b).guard = s.dev.guard := rfl

@[simp] theorem judged_pwr : (judged c s t b).pwr = s.dev.pwr := rfl

@[simp] theorem complete_guard (d : Dev) (o : CmdOutcome) : (d.complete b o).guard = d.guard := rfl

theorem judged_tripInput (o : Fin 8) : (judged c s t b).tripInput o = s.dev.tripInput o := rfl

theorem judged_stamp : (judged c s t b).stamp = (here s t).stamp := rfl

theorem operands_output_held {n : Nat} (hh : Held s b .outputs n) : (operands s t b).output (judged c s t b) n = true := hh

theorem operands_comparator_held {n : Nat} (hh : Held s b .comparators n) : (operands s t b).comparator (judged c s t b) n = true := hh

/-- A command that WATCH accepts, passes its checks and changes neither the host side nor the clock. -/
theorem completes_watch {changed : List Part} {effect : Dev → Prop} {d : Dev} (hi : exec i s = hostCommand c t b s) (hs : Starts s b)
    (hw : watchAccepts c.code = true) (h0 : c.sup = true → b = 0) (h1 : c.names (operands s t b) (judged c s t b) = true)
    (h2 : c.zero (operands s t b) (judged c s t b) = false) (h3 : c.range (operands s t b) (judged c s t b) = none)
    (h4 : c.state (operands s t b) (judged c s t b) = none) (ha : c.act (operands s t b) (judged c s t b) = (d, .ok []))
    (hk : Keeps changed (judged c s t b) d) (hn : Part.host ∉ changed ∧ Part.clk ∉ changed) (he : effect (d.complete b (success []))) :
    Completes i s t b 0 0 0 0 changed effect :=
  completes_results hi hs (judge_watch hw h0 h1 h2 h3 h4) ha rfl hk hn he

/-- The same for a command that may post. -/
theorem does_watch {changed : List Part} {effect : Dev → Prop} {d : Dev} (hi : exec i s = hostCommand c t b s) (hs : Starts s b)
    (hw : watchAccepts c.code = true) (h0 : c.sup = true → b = 0) (h1 : c.names (operands s t b) (judged c s t b) = true)
    (h2 : c.zero (operands s t b) (judged c s t b) = false) (h3 : c.range (operands s t b) (judged c s t b) = none)
    (h4 : c.state (operands s t b) (judged c s t b) = none) (ha : c.act (operands s t b) (judged c s t b) = (d, .ok []))
    (hk : Keeps changed (judged c s t b) d) (hh : Part.host ∈ changed) (he : effect (d.complete b (success []))) :
    Does i s t changed effect := by
  have host : ∀ p ∈ [Part.host], p ∈ changed := fun p hp => List.mem_singleton.mp hp ▸ hh
  exact does_of (hi.trans (hostCommand_ok c s t b d [] hs (judge_watch hw h0 h1 h2 h3 h4) ha))
    (Keeps.andThen (complete_keeps _ _ _) host (Keeps.andThen hk (fun _ hp => hp) (Keeps.mono (onPage_keeps _ _ _) host))) he

/-- The outputs once a command has tripped one of them. -/
theorem tripMarked_complete_guard (d : Dev) (o : Fin 8) (reason : TripReason) (x : CmdOutcome) :
    ((tripMarked d o reason).complete b x).guard = { d.guard with outs := d.guard.outs.set o.val (trippedBy reason d.now d.guard.outs[o]) } := by
  rw [complete_guard, tripMarked_guard]
  rfl

end

/-! ## The pages when a command trips an output (R225, R777) -/

/-- A page with the registers of the command in progress as given. -/
def commanded (p : Page) (state : CmdState) (ignored : BitVec 8) (running : Option Running) : Page :=
  { p with cmdState := state, ignored := ignored, running := running }

theorem commanded_take (p : Page) (x : CmdState) (n : BitVec 8) (r : Option Running) (on : Bool) (now : Time) (stamp : BitVec 64) (e : Ev) :
    (commanded p x n r).take on now stamp e = commanded (p.take on now stamp e) x n r := by
  unfold Page.take commanded
  dsimp only
  split <;> rfl

/-- The page of a basket after the notice of a trip. -/
def noticedPage (d : Dev) (o : Fin 8) (e : Ev) (b : Basket) (p : Page) : Page :=
  let q := if d.holdersOnly (outHeld o) b.val then p.raise .trip d.now else p
  if d.holders (outHeld o) b.val then q.take (d.enabled b.val) d.now d.stamp e else q

theorem tripNoticed_page (d : Dev) (o : Fin 8) (e : Ev) (b : Basket) :
    (tripNoticed d o e).host.pages[b] = noticedPage d o e b d.host.pages[b] := by
  rw [tripNoticed, postHeld_page, Dev.raise, onPages_page]
  rfl

theorem noticedPage_commanded (d : Dev) (o : Fin 8) (e : Ev) (b : Basket) (p : Page) (x : CmdState) (n : BitVec 8) (r : Option Running) :
    noticedPage d o e b (commanded p x n r) = commanded (noticedPage d o e b p) x n r := by
  have raised : (if d.holdersOnly (outHeld o) b.val then (commanded p x n r).raise .trip d.now else commanded p x n r) =
      commanded (if d.holdersOnly (outHeld o) b.val then p.raise .trip d.now else p) x n r := by split <;> rfl
  unfold noticedPage
  dsimp only
  rw [raised, commanded_take]
  split <;> rfl

section
variable {c : Command} {s : State} {t : Time} {b : Basket} {J : Dev}

/-- A command that trips an output completes over the notice of the trip. -/
theorem tripNoticed_complete_host (hh : J.host = (judged c s t b).host) (hc : J.clk = (here s t).clk) (hg : J.grants = s.dev.grants)
    (o : Fin 8) (e : Ev) : ((tripNoticed J o e).complete b (success [])).host =
      doneHost (tripNoticed (here s t) o e).host b 0 0 0 0 0 (instant s t) := by
  have now : J.now = instant s t := congrArg Clock.now hc
  have noticed : ∀ k p, noticedPage J o e k p = noticedPage (here s t) o e k p := fun k p => by
    have enabled : J.enabled k.val = (here s t).enabled k.val := by unfold Dev.enabled; rw [hh]; rfl
    have stamp : J.stamp = (here s t).stamp := stamp_congr hc
    have only : J.holdersOnly (outHeld o) = (here s t).holdersOnly (outHeld o) := by unfold Dev.holdersOnly; rw [hg]; rfl
    have holders : J.holders (outHeld o) = (here s t).holders (outHeld o) := by unfold Dev.holders; rw [hg]; rfl
    unfold noticedPage
    rw [now, enabled, stamp, only, holders]
    rfl
  have done : ((tripNoticed J o e).complete b (success [])).host =
      { s.dev.host with pages := upd (tripNoticed J o e).host.pages b (fun p => p.complete (success []) (instant s t)) } := by
    rw [← now]
    show ({ J.host with pages := _ } : HostSide) = _
    rw [hh]
    rfl
  have pages : upd (tripNoticed J o e).host.pages b (fun p => p.complete (success []) (instant s t)) =
      (tripNoticed (here s t) o e).host.pages.set b.val (donePage (tripNoticed (here s t) o e).host.pages[b] 0 0 0 0 0 (instant s t)) := by
    have page : ∀ k : Basket, (upd (tripNoticed J o e).host.pages b (fun p => p.complete (success []) (instant s t)))[k] =
        (upd (tripNoticed (here s t) o e).host.pages b (fun p => donePage p 0 0 0 0 0 (instant s t)))[k] := fun k => by
      by_cases h : k = b
      · have accepted : (judged c s t k).host.pages[k] = commanded s.dev.host.pages[k] .busy 0
            (some { code := c.code, args := s.dev.host.pages[k].args, tag := s.dev.host.pages[k].cmdTag, since := instant s t, outcome := none }) :=
          upd_same _ _ _
        subst h
        rw [upd_same, upd_same, tripNoticed_page, tripNoticed_page, noticed, hh, accepted, noticedPage_commanded]
        rfl
      · have other : (judged c s t b).host.pages[k] = s.dev.host.pages[k] := upd_other _ _ _ _ h
        rw [upd_other _ _ _ _ h, upd_other _ _ _ _ h, tripNoticed_page, tripNoticed_page, noticed, hh, other]
        rfl
    exact Vector.ext fun k hk => page ⟨k, hk⟩
  rw [done, pages]
  rfl

/-- The same for the output that the command trips. -/
theorem tripMarked_complete_host (hh : J.host = (judged c s t b).host) (hc : J.clk = (here s t).clk) (hg : J.grants = s.dev.grants)
    (o : Fin 8) (reason : TripReason) : ((tripMarked J o reason).complete b (success [])).host =
      doneHost (tripNoticed (here s t) o (tripEvent o reason (J.guard.outs[o].trips + 1))).host b 0 0 0 0 0 (instant s t) :=
  tripNoticed_complete_host (J := J.onOut o (trippedBy reason J.now)) hh hc hg o _

end

/-! ## Masks of outputs -/

theorem mem_maskOuts {m : Nat} {o : Fin 8} : o ∈ maskOuts m ↔ bit m o.val = true := by simp [maskOuts]

theorem maskOuts_nodup (m : Nat) : (maskOuts m).Nodup := (List.nodup_finRange 8).filter _

theorem maskOuts_single (o : Fin 8) : maskOuts (2 ^ o.val) = [o] := by
  revert o
  decide

theorem bit_single (o p : Fin 8) : bit (2 ^ o.val) p.val = true ↔ p = o := by
  revert o p
  decide

theorem named_all {d : Dev} {m : Nat} {p : Needle → Bool} : (d.named m).all p = true ↔ ∀ o : Fin 8, bit m o.val = true → p d.guard.outs[o] = true := by
  simp only [Dev.named, List.all_map, List.all_eq_true, mem_maskOuts, Function.comp]

/-! ## Needle commands (R209 to R238, Table 05-7) -/

section
variable {s : State} {t : Time} {b : Basket}

/-- Every output of a mask exists and is held. -/
structure OutputsHeld (s : State) (b : Basket) (m : Nat) : Prop where
  some : 1 ≤ m
  exist : m < 256
  held : ∀ o : Fin 8, bit m o.val = true → Held s b .outputs o.val

theorem OutputsHeld.names {c : Command} {m : Nat} (h : OutputsHeld s b m) : (operands s t b).outputs (judged c s t b) m = true := by
  simp only [Ctx.outputs, decide_eq_true h.exist, Bool.true_and, List.all_eq_true, List.mem_range, Bool.or_eq_true, Bool.not_eq_true']
  intro o ho
  cases hb : bit m o
  · exact Or.inl rfl
  · exact Or.inr (operands_output_held (h.held ⟨o, ho⟩ hb))

theorem OutputsHeld.nonzero {m : Nat} (h : OutputsHeld s b m) : (m == 0) = false := by
  have := h.some
  exact beq_false_of_ne (by omega)

theorem OutputsHeld.single {o : Fin 8} (h : Held s b .outputs o.val) : OutputsHeld s b (2 ^ o.val) where
  some := Nat.one_le_two_pow
  exist := Nat.pow_lt_pow_right (by decide) o.isLt
  held p hp := (bit_single o p).mp hp ▸ h

/-- The setting that NDL_SET describes, from its mode, its two values, its burst count and the setting before (Table 16-6). -/
def describedSetting (mode a c burst safe : Nat) (activeLow : Bool) (old : NeedleSet) : NeedleSet :=
  let plain := { old with activeLow := activeLow, safe := if safe = 0 then SafeLevel.low else if safe = 1 then SafeLevel.high else SafeLevel.highz }
  if mode = 0 then { plain with mode := .off } else if mode = 1 then { plain with mode := .pwm, period := a, active := c }
  else if mode = 2 then { plain with mode := .burst, burst := burst } else if mode = 3 then { plain with mode := .heartbeat, halfUs := a, feedMs := c }
  else { plain with mode := .oneshot, width := a }

theorem needleOfArgs_eq (old : NeedleSet) (hm : arg s b 1 % 8 ≤ 4) (hsafe : arg s b 1 / 16 % 4 ≤ 2) : needleOfArgs (operands s t b) old =
    describedSetting (arg s b 1 % 8) (arg32 s b 2) (arg32 s b 4) (arg s b 6) (arg s b 1 / 16 % 4) (argBit s b 1 3) old := by
  have a2 : (operands s t b).arg32 2 = arg32 s b 2 := operands_arg32 2
  have a4 : (operands s t b).arg32 4 = arg32 s b 4 := operands_arg32 4
  have modes : arg s b 1 % 8 = 0 ∨ arg s b 1 % 8 = 1 ∨ arg s b 1 % 8 = 2 ∨ arg s b 1 % 8 = 3 ∨ arg s b 1 % 8 = 4 := by omega
  have safes : arg s b 1 / 16 % 4 = 0 ∨ arg s b 1 / 16 % 4 = 1 ∨ arg s b 1 / 16 % 4 = 2 := by omega
  rcases modes with h | h | h | h | h <;> rcases safes with h' | h' | h' <;>
    simp [needleOfArgs, describedSetting, bits, needleModeOf, a2, a4, h, h']

end
end Sys2Proof.Proofs

namespace Sys2Proof.Proofs
open Machine Laws

/-! ## NDL_SET (R209, R236 to R238) -/

section
variable {s : State} {t : Time} {b : Basket} {o : Fin 8}

theorem describedSetting_mode {mode : Nat} (h : mode ≤ 4) (a c burst safe : Nat) (activeLow : Bool) (old : NeedleSet) :
    (describedSetting mode a c burst safe activeLow old).mode = needleModeOf mode := by
  have modes : mode = 0 ∨ mode = 1 ∨ mode = 2 ∨ mode = 3 ∨ mode = 4 := by omega
  rcases modes with h | h | h | h | h <;> subst h <;> rfl

theorem describedSetting_pwm {m a c n k : Nat} {activeLow : Bool} {old : NeedleSet} (h : m ≤ 4)
    (hm : (describedSetting m a c n k activeLow old).mode = .pwm) :
    (describedSetting m a c n k activeLow old).period = a ∧ (describedSetting m a c n k activeLow old).active = c := by
  rw [describedSetting_mode h] at hm
  have modes : m = 0 ∨ m = 1 ∨ m = 2 ∨ m = 3 ∨ m = 4 := by omega
  rcases modes with rfl | rfl | rfl | rfl | rfl
  · cases hm
  · exact ⟨rfl, rfl⟩
  · cases hm
  · cases hm
  · cases hm

theorem configure_tripped {x : Needle} (new : NeedleSet) (h : x.tripped = true) :
    x.configure new = { x with configured := true, waiting := some new } := if_pos h

theorem configure_newMode {x : Needle} {new : NeedleSet} (h : x.tripped = false) (hm : new.mode ≠ x.set.mode) :
    x.configure new = { x with configured := true, set := new, armed := false, nextPH := none, phase := false } := by
  unfold Needle.configure
  rw [if_neg (by simp [h]), if_pos (by simpa using hm)]

/-- Is a changed period and active time to wait for the next period (R209)? -/
def waitsForPeriod (x : Needle) (new : NeedleSet) : Bool := !x.tripped && new.mode == .pwm && x.set.mode == .pwm && x.armed

theorem configure_late {x : Needle} {new : NeedleSet} (h : waitsForPeriod x new = true) : x.configure new =
    { x with configured := true, set := { new with period := x.set.period, active := x.set.active }, nextPH := some (new.period, new.active) } := by
  simp only [waitsForPeriod, Bool.and_eq_true, Bool.not_eq_true', beq_iff_eq] at h
  obtain ⟨⟨⟨hx, hnew⟩, hold⟩, harmed⟩ := h
  unfold Needle.configure
  rw [if_neg (by simp [hx]), if_neg (by simp [hnew, hold]), if_pos (by simp [hnew, harmed])]

theorem configure_now {x : Needle} {new : NeedleSet} (h : x.tripped = false) (hm : new.mode = x.set.mode) (hl : waitsForPeriod x new = false) :
    x.configure new = { x with configured := true, set := new } := by
  have notLate : (new.mode == .pwm && x.armed) = false := by
    simpa [waitsForPeriod, h, ← hm] using hl
  unfold Needle.configure
  rw [if_neg (by simp [h]), if_neg (by simp [hm]), if_neg (by simp [notLate])]

/-- The values of an NDL_SET lie in the ranges of Table 05-7. -/
structure SettingInRange (m a c n k : Nat) : Prop where
  mode : m ≤ 4
  safe : k ≤ 2
  pwm : m = 1 → 2 ≤ a ∧ a ≤ 16777215 ∧ c ≤ a
  burst : m = 2 → 1 ≤ n
  heartbeat : m = 3 → 100 ≤ a ∧ a ≤ 1000000 ∧ c ≤ 60000
  oneshot : m = 4 → 1 ≤ a ∧ a ≤ 16777215

theorem cmdNdlSet_inRange {d : Dev} (h : SettingInRange (arg s b 1 % 8) (arg32 s b 2) (arg32 s b 4) (arg s b 6) (arg s b 1 / 16 % 4)) :
    cmdNdlSet.zero (operands s t b) d = false ∧ cmdNdlSet.range (operands s t b) d = none := by
  have a2 : (operands s t b).arg32 2 = arg32 s b 2 := operands_arg32 2
  have a4 : (operands s t b).arg32 4 = arg32 s b 4 := operands_arg32 4
  obtain ⟨mode, safe, pwm, burst, heartbeat, oneshot⟩ := h
  have modes : arg s b 1 % 8 = 0 ∨ arg s b 1 % 8 = 1 ∨ arg s b 1 % 8 = 2 ∨ arg s b 1 % 8 = 3 ∨ arg s b 1 % 8 = 4 := by omega
  rcases modes with hm | hm | hm | hm | hm
  · simp [cmdNdlSet, bits, argRange, hm, safe]
  · have := pwm hm
    simp [cmdNdlSet, bits, argRange, hm, safe, a2, a4, this]
    omega
  · have := burst hm
    simp [cmdNdlSet, bits, argRange, hm, safe]
    omega
  · have := heartbeat hm
    simp [cmdNdlSet, bits, argRange, hm, safe, a2, a4, this]
    omega
  · have := oneshot hm
    simp [cmdNdlSet, bits, argRange, hm, safe, a2, this]
    omega

theorem cmdNdlSet_state {x : Ctx} {d : Dev} (h0 : x.arg 0 = o.val) : cmdNdlSet.state x d =
    need (!(d.guard.outs[o].firing.isSome && needleModeOf (x.arg 1 % 8) != d.guard.outs[o].set.mode)) .busy := by
  simp [cmdNdlSet, bits, h0]

theorem ndlSet_configures {new : NeedleSet} (hs : Starts s b) (h0 : arg s b 0 = o.val) (hh : Held s b .outputs o.val)
    (hr : SettingInRange (arg s b 1 % 8) (arg32 s b 2) (arg32 s b 4) (arg s b 6) (arg s b 1 / 16 % 4))
    (hnew : new = describedSetting (arg s b 1 % 8) (arg32 s b 2) (arg32 s b 4) (arg s b 6) (arg s b 1 / 16 % 4) (argBit s b 1 3)
      s.dev.guard.outs[o].base)
    (hf : s.dev.guard.outs[o].firing = none ∨ new.mode = s.dev.guard.outs[o].set.mode) :
    Completes (.ndlSet t b) s t b 0 0 0 0 [.guard] (fun d => d.guard = { s.dev.guard with outs := d.guard.outs } ∧
      (∀ p : Fin 8, p ≠ o → d.guard.outs[p] = s.dev.guard.outs[p]) ∧ d.guard.outs[o] = s.dev.guard.outs[o].configure new) := by
  obtain ⟨zero, range⟩ := cmdNdlSet_inRange (t := t) (d := judged cmdNdlSet s t b) hr
  have idle : (s.dev.guard.outs[o].firing.isSome && needleModeOf (arg s b 1 % 8) != s.dev.guard.outs[o].set.mode) = false := by
    rw [hnew, describedSetting_mode hr.mode] at hf
    obtain h | h := hf
    · rw [h]; rfl
    · rw [h]; simp
  have set : needleOfArgs (operands s t b) s.dev.guard.outs[o].base = new := (needleOfArgs_eq _ hr.mode hr.safe).trans hnew.symm
  refine completes_watch (c := cmdNdlSet) (d := (judged cmdNdlSet s t b).onOut o (fun n => n.configure (needleOfArgs (operands s t b) n.base)))
    rfl hs rfl (fun h => by cases h) ?_ zero range ?_ ?_ (onOut_keeps _ _ _) (by decide) ⟨rfl, fun p hp => onOut_other _ _ hp, ?_⟩
  · simpa [cmdNdlSet, h0] using operands_output_held (c := cmdNdlSet) (t := t) hh
  · rw [cmdNdlSet_state (x := operands s t b) h0, operands_arg, judged_guard, idle]
    rfl
  · simp [cmdNdlSet, h0]
  · rw [complete_guard, onOut_same, judged_guard, set]

/-! ## NDL_SYNTH_SET (R212, R214, R215) -/

theorem bursting_iff {g : Guard} : g.bursting = true ↔ ∃ o : Fin 8, g.outs[o].firing ≠ none ∧ g.outs[o].set.mode = .burst := by
  simp only [Guard.bursting, List.any_eq_true, Bool.and_eq_true, beq_iff_eq, Option.isSome_iff_ne_none]
  constructor
  · rintro ⟨x, hx, h⟩
    obtain ⟨k, hk, rfl⟩ := List.mem_iff_getElem.mp hx
    have : k < 8 := by simpa using hk
    exact ⟨⟨k, this⟩, by simpa using h⟩
  · rintro ⟨o, h⟩
    exact ⟨g.outs[o], by simp, h⟩

/-- A retuned synthesiser (R212, R215). -/
theorem retune_eq (y : Synth) (f : Nat) (now : Time) : y.retune f now =
    { freq := f, waiting := none, since := now,
      state := if y.state = .calibrating ∨ synthRange f ≠ synthRange y.freq then SynthState.calibrating else .settling } := by
  simp only [Synth.retune, Bool.or_eq_true, beq_iff_eq, bne_iff_ne]

/-- The synthesiser after NDL_SYNTH_SET. -/
def synthSet (s : State) (t : Time) (b : Basket) : Synth :=
  if s.dev.guard.bursting then { s.dev.guard.synth with waiting := some (arg32 s b 0) }
  else s.dev.guard.synth.retune (arg32 s b 0) (instant s t)

theorem ndlSynthSet_sets (hs : Starts s b) (hh : (s.dev.grants[b]).synth = true) (h0 : 1000 ≤ arg32 s b 0 ∧ arg32 s b 0 ≤ 5000000) :
    Completes (.ndlSynthSet t b) s t b 0 0 0 0 [.guard] (fun d => d.guard = { s.dev.guard with synth := synthSet s t b }) := by
  have a0 : (operands s t b).arg32 0 = arg32 s b 0 := operands_arg32 0
  refine completes_watch (c := cmdNdlSynthSet) (d := (judged cmdNdlSynthSet s t b).onGuard (fun g => { g with synth := synthSet s t b }))
    rfl hs rfl (fun h => by cases h) hh rfl ?_ rfl ?_ (onGuard_keeps _ _) (by decide) rfl
  · simp [cmdNdlSynthSet, argRange, a0, h0]
  · simp only [cmdNdlSynthSet, a0]
    rfl

/-! ## NDL_FIRE (R217 to R219) -/

/-- A long command that WATCH accepts and that passes its checks stays BUSY (R774, R813, R874). -/
theorem begins_watch {i : Instr} {c : Command} {changed : List Part} {effect : Dev → Prop} {d : Dev} (hi : exec i s = hostCommand c t b s)
    (hs : Starts s b) (hw : watchAccepts c.code = true) (h0 : c.sup = true → b = 0)
    (h1 : c.names (operands s t b) (judged c s t b) = true) (h2 : c.zero (operands s t b) (judged c s t b) = false)
    (h3 : c.range (operands s t b) (judged c s t b) = none) (h4 : c.state (operands s t b) (judged c s t b) = none)
    (ha : c.act (operands s t b) (judged c s t b) = (d, .wait)) (hk : Keeps changed (judged c s t b) d) (hn : Part.host ∉ changed)
    (he : effect d) : Begins i s t b c.code changed effect := by
  refine ⟨_, hi.trans (hostCommand_wait c s t b d hs (judge_watch hw h0 h1 h2 h3 h4) ha), rfl, rfl, rfl, ?_, hk .host hn, he⟩
  exact Keeps.andThen hk (fun _ hp => List.mem_cons_of_mem _ hp) (Keeps.mono (onPage_keeps _ _ _) (by simp))

/-- The fire that an accepted NDL_FIRE holds. -/
def heldFire (s : State) (t : Time) (b : Basket) : HeldFire :=
  let at_ := arg32 s b 1 + 2 ^ 32 * arg32 s b 3
  { mask := arg s b 0, start := if at_ ≤ (here s t).stamp.toNat then none else some at_, deadline := instant s t + us (arg32 s b 5),
    tag := s.dev.host.pages[b].cmdTag }

theorem cmdNdlFire_inTime {x : Ctx} {d : Dev} (h : ∀ st ∈ d.fireStart x, st < d.fireLimit x) : cmdNdlFire.range x d = none := by
  simp only [cmdNdlFire]
  cases hst : d.fireStart x with
  | none => rfl
  | some st =>
    simp only [decide_eq_true (h st hst)]
    rfl

theorem cmdNdlFire_state (x : Ctx) (d : Dev) : cmdNdlFire.state x d =
    firstErr [need ((d.named (x.arg 0)).all (fun n => !n.tripped && (n.set.mode == .burst || n.set.mode == .oneshot))) .state,
      need ((d.named (x.arg 0)).all (fun n => n.firing.isNone)) .busy] := rfl

theorem cmdNdlFire_act (x : Ctx) (d : Dev) : cmdNdlFire.act x d =
    (let h : HeldFire := { mask := x.arg 0, start := d.fireStart x, deadline := d.now + us (x.arg32 5), tag := x.tag }
     (d.onGuard (fun g => { g with held := d.guard.held.set x.b (some h) }), .wait)) := rfl

theorem ndlFire_holds (hs : Starts s b) (hm : OutputsHeld s b (arg s b 0)) (hn : 1 ≤ arg32 s b 5)
    (hat : arg32 s b 1 + 2 ^ 32 * arg32 s b 3 ≤ (here s t).stamp.toNat ∨
      arg32 s b 1 + 2 ^ 32 * arg32 s b 3 < (here s t).stamp.toNat + 1000 * arg32 s b 5)
    (hx : ∀ o : Fin 8, bit (arg s b 0) o.val = true → (s.dev.guard.outs[o]).tripped = false ∧ (s.dev.guard.outs[o]).firing = none ∧
        ((s.dev.guard.outs[o]).set.mode = .burst ∨ (s.dev.guard.outs[o]).set.mode = .oneshot)) :
    Begins (.ndlFire t b) s t b 0x0312 [.guard]
      (fun d => d.guard = { s.dev.guard with held := s.dev.guard.held.set b.val (some (heldFire s t b)) }) := by
  have a5 : (operands s t b).arg32 5 = arg32 s b 5 := operands_arg32 5
  have a1 := operands_arg64_1 (s := s) (t := t) b
  have start : (judged cmdNdlFire s t b).fireStart (operands s t b) = (heldFire s t b).start := by
    rw [Dev.fireStart, a1, judged_stamp]
    rfl
  have able : ((judged cmdNdlFire s t b).named (arg s b 0)).all
      (fun n => !n.tripped && (n.set.mode == .burst || n.set.mode == .oneshot)) = true :=
    named_all.mpr fun o ho => by
      obtain ⟨tripped, -, mode⟩ := hx o ho
      simp only [judged_guard, tripped, Bool.not_false, Bool.true_and, Bool.or_eq_true, beq_iff_eq]
      exact mode
  have idle : ((judged cmdNdlFire s t b).named (arg s b 0)).all (fun n => n.firing.isNone) = true :=
    named_all.mpr fun o ho => Option.isNone_iff_eq_none.mpr (hx o ho).2.1
  refine begins_watch (c := cmdNdlFire)
    (d := (judged cmdNdlFire s t b).onGuard (fun g => { g with held := s.dev.guard.held.set b.val (some (heldFire s t b)) }))
    rfl hs rfl (fun h => by cases h) hm.names ?_ ?_ ?_ ?_ (onGuard_keeps _ _) (by decide) rfl
  · have := hm.some
    simp [cmdNdlFire, a5]
    omega
  · refine cmdNdlFire_inTime fun st hst => ?_
    have limit : (judged cmdNdlFire s t b).fireLimit (operands s t b) = (here s t).stamp.toNat + 1000 * arg32 s b 5 := by
      rw [Dev.fireLimit, a5, judged_stamp]
    rw [start, heldFire] at hst
    dsimp only at hst
    split at hst
    · cases hst
    next future => exact Option.mem_some_iff.mp hst ▸ limit.symm ▸ hat.resolve_left future
  · rw [cmdNdlFire_state, operands_arg, able, idle]
    rfl
  · rw [cmdNdlFire_act, start, a5]
    rfl

end
end Sys2Proof.Proofs

namespace Sys2Proof.Proofs
open Machine Laws

/-! ## NDL_ARM (R229 to R231, R238) -/

section
variable {s : State} {t : Time} {b : Basket} {o : Fin 8}

/-- The setting of an output with the period and active time that waited for its next period (R209). -/
def periodSet (x : Needle) : NeedleSet :=
  { x.set with period := (x.nextPH.map (·.1)).getD x.set.period, active := (x.nextPH.map (·.2)).getD x.set.active }

/-- The setting with which an output arms: the one that waited, or its own with the period and active time that waited. -/
def armingSet (x : Needle) : NeedleSet := x.waiting.getD (periodSet x)

theorem arm_armed {x : Needle} (h : x.armed = true ∧ x.tripped = false) (now : Time) : x.arm now = x := by
  unfold Needle.arm
  rw [if_pos (by simp [h])]

theorem arm_arms {x : Needle} (h : x.armed = false ∨ x.tripped = true) (now : Time) : x.arm now =
    { x with set := armingSet x, waiting := none, nextPH := none, tripped := false, armed := (armingSet x).mode != .off, phase := true,
             mark := now, lastFeed := now } := by
  have down : ¬ (x.armed && !x.tripped) = true := by
    obtain h | h := h <;> simp [h]
  unfold Needle.arm
  rw [if_neg down]
  cases hw : x.waiting with
  | some w => cases hp : x.nextPH <;> simp [armingSet, Needle.base, hw]
  | none => cases hp : x.nextPH <;> simp [armingSet, periodSet, Needle.base, hw, hp]

theorem armOuts_spec (os : List (Fin 8)) (h : os.Nodup) (d : Dev) : OnlyOuts d (d.armOuts os) ∧
    ∀ p : Fin 8, (d.armOuts os).guard.outs[p] = if p ∈ os then d.guard.outs[p].arm d.now else d.guard.outs[p] :=
  eachEntry (run := fun os e => e.armOuts os) (Same := OnlyOuts d) (entry := fun e p => e.guard.outs[p]) (g := fun _ x => x.arm d.now)
    (fun _ => rfl) (fun _ _ _ => rfl) (fun o _ he => he.onOut o _)
    (fun o e he => by
      obtain ⟨outs, rfl⟩ := he
      exact onOut_same _ o _)
    (fun _ _ _ _ hp => onOut_other _ _ hp) os h d (OnlyOuts.refl d)

theorem OnlyOuts.keeps {d e : Dev} (h : OnlyOuts d e) : Keeps [.guard] d e := by
  obtain ⟨outs, rfl⟩ := h
  exact onGuard_keeps d (fun g => { g with outs := outs })

theorem ndlArm_arms (hs : Starts s b) (hm : OutputsHeld s b (arg s b 0)) (hp : s.dev.pwr.state ≠ .hold ∧ s.dev.pwr.state ≠ .fault)
    (hf : ∀ o : Fin 8, bit (arg s b 0) o.val = true → (s.dev.guard.outs[o]).tripStatus = false ∧ s.dev.tripInput o = false) :
    Completes (.ndlArm t b) s t b 0 0 0 0 [.guard] (fun d => d.guard = { s.dev.guard with outs := d.guard.outs } ∧
      ∀ p : Fin 8, d.guard.outs[p] = if p ∈ maskOuts (arg s b 0) then s.dev.guard.outs[p].arm (instant s t) else s.dev.guard.outs[p]) := by
  obtain ⟨only, outs⟩ := armOuts_spec (maskOuts (arg s b 0)) (maskOuts_nodup _) (judged cmdNdlArm s t b)
  have free : ((maskOuts (arg s b 0)).all (fun o => !(s.dev.guard.outs[o]).tripStatus && !s.dev.tripInput o) &&
      s.dev.pwr.state != .hold && s.dev.pwr.state != .fault) = true := by
    simp only [Bool.and_eq_true, List.all_eq_true, Bool.not_eq_true', bne_iff_ne, mem_maskOuts]
    exact ⟨⟨hf, hp.1⟩, hp.2⟩
  refine completes_watch (c := cmdNdlArm) (d := (judged cmdNdlArm s t b).armOuts (maskOuts (arg s b 0))) rfl hs rfl (fun h => by cases h)
    hm.names hm.nonzero rfl ?_ rfl only.keeps (by decide) ⟨only.guard, outs⟩
  show need _ _ = none
  simp only [operands_arg, judged_guard, judged_tripInput, judged_pwr]
  rw [free]
  rfl

/-! ## NDL_TRIP (R223, R225) -/

theorem complete_page (d : Dev) (rs : List Word) : (d.complete b (success rs)).host.pages[b] = d.host.pages[b].complete (success rs) d.now :=
  upd_same _ _ _

/-- The state of a command that has completed with E_OK, its count over the count before. -/
theorem complete_done {c : Command} {d : Dev} (h : CountsStay (judged c s t b) d) :
    (d.complete b (success [])).host.pages[b].cmdState = .done ∧ (d.complete b (success [])).host.pages[b].cmdError = 0 ∧
    (d.complete b (success [])).host.pages[b].cmdCount = s.dev.host.pages[b].cmdCount + 1 := by
  have count : (judged c s t b).host.pages[b].cmdCount = s.dev.host.pages[b].cmdCount :=
    (congrArg Page.cmdCount (upd_same s.dev.host.pages b (fun p => p.accept c.code (instant s t)))).trans rfl
  rw [complete_page]
  exact ⟨rfl, rfl, by rw [← count, ← h b]; rfl⟩

theorem ndlTrip_trips (hs : Starts s b) (hm : OutputsHeld s b (arg s b 0)) : Does (.ndlTrip t b) s t [.host, .guard, .free] (fun d =>
      (d.host.pages[b].cmdState = .done ∧ d.host.pages[b].cmdError = 0 ∧ d.host.pages[b].cmdCount = s.dev.host.pages[b].cmdCount + 1) ∧
      d.guard.comps = s.dev.guard.comps ∧ d.guard.tripMasks = s.dev.guard.tripMasks ∧
      ∀ p : Fin 8, d.guard.outs[p] =
        if p ∈ maskOuts (arg s b 0) then cutOff .software (instant s t) s.dev.guard.outs[p] else s.dev.guard.outs[p]) := by
  obtain ⟨⟨comps, masks, -⟩, outs⟩ := tripAll_spec (reason := .software) (maskOuts (arg s b 0)) (maskOuts_nodup _) (judged cmdNdlTrip s t b)
  exact does_watch (c := cmdNdlTrip) (d := (judged cmdNdlTrip s t b).tripAll .software (maskOuts (arg s b 0))) rfl hs rfl
    (fun h => by cases h) hm.names hm.nonzero rfl rfl rfl (tripAll_keeps _ _ _) (by decide)
    ⟨complete_done (tripAll_countsStay _ _ _), comps, masks, outs⟩

/-- A trip of an output that does not fire, while no fire is held, completes its command over its notice. -/
theorem ndlTrip_one (hs : Starts s b) (hh : Held s b .outputs o.val) (h0 : arg s b 0 = 2 ^ o.val) (hf : s.dev.guard.outs[o].firing = none)
    (hn : ∀ c : Basket, s.dev.guard.held[c] = none) :
    CompletesOver (tripNoticed (here s t) o (tripEvent o .software (s.dev.guard.outs[o].trips + 1))).host (.ndlTrip t b) s t b 0 0 0 0 [.guard]
      (fun d => d.guard =
        { s.dev.guard with outs := s.dev.guard.outs.set o.val (trippedBy .software (instant s t) s.dev.guard.outs[o]) }) := by
  have hm : OutputsHeld s b (arg s b 0) := h0 ▸ OutputsHeld.single hh
  have act : cmdNdlTrip.act (operands s t b) (judged cmdNdlTrip s t b) = (tripMarked (judged cmdNdlTrip s t b) o .software, .ok []) := by
    rw [← trip_quiet (d := judged cmdNdlTrip s t b) hf hn]
    show (Dev.tripAll _ _ (maskOuts (arg s b 0)), _) = _
    rw [h0, maskOuts_single]
    rfl
  refine does_watch (c := cmdNdlTrip) (d := tripMarked (judged cmdNdlTrip s t b) o .software) rfl hs rfl (fun h => by cases h)
    hm.names hm.nonzero rfl rfl act ?_ (by decide) ⟨?_, ?_⟩
  · exact Keeps.andThen (tripNoticed_keeps _ _ _) (by decide) (Keeps.mono (onOut_keeps _ _ _) (by decide))
  · exact tripMarked_complete_host (c := cmdNdlTrip) (J := judged cmdNdlTrip s t b) rfl rfl rfl o .software
  · exact tripMarked_complete_guard (judged cmdNdlTrip s t b) o .software _

/-! ## NDL_FEED (R211) -/

theorem starved_iff {x : Needle} {now : Time} : x.starved now = true ↔
    (x.armed = true ∧ x.tripped = false ∧ x.set.mode = .heartbeat) ∧ x.set.feedMs ≠ 0 ∧ x.lastFeed + ms x.set.feedMs ≤ now := by
  simp [Needle.starved, and_assoc]

/-- An output that is fed. -/
def fed (now : Time) (x : Needle) : Needle := { x with lastFeed := now }

/-- Feeds in time only set the instants of the feeds. -/
theorem feedOuts_onlyOuts (os : List (Fin 8)) (hl : os.Nodup) (d : Dev) (h : ∀ o ∈ os, (d.guard.outs[o]).starved d.now = false) :
    OnlyOuts d (d.feedOuts os) := by
  induction os generalizing d with
  | nil => exact OnlyOuts.refl d
  | cons o os ih =>
    obtain ⟨ho, hos⟩ := List.nodup_cons.mp hl
    obtain ⟨outs, he⟩ := ih hos (d.onOut o (fed d.now)) (fun p hp => by
      have other : p ≠ o := fun e => ho (by rwa [← e])
      rw [onOut_other _ _ other]
      exact h p (List.mem_cons_of_mem _ hp))
    unfold Dev.feedOuts
    rw [h o List.mem_cons_self, if_neg Bool.false_ne_true]
    exact ⟨outs, he⟩

/-- A feed is in time or the output trips. -/
theorem feedOuts_spec (os : List (Fin 8)) (hl : os.Nodup) (d : Dev) : SameInputs d (d.feedOuts os) ∧
    ∀ p : Fin 8, (d.feedOuts os).guard.outs[p] =
      if p ∈ os then (if d.guard.outs[p].starved d.now then cutOff .feed d.now d.guard.outs[p] else fed d.now d.guard.outs[p])
      else d.guard.outs[p] :=
  eachEntry (run := fun os e => e.feedOuts os) (Same := SameInputs d) (entry := fun e p => e.guard.outs[p])
    (g := fun _ x => if x.starved d.now then cutOff .feed d.now x else fed d.now x)
    (step := fun o e => if (e.guard.outs[o]).starved e.now then e.trip o .feed else e.onOut o (fed e.now))
    (fun _ => rfl) (fun _ _ _ => rfl)
    (fun o e he => by
      split
      · exact he.trip o .feed
      · exact he.onOut o _)
    (fun o e he => by
      rw [he.now]
      split
      · rw [trip_same, he.now]
      · exact onOut_same _ _ _)
    (fun o p e he hp => by
      split
      · exact trip_other hp
      · exact onOut_other _ _ hp)
    os hl d (SameInputs.refl d)

theorem feedOuts_countsStay (os : List (Fin 8)) (d : Dev) : CountsStay d (d.feedOuts os) := by
  induction os generalizing d with
  | nil => exact CountsStay.refl d
  | cons o os ih =>
    unfold Dev.feedOuts
    refine CountsStay.trans ?_ (ih _)
    split
    · exact trip_countsStay _ _ _
    · exact CountsStay.refl d

/-- The outputs of a mask are armed, not tripped, and in HEARTBEAT. -/
def Feedable (s : State) (m : Nat) : Prop := ∀ o : Fin 8, bit m o.val = true →
  (s.dev.guard.outs[o]).armed = true ∧ (s.dev.guard.outs[o]).tripped = false ∧ (s.dev.guard.outs[o]).set.mode = .heartbeat

theorem Feedable.state {m : Nat} (h : Feedable s m) (h0 : arg s b 0 = m) :
    cmdNdlFeed.state (operands s t b) (judged cmdNdlFeed s t b) = none := by
  have all : ((judged cmdNdlFeed s t b).named m).all (fun n => n.armed && !n.tripped && n.set.mode == .heartbeat) = true :=
    named_all.mpr fun o ho => by
      obtain ⟨armed, tripped, mode⟩ := h o ho
      rw [judged_guard, armed, tripped, mode]
      rfl
  show need (((judged cmdNdlFeed s t b).named (arg s b 0)).all _) _ = none
  rw [h0, all]
  rfl

theorem ndlFeed_feeds (hs : Starts s b) (hm : OutputsHeld s b (arg s b 0)) (hx : Feedable s (arg s b 0))
    (hf : ∀ o : Fin 8, bit (arg s b 0) o.val = true →
      (s.dev.guard.outs[o]).set.feedMs = 0 ∨ instant s t < (s.dev.guard.outs[o]).lastFeed + ms (s.dev.guard.outs[o]).set.feedMs) :
    Completes (.ndlFeed t b) s t b 0 0 0 0 [.guard] (fun d => d.guard = { s.dev.guard with outs := d.guard.outs } ∧
      ∀ p : Fin 8, d.guard.outs[p] = if p ∈ maskOuts (arg s b 0) then fed (instant s t) s.dev.guard.outs[p] else s.dev.guard.outs[p]) := by
  have punctual : ∀ o ∈ maskOuts (arg s b 0), (s.dev.guard.outs[o]).starved (instant s t) = false := fun o ho => by
    rw [← Bool.not_eq_true, starved_iff]
    rintro ⟨-, hset, hlate⟩
    exact (hf o (mem_maskOuts.mp ho)).elim hset (not_lt.mpr hlate)
  have only := feedOuts_onlyOuts (maskOuts (arg s b 0)) (maskOuts_nodup _) (judged cmdNdlFeed s t b) punctual
  have outs := (feedOuts_spec (maskOuts (arg s b 0)) (maskOuts_nodup _) (judged cmdNdlFeed s t b)).2
  refine completes_watch (c := cmdNdlFeed) (d := (judged cmdNdlFeed s t b).feedOuts (maskOuts (arg s b 0))) rfl hs rfl (fun h => by cases h)
    hm.names hm.nonzero rfl (hx.state rfl) rfl only.keeps (by decide) ⟨only.guard, fun p => ?_⟩
  refine (outs p).trans ?_
  split
  next hp => exact if_neg (by rw [judged_guard, judged_now, punctual p hp]; exact Bool.false_ne_true)
  next => rfl

/-- A feed at or after its deadline trips the output (Table 05-8). -/
theorem ndlFeed_late (hs : Starts s b) (hh : Held s b .outputs o.val) (h0 : arg s b 0 = 2 ^ o.val)
    (hx : (s.dev.guard.outs[o]).starved (instant s t) = true) : Does (.ndlFeed t b) s t [.host, .guard, .free] (fun d =>
      d.host.pages[b].cmdState = .done ∧ d.host.pages[b].cmdError = 0 ∧
      d.guard.outs[o] = cutOff .feed (instant s t) s.dev.guard.outs[o]) := by
  have hm : OutputsHeld s b (arg s b 0) := h0 ▸ OutputsHeld.single hh
  have feedable : Feedable s (2 ^ o.val) := fun p hp => (bit_single o p).mp hp ▸ (starved_iff.mp hx).1
  have outs := (feedOuts_spec (maskOuts (arg s b 0)) (maskOuts_nodup _) (judged cmdNdlFeed s t b)).2 o
  obtain ⟨done, error, -⟩ := complete_done (feedOuts_countsStay (maskOuts (arg s b 0)) (judged cmdNdlFeed s t b))
  refine does_watch (c := cmdNdlFeed) (d := (judged cmdNdlFeed s t b).feedOuts (maskOuts (arg s b 0))) rfl hs rfl (fun h => by cases h)
    hm.names hm.nonzero rfl (feedable.state h0) rfl (feedOuts_keeps _ _) (by decide) ⟨done, error, outs.trans ?_⟩
  rw [if_pos (by simp [h0, maskOuts_single])]
  exact if_pos hx

/-! ## NDL_STATUS (R213, R225) -/

theorem cmdNdlStatus_act {x : Ctx} {d : Dev} (h0 : x.arg 0 = o.val) : cmdNdlStatus.act x d =
    (d, .ok ([BitVec.ofNat 16 (d.guard.outs[o].set.mode.number + (if d.guard.outs[o].tripped then 8 else 0) +
      16 * d.guard.outs[o].reason.number + if d.guard.outs[o].firing.isSome then 128 else 0)] ++ leWords 2 d.guard.outs[o].trips.toNat ++
        [BitVec.ofNat 16 d.guard.synth.state.number])) := by
  simp [cmdNdlStatus, h0]

theorem ndlStatus_answers (hs : Starts s b) (h0 : arg s b 0 = o.val) (hh : Held s b .outputs o.val) :
    let x := s.dev.guard.outs[o]
    let n := x.set.mode.number + (if x.tripped = true then 8 else 0) + 16 * x.reason.number + (if x.firing.isSome = true then 128 else 0)
    Completes (.ndlStatus t b) s t b (BitVec.ofNat 16 n) (BitVec.ofNat 16 x.trips.toNat) (BitVec.ofNat 16 (x.trips.toNat / 65536))
      (BitVec.ofNat 16 s.dev.guard.synth.state.number) [] (fun _ => True) := by
  intro x n
  refine completes_results (c := cmdNdlStatus) rfl hs (judge_watch rfl (fun h => by cases h) ?_ rfl rfl rfl)
    (cmdNdlStatus_act (x := operands s t b) (d := judged cmdNdlStatus s t b) h0) rfl (Keeps.refl _ _) (by decide) trivial
  simpa [cmdNdlStatus, h0] using operands_output_held (c := cmdNdlStatus) (t := t) hh

end

/-- Settles O42: each command by its checks, and by what it makes of each output of its mask. -/
theorem needleCommands : Obligations.NeedleCommands := by
  unfold Obligations.NeedleCommands
  refine ⟨?_, ?_, ?_, ?_, ?_, ?_, ?_, ?_, ?_⟩
  · intro s t b o x old a c mode safe plain new hs h0 hh hmode hsafe hpwm hburst hheart hone hf late
    have pwm : late = true → new.period = a ∧ new.active = c := fun hlate => by
      simp only [late, Bool.and_eq_true, beq_iff_eq] at hlate
      exact describedSetting_pwm hmode hlate.1.1.2
    refine completes_imp (ndlSet_configures hs h0 hh ⟨hmode, hsafe, hpwm, hburst, hheart, hone⟩ (new := new) rfl hf) ?_
    rintro d ⟨guard, others, configured⟩
    refine ⟨guard, others, fun htrip => ?_, fun htrip hnew => ?_, fun hlate => ?_, fun htrip hold hlate => ?_⟩
    · rw [configured, configure_tripped new htrip]
    · rw [configured, configure_newMode htrip hnew]
    · rw [configured, configure_late hlate, (pwm hlate).1, (pwm hlate).2]
    · rw [configured, configure_now htrip hold hlate]
  · intro s t b f y hs hh h0 state retuned burst
    refine completes_imp (ndlSynthSet_sets hs hh h0) fun d hd => ?_
    rw [hd]
    refine ⟨rfl, fun hb => ?_, fun hb => ?_⟩
    · exact (if_neg (fun h => hb (bursting_iff.mp h))).trans (retune_eq _ _ _)
    · exact if_pos (bursting_iff.mpr hb)
  · intro s t b m n at_ now hs hm hheld hn hat hx h
    exact ndlFire_holds hs ⟨hm.1, hm.2, hheld⟩ hn hat hx
  · intro s t b m hs hm hheld hp hf
    refine completes_imp (ndlArm_arms hs ⟨hm.1, hm.2, hheld⟩ hp hf) ?_
    rintro d ⟨guard, outs⟩
    refine ⟨guard, fun o => ⟨fun ho => ?_, fun ho => ⟨fun harmed => ?_, fun hdown => ?_⟩⟩⟩
    · rw [outs, if_neg (by simp [mem_maskOuts, ho, m])]
    · rw [outs, if_pos (mem_maskOuts.mpr ho), arm_armed harmed]
    · rw [outs, if_pos (mem_maskOuts.mpr ho), arm_arms hdown]
      rfl
  · intro s t b o x hs hh h0 hf hn held e
    exact ndlTrip_one hs hh h0 hf hn
  · intro s t b m hs hm hheld
    refine does_imp (ndlTrip_trips hs ⟨hm.1, hm.2, hheld⟩) ?_
    rintro d ⟨⟨done, error, count⟩, comps, masks, outs⟩
    refine ⟨done, error, count, comps, masks, fun o => ⟨fun ho => ?_, fun ho => ?_⟩⟩
    · rw [outs, if_neg (by simp [mem_maskOuts, ho, m])]
    · rw [outs, if_pos (mem_maskOuts.mpr ho)]
      rfl
  · intro s t b m hs hm hheld hx hf
    refine completes_imp (ndlFeed_feeds hs ⟨hm.1, hm.2, hheld⟩ hx hf) ?_
    rintro d ⟨guard, outs⟩
    refine ⟨guard, fun o => ⟨fun ho => ?_, fun ho => ?_⟩⟩
    · rw [outs, if_neg (by simp [mem_maskOuts, ho, m])]
    · rw [outs, if_pos (mem_maskOuts.mpr ho)]
      rfl
  · intro s t b o x hs hh h0 hx hf
    exact ndlFeed_late hs hh h0 (starved_iff.mpr ⟨hx, hf⟩)
  · intro s t b o x hs h0 hh n
    exact ndlStatus_answers hs h0 hh

end Sys2Proof.Proofs

namespace Sys2Proof.Proofs
open Machine Laws

/-! ## THM_SET (R185, R190, R200 to R204) -/

section
variable {s : State} {t : Time} {b : Basket} {i : Fin 32}

/-- The setting that THM_SET describes (Table 16-6). -/
def describedComp (s : State) (b : Basket) : CompSet :=
  { enabled := argBit s b 1 0,
    source := if arg s b 1 / 2 % 4 = 0 then .channel else if arg s b 1 / 2 % 4 = 1 then .band else .envelope,
    vib := Fin.ofNat 16 (arg s b 2 % 16), band := Fin.ofNat 32 (arg s b 2 / 256 % 32), low := arg s b 3, high := arg s b 4,
    hyst := arg s b 5, sampled := argBit s b 1 3, tickKeep := argBit s b 1 4, divider := arg s b 6, maskAbove := argBit s b 1 5,
    maskBelow := argBit s b 1 6, nextPeriod := argBit s b 1 7, wake := argBit s b 1 8 }

theorem compOfArgs_eq (h : arg s b 1 / 2 % 4 ≤ 2) : compOfArgs (operands s t b) = describedComp s b := by
  have sources : arg s b 1 / 2 % 4 = 0 ∨ arg s b 1 / 2 % 4 = 1 ∨ arg s b 1 / 2 % 4 = 2 := by omega
  rcases sources with h | h | h <;> simp [compOfArgs, describedComp, bits, h]

/-- The settings of a comparator lie in the ranges of Table 05-6, and it names what the basket holds. -/
structure CompInRange (s : State) (b : Basket) (i : Fin 32) (new : CompSet) : Prop where
  comp : arg s b 0 = i.val
  held : Held s b .comparators i.val
  sourceRange : arg s b 1 / 2 % 4 ≤ 2
  fixed : i.val < 24 ↔ new.source = .channel
  channel : new.source ≠ .channel → Held s b .channels new.vib.val
  thresholds : new.high ≤ 1023 ∧ new.hyst ≤ 63 ∧ new.low < new.high ∧ 2 * new.hyst < new.high - new.low
  mask : new.maskAbove = true ∨ new.maskBelow = true
  keepTicks : new.tickKeep = true → 1 ≤ new.divider ∧ new.divider ≤ 32
  sampleTicks : new.tickKeep = false → 50 ≤ new.divider ∧ new.divider ≤ 49152
  direct : new.enabled = true → new.source = .band → s.dev.directMode new.vib.val = true

theorem cmdThmSet_names {x : Ctx} {d : Dev} : cmdThmSet.names x d =
    (x.comparator d (x.arg 0) && (bits (x.arg 1) 2 1 == 0 || x.channel d (bits (x.arg 2) 3 0))) := rfl

theorem cmdThmSet_range {x : Ctx} {d : Dev} {new : CompSet} (h : compOfArgs x = new) : cmdThmSet.range x d =
    argRange (decide (bits (x.arg 1) 2 1 ≤ 2) && (decide (x.arg 0 < 24) == (new.source == .channel)) && decide (new.high ≤ 1023) &&
      decide (new.hyst ≤ 63) && decide (new.low < new.high) && decide (2 * new.hyst < new.high - new.low) && (new.maskAbove || new.maskBelow) &&
      (if new.tickKeep then decide (new.divider ≤ 32) else decide (50 ≤ new.divider) && decide (new.divider ≤ 49152))) := by
  subst h
  rfl

theorem CompInRange.judge (h : CompInRange s b i (describedComp s b)) :
    cmdThmSet.judge (operands s t b) (judged cmdThmSet s t b) = none := by
  obtain ⟨comp, held, sourceRange, fixed, channel, ⟨high, hyst, order, gap⟩, mask, keepTicks, sampleTicks, direct⟩ := h
  have described := compOfArgs_eq (t := t) sourceRange
  have source : bits (arg s b 1) 2 1 = arg s b 1 / 2 % 4 := by simp [bits]
  refine judge_watch rfl (fun h => by cases h) ?_ ?_ ?_ ?_
  · rw [cmdThmSet_names, operands_arg, operands_arg, operands_arg, comp, operands_comparator_held held, source, Bool.true_and]
    by_cases hc : arg s b 1 / 2 % 4 = 0
    · rw [hc]; rfl
    · have named : (describedComp s b).source ≠ .channel := by
        simp only [describedComp, hc, if_false]
        split <;> decide
      have vib : (describedComp s b).vib.val = bits (arg s b 2) 3 0 := by simp [describedComp, bits]
      rw [← vib, operands_channel_held (channel named), Bool.or_true]
  · have : 1 ≤ arg s b 6 := by
      cases hk : (describedComp s b).tickKeep
      · exact le_trans (by decide) (sampleTicks hk).1
      · exact (keepTicks hk).1
    exact beq_false_of_ne (by rw [operands_arg]; omega)
  · have ticks : (if (describedComp s b).tickKeep then decide ((describedComp s b).divider ≤ 32)
        else decide (50 ≤ (describedComp s b).divider) && decide ((describedComp s b).divider ≤ 49152)) = true := by
      split
      next hk => exact decide_eq_true (keepTicks hk).2
      next hk => simpa using sampleTicks (Bool.eq_false_iff.mpr hk)
    have place : (decide (arg s b 0 < 24) == ((describedComp s b).source == .channel)) = true := by
      rw [comp, beq_iff_eq, Bool.eq_iff_iff, decide_eq_true_iff, beq_iff_eq]
      exact fixed
    rw [cmdThmSet_range described, ticks, operands_arg, operands_arg, source, place, decide_eq_true sourceRange, decide_eq_true high,
      decide_eq_true hyst, decide_eq_true order, decide_eq_true gap, (Bool.or_eq_true _ _).mpr mask]
    rfl
  · show need (!((compOfArgs _).enabled && (compOfArgs _).source == .band) || s.dev.directMode (compOfArgs _).vib.val) .state = none
    rw [described]
    by_cases hd : (describedComp s b).enabled = true ∧ (describedComp s b).source = .band
    · rw [direct hd.1 hd.2, Bool.or_true]; rfl
    · have : ((describedComp s b).enabled && (describedComp s b).source == .band) = false := by simpa using hd
      rw [this]; rfl

/-- A setting by which no condition newly appears sets no latch. -/
theorem thmSet_quiet {d : Dev} {new : CompSet} {c : Comparator}
    (hc : c = d.guard.comps[i].configure new (!new.sampled && d.pwr.state != .watch))
    (h : c.set.enabled = false ∨ c.warmUp = true ∨
      (c.set.present c.state = true → d.guard.comps[i].set.present d.guard.comps[i].state = true)) :
    d.thmSet i new = d.onComp i (fun _ => c) := by
  let e := d.onComp i (fun x => x.configure new (!new.sampled && d.pwr.state != .watch))
  have configured : e.guard.comps[i] = c := (onComp_same _ _ _).trans hc.symm
  have quiet : ∀ x y : Bool, (c.set.enabled && x && c.evaluated && c.set.present c.state &&
      !d.guard.comps[i].set.present d.guard.comps[i].state && !c.warmUp && y) = false := fun x y => by
    obtain h | h | h := h
    · simp [h]
    · simp [h]
    · cases hp : c.set.present c.state
      · simp
      · simp only [h hp, Bool.not_true, Bool.and_false, Bool.false_and]
  unfold Dev.thmSet
  show (if (e.guard.comps[i].set.enabled && e.continuous i && e.guard.comps[i].evaluated && e.guard.comps[i].set.present e.guard.comps[i].state &&
    !d.guard.comps[i].set.present d.guard.comps[i].state && !e.guard.comps[i].warmUp && !e.compHeld i) = true then _ else e) = _
  rw [configured, if_neg (by rw [quiet]; exact Bool.false_ne_true)]
  exact onComp_congr hc.symm

theorem thmSet_sets {c : Comparator} (hs : Starts s b) (h : CompInRange s b i (describedComp s b))
    (hc : c = s.dev.guard.comps[i].configure (describedComp s b) (!(describedComp s b).sampled && s.dev.pwr.state != .watch))
    (hq : c.set.enabled = false ∨ c.warmUp = true ∨
      (c.set.present c.state = true → s.dev.guard.comps[i].set.present s.dev.guard.comps[i].state = true)) :
    Completes (.thmSet t b) s t b 0 0 0 0 [.guard]
      (fun d => d.guard = { s.dev.guard with comps := s.dev.guard.comps.set i.val c }) := by
  have act : cmdThmSet.act (operands s t b) (judged cmdThmSet s t b) = ((judged cmdThmSet s t b).onComp i (fun _ => c), .ok []) := by
    have bound : (operands s t b).arg 0 < 32 := by rw [operands_arg, h.comp]; exact i.isLt
    have index : (⟨(operands s t b).arg 0, bound⟩ : Fin 32) = i := Fin.ext h.comp
    rw [← thmSet_quiet (d := judged cmdThmSet s t b) (new := describedComp s b) hc hq]
    show (if h : (operands s t b).arg 0 < 32 then Dev.thmSet _ ⟨(operands s t b).arg 0, h⟩ (compOfArgs _) else _, _) = _
    rw [dif_pos bound, index, compOfArgs_eq h.sourceRange]
  exact completes_results (c := cmdThmSet) rfl hs h.judge act rfl (onComp_keeps _ _ _) (by decide) rfl

theorem configure_disabled {c : Comparator} {new : CompSet} (h : new.enabled = false) (cont : Bool) : c.configure new cont =
    { c with set := new, waiting := none, state := .inside, evaluated := false, warmUp := false, warmUpTick := none } := by
  simp [Comparator.configure, h]

theorem configure_warms {c : Comparator} {new : CompSet} (h : new.enabled = true) (hw : c.set.warms new = true) (cont : Bool) :
    c.configure new cont =
      { c with set := new, waiting := none, evaluated := c.evaluated && c.set.enabled, warmUp := true, warmUpTick := none } := by
  simp [Comparator.configure, h, hw]

theorem configure_atOnce {c : Comparator} {new : CompSet} (h : new.enabled = true) (hw : c.set.warms new = false) :
    c.configure new true = { c with set := new, waiting := none } := by
  simp [Comparator.configure, h, hw]

theorem configure_waits {c : Comparator} {new : CompSet} (h : new.enabled = true) (hw : c.set.warms new = false) :
    c.configure new false = { c with set := { c.set with wake := new.wake }, waiting := some new } := by
  simp [Comparator.configure, h, hw]

/-- What opens a warm-up window (R202). -/
theorem warms_of {old new : CompSet} (h : old.enabled = false ∨ new.source ≠ old.source ∨ new.sampled ≠ old.sampled ∨
    new.tickKeep ≠ old.tickKeep ∨ new.divider ≠ old.divider) : old.warms new = true := by
  simp only [CompSet.warms, Bool.or_eq_true, Bool.not_eq_true', bne_iff_ne]
  tauto

/-! ## THM_SET_TRIP (R206, R223) -/

theorem tripInput_iff {d : Dev} {o : Fin 8} : d.tripInput o = true ↔
    ∃ j : Fin 32, d.guard.comps[j].latch = true ∧ d.guard.tripMasks[o][j] = true := by
  simp only [Dev.tripInput, List.any_eq_true, List.mem_finRange, true_and, Bool.and_eq_true]
  rfl

end

section
variable {s : State} {t : Time} {o : Fin 8}

/-- The trip mask that THM_SET_TRIP names. -/
def namedMask (s : State) : BitVec 32 := BitVec.ofNat 32 (arg32 s 0 1)

theorem bit_eq_testBit (x n : Nat) : bit x n = x.testBit n := by simp [bit, Nat.testBit_eq_decide_div_mod_eq, beq_eq_decide]

theorem cmdThmSetTrip_range (h0 : arg s 0 0 = o.val) (hm : ∀ j : Fin 32, (namedMask s)[j] = true → s.dev.maskable o j.val = true) :
    cmdThmSetTrip.range (operands s t 0) (judged cmdThmSetTrip s t 0) = none := by
  have bound : (operands s t 0).arg 0 < 8 := by rw [operands_arg, h0]; exact o.isLt
  have index : (⟨(operands s t 0).arg 0, bound⟩ : Fin 8) = o := Fin.ext h0
  have a1 : (operands s t 0).arg32 1 = arg32 s 0 1 := operands_arg32 1
  have able : (List.range 32).all (fun n => !bit (arg32 s 0 1) n || s.dev.maskable o n) = true := by
    simp only [List.all_eq_true, List.mem_range, Bool.or_eq_true, Bool.not_eq_true']
    intro n hn
    cases hb : bit (arg32 s 0 1) n
    · exact Or.inl rfl
    · refine Or.inr (hm ⟨n, hn⟩ ?_)
      rw [bit_eq_testBit] at hb
      show (namedMask s)[n] = true
      rw [namedMask, BitVec.getElem_eq_testBit_toNat, BitVec.toNat_ofNat, Nat.testBit_mod_two_pow, hb, decide_eq_true hn]
      rfl
  show argRange (if h : (operands s t 0).arg 0 < 8 then
    (List.range 32).all (fun n => !bit ((operands s t 0).arg32 1) n || s.dev.maskable ⟨(operands s t 0).arg 0, h⟩ n) else true) = none
  rw [dif_pos bound, index, a1, able]
  rfl

/-- The device with a trip mask. -/
def masked (d : Dev) (o : Fin 8) (m : BitVec 32) : Dev := d.onGuard (fun g => { g with tripMasks := d.guard.tripMasks.set o m })

theorem setTripMask_eq (d : Dev) (o : Fin 8) (m : BitVec 32) : d.setTripMask o m =
    if (masked d o m).tripInput o && !d.tripInput o then (masked d o m).trip o .thimble else masked d o m := rfl

theorem masked_tripInput {d : Dev} {m : BitVec 32} : (masked d o m).tripInput o = true ↔ ∃ j : Fin 32, d.guard.comps[j].latch = true ∧ m[j] = true := by
  have mask : (masked d o m).guard.tripMasks[o] = m := Vector.getElem_set_self _
  rw [tripInput_iff, mask]
  rfl

theorem cmdThmSetTrip_act (h0 : arg s 0 0 = o.val) : cmdThmSetTrip.act (operands s t 0) (judged cmdThmSetTrip s t 0) =
    ((judged cmdThmSetTrip s t 0).setTripMask o (namedMask s), .ok []) := by
  have bound : (operands s t 0).arg 0 < 8 := by rw [operands_arg, h0]; exact o.isLt
  have index : (⟨(operands s t 0).arg 0, bound⟩ : Fin 8) = o := Fin.ext h0
  have a1 : (operands s t 0).arg32 1 = arg32 s 0 1 := operands_arg32 1
  show (if h : (operands s t 0).arg 0 < 8 then Dev.setTripMask _ ⟨(operands s t 0).arg 0, h⟩ (BitVec.ofNat 32 ((operands s t 0).arg32 1)) else _, _) = _
  rw [dif_pos bound, index, a1, namedMask]

theorem cmdThmSetTrip_names (h0 : arg s 0 0 = o.val) :
    cmdThmSetTrip.names (operands s t 0) (judged cmdThmSetTrip s t 0) = true := by
  show decide ((operands s t 0).arg 0 < 8) = true
  rw [operands_arg, h0]
  exact decide_eq_true o.isLt

theorem thmSetTrip_quiet (hs : Starts s 0) (h0 : arg s 0 0 = o.val)
    (hm : ∀ j : Fin 32, (namedMask s)[j] = true → s.dev.maskable o j.val = true)
    (hq : (∀ j : Fin 32, (namedMask s)[j] = true → s.dev.guard.comps[j].latch = false) ∨ s.dev.tripInput o = true) :
    Completes (.thmSetTrip t 0) s t 0 0 0 0 0 [.guard] (fun d =>
      d.guard = { s.dev.guard with tripMasks := s.dev.guard.tripMasks.set o.val (namedMask s) }) := by
  let J := judged cmdThmSetTrip s t 0
  have calm : ¬ ((masked J o (namedMask s)).tripInput o && !J.tripInput o) = true := by
    rw [Bool.and_eq_true, Bool.not_eq_true', masked_tripInput, judged_tripInput]
    rintro ⟨⟨j, latched, named⟩, clear⟩
    obtain h | h := hq
    · rw [judged_guard, h j named] at latched
      cases latched
    · rw [h] at clear
      cases clear
  refine completes_watch (c := cmdThmSetTrip) (d := masked J o (namedMask s)) rfl hs rfl (fun _ => rfl) (cmdThmSetTrip_names h0) rfl
    (cmdThmSetTrip_range h0 hm) rfl ?_ (onGuard_keeps _ _) (by decide) rfl
  rw [cmdThmSetTrip_act h0, setTripMask_eq, if_neg calm]

theorem thmSetTrip_trips {j : Fin 32} (hs : Starts s 0) (h0 : arg s 0 0 = o.val)
    (hm : ∀ j : Fin 32, (namedMask s)[j] = true → s.dev.maskable o j.val = true) (hj : (namedMask s)[j] = true)
    (hl : s.dev.guard.comps[j].latch = true) (hi : s.dev.tripInput o = false) (hf : s.dev.guard.outs[o].firing = none)
    (hn : ∀ c : Basket, s.dev.guard.held[c] = none) :
    CompletesOver (tripNoticed (here s t) o (tripEvent o .thimble (s.dev.guard.outs[o].trips + 1))).host (.thmSetTrip t 0) s t 0 0 0 0 0 [.guard]
      (fun d => d.guard = { s.dev.guard with
        tripMasks := s.dev.guard.tripMasks.set o.val (namedMask s),
        outs := s.dev.guard.outs.set o.val (trippedBy .thimble (instant s t) s.dev.guard.outs[o]) }) := by
  let J := judged cmdThmSetTrip s t 0
  have edge : ((masked J o (namedMask s)).tripInput o && !J.tripInput o) = true := by
    rw [Bool.and_eq_true, Bool.not_eq_true', masked_tripInput, judged_tripInput]
    exact ⟨⟨j, hl, hj⟩, hi⟩
  refine does_watch (c := cmdThmSetTrip) (d := tripMarked (masked J o (namedMask s)) o .thimble) rfl hs rfl (fun _ => rfl)
    (cmdThmSetTrip_names h0) rfl (cmdThmSetTrip_range h0 hm) rfl ?_ ?_ (by decide) ⟨?_, ?_⟩
  · rw [cmdThmSetTrip_act h0, setTripMask_eq, if_pos edge]
    exact congrArg (·, Reply.ok []) (trip_quiet (d := masked J o (namedMask s)) hf hn)
  · exact Keeps.andThen (tripNoticed_keeps _ _ _) (by decide) (Keeps.andThen (onOut_keeps _ _ _) (by decide)
      (Keeps.mono (onGuard_keeps _ _) (by decide)))
  · exact tripMarked_complete_host (c := cmdThmSetTrip) (J := masked J o (namedMask s)) rfl rfl rfl o .thimble
  · exact tripMarked_complete_guard (masked J o (namedMask s)) o .thimble _

end

/-! ## THM_STATUS (R191, R196) -/

section
variable {s : State} {t : Time} {b : Basket} {i : Fin 32}

theorem cmdThmStatus_act {x : Ctx} {d : Dev} (h0 : x.arg 0 = i.val) : cmdThmStatus.act x d =
    (d, .ok (BitVec.ofNat 16 (d.guard.comps[i].state.number +
      4 * packBits [d.guard.comps[i].latch, d.guard.comps[i].set.enabled, d.guard.comps[i].warmUp]) :: leWords 2 d.guard.comps[i].latches.toNat)) := by
  simp [cmdThmStatus, h0]

theorem thmStatus_answers (hs : Starts s b) (h0 : arg s b 0 = i.val) (hh : Held s b .comparators i.val) :
    let c := s.dev.guard.comps[i]
    let n := c.state.number + 4 * packBits [c.latch, c.set.enabled, c.warmUp]
    Completes (.thmStatus t b) s t b (BitVec.ofNat 16 n) (BitVec.ofNat 16 c.latches.toNat) (BitVec.ofNat 16 (c.latches.toNat / 65536)) 0 []
      (fun _ => True) := by
  intro c n
  refine completes_results (c := cmdThmStatus) rfl hs (judge_watch rfl (fun h => by cases h) ?_ rfl rfl rfl)
    (cmdThmStatus_act (x := operands s t b) (d := judged cmdThmStatus s t b) h0) rfl (Keeps.refl _ _) (by decide) trivial
  simpa [cmdThmStatus, h0] using operands_comparator_held (c := cmdThmStatus) (t := t) hh

end

/-- Settles O40: THM_SET by the branch of its effect on the comparator, THM_SET_TRIP by whether its trip input goes active. -/
theorem thimbleCommands : Obligations.ThimbleCommands := by
  unfold Obligations.ThimbleCommands
  refine ⟨?_, ?_, ?_, ?_, ?_, ?_, ?_⟩
  · intro s t b i new c hs h0 hh hsource hfixed hchannel hrange hmask hkeep hsample hdirect hoff
    exact thmSet_sets hs ⟨h0, hh, hsource, hfixed, hchannel, hrange, hmask, hkeep, hsample, hdirect⟩
      (configure_disabled hoff _).symm (Or.inl hoff)
  · intro s t b i new c hs h0 hh hsource hfixed hchannel hrange hmask hkeep hsample hdirect hon hchange
    exact thmSet_sets hs ⟨h0, hh, hsource, hfixed, hchannel, hrange, hmask, hkeep, hsample, hdirect⟩
      (configure_warms hon (warms_of hchange) _).symm (Or.inr (Or.inl rfl))
  · intro s t b i new c hs h0 hh hsource hfixed hchannel hrange hmask hkeep hsample hdirect hon hcool hcont hwatch hquiet
    have cont : (!new.sampled && s.dev.pwr.state != .watch) = true := by simp [hcont, hwatch]
    refine thmSet_sets hs ⟨h0, hh, hsource, hfixed, hchannel, hrange, hmask, hkeep, hsample, hdirect⟩ ?_ (Or.inr (Or.inr fun h => ?_))
    · exact ((congrArg (c.configure new) cont).trans (configure_atOnce hon hcool)).symm
    · exact absurd (hquiet.symm.trans h) Bool.false_ne_true
  · intro s t b i new c hs h0 hh hsource hfixed hchannel hrange hmask hkeep hsample hdirect hon hcool htick
    have waits : (!new.sampled && s.dev.pwr.state != .watch) = false := by obtain h | h := htick <;> simp [h]
    refine thmSet_sets hs ⟨h0, hh, hsource, hfixed, hchannel, hrange, hmask, hkeep, hsample, hdirect⟩ ?_ (Or.inr (Or.inr fun h => h))
    exact ((congrArg (c.configure new) waits).trans (configure_waits hon hcool)).symm
  · intro s t o m hs h0 hm hq
    exact thmSetTrip_quiet hs h0 hm hq
  · intro s t o j m hs h0 hm hj hl hi hf hn x held e
    exact thmSetTrip_trips hs h0 hm hj hl hi hf hn
  · intro s t b i hs h0 hh c n
    exact thmStatus_answers hs h0 hh

end Sys2Proof.Proofs

namespace Sys2Proof.Proofs
open Machine Laws

/-! ## PWM_PERIOD_START, HEARTBEAT_TOGGLE, FEED_TIMEOUT (R208 to R211) -/

section
variable {s : State} {t : Time} {o : Fin 8}

/-- A row that takes its branch. -/
theorem does_if {i : Instr} {p : Prop} [Decidable p] {d : Dev} {changed : List Part} {effect : Dev → Prop}
    (hi : exec i s = .next { s with dev := if p then d else here s t }) (hp : p) (hk : Keeps changed (here s t) d) (he : effect d) :
    Does i s t changed effect := does_of (hi.trans (by rw [if_pos hp])) hk he

/-- A row that does not take its branch. -/
theorem does_ifNot {i : Instr} {p : Prop} [Decidable p] {d : Dev} (hi : exec i s = .next { s with dev := if p then d else here s t })
    (hp : ¬ p) : Does i s t [] (fun _ => True) := does_stay hi (if_neg hp)

/-- The output is armed and not tripped, in this mode. -/
def Runs (x : Needle) (mode : NeedleMode) : Prop := x.armed = true ∧ x.tripped = false ∧ x.set.mode = mode

/-- An output at the start of its next period. -/
def periodStarted (rate : Int) (x : Needle) : Needle :=
  { x with mark := x.mark + stretched rate (x.set.period * 15625), nextPH := none,
           set := match x.nextPH with | some (p, a) => { x.set with period := p, active := a } | none => x.set }

theorem periodStarted_eq (rate : Int) (x : Needle) : periodStarted rate x =
    { x with mark := x.mark + stretched rate (x.set.period * 15625), nextPH := none, set := periodSet x } := by
  unfold periodStarted periodSet
  cases x.nextPH <;> rfl

/-- An output at the end of a half-period. -/
def toggled (x : Needle) : Needle := { x with mark := x.mark + us x.set.halfUs, phase := !x.phase }

theorem pwmPeriodStart_exec : exec (.pwmPeriodStart t o) s = .next { s with dev :=
    (if ((here s t).sampling && s.dev.guard.outs[o].armed && !s.dev.guard.outs[o].tripped && s.dev.guard.outs[o].set.mode == .pwm &&
      decide (s.dev.guard.outs[o].mark + stretched s.dev.clk.edgeRate (s.dev.guard.outs[o].set.period * 15625) ≤ instant s t)) = true
    then (here s t).onOut o (periodStarted s.dev.clk.edgeRate) else here s t) } := rfl

theorem heartbeatToggle_exec : exec (.heartbeatToggle t o) s = .next { s with dev :=
    (if ((here s t).sampling && s.dev.guard.outs[o].armed && !s.dev.guard.outs[o].tripped && s.dev.guard.outs[o].set.mode == .heartbeat &&
      decide (s.dev.guard.outs[o].mark + us s.dev.guard.outs[o].set.halfUs ≤ instant s t)) = true
    then (here s t).onOut o toggled else here s t) } := rfl

theorem feedTimeout_exec : exec (.feedTimeout t o) s = .next { s with dev :=
    (if s.dev.guard.outs[o].starved (instant s t) = true then (here s t).trip o .feed else here s t) } := rfl

/-- A row of the running output that is due. -/
theorem due_of {x : Needle} {mode : NeedleMode} {at_ : Time} (hs : (here s t).sampling = true) (hx : Runs x mode) (h : at_ ≤ instant s t) :
    ((here s t).sampling && x.armed && !x.tripped && x.set.mode == mode && decide (at_ ≤ instant s t)) = true := by
  obtain ⟨armed, tripped, rfl⟩ := hx
  rw [hs, armed, tripped, decide_eq_true h, Bool.and_true]
  exact beq_self_eq_true _

theorem not_due_of {x : Needle} {mode : NeedleMode} {at_ : Time} (h : x.armed = false ∨ x.tripped = true ∨ instant s t < at_) :
    ¬ ((here s t).sampling && x.armed && !x.tripped && x.set.mode == mode && decide (at_ ≤ instant s t)) = true := by
  simp only [Bool.and_eq_true, Bool.not_eq_true', decide_eq_true_eq]
  rintro ⟨⟨⟨⟨-, armed⟩, tripped⟩, -⟩, due⟩
  obtain h | h | h := h
  · exact Bool.noConfusion (armed.symm.trans h)
  · exact Bool.noConfusion (tripped.symm.trans h)
  · exact absurd due (not_le.mpr h)

theorem pwmPeriodStart_starts (hs : (here s t).sampling = true) (hx : Runs s.dev.guard.outs[o] .pwm)
    (h : s.dev.guard.outs[o].mark + stretched s.dev.clk.edgeRate (s.dev.guard.outs[o].set.period * 15625) ≤ instant s t) :
    Does (.pwmPeriodStart t o) s t [.guard] (fun d =>
      d.guard = { s.dev.guard with outs := s.dev.guard.outs.set o.val (periodStarted s.dev.clk.edgeRate s.dev.guard.outs[o]) }) :=
  does_if pwmPeriodStart_exec (due_of hs hx h) (onOut_keeps _ _ _) rfl

theorem heartbeatToggle_toggles (hs : (here s t).sampling = true) (hx : Runs s.dev.guard.outs[o] .heartbeat)
    (h : s.dev.guard.outs[o].mark + us s.dev.guard.outs[o].set.halfUs ≤ instant s t) :
    Does (.heartbeatToggle t o) s t [.guard]
      (fun d => d.guard = { s.dev.guard with outs := s.dev.guard.outs.set o.val (toggled s.dev.guard.outs[o]) }) :=
  does_if heartbeatToggle_exec (due_of hs hx h) (onOut_keeps _ _ _) rfl

theorem feedTimeout_trips (hx : s.dev.guard.outs[o].starved (instant s t) = true) (hf : s.dev.guard.outs[o].firing = none)
    (hn : ∀ c : Basket, s.dev.guard.held[c] = none) : Does (.feedTimeout t o) s t [.host, .guard] (fun d =>
      d.guard = { s.dev.guard with outs := s.dev.guard.outs.set o.val (trippedBy .feed (instant s t) s.dev.guard.outs[o]) } ∧
      d.host = (tripNoticed (here s t) o (tripEvent o .feed (s.dev.guard.outs[o].trips + 1))).host) := by
  have marked := feedTimeout_exec (s := s) (t := t) (o := o)
  rw [if_pos hx, trip_quiet (d := here s t) hf hn] at marked
  refine does_of marked ?_ ⟨tripMarked_guard.trans rfl, rfl⟩
  exact Keeps.andThen (tripNoticed_keeps _ _ _) (by decide) (Keeps.mono (onOut_keeps _ _ _) (by decide))

theorem not_starved {x : Needle} {now : Time} (h : x.armed = false ∨ x.tripped = true ∨ now < x.lastFeed + ms x.set.feedMs) :
    ¬ x.starved now = true := by
  rw [starved_iff]
  rintro ⟨⟨armed, tripped, -⟩, -, late⟩
  obtain h | h | h := h
  · exact Bool.noConfusion (armed.symm.trans h)
  · exact Bool.noConfusion (tripped.symm.trans h)
  · exact absurd late (not_le.mpr h)

/-! ## The synthesiser (R212, R213, R216) -/

theorem synthLock_exec : exec (.synthLock t) s = .next { s with dev :=
    (if ((here s t).sampling && s.dev.guard.synth.state == .settling) = true then
      ((here s t).onGuard (fun g => { g with synth := { s.dev.guard.synth with state := .locked, since := instant s t } })).postHeld
        (fun g => g.synth) { event := .synthLock, data0 := s.dev.guard.synth.freq % 65536, data1 := s.dev.guard.synth.freq / 65536 }
    else here s t) } := rfl

theorem synthCalibrationEnd_exec : exec (.synthCalibrationEnd t) s = .next { s with dev :=
    (if ((here s t).sampling && s.dev.guard.synth.state == .calibrating) = true then
      (here s t).onGuard (fun g => { g with synth := { s.dev.guard.synth with state := .settling, since := instant s t } })
    else here s t) } := rfl

theorem synthLock_locks (hs : (here s t).sampling = true) (hy : s.dev.guard.synth.state = .settling) :
    let y := s.dev.guard.synth
    let e : Ev := { event := .synthLock, data0 := y.freq % 65536, data1 := y.freq / 65536 }
    Does (.synthLock t) s t [.host, .guard] (fun d => d.guard = { s.dev.guard with synth := { y with state := .locked, since := instant s t } } ∧
      d.host = ((here s t).postHeld (fun g => g.synth) e).host) :=
  does_if synthLock_exec (by rw [hs, hy]; rfl)
    (Keeps.andThen (postHeld_keeps _ _ _) (by decide) (Keeps.mono (onGuard_keeps _ _) (by decide))) ⟨rfl, rfl⟩

theorem synthCalibrationEnd_settles (hs : (here s t).sampling = true) (hy : s.dev.guard.synth.state = .calibrating) :
    Does (.synthCalibrationEnd t) s t [.guard]
      (fun d => d.guard = { s.dev.guard with synth := { s.dev.guard.synth with state := .settling, since := instant s t } }) :=
  does_if synthCalibrationEnd_exec (by rw [hs, hy]; rfl) (onGuard_keeps _ _) rfl

end

/-! ## A held fire (R217 to R220) -/

section
variable {s : State} {t : Time} {b : Basket} {h : HeldFire}

/-- Is the output ready to fire: neither tripped nor firing, and with lock for a burst (R217, R220)? -/
def readyToFire (y : Synth) (x : Needle) : Bool :=
  !x.tripped && x.firing.isNone && (x.set.mode == .oneshot || (x.set.mode == .burst && y.ready))

theorem readyToFire_iff {y : Synth} {x : Needle} : readyToFire y x = true ↔ x.tripped = false ∧ x.firing = none ∧
    (x.set.mode = .oneshot ∨ (x.set.mode = .burst ∧ y.state = .locked ∧ y.waiting = none)) := by
  simp [readyToFire, Synth.ready, and_assoc]

/-- Has the start of a held fire come? -/
def startCome (d : Dev) (h : HeldFire) : Bool := match h.start with | none => true | some st => decide (st ≤ d.stamp.toNat)

theorem startCome_iff {d : Dev} : startCome d h = true ↔ ∀ st ∈ h.start, st ≤ d.stamp.toNat := by
  unfold startCome
  cases h.start <;> simp

/-- The device without the held fire of a basket. -/
def released (d : Dev) (b : Basket) : Dev := d.onGuard (fun g => { g with held := d.guard.held.set b none })

theorem fireStart_exec (hh : s.dev.guard.held[b] = some h) : exec (.fireStart t b) s = .next { s with dev :=
    (if (!((here s t).named h.mask).all (readyToFire s.dev.guard.synth) || !startCome (here s t) h || decide (h.deadline ≤ instant s t)) = true
    then here s t
    else ((released (here s t) b).fireOuts h.tag (maskOuts h.mask)).finish b 0x0312 (success (leWords 4 (here s t).stamp.toNat))) } := by
  have held : (here s t).guard.held[b] = some h := hh
  show Host.Outcome.next { s with dev := match (here s t).guard.held[b] with | none => _ | some h => _ } = _
  simp only [held]
  rfl

theorem fireDeadline_exec (hh : s.dev.guard.held[b] = some h) : exec (.fireDeadline t b) s = .next { s with dev :=
    (if instant s t < h.deadline then here s t else (released (here s t) b).finish b 0x0312 (refusal .synthBusy)) } := by
  have held : (here s t).guard.held[b] = some h := hh
  show Host.Outcome.next { s with dev := match (here s t).guard.held[b] with | none => _ | some h => _ } = _
  simp only [held]
  rfl

theorem fireOuts_spec (tag : Byte) (os : List (Fin 8)) (hl : os.Nodup) (d : Dev) : OnlyOuts d (d.fireOuts tag os) ∧
    ∀ p : Fin 8, (d.fireOuts tag os).guard.outs[p] =
      if p ∈ os then d.guard.outs[p].fire d.guard.synth.freq d.clk.edgeRate d.now d.stamp tag else d.guard.outs[p] :=
  eachEntry (run := fun os e => e.fireOuts tag os) (Same := OnlyOuts d) (entry := fun e p => e.guard.outs[p])
    (g := fun _ x => x.fire d.guard.synth.freq d.clk.edgeRate d.now d.stamp tag)
    (fun _ => rfl) (fun _ _ _ => rfl) (fun o _ he => he.onOut o _)
    (fun o e he => by
      obtain ⟨outs, rfl⟩ := he
      exact onOut_same _ o _)
    (fun _ _ _ _ hp => onOut_other _ _ hp) os hl d (OnlyOuts.refl d)

/-- How long an output fires: a burst for its cycles, a one-shot for its width (R217, R220). -/
def fireLength (s : State) (x : Needle) : Time :=
  if x.set.mode = .burst then (x.set.burst * unitsPerSec + s.dev.guard.synth.freq - 1) / max 1 s.dev.guard.synth.freq
  else stretched s.dev.clk.edgeRate (x.set.width * 15625)

theorem fire_eq (x : Needle) (tag : Byte) : x.fire s.dev.guard.synth.freq s.dev.clk.edgeRate (instant s t) (here s t).stamp tag =
    { x with firing := some { start := instant s t, stamp := (here s t).stamp, stop := instant s t + fireLength s x, tag := tag,
                              cycles := x.set.burst } } := by
  simp only [Needle.fire, fireLength, beq_iff_eq]

theorem fireStart_fires {r : Running} (hh : s.dev.guard.held[b] = some h)
    (hx : ∀ o : Fin 8, bit h.mask o.val = true → readyToFire s.dev.guard.synth s.dev.guard.outs[o] = true)
    (hst : ∀ st ∈ h.start, st ≤ (here s t).stamp.toNat) (hd : instant s t < h.deadline) (hr : s.dev.host.pages[b].running = some r)
    (hc : r.code = 0x0312 ∧ r.outcome = none) : Does (.fireStart t b) s t [.host, .guard] (fun d =>
      d.guard = { s.dev.guard with held := s.dev.guard.held.set b.val none, outs := d.guard.outs } ∧
      d.host = withPage s.dev.host b { s.dev.host.pages[b] with
        running := some { r with outcome := some { error := 0, results := results4 (leWords 4 (here s t).stamp.toNat) } } } ∧
      ∀ p : Fin 8, d.guard.outs[p] = if p ∈ maskOuts h.mask
        then s.dev.guard.outs[p].fire s.dev.guard.synth.freq s.dev.clk.edgeRate (instant s t) (here s t).stamp h.tag
        else s.dev.guard.outs[p]) := by
  have ready : ((here s t).named h.mask).all (readyToFire s.dev.guard.synth) = true := named_all.mpr hx
  have fires := fireStart_exec (t := t) hh
  rw [ready, startCome_iff.mpr hst, decide_eq_false (not_le.mpr hd), if_neg (by decide)] at fires
  obtain ⟨only, outs⟩ := fireOuts_spec h.tag (maskOuts h.mask) (maskOuts_nodup _) (released (here s t) b)
  have guard : (((released (here s t) b).fireOuts h.tag (maskOuts h.mask)).finish b 0x0312 (success (leWords 4 (here s t).stamp.toNat))).guard =
      ((released (here s t) b).fireOuts h.tag (maskOuts h.mask)).guard := finish_keeps _ _ _ _ .guard (by decide)
  refine does_of fires ?_ ⟨?_, ?_, fun p => ?_⟩
  · exact Keeps.andThen (finish_keeps _ _ _ _) (by decide) (Keeps.andThen only.keeps (by decide) (Keeps.mono (onGuard_keeps _ _) (by decide)))
  · rw [guard]
    exact only.guard
  · obtain ⟨outs, he⟩ := only
    rw [he]
    exact finish_host (d := here s t) hr hc.1 hc.2
  · rw [guard]
    exact outs p

theorem fireDeadline_refuses {r : Running} (hh : s.dev.guard.held[b] = some h) (hd : h.deadline ≤ instant s t)
    (hr : s.dev.host.pages[b].running = some r) (hc : r.code = 0x0312 ∧ r.outcome = none) :
    Does (.fireDeadline t b) s t [.host, .guard] (fun d =>
      d.guard = { s.dev.guard with held := s.dev.guard.held.set b.val none } ∧
      d.host = withPage s.dev.host b { s.dev.host.pages[b] with
        running := some { r with outcome := some { error := Err.synthBusy.code, results := Vector.replicate 4 0 } } }) := by
  have refuses := fireDeadline_exec (t := t) hh
  rw [if_neg (not_lt.mpr hd)] at refuses
  refine does_of refuses (Keeps.andThen (finish_keeps _ _ _ _) (by decide) (Keeps.mono (onGuard_keeps _ _) (by decide))) ⟨?_, ?_⟩
  · exact (finish_keeps (released (here s t) b) b 0x0312 (refusal .synthBusy) .guard (by decide)).trans rfl
  · exact finish_host (d := released (here s t) b) hr hc.1 hc.2

/-- A fire whose outputs are not ready, whose start has not come or whose deadline has come does not begin. -/
theorem fireStart_waits (hh : s.dev.guard.held[b] = some h)
    (hx : (∃ o : Fin 8, bit h.mask o.val = true ∧ readyToFire s.dev.guard.synth s.dev.guard.outs[o] = false) ∨
      (∃ st ∈ h.start, (here s t).stamp.toNat < st) ∨ h.deadline ≤ instant s t) : Does (.fireStart t b) s t [] (fun _ => True) := by
  refine does_stay (fireStart_exec hh) (if_pos ?_)
  simp only [Bool.or_eq_true, Bool.not_eq_true', decide_eq_true_eq]
  obtain ⟨o, ho, hx⟩ | ⟨st, hst, late⟩ | late := hx
  · refine Or.inl (Or.inl (Bool.eq_false_iff.mpr fun all => ?_))
    exact Bool.noConfusion ((named_all.mp all o ho).symm.trans hx)
  · refine Or.inl (Or.inr (Bool.eq_false_iff.mpr fun come => ?_))
    exact absurd (startCome_iff.mp come st hst) (not_le.mpr late)
  · exact Or.inr late

/-! ## FIRE_DONE (R214, R222) -/

theorem fireDone_exec {o : Fin 8} {f : Firing} (hf : s.dev.guard.outs[o].firing = some f) : exec (.fireDone t o) s = .next { s with dev :=
    (if f.stop ≤ instant s t then (here s t).fireEnd o f false else here s t) } := by
  have firing : (here s t).guard.outs[o].firing = some f := hf
  show Host.Outcome.next { s with dev := match (here s t).guard.outs[o].firing with | none => _ | some f => _ } = _
  simp only [firing]
  rfl

/-- The device whose burst has ended, before a waiting frequency takes effect. -/
def burstEnded (d : Dev) (o : Fin 8) (f : Firing) : Dev :=
  ((d.onFree (· + 1)).onOut o (fun x => { x with firing := none })).post (d.holders (outHeld o)) f.stamp
    { event := .fireDone, subject := o.val, data0 := f.cycles, data1 := 0, tag := f.tag }

theorem fireEnd_burst {d : Dev} {o : Fin 8} {f : Firing} (hm : d.guard.outs[o].set.mode = .burst) :
    d.fireEnd o f false = (burstEnded d o f).synthRelease := by
  have mode : (d.onFree (· + 1)).guard.outs[o].set.mode = .burst := hm
  simp only [Dev.fireEnd, Dev.draw, mode]
  rfl

/-- A frequency that waited takes effect once no burst goes on (R214). -/
theorem synthRelease_eq {d : Dev} (h : d.guard.synth.waiting = none ∨ d.guard.bursting = false) : d.synthRelease =
    d.onGuard (fun g => { g with synth := (d.guard.synth.waiting.map (fun f => d.guard.synth.retune f d.now)).getD d.guard.synth }) := by
  unfold Dev.synthRelease
  cases hw : d.guard.synth.waiting with
  | none => rfl
  | some f =>
    have still : d.guard.bursting = false := h.resolve_left (by rw [hw]; exact Option.some_ne_none f)
    simp only [still, Bool.false_eq_true, if_false]
    rfl

theorem fireDone_ends {o : Fin 8} {f : Firing} (hf : s.dev.guard.outs[o].firing = some f) (hm : s.dev.guard.outs[o].set.mode = .burst)
    (hstop : f.stop ≤ instant s t)
    (hw : s.dev.guard.synth.waiting = none ∨ (∀ p : Fin 8, p ≠ o → s.dev.guard.outs[p].firing = none)) :
    let e : Ev := { event := .fireDone, subject := o.val, data0 := f.cycles, data1 := 0, tag := f.tag }
    let synth := (s.dev.guard.synth.waiting.map (fun g => s.dev.guard.synth.retune g (instant s t))).getD s.dev.guard.synth
    Does (.fireDone t o) s t [.host, .guard, .free] (fun d =>
      d.guard = { s.dev.guard with outs := s.dev.guard.outs.set o.val { s.dev.guard.outs[o] with firing := none }, synth := synth } ∧
      d.host = ((here s t).post ((here s t).holders (outHeld o)) f.stamp e).host) := by
  intro e synth
  have quiet : s.dev.guard.synth.waiting = none ∨ (burstEnded (here s t) o f).guard.bursting = false := hw.imp_right fun others => by
    rw [Bool.eq_false_iff, Ne, bursting_iff]
    rintro ⟨p, firing, -⟩
    refine firing ?_
    show ((here s t).onOut o (fun x => { x with firing := none })).guard.outs[p].firing = none
    by_cases hp : p = o
    · rw [hp, onOut_same]
    · rw [onOut_other _ _ hp]
      exact others p hp
  have ended : exec (.fireDone t o) s = .next { s with dev := (burstEnded (here s t) o f).onGuard (fun g => { g with synth := synth }) } := by
    rw [fireDone_exec hf, if_pos hstop, fireEnd_burst (d := here s t) hm, synthRelease_eq quiet]
    rfl
  refine does_of ended ?_ ⟨rfl, rfl⟩
  exact Keeps.andThen (onGuard_keeps _ _) (by decide) (Keeps.andThen (post_keeps _ _ _ _) (by decide)
    (Keeps.andThen (onOut_keeps _ _ _) (by decide) (Keeps.mono (onFree_keeps _ _) (by decide))))

end

/-- Settles O43: each row by the branch that it takes; a fire by whether it is ready, come and in time. -/
theorem needleEvents : Obligations.NeedleEvents := by
  unfold Obligations.NeedleEvents
  refine ⟨?_, ?_, ?_, ?_, ?_, ?_, ?_, ?_, ?_, ?_, ?_⟩
  · intro s t o x hoff hreset hclock hx h set
    refine does_imp (pwmPeriodStart_starts (here_sampling hoff hreset hclock) hx h) fun d hd => ?_
    rw [hd, periodStarted_eq]
    rfl
  · intro s t o x hoff hreset hclock hx h
    exact heartbeatToggle_toggles (here_sampling hoff hreset hclock) hx h
  · intro s t o x hx hfeed hf hn held e
    exact feedTimeout_trips (starved_iff.mpr ⟨hx, hfeed⟩) hf hn
  · intro s t o x hpwm hheart hfeed
    exact ⟨does_ifNot pwmPeriodStart_exec (not_due_of hpwm), does_ifNot heartbeatToggle_exec (not_due_of hheart),
      does_ifNot feedTimeout_exec (not_starved hfeed)⟩
  · intro s t y hoff hreset hclock hy e
    exact synthLock_locks (here_sampling hoff hreset hclock) hy
  · intro s t y hoff hreset hclock hy
    exact synthCalibrationEnd_settles (here_sampling hoff hreset hclock) hy
  · intro s t b h r y now hh hx hst hd hr hc
    refine does_imp (fireStart_fires hh (fun o ho => readyToFire_iff.mpr (hx o ho)) hst hd hr hc) ?_
    rintro d ⟨guard, host, outs⟩
    refine ⟨guard, host, fun o => ⟨fun ho => ?_, fun ho => ?_⟩⟩
    · rw [outs, if_neg (by simp [mem_maskOuts, ho])]
    · rw [outs, if_pos (mem_maskOuts.mpr ho), fire_eq]
      rfl
  · intro s t b h hh hx hd
    refine ⟨fireStart_waits hh ?_, does_stay (fireDeadline_exec hh) (if_pos hd)⟩
    obtain ⟨o, ho, hx⟩ | hst := hx
    · refine Or.inl ⟨o, ho, ?_⟩
      rw [← Bool.not_eq_true, readyToFire_iff]
      rintro ⟨untripped, -, mode⟩
      obtain tripped | ⟨burst, unlocked⟩ := hx
      · exact Bool.noConfusion (untripped.symm.trans tripped)
      · obtain oneshot | ⟨-, locked, -⟩ := mode
        · exact NeedleMode.noConfusion (burst.symm.trans oneshot)
        · exact unlocked locked
    · exact Or.inr (Or.inl hst)
  · intro s t b h r hh hd hr hc
    exact ⟨fireStart_waits hh (Or.inr (Or.inr hd)), fireDeadline_refuses hh hd hr hc⟩
  · intro s t o f x y hf hm hstop hw e held synth
    exact fireDone_ends hf hm hstop hw
  · intro s t o f hf hstop
    exact does_ifNot (fireDone_exec hf) (not_le.mpr hstop)

end Sys2Proof.Proofs

namespace Sys2Proof.Proofs
open Machine Laws

/-! ## A comparator and its watched signal (R186, R187, R191) -/

section
variable {d : Dev} {i : Fin 32} {v : Int} {c : Comparator}

/-- The device with one comparator replaced. -/
def withComp (d : Dev) (i : Fin 32) (x : Comparator) : Dev := d.onComp i (fun _ => x)

theorem onComp_eq (f : Comparator → Comparator) : d.onComp i f = withComp d i (f d.guard.comps[i]) := onComp_congr rfl

@[simp] theorem withComp_same (d : Dev) (i : Fin 32) (x : Comparator) : (withComp d i x).guard.comps[i] = x := onComp_same _ _ _

theorem withComp_other {j : Fin 32} (x : Comparator) (h : j ≠ i) : (withComp d i x).guard.comps[j] = d.guard.comps[j] := onComp_other _ _ h

@[simp] theorem withComp_withComp (d : Dev) (i : Fin 32) (x y : Comparator) : withComp (withComp d i x) i y = withComp d i y := by
  simp only [withComp, Dev.onComp, Dev.onGuard, upd, Vector.set_set]

theorem onComp_withComp (x : Comparator) (f : Comparator → Comparator) : (withComp d i x).onComp i f = withComp d i (f x) := by
  rw [onComp_eq, withComp_same, withComp_withComp]

/-- The signal that a comparator watches, in threshold codes. -/
def signal (d : Dev) (i : Fin 32) (c : Comparator) (v : Int) : Int × Nat :=
  match c.set.source with
  | .channel => d.levelCodes i.val v
  | .envelope => d.levelCodes c.set.vib.val v
  | .band => (d.bandLevel c v * ((1020 * 2 ^ (d.watchedBand c.set).scale : Nat) : Int), 2 ^ 32)

/-- A comparator that has followed its input. -/
def follow (d : Dev) (i : Fin 32) (v : Int) (c : Comparator) : Comparator :=
  { c with state := c.set.next c.state c.evaluated (signal d i c v).1 (signal d i c v).2, evaluated := true,
           stood := if (d.bandLost c.set).isSome = true then some (d.bandLevel c v) else none }

theorem compEval_free (h : d.compHeld i = false) : d.compEval i v = withComp d i (follow d i v d.guard.comps[i]) := by
  unfold Dev.compEval
  rw [if_neg (by rw [h]; exact Bool.false_ne_true)]
  exact onComp_eq _

theorem compEval_held (h : d.compHeld i = true) : d.compEval i v = d := if_pos h

theorem withComp_compHeld {x : Comparator} (h : x.holdUntil = d.guard.comps[i].holdUntil) : (withComp d i x).compHeld i = d.compHeld i := by
  unfold Dev.compHeld
  rw [withComp_same, h]
  rfl

theorem withComp_continuous {x : Comparator} (h : x.set = d.guard.comps[i].set) : (withComp d i x).continuous i = d.continuous i := by
  unfold Dev.continuous
  rw [withComp_same, h]
  rfl

/-- Is the watched signal beyond the level of a threshold code, as the statement writes it? -/
abbrev beyondCode (d : Dev) (i : Fin 32) (c : Comparator) (v k : Int) : Prop :=
  if c.set.source = .band then k * 2 ^ 32 < d.bandLevel c v * 1020 * 2 ^ (d.watchedBand c.set).scale
  else (k - 512) * (scaleNv (if c.set.source = .envelope then c.set.vib.val else i.val) : Int) <
    512 * (v * d.gainOf (if c.set.source = .envelope then c.set.vib.val else i.val))

/-- Is the watched signal beneath the level of a threshold code? -/
abbrev beneathCode (d : Dev) (i : Fin 32) (c : Comparator) (v k : Int) : Prop :=
  if c.set.source = .band then d.bandLevel c v * 1020 * 2 ^ (d.watchedBand c.set).scale < k * 2 ^ 32
  else 512 * (v * d.gainOf (if c.set.source = .envelope then c.set.vib.val else i.val)) <
    (k - 512) * (scaleNv (if c.set.source = .envelope then c.set.vib.val else i.val) : Int)

theorem levelCodes_signal (pos : Nat) (v k : Int) :
    (k * ((d.levelCodes pos v).2 : Int) < (d.levelCodes pos v).1 ↔ (k - 512) * (scaleNv pos : Int) < 512 * (v * d.gainOf pos)) ∧
    ((d.levelCodes pos v).1 < k * ((d.levelCodes pos v).2 : Int) ↔ 512 * (v * d.gainOf pos) < (k - 512) * (scaleNv pos : Int)) := by
  simp only [Dev.levelCodes]
  rw [Int.sub_mul]
  constructor <;> constructor <;> intro h <;> linarith

theorem signal_codes (k : Int) : (beyondCode d i c v k ↔ k * ((signal d i c v).2 : Int) < (signal d i c v).1) ∧
    (beneathCode d i c v k ↔ (signal d i c v).1 < k * ((signal d i c v).2 : Int)) := by
  cases hs : c.set.source with
  | channel =>
    simp only [beyondCode, beneathCode, signal, hs, reduceCtorEq, if_false]
    exact ⟨(levelCodes_signal _ _ _).1.symm, (levelCodes_signal _ _ _).2.symm⟩
  | envelope =>
    simp only [beyondCode, beneathCode, signal, hs, reduceCtorEq, if_false, if_true]
    exact ⟨(levelCodes_signal _ _ _).1.symm, (levelCodes_signal _ _ _).2.symm⟩
  | band =>
    simp only [beyondCode, beneathCode, signal, hs, if_true]
    push_cast
    rw [mul_assoc]
    exact ⟨Iff.rfl, Iff.rfl⟩

/-- The state that a comparator decides, as the statement writes it. -/
def decided (d : Dev) (i : Fin 32) (v : Int) (c : Comparator) : CompState :=
  if c.evaluated = false ∨ c.state = .inside then
    (if beyondCode d i c v c.set.high then CompState.above else if beneathCode d i c v c.set.low then .below else .inside)
  else if c.state = .above then
    (if beneathCode d i c v c.set.low then .below else if beneathCode d i c v ((c.set.high : Int) - c.set.hyst) then .inside else .above)
  else (if beyondCode d i c v c.set.high then .above else if beyondCode d i c v ((c.set.low : Int) + c.set.hyst) then .inside else .below)

theorem next_eq_decided : c.set.next c.state c.evaluated (signal d i c v).1 (signal d i c v).2 = decided d i v c := by
  unfold decided CompSet.next
  simp only [(signal_codes _).1, (signal_codes _).2]
  cases c.evaluated <;> cases c.state <;> rfl

theorem follow_eq : follow d i v c = { c with
    state := decided d i v c, evaluated := true,
    stood := if (d.bandLost c.set).isSome = true then some (d.bandLevel c v) else none } := by
  rw [follow, next_eq_decided]

/-- Does a state show the latch condition (R195)? -/
def Shown (c : CompSet) (st : CompState) : Prop := (st = .above ∧ c.maskAbove = true) ∨ (st = .below ∧ c.maskBelow = true)

theorem present_iff {c : CompSet} {st : CompState} : c.present st = true ↔ Shown c st := by
  cases st <;> simp [CompSet.present, Shown]

theorem present_eq_false {c : CompSet} {st : CompState} (h : ¬ Shown c st) : c.present st = false :=
  Bool.eq_false_iff.mpr (fun hp => h (present_iff.mp hp))

end

end Sys2Proof.Proofs

namespace Sys2Proof.Proofs
open Machine Laws

/-! ## Ring taps that a latch triggers (R262, R263) -/

section
variable {d : Dev} {comp : Fin 32} {p q : Fin 24} {b k : Basket} {r : Ring}

/-- A ring whose trigger output is the one that it wrote last. -/
def lastTriggers (r : Ring) : Ring :=
  let i := (r.next + r.length - 1) % max 1 r.length
  if r.post = 0 then { r with next := i, total := r.total - 1, state := .stopped }
  else if r.post = 1 then { r with trigIndex := some i, postLeft := 0, state := .stopped }
  else { r with trigIndex := some i, postLeft := r.post - 1, state := .post }

/-- A ring after a trigger: the first counts (R263), and an output with the timestamp of the trigger is the trigger output. -/
def triggered (now : Time) (stamp : BitVec 64) (r : Ring) : Ring :=
  if r.state = .running ∧ r.mode = .triggered ∧ r.trigAt = none then
    (if r.total = 0 ∨ r.newest ≠ stamp then { r with trigAt := some now } else lastTriggers { r with trigAt := some now })
  else r

theorem ring_fin (d : Dev) (p : Fin 24) (b : Basket) : d.ring p.val b = d.rinse.chains[p].rings[b] := by
  rw [Dev.ring, getElem?_toList_fin]

theorem putRing_ring (d : Dev) (p q : Fin 24) (b k : Basket) (r : Ring) : (d.putRing p.val b r).rinse.chains[q].rings[k] =
    if q = p ∧ k = b then some r else d.rinse.chains[q].rings[k] := by
  show (updAt d.rinse.chains p.val (fun c => { c with rings := c.rings.set b (some r) }))[q].rings[k] = _
  rw [updAt_getElem]
  by_cases hq : q = p
  · subst hq
    rw [if_pos rfl]
    by_cases hk : k = b
    · subst hk
      rw [if_pos ⟨rfl, rfl⟩]
      exact Vector.getElem_set_self _
    · rw [if_neg (fun h => hk h.2)]
      exact Vector.getElem_set_ne b.isLt k.isLt (fun h => hk (Fin.ext h.symm))
  · rw [if_neg (fun h => hq (Fin.ext h.symm)), if_neg (fun h => hq h.1)]

theorem ringStop_rinse (pos : Nat) (reason : Nat) : (d.ringStop pos b r reason).rinse = (d.putRing pos b { r with state := .stopped }).rinse := by
  unfold Dev.ringStop
  dsimp only
  split <;> rfl

theorem ringTrigger_guard : (r.state != .running || r.mode != .triggered || r.trigAt.isSome) = true ↔
    ¬ (r.state = .running ∧ r.mode = .triggered ∧ r.trigAt = none) := by
  simp only [Bool.or_eq_true, bne_iff_ne, Option.isSome_iff_ne_none]
  tauto

/-- Only a running TRIGGERED ring without a trigger takes one (R263). -/
theorem ringTrigger_off (pos : Nat) (h : ¬ (r.state = .running ∧ r.mode = .triggered ∧ r.trigAt = none)) : d.ringTrigger pos b r = d :=
  if_pos (ringTrigger_guard.mpr h)

/-- The next output is the trigger output. -/
theorem ringTrigger_next (pos : Nat) (h : r.state = .running ∧ r.mode = .triggered ∧ r.trigAt = none)
    (hq : r.total = 0 ∨ r.newest ≠ d.stamp) : d.ringTrigger pos b r = d.putRing pos b { r with trigAt := some d.now } :=
  (if_neg (fun hg => ringTrigger_guard.mp hg h)).trans (if_pos hq)

/-- The last output is the trigger output. -/
theorem ringTrigger_last (pos : Nat) (h : r.state = .running ∧ r.mode = .triggered ∧ r.trigAt = none)
    (hq : ¬ (r.total = 0 ∨ r.newest ≠ d.stamp)) :
    (d.ringTrigger pos b r).rinse = (d.putRing pos b (lastTriggers { r with trigAt := some d.now })).rinse := by
  let i := (r.next + r.length - 1) % max 1 r.length
  let x : Ring := { r with trigAt := some d.now, trigIndex := some i, postLeft := r.post - 1, state := .post }
  have last : d.ringTrigger pos b r = if r.post = 0 then
      d.ringStop pos b { r with trigAt := some d.now, next := i, total := r.total - 1 } 0
    else if r.post - 1 = 0 then d.ringStop pos b x 0 else d.putRing pos b x :=
    (if_neg (fun hg => ringTrigger_guard.mp hg h)).trans (if_neg hq)
  rw [last]
  unfold lastTriggers
  by_cases h0 : r.post = 0
  · simp only [h0, if_true, ringStop_rinse]
    rfl
  · by_cases h1 : r.post = 1
    · simp only [x, h1, Nat.one_ne_zero, if_false, if_true, Nat.sub_self, ringStop_rinse]
      rfl
    · have left : ¬ r.post - 1 = 0 := by omega
      simp only [h0, h1, left, if_false]
      rfl

/-- A trigger puts the triggered ring. -/
theorem ringTrigger_ring (h : d.rinse.chains[p].rings[b] = some r) :
    (d.ringTrigger p.val b r).rinse.chains[q].rings[k] =
      if q = p ∧ k = b then some (triggered d.now d.stamp r) else d.rinse.chains[q].rings[k] := by
  by_cases hr : r.state = .running ∧ r.mode = .triggered ∧ r.trigAt = none
  · by_cases hq : r.total = 0 ∨ r.newest ≠ d.stamp
    · rw [ringTrigger_next _ hr hq, triggered, if_pos hr, if_pos hq]
      exact putRing_ring _ _ _ _ _ _
    · rw [ringTrigger_last _ hr hq, triggered, if_pos hr, if_neg hq]
      exact putRing_ring _ _ _ _ _ _
  · rw [ringTrigger_off _ hr, triggered, if_neg hr]
    split
    next hk =>
      obtain ⟨rfl, rfl⟩ := hk
      exact h
    next => rfl

/-- A ring of a basket after the latch of a comparator has set. -/
def latchTriggered (d : Dev) (comp : Fin 32) (b : Basket) (r : Ring) : Ring :=
  if d.grants[b].comparators[comp] = true ∧ r.comp = some comp then triggered d.now d.stamp r else r

theorem latchTrigger_eq : d.latchTrigger comp p.val b = (match d.rinse.chains[p].rings[b] with
    | none => d
    | some r => if d.grants[b].comparators[comp] = true ∧ r.comp = some comp then d.ringTrigger p.val b r else d) := by
  unfold Dev.latchTrigger
  rw [ring_fin]
  cases d.rinse.chains[p].rings[b] with
  | none => rfl
  | some r =>
    dsimp only
    simp only [Bool.and_eq_true, beq_iff_eq]

theorem latchTrigger_ring (d : Dev) (comp : Fin 32) (p q : Fin 24) (b k : Basket) :
    (d.latchTrigger comp p.val b).rinse.chains[q].rings[k] =
      if q = p ∧ k = b then d.rinse.chains[p].rings[b].map (latchTriggered d comp b) else d.rinse.chains[q].rings[k] := by
  have stays : d.rinse.chains[p].rings[b].map (latchTriggered d comp b) = d.rinse.chains[p].rings[b] →
      d.rinse.chains[q].rings[k] =
        if q = p ∧ k = b then d.rinse.chains[p].rings[b].map (latchTriggered d comp b) else d.rinse.chains[q].rings[k] := fun h => by
    split
    next hk =>
      obtain ⟨rfl, rfl⟩ := hk
      exact h.symm
    next => rfl
  rw [latchTrigger_eq]
  cases hr : d.rinse.chains[p].rings[b] with
  | none =>
    rw [hr] at stays
    exact stays rfl
  | some r =>
    rw [hr] at stays
    by_cases ht : d.grants[b].comparators[comp] = true ∧ r.comp = some comp
    · simp only [if_pos ht, Option.map_some, latchTriggered]
      exact ringTrigger_ring hr
    · simp only [if_neg ht]
      exact stays (by rw [Option.map_some, latchTriggered, if_neg ht])

/-- Every ring tap: its chain and its basket. -/
def taps : List (Fin 24 × Basket) := (List.finRange 24).product (List.finRange 4)

theorem taps_nodup : taps.Nodup := (List.nodup_finRange 24).product (List.nodup_finRange 4)

theorem mem_taps (x : Fin 24 × Basket) : x ∈ taps := List.mem_product.mpr ⟨List.mem_finRange _, List.mem_finRange _⟩

/-- A latch reaches the ring taps of a list. -/
def tapsTriggered (comp : Fin 32) (l : List (Fin 24 × Basket)) (d : Dev) : Dev := l.foldl (fun e x => e.latchTrigger comp x.1.val x.2) d

theorem latchTriggers_eq : d.latchTriggers comp = tapsTriggered comp taps d := by
  unfold Dev.latchTriggers tapsTriggered taps List.product
  rw [range24_eq, List.foldl_map, List.foldl_flatMap]
  rfl

/-- Each ring that the comparator triggers takes the trigger; the others stay (R262). -/
theorem latchTriggers_ring (d : Dev) (comp : Fin 32) (p : Fin 24) (b : Basket) : (d.latchTriggers comp).rinse.chains[p].rings[b] =
    d.rinse.chains[p].rings[b].map (latchTriggered d comp b) := by
  have same : ∀ {e : Dev}, Keeps [.host, .rinse] d e → ∀ k, latchTriggered e comp k = latchTriggered d comp k := fun {e} he k => by
    have clk : e.clk = d.clk := he .clk (by decide)
    have grants : e.grants = d.grants := he .grants (by decide)
    funext r
    unfold latchTriggered Dev.now
    rw [stamp_congr clk, clk, grants]
  rw [latchTriggers_eq]
  obtain ⟨-, rings⟩ := eachEntry (run := tapsTriggered comp) (step := fun x e => e.latchTrigger comp x.1.val x.2)
    (entry := fun e x => e.rinse.chains[x.1].rings[x.2]) (g := fun x y => y.map (latchTriggered d comp x.2)) (Same := Keeps [.host, .rinse] d)
    (fun _ => rfl) (fun _ _ _ => rfl) (fun x e he => Keeps.andThen (latchTrigger_keeps _ _ _ _) (fun _ hp => hp) he)
    (fun x e he => by rw [latchTrigger_ring, if_pos ⟨rfl, rfl⟩, same he])
    (fun x y e he hy => by rw [latchTrigger_ring, if_neg (fun h => hy (Prod.ext h.1 h.2))])
    taps taps_nodup d (Keeps.refl _ _)
  exact (rings (p, b)).trans (if_pos (mem_taps _))

/-- No ring that the comparator triggers has an output with the timestamp of this instant. -/
def RingsQuiet (d : Dev) (comp : Fin 32) : Prop := ∀ (p : Fin 24) (b : Basket), ∀ r ∈ d.rinse.chains[p].rings[b],
  d.grants[b].comparators[comp] = true → r.comp = some comp → r.total = 0 ∨ r.newest ≠ d.stamp

theorem triggered_quiet {now : Time} {stamp : BitVec 64} (h : r.total = 0 ∨ r.newest ≠ stamp) : triggered now stamp r =
    if r.state = .running ∧ r.mode = .triggered ∧ r.trigAt = none then { r with trigAt := some now } else r := by
  rw [triggered, if_pos h]

theorem triggered_quiet_output {now : Time} {stamp : BitVec 64} (h : r.total = 0 ∨ r.newest ≠ stamp) :
    (triggered now stamp r).total = r.total ∧ (triggered now stamp r).newest = r.newest := by
  rw [triggered_quiet h]
  split <;> exact ⟨rfl, rfl⟩

/-- A trigger whose output is still to come posts nothing. -/
theorem ringTrigger_quiet (pos : Nat) (h : r.total = 0 ∨ r.newest ≠ d.stamp) : Keeps [.rinse] d (d.ringTrigger pos b r) := by
  by_cases hr : r.state = .running ∧ r.mode = .triggered ∧ r.trigAt = none
  · rw [ringTrigger_next _ hr h]
    exact putRing_keeps _ _ _ _
  · rw [ringTrigger_off _ hr]
    exact Keeps.refl _ _

theorem latchTrigger_quiet (h : RingsQuiet d comp) :
    Keeps [.rinse] d (d.latchTrigger comp p.val b) ∧ RingsQuiet (d.latchTrigger comp p.val b) comp := by
  have keeps : Keeps [.rinse] d (d.latchTrigger comp p.val b) := by
    rw [latchTrigger_eq]
    cases hr : d.rinse.chains[p].rings[b] with
    | none => exact Keeps.refl _ _
    | some r =>
      dsimp only
      split
      next ht => exact ringTrigger_quiet _ (h p b r hr ht.1 ht.2)
      next => exact Keeps.refl _ _
  refine ⟨keeps, fun q k r hr hg hc => ?_⟩
  have grants : (d.latchTrigger comp p.val b).grants = d.grants := keeps .grants (by decide)
  have stamp : (d.latchTrigger comp p.val b).stamp = d.stamp := stamp_congr (keeps .clk (by decide))
  rw [grants] at hg
  rw [stamp]
  rw [latchTrigger_ring] at hr
  split at hr
  next hk =>
    obtain ⟨rfl, rfl⟩ := hk
    obtain ⟨r', hr', rfl⟩ := Option.map_eq_some_iff.mp hr
    unfold latchTriggered at hc ⊢
    split at hc
    next ht =>
      have quiet := h q k r' hr' ht.1 ht.2
      obtain ⟨total, newest⟩ := triggered_quiet_output (now := d.now) quiet
      rw [if_pos ht, total, newest]
      exact quiet
    next ht => exact absurd ⟨hg, hc⟩ ht
  next => exact h q k r hr hg hc

theorem latchTriggers_quiet (h : RingsQuiet d comp) : Keeps [.rinse] d (d.latchTriggers comp) := by
  rw [latchTriggers_eq]
  unfold tapsTriggered
  generalize taps = l
  induction l generalizing d with
  | nil => exact Keeps.refl _ _
  | cons x l ih =>
    obtain ⟨keeps, quiet⟩ := latchTrigger_quiet (p := x.1) (b := x.2) h
    exact Keeps.andThen (ih quiet) (fun _ hp => hp) keeps

end

end Sys2Proof.Proofs

namespace Sys2Proof.Proofs
open Machine Laws

/-! ## A latch sets from clear (R195, R196, R206, R207, R262) -/

section
variable {d e : Dev} {i : Fin 32} {o : Fin 8} {stamp : BitVec 64}

/-- A comparator whose latch sets at an instant. -/
def latched (now : Time) (c : Comparator) : Comparator :=
  { c with latch := true, latchFrom := now, latchSetAt := now, latches := c.latches + 1 }

/-- The record of a comparator whose latch has set. -/
def latchEvent (i : Fin 32) (c : Comparator) : Ev :=
  { event := .thimble, subject := i.val, data0 := c.state.number, data1 := c.latches.toNat % 65536 }

/-- The THIMBLE bit of the baskets that hold a comparator, and the record of its latch (R196). -/
def latchNoticed (d : Dev) (i : Fin 32) (stamp : BitVec 64) (e : Ev) : Dev :=
  (d.raise (d.holdersOnly (compHeldBy i)) .thimble).post (d.holders (compHeldBy i)) stamp e

/-- The device whose latch has set, is noticed and has reached the rings. -/
def latchFed (d : Dev) (i : Fin 32) (stamp : BitVec 64) : Dev :=
  (latchNoticed (withComp d i (latched d.now d.guard.comps[i])) i stamp (latchEvent i (latched d.now d.guard.comps[i]))).latchTriggers i

/-- A comparator with wake enabled is a wake source (R207). -/
def woken (d : Dev) (c : Comparator) : Dev := if c.set.wake = true then d.wakeBy 0 else d

theorem latchSet_eq (d : Dev) (i : Fin 32) (stamp : BitVec 64) :
    d.latchSet i stamp = woken ((latchFed d i stamp).tripEdges d.tripInput (List.finRange 8)) d.guard.comps[i] := by
  unfold Dev.latchSet
  dsimp only
  rw [onComp_eq, withComp_same]
  rfl

theorem woken_keeps (d : Dev) (c : Comparator) : Keeps [.pwr] d (woken d c) := by
  unfold woken
  split
  · exact wakeBy_keeps _ _
  · exact Keeps.refl _ _

theorem woken_pwr (h : e.pwr = d.pwr) (c : Comparator) : (woken e c).pwr = (woken d c).pwr := by
  unfold woken Dev.wakeBy Dev.onPwr
  rw [h]
  split
  · split
    · rfl
    · exact h
  · exact h

theorem latchNoticed_keeps (d : Dev) (i : Fin 32) (stamp : BitVec 64) (e : Ev) : Keeps [.host] d (latchNoticed d i stamp e) :=
  Keeps.andThen (post_keeps _ _ _ _) (fun _ hp => hp) (raise_keeps _ _ _)

theorem latchFed_keeps (d : Dev) (i : Fin 32) (stamp : BitVec 64) :
    Keeps [.host, .rinse] (withComp d i (latched d.now d.guard.comps[i])) (latchFed d i stamp) :=
  Keeps.andThen (latchTriggers_keeps _ _) (fun _ hp => hp) (Keeps.mono (latchNoticed_keeps _ _ _ _) (by decide))

theorem latchFed_guard (d : Dev) (i : Fin 32) (stamp : BitVec 64) :
    (latchFed d i stamp).guard = (withComp d i (latched d.now d.guard.comps[i])).guard := latchFed_keeps _ _ _ .guard (by decide)

/-- A latch that sets makes active the trip inputs whose masks select it (R206). -/
theorem latchFed_tripInput : (latchFed d i stamp).tripInput o = true ↔ d.tripInput o = true ∨ d.guard.tripMasks[o][i] = true := by
  have guard := latchFed_guard d i stamp
  have masks : (latchFed d i stamp).guard.tripMasks = d.guard.tripMasks := (congrArg Guard.tripMasks guard).trans rfl
  have comps : ∀ j : Fin 32, (latchFed d i stamp).guard.comps[j] = if j = i then latched d.now d.guard.comps[i] else d.guard.comps[j] := fun j => by
    rw [guard]
    split
    next h => rw [h, withComp_same]
    next h => exact withComp_other _ h
  rw [tripInput_iff, tripInput_iff, masks]
  constructor
  · rintro ⟨j, latch, mask⟩
    rw [comps] at latch
    by_cases hj : j = i
    · exact Or.inr (hj ▸ mask)
    · rw [if_neg hj] at latch
      exact Or.inl ⟨j, latch, mask⟩
  · rintro (⟨j, latch, mask⟩ | mask)
    · refine ⟨j, ?_, mask⟩
      rw [comps]
      split
      · rfl
      · exact latch
    · exact ⟨i, by rw [comps, if_pos rfl]; rfl, mask⟩

/-- The comparators after a latch has set: only its own differs. -/
theorem latchSet_comps (d : Dev) (i : Fin 32) (stamp : BitVec 64) :
    (d.latchSet i stamp).guard.comps = (withComp d i (latched d.now d.guard.comps[i])).guard.comps := by
  obtain ⟨⟨comps, -, -⟩, -⟩ := tripEdges_spec d.tripInput (List.finRange 8) (List.nodup_finRange 8) (latchFed d i stamp)
  rw [latchSet_eq, show (woken _ _).guard = _ from woken_keeps _ _ .guard (by decide), comps, latchFed_guard]

/-- Each output whose trip input goes active trips (R206, R223). -/
theorem latchSet_outs (d : Dev) (i : Fin 32) (stamp : BitVec 64) (o : Fin 8) : (d.latchSet i stamp).guard.outs[o] =
    if d.guard.tripMasks[o][i] = true ∧ d.tripInput o = false then cutOff .thimble d.now d.guard.outs[o] else d.guard.outs[o] := by
  obtain ⟨-, outs⟩ := tripEdges_spec d.tripInput (List.finRange 8) (List.nodup_finRange 8) (latchFed d i stamp)
  have now : (latchFed d i stamp).now = d.now := congrArg Clock.now ((latchFed_keeps d i stamp .clk (by decide)).trans rfl)
  have before : (latchFed d i stamp).guard.outs[o] = d.guard.outs[o] := by rw [latchFed_guard]; rfl
  have active : (latchFed d i stamp).tripInput o = true ∧ d.tripInput o = false ↔ d.guard.tripMasks[o][i] = true ∧ d.tripInput o = false := by
    rw [latchFed_tripInput]
    constructor
    · rintro ⟨was | mask, clear⟩
      · exact absurd (clear.symm.trans was) Bool.false_ne_true
      · exact ⟨mask, clear⟩
    · exact fun h => ⟨Or.inr h.1, h.2⟩
  rw [latchSet_eq, show (woken _ _).guard = _ from woken_keeps _ _ .guard (by decide), outs, if_pos (List.mem_finRange o), edgeTripped, before, now]
  simp only [active]

/-- The rings that the comparator triggers take the trigger (R262). -/
theorem latchSet_ring (d : Dev) (i : Fin 32) (stamp : BitVec 64) (p : Fin 24) (b : Basket) :
    (d.latchSet i stamp).rinse.chains[p].rings[b] = d.rinse.chains[p].rings[b].map (latchTriggered d i b) := by
  have rinse : (d.latchSet i stamp).rinse = (latchFed d i stamp).rinse := by
    rw [latchSet_eq]
    exact (woken_keeps _ _ .rinse (by decide)).trans (tripEdges_keeps _ _ _ .rinse (by decide))
  rw [rinse, latchFed, latchTriggers_ring]
  rfl

/-- A latch that no trip mask selects trips nothing. -/
theorem latchSet_unmasked (h : ∀ o : Fin 8, d.guard.tripMasks[o][i] = false) :
    d.latchSet i stamp = woken (latchFed d i stamp) d.guard.comps[i] := by
  rw [latchSet_eq, tripEdges_none]
  intro o _ active
  obtain was | mask := latchFed_tripInput.mp active
  · exact was
  · exact absurd ((h o).symm.trans mask) Bool.false_ne_true

end

section
variable {s : State} {t : Time} {i : Fin 32} {y : Comparator} {stamp : BitVec 64}

/-- What a latch that trips nothing leaves, when no ring has its trigger output yet. -/
def LatchSets (s : State) (t : Time) (i : Fin 32) (stamp : BitVec 64) (x : Comparator) (d : Dev) : Prop :=
  d.guard = { s.dev.guard with comps := s.dev.guard.comps.set i.val x } ∧ d.host = (latchNoticed (here s t) i stamp (latchEvent i x)).host ∧
  d.pwr = (woken (here s t) x).pwr ∧
  ∀ (pos : Fin 24) (b : Basket), ∀ r ∈ (s.dev.rinse.chains[pos]).rings[b], (d.rinse.chains[pos]).rings[b] =
    some (if (s.dev.grants[b]).comparators[i] = true ∧ r.comp = some i ∧ r.state = .running ∧ r.mode = .triggered ∧ r.trigAt = none then
      { r with trigAt := some (instant s t) } else r)

theorem latchSet_sets (hm : ∀ o : Fin 8, s.dev.guard.tripMasks[o][i] = false) (hq : RingsQuiet (here s t) i) :
    Keeps [.pwr, .host, .guard, .rinse] (here s t) ((withComp (here s t) i y).latchSet i stamp) ∧
    LatchSets s t i stamp (latched (instant s t) y) ((withComp (here s t) i y).latchSet i stamp) := by
  let D := withComp (here s t) i y
  let x := latched (instant s t) y
  have own : D.guard.comps[i] = y := withComp_same _ _ _
  have twice : withComp D i (latched D.now D.guard.comps[i]) = withComp (here s t) i x := by rw [own]; exact withComp_withComp _ _ _ _
  have fed : latchFed D i stamp = (latchNoticed (withComp (here s t) i x) i stamp (latchEvent i x)).latchTriggers i := by
    rw [latchFed, twice, own]
    rfl
  have eq : D.latchSet i stamp = woken (latchFed D i stamp) y := by rw [latchSet_unmasked (d := D) hm, own]
  have quiet : Keeps [.rinse] (latchNoticed (withComp (here s t) i x) i stamp (latchEvent i x)) (latchFed D i stamp) := by
    rw [fed]
    exact latchTriggers_quiet hq
  have wakes : Keeps [.pwr] (latchFed D i stamp) (D.latchSet i stamp) := by
    rw [eq]
    exact woken_keeps _ _
  refine ⟨?_, ?_, ?_, ?_, fun pos b r hr => ?_⟩
  · exact Keeps.andThen wakes (by decide) (Keeps.andThen quiet (by decide) (Keeps.andThen (latchNoticed_keeps _ _ _ _) (by decide)
      (Keeps.mono (onComp_keeps _ _ _) (by decide))))
  · exact (wakes .guard (by decide)).trans ((quiet .guard (by decide)).trans rfl)
  · exact (wakes .host (by decide)).trans ((quiet .host (by decide)).trans rfl)
  · rw [eq]
    exact (woken_pwr (d := here s t) ((quiet .pwr (by decide)).trans rfl) y).trans rfl
  · have ring : D.rinse.chains[pos].rings[b] = some r := hr
    rw [latchSet_ring, ring, Option.map_some, latchTriggered]
    by_cases ht : D.grants[b].comparators[i] = true ∧ r.comp = some i
    · have later : r.total = 0 ∨ r.newest ≠ D.stamp := hq pos b r hr ht.1 ht.2
      rw [if_pos ht, triggered_quiet later]
      simp only [show (s.dev.grants[b]).comparators[i] = true from ht.1, ht.2, true_and]
      rfl
    · rw [if_neg ht, if_neg (fun h => ht ⟨h.1, h.2.1⟩)]

end

/-! ## Evaluations (R191, R192, R195, R205) -/

section
variable {d : Dev} {i : Fin 32} {v : Int}

theorem latchCondition_clear {stamp : BitVec 64} (h : d.guard.comps[i].latch = false) : d.latchCondition i stamp = d.latchSet i stamp :=
  if_neg (by rw [h]; exact Bool.false_ne_true)

theorem compContinuous_free (h : d.compHeld i = false) : d.compContinuous i v =
    if (d.guard.comps[i].set.present (decided d i v d.guard.comps[i]) && !d.guard.comps[i].set.present d.guard.comps[i].state &&
      !d.guard.comps[i].warmUp) = true
    then (withComp d i (follow d i v d.guard.comps[i])).latchCondition i d.stamp
    else withComp d i (follow d i v d.guard.comps[i]) := by
  have held : (withComp d i (follow d i v d.guard.comps[i])).compHeld i = false :=
    (withComp_compHeld (x := follow d i v d.guard.comps[i]) rfl).trans h
  unfold Dev.compContinuous
  dsimp only
  rw [compEval_free h, withComp_same, held, Bool.not_false, Bool.and_true, ← next_eq_decided]
  rfl

/-- A condition newly appears on a clear latch (R195). -/
theorem compContinuous_latches (h : d.compHeld i = false) (hw : d.guard.comps[i].warmUp = false) (hl : d.guard.comps[i].latch = false)
    (hs : Shown d.guard.comps[i].set (decided d i v d.guard.comps[i])) (hn : ¬ Shown d.guard.comps[i].set d.guard.comps[i].state) :
    d.compContinuous i v = (withComp d i (follow d i v d.guard.comps[i])).latchSet i d.stamp := by
  rw [compContinuous_free h, present_iff.mpr hs, present_eq_false hn, hw]
  exact (if_pos rfl).trans (latchCondition_clear (by rw [withComp_same]; exact hl))

/-- No condition newly appears. -/
theorem compContinuous_quiet (h : d.compHeld i = false)
    (hs : ¬ Shown d.guard.comps[i].set (decided d i v d.guard.comps[i]) ∨ Shown d.guard.comps[i].set d.guard.comps[i].state) :
    d.compContinuous i v = withComp d i (follow d i v d.guard.comps[i]) := by
  rw [compContinuous_free h, if_neg]
  obtain h | h := hs
  · rw [present_eq_false h, Bool.false_and, Bool.false_and]
    exact Bool.false_ne_true
  · rw [present_iff.mpr h, Bool.not_true, Bool.and_false, Bool.false_and]
    exact Bool.false_ne_true

/-- A comparator that holds sets no latch. -/
theorem compContinuous_held (h : d.compHeld i = true) : d.compContinuous i v = d := by
  unfold Dev.compContinuous
  dsimp only
  rw [compEval_held h, h, if_neg]
  simp

end

/-! ## THIMBLE_CROSSING (R192, R195, R205) -/

section
variable {s : State} {t : Time} {i : Fin 32} {v : Int}

/-- The comparator operates (Table 17-6). -/
def Operates (s : State) (i : Fin 32) : Prop := s.dev.pwr.state ≠ .off ∧ s.dev.pwr.state ≠ .reset ∧ s.dev.guard.comps[i].set.enabled = true

/-- The comparator operates continuously (R192, R194). -/
def Continuous (s : State) (i : Fin 32) : Prop := s.dev.guard.comps[i].set.sampled = false ∧ s.dev.pwr.state ≠ .watch

theorem thimbleCrossing_exec : exec (.thimbleCrossing t i v) s = .next { s with dev :=
    (if ((here s t).thimbleOn && s.dev.guard.comps[i].set.enabled && (here s t).continuous i) = true then (here s t).compContinuous i v
    else here s t) } := rfl

theorem Operates.on (h : Operates s i) : ((here s t).thimbleOn && s.dev.guard.comps[i].set.enabled) = true := by
  obtain ⟨hoff, hreset, enabled⟩ := h
  have on : (here s t).thimbleOn = true := answers_of _ hoff hreset
  rw [on, enabled]
  rfl

theorem Continuous.here (h : Continuous s i) : (here s t).continuous i = true := by
  obtain ⟨continuous, awake⟩ := h
  have first : (!s.dev.guard.comps[i].set.sampled && s.dev.pwr.state != .watch) = true := by
    rw [continuous, bne_iff_ne.mpr awake]
    rfl
  show (!s.dev.guard.comps[i].set.sampled && s.dev.pwr.state != .watch || _) = true
  rw [first, Bool.true_or]

/-- An evaluation of a comparator that operates continuously. -/
theorem thimbleCrossing_evaluates {changed : List Part} {effect : Dev → Prop} {d : Dev} (ho : Operates s i) (hc : Continuous s i)
    (hd : (here s t).compContinuous i v = d) (hk : Keeps changed (here s t) d) (he : effect d) :
    Does (.thimbleCrossing t i v) s t changed effect := by
  subst hd
  exact does_if thimbleCrossing_exec (by rw [ho.on, hc.here]; rfl) hk he

theorem thimbleCrossing_held (h : (here s t).compHeld i = true) : Does (.thimbleCrossing t i v) s t [] (fun _ => True) :=
  does_stay thimbleCrossing_exec (by rw [compContinuous_held h, ite_self])

theorem thimbleCrossing_disabled (h : s.dev.guard.comps[i].set.enabled = false) : Does (.thimbleCrossing t i v) s t [] (fun _ => True) :=
  does_ifNot thimbleCrossing_exec (by rw [h, Bool.and_false, Bool.false_and]; exact Bool.false_ne_true)

end

end Sys2Proof.Proofs

namespace Sys2Proof.Proofs
open Machine Laws

/-! ## A tick of a comparator (R193 to R195, R198, R200, R203) -/

section
variable {d e f : Dev} {i : Fin 32} {v : Int}

/-- The setting that waited takes effect (R203). -/
def settled (c : Comparator) : Comparator := match c.waiting with | some w => { c with set := w, waiting := none } | none => c

/-- A comparator at its first tick in the warm-up window (R200). -/
def warmed (now : Time) (c : Comparator) : Comparator := if c.warmUp && c.warmUpTick.isNone then { c with warmUpTick := some now } else c

/-- The condition at a tick: it sets the latch outside the warm-up window and the hold (R194, R195). -/
def tickLatch (d : Dev) (i : Fin 32) (before cont : Bool) (stamp : BitVec 64) : Dev :=
  let c := d.guard.comps[i]
  if c.set.present c.state && !c.warmUp && !d.compHeld i && (!cont || !before) then d.latchCondition i stamp else d

/-- A tick without the condition clears the latch in next-period mode (R198), and the first one in a warm-up window counts. -/
def tickEnd (d : Dev) (i : Fin 32) (clears : Bool) : Dev :=
  let e := if clears then d.onComp i (fun c => { c with latch := false }) else d
  e.onComp i (warmed e.now)

theorem compTick_eq : d.compTick i v =
    let e := d.onComp i settled
    let f := e.compEval i v
    let c := f.guard.comps[i]
    tickEnd (tickLatch f i (e.guard.comps[i].set.present e.guard.comps[i].state) (d.continuous i) (d.compStamp i)) i
      (!c.set.present c.state && c.set.nextPeriod) := rfl

theorem settled_none {c : Comparator} (h : c.waiting = none) : settled c = c := by rw [settled, h]

theorem tickEnd_idle (h : d.guard.comps[i].warmUp = false) : tickEnd d i false = d := by
  refine onComp_id ?_
  show warmed d.now d.guard.comps[i] = d.guard.comps[i]
  rw [warmed, h]
  rfl

theorem latchSet_comp (d : Dev) (i : Fin 32) (stamp : BitVec 64) :
    (d.latchSet i stamp).guard.comps[i] = latched d.now d.guard.comps[i] := by
  rw [show (d.latchSet i stamp).guard.comps[i] = _ from congrArg (·[i]) (latchSet_comps d i stamp)]
  exact withComp_same _ _ _

/-- A condition present at a tick of a comparator that ticks sets its clear latch (R194, R195). -/
theorem compTick_latches (hwait : d.guard.comps[i].waiting = none) (hc : d.continuous i = false) (h : d.compHeld i = false)
    (hw : d.guard.comps[i].warmUp = false) (hl : d.guard.comps[i].latch = false)
    (hs : Shown d.guard.comps[i].set (decided d i v d.guard.comps[i])) :
    d.compTick i v = (withComp d i (follow d i v d.guard.comps[i])).latchSet i (d.compStamp i) := by
  let x := follow d i v d.guard.comps[i]
  have held : (withComp d i x).compHeld i = false := (withComp_compHeld (x := x) rfl).trans h
  have present : x.set.present x.state = true := by
    show d.guard.comps[i].set.present x.state = true
    rw [show x.state = _ from next_eq_decided]
    exact present_iff.mpr hs
  have latches : tickLatch (withComp d i x) i (d.guard.comps[i].set.present d.guard.comps[i].state) false (d.compStamp i) =
      (withComp d i x).latchSet i (d.compStamp i) := by
    unfold tickLatch
    dsimp only
    rw [withComp_same, present, held, show x.warmUp = false from hw]
    exact (if_pos rfl).trans (latchCondition_clear (by rw [withComp_same]; exact hl))
  rw [compTick_eq]
  dsimp only
  rw [onComp_id (settled_none hwait), compEval_free h, hc, withComp_same, present, latches]
  refine tickEnd_idle ?_
  rw [latchSet_comp, withComp_same]
  exact hw

/-- A tick without the condition in next-period mode (R198). -/
theorem compTick_clears (hwait : d.guard.comps[i].waiting = none) (h : d.compHeld i = false)
    (hs : ¬ Shown d.guard.comps[i].set (decided d i v d.guard.comps[i])) (hn : d.guard.comps[i].set.nextPeriod = true) :
    d.compTick i v = withComp d i (warmed d.now { follow d i v d.guard.comps[i] with latch := false }) := by
  let x := follow d i v d.guard.comps[i]
  have present : x.set.present x.state = false := by
    show d.guard.comps[i].set.present x.state = false
    rw [show x.state = _ from next_eq_decided]
    exact present_eq_false hs
  have rests : ∀ b cont stamp, tickLatch (withComp d i x) i b cont stamp = withComp d i x := fun b cont stamp => by
    unfold tickLatch
    dsimp only
    rw [withComp_same, present]
    rfl
  rw [compTick_eq]
  dsimp only
  rw [onComp_id (settled_none hwait), compEval_free h, rests, withComp_same, present, show x.set.nextPeriod = true from hn]
  show ((withComp d i x).onComp i (fun c => { c with latch := false })).onComp i (warmed _) = _
  rw [onComp_withComp, onComp_withComp]
  rfl

/-- The settings of a comparator stay, and so do the other comparators. -/
def SettingsStay (i : Fin 32) (d e : Dev) : Prop := e.guard.comps[i].set = d.guard.comps[i].set ∧
  e.guard.comps[i].waiting = d.guard.comps[i].waiting ∧ ∀ j : Fin 32, j ≠ i → e.guard.comps[j] = d.guard.comps[j]

theorem SettingsStay.refl (i : Fin 32) (d : Dev) : SettingsStay i d d := ⟨rfl, rfl, fun _ _ => rfl⟩

theorem SettingsStay.trans (h : SettingsStay i d e) (h' : SettingsStay i e f) : SettingsStay i d f := by
  obtain ⟨set, waiting, others⟩ := h
  obtain ⟨set', waiting', others'⟩ := h'
  exact ⟨set'.trans set, waiting'.trans waiting, fun j hj => (others' j hj).trans (others j hj)⟩

theorem SettingsStay.onComp {g : Comparator → Comparator} (hs : ∀ c, (g c).set = c.set) (hw : ∀ c, (g c).waiting = c.waiting) :
    SettingsStay i d (d.onComp i g) :=
  ⟨by rw [onComp_same, hs], by rw [onComp_same, hw], fun _ hj => onComp_other _ _ hj⟩

theorem SettingsStay.latchSet (d : Dev) (i : Fin 32) (stamp : BitVec 64) : SettingsStay i d (d.latchSet i stamp) := by
  refine ⟨by rw [latchSet_comp]; rfl, by rw [latchSet_comp]; rfl, fun j hj => ?_⟩
  exact (congrArg (·[j]) (latchSet_comps d i stamp)).trans (withComp_other _ hj)

theorem SettingsStay.latchCondition (d : Dev) (i : Fin 32) (stamp : BitVec 64) : SettingsStay i d (d.latchCondition i stamp) := by
  unfold Dev.latchCondition
  split
  · exact SettingsStay.onComp (fun _ => rfl) (fun _ => rfl)
  · exact SettingsStay.latchSet _ _ _

theorem SettingsStay.compEval (d : Dev) (i : Fin 32) (v : Int) : SettingsStay i d (d.compEval i v) := by
  unfold Dev.compEval
  split
  · exact SettingsStay.refl _ _
  · exact SettingsStay.onComp (fun _ => rfl) (fun _ => rfl)

theorem SettingsStay.tickLatch (d : Dev) (i : Fin 32) (before cont : Bool) (stamp : BitVec 64) :
    SettingsStay i d (tickLatch d i before cont stamp) := by
  unfold Proofs.tickLatch
  dsimp only
  split
  · exact SettingsStay.latchCondition _ _ _
  · exact SettingsStay.refl _ _

theorem SettingsStay.tickEnd (d : Dev) (i : Fin 32) (clears : Bool) : SettingsStay i d (tickEnd d i clears) := by
  unfold Proofs.tickEnd warmed
  refine SettingsStay.trans (e := if clears then d.onComp i (fun c => { c with latch := false }) else d) ?_
    (SettingsStay.onComp (fun c => ?_) (fun c => ?_))
  · split
    · exact SettingsStay.onComp (fun _ => rfl) (fun _ => rfl)
    · exact SettingsStay.refl _ _
  · split <;> rfl
  · split <;> rfl

/-- A setting that waited takes effect at the tick, whatever the tick decides (R203). -/
theorem compTick_settles {w : CompSet} (h : d.guard.comps[i].waiting = some w) : (d.compTick i v).guard.comps[i].set = w ∧
    (d.compTick i v).guard.comps[i].waiting = none ∧ ∀ j : Fin 32, j ≠ i → (d.compTick i v).guard.comps[j] = d.guard.comps[j] := by
  have stays : SettingsStay i (d.onComp i settled) (d.compTick i v) := by
    rw [compTick_eq]
    exact SettingsStay.trans (SettingsStay.compEval _ _ _) (SettingsStay.trans (SettingsStay.tickLatch _ _ _ _ _) (SettingsStay.tickEnd _ _ _))
  obtain ⟨set, waiting, others⟩ := stays
  have now : (d.onComp i settled).guard.comps[i] = { d.guard.comps[i] with set := w, waiting := none } := by rw [onComp_same, settled, h]
  exact ⟨set.trans (by rw [now]), waiting.trans (by rw [now]), fun j hj => (others j hj).trans (onComp_other _ _ hj)⟩

end

section
variable {s : State} {t : Time} {i : Fin 32} {v : Int}

/-- A tick of the comparator falls at this instant (R193, R194; log entry 56). -/
def Ticks (s : State) (t : Time) (c : CompSet) : Prop :=
  if c.tickKeep = true then (instant s t - s.dev.clk.origin) % (max 1 c.divider * 23437500) = 0
  else (here s t).sampling = true ∧ (here s t).onEdge = true ∧ (here s t).clk.edgeFrom (instant s t) % max 1 c.divider = 0

theorem ticks_iff {c : CompSet} : (((here s t).sampling || c.tickKeep) && (here s t).tickFalls c) = true ↔ Ticks s t c := by
  unfold Ticks Dev.tickFalls
  cases c.tickKeep
  · simp only [Bool.or_false, Bool.false_eq_true, if_false, Bool.and_eq_true, beq_iff_eq]
    rfl
  · simp only [Bool.or_true, Bool.true_and, if_true, beq_iff_eq]
    rfl

theorem thimbleTick_exec : exec (.thimbleTick t i v) s = .next { s with dev :=
    (if ((here s t).thimbleOn && s.dev.guard.comps[i].set.enabled && ((here s t).sampling || s.dev.guard.comps[i].set.tickKeep) &&
      (here s t).tickFalls s.dev.guard.comps[i].set) = true then (here s t).compTick i v else here s t) } := rfl

/-- A tick of a comparator that operates. -/
theorem thimbleTick_ticks {changed : List Part} {effect : Dev → Prop} {d : Dev} (ho : Operates s i) (ht : Ticks s t s.dev.guard.comps[i].set)
    (hd : (here s t).compTick i v = d) (hk : Keeps changed (here s t) d) (he : effect d) : Does (.thimbleTick t i v) s t changed effect := by
  subst hd
  exact does_if thimbleTick_exec (by rw [ho.on, Bool.true_and]; exact ticks_iff.mpr ht) hk he

theorem thimbleTick_none (h : ¬ Ticks s t s.dev.guard.comps[i].set) : Does (.thimbleTick t i v) s t [] (fun _ => True) :=
  does_ifNot thimbleTick_exec fun hg => h (ticks_iff.mp (by
    rw [Bool.and_assoc] at hg
    exact (Bool.and_eq_true _ _ ▸ hg).2))

theorem thimbleTick_disabled (h : s.dev.guard.comps[i].set.enabled = false) : Does (.thimbleTick t i v) s t [] (fun _ => True) :=
  does_ifNot thimbleTick_exec (by rw [h, Bool.and_false, Bool.false_and, Bool.false_and]; exact Bool.false_ne_true)

/-- The comparator operates as sampled (R193, R885). -/
def Sampled (s : State) (i : Fin 32) : Prop := s.dev.guard.comps[i].set.sampled = true ∧ s.dev.pwr.fault ≠ some .clock

theorem Sampled.here (h : Sampled s i) : (here s t).continuous i = false := by
  obtain ⟨sampled, runs⟩ := h
  show (!s.dev.guard.comps[i].set.sampled && s.dev.pwr.state != .watch ||
    (s.dev.pwr.fault == some .clock && !s.dev.guard.comps[i].set.tickKeep)) = false
  rw [sampled, beq_false_of_ne runs]
  rfl

/-- The timestamp of what a comparator decides at its tick (R14, R194). -/
theorem compStamp_tick (hc : Sampled s i) (ht : Ticks s t s.dev.guard.comps[i].set) : (here s t).compStamp i =
    if s.dev.guard.comps[i].set.tickKeep = true then (here s t).keepStamp (instant s t) else (here s t).stamp := by
  have falls : (here s t).tickFalls s.dev.guard.comps[i].set = true := by
    have both := ticks_iff.mpr ht
    rw [Bool.and_eq_true] at both
    exact both.2
  have guard : (!(here s t).continuous i && s.dev.guard.comps[i].set.tickKeep && (here s t).tickFalls s.dev.guard.comps[i].set) =
      s.dev.guard.comps[i].set.tickKeep := by
    rw [hc.here, falls, Bool.and_true]
    rfl
  show (if (!(here s t).continuous i && s.dev.guard.comps[i].set.tickKeep && (here s t).tickFalls s.dev.guard.comps[i].set) = true
    then _ else _) = _
  rw [guard]
  rfl

end

/-! ## WARM_UP_END, GAIN_HOLD_END (R200, R201, R205) -/

section
variable {s : State} {t : Time} {i : Fin 32} {v : Int} {k : Time}

/-- The warm-up window of a comparator ends (R200, R201). -/
def warmUpEnded (d : Dev) (i : Fin 32) (v : Int) : Dev :=
  let e := d.onComp i (fun c => { c with warmUp := false, warmUpTick := none })
  let f := if e.continuous i then e.compEval i v else e
  let c := f.guard.comps[i]
  if c.set.present c.state && !f.compHeld i then f.latchCondition i f.stamp else f

/-- The row WARM_UP_END: 1.5 us after the first tick of an open window of a comparator that operates. -/
def warmUpRow (d : Dev) (i : Fin 32) (v : Int) : Dev :=
  match d.guard.comps[i].warmUp, d.guard.comps[i].warmUpTick with
  | true, some k =>
    if !d.thimbleOn || !d.guard.comps[i].set.enabled || decide (d.now < k + ns 1500) then d else warmUpEnded d i v
  | _, _ => d

theorem warmUpEnd_exec : exec (.warmUpEnd t i v) s = .next { s with dev := warmUpRow (here s t) i v } := rfl

theorem warmUpRow_open {d : Dev} (hw : d.guard.comps[i].warmUp = true) (hk : d.guard.comps[i].warmUpTick = some k) : warmUpRow d i v =
    if !d.thimbleOn || !d.guard.comps[i].set.enabled || decide (d.now < k + ns 1500) then d else warmUpEnded d i v := by
  rw [warmUpRow, hw, hk]

theorem warmUpRow_early {d : Dev} (h : d.guard.comps[i].warmUp = false ∨ ∀ k ∈ d.guard.comps[i].warmUpTick, d.now < k + ns 1500) :
    warmUpRow d i v = d := by
  unfold warmUpRow
  split
  next k hw hk =>
    have early : d.now < k + ns 1500 := h.resolve_left (by rw [hw]; exact Bool.noConfusion) k hk
    rw [decide_eq_true early, Bool.or_true, if_pos rfl]
  next => rfl

/-- The comparator when its window ends. -/
def cooled (c : Comparator) : Comparator := { c with warmUp := false, warmUpTick := none }

/-- The window ends on a comparator that operates continuously: it follows its input, and a condition sets its latch (R200, R201). -/
theorem warmUpEnded_continuous {d : Dev} (hc : d.continuous i = true) (h : d.compHeld i = false) : warmUpEnded d i v =
    let x := cooled (follow d i v d.guard.comps[i])
    if d.guard.comps[i].set.present (decided d i v d.guard.comps[i]) = true then (withComp d i x).latchCondition i d.stamp else withComp d i x := by
  let y := cooled d.guard.comps[i]
  let x := cooled (follow d i v d.guard.comps[i])
  have start : d.onComp i cooled = withComp d i y := onComp_eq _
  have continuous : (withComp d i y).continuous i = true := (withComp_continuous (x := y) rfl).trans hc
  have free : (withComp d i y).compHeld i = false := (withComp_compHeld (x := y) rfl).trans h
  have follows : (withComp d i y).compEval i v = withComp d i x := by
    rw [compEval_free free, withComp_same, withComp_withComp]
    rfl
  have held : (withComp d i x).compHeld i = false := (withComp_compHeld (x := x) rfl).trans h
  have ended : warmUpEnded d i v =
      let f := if (d.onComp i cooled).continuous i then (d.onComp i cooled).compEval i v else d.onComp i cooled
      if f.guard.comps[i].set.present f.guard.comps[i].state && !f.compHeld i then f.latchCondition i f.stamp else f := rfl
  rw [ended, start, continuous, if_pos rfl, follows]
  dsimp only
  rw [withComp_same, held, Bool.not_false, Bool.and_true, ← next_eq_decided]
  rfl

/-- The end of a window of a comparator that operates. -/
theorem warmUpEnd_ends {changed : List Part} {effect : Dev → Prop} {d : Dev} (ho : Operates s i)
    (hw : s.dev.guard.comps[i].warmUp = true) (hk : s.dev.guard.comps[i].warmUpTick = some k) (hl : k + ns 1500 ≤ instant s t)
    (hd : warmUpEnded (here s t) i v = d) (hf : Keeps changed (here s t) d) (he : effect d) : Does (.warmUpEnd t i v) s t changed effect := by
  subst hd
  obtain ⟨hoff, hreset, enabled⟩ := ho
  have on : (here s t).thimbleOn = true := answers_of _ hoff hreset
  have open_ : (here s t).guard.comps[i].set.enabled = true := enabled
  have late : ¬ (here s t).now < k + ns 1500 := not_lt.mpr hl
  have row : exec (.warmUpEnd t i v) s = .next { s with dev := warmUpEnded (here s t) i v } := by
    rw [warmUpEnd_exec, warmUpRow_open (d := here s t) hw hk, on, open_, decide_eq_false late]
    rfl
  exact does_of row hf he

/-- The gain hold of a comparator ends. -/
def unheld (c : Comparator) : Comparator := { c with holdUntil := 0 }

theorem follow_unheld {d : Dev} (x c : Comparator) : follow (withComp d i x) i v (unheld c) = unheld (follow d i v c) := rfl

theorem decided_unheld {d : Dev} (x c : Comparator) : decided (withComp d i x) i v (unheld c) = decided d i v c := rfl

theorem gainHoldEnd_exec : exec (.gainHoldEnd t i v) s = .next { s with dev :=
    (if (s.dev.guard.comps[i].holdUntil = 0 || decide (instant s t < s.dev.guard.comps[i].holdUntil)) = true then here s t
    else if ((here s t).thimbleOn && s.dev.guard.comps[i].set.enabled && ((here s t).onComp i unheld).continuous i) = true
      then ((here s t).onComp i unheld).compContinuous i v
    else (here s t).onComp i unheld) } := rfl

theorem gainHoldEnd_early (h : s.dev.guard.comps[i].holdUntil = 0 ∨ instant s t < s.dev.guard.comps[i].holdUntil) :
    Does (.gainHoldEnd t i v) s t [] (fun _ => True) := by
  refine does_stay gainHoldEnd_exec (if_pos ?_)
  rw [Bool.or_eq_true, decide_eq_true_iff, decide_eq_true_iff]
  exact h

/-- The hold is over on a channel that does not calibrate (R95, R205). -/
theorem unheld_free (hcal : ∀ pos : Fin 24, pos.val = i.val → s.dev.fe[pos].cal = none) (c : Comparator) :
    (withComp (here s t) i (unheld c)).compHeld i = false := by
  unfold Dev.compHeld
  rw [withComp_same]
  show (decide (instant s t < 0) || match s.dev.fe.toList[i.val]? with | none => false | some c => c.cal.isSome) = false
  rw [decide_eq_false (Nat.not_lt_zero _), Bool.false_or]
  by_cases hi : i.val < 24
  · rw [show s.dev.fe.toList[i.val]? = some s.dev.fe[(⟨i.val, hi⟩ : Fin 24)] from getElem?_toList_fin s.dev.fe ⟨i.val, hi⟩]
    show s.dev.fe[(⟨i.val, hi⟩ : Fin 24)].cal.isSome = false
    rw [hcal ⟨i.val, hi⟩ rfl]
    rfl
  · rw [List.getElem?_eq_none (by rw [Vector.length_toList]; omega)]

/-- The hold ends on a comparator that operates continuously, and no condition newly appears. -/
theorem gainHoldEnd_follows (ho : Operates s i) (hc : Continuous s i) (hu : s.dev.guard.comps[i].holdUntil ≠ 0)
    (hl : s.dev.guard.comps[i].holdUntil ≤ instant s t) (hcal : ∀ pos : Fin 24, pos.val = i.val → s.dev.fe[pos].cal = none)
    (hs : ¬ Shown s.dev.guard.comps[i].set (decided (here s t) i v s.dev.guard.comps[i]) ∨
      Shown s.dev.guard.comps[i].set s.dev.guard.comps[i].state) :
    Does (.gainHoldEnd t i v) s t [.guard] (fun d =>
      d.guard = { s.dev.guard with comps := s.dev.guard.comps.set i.val (unheld (follow (here s t) i v s.dev.guard.comps[i])) }) := by
  let D := withComp (here s t) i (unheld s.dev.guard.comps[i])
  have own : D.guard.comps[i] = unheld s.dev.guard.comps[i] := withComp_same _ _ _
  have start : (here s t).onComp i unheld = D := onComp_eq _
  have continuous : D.continuous i = true := (withComp_continuous (x := unheld s.dev.guard.comps[i]) rfl).trans (hc.here (t := t))
  have follows : D.compContinuous i v = withComp (here s t) i (unheld (follow (here s t) i v s.dev.guard.comps[i])) := by
    rw [compContinuous_quiet (unheld_free hcal _) (by rw [own, decided_unheld]; exact hs), own, follow_unheld, withComp_withComp]
  have passed : ¬ (s.dev.guard.comps[i].holdUntil = 0 || decide (instant s t < s.dev.guard.comps[i].holdUntil)) = true := by
    rw [Bool.or_eq_true, decide_eq_true_iff, decide_eq_true_iff]
    exact fun h => h.elim hu (not_lt.mpr hl)
  have row := gainHoldEnd_exec (s := s) (t := t) (i := i) (v := v)
  rw [if_neg passed, start, ho.on, continuous, Bool.and_true, if_pos rfl, follows] at row
  exact does_of row (onComp_keeps _ _ _) rfl

end

end Sys2Proof.Proofs

namespace Sys2Proof.Proofs
open Machine Laws

/-! ## What the comparators decide at their rows -/

section
variable {s : State} {t : Time} {i : Fin 32} {v : Int} {k : Time}

/-- No trip mask selects the comparator, and no ring that it triggers has its trigger output yet. -/
def LatchAlone (s : State) (t : Time) (i : Fin 32) : Prop := (∀ o : Fin 8, s.dev.guard.tripMasks[o][i] = false) ∧ RingsQuiet (here s t) i

/-- The input shows a condition on a comparator that does not hold and whose latch is clear. -/
def ConditionFalls (s : State) (t : Time) (i : Fin 32) (v : Int) : Prop :=
  (here s t).compHeld i = false ∧ s.dev.guard.comps[i].latch = false ∧
  Shown s.dev.guard.comps[i].set (decided (here s t) i v s.dev.guard.comps[i])

/-- A condition that was not there falls on a continuous comparator outside its warm-up window. -/
def ConditionAppears (s : State) (t : Time) (i : Fin 32) (v : Int) : Prop :=
  ConditionFalls s t i v ∧ s.dev.guard.comps[i].warmUp = false ∧ ¬ Shown s.dev.guard.comps[i].set s.dev.guard.comps[i].state

theorem crossing_sets (h : ConditionAppears s t i v) : (here s t).compContinuous i v =
    (withComp (here s t) i (follow (here s t) i v s.dev.guard.comps[i])).latchSet i (here s t).stamp := by
  obtain ⟨⟨held, clear, shown⟩, cold, fresh⟩ := h
  exact compContinuous_latches (d := here s t) held cold clear shown fresh

theorem thimbleCrossing_latches (ho : Operates s i) (hc : Continuous s i) (h : ConditionAppears s t i v) (ha : LatchAlone s t i) :
    Does (.thimbleCrossing t i v) s t [.pwr, .host, .guard, .rinse]
      (LatchSets s t i (here s t).stamp (latched (instant s t) (follow (here s t) i v s.dev.guard.comps[i]))) := by
  obtain ⟨keeps, sets⟩ := latchSet_sets (y := follow (here s t) i v s.dev.guard.comps[i]) (stamp := (here s t).stamp) ha.1 ha.2
  exact thimbleCrossing_evaluates ho hc (crossing_sets h) keeps sets

/-- A new condition, whatever it trips and triggers. -/
theorem thimbleCrossing_sets {effect : Dev → Prop} (ho : Operates s i) (hc : Continuous s i) (h : ConditionAppears s t i v)
    (he : effect ((withComp (here s t) i (follow (here s t) i v s.dev.guard.comps[i])).latchSet i (here s t).stamp)) :
    Does (.thimbleCrossing t i v) s t [.pwr, .host, .guard, .rinse, .free] effect :=
  thimbleCrossing_evaluates ho hc (crossing_sets h)
    (Keeps.andThen (latchSet_keeps _ _ _) (by decide) (Keeps.mono (onComp_keeps _ _ _) (by decide))) he

theorem thimbleCrossing_follows (ho : Operates s i) (hc : Continuous s i) (h : (here s t).compHeld i = false)
    (hs : ¬ Shown s.dev.guard.comps[i].set (decided (here s t) i v s.dev.guard.comps[i]) ∨
      Shown s.dev.guard.comps[i].set s.dev.guard.comps[i].state) :
    Does (.thimbleCrossing t i v) s t [.guard] (fun d =>
      d.guard = { s.dev.guard with comps := s.dev.guard.comps.set i.val (follow (here s t) i v s.dev.guard.comps[i]) }) :=
  thimbleCrossing_evaluates ho hc (compContinuous_quiet (d := here s t) h hs) (onComp_keeps _ _ _) rfl

theorem withComp_tripInput {d : Dev} {x : Comparator} (h : x.latch = d.guard.comps[i].latch) (o : Fin 8) :
    (withComp d i x).tripInput o = d.tripInput o := by
  have latches : ∀ j : Fin 32, (withComp d i x).guard.comps[j].latch = d.guard.comps[j].latch := fun j => by
    by_cases hj : j = i
    · rw [hj, withComp_same, h]
    · rw [withComp_other _ hj]
  rw [Bool.eq_iff_iff, tripInput_iff, tripInput_iff]
  simp only [latches]
  rfl

/-- The latches and outputs after a new condition (R196, R206, R223). -/
theorem thimbleCrossing_trips (ho : Operates s i) (hc : Continuous s i) (h : ConditionAppears s t i v) :
    Does (.thimbleCrossing t i v) s t [.pwr, .host, .guard, .rinse, .free] (fun d =>
      d.guard.comps[i].latch = true ∧ (∀ j : Fin 32, j ≠ i → d.guard.comps[j] = s.dev.guard.comps[j]) ∧
      ∀ o : Fin 8, d.guard.outs[o] = if s.dev.guard.tripMasks[o][i] = true ∧ s.dev.tripInput o = false
        then cutOff .thimble (instant s t) s.dev.guard.outs[o] else s.dev.guard.outs[o]) := by
  let x := follow (here s t) i v s.dev.guard.comps[i]
  let D := withComp (here s t) i x
  obtain ⟨-, -, others⟩ := SettingsStay.latchSet D i (here s t).stamp
  refine thimbleCrossing_sets ho hc h ⟨?_, fun j hj => (others j hj).trans (withComp_other (d := here s t) _ hj), fun o => ?_⟩
  · rw [latchSet_comp]
    rfl
  · have before : D.tripInput o = s.dev.tripInput o := withComp_tripInput (d := here s t) (x := x) rfl o
    rw [latchSet_outs, before]
    rfl

/-- A ring that the comparator triggers, after a new condition (R262). -/
theorem thimbleCrossing_rings (ho : Operates s i) (hc : Continuous s i) (h : ConditionAppears s t i v) (pos : Fin 24) (b : Basket) :
    Does (.thimbleCrossing t i v) s t [.pwr, .host, .guard, .rinse, .free] (fun d =>
      d.rinse.chains[pos].rings[b] = s.dev.rinse.chains[pos].rings[b].map (latchTriggered (here s t) i b)) :=
  thimbleCrossing_sets ho hc h ((latchSet_ring _ _ _ _ _).trans rfl)

/-- A running ring whose last output has the timestamp of the trigger has its trigger output. -/
theorem latchTriggered_last {d : Dev} {b : Basket} {r : Ring} (hg : d.grants[b].comparators[i] = true) (hc : r.comp = some i)
    (hr : r.state = .running ∧ r.mode = .triggered ∧ r.trigAt = none) (ht : r.total ≠ 0) (hn : r.newest = d.stamp) :
    latchTriggered d i b r = lastTriggers { r with trigAt := some d.now } := by
  rw [latchTriggered, if_pos ⟨hg, hc⟩, triggered, if_pos hr, if_neg (fun h => h.elim ht (fun hne => hne hn))]

theorem thimbleTick_latches (ho : Operates s i) (hc : Sampled s i) (hwait : s.dev.guard.comps[i].waiting = none)
    (ht : Ticks s t s.dev.guard.comps[i].set) (h : ConditionFalls s t i v) (hw : s.dev.guard.comps[i].warmUp = false) (ha : LatchAlone s t i) :
    Does (.thimbleTick t i v) s t [.pwr, .host, .guard, .rinse]
      (LatchSets s t i (if s.dev.guard.comps[i].set.tickKeep = true then (here s t).keepStamp (instant s t) else (here s t).stamp)
        (latched (instant s t) (follow (here s t) i v s.dev.guard.comps[i]))) := by
  obtain ⟨held, clear, shown⟩ := h
  rw [← compStamp_tick hc ht]
  obtain ⟨keeps, sets⟩ := latchSet_sets (y := follow (here s t) i v s.dev.guard.comps[i]) (stamp := (here s t).compStamp i) ha.1 ha.2
  exact thimbleTick_ticks ho ht (compTick_latches (d := here s t) hwait hc.here held hw clear shown) keeps sets

theorem warmed_eq (now : Time) (c : Comparator) : warmed now c =
    { c with warmUpTick := if c.warmUp = true ∧ c.warmUpTick = none then some now else c.warmUpTick } := by
  unfold warmed
  simp only [Bool.and_eq_true, Option.isNone_iff_eq_none]
  split <;> rfl

theorem thimbleTick_clears (ho : Operates s i) (hwait : s.dev.guard.comps[i].waiting = none) (ht : Ticks s t s.dev.guard.comps[i].set)
    (h : (here s t).compHeld i = false) (hs : ¬ Shown s.dev.guard.comps[i].set (decided (here s t) i v s.dev.guard.comps[i]))
    (hn : s.dev.guard.comps[i].set.nextPeriod = true) :
    Does (.thimbleTick t i v) s t [.guard] (fun d => d.guard = { s.dev.guard with
      comps := s.dev.guard.comps.set i.val (warmed (instant s t) { follow (here s t) i v s.dev.guard.comps[i] with latch := false }) }) :=
  thimbleTick_ticks ho ht (compTick_clears (d := here s t) hwait h hs hn) (onComp_keeps _ _ _) rfl

/-- The warm-up window has run out (R201). -/
def WindowOver (s : State) (t : Time) (i : Fin 32) (k : Time) : Prop :=
  s.dev.guard.comps[i].warmUp = true ∧ s.dev.guard.comps[i].warmUpTick = some k ∧ k + ns 1500 ≤ instant s t

theorem warmUpEnd_latches (ho : Operates s i) (hc : Continuous s i) (hw : WindowOver s t i k) (h : ConditionFalls s t i v)
    (ha : LatchAlone s t i) : Does (.warmUpEnd t i v) s t [.pwr, .host, .guard, .rinse]
      (LatchSets s t i (here s t).stamp (latched (instant s t) (cooled (follow (here s t) i v s.dev.guard.comps[i])))) := by
  obtain ⟨warm, tick, late⟩ := hw
  obtain ⟨held, clear, shown⟩ := h
  obtain ⟨keeps, sets⟩ := latchSet_sets (y := cooled (follow (here s t) i v s.dev.guard.comps[i])) (stamp := (here s t).stamp) ha.1 ha.2
  refine warmUpEnd_ends ho warm tick late ?_ keeps sets
  refine (warmUpEnded_continuous hc.here held).trans ((if_pos (present_iff.mpr shown)).trans (latchCondition_clear ?_))
  rw [withComp_same]
  exact clear

theorem warmUpEnd_follows (ho : Operates s i) (hc : Continuous s i) (hw : WindowOver s t i k) (h : (here s t).compHeld i = false)
    (hs : ¬ Shown s.dev.guard.comps[i].set (decided (here s t) i v s.dev.guard.comps[i])) :
    Does (.warmUpEnd t i v) s t [.guard] (fun d => d.guard = { s.dev.guard with
      comps := s.dev.guard.comps.set i.val (cooled (follow (here s t) i v s.dev.guard.comps[i])) }) := by
  obtain ⟨warm, tick, late⟩ := hw
  exact warmUpEnd_ends ho warm tick late ((warmUpEnded_continuous hc.here h).trans (if_neg (fun hp => hs (present_iff.mp hp))))
    (onComp_keeps _ _ _) rfl

end

/-- Settles O41: each row by whether the comparator operates and what it decides; a latch that sets by its pages, outputs and rings. -/
theorem thimbleEvents : Obligations.ThimbleEvents := by
  unfold Obligations.ThimbleEvents
  refine ⟨?_, ?_, ?_, ?_, ?_, ?_, ?_, ?_, ?_, ?_, ?_, ?_, ?_, ?_, ?_⟩
  · intro s t i v c src u scale beyond beneath next stood shown hoff hreset hen hcont hheld hw hl hs hn hm hq x held e
    refine does_imp (thimbleCrossing_latches (v := v) ⟨hoff, hreset, hen⟩ hcont ⟨⟨hheld, hl, hs⟩, hw, hn⟩ ⟨hm, hq⟩) fun d hd => ?_
    rw [follow_eq] at hd
    exact hd
  · intro s t i v c src u scale beyond beneath next stood shown hoff hreset hen hcont hheld hs
    refine does_imp (thimbleCrossing_follows (v := v) ⟨hoff, hreset, hen⟩ hcont hheld hs) fun d hd => ?_
    rw [hd, follow_eq]
    rfl
  · intro s t i v hheld
    exact thimbleCrossing_held hheld
  · intro s t i v o c src u scale beyond beneath next stood shown hoff hreset hen hcont hheld hw hl hs hn
    refine does_imp (thimbleCrossing_trips (v := v) ⟨hoff, hreset, hen⟩ hcont ⟨⟨hheld, hl, hs⟩, hw, hn⟩) ?_
    rintro d ⟨latch, others, outs⟩
    refine ⟨latch, others, fun hcalm => ?_, fun hmask hclear => (outs o).trans (if_pos ⟨hmask, hclear⟩)⟩
    refine (outs o).trans (if_neg ?_)
    rintro ⟨mask, clear⟩
    obtain unmasked | active := hcalm
    · exact Bool.noConfusion (unmasked.symm.trans mask)
    · exact Bool.noConfusion (clear.symm.trans active)
  · intro s t i v c src u scale beyond beneath next stood shown hoff hreset hen hsample hwait ht hheld hw hl hs hm hq x held e
    refine does_imp (thimbleTick_latches (v := v) ⟨hoff, hreset, hen⟩ hsample hwait ht ⟨hheld, hl, hs⟩ hw ⟨hm, hq⟩) fun d hd => ?_
    rw [follow_eq] at hd
    exact hd
  · intro s t i v c src u scale beyond beneath next stood shown hoff hreset hen hsample hwait ht hheld hs hn tickAt
    refine does_imp (thimbleTick_clears (v := v) ⟨hoff, hreset, hen⟩ hwait ht hheld hs hn) fun d hd => ?_
    rw [hd, warmed_eq, follow_eq]
    rfl
  · intro s t i v w c hoff hreset hen ht hwait hclock hactive
    exact thimbleTick_ticks ⟨hoff, hreset, hen⟩ ht rfl (compTick_keeps _ _ _) (compTick_settles (d := here s t) hwait)
  · intro s t i v c ht
    exact thimbleTick_none ht
  · intro s t i v pos b r c src u scale beyond beneath next stood shown hoff hreset hen hcont hheld hw hl hs hn hring hg hc hstate hmode htrig
      htotal hnewest k r'
    refine does_imp (thimbleCrossing_rings (v := v) ⟨hoff, hreset, hen⟩ hcont ⟨⟨hheld, hl, hs⟩, hw, hn⟩ pos b) fun d hd => ?_
    rw [hd, hring, Option.map_some, latchTriggered_last (d := here s t) hg hc ⟨hstate, hmode, htrig⟩ htotal hnewest]
    rfl
  · intro s t i v hoff
    exact ⟨thimbleCrossing_disabled hoff, thimbleTick_disabled hoff⟩
  · intro s t i v k c src u scale beyond beneath next stood shown hoff hreset hen hcont hheld hw hk hlate hl hs hm hq x held e
    refine does_imp (warmUpEnd_latches (v := v) ⟨hoff, hreset, hen⟩ hcont ⟨hw, hk, hlate⟩ ⟨hheld, hl, hs⟩ ⟨hm, hq⟩) fun d hd => ?_
    rw [follow_eq] at hd
    exact hd
  · intro s t i v k c src u scale beyond beneath next stood shown hoff hreset hen hcont hheld hw hk hlate hs
    refine does_imp (warmUpEnd_follows (v := v) ⟨hoff, hreset, hen⟩ hcont ⟨hw, hk, hlate⟩ hheld hs) fun d hd => ?_
    rw [hd, follow_eq]
    rfl
  · intro s t i v c h
    exact does_stay warmUpEnd_exec (warmUpRow_early h)
  · intro s t i v c src u scale beyond beneath next stood shown hoff hreset hen hcont hu hlate hcal hs
    refine does_imp (gainHoldEnd_follows (v := v) ⟨hoff, hreset, hen⟩ hcont hu hlate hcal hs) fun d hd => ?_
    rw [hd, follow_eq]
    rfl
  · intro s t i v h
    exact gainHoldEnd_early h

end Sys2Proof.Proofs

namespace Sys2Proof.Proofs
open Machine Laws

/-! ## Commands about one chain: their checks, their chain, their record -/

section
variable {i : Instr} {c : Command} {s : State} {t : Time} {b : Basket} {pos : Fin 24} {J : Dev}

@[simp] theorem judged_rinse : (judged c s t b).rinse = s.dev.rinse := rfl

/-- The checks of R815 for a command outside WATCH. -/
theorem passes_awake (hs : StartsAwake s b) (h0 : c.sup = true → b = 0) (h1 : c.names (operands s t b) (judged c s t b) = true)
    (h2 : c.zero (operands s t b) (judged c s t b) = false) (h3 : c.range (operands s t b) (judged c s t b) = none)
    (h4 : c.state (operands s t b) (judged c s t b) = none) : c.judge (operands s t b) (judged c s t b) = none :=
  (judge_awake hs h0 h1 h2 h3).trans h4

/-- The chain that ARG0 names is held. -/
theorem names_chain (h0 : arg s b 0 = pos.val) (hh : Held s b .channels pos.val) :
    (operands s t b).channel (judged c s t b) ((operands s t b).arg 0) = true := by
  rw [operands_arg, h0]
  exact hh

theorem onChain_fin (d : Dev) (f : Chain → Chain) :
    (d.onChain pos.val f).rinse = { d.rinse with chains := d.rinse.chains.set pos.val (f d.rinse.chains[pos]) } := by
  rw [onChain_rinse, updAt_fin]

/-- The chain at a position is x, and nothing else of the Rinse has changed. -/
def ChainBecomes (s : State) (pos : Fin 24) (x : Chain) (d : Dev) : Prop :=
  d.rinse = { s.dev.rinse with chains := s.dev.rinse.chains.set pos.val x }

/-- A command that changes one chain. -/
theorem completes_onChain {f : Chain → Chain} {x : Chain} (hi : exec i s = hostCommand c t b s) (hs : Starts s b)
    (hj : c.judge (operands s t b) (judged c s t b) = none)
    (ha : c.act (operands s t b) (judged c s t b) = ((judged c s t b).onChain pos.val f, .ok [])) (hf : f s.dev.rinse.chains[pos] = x) :
    Completes i s t b 0 0 0 0 [.rinse] (ChainBecomes s pos x) :=
  completes_results hi hs hj ha rfl (onChain_keeps _ _ _) (by decide) (hf ▸ onChain_fin _ f)

/-- A command that finds its chain as it leaves it. -/
theorem completes_chainStays {x : Chain} (hi : exec i s = hostCommand c t b s) (hs : Starts s b)
    (hj : c.judge (operands s t b) (judged c s t b) = none)
    (ha : c.act (operands s t b) (judged c s t b) = (judged c s t b, .ok [])) (hx : x = s.dev.rinse.chains[pos]) :
    Completes i s t b 0 0 0 0 [.rinse] (ChainBecomes s pos x) := by
  subst hx
  refine completes_results hi hs hj ha rfl (Keeps.refl _ _) (by decide) ?_
  show s.dev.rinse = { s.dev.rinse with chains := s.dev.rinse.chains.set pos.val s.dev.rinse.chains[pos.val] }
  rw [Vector.set_getElem_self]

theorem post_page (d : Dev) (to_ : Nat → Bool) (stamp : BitVec 64) (e : Ev) (k : Basket) : (d.post to_ stamp e).host.pages[k] =
    if to_ k.val then d.host.pages[k].take (d.enabled k.val) d.now stamp e else d.host.pages[k] := onPages_page _ _ _ _

/-- A command that posts a record completes over the host side with that record. -/
theorem post_complete_host (hh : J.host = (judged c s t b).host) (hc : J.clk = (here s t).clk) (to_ : Nat → Bool) (stamp : BitVec 64) (e : Ev) :
    ((J.post to_ stamp e).complete b (success [])).host = doneHost ((here s t).post to_ stamp e).host b 0 0 0 0 0 (instant s t) := by
  have posted : (J.post to_ stamp e).host = ((judged c s t b).post to_ stamp e).host := post_host_congr hh hc to_ stamp e
  have now : J.now = instant s t := congrArg Clock.now hc
  have page : ∀ k : Basket, (upd ((judged c s t b).post to_ stamp e).host.pages b (fun p => p.complete (success []) (instant s t)))[k] =
      (upd ((here s t).post to_ stamp e).host.pages b (fun p => donePage p 0 0 0 0 0 (instant s t)))[k] := fun k => by
    by_cases hk : k = b
    · subst hk
      have accepted : (judged c s t k).host.pages[k] = commanded s.dev.host.pages[k] .busy 0
          (some { code := c.code, args := s.dev.host.pages[k].args, tag := s.dev.host.pages[k].cmdTag, since := instant s t, outcome := none }) :=
        upd_same _ _ _
      rw [upd_same, upd_same, post_page, post_page, accepted, commanded_take]
      split <;> rfl
    · have other : (judged c s t b).host.pages[k] = s.dev.host.pages[k] := upd_other _ _ _ _ hk
      rw [upd_other _ _ _ _ hk, upd_other _ _ _ _ hk, post_page, post_page, other]
      rfl
  show ({ (J.post to_ stamp e).host with pages := upd (J.post to_ stamp e).host.pages b (fun p => p.complete (success []) J.now) } : HostSide) = _
  rw [posted, now, Vector.ext fun k hk => page ⟨k, hk⟩]
  rfl

/-- A command that changes one chain and posts a record. -/
theorem completes_onChain_post {f : Chain → Chain} {x : Chain} {to_ : Nat → Bool} {e : Ev} (hi : exec i s = hostCommand c t b s) (hs : Starts s b)
    (hj : c.judge (operands s t b) (judged c s t b) = none)
    (ha : c.act (operands s t b) (judged c s t b) = (((judged c s t b).onChain pos.val f).post to_ (here s t).stamp e, .ok []))
    (hf : f s.dev.rinse.chains[pos] = x) :
    CompletesOver ((here s t).post to_ (here s t).stamp e).host i s t b 0 0 0 0 [.rinse] (ChainBecomes s pos x) := by
  refine does_of (hi.trans (hostCommand_ok c s t b _ [] hs hj ha)) ?_ ⟨post_complete_host (c := c) rfl rfl to_ _ e, hf ▸ onChain_fin _ f⟩
  exact Keeps.andThen (complete_keeps _ _ _) (by decide) (Keeps.andThen (post_keeps _ _ _ _) (by decide)
    (Keeps.andThen (onChain_keeps _ _ _) (by decide) (Keeps.mono (onPage_keeps _ _ _) (by decide))))

end
end Sys2Proof.Proofs

namespace Sys2Proof.Proofs
open Machine Laws

/-! ## Commits and swaps of a chain (R280 to R284, R822, R859) -/

section
variable {d : Dev} {pos : Fin 24} {swap : Bool}

/-- The record of a commit or swap that takes effect (R822). -/
def chainCommitEvent (pos : Fin 24) : Ev := { event := .commitApplied, subject := 2, data0 := pos.val }

theorem chainApplied_fin : d.chainApplied pos.val = d.postHeld (fun g => g.channels[pos]) (chainCommitEvent pos) := by
  have held : (fun g : Grants => at? g.channels pos.val false) = fun g => g.channels[pos] := funext fun g => at?_fin _ _ _
  rw [Dev.chainApplied, held]
  rfl

/-- The settings that a commit or swap accepted now would make live. -/
def proposed (c : Chain) (swap : Bool) : ChainSet := if swap then c.live.toggled else c.staged

/-- A commit or swap accepted at an instant (R280). -/
def acceptedCommit (c : Chain) (swap : Bool) (now : Time) : ChainCommit := { swap := swap, target := c.staged, from_ := now + us 2 }

/-- A commit or swap that takes effect on a chain that is disabled only changes its settings. -/
theorem apply_disabled {c : Chain} (he : c.enabled = false) (hp : c.pending = none) (now : Time) :
    c.apply (acceptedCommit c swap now) = { c with live := proposed c swap } := by
  simp only [Chain.apply, he, Bool.false_and, Bool.or_false, ← hp]
  rfl

theorem judgeChain_fin : d.judgeChain pos.val swap = need (d.rinse.chains[pos].fits pos.val (proposed d.rinse.chains[pos] swap) &&
    ((proposed d.rinse.chains[pos] swap).dec == d.rinse.chains[pos].live.dec || !d.detectorBound pos.val) &&
    d.rinse.chains[pos].pending.isNone) .stagedConflict := by
  rw [Dev.judgeChain, getElem?_toList_fin]
  rfl

theorem judgeChain_accepts (hf : d.rinse.chains[pos].fits pos.val (proposed d.rinse.chains[pos] swap) = true)
    (hd : (proposed d.rinse.chains[pos] swap).dec = d.rinse.chains[pos].live.dec ∨ d.detectorBound pos.val = false)
    (hp : d.rinse.chains[pos].pending = none) : d.judgeChain pos.val swap = none := by
  have bound : ((proposed d.rinse.chains[pos] swap).dec == d.rinse.chains[pos].live.dec || !d.detectorBound pos.val) = true := by simpa using hd
  rw [judgeChain_fin, hf, bound, hp]
  rfl

theorem judgeChain_conflict (hp : d.rinse.chains[pos].pending ≠ none) : d.judgeChain pos.val swap = some .stagedConflict := by
  rw [judgeChain_fin, Option.isNone_eq_false_iff.mpr (Option.isSome_iff_ne_none.mpr hp), Bool.and_false]
  rfl

theorem acceptChain_fin : d.acceptChain pos.val swap = if (d.rinse.chains[pos].enabled || d.waitsFrame1 swap) = true
    then d.onChain pos.val (fun c => { c with pending := some (acceptedCommit c swap d.now) })
    else (d.onChain pos.val (fun c => c.apply (acceptedCommit c swap d.now))).chainApplied pos.val := by
  rw [Dev.acceptChain, getElem?_toList_fin]
  rfl

end

section
variable {i : Instr} {c : Command} {s : State} {t : Time} {pos : Fin 24} {swap : Bool}

/-- A commit or swap of a chain that is enabled, and a commit during BOOT, waits (R280, R859). -/
theorem acceptChain_waits (hi : exec i s = hostCommand c t 0 s) (hs : Starts s 0) (hj : c.judge (operands s t 0) (judged c s t 0) = none)
    (ha : c.act (operands s t 0) (judged c s t 0) = ((judged c s t 0).acceptChain pos.val swap, .ok []))
    (hw : s.dev.rinse.chains[pos].enabled = true ∨ s.dev.waitsFrame1 swap = true) :
    Completes i s t 0 0 0 0 0 [.rinse] (ChainBecomes s pos
      { s.dev.rinse.chains[pos] with pending := some (acceptedCommit s.dev.rinse.chains[pos] swap (instant s t)) }) := by
  have waits : ((judged c s t 0).rinse.chains[pos].enabled || (judged c s t 0).waitsFrame1 swap) = true := Bool.or_eq_true_iff.mpr hw
  rw [acceptChain_fin, if_pos waits] at ha
  exact completes_onChain hi hs hj ha rfl

/-- One of a chain that is disabled takes effect at once, with its record. -/
theorem acceptChain_atOnce (hi : exec i s = hostCommand c t 0 s) (hs : Starts s 0) (hj : c.judge (operands s t 0) (judged c s t 0) = none)
    (ha : c.act (operands s t 0) (judged c s t 0) = ((judged c s t 0).acceptChain pos.val swap, .ok []))
    (he : s.dev.rinse.chains[pos].enabled = false) (hw : s.dev.waitsFrame1 swap = false) (hp : s.dev.rinse.chains[pos].pending = none) :
    CompletesOver ((here s t).postHeld (fun g => g.channels[pos]) (chainCommitEvent pos)).host i s t 0 0 0 0 0 [.rinse]
      (ChainBecomes s pos { s.dev.rinse.chains[pos] with live := proposed s.dev.rinse.chains[pos] swap }) := by
  have now : ¬ ((judged c s t 0).rinse.chains[pos].enabled || (judged c s t 0).waitsFrame1 swap) = true :=
    Bool.not_eq_true _ ▸ Bool.or_eq_false_iff.mpr ⟨he, hw⟩
  rw [acceptChain_fin, if_neg now, chainApplied_fin] at ha
  exact completes_onChain_post hi hs hj ha (apply_disabled he hp _)

end
end Sys2Proof.Proofs

namespace Sys2Proof.Proofs
open Machine Laws

/-! ## RN_SET_CHANNEL, RN_SET_COEF, RN_ENABLE, RN_DC_FREEZE (R245, R251, R271, R276, R278) -/

section
variable {s : State} {t : Time} {pos : Fin 24}

theorem rnSetChannel_sets (hs : StartsAwake s 0) (h0 : arg s 0 0 = pos.val) (hh : Held s 0 .channels pos.val)
    (h1 : 1 ≤ arg s 0 1 ∧ arg s 0 1 ≤ 4096) (h3 : 4 ≤ arg s 0 3 / 256 % 32 ∧ arg s 0 3 / 256 % 32 ≤ 24) :
    let c := s.dev.rinse.chains[pos]
    let set : ChainSet := { dec := arg s 0 1, bank1 := argBit s 0 2 0, bank2 := argBit s 0 2 1 }
    let est := if argBit s 0 3 0 = true ∧ c.dcOn = true then c.dcEst else 0
    Completes (.rnSetChannel t 0) s t 0 0 0 0 0 [.rinse] (ChainBecomes s pos { c with
      staged := set, dcOn := argBit s 0 3 0, dcEst := est, autoFreeze := argBit s 0 3 1, shift := arg s 0 3 / 256 % 32,
      swapArmed := argBit s 0 4 0 }) := by
  intro c set est
  refine completes_onChain (c := cmdRnSetChannel) (f := fun c => { c with
    staged := set, dcOn := argBit s 0 3 0, dcEst := if argBit s 0 3 0 && c.dcOn then c.dcEst else 0, autoFreeze := argBit s 0 3 1,
    shift := arg s 0 3 / 256 % 32, swapArmed := argBit s 0 4 0 }) rfl hs.1 ?_ ?_ ?_
  · refine passes_awake hs (fun _ => rfl) (names_chain h0 hh) ?_ ?_ rfl
    · simp only [cmdRnSetChannel, operands_arg, beq_eq_false_iff_ne]
      omega
    · simp [cmdRnSetChannel, argRange, bits, h1, h3]
  · rw [← h0]
    rfl
  · simp only [Bool.and_eq_true]
    rfl

theorem coefficients_eq (d : Dev) (a n : Nat) : d.coefficients a n =
    (List.range n).map (fun i => signed 16 (d.sram.value (a + 2 * i) 2)) := by
  induction n generalizing a with
  | zero => rfl
  | succ n ih =>
    rw [Dev.coefficients, ih, List.range_succ_eq_map, List.map_cons, List.map_map]
    refine congrArg (_ :: ·) (List.map_congr_left fun i _ => ?_)
    rw [Function.comp_apply, Nat.mul_succ, Nat.add_assoc, Nat.add_comm 2]

/-- A chain with the coefficients of one bank of its second or first FIR replaced. -/
def withBank (second : Bool) (bank : Nat) (h : List Int) (c : Chain) : Chain :=
  if second then { c with second := updAt c.second bank (fun _ => h) } else { c with comp := updAt c.comp bank (fun _ => h) }

theorem cmdRnSetCoef_state {x : Ctx} {d : Dev} (h0 : x.arg 0 = pos.val) : cmdRnSetCoef.state x d = firstErr
    [need ((if x.argBit 1 0 then d.rinse.chains[pos].live.bank2 else d.rinse.chains[pos].live.bank1) != x.argBit 1 1) .state,
      need (!d.rinse.chains[pos].willActivate (x.argBit 1 0) (x.argBit 1 1)) .busy] := by
  simp only [cmdRnSetCoef, h0, getElem?_toList_fin]

theorem needs_met {p q : Bool} {e e' : Err} (hp : p = true) (hq : q = true) : firstErr [need p e, need q e'] = none := by
  rw [hp, hq]
  rfl

theorem rnSetCoef_stores (hs : StartsAwake s 0) (h0 : arg s 0 0 = pos.val) (hh : Held s 0 .channels pos.val)
    (hr : HeldRange s 0 (arg32 s 0 3) (2 * arg s 0 2)) (hn : arg s 0 2 ≤ if argBit s 0 1 0 = true then 64 else 128)
    (hactive : (if argBit s 0 1 0 = true then s.dev.rinse.chains[pos].live.bank2 else s.dev.rinse.chains[pos].live.bank1) ≠ argBit s 0 1 1)
    (hwill : s.dev.rinse.chains[pos].willActivate (argBit s 0 1 0) (argBit s 0 1 1) = false) :
    let h := (List.range (arg s 0 2)).map (fun i => signed 16 (s.dev.sram.value (arg32 s 0 3 + 2 * i) 2))
    Completes (.rnSetCoef t 0) s t 0 0 0 0 0 [.rinse]
      (ChainBecomes s pos (withBank (argBit s 0 1 0) (argBit s 0 1 1).toNat h s.dev.rinse.chains[pos])) := by
  intro h
  have a3 : (operands s t 0).arg32 3 = arg32 s 0 3 := operands_arg32 3
  have coefficients : (judged cmdRnSetCoef s t 0).coefficients (arg32 s 0 3) (arg s 0 2) = h := coefficients_eq _ _ _
  refine completes_onChain (c := cmdRnSetCoef) (f := withBank (argBit s 0 1 0) (argBit s 0 1 1).toNat h) rfl hs.1 ?_ ?_ rfl
  · refine passes_awake hs (fun _ => rfl) ?_ rfl ?_ ?_
    · show ((operands s t 0).channel _ _ && (operands s t 0).memory _ ((operands s t 0).arg32 3) (2 * arg s 0 2)) = true
      rw [names_chain h0 hh, a3]
      exact hr
    · exact if_pos (decide_eq_true hn)
    · rw [cmdRnSetCoef_state (x := operands s t 0) h0]
      exact needs_met (bne_iff_ne.mpr hactive) (congrArg not hwill)
  · rw [← coefficients, ← a3, ← h0]
    rfl

/-- A chain that waits for its first epoch (R271). -/
def chainOn (c : Chain) : Chain := { c with enabled := true, waiting := true }

/-- A chain whose epoch has ended with its work. -/
def chainOff (c : Chain) : Chain := { c with enabled := false, waiting := false }

theorem cmdRnEnable_act_on {x : Ctx} {d : Dev} (h0 : x.arg 0 = pos.val) (h1 : x.argBit 1 0 = true) : cmdRnEnable.act x d =
    (if d.rinse.chains[pos].enabled = true then d else d.onChain pos.val chainOn, .ok []) := by
  simp only [cmdRnEnable, h0, getElem?_toList_fin, h1, if_true]
  rfl

theorem rnEnable_enables (hs : StartsAwake s 0) (h0 : arg s 0 0 = pos.val) (hh : Held s 0 .channels pos.val) (h1 : argBit s 0 1 0 = true) :
    Completes (.rnEnable t 0) s t 0 0 0 0 0 [.rinse] (ChainBecomes s pos
      (if s.dev.rinse.chains[pos].enabled = true then s.dev.rinse.chains[pos] else chainOn s.dev.rinse.chains[pos])) := by
  have hj : cmdRnEnable.judge (operands s t 0) (judged cmdRnEnable s t 0) = none :=
    passes_awake hs (fun _ => rfl) (names_chain h0 hh) rfl rfl rfl
  have act := cmdRnEnable_act_on (x := operands s t 0) (d := judged cmdRnEnable s t 0) h0 h1
  by_cases he : s.dev.rinse.chains[pos].enabled = true
  · rw [judged_rinse, if_pos he] at act
    rw [if_pos he]
    exact completes_chainStays rfl hs.1 hj act rfl
  · rw [judged_rinse, if_neg he] at act
    rw [if_neg he]
    exact completes_onChain rfl hs.1 hj act rfl

/-- The ring tap of a basket on a chain is stopped when it runs (R286). -/
def tapStopped (d : Dev) (pos : Nat) (b : Basket) : Dev :=
  match d.ring pos b with
  | none => d
  | some r => if r.on then d.ringStop pos b r 1 else d

theorem ringsStop_eq (d : Dev) (pos : Nat) : d.ringsStop pos =
    tapStopped (tapStopped (tapStopped (tapStopped d pos 0) pos 1) pos 2) pos 3 := rfl

theorem tapStopped_off {d : Dev} {b : Basket} (h : ∀ r ∈ d.rinse.chains[pos].rings[b], r.state = .stopped) : tapStopped d pos.val b = d := by
  unfold tapStopped
  rw [ring_fin]
  split
  · rfl
  next r hr => exact if_neg (by simp [Ring.on, h r hr])

/-- Rings that are all stopped have nothing to stop. -/
theorem ringsStop_off {d : Dev} (h : ∀ b : Basket, ∀ r ∈ d.rinse.chains[pos].rings[b], r.state = .stopped) : d.ringsStop pos.val = d := by
  rw [ringsStop_eq, tapStopped_off (h 0), tapStopped_off (h 1), tapStopped_off (h 2), tapStopped_off (h 3)]

theorem cmdRnEnable_act_off {x : Ctx} {d : Dev} (h0 : x.arg 0 = pos.val) (h1 : x.argBit 1 0 = false)
    (hr : ∀ b : Basket, ∀ r ∈ d.rinse.chains[pos].rings[b], r.state = .stopped) (hp : d.rinse.chains[pos].pending = none) :
    cmdRnEnable.act x d = (if d.rinse.chains[pos].enabled = true then d.onChain pos.val chainOff else d, .ok []) := by
  have off : (d.onChain pos.val (fun c => { c with enabled := false, waiting := false })).ringsStop pos.val = d.onChain pos.val chainOff :=
    ringsStop_off (d := d.onChain pos.val chainOff) fun b r hm => hr b r (by simpa [chainOff] using hm)
  simp only [cmdRnEnable, h0, getElem?_toList_fin, h1, Bool.false_eq_true, if_false, hp, off]
  cases d.rinse.chains[pos].enabled <;> rfl

theorem rnEnable_disables (hs : StartsAwake s 0) (h0 : arg s 0 0 = pos.val) (hh : Held s 0 .channels pos.val) (h1 : argBit s 0 1 0 = false)
    (hr : ∀ b : Basket, ∀ r ∈ s.dev.rinse.chains[pos].rings[b], r.state = .stopped) (hp : s.dev.rinse.chains[pos].pending = none) :
    Completes (.rnEnable t 0) s t 0 0 0 0 0 [.rinse] (ChainBecomes s pos
      (if s.dev.rinse.chains[pos].enabled = true then chainOff s.dev.rinse.chains[pos] else s.dev.rinse.chains[pos])) := by
  have hj : cmdRnEnable.judge (operands s t 0) (judged cmdRnEnable s t 0) = none :=
    passes_awake hs (fun _ => rfl) (names_chain h0 hh) rfl rfl rfl
  have act := cmdRnEnable_act_off (x := operands s t 0) (d := judged cmdRnEnable s t 0) h0 h1 hr hp
  by_cases he : s.dev.rinse.chains[pos].enabled = true
  · rw [judged_rinse, if_pos he] at act
    rw [if_pos he]
    exact completes_onChain rfl hs.1 hj act rfl
  · rw [judged_rinse, if_neg he] at act
    rw [if_neg he]
    exact completes_chainStays rfl hs.1 hj act rfl

theorem rnDcFreeze_sets (hs : StartsAwake s 0) (h0 : arg s 0 0 = pos.val) (hh : Held s 0 .channels pos.val) :
    Completes (.rnDcFreeze t 0) s t 0 0 0 0 0 [.rinse] (ChainBecomes s pos { s.dev.rinse.chains[pos] with dcFreeze := argBit s 0 1 0 }) := by
  refine completes_onChain (c := cmdRnDcFreeze) (f := fun c => { c with dcFreeze := argBit s 0 1 0 }) rfl hs.1
    (passes_awake hs (fun _ => rfl) (names_chain h0 hh) rfl rfl rfl) ?_ rfl
  rw [← h0]
  rfl

/-! ## RN_COMMIT, RN_SWAP (R280, R281, R822, R827, R859) -/

/-- The state check of RN_COMMIT. -/
theorem cmdRnCommit_state {x : Ctx} {d : Dev} (h0 : x.arg 0 = pos.val) : cmdRnCommit.state x d =
    if x.argBit 1 0 then need d.rinse.chains[pos].pending.isNone .busy else d.judgeChain pos.val false := by
  simp only [cmdRnCommit, h0, getElem?_toList_fin]

theorem cmdRnCommit_act {x : Ctx} {d : Dev} (h0 : x.arg 0 = pos.val) : cmdRnCommit.act x d =
    (if x.argBit 1 0 then d.onChain pos.val (fun c => { c with staged := c.live }) else d.acceptChain pos.val false, .ok []) := by
  rw [← h0]
  rfl

theorem cmdRnSwap_state {x : Ctx} {d : Dev} (h0 : x.arg 0 = pos.val) : cmdRnSwap.state x d = d.judgeChain pos.val true := by
  rw [← h0]
  rfl

theorem rnCommit_judge (hs : StartsAwake s 0) (h0 : arg s 0 0 = pos.val) (hh : Held s 0 .channels pos.val) (h1 : argBit s 0 1 0 = false)
    (hf : s.dev.rinse.chains[pos].fits pos.val s.dev.rinse.chains[pos].staged = true)
    (hd : s.dev.rinse.chains[pos].staged.dec = s.dev.rinse.chains[pos].live.dec ∨ s.dev.detectorBound pos.val = false)
    (hp : s.dev.rinse.chains[pos].pending = none) : cmdRnCommit.judge (operands s t 0) (judged cmdRnCommit s t 0) = none := by
  refine passes_awake hs (fun _ => rfl) (names_chain h0 hh) rfl rfl ?_
  rw [cmdRnCommit_state (x := operands s t 0) h0, operands_argBit, h1]
  exact judgeChain_accepts (swap := false) hf hd hp

theorem rnCommit_act (h0 : arg s 0 0 = pos.val) (h1 : argBit s 0 1 0 = false) :
    cmdRnCommit.act (operands s t 0) (judged cmdRnCommit s t 0) = ((judged cmdRnCommit s t 0).acceptChain pos.val false, .ok []) := by
  rw [cmdRnCommit_act (x := operands s t 0) h0, operands_argBit, h1]
  rfl

theorem rnCommit_reverts (hs : StartsAwake s 0) (h0 : arg s 0 0 = pos.val) (hh : Held s 0 .channels pos.val) (h1 : argBit s 0 1 0 = true)
    (hp : s.dev.rinse.chains[pos].pending = none) : Completes (.rnCommit t 0) s t 0 0 0 0 0 [.rinse]
      (ChainBecomes s pos { s.dev.rinse.chains[pos] with staged := s.dev.rinse.chains[pos].live }) := by
  refine completes_onChain (c := cmdRnCommit) (f := fun c => { c with staged := c.live }) rfl hs.1
    (passes_awake hs (fun _ => rfl) (names_chain h0 hh) rfl rfl ?_) ?_ rfl
  · rw [cmdRnCommit_state (x := operands s t 0) h0, operands_argBit, h1, judged_rinse, hp]
    rfl
  · rw [cmdRnCommit_act (x := operands s t 0) h0, operands_argBit, h1]
    rfl

theorem rnSwap_judge (hs : StartsAwake s 0) (h0 : arg s 0 0 = pos.val) (hh : Held s 0 .channels pos.val)
    (hf : s.dev.rinse.chains[pos].fits pos.val s.dev.rinse.chains[pos].live.toggled = true)
    (hd : s.dev.rinse.chains[pos].live.toggled.dec = s.dev.rinse.chains[pos].live.dec ∨ s.dev.detectorBound pos.val = false)
    (hp : s.dev.rinse.chains[pos].pending = none) : cmdRnSwap.judge (operands s t 0) (judged cmdRnSwap s t 0) = none := by
  refine passes_awake hs (fun _ => rfl) (names_chain h0 hh) rfl rfl ?_
  rw [cmdRnSwap_state (x := operands s t 0) h0]
  exact judgeChain_accepts (swap := true) hf hd hp

theorem rnSwap_act (h0 : arg s 0 0 = pos.val) :
    cmdRnSwap.act (operands s t 0) (judged cmdRnSwap s t 0) = ((judged cmdRnSwap s t 0).acceptChain pos.val true, .ok []) := by
  rw [← h0]
  rfl

theorem rnSwap_conflicts (hs : StartsAwake s 0) (h0 : arg s 0 0 = pos.val) (hh : Held s 0 .channels pos.val)
    (hp : s.dev.rinse.chains[pos].pending ≠ none) : Refuses (.rnSwap t 0) s t 0 .stagedConflict := by
  refine refuses_awake (c := cmdRnSwap) rfl hs (fun _ => rfl) (names_chain h0 hh) rfl rfl ?_ (by decide)
  rw [cmdRnSwap_state (x := operands s t 0) h0]
  exact judgeChain_conflict hp

theorem rnCommit_conflicts (hs : StartsAwake s 0) (h0 : arg s 0 0 = pos.val) (hh : Held s 0 .channels pos.val)
    (hp : s.dev.rinse.chains[pos].pending ≠ none) :
    Refuses (.rnCommit t 0) s t 0 (if argBit s 0 1 0 = true then .busy else .stagedConflict) := by
  refine refuses_awake (c := cmdRnCommit) rfl hs (fun _ => rfl) (names_chain h0 hh) rfl rfl ?_ (by split <;> decide)
  rw [cmdRnCommit_state (x := operands s t 0) h0, operands_argBit]
  split
  · rw [judged_rinse, Option.isNone_eq_false_iff.mpr (Option.isSome_iff_ne_none.mpr hp)]
    rfl
  · exact judgeChain_conflict hp

end

/-! ## RINSE_COMMIT_APPLY (R280, R283, R284) -/

section
variable {s : State} {t : Time} {pos : Fin 24}

/-- A commit of a chain takes effect at this instant. -/
def commitFalls (d : Dev) (pos : Nat) (c : Chain) (p : ChainCommit) : Bool :=
  p.from_ ≤ d.now && d.rinsing && !d.waitsFrame1 p.swap && d.boundary pos c.live.dec && !d.atSync

theorem rinseApply_pending {d : Dev} {p : ChainCommit} (hp : d.rinse.chains[pos].pending = some p) : d.rinseApply pos.val =
    if commitFalls d pos.val d.rinse.chains[pos] p = true then
      (d.onChain pos.val (fun c => c.apply p)).postHeld (fun g => g.channels[pos]) (chainCommitEvent pos)
    else d := by
  rw [Dev.rinseApply, getElem?_toList_fin, ← chainApplied_fin]
  simp only [hp]
  rfl

theorem rinseCommitApply_exec : exec (.rinseCommitApply t pos) s = .next { s with dev := (here s t).rinseApply pos.val } := rfl

theorem rinseCommitApply_applies {p : ChainCommit} (hp : s.dev.rinse.chains[pos].pending = some p)
    (h : commitFalls (here s t) pos.val s.dev.rinse.chains[pos] p = true) : Does (.rinseCommitApply t pos) s t [.host, .rinse] (fun d =>
      ChainBecomes s pos (s.dev.rinse.chains[pos].apply p) d ∧
      d.host = ((here s t).postHeld (fun g => g.channels[pos]) (chainCommitEvent pos)).host) := by
  have applied := (rinseApply_pending (d := here s t) hp).trans (if_pos h)
  refine does_of (rinseCommitApply_exec.trans (by rw [applied])) ?_ ⟨?_, ?_⟩
  · exact Keeps.andThen (postHeld_keeps _ _ _) (by decide) (Keeps.mono (onChain_keeps _ _ _) (by decide))
  · exact onChain_fin (here s t) (fun c => c.apply p)
  · rfl

theorem rinseCommitApply_waits (h : ∀ p ∈ s.dev.rinse.chains[pos].pending, commitFalls (here s t) pos.val s.dev.rinse.chains[pos] p = false) :
    Does (.rinseCommitApply t pos) s t [] (fun _ => True) := by
  refine does_stay rinseCommitApply_exec ?_
  cases hp : s.dev.rinse.chains[pos].pending with
  | none => exact rinseApply_of_pending_none (d := here s t) hp
  | some p =>
    refine (rinseApply_pending (d := here s t) hp).trans (if_neg ?_)
    rw [Bool.not_eq_true]
    exact h p hp

end

/-- Settles O44: each command by its checks and by what it does to its chain; a pending commit by whether it falls due at the instant. -/
theorem rinseChains : Obligations.RinseChains := by
  unfold Obligations.RinseChains
  refine ⟨?_, ?_, ?_, ?_, ?_, ?_, ?_, ?_, ?_, ?_, ?_, ?_, ?_⟩
  · intro s t pos c sh hs h0 hh h1 h3
    exact rnSetChannel_sets hs h0 hh h1 h3
  · intro s t pos c n hs h0 hh hr hn hactive hwill h bank
    refine completes_imp (rnSetCoef_stores hs h0 hh hr hn hactive hwill) fun d hd => ⟨fun h1 => ?_, fun h1 => ?_⟩
    · rw [h1] at hd
      exact hd
    · rw [h1] at hd
      exact hd
  · intro s t pos c hs h0 hh h1 hw hf hd hp
    refine acceptChain_waits rfl hs.1 (rnCommit_judge hs h0 hh h1 hf hd hp) (rnCommit_act h0 h1) (hw.imp_right fun hboot => ?_)
    rw [Dev.waitsFrame1, hboot]
    rfl
  · intro s t pos c hs h0 hh h1 he hboot hf hd hp
    have now : s.dev.waitsFrame1 false = false := by rw [Dev.waitsFrame1, beq_eq_false_iff_ne.mpr hboot, Bool.false_and]
    exact acceptChain_atOnce rfl hs.1 (rnCommit_judge hs h0 hh h1 hf hd hp) (rnCommit_act h0 h1) he now hp
  · intro s t pos c hs h0 hh h1 hp
    exact rnCommit_reverts hs h0 hh h1 hp
  · intro s t pos c hs h0 hh he hf hd hp
    exact acceptChain_waits rfl hs.1 (rnSwap_judge hs h0 hh hf hd hp) (rnSwap_act h0) (.inl he)
  · intro s t pos c hs h0 hh he hf hd hp
    exact acceptChain_atOnce rfl hs.1 (rnSwap_judge hs h0 hh hf hd hp) (rnSwap_act h0) he (Bool.and_false _) hp
  · intro s t pos c hs h0 hh hp
    exact ⟨rnSwap_conflicts hs h0 hh hp, rnCommit_conflicts hs h0 hh hp⟩
  · intro s t pos c hs h0 hh h1
    exact rnEnable_enables hs h0 hh h1
  · intro s t pos c hs h0 hh h1 hr hp
    exact rnEnable_disables hs h0 hh h1 hr hp
  · intro s t pos c hs h0 hh
    exact rnDcFreeze_sets hs h0 hh
  · intro s t pos p c hp hfrom hpower hb hsync
    refine rinseCommitApply_applies hp ?_
    have runs : (here s t).rinsing = true ∧ (here s t).waitsFrame1 p.swap = false := by
      obtain active | ⟨boot, swaps⟩ := hpower
      · simp [Dev.rinsing, Dev.waitsFrame1, here, Dev.tick, active]
      · simp [Dev.rinsing, Dev.waitsFrame1, here, Dev.tick, boot, swaps]
    simp only [commitFalls, Bool.and_eq_true, decide_eq_true_eq, Bool.not_eq_true']
    exact ⟨⟨⟨⟨hfrom, runs.1⟩, runs.2⟩, hb⟩, hsync⟩
  · intro s t pos c h
    refine rinseCommitApply_waits fun p hp => ?_
    rw [← Bool.not_eq_true]
    simp only [commitFalls, Bool.and_eq_true, decide_eq_true_eq, Bool.not_eq_true']
    rintro ⟨⟨⟨⟨hfrom, -⟩, -⟩, hb⟩, hsync⟩
    obtain early | off | sync := h p hp
    · exact not_lt.mpr hfrom early
    · exact Bool.noConfusion (off.symm.trans hb)
    · exact Bool.noConfusion (hsync.symm.trans sync)

end Sys2Proof.Proofs

namespace Sys2Proof.Proofs
open Machine Laws

/-! ## RN_SET_DETECTOR, RN_DET_READ, RN_DET_RESET (R256, R257, R276, Table 06-5) -/

section
variable {s : State} {t : Time} {b : Basket} {pos : Fin 24}

theorem isAe_iff {n : Nat} : isAe n = true ↔ 16 ≤ n ∧ n < 20 := by simp [isAe]

/-- The detector settings that RN_SET_DETECTOR describes, over the ones before. -/
def describedDet (s : State) (old : DetSet) : DetSet :=
  { old with peakOn := argBit s 0 1 0, rmsOn := argBit s 0 1 1, envOn := argBit s 0 1 2, hitsOn := argBit s 0 1 3, decay := arg s 0 2,
             n := arg s 0 3, eshift := arg s 0 4 }

/-- The same with the words of the hit counter. -/
def describedHits (s : State) (old : DetSet) : DetSet := { describedDet s old with threshold := arg32 s 0 5, dead := arg s 0 7 }

/-- The hit counter belongs to the AE channels (R257). -/
def detSetAt (s : State) (pos : Nat) (old : DetSet) : DetSet := if isAe pos then describedHits s old else describedDet s old

theorem cmdRnSetDetector_act {d : Dev} (h0 : arg s 0 0 = pos.val) : cmdRnSetDetector.act (operands s t 0) d =
    (d.onChain pos.val (fun c => { c with detSet := detSetAt s pos.val c.detSet }), .ok []) := by
  have a5 : (operands s t 0).arg32 5 = arg32 s 0 5 := operands_arg32 5
  simp only [cmdRnSetDetector, operands_arg, h0, a5, detSetAt]
  cases isAe pos.val <;> rfl

theorem cmdRnSetDetector_zero {d : Dev} (h0 : arg s 0 0 = pos.val) (h3 : 1 ≤ arg s 0 3)
    (hae : isAe pos.val = true → 1 ≤ arg32 s 0 5 ∧ 1 ≤ arg s 0 7) : cmdRnSetDetector.zero (operands s t 0) d = false := by
  have a5 : (operands s t 0).arg32 5 = arg32 s 0 5 := operands_arg32 5
  simp only [cmdRnSetDetector, operands_arg, h0, a5, Bool.or_eq_false_iff, Bool.and_eq_false_imp, beq_eq_false_iff_ne]
  exact ⟨Nat.ne_of_gt h3, fun h => (hae h).imp Nat.ne_of_gt Nat.ne_of_gt⟩

theorem cmdRnSetDetector_range {d : Dev} (h0 : arg s 0 0 = pos.val) (h2 : arg s 0 2 ≤ 24) (h4 : 1 ≤ arg s 0 4 ∧ arg s 0 4 ≤ 24)
    (hae : isAe pos.val = true → arg32 s 0 5 ≤ 8388607)
    (hother : isAe pos.val = false → argBit s 0 1 3 = false ∧ arg32 s 0 5 = 0 ∧ arg s 0 7 = 0) :
    cmdRnSetDetector.range (operands s t 0) d = none := by
  have a5 : (operands s t 0).arg32 5 = arg32 s 0 5 := operands_arg32 5
  have words : (if isAe pos.val then decide (arg32 s 0 5 ≤ 8388607) else !argBit s 0 1 3 && arg32 s 0 5 == 0 && arg s 0 7 == 0) = true := by
    cases h : isAe pos.val
    · simp [hother h]
    · simp [hae h]
  simp only [cmdRnSetDetector, operands_arg, operands_argBit, h0, a5]
  rw [words]
  simp [argRange, h2, h4]

theorem rnSetDetector_sets (hs : StartsAwake s 0) (h0 : arg s 0 0 = pos.val) (hh : Held s 0 .channels pos.val) (h2 : arg s 0 2 ≤ 24)
    (h3 : 1 ≤ arg s 0 3) (h4 : 1 ≤ arg s 0 4 ∧ arg s 0 4 ≤ 24)
    (hae : isAe pos.val = true → 1 ≤ arg32 s 0 5 ∧ arg32 s 0 5 ≤ 8388607 ∧ 1 ≤ arg s 0 7)
    (hother : isAe pos.val = false → argBit s 0 1 3 = false ∧ arg32 s 0 5 = 0 ∧ arg s 0 7 = 0) :
    Completes (.rnSetDetector t 0) s t 0 0 0 0 0 [.rinse]
      (ChainBecomes s pos { s.dev.rinse.chains[pos] with detSet := detSetAt s pos.val s.dev.rinse.chains[pos].detSet }) :=
  completes_onChain (c := cmdRnSetDetector) rfl hs.1
    (passes_awake hs (fun _ => rfl) (names_chain h0 hh) (cmdRnSetDetector_zero h0 h3 fun h => ⟨(hae h).1, (hae h).2.2⟩)
      (cmdRnSetDetector_range h0 h2 h4 (fun h => (hae h).2.1) hother) rfl)
    (cmdRnSetDetector_act h0) rfl

/-- What RN_DET_READ answers. -/
theorem cmdRnDetRead_act {x : Ctx} {d : Dev} (h0 : x.arg 0 = pos.val) : cmdRnDetRead.act x d =
    (d, .ok (leWords 2 (d.rinse.chains[pos].det.value (x.arg 1)) ++ [(at? d.rinse.chains[pos].det.flags (x.arg 1) 0).setWidth 16])) := by
  simp only [cmdRnDetRead, h0, getElem?_toList_fin]

theorem rnDetRead_answers (hs : StartsAwake s b) (h0 : arg s b 0 = pos.val) (hh : Held s b .channels pos.val) (h1 : arg s b 1 ≤ 3) :
    let det := s.dev.rinse.chains[pos].det
    let v := det.value (arg s b 1)
    Completes (.rnDetRead t b) s t b (BitVec.ofNat 16 v) (BitVec.ofNat 16 (v / 65536)) ((at? det.flags (arg s b 1) 0).setWidth 16) 0 []
      (fun _ => True) :=
  completes_results (c := cmdRnDetRead) rfl hs.1
    (passes_awake hs (fun h => by cases h) (names_chain h0 hh) rfl (if_pos (decide_eq_true h1)) rfl)
    (cmdRnDetRead_act (x := operands s t b) h0) rfl (Keeps.refl _ _) (by decide) trivial

/-- The values named by bits of a word are cleared (R256). -/
def clearedDet (m : Nat) (x : DetState) : DetState :=
  let peak := if bit m 0 = true then { x with peak := 0 } else x
  let rms := if bit m 1 = true then { peak with rms := 0, rmsSum := 0, rmsCount := 0 } else peak
  let env := if bit m 2 = true then { rms with env := 0 } else rms
  if bit m 3 = true then { env with hits := 0, hitPeak := 0, hitStamp := 0 } else env

theorem rnDetReset_clears (hs : StartsAwake s 0) (h0 : arg s 0 0 = pos.val) (hh : Held s 0 .channels pos.val) :
    Completes (.rnDetReset t 0) s t 0 0 0 0 0 [.rinse]
      (ChainBecomes s pos { s.dev.rinse.chains[pos] with det := clearedDet (arg s 0 1) s.dev.rinse.chains[pos].det }) := by
  refine completes_onChain (c := cmdRnDetReset) (f := fun c => { c with det := clearedDet (arg s 0 1) c.det }) rfl hs.1
    (passes_awake hs (fun _ => rfl) (names_chain h0 hh) rfl rfl rfl) ?_ rfl
  rw [← h0]
  rfl

end
end Sys2Proof.Proofs

namespace Sys2Proof.Proofs
open Machine Laws

/-! ## Ring taps: what a stop and a trigger make of them (R261 to R263, R286) -/

section
variable {d : Dev} {pos : Fin 24} {b : Basket} {r : Ring}

/-- A chain with one of its ring taps replaced. -/
def withRing (b : Basket) (r : Ring) (c : Chain) : Chain := { c with rings := c.rings.set b.val (some r) }

theorem withRing_same {c : Chain} (h : c.rings[b] = some r) : withRing b r c = c := by
  have rings : c.rings.set b.val (some r) = c.rings := by
    rw [← h]
    exact Vector.set_getElem_self b.isLt
  unfold withRing
  rw [rings]

/-- The record of a ring that stops (Table 16-16). -/
def ringDone (pos : Fin 24) (reason : Nat) (total : BitVec 32) (tag : Byte) : Ev :=
  { event := .ringDone, subject := pos.val, data0 := reason, data1 := total.toNat % 65536, tag := tag }

theorem ringStop_continuous (h : r.mode = .continuous) (reason : Nat) :
    d.ringStop pos.val b r reason = d.onChain pos.val (withRing b { r with state := .stopped }) := if_pos (beq_iff_eq.mpr h)

theorem ringStop_posts (h : r.mode ≠ .continuous) (reason : Nat) : d.ringStop pos.val b r reason =
    (d.onChain pos.val (withRing b { r with state := .stopped })).post (ringTo b) d.stamp (ringDone pos reason r.total r.tag) :=
  if_neg (fun hc => h (beq_iff_eq.mp hc))

theorem tapStopped_on (hr : d.rinse.chains[pos].rings[b] = some r) (h : r.state ≠ .stopped) :
    tapStopped d pos.val b = d.ringStop pos.val b r 1 := by
  unfold tapStopped
  rw [ring_fin, hr]
  exact if_pos (bne_iff_ne.mpr h)

/-- The last output is the trigger output: its ring goes on, or stops with its record when no output is left to write. -/
theorem ringTrigger_now (h : r.state = .running ∧ r.mode = .triggered ∧ r.trigAt = none) (hq : ¬ (r.total = 0 ∨ r.newest ≠ d.stamp)) :
    let x := lastTriggers { r with trigAt := some d.now }
    let e := d.onChain pos.val (withRing b x)
    d.ringTrigger pos.val b r = if r.post ≤ 1 then e.post (ringTo b) d.stamp (ringDone pos 0 x.total r.tag) else e := by
  intro x e
  let i := (r.next + r.length - 1) % max 1 r.length
  let before : Ring := { r with trigAt := some d.now, next := i, total := r.total - 1 }
  let found : Ring := { r with trigAt := some d.now, trigIndex := some i, postLeft := r.post - 1, state := .post }
  have posts : r.mode ≠ .continuous := by
    rw [h.2.1]
    decide
  have last : d.ringTrigger pos.val b r = if r.post = 0 then d.ringStop pos.val b before 0
      else if r.post - 1 = 0 then d.ringStop pos.val b found 0 else d.putRing pos.val b found :=
    (if_neg (fun hg => ringTrigger_guard.mp hg h)).trans (if_neg hq)
  obtain h0 | h1 | h2 : r.post = 0 ∨ r.post = 1 ∨ 2 ≤ r.post := by omega
  · have hx : x = { before with state := .stopped } := if_pos h0
    rw [last, if_pos h0, if_pos (by omega), ringStop_posts (r := before) posts]
    simp only [e, hx]
    rfl
  · have hx : x = { found with state := .stopped } := by
      simp only [x, found, lastTriggers, h1, Nat.one_ne_zero, if_false, if_true, Nat.sub_self, i]
    rw [last, if_neg (by omega), if_pos (by omega), if_pos (by omega), ringStop_posts (r := found) posts]
    simp only [e, hx]
    rfl
  · have hx : x = found := (if_neg (by show ¬ r.post = 0; omega)).trans (if_neg (by show ¬ r.post = 1; omega))
    rw [last, if_neg (by omega), if_neg (by omega), if_neg (by omega)]
    simp only [e, hx]
    rfl

end

/-! ## RN_RING_SET (R261, R287, R288, Table 16-7) -/

section
variable {s : State} {t : Time} {b : Basket} {pos : Fin 24} {k : Nat}

/-- The ring of a length that the arguments of RN_RING_SET describe. -/
def describedRing (s : State) (b : Basket) (length : Nat) : Ring :=
  let mode := arg s b 4 % 4
  { base := arg32 s b 1, length := length, mode := if mode = 0 then RingMode.continuous else if mode = 1 then .once else .triggered,
    withAngle := argBit s b 4 2, tach := Fin.ofNat 4 (arg s b 4 / 16 % 4),
    comp := if mode = 2 ∧ arg s b 5 < 32 then some (Fin.ofNat 32 (arg s b 5)) else none, post := arg32 s b 6, tag := 0, state := .stopped,
    next := 0, total := 0, newest := 0, trigAt := none, trigIndex := none, postLeft := 0 }

theorem ringOf_eq (hm : arg s b 4 % 4 ≤ 2) (h3 : arg s b 3 = 2 ^ k) : ringOf (operands s t b) = describedRing s b (64 * 2 ^ k) := by
  have a1 : (operands s t b).arg32 1 = arg32 s b 1 := operands_arg32 1
  have a6 : (operands s t b).arg32 6 = arg32 s b 6 := operands_arg32 6
  have low : bits (arg s b 4) 1 0 = arg s b 4 % 4 := by simp [bits]
  have tach : bits (arg s b 4) 5 4 = arg s b 4 / 16 % 4 := by simp [bits]
  obtain h | h | h : arg s b 4 % 4 = 0 ∨ arg s b 4 % 4 = 1 ∨ arg s b 4 % 4 = 2 := by omega
  · simp [ringOf, describedRing, ringLength, low, tach, a1, a6, h3, h]
  · simp [ringOf, describedRing, ringLength, low, tach, a1, a6, h3, h]
  · simp only [ringOf, describedRing, ringLength, operands_arg, operands_argBit, low, tach, a1, a6, h3, h]
    by_cases h5 : arg s b 5 < 32
    · simp [h5, Fin.ofNat, Nat.mod_eq_of_lt h5]
    · simp [h5]

end
end Sys2Proof.Proofs

namespace Sys2Proof.Proofs
open Machine Laws

/-! ## The ring commands (R261 to R263, R286 to R288) -/

section
variable {s : State} {t : Time} {b : Basket} {pos : Fin 24} {k : Nat} {r : Ring}

/-- The base, length, mode and POST of a ring are in the ranges of Table 16-7. -/
structure RingInRange (s : State) (b : Basket) (k : Nat) : Prop where
  length : k < 15 ∧ arg s b 3 = 2 ^ k
  aligned : arg32 s b 1 % 64 = 0
  mode : arg s b 4 % 4 ≤ 2
  post : arg32 s b 6 ≤ 64 * 2 ^ k

/-- The basket holds the memory, the tach input and the comparator of the ring (R287, R288). -/
structure RingHeld (s : State) (b : Basket) (k : Nat) : Prop where
  memory : HeldRange s b (arg32 s b 1) (64 * 2 ^ k * (if argBit s b 4 2 = true then 8 else 4))
  tach : argBit s b 4 2 = true → Held s b .tachs (arg s b 4 / 16 % 4)
  comp : arg s b 4 % 4 = 2 → arg s b 5 = 0xFF ∨ Held s b .comparators (arg s b 5)

theorem cmdRnRingSet_names (hx : RingInRange s b k) (hm : RingHeld s b k) (h0 : arg s b 0 = pos.val) (hh : Held s b .channels pos.val) :
    cmdRnRingSet.names (operands s t b) (judged cmdRnRingSet s t b) = true := by
  have a1 : (operands s t b).arg32 1 = arg32 s b 1 := operands_arg32 1
  have ring : ringOf (operands s t b) = describedRing s b (64 * 2 ^ k) := ringOf_eq hx.mode hx.length.2
  have length : ringLength (operands s t b) = 64 * 2 ^ k := by rw [ringLength, operands_arg, hx.length.2]
  have memory : (operands s t b).memory (judged cmdRnRingSet s t b) (arg32 s b 1) (64 * 2 ^ k * (describedRing s b (64 * 2 ^ k)).size) = true :=
    hm.memory
  have tach : (!(describedRing s b (64 * 2 ^ k)).withAngle ||
      (operands s t b).tach (judged cmdRnRingSet s t b) (describedRing s b (64 * 2 ^ k)).tach) = true := by
    show (!argBit s b 4 2 || (operands s t b).tach _ (arg s b 4 / 16 % 4 % 4)) = true
    rw [Nat.mod_mod]
    cases h : argBit s b 4 2
    · rfl
    · exact hm.tach h
  have comp : ((describedRing s b (64 * 2 ^ k)).mode != .triggered || arg s b 5 == 0xFF ||
      (operands s t b).comparator (judged cmdRnRingSet s t b) (arg s b 5)) = true := by
    have two := hx.mode
    obtain h | h | h : arg s b 4 % 4 = 0 ∨ arg s b 4 % 4 = 1 ∨ arg s b 4 % 4 = 2 := by omega
    · simp [describedRing, h]
    · simp [describedRing, h]
    · obtain any | held := hm.comp h
      · simp [any]
      · rw [operands_comparator_held held, Bool.or_true]
  show ((operands s t b).channel _ ((operands s t b).arg 0) && (operands s t b).memory _ ((operands s t b).arg32 1) _ && _ && _) = true
  rw [names_chain h0 hh, ring, length, a1, memory, tach, operands_arg, comp]
  rfl

theorem cmdRnRingSet_range {d : Dev} (hx : RingInRange s b k) : cmdRnRingSet.range (operands s t b) d = none := by
  obtain ⟨⟨hk, h3⟩, aligned, mode, post⟩ := hx
  have a1 : (operands s t b).arg32 1 = arg32 s b 1 := operands_arg32 1
  have a6 : (operands s t b).arg32 6 = arg32 s b 6 := operands_arg32 6
  have power : (List.range 15).any (fun i => 2 ^ k == 2 ^ i) = true := List.any_eq_true.mpr ⟨k, List.mem_range.mpr hk, beq_self_eq_true _⟩
  simp only [cmdRnRingSet, operands_arg, ringLength, a1, a6, h3, power]
  simp [argRange, bits, aligned, mode, post]

theorem cmdRnRingSet_state {x : Ctx} {d : Dev} (h0 : x.arg 0 = pos.val) (hr : ∀ r ∈ d.rinse.chains[pos].rings[x.b], r.state = .stopped) :
    cmdRnRingSet.state x d = none := by
  simp only [cmdRnRingSet, h0, ring_fin]
  split
  · rfl
  next r hm => simp [need, Ring.on, hr r hm]

theorem rnRingSet_places (hs : StartsAwake s b) (h0 : arg s b 0 = pos.val) (hh : Held s b .channels pos.val) (hx : RingInRange s b k)
    (hm : RingHeld s b k) (hr : ∀ r ∈ s.dev.rinse.chains[pos].rings[b], r.state = .stopped) :
    Completes (.rnRingSet t b) s t b 0 0 0 0 [.rinse]
      (ChainBecomes s pos (withRing b (describedRing s b (64 * 2 ^ k)) s.dev.rinse.chains[pos])) := by
  refine completes_onChain (c := cmdRnRingSet) (f := withRing b (describedRing s b (64 * 2 ^ k))) rfl hs.1
    (passes_awake hs (fun h => by cases h) (cmdRnRingSet_names hx hm h0 hh) ?_ (cmdRnRingSet_range hx)
      (cmdRnRingSet_state (x := operands s t b) h0 hr)) ?_ rfl
  · show (arg s b 3 == 0) = false
    rw [hx.length.2, beq_eq_false_iff_ne]
    exact (Nat.two_pow_pos k).ne'
  · rw [← h0, ← ringOf_eq (t := t) hx.mode hx.length.2]
    rfl

/-- A ring that starts afresh (R263). -/
def started (r : Ring) (tag : Byte) : Ring :=
  { r with state := .running, next := 0, total := 0, newest := 0, trigAt := none, trigIndex := none, postLeft := 0, tag := tag }

theorem cmdRnRingStart_names {x : Ctx} {d : Dev} (h0 : x.arg 0 = pos.val) (hr : d.rinse.chains[pos].rings[x.b] = some r) :
    cmdRnRingStart.names x d = (x.channel d (x.arg 0) && x.memory d r.base (r.length * r.size)) := by
  simp only [cmdRnRingStart, h0, ring_fin, hr]

theorem cmdRnRingStart_act {x : Ctx} {d : Dev} (h0 : x.arg 0 = pos.val) (hr : d.rinse.chains[pos].rings[x.b] = some r) :
    cmdRnRingStart.act x d = (d.onChain pos.val (withRing x.b (started r x.tag)), .ok []) := by
  simp only [cmdRnRingStart, h0, ring_fin, hr]
  rfl

theorem rnRingStart_starts (hs : StartsAwake s b) (h0 : arg s b 0 = pos.val) (hh : Held s b .channels pos.val)
    (hr : s.dev.rinse.chains[pos].rings[b] = some r) (hm : HeldRange s b r.base (r.length * r.size)) :
    Completes (.rnRingStart t b) s t b 0 0 0 0 [.rinse]
      (ChainBecomes s pos (withRing b (started r s.dev.host.pages[b].cmdTag) s.dev.rinse.chains[pos])) := by
  refine completes_onChain (c := cmdRnRingStart) rfl hs.1 (passes_awake hs (fun h => by cases h) ?_ rfl rfl rfl)
    (cmdRnRingStart_act (x := operands s t b) h0 hr) rfl
  rw [cmdRnRingStart_names (x := operands s t b) (d := judged cmdRnRingStart s t b) h0 hr, names_chain h0 hh]
  exact hm

theorem rnRingStop_judge (hs : StartsAwake s b) (h0 : arg s b 0 = pos.val) (hh : Held s b .channels pos.val) :
    cmdRnRingStop.judge (operands s t b) (judged cmdRnRingStop s t b) = none :=
  passes_awake hs (fun h => by cases h) (names_chain h0 hh) rfl rfl rfl

theorem cmdRnRingStop_act {d : Dev} (h0 : arg s b 0 = pos.val) : cmdRnRingStop.act (operands s t b) d = (tapStopped d pos.val b, .ok []) := by
  rw [← h0]
  rfl

/-- A ring that stops: a CONTINUOUS one posts nothing (R286). -/
theorem rnRingStop_stops (hs : StartsAwake s b) (h0 : arg s b 0 = pos.val) (hh : Held s b .channels pos.val)
    (hr : s.dev.rinse.chains[pos].rings[b] = some r) (hon : r.state ≠ .stopped) :
    let h := if r.mode = .continuous then s.dev.host else ((here s t).post (ringTo b) (here s t).stamp (ringDone pos 1 r.total r.tag)).host
    CompletesOver h (.rnRingStop t b) s t b 0 0 0 0 [.rinse]
      (ChainBecomes s pos (withRing b { r with state := .stopped } s.dev.rinse.chains[pos])) := by
  intro h
  have hj := rnRingStop_judge (t := t) hs h0 hh
  have act := cmdRnRingStop_act (t := t) (d := judged cmdRnRingStop s t b) h0
  have stops : tapStopped (judged cmdRnRingStop s t b) pos.val b = (judged cmdRnRingStop s t b).ringStop pos.val b r 1 := tapStopped_on hr hon
  rw [stops] at act
  by_cases hc : r.mode = .continuous
  · rw [ringStop_continuous hc] at act
    have side : h = s.dev.host := if_pos hc
    rw [side]
    exact completes_onChain rfl hs.1 hj act rfl
  · rw [ringStop_posts hc] at act
    have side : h = ((here s t).post (ringTo b) (here s t).stamp (ringDone pos 1 r.total r.tag)).host := if_neg hc
    rw [side]
    exact completes_onChain_post rfl hs.1 hj act rfl

theorem rnRingStop_stopped (hs : StartsAwake s b) (h0 : arg s b 0 = pos.val) (hh : Held s b .channels pos.val)
    (hr : ∀ r ∈ s.dev.rinse.chains[pos].rings[b], r.state = .stopped) : Completes (.rnRingStop t b) s t b 0 0 0 0 [] (fun _ => True) := by
  have act := cmdRnRingStop_act (t := t) (d := judged cmdRnRingStop s t b) h0
  rw [tapStopped_off (d := judged cmdRnRingStop s t b) hr] at act
  exact completes_results rfl hs.1 (rnRingStop_judge hs h0 hh) act rfl (Keeps.refl _ _) (by decide) trivial

/-! ## RN_TRIGGER (R262, R263) -/

/-- A ring tap that a trigger may reach: it runs and is TRIGGERED. -/
def takesTrigger (o : Option Ring) : Bool := o.any (fun r => r.on && r.mode == .triggered)

theorem cmdRnTrigger_state {x : Ctx} {d : Dev} (h0 : x.arg 0 = pos.val) :
    cmdRnTrigger.state x d = need (takesTrigger d.rinse.chains[pos].rings[x.b]) .state := by
  simp only [cmdRnTrigger, h0, ring_fin]
  cases d.rinse.chains[pos].rings[x.b] <;> rfl

theorem cmdRnTrigger_act {x : Ctx} {d : Dev} (h0 : x.arg 0 = pos.val) (hr : d.rinse.chains[pos].rings[x.b] = some r) :
    cmdRnTrigger.act x d = (d.ringTrigger pos.val x.b r, .ok []) := by
  simp only [cmdRnTrigger, h0, ring_fin, hr]

theorem rnTrigger_judge (hs : StartsAwake s b) (h0 : arg s b 0 = pos.val) (hh : Held s b .channels pos.val)
    (hr : s.dev.rinse.chains[pos].rings[b] = some r) (hon : r.state ≠ .stopped) (hm : r.mode = .triggered) :
    cmdRnTrigger.judge (operands s t b) (judged cmdRnTrigger s t b) = none := by
  have takes : takesTrigger s.dev.rinse.chains[pos].rings[b] = true := by
    rw [takesTrigger, hr]
    simp [Ring.on, hon, hm]
  exact passes_awake hs (fun h => by cases h) (names_chain h0 hh) rfl rfl
    ((cmdRnTrigger_state (x := operands s t b) h0).trans (if_pos takes))

/-- A trigger of a ring whose last output is not of this instant: the first one counts. -/
theorem rnTrigger_marks (hs : StartsAwake s b) (h0 : arg s b 0 = pos.val) (hh : Held s b .channels pos.val)
    (hr : s.dev.rinse.chains[pos].rings[b] = some r) (hon : r.state ≠ .stopped) (hm : r.mode = .triggered)
    (hq : r.state ≠ .running ∨ r.trigAt ≠ none ∨ r.total = 0 ∨ r.newest ≠ (here s t).stamp) :
    Completes (.rnTrigger t b) s t b 0 0 0 0 [.rinse] (ChainBecomes s pos
      (withRing b (if r.state = .running ∧ r.trigAt = none then { r with trigAt := some (instant s t) } else r) s.dev.rinse.chains[pos])) := by
  have hj := rnTrigger_judge (t := t) hs h0 hh hr hon hm
  have act := cmdRnTrigger_act (x := operands s t b) (d := judged cmdRnTrigger s t b) h0 hr
  by_cases first : r.state = .running ∧ r.trigAt = none
  · have later : r.total = 0 ∨ r.newest ≠ (judged cmdRnTrigger s t b).stamp :=
      (hq.resolve_left (fun h => h first.1)).resolve_left (fun h => h first.2)
    rw [ringTrigger_next _ ⟨first.1, hm, first.2⟩ later] at act
    rw [if_pos first]
    exact completes_onChain (f := withRing b { r with trigAt := some (instant s t) }) rfl hs.1 hj act rfl
  · rw [ringTrigger_off _ (fun h => first ⟨h.1, h.2.2⟩)] at act
    rw [if_neg first]
    exact completes_chainStays rfl hs.1 hj act (withRing_same hr)

/-- A trigger of a ring whose last output has the timestamp of this instant. -/
theorem rnTrigger_finds (hs : StartsAwake s b) (h0 : arg s b 0 = pos.val) (hh : Held s b .channels pos.val)
    (hr : s.dev.rinse.chains[pos].rings[b] = some r) (h : r.state = .running ∧ r.mode = .triggered ∧ r.trigAt = none)
    (hq : r.total ≠ 0 ∧ r.newest = (here s t).stamp) :
    let x := lastTriggers { r with trigAt := some (instant s t) }
    let h := if r.post ≤ 1 then ((here s t).post (ringTo b) (here s t).stamp (ringDone pos 0 x.total r.tag)).host else s.dev.host
    CompletesOver h (.rnTrigger t b) s t b 0 0 0 0 [.rinse] (ChainBecomes s pos (withRing b x s.dev.rinse.chains[pos])) := by
  intro x host
  have hj := rnTrigger_judge (t := t) hs h0 hh hr (by rw [h.1]; decide) h.2.1
  have act := cmdRnTrigger_act (x := operands s t b) (d := judged cmdRnTrigger s t b) h0 hr
  have found : ¬ (r.total = 0 ∨ r.newest ≠ (judged cmdRnTrigger s t b).stamp) := by
    rintro (hz | hn)
    · exact hq.1 hz
    · exact hn hq.2
  rw [ringTrigger_now h found] at act
  by_cases hp : r.post ≤ 1
  · rw [if_pos hp] at act
    have side : host = ((here s t).post (ringTo b) (here s t).stamp (ringDone pos 0 x.total r.tag)).host := if_pos hp
    rw [side]
    exact completes_onChain_post rfl hs.1 hj act rfl
  · rw [if_neg hp] at act
    have side : host = s.dev.host := if_neg hp
    rw [side]
    exact completes_onChain rfl hs.1 hj act rfl

theorem rnTrigger_refused (hs : StartsAwake s b) (h0 : arg s b 0 = pos.val) (hh : Held s b .channels pos.val)
    (hr : ∀ r ∈ s.dev.rinse.chains[pos].rings[b], r.state = .stopped ∨ r.mode ≠ .triggered) : Refuses (.rnTrigger t b) s t b .state := by
  have off : ¬ takesTrigger s.dev.rinse.chains[pos].rings[b] = true := by
    cases hm : s.dev.rinse.chains[pos].rings[b] with
    | none => exact Bool.false_ne_true
    | some r => obtain h | h := hr r hm <;> simp [takesTrigger, Ring.on, h]
  exact refuses_awake (c := cmdRnTrigger) rfl hs (fun h => by cases h) (names_chain h0 hh) rfl rfl
    ((cmdRnTrigger_state (x := operands s t b) h0).trans (if_neg off)) (by decide)

end

/-- Settles O45: each command by its checks and by what it makes of the detectors or of the ring tap of its basket. -/
theorem detectorsRings : Obligations.DetectorsRings := by
  unfold Obligations.DetectorsRings
  refine ⟨?_, ?_, ?_, ?_, ?_, ?_, ?_, ?_, ?_, ?_⟩
  · intro s t pos c ae hs h0 hh h2 h3 h4 hae hother set
    have settings : detSetAt s pos.val c.detSet = if ae then { set with threshold := arg32 s 0 5, dead := arg s 0 7 } else set :=
      if_congr isAe_iff rfl rfl
    rw [← settings]
    exact rnSetDetector_sets hs h0 hh h2 h3 h4 (fun h => hae (isAe_iff.mp h))
      (fun h => hother fun h' => Bool.noConfusion (h.symm.trans (isAe_iff.mpr h')))
  · intro s t b pos c hs h0 hh h1
    exact rnDetRead_answers hs h0 hh h1
  · intro s t pos c hs h0 hh
    exact rnDetReset_clears hs h0 hh
  · intro s t b pos k c mode hs h0 hh hlen haligned hmode hpost hmem htach hcomp hr
    exact rnRingSet_places hs h0 hh ⟨hlen, haligned, hmode, hpost⟩ ⟨hmem, htach, hcomp⟩ hr
  · intro s t b pos r c hs h0 hh hr hm
    exact rnRingStart_starts hs h0 hh hr hm
  · intro s t b pos r c hs h0 hh hr hon
    exact rnRingStop_stops hs h0 hh hr hon
  · intro s t b pos c hs h0 hh hr
    exact rnRingStop_stopped hs h0 hh hr
  · intro s t b pos r c hs h0 hh hr hon hm hq
    exact rnTrigger_marks hs h0 hh hr hon hm hq
  · intro s t b pos r c hs h0 hh hr hrun hm htrig hq
    exact rnTrigger_finds hs h0 hh hr ⟨hrun, hm, htrig⟩ hq
  · intro s t b pos c hs h0 hh hr
    exact rnTrigger_refused hs h0 hh hr

end Sys2Proof.Proofs

namespace Sys2Proof.Proofs
open Machine Laws

/-! ## The order in which tags are taken (R488, Table 10-8) -/

theorem before_of_level {a b : Tag} (h : a.level < b.level) : a.before b = true := by
  simp [Tag.before, h, Nat.ne_of_lt h]

theorem before_of_deadline_none {a b : Tag} {x : Time} (hl : a.level = b.level) (ha : a.deadline = some x) (hb : b.deadline = none) :
    a.before b = true ∧ b.before a = false := by
  simp [Tag.before, hl, ha, hb]

theorem before_of_deadline {a b : Tag} {x y : Time} (hl : a.level = b.level) (ha : a.deadline = some x) (hb : b.deadline = some y) (h : x < y) :
    a.before b = true := by
  simp [Tag.before, hl, ha, hb, h, Nat.ne_of_lt h]

theorem before_of_allocAt {a b : Tag} (hl : a.level = b.level) (hd : a.deadline = b.deadline) (h : a.allocAt < b.allocAt) :
    a.before b = true := by
  cases hb : b.deadline <;> simp [Tag.before, hl, hd, hb, h, Nat.ne_of_lt h]

/-- Of two tags at most one comes first. -/
theorem before_asymm {a b : Tag} (h : a.before b = true) : b.before a = false := by
  by_cases hl : a.level = b.level
  · cases ha : a.deadline with
    | none =>
      cases hb : b.deadline with
      | none =>
        by_cases hat : a.allocAt = b.allocAt
        · simp only [Tag.before, hl, ha, hb, hat, bne_self_eq_false, Bool.false_eq_true, if_false, decide_eq_true_eq] at h
          simp [Tag.before, hl, ha, hb, hat, Fin.le_of_lt h]
        · simp [Tag.before, hl, ha, hb, hat] at h
          simp [Tag.before, hl, ha, hb, Ne.symm hat, Nat.le_of_lt h]
      | some y => simp [Tag.before, hl, ha, hb] at h
    | some x =>
      cases hb : b.deadline with
      | none => exact (before_of_deadline_none hl ha hb).2
      | some y =>
        by_cases hxy : x = y
        · by_cases hat : a.allocAt = b.allocAt
          · simp only [Tag.before, hl, ha, hb, hxy, hat, bne_self_eq_false, Bool.false_eq_true, if_false, decide_eq_true_eq] at h
            simp [Tag.before, hl, ha, hb, hxy, hat, Fin.le_of_lt h]
          · simp [Tag.before, hl, ha, hb, hxy, hat] at h
            simp [Tag.before, hl, ha, hb, hxy, Ne.symm hat, Nat.le_of_lt h]
        · simp [Tag.before, hl, ha, hb, hxy] at h
          simp [Tag.before, hl, ha, hb, Ne.symm hxy, Nat.le_of_lt h]
  · have : a.level < b.level := by simpa [Tag.before, hl] using h
    simp [Tag.before, Ne.symm hl, Nat.le_of_lt this]

theorem bestTag_mem {u : Tag} {l : List Tag} (hu : bestTag l = some u) : u ∈ l := by
  induction l generalizing u with
  | nil => cases hu
  | cons y ys ih =>
    unfold bestTag at hu
    cases hb : bestTag ys with
    | none =>
      simp only [hb, Option.some.injEq] at hu
      exact hu ▸ List.mem_cons_self
    | some v =>
      simp only [hb] at hu
      split at hu
      · exact Option.some.inj hu ▸ List.mem_cons_self
      · exact Option.some.inj hu ▸ List.mem_cons_of_mem _ (ih hb)

/-- The tag that comes before every other one is taken. -/
theorem bestTag_of_first {x : Tag} {l : List Tag} (hx : x ∈ l) (hf : ∀ y ∈ l, y = x ∨ x.before y = true) : bestTag l = some x := by
  induction l with
  | nil => cases hx
  | cons y ys ih =>
    unfold bestTag
    by_cases hin : x ∈ ys
    · rw [ih hin (fun z hz => hf z (List.mem_cons_of_mem _ hz))]
      obtain rfl | hxy := hf y List.mem_cons_self
      · exact ite_self _
      · simp only [before_asymm hxy, Bool.false_eq_true, if_false]
    · obtain rfl : x = y := (List.mem_cons.mp hx).resolve_right hin
      cases hb : bestTag ys with
      | none => rfl
      | some u =>
        obtain rfl | hxu := hf u (List.mem_cons_of_mem _ (bestTag_mem hb))
        · exact ite_self _
        · exact if_pos hxu

/-! ## TAG_DISPATCH to a unit other than a press engine (R488 to R491) -/

section
variable {s : State} {t : Time} {u : UnitId} {x : Tag} {h : Handle}

/-- A tag becomes ISSUED at its own priority; those with another number stay. -/
def issuedTags (p : Spool) (id : Fin 4096) : Spool :=
  { p with tags := p.tags.map (fun y => if y.id = id then { y with status := .issued, level := y.priority } else y) }

theorem onTag_issues (p : Spool) (id : Fin 4096) : p.onTag id (fun t => { t with status := .issued, level := t.priority }) = issuedTags p id := by
  simp only [Spool.onTag, issuedTags, beq_iff_eq]

/-- The waiting tag that a free unit takes. -/
theorem first_waits (hx : x ∈ s.dev.spool.tags ∧ x.waitsFor u = true)
    (hf : s.dev.spool.tags.all (fun y => !y.waitsFor u || y == x || x.before y) = true) :
    bestTag (s.dev.spool.tags.filter (fun t => t.waitsFor u)) = some x := by
  refine bestTag_of_first (List.mem_filter.mpr hx) (fun y hy => ?_)
  obtain ⟨hy, hw⟩ := List.mem_filter.mp hy
  simpa [hw] using List.all_eq_true.mp hf y hy

theorem tagDispatch_accepts (hu : ∀ g, u ≠ .press g) (hh : s.dev.pwr.halted = false) (hfree : s.dev.spool.unitFree u = true)
    (hx : bestTag (s.dev.spool.tags.filter (fun t => t.waitsFor u)) = some x) :
    exec (.tagDispatch t u) s = .next { s with dev := (here s t).accept u x } := by
  have hh : (s.dev.tick t).pwr.halted = false := hh
  have hfree : (s.dev.tick t).spool.unitFree u = true := hfree
  have hx : bestTag ((s.dev.tick t).spool.tags.filter (fun t => t.waitsFor u)) = some x := hx
  show execTagDispatch t u s = _
  unfold execTagDispatch onDev
  cases u with
  | press g => exact absurd rfl (hu g)
  | _ => simp only [hh, hfree, hx, Bool.not_true, Bool.false_eq_true, if_false, here]

/-- The gatherer, a result path and the store only take the tag. -/
theorem tagDispatch_plain (hh : s.dev.pwr.halted = false) (hfree : s.dev.spool.unitFree u = true)
    (hx : x ∈ s.dev.spool.tags ∧ x.waitsFor u = true)
    (hf : s.dev.spool.tags.all (fun y => !y.waitsFor u || y == x || x.before y) = true)
    (hu : u = .gatherer ∨ u = .store ∨ ∃ i : Fin 48, u = .path i) :
    Does (.tagDispatch t u) s t [.spool] (fun d => d.spool = issuedTags s.dev.spool x.id) := by
  have first := first_waits hx hf
  have plain : (here s t).accept u x = (here s t).onSpool (fun p => issuedTags p x.id) := by
    unfold Dev.accept
    simp only [onTag_issues]
    obtain rfl | rfl | ⟨i, rfl⟩ := hu <;> rfl
  have other : ∀ g, u ≠ .press g := fun g => by
    obtain rfl | rfl | ⟨i, rfl⟩ := hu <;> exact UnitId.noConfusion
  refine does_of (tagDispatch_accepts other hh hfree first) ?_ ?_
  · rw [plain]
    exact onSpool_keeps _ _
  · rw [plain]
    rfl

/-- A vector engine takes the tag of a descriptor and is busy with it. -/
theorem tagDispatch_engine {e : Fin 4} (hh : s.dev.pwr.halted = false) (hfree : s.dev.spool.engines[e].busy = none)
    (hx : x ∈ s.dev.spool.tags ∧ x.waitsFor (.engine e) = true ∧ x.handle = some h)
    (hf : s.dev.spool.tags.all (fun y => !y.waitsFor (.engine e) || y == x || x.before y) = true) :
    (x.engine = none ∨ x.engine = some e) ∧ Does (.tagDispatch t (.engine e)) s t [.spool] (fun d => d.spool =
      { issuedTags s.dev.spool x.id with
          engines := s.dev.spool.engines.set e.val { s.dev.spool.engines[e] with busy := some (h, x.index, x.id, instant s t) } }) := by
  obtain ⟨hmem, hwait, hhandle⟩ := hx
  have free : s.dev.spool.unitFree (.engine e) = true := by
    show (s.dev.spool.engines[e]).busy.isNone = true
    rw [hfree]
    rfl
  have taken : (here s t).accept (.engine e) x = ((here s t).onSpool (fun p => issuedTags p x.id)).onSpool
      (fun p => { p with engines := upd p.engines e (fun v => { v with busy := some (h, x.index, x.id, instant s t) }) }) := by
    unfold Dev.accept
    simp only [onTag_issues, hhandle]
    rfl
  refine ⟨?_, does_of (tagDispatch_accepts (fun g => UnitId.noConfusion) hh free (first_waits ⟨hmem, hwait⟩ hf)) ?_ ?_⟩
  · simp only [Tag.waitsFor, Bool.and_eq_true, Bool.or_eq_true, beq_iff_eq] at hwait
    exact hwait.2.2
  · rw [taken]
    exact Keeps.andThen (onSpool_keeps _ _) (by decide) (onSpool_keeps _ _)
  · rw [taken]
    rfl

/-- With nothing in flight and no operation on a tile no unit finds a tag. -/
theorem tagDispatch_nothing (hn : s.dev.spool.tags = [] ∧ ∀ i : Fin 48, (s.dev.tiles[i]).op = none) :
    Does (.tagDispatch t u) s t [] (fun _ => True) := by
  obtain ⟨htags, hop⟩ := hn
  have tags : (s.dev.tick t).spool.tags = [] := htags
  refine does_nothing ?_
  show execTagDispatch t u s = _
  unfold execTagDispatch onDev
  cases u with
  | press g =>
    have rows : (s.dev.tick t).rowWaiting g.val = none := by
      refine List.find?_eq_none.mpr (fun i _ => ?_)
      have op : ((s.dev.tick t).tiles[i]).op = none := hop i
      simp only [op]
      decide
    simp only [Dev.dispatchPress, rows, ite_self, here]
  | _ => simp only [tags, List.filter_nil, bestTag, ite_self, here]

end

/-! ## TAG_DISPATCH to a tile (R302, R488) -/

section
variable {s : State} {t : Time} {i : Fin 48} {x : Tag} {h : Handle} {m : Model} {r : Run} {sl : Slice} {l : Layer}

/-- What a replica has accumulated when its tag is taken. -/
def freshAccum (x : Tag) (sl : Slice) (l : Layer) : Accum := { slice := x.index, replica := x.replica, sums := List.replicate (sl.delivers l) 0 }

/-- The plan of a PHASES tag that a tile takes. -/
def freshPlan (d : Dev) (h : Handle) (m : Model) (r : Run) (i : Fin 48) (x : Tag) (sl : Slice) (l : Layer) : Planned :=
  { tag := x.id, accepted := d.now, handed := r.handed.find? (fun y => y.slice == x.index && y.tile == i), tile := i, slice := x.index,
    replica := x.replica, phases := d.planPhases h m sl l (r.handed.find? (fun y => y.slice == x.index && y.tile == i)) }

theorem acceptPhases_plans {d : Dev} (hx : x.handle = some h ∧ x.tile = some i) (hm : d.models[h] = some m) (hr : m.run = some r)
    (hs : m.image.slices[x.index]? = some sl ∧ m.image.layers[sl.layer]? = some l) :
    let e := d.onRun h (fun r' =>
      { r' with accums := r'.accums ++ [freshAccum x sl l], planned := r'.planned ++ [freshPlan d h m r i x sl l] })
    d.acceptPhases x = if (freshPlan d h m r i x sl l).phases.isEmpty = true then e.retireTags true [x.id] else e := by
  have hm : d.model h = some m := hm
  unfold Dev.acceptPhases
  simp only [hx.1, hx.2, hm, hr, hs.1, hs.2]
  rfl

theorem tagDispatch_tile (hh : s.dev.pwr.halted = false) (hfree : s.dev.spool.unitFree (.tile i) = true)
    (hx : x ∈ s.dev.spool.tags ∧ x.waitsFor (.tile i) = true ∧ x.handle = some h)
    (hf : s.dev.spool.tags.all (fun y => !y.waitsFor (.tile i) || y == x || x.before y) = true)
    (hm : s.dev.models[h] = some m) (hr : m.run = some r)
    (hs : m.image.slices[x.index]? = some sl ∧ m.image.layers[sl.layer]? = some l) :
    let plan := freshPlan (here s t) h m r i x sl l
    let issued := issuedTags s.dev.spool x.id
    Does (.tagDispatch t (.tile i)) s t [.models, .spool] (fun d =>
      d.spool = (if plan.phases.isEmpty = true then issued.retire (instant s t) x.id true else issued) ∧
      d.models = s.dev.models.set h.val
        (some { m with run := some { r with accums := r.accums ++ [freshAccum x sl l], planned := r.planned ++ [plan] } })) := by
  intro plan issued
  obtain ⟨hmem, hwait, hhandle⟩ := hx
  have tile : x.tile = some i := by
    simp only [Tag.waitsFor, Bool.and_eq_true, beq_iff_eq] at hwait
    exact hwait.2.2
  have taken : (here s t).accept (.tile i) x = ((here s t).onSpool (fun p => issuedTags p x.id)).acceptPhases x := by
    unfold Dev.accept
    simp only [onTag_issues]
  have hm' : ((here s t).onSpool (fun p => issuedTags p x.id)).models[h] = some m := hm
  have planned := acceptPhases_plans ⟨hhandle, tile⟩ hm' hr hs
  have models := onRun_models hm' hr (fun r' =>
    { r' with accums := r'.accums ++ [freshAccum x sl l],
              planned := r'.planned ++ [freshPlan ((here s t).onSpool (fun p => issuedTags p x.id)) h m r i x sl l] })
  rw [show freshPlan ((here s t).onSpool (fun p => issuedTags p x.id)) h m r i x sl l = plan from rfl] at planned models
  refine does_of (tagDispatch_accepts (fun g => UnitId.noConfusion) hh hfree (first_waits ⟨hmem, hwait⟩ hf)) ?_ ?_
  · exact accept_keeps _ _ _
  · rw [taken, planned]
    by_cases hp : plan.phases.isEmpty = true
    · rw [if_pos hp, if_pos hp]
      exact ⟨rfl, models⟩
    · rw [if_neg hp, if_neg hp]
      exact ⟨rfl, models⟩

end

/-! ## TAG_AGEING (R489) -/

section
variable {s : State} {t : Time}

theorem tagAgeing_rises {x : Tag} {n : Nat} (hx : s.dev.spool.tags.find? (fun y => y.id == x.id) = some x) (hn : s.dev.spool.ageing = some n)
    (hs : x.status = .ready ∧ x.aborting = false ∧ 0 < x.level)
    (ht : x.readyAt + (x.priority - x.level + 1) * us (100 * n) ≤ instant s t) :
    Does (.tagAgeing t x.id) s t [.spool] (fun d => d.spool =
      { s.dev.spool with tags := s.dev.spool.tags.map (fun y => if y.id = x.id then { y with level := y.level - 1 } else y) }) := by
  have tag : (s.dev.tick t).spool.tag x.id = some x := hx
  have ageing : (s.dev.tick t).spool.ageing = some n := hn
  have due : x.readyAt + (x.priority - x.level + 1) * us (100 * n) ≤ (s.dev.tick t).now := ht
  have run : exec (.tagAgeing t x.id) s =
      .next { s with dev := (here s t).onSpool (fun p => p.onTag x.id (fun x => { x with level := x.level - 1 })) } := by
    show execTagAgeing t x.id s = _
    unfold execTagAgeing onDev
    simp only [tag, ageing, hs.1, hs.2.1, hs.2.2, due, here]
    rfl
  refine does_of run (onSpool_keeps _ _) ?_
  show s.dev.spool.onTag x.id _ = _
  simp only [Spool.onTag, beq_iff_eq]

theorem tagAgeing_nothing {x : Fin 4096} (hn : s.dev.spool.ageing = none ∨ s.dev.spool.tags = []) :
    Does (.tagAgeing t x) s t [] (fun _ => True) := by
  refine does_nothing ?_
  show execTagAgeing t x s = _
  unfold execTagAgeing onDev
  obtain hn | hn := hn
  · have ageing : (s.dev.tick t).spool.ageing = none := hn
    simp only [ageing]
    cases (s.dev.tick t).spool.tag x <;> rfl
  · have tag : (s.dev.tick t).spool.tag x = none := by
      show s.dev.spool.tags.find? _ = none
      rw [hn]
      rfl
    simp only [tag, here]

end
end Sys2Proof.Proofs

namespace Sys2Proof.Proofs
open Machine Laws

/-! ## TILE_PHASE (R302, R307, R310, R315, R482) -/

section
variable {d : Dev} {s : State} {t : Time} {i : Fin 48} {x : Tag} {h : Handle} {m : Model} {r : Run} {p : Planned} {ph : Phase} {rest : List Phase}
  {sl : Slice} {l : Layer}

/-- What the next phase of a plan yields: what its tile took at the handoff, or what it drives now. -/
def phaseOut (y : Tile) (p : Planned) (sl : Slice) (l : Layer) (ph : Phase) (draw : Nat) : PhaseYield :=
  (p.handed.map (·.yields)).getD (y.phase sl (l.weightFormat == 2) l.inFormat ph draw)

/-- The earliest end of the next phase of a plan on its tile. -/
def planDue (y : Tile) (p : Planned) (sl : Slice) : Time :=
  (p.handed.map (fun x => x.opened + ns 800)).getD
    (max p.accepted (y.phaseEnd + if y.lastMode = some (!sl.dMode) then ns 200 else 0) + if sl.dMode = true then ns 120 else ns 800)

/-- A tile once its next phase has ended: it has driven it, unless it did so at the handoff, and has counted it. -/
def phasedTile (y : Tile) (p : Planned) (sl : Slice) (out : PhaseYield) (now : Time) : Tile :=
  let driven : Tile := if p.handed = none then { y with lastMode := some sl.dMode, phaseEnd := now } else y
  { driven with clipped := y.clipped + BitVec.ofNat 32 out.clips, compared := y.compared + BitVec.ofNat 32 out.made,
                seamFailures := y.seamFailures + BitVec.ofNat 32 out.failed }

/-- A run once a phase of one of its plans has ended. -/
def phasedRun (r : Run) (p : Planned) (id : Fin 4096) (i : Fin 48) (out : PhaseYield) (rest : List Phase) : Run :=
  { r with accums := addAccum p.slice p.replica out.sums r.accums, clips := r.clips + out.clips, unchecked := r.unchecked + out.unmade,
           seamFailed := addFailures i out.failed r.seamFailed, counts := addCounts i out r.counts,
           planned := r.planned.map (fun q => if q.tag == id then { q with phases := rest } else q) }

theorem phaseDue_eq (d : Dev) (p : Planned) (sl : Slice) : d.phaseDue p sl = planDue d.tiles[p.tile] p sl := by
  unfold Dev.phaseDue planDue
  cases p.handed with
  | some y => rfl
  | none => simp only [Tile.phaseEnds, phaseTime, beq_iff_eq, Option.map_none, Option.getD_none]

theorem endPhase_yields (d : Dev) (p : Planned) (sl : Slice) (l : Layer) (ph : Phase) :
    (d.endPhase p sl l ph).1 = phaseOut d.tiles[p.tile] p sl l ph d.free := by
  unfold phaseOut
  show (match p.handed with | some x => x.yields | none => _) = _
  cases p.handed <;> rfl

theorem endPhase_tiles (d : Dev) (p : Planned) (sl : Slice) (l : Layer) (ph : Phase) : (d.endPhase p sl l ph).2.tiles =
    d.tiles.set p.tile.val (phasedTile d.tiles[p.tile] p sl (phaseOut d.tiles[p.tile] p sl l ph d.free) d.now) := by
  rw [← endPhase_yields]
  have counted : (d.endPhase p sl l ph).2.tiles = d.tiles.set p.tile.val
      ((if p.handed.isSome then d.tiles[p.tile] else (d.tiles[p.tile]).drove sl.dMode d.now).countPhase (d.endPhase p sl l ph).1) := rfl
  rw [counted]
  generalize (d.endPhase p sl l ph).1 = out
  unfold phasedTile Tile.countPhase Tile.drove
  cases p.handed <;> rfl

/-- A tile with a tag in progress, whose plan has a phase left. -/
theorem tilePhase_plan (hf : d.spool.tags.find? (fun u => u.kind == .phases && u.tile == some i && u.status == .issued) = some x)
    (hh : x.handle = some h) (hm : d.models[h] = some m) (hp : m.planOf x = some p) (hph : p.phases = ph :: rest)
    (hs : m.image.slices[x.index]? = some sl ∧ m.image.layers[sl.layer]? = some l) :
    d.tilePhase i = if d.now < planDue d.tiles[p.tile] p sl then d
      else if x.aborting then d.lastPhase h p sl l ph else d.runPhase h p sl l ph rest := by
  have hm : d.model h = some m := hm
  rw [← phaseDue_eq]
  unfold Dev.tilePhase
  simp only [hf, hh, hm, hp, hph, hs.1, hs.2, Option.bind_some, Option.map_some]

theorem tilePhase_exec (hh : s.dev.pwr.halted = false) : exec (.tilePhase t i) s = .next { s with dev := (here s t).tilePhase i } := by
  show execTilePhase t i s = _
  unfold execTilePhase onDev
  have hh : (s.dev.tick t).pwr.halted = false := hh
  simp only [hh, Bool.false_eq_true, if_false, here]

theorem planOf_running (ha : x.aborting = false) (hr : m.run = some r) : m.planOf x = r.planned.find? (fun q => q.tag == x.id) := by
  simp [Model.planOf, ha, hr]

theorem planOf_left (ha : x.aborting = true) : m.planOf x = m.leaving.find? (fun q => q.tag == x.id) := by
  simp [Model.planOf, ha]

theorem plan_tag {qs : List Planned} (hp : qs.find? (fun q => q.tag == x.id) = some p) : p.tag = x.id := by
  simpa using List.find?_some hp

/-- A phase of a run in flight ends. -/
theorem runPhase_spec (hm : d.models[h] = some m) (hr : m.run = some r) :
    let out := phaseOut d.tiles[p.tile] p sl l ph d.free
    let e := d.runPhase h p sl l ph rest
    e.spool = (if rest = [] then d.spool.retire d.now p.tag true else d.spool) ∧
      e.tiles = d.tiles.set p.tile.val (phasedTile d.tiles[p.tile] p sl out d.now) ∧
      e.models = d.models.set h.val (some { m with run := some (phasedRun r p p.tag p.tile out rest) }) := by
  intro out e
  have yields := endPhase_yields d p sl l ph
  have tiles := endPhase_tiles d p sl l ph
  have frame := endPhase_keeps d p sl l ph
  have clk : (d.endPhase p sl l ph).2.now = d.now := congrArg Clock.now (frame .clk (by decide))
  have spool : (d.endPhase p sl l ph).2.spool = d.spool := frame .spool (by decide)
  have same : (d.endPhase p sl l ph).2.models = d.models := frame .models (by decide)
  have he : e = if rest.isEmpty then
      ((d.endPhase p sl l ph).2.onRun h (fun r => phasedRun r p p.tag p.tile (d.endPhase p sl l ph).1 rest)).retireTags true [p.tag]
    else (d.endPhase p sl l ph).2.onRun h (fun r => phasedRun r p p.tag p.tile (d.endPhase p sl l ph).1 rest) := rfl
  rw [yields] at he
  generalize (d.endPhase p sl l ph).2 = d' at he tiles clk spool same
  have models := onRun_models (d := d') (by rw [same, hm]) hr (fun r => phasedRun r p p.tag p.tile out rest)
  rw [same] at models
  cases rest with
  | nil =>
    rw [he, if_pos List.isEmpty_nil, if_pos rfl]
    refine ⟨?_, tiles, models⟩
    show d'.spool.retire d'.now p.tag true = _
    rw [spool, clk]
  | cons q qs =>
    rw [he, if_neg (by simp), if_neg (by simp)]
    exact ⟨spool, tiles, models⟩

/-- The phase that a tile finishes for a run that has ended early. -/
theorem lastPhase_spec (hm : d.models[h] = some m) :
    let e := d.lastPhase h p sl l ph
    e.spool = d.spool.retire d.now p.tag false ∧
      e.tiles = d.tiles.set p.tile.val (phasedTile d.tiles[p.tile] p sl (phaseOut d.tiles[p.tile] p sl l ph d.free) d.now) ∧
      e.models = d.models.set h.val (some { m with leaving := m.leaving.filter (fun q => q.tag != p.tag) }) := by
  intro e
  have tiles := endPhase_tiles d p sl l ph
  have frame := endPhase_keeps d p sl l ph
  have clk : (d.endPhase p sl l ph).2.now = d.now := congrArg Clock.now (frame .clk (by decide))
  have spool : (d.endPhase p sl l ph).2.spool = d.spool := frame .spool (by decide)
  have same : (d.endPhase p sl l ph).2.models = d.models := frame .models (by decide)
  have he : e = ((d.endPhase p sl l ph).2.onModel h (fun m => { m with leaving := m.leaving.filter (fun q => q.tag != p.tag) })).retireTags false
    [p.tag] := rfl
  generalize (d.endPhase p sl l ph).2 = d' at he tiles clk spool same
  have models := onModel_models (d := d') (by rw [same, hm]) (fun m => { m with leaving := m.leaving.filter (fun q => q.tag != p.tag) })
  rw [same] at models
  rw [he]
  refine ⟨?_, tiles, models⟩
  show d'.spool.retire d'.now p.tag false = _
  rw [spool, clk]

/-- The next phase of a run in flight has had its time. -/
theorem tilePhase_runs (hh : s.dev.pwr.halted = false)
    (hf : s.dev.spool.tags.find? (fun u => u.kind == .phases && u.tile == some i && u.status == .issued) = some x)
    (hx : x.aborting = false ∧ x.handle = some h) (hm : s.dev.models[h] = some m) (hr : m.run = some r)
    (hp : r.planned.find? (fun q => q.tag == x.id) = some p) (hi : p.tile = i ∧ p.phases = ph :: rest)
    (hs : m.image.slices[x.index]? = some sl ∧ m.image.layers[sl.layer]? = some l) (hd : planDue s.dev.tiles[i] p sl ≤ instant s t) :
    let out := phaseOut s.dev.tiles[i] p sl l ph s.dev.free
    Does (.tilePhase t i) s t [.tiles, .models, .spool, .free] (fun d =>
      d.spool = (if rest = [] then s.dev.spool.retire (instant s t) x.id true else s.dev.spool) ∧
      d.tiles = s.dev.tiles.set i.val (phasedTile s.dev.tiles[i] p sl out (instant s t)) ∧
      d.models = s.dev.models.set h.val (some { m with run := some (phasedRun r p x.id i out rest) })) := by
  obtain ⟨rfl, hph⟩ := hi
  have run := tilePhase_plan (d := here s t) hf hx.2 hm ((planOf_running hx.1 hr).trans hp) hph hs
  rw [if_neg (show ¬ (here s t).now < planDue (here s t).tiles[p.tile] p sl from Nat.not_lt.mpr hd), hx.1, if_neg (by decide)] at run
  have spec := runPhase_spec (d := here s t) (p := p) (ph := ph) (rest := rest) (sl := sl) (l := l) hm hr
  rw [plan_tag hp, ← run] at spec
  exact does_of (tilePhase_exec hh) (tilePhase_keeps _ _) spec

/-- Before its time no phase ends. -/
theorem tilePhase_waits (hf : s.dev.spool.tags.find? (fun u => u.kind == .phases && u.tile == some i && u.status == .issued) = some x)
    (hx : x.aborting = false ∧ x.handle = some h) (hm : s.dev.models[h] = some m) (hr : m.run = some r)
    (hp : r.planned.find? (fun q => q.tag == x.id) = some p) (hi : p.tile = i ∧ p.phases = ph :: rest)
    (hs : m.image.slices[x.index]? = some sl ∧ m.image.layers[sl.layer]? = some l) (hd : instant s t < planDue s.dev.tiles[i] p sl) :
    Does (.tilePhase t i) s t [] (fun _ => True) := by
  obtain ⟨rfl, hph⟩ := hi
  have run := tilePhase_plan (d := here s t) hf hx.2 hm ((planOf_running hx.1 hr).trans hp) hph hs
  rw [if_pos (show (here s t).now < planDue (here s t).tiles[p.tile] p sl from hd)] at run
  refine does_nothing ?_
  show execTilePhase t p.tile s = _
  unfold execTilePhase onDev
  simp only [show (s.dev.tick t).tilePhase p.tile = s.dev.tick t from run, ite_self, here]

/-- The phase that a tile finishes for a run that has ended early is its last (R482). -/
theorem tilePhase_last (hh : s.dev.pwr.halted = false)
    (hf : s.dev.spool.tags.find? (fun u => u.kind == .phases && u.tile == some i && u.status == .issued) = some x)
    (hx : x.aborting = true ∧ x.handle = some h) (hm : s.dev.models[h] = some m) (hp : m.leaving.find? (fun q => q.tag == x.id) = some p)
    (hi : p.tile = i ∧ p.phases = ph :: rest) (hs : m.image.slices[x.index]? = some sl ∧ m.image.layers[sl.layer]? = some l)
    (hd : planDue s.dev.tiles[i] p sl ≤ instant s t) :
    Does (.tilePhase t i) s t [.tiles, .models, .spool, .free] (fun d => d.spool = s.dev.spool.retire (instant s t) x.id false ∧
      d.tiles = s.dev.tiles.set i.val (phasedTile s.dev.tiles[i] p sl (phaseOut s.dev.tiles[i] p sl l ph s.dev.free) (instant s t)) ∧
      d.models = s.dev.models.set h.val (some { m with leaving := m.leaving.filter (fun q => q.tag != x.id) })) := by
  obtain ⟨rfl, hph⟩ := hi
  have run := tilePhase_plan (d := here s t) hf hx.2 hm ((planOf_left hx.1).trans hp) hph hs
  rw [if_neg (show ¬ (here s t).now < planDue (here s t).tiles[p.tile] p sl from Nat.not_lt.mpr hd), if_pos hx.1] at run
  have spec := lastPhase_spec (d := here s t) (p := p) (ph := ph) (sl := sl) (l := l) hm
  rw [plan_tag hp, ← run] at spec
  exact does_of (tilePhase_exec hh) (tilePhase_keeps _ _) spec

/-- A tag of a run that has ended, without a phase in progress, retires. -/
theorem tilePhase_aborted (hh : s.dev.pwr.halted = false)
    (hf : s.dev.spool.tags.find? (fun u => u.kind == .phases && u.tile == some i && u.status == .issued) = some x) (ha : x.aborting = true)
    (hn : ∀ h ∈ x.handle, ∀ m ∈ s.dev.models[h], m.leaving.all (fun q => q.tag != x.id) = true) :
    Does (.tilePhase t i) s t [.spool] (fun d => d.spool = s.dev.spool.retire (instant s t) x.id false) := by
  have found : (here s t).spool.tags.find? (fun u => u.kind == .phases && u.tile == some i && u.status == .issued) = some x := hf
  have none_left : x.handle.bind (fun h => ((here s t).model h).bind (fun m => (m.planOf x).map (fun p => (h, m, p)))) = none := by
    refine Option.bind_eq_none_iff.mpr (fun h hx => Option.bind_eq_none_iff.mpr (fun m hm => ?_))
    rw [planOf_left ha, Option.map_eq_none_iff, List.find?_eq_none]
    intro q hq
    simpa using List.all_eq_true.mp (hn h hx m hm) q hq
  have run : (here s t).tilePhase i = (here s t).retireTags false [x.id] := by
    unfold Dev.tilePhase
    simp only [found, none_left, ha, if_true]
  refine does_of (tilePhase_exec hh) ?_ ?_
  · rw [run]
    exact retireTags_keeps _ _ _
  · rw [run]
    rfl

/-- A tile without a tag does nothing. -/
theorem tilePhase_nothing (hn : s.dev.spool.tags.all (fun u => u.tile != some i) = true) : Does (.tilePhase t i) s t [] (fun _ => True) := by
  have missing : (s.dev.tick t).spool.tags.find? (fun u => u.kind == .phases && u.tile == some i && u.status == .issued) = none := by
    refine List.find?_eq_none.mpr (fun u hu => ?_)
    have : u.tile ≠ some i := by simpa using List.all_eq_true.mp hn u hu
    simp [this]
  refine does_nothing ?_
  show execTilePhase t i s = _
  unfold execTilePhase onDev Dev.tilePhase
  simp only [missing, ite_self, here]

end
end Sys2Proof.Proofs

namespace Sys2Proof.Proofs
open Machine Laws

/-! ## The busy policy of a layer (R333 to R335) -/

section
variable {d : Dev} {h : Handle} {m : Model} {k : Nat} {l : Layer} {state : Fin 48 → TileState} (hl : m.image.layers[k]? = some l)
include hl

theorem applyPolicy_vector (hv : l.vector = true) : d.applyPolicy h m k state = d := by
  unfold Dev.applyPolicy
  simp only [hl, hv, if_true]

theorem applyPolicy_of_go {us : List Nat} (hv : l.vector = false) (hp : m.policy k state = .go us) :
    d.applyPolicy h m k state = d.onRun h (fun r => { r with
      usable := us, waitFor := false,
      states := if r.waitFor = true then r.states ++ (m.layerTiles k).map (fun i => (i, state i)) else r.states }) := by
  unfold Dev.applyPolicy
  simp only [hl, hv, hp, Bool.false_eq_true, if_false]

theorem applyPolicy_of_wait (hv : l.vector = false) (hp : m.policy k state = .wait) :
    d.applyPolicy h m k state = d.onRun h (fun r => { r with waitFor := true }) := by
  unfold Dev.applyPolicy
  simp only [hl, hv, hp, Bool.false_eq_true, if_false]

theorem applyPolicy_of_stop (hv : l.vector = false) (hp : m.policy k state = .stop) :
    d.applyPolicy h m k state = d.endRun h .tileBusy := by
  unfold Dev.applyPolicy
  simp only [hl, hv, hp, Bool.false_eq_true, if_false]

end

/-! ## The tags of a layer (R474, R480, R481) -/

theorem alloc_id {p : Spool} {i : Nat} (now : Time) (t : Tag) (hi : p.freeId = some i) : (p.alloc now t).2 = some (Fin.ofNat 4096 i) := by
  unfold Spool.alloc
  split
  · next h => rw [hi] at h; cases h
  · next j h =>
    rw [hi] at h
    obtain rfl := Option.some.inj h
    with_reducible rfl

/-- While a tag is FREE, an allocation puts a tag with a number of its own behind those in flight. -/
theorem alloc_takes {p : Spool} (now : Time) (t : Tag) (hp : p.tags.length < 4096) : ∃ n : Fin 4096, (∀ u ∈ p.tags, u.id ≠ n) ∧
    (p.alloc now t).2 = some n ∧ (p.alloc now t).1.tags = p.tags ++ [t.created n now] := by
  obtain ⟨i, hi⟩ := freeId_some hp
  refine ⟨Fin.ofNat 4096 i, fun u hu heq => ?_, alloc_id now t hi, by rw [alloc_spool now t hi]⟩
  have hid : u.id.val = i % 4096 := congrArg Fin.val heq
  unfold Spool.freeId at hi
  have small : i < 4096 := List.mem_range.mp (List.mem_of_find?_eq_some hi)
  have taken : p.tags.any (fun t => t.id.val == i) = true := List.any_eq_true.mpr ⟨u, hu, by simp [hid, Nat.mod_eq_of_lt small]⟩
  have := List.find?_some hi
  rw [taken] at this
  cases this

theorem runTag_takes {d : Dev} (t : Tag) (hd : d.spool.tags.length < 4096) :
    ∃ n : Fin 4096, (d.runTag t).1.spool.tags = d.spool.tags ++ [t.created n d.now] ∧ (d.runTag t).2 = [n] := by
  obtain ⟨n, -, hid, htags⟩ := alloc_takes (p := d.spool) d.now t hd
  refine ⟨n, ?_, ?_⟩
  · rw [Dev.runTag, onSpool_spool, htags]
  · rw [Dev.runTag, hid, Option.toList_some]

/-- What a tag of a run does: its kind, its slice or descriptor, its replica. -/
def Tag.job (t : Tag) : TagKind × Nat × Nat := (t.kind, t.index, t.replica)

/-- A tag of the run, READY when it depends on nothing. -/
def ownTag (h : Handle) (x : Tag) : Prop := x.handle = some h ∧ x.status = if x.deps.isEmpty then .ready else .allocated

theorem created_ownTag {h : Handle} {t : Tag} (n : Fin 4096) (now : Time) (ht : t.handle = some h) : ownTag h (t.created n now) := ⟨ht, rfl⟩

section
variable {h : Handle} {m : Model} {r : Run} {l : Layer}

/-- The work of a slice on one of its replicas, where its tile computes. -/
def sliceJobs (m : Model) (r : Run) (x : Nat × Slice) (k : Nat) : List (TagKind × Nat × Nat) :=
  if (m.replicaTile x.2 k).any (fun i => (r.stateOf i).computes) = true then [(.phases, x.1, k), (.move, x.1, k)] else []

/-- The work of slices on all their replicas. -/
def slicesJobs (m : Model) (r : Run) (ss : List (Nat × Slice)) : List (TagKind × Nat × Nat) :=
  ss.flatMap (fun x => (List.range x.2.tiles.length).flatMap (sliceJobs m r x))

/-- Tags that do the work of slices, `moves` the numbers of those that move results: each of these comes after the phases that it moves. -/
structure TileWork (h : Handle) (jobs : List (TagKind × Nat × Nat)) (ts : List Tag) (moves : List (Fin 4096)) : Prop where
  jobs_eq : ts.map Tag.job = jobs
  own : ∀ x ∈ ts, ownTag h x
  kind : ∀ x ∈ ts, x.kind = .phases ∧ x.deps = [] ∨ x.kind = .move ∧ x.id ∈ moves
  after : ∀ y ∈ ts, y.kind = .move → ∃ x ∈ ts, Tag.job x = (.phases, y.index, y.replica) ∧ y.deps = [x.id]

theorem TileWork.nil : TileWork h [] [] [] where
  jobs_eq := rfl
  own := fun _ hx => absurd hx List.not_mem_nil
  kind := fun _ hx => absurd hx List.not_mem_nil
  after := fun _ hx => absurd hx List.not_mem_nil

theorem TileWork.append {js ks : List (TagKind × Nat × Nat)} {ts us : List Tag} {a b : List (Fin 4096)} (h1 : TileWork h js ts a)
    (h2 : TileWork h ks us b) : TileWork h (js ++ ks) (ts ++ us) (a ++ b) where
  jobs_eq := by rw [List.map_append, h1.jobs_eq, h2.jobs_eq]
  own := fun x hx => (List.mem_append.mp hx).elim (h1.own x) (h2.own x)
  kind := fun x hx => by
    obtain hx | hx := List.mem_append.mp hx
    · exact (h1.kind x hx).imp_right (fun hk => ⟨hk.1, List.mem_append_left _ hk.2⟩)
    · exact (h2.kind x hx).imp_right (fun hk => ⟨hk.1, List.mem_append_right _ hk.2⟩)
  after := fun y hy hk => by
    obtain hy | hy := List.mem_append.mp hy
    · obtain ⟨x, hx, hxy⟩ := h1.after y hy hk
      exact ⟨x, List.mem_append_left _ hx, hxy⟩
    · obtain ⟨x, hx, hxy⟩ := h2.after y hy hk
      exact ⟨x, List.mem_append_right _ hx, hxy⟩

/-- The PHASES tag of a slice on a replica. -/
def phasesTag (h : Handle) (m : Model) (r : Run) (s : Nat × Slice) (k : Nat) : Tag :=
  { m.tag h r .phases with tile := m.replicaTile s.2 k, index := s.1, replica := k }

/-- The MOVE tag of a slice on a replica. -/
def moveTag (h : Handle) (m : Model) (r : Run) (s : Nat × Slice) (k : Nat) (deps : List (Fin 4096)) : Tag :=
  { m.tag h r .move with tile := m.replicaTile s.2 k, index := s.1, replica := k, deps := deps }

theorem TileWork.pair (s : Nat × Slice) (k : Nat) (n n' : Fin 4096) (now now' : Time) :
    TileWork h [(.phases, s.1, k), (.move, s.1, k)] [(phasesTag h m r s k).created n now, (moveTag h m r s k [n]).created n' now'] [n'] where
  jobs_eq := rfl
  own := by
    intro x hx
    obtain rfl | rfl : x = _ ∨ x = _ := by simpa using hx
    · exact created_ownTag _ _ rfl
    · exact created_ownTag _ _ rfl
  kind := by
    intro x hx
    obtain rfl | rfl : x = _ ∨ x = _ := by simpa using hx
    · exact Or.inl ⟨rfl, rfl⟩
    · exact Or.inr ⟨rfl, List.mem_singleton_self _⟩
  after := by
    intro y hy hk
    obtain rfl | rfl : y = _ ∨ y = _ := by simpa using hy
    · cases hk
    · exact ⟨_, List.mem_cons_self, rfl, rfl⟩

theorem sliceTags_skip {d : Dev} {s : Nat × Slice} {k : Nat} (ks : List Nat)
    (hk : (m.replicaTile s.2 k).any (fun i => (r.stateOf i).computes) = false) : d.sliceTags h m r s (k :: ks) = d.sliceTags h m r s ks := by
  rw [Dev.sliceTags]
  simp only [hk, Bool.not_false, if_true]

theorem sliceTags_take {d : Dev} {s : Nat × Slice} {k : Nat} (ks : List Nat)
    (hk : (m.replicaTile s.2 k).any (fun i => (r.stateOf i).computes) = true) :
    let a := d.runTag (phasesTag h m r s k)
    let b := a.1.runTag (moveTag h m r s k a.2)
    d.sliceTags h m r s (k :: ks) = ((b.1.sliceTags h m r s ks).1, b.2 ++ (b.1.sliceTags h m r s ks).2) := by
  intro a b
  rw [Dev.sliceTags]
  simp only [hk, Bool.not_true, Bool.false_eq_true, if_false]
  rfl

/-- The tags of a slice do its work. -/
theorem sliceTags_work (s : Nat × Slice) (ks : List Nat) (d : Dev) (hroom : d.spool.tags.length + (ks.flatMap (sliceJobs m r s)).length ≤ 4096) :
    ∃ ts, (d.sliceTags h m r s ks).1.spool.tags = d.spool.tags ++ ts ∧
      TileWork h (ks.flatMap (sliceJobs m r s)) ts (d.sliceTags h m r s ks).2 := by
  induction ks generalizing d with
  | nil => exact ⟨[], (List.append_nil _).symm, TileWork.nil⟩
  | cons k ks ih =>
    rw [List.flatMap_cons, List.length_append] at hroom
    rw [List.flatMap_cons]
    cases hk : (m.replicaTile s.2 k).any (fun i => (r.stateOf i).computes) with
    | false =>
      have idle : sliceJobs m r s k = [] := by simp [sliceJobs, hk]
      rw [idle, List.length_nil, Nat.zero_add] at hroom
      rw [sliceTags_skip ks hk, idle, List.nil_append]
      exact ih d hroom
    | true =>
      have busy : sliceJobs m r s k = [(.phases, s.1, k), (.move, s.1, k)] := by simp [sliceJobs, hk]
      rw [busy, List.length_cons, List.length_singleton] at hroom
      rw [sliceTags_take ks hk, busy]
      obtain ⟨n, tags, ids⟩ := runTag_takes (d := d) (phasesTag h m r s k) (by omega)
      rw [ids]
      generalize (d.runTag (phasesTag h m r s k)).1 = a at tags
      obtain ⟨n', tags', ids'⟩ := runTag_takes (d := a) (moveTag h m r s k [n]) (by rw [tags, List.length_append, List.length_singleton]; omega)
      rw [ids']
      generalize (a.runTag (moveTag h m r s k [n])).1 = b at tags'
      rw [tags, List.append_assoc] at tags'
      obtain ⟨ts, rest, work⟩ := ih b (by rw [tags', List.length_append]; simp only [List.length_append, List.length_singleton]; omega)
      refine ⟨_, ?_, (TileWork.pair (m := m) (r := r) s k n n' d.now a.now).append work⟩
      rw [rest, tags', List.append_assoc]
      rfl

theorem slicesTags_cons (d : Dev) (s : Nat × Slice) (ss : List (Nat × Slice)) :
    let a := d.sliceTags h m r s (List.range s.2.tiles.length)
    d.slicesTags h m r (s :: ss) = ((a.1.slicesTags h m r ss).1, a.2 ++ (a.1.slicesTags h m r ss).2) := rfl

/-- The tags of all slices of a layer do their work. -/
theorem slicesTags_work (ss : List (Nat × Slice)) (d : Dev) (hroom : d.spool.tags.length + (slicesJobs m r ss).length ≤ 4096) :
    ∃ ts, (d.slicesTags h m r ss).1.spool.tags = d.spool.tags ++ ts ∧ TileWork h (slicesJobs m r ss) ts (d.slicesTags h m r ss).2 := by
  induction ss generalizing d with
  | nil => exact ⟨[], (List.append_nil _).symm, TileWork.nil⟩
  | cons s ss ih =>
    have split : slicesJobs m r (s :: ss) = (List.range s.2.tiles.length).flatMap (sliceJobs m r s) ++ slicesJobs m r ss := List.flatMap_cons
    rw [split, List.length_append] at hroom
    rw [split, slicesTags_cons]
    obtain ⟨ts, tags, work⟩ := sliceTags_work (h := h) (m := m) (r := r) s (List.range s.2.tiles.length) d (by omega)
    generalize d.sliceTags h m r s (List.range s.2.tiles.length) = a at tags work
    have len : ts.length = ((List.range s.2.tiles.length).flatMap (sliceJobs m r s)).length := by rw [← work.jobs_eq, List.length_map]
    obtain ⟨us, rest, work'⟩ := ih a.1 (by rw [tags, List.length_append]; omega)
    refine ⟨ts ++ us, ?_, work.append work'⟩
    rw [rest, tags, List.append_assoc]

/-- Tags that carry out descriptors, each after all the moves. -/
structure VectorWork (h : Handle) (xs : List (Nat × Desc)) (ts : List Tag) (moves : List (Fin 4096)) : Prop where
  jobs_eq : ts.map Tag.job = xs.map (fun x => (TagKind.vector, x.1, 0))
  own : ∀ x ∈ ts, ownTag h x
  kind : ∀ x ∈ ts, x.kind = .vector ∧ ∀ n ∈ moves, n ∈ x.deps

/-- The tag of a descriptor. -/
def vectorTag (h : Handle) (m : Model) (r : Run) (x : Nat × Desc) (deps : List (Fin 4096)) : Tag :=
  { m.tag h r .vector with index := x.1, engine := if x.2.engine < 4 then some (Fin.ofNat 4 x.2.engine) else none, deps := deps }

/-- What a descriptor waits for: every MOVE, and the earlier descriptors in its way. -/
def vectorDeps (m : Model) (l : Layer) (moves : List (Fin 4096)) (done : List (Desc × List (Fin 4096))) (x : Nat × Desc) : List (Fin 4096) :=
  moves ++ (done.filter (fun p => m.image.conflict l p.1 x.2)).flatMap (·.2)

theorem vectorTags_cons {d e : Dev} {moves ids : List (Fin 4096)} {done : List (Desc × List (Fin 4096))} {x : Nat × Desc} (xs : List (Nat × Desc))
    (ha : d.runTag (vectorTag h m r x (vectorDeps m l moves done x)) = (e, ids)) :
    d.vectorTags h m r l moves done (x :: xs) = e.vectorTags h m r l moves ((x.2, ids) :: done) xs := by
  simp only [vectorTag, vectorDeps] at ha
  conv_lhs => unfold Dev.vectorTags
  simp only [ha]

/-- The tags of a layer's descriptors. -/
theorem vectorTags_work (moves : List (Fin 4096)) (xs : List (Nat × Desc)) (done : List (Desc × List (Fin 4096))) (d : Dev)
    (hroom : d.spool.tags.length + xs.length ≤ 4096) :
    ∃ ts, (d.vectorTags h m r l moves done xs).spool.tags = d.spool.tags ++ ts ∧ VectorWork h xs ts moves := by
  induction xs generalizing d done with
  | nil =>
    refine ⟨[], ?_, rfl, fun _ hx => absurd hx List.not_mem_nil, fun _ hx => absurd hx List.not_mem_nil⟩
    unfold Dev.vectorTags
    exact (List.append_nil _).symm
  | cons x xs ih =>
    rw [List.length_cons] at hroom
    rw [vectorTags_cons xs Prod.mk.eta.symm]
    have own : (vectorTag h m r x (vectorDeps m l moves done x)).handle = some h := rfl
    have job : ∀ (n : Fin 4096) (now : Time), Tag.job ((vectorTag h m r x (vectorDeps m l moves done x)).created n now) = (.vector, x.1, 0) :=
      fun _ _ => rfl
    have kind : ∀ (n : Fin 4096) (now : Time), ((vectorTag h m r x (vectorDeps m l moves done x)).created n now).kind = .vector ∧
        ∀ k ∈ moves, k ∈ ((vectorTag h m r x (vectorDeps m l moves done x)).created n now).deps :=
      fun _ _ => ⟨rfl, fun _ hk => List.mem_append_left _ hk⟩
    generalize vectorTag h m r x (vectorDeps m l moves done x) = tag at own job kind
    obtain ⟨n, tags, -⟩ := runTag_takes (d := d) tag (by omega)
    generalize d.runTag tag = a at tags ⊢
    obtain ⟨ts, rest, work⟩ := ih ((x.2, a.2) :: done) a.1 (by rw [tags, List.length_append, List.length_singleton]; omega)
    refine ⟨tag.created n d.now :: ts, ?_, ?_, ?_, ?_⟩
    · rw [rest, tags, List.append_assoc, List.singleton_append]
    · rw [List.map_cons, List.map_cons, work.jobs_eq, job]
    · exact List.forall_mem_cons.mpr ⟨created_ownTag _ _ own, work.own⟩
    · exact List.forall_mem_cons.mpr ⟨kind _ _, work.kind⟩

/-! ### The slices of a layer are told apart by their numbers -/

theorem layerSlices_nodup (m : Image) (k : Nat) : ((m.layerSlices k).map (·.1)).Nodup := by
  have numbers : (m.layerSlices k).map (·.1) = (m.slices.zipIdx.filter (fun s => s.1.layer == k)).map Prod.snd := by
    rw [Image.layerSlices, List.map_map]
    rfl
  have all : (m.slices.zipIdx.map Prod.snd).Nodup := by
    rw [List.zipIdx_map_snd]
    exact List.nodup_range'
  rw [numbers]
  exact (List.filter_sublist.map Prod.snd).nodup all

theorem mem_sliceJobs {x : Nat × Slice} {k : Nat} {j : TagKind × Nat × Nat} (hj : j ∈ sliceJobs m r x k) : j.2 = (x.1, k) := by
  unfold sliceJobs at hj
  split at hj
  · obtain rfl | rfl : j = _ ∨ j = _ := by simpa using hj
    · rfl
    · rfl
  · cases hj

theorem sliceJobs_nodup (x : Nat × Slice) (k : Nat) : (sliceJobs m r x k).Nodup := by
  unfold sliceJobs
  split
  · simp
  · exact List.nodup_nil

/-- No two tags of a layer's slices do the same work. -/
theorem slicesJobs_nodup {ss : List (Nat × Slice)} (hs : (ss.map (·.1)).Nodup) : (slicesJobs m r ss).Nodup := by
  refine List.nodup_flatMap.mpr ⟨fun x _ => List.nodup_flatMap.mpr ⟨fun k _ => sliceJobs_nodup x k, ?_⟩, ?_⟩
  · refine List.nodup_range.imp (fun {a b} hab j ha hb => hab ?_)
    exact (Prod.mk.inj ((mem_sliceJobs ha).symm.trans (mem_sliceJobs hb))).2
  · refine (List.pairwise_map.mp hs).imp (fun {a b} hab j ha hb => hab ?_)
    obtain ⟨_, -, ha⟩ := List.mem_flatMap.mp ha
    obtain ⟨_, -, hb⟩ := List.mem_flatMap.mp hb
    exact (Prod.mk.inj ((mem_sliceJobs ha).symm.trans (mem_sliceJobs hb))).1

/-! ### The tags of a layer -/

/-- The slices with work in a layer; a VECTOR layer has none. -/
def workSlices (m : Model) (k : Nat) (l : Layer) : List (Nat × Slice) := if l.vector = true then [] else m.image.layerSlices k

/-- The work of a layer. -/
def layerJobs (m : Model) (r : Run) (l : Layer) : List (TagKind × Nat × Nat) :=
  slicesJobs m r (workSlices m r.layer l) ++ (m.image.layerDescs l).map (fun x => (TagKind.vector, x.1, 0))

/-- Tags do the work of a layer in the order of R481: a MOVE after its PHASES, a VECTOR tag after every MOVE. -/
structure LayerWork (h : Handle) (jobs : List (TagKind × Nat × Nat)) (ts : List Tag) : Prop where
  jobs_eq : ts.map Tag.job = jobs
  own : ∀ x ∈ ts, ownTag h x
  moved : ∀ x ∈ ts, ∀ y ∈ ts, x.kind = .phases → y.kind = .move → x.index = y.index → x.replica = y.replica → y.deps = [x.id]
  vectors : ∀ x ∈ ts, ∀ y ∈ ts, x.kind = .move → y.kind = .vector → x.id ∈ y.deps
  phases : ∀ x ∈ ts, x.kind = .phases → x.deps = []

theorem layerWork_of {jobs : List (TagKind × Nat × Nat)} {xs : List (Nat × Desc)} {ts us : List Tag} {moves : List (Fin 4096)}
    (hj : jobs.Nodup) (ht : TileWork h jobs ts moves) (hv : VectorWork h xs us moves) :
    LayerWork h (jobs ++ xs.map (fun x => (TagKind.vector, x.1, 0))) (ts ++ us) := by
  have tile : ∀ x ∈ ts ++ us, x.kind ≠ .vector → x ∈ ts := fun x hx hk =>
    (List.mem_append.mp hx).resolve_right (fun hx => hk (hv.kind x hx).1)
  have vector : ∀ x ∈ ts ++ us, x.kind = .vector → x ∈ us := fun x hx hk => by
    refine (List.mem_append.mp hx).resolve_left (fun hx => ?_)
    obtain ⟨hp, -⟩ | ⟨hm, -⟩ := ht.kind x hx
    · rw [hk] at hp
      cases hp
    · rw [hk] at hm
      cases hm
  refine ⟨?_, ?_, ?_, ?_, ?_⟩
  · rw [List.map_append, ht.jobs_eq, hv.jobs_eq]
  · exact fun x hx => (List.mem_append.mp hx).elim (ht.own x) (hv.own x)
  · intro x hx y hy hkx hky hi hr
    have hx := tile x hx (by rw [hkx]; decide)
    have hy := tile y hy (by rw [hky]; decide)
    obtain ⟨z, hz, hjob, hdeps⟩ := ht.after y hy hky
    have same : Tag.job x = Tag.job z := by rw [hjob, Tag.job, hkx, hi, hr]
    rw [List.inj_on_of_nodup_map (ht.jobs_eq ▸ hj) hx hz same]
    exact hdeps
  · intro x hx y hy hkx hky
    have hx := tile x hx (by rw [hkx]; decide)
    have hy := vector y hy hky
    obtain ⟨hp, -⟩ | ⟨-, hm⟩ := ht.kind x hx
    · rw [hkx] at hp
      cases hp
    · exact (hv.kind y hy).2 _ hm
  · intro x hx hkx
    obtain ⟨-, hd⟩ | ⟨hm, -⟩ := ht.kind x (tile x hx (by rw [hkx]; decide))
    · exact hd
    · rw [hkx] at hm
      cases hm

/-- A run whose layer is under way. -/
def openedRun (r : Run) : Run := { r with layerOn := true, planned := [], accums := [] }

/-- The device with the tags of the layer's slices, and their MOVE tags. -/
def slicedDev (d : Dev) (h : Handle) (m : Model) (r : Run) (l : Layer) : Dev × List (Fin 4096) :=
  (d.onRun h openedRun).slicesTags h m r (workSlices m r.layer l)

theorem openLayer_eq (d : Dev) : d.openLayer h m r l =
    ((slicedDev d h m r l).1.vectorTags h m r l (slicedDev d h m r l).2 [] (m.image.layerDescs l)).notePeak h := by
  unfold Dev.openLayer slicedDev workSlices
  cases l.vector <;> rfl

/-- A layer opens: its tags are allocated, and its run is under way. -/
theorem openLayer_spec {d : Dev} {mm : Model} (hm : d.models[h] = some mm) (hr : mm.run = some r)
    (hroom : d.spool.tags.length + (layerJobs m r l).length ≤ 4096) :
    let e := d.openLayer h m r l
    e.models = d.models.set h.val (some { mm with run := some { openedRun r with tagsPeak := max r.tagsPeak (e.spool.ofRun h).length } }) ∧
      ∃ ts, e.spool.tags = d.spool.tags ++ ts ∧ LayerWork h (layerJobs m r l) ts := by
  intro e
  have he : e = _ := openLayer_eq d
  have opened := onRun_models hm hr openedRun
  have hroom' : d.spool.tags.length + ((slicesJobs m r (workSlices m r.layer l)).length + (m.image.layerDescs l).length) ≤ 4096 := by
    rw [layerJobs, List.length_append, List.length_map] at hroom
    exact hroom
  obtain ⟨ts, tags, work⟩ := slicesTags_work (h := h) (m := m) (r := r) (workSlices m r.layer l) (d.onRun h openedRun)
    (show d.spool.tags.length + _ ≤ 4096 by omega)
  have sliced : (slicedDev d h m r l).1.models = (d.onRun h openedRun).models := (slicesTags_keeps _ _ _ _ _) .models (by decide)
  have len : ts.length = (slicesJobs m r (workSlices m r.layer l)).length := by rw [← work.jobs_eq, List.length_map]
  have tags : (slicedDev d h m r l).1.spool.tags = d.spool.tags ++ ts := tags
  have work : TileWork h (slicesJobs m r (workSlices m r.layer l)) ts (slicedDev d h m r l).2 := work
  generalize slicedDev d h m r l = a at he sliced tags work
  obtain ⟨us, tags', work'⟩ := vectorTags_work (h := h) (m := m) (r := r) (l := l) a.2 (m.image.layerDescs l) [] a.1
    (by rw [tags, List.length_append]; omega)
  have models : (a.1.vectorTags h m r l a.2 [] (m.image.layerDescs l)).models = _ :=
    ((vectorTags_keeps _ _ _ _ _ _ _ _) .models (by decide)).trans (sliced.trans opened)
  generalize a.1.vectorTags h m r l a.2 [] (m.image.layerDescs l) = b at he tags' models
  have nodup : (slicesJobs m r (workSlices m r.layer l)).Nodup := by
    refine slicesJobs_nodup ?_
    unfold workSlices
    split
    · exact List.nodup_nil
    · exact layerSlices_nodup _ _
  refine ⟨?_, ts ++ us, ?_, layerWork_of nodup work work'⟩
  · have spool : e.spool = b.spool := by rw [he]; rfl
    rw [spool, he, Dev.notePeak, onRun_models (models_set_same models) rfl, models, Vector.set_set]
    rfl
  · rw [he]
    show b.spool.tags = _
    rw [tags', tags, List.append_assoc]

end
end Sys2Proof.Proofs

namespace Sys2Proof.Proofs
open Machine Laws

/-! ## LAYER_START (R330, R333, R430, R480) -/

section
variable {d : Dev} {h : Handle} {m : Model} {r : Run} {l : Layer}

/-- A run that has noted the passes of its reload plan. -/
def passNoted (r : Run) : Run := { r with passTaken := max r.passTaken r.passDone }

/-- The device once the busy policy has judged the layer. -/
def policyDone (d : Dev) (h : Handle) (m : Model) (r : Run) : Dev :=
  (d.onRun h (fun _ => passNoted r)).applyPolicy h m r.layer (d.layerState r)

/-- The layer opens unless its run waits or has ended. -/
def opensUnless (d : Dev) (h : Handle) (m : Model) (l : Layer) : Dev :=
  match d.model h with
  | some { run := some r, .. } => if r.waitFor then d else d.openLayer h m r l
  | _ => d

theorem opensUnless_run {mm : Model} (hm : d.models[h] = some mm) (hr : mm.run = some r) :
    opensUnless d h m l = if r.waitFor then d else d.openLayer h m r l := by
  have hm : d.model h = some mm := hm
  unfold opensUnless
  cases mm
  subst hr
  simp only [hm]

theorem opensUnless_ended {mm : Model} (hm : d.models[h] = some mm) (hr : mm.run = none) : opensUnless d h m l = d := by
  have hm : d.model h = some mm := hm
  unfold opensUnless
  cases mm
  subst hr
  simp only [hm]

theorem layerStart_judged (hl : m.image.layers[r.layer]? = some l) (hon : r.layerOn = false ∧ r.gathered = true ∧ r.finished = false)
    (hd : d.now < r.deadline) (hn : m.image.reload = none ∧ d.reloading h r = false) :
    d.layerStart h m r = opensUnless (policyDone d h m r) h m l := by
  have goes : (r.layerOn || !r.gathered || r.finished || decide (r.deadline ≤ d.now)) = false := by
    simp [hon.1, hon.2.1, hon.2.2, Nat.not_le.mpr hd]
  have pass : m.statesAfterPass r d.foundState = [] := by
    unfold Model.statesAfterPass
    simp only [hn.1]
  unfold Dev.layerStart
  simp only [hl, goes, hn.1, hn.2, pass, List.append_nil, Option.isSome_none, Bool.false_and, Bool.false_eq_true, if_false]
  rfl

end

section
variable {s : State} {t : Time} {h : Handle} {m : Model} {r : Run} {l : Layer}

theorem layerStart_exec (hm : s.dev.models[h] = some m) (hr : m.run = some r) :
    exec (.layerStart t h) s = .next { s with dev := (here s t).layerStart h m r } := by
  have hm : (s.dev.tick t).model h = some m := hm
  show execLayerStart t h s = _
  unfold execLayerStart onDev
  simp only [hm, hr]
  rfl

/-- The run with its passes noted, in place. -/
theorem passNoted_models (hm : s.dev.models[h] = some m) (hr : m.run = some r) :
    ((here s t).onRun h (fun _ => passNoted r)).models = s.dev.models.set h.val (some { m with run := some (passNoted r) }) :=
  onRun_models (d := here s t) hm hr _

/-- What the policy says of a layer; a VECTOR layer has none. -/
def layerPolicy (d : Dev) (m : Model) (r : Run) (l : Layer) : Busy :=
  if l.vector = true then Busy.go r.usable else m.policy r.layer (d.layerState r)

/-- The states of the tiles of a run that goes on: those of a layer that has waited are taken as they are found. -/
def seenStates (d : Dev) (m : Model) (r : Run) (l : Layer) : List (Fin 48 × TileState) :=
  if r.waitFor = true ∧ l.vector = false then r.states ++ (m.layerTiles r.layer).map (fun i => (i, d.layerState r i)) else r.states

/-- A run whose layer may go on with the replicas `us`. -/
def goingRun (d : Dev) (m : Model) (r : Run) (l : Layer) (us : List Nat) : Run :=
  { passNoted r with usable := us, waitFor := false, states := seenStates d m r l }

theorem policyDone_goes {us : List Nat} (hm : s.dev.models[h] = some m) (hr : m.run = some r) (hl : m.image.layers[r.layer]? = some l)
    (hv : l.vector = true → r.waitFor = false) (hp : layerPolicy (here s t) m r l = .go us) :
    Keeps [.models] (here s t) (policyDone (here s t) h m r) ∧ (policyDone (here s t) h m r).models =
      s.dev.models.set h.val (some { m with run := some (goingRun (here s t) m r l us) }) := by
  have noted := passNoted_models (t := t) hm hr
  cases hvec : l.vector with
  | true =>
    have hwait := hv hvec
    have husable : r.usable = us := by simpa [layerPolicy, hvec] using hp
    have same : goingRun (here s t) m r l us = passNoted r := by
      rw [goingRun, seenStates, hvec, if_neg (by simp), ← husable, ← hwait]
      rfl
    rw [policyDone, applyPolicy_vector hl hvec, same]
    exact ⟨onRun_keeps _ _ _, noted⟩
  | false =>
    have hpol : m.policy r.layer ((here s t).layerState r) = .go us := by simpa [layerPolicy, hvec] using hp
    rw [policyDone, applyPolicy_of_go hl hvec hpol]
    refine ⟨Keeps.andThen (onRun_keeps _ _ _) (by decide) (onRun_keeps _ _ _), ?_⟩
    rw [onRun_models (models_set_same noted) rfl, noted, Vector.set_set, goingRun, seenStates, hvec]
    simp only [and_true]
    rfl

/-- A layer that may go on opens. -/
theorem layerStart_opens {us : List Nat} (hm : s.dev.models[h] = some m) (hr : m.run = some r) (hl : m.image.layers[r.layer]? = some l)
    (hon : r.layerOn = false ∧ r.gathered = true ∧ r.finished = false) (hd : instant s t < r.deadline)
    (hn : m.image.reload = none ∧ (here s t).reloading h r = false) (hv : l.vector = true → r.waitFor = false)
    (hp : layerPolicy (here s t) m r l = .go us)
    (hroom : s.dev.spool.tags.length + (layerJobs m (goingRun (here s t) m r l us) l).length ≤ 4096) :
    Does (.layerStart t h) s t [.models, .spool] (fun d =>
      d.models = s.dev.models.set h.val (some { m with
        run := some { openedRun (goingRun (here s t) m r l us) with tagsPeak := max r.tagsPeak (d.spool.ofRun h).length } }) ∧
      ∃ ts, d.spool.tags = s.dev.spool.tags ++ ts ∧ LayerWork h (layerJobs m (goingRun (here s t) m r l us) l) ts) := by
  have run := layerStart_exec (t := t) hm hr
  obtain ⟨frame, models⟩ := policyDone_goes hm hr hl hv hp
  rw [layerStart_judged (d := here s t) hl hon hd hn] at run
  generalize policyDone (here s t) h m r = e at run frame models
  have hm' : e.models[h] = some _ := models_set_same models
  have spool : e.spool = s.dev.spool := frame .spool (by decide)
  rw [opensUnless_run hm' rfl] at run
  have goes : (goingRun (here s t) m r l us).waitFor = false := rfl
  rw [goes, if_neg (by decide)] at run
  obtain ⟨opened, work⟩ := openLayer_spec (m := m) (l := l) hm' rfl (by rw [spool]; exact hroom)
  rw [models, Vector.set_set] at opened
  rw [spool] at work
  exact does_of run (Keeps.andThen (openLayer_keeps _ _ _ _ _) (by decide) (Keeps.mono frame (by decide))) ⟨opened, work⟩

/-- Under WAIT the run waits for a tile of the layer (R333). -/
theorem layerStart_waits (hm : s.dev.models[h] = some m) (hr : m.run = some r) (hl : m.image.layers[r.layer]? = some l)
    (hon : r.layerOn = false ∧ r.gathered = true ∧ r.finished = false) (hd : instant s t < r.deadline)
    (hn : m.image.reload = none ∧ (here s t).reloading h r = false) (hv : l.vector = false)
    (hp : m.policy r.layer ((here s t).layerState r) = .wait) :
    Does (.layerStart t h) s t [.models] (fun d =>
      d.models = s.dev.models.set h.val (some { m with run := some { r with waitFor := true, passTaken := max r.passTaken r.passDone } })) := by
  have run := layerStart_exec (t := t) hm hr
  have noted := passNoted_models (t := t) hm hr
  rw [layerStart_judged (d := here s t) hl hon hd hn, policyDone, applyPolicy_of_wait hl hv hp] at run
  have models := onRun_models (models_set_same noted) rfl (fun r => { r with waitFor := true })
  rw [noted, Vector.set_set] at models
  have frame : Keeps [.models] (here s t) (((here s t).onRun h (fun _ => passNoted r)).onRun h (fun r => { r with waitFor := true })) :=
    Keeps.andThen (onRun_keeps _ _ _) (by decide) (onRun_keeps _ _ _)
  generalize ((here s t).onRun h (fun _ => passNoted r)).onRun h (fun r => { r with waitFor := true }) = e at run models frame
  rw [opensUnless_run (models_set_same models) rfl, if_pos rfl] at run
  exact does_of run frame models

/-- A policy that stops the run ends it with E_TILE_BUSY (R333). -/
theorem layerStart_stops (hm : s.dev.models[h] = some m) (hr : m.run = some r) (hl : m.image.layers[r.layer]? = some l)
    (hon : r.layerOn = false ∧ r.gathered = true ∧ r.finished = false) (hd : instant s t < r.deadline)
    (hn : m.image.reload = none ∧ (here s t).reloading h r = false) (hv : l.vector = false)
    (hp : m.policy r.layer ((here s t).layerState r) = .stop) (hu : m.learn = none ∧ r.seamFailed = []) :
    Does (.layerStart t h) s t [.host, .tiles, .models, .spool, .sram] (fun d =>
      d.models = s.dev.models.set h.val (some { m with
        run := none, leaving := m.leaving ++ (here s t).phasesLeft r, lastResult := Err.tileBusy.code, update := m.update + 2,
        runsEarly := m.runsEarly + 1 }) ∧
      d.spool.ofRun h = [] ∧ UnchangedOutside s.dev.sram d.sram (0x70000 + 0x400 * h.val) 320 ∧
      d.host = (endNotice (here s t) h m r .tileBusy).host) := by
  have run := layerStart_exec (t := t) hm hr
  have noted := passNoted_models (t := t) hm hr
  have frame : Keeps [.models] (here s t) ((here s t).onRun h (fun _ => passNoted r)) := onRun_keeps _ _ _
  rw [layerStart_judged (d := here s t) hl hon hd hn, policyDone, applyPolicy_of_stop hl hv hp] at run
  generalize (here s t).onRun h (fun _ => passNoted r) = e at run noted frame
  have hm' : e.models[h] = some { m with run := some (passNoted r) } := models_set_same noted
  have early : (Err.tileBusy == .ok) = false := by decide
  rw [endRun_unlearned hm' rfl hu.1, endWake_early early] at run
  obtain ⟨models, -, out, ofRun, host, -⟩ := endedDev_early (r := passNoted r) hm' hu.2 early
  rw [noted, Vector.set_set] at models
  rw [opensUnless_ended (models_set_same models) rfl] at run
  refine does_of run (Keeps.andThen endedDev_keeps (by decide) (Keeps.mono frame (by decide))) ⟨?_, ofRun, ?_, ?_⟩
  · rw [models, phasesLeft_congr (e := here s t) (congrArg Spool.tags (frame .spool (by decide)))]
    rfl
  · rw [show e.sram = s.dev.sram from frame .sram (by decide)] at out
    exact out
  · rw [host]
    exact endNotice_host_congr (frame .host (by decide)) (frame .clk (by decide))

/-- A pass that has not begun begins before its layer: its entries wait to be read from QSPI (R430, R432). -/
theorem layerStart_passes {p : Reload} (hm : s.dev.models[h] = some m) (hr : m.run = some r) (hl : m.image.layers[r.layer]? = some l)
    (hon : r.layerOn = false ∧ r.gathered = true ∧ r.finished = false) (hd : instant s t < r.deadline)
    (hn : m.image.reload = some p ∧ p.qspi = true) (hp : r.passDone ≤ l.pass) (hq : (here s t).reloading h r = false) :
    Does (.layerStart t h) s t [.models] (fun d => d.models = s.dev.models.set h.val
      (some { m with run := some { r with passDone := l.pass + 1, reloadQueue := (p.passes[l.pass]?).getD [] } })) := by
  have run := layerStart_exec (t := t) hm hr
  have late : decide (r.deadline ≤ (here s t).now) = false := decide_eq_false (Nat.not_le.mpr hd)
  have begun : (here s t).layerStart h m r = ((here s t).onRun h (fun r => { r with passDone := l.pass + 1 })).onRun h
      (fun r => { r with reloadQueue := (p.passes[l.pass]?).getD [] }) := by
    unfold Dev.layerStart
    simp only [hl, hon.1, hon.2.1, hon.2.2, late, hn.1, hp, hq, Dev.beginPass, hn.2, Option.isSome_some, Bool.not_true, Bool.not_false, Bool.or_self,
      Bool.false_eq_true, if_false, if_true, decide_true, Bool.and_self]
  have taken := onRun_models (d := here s t) hm hr (fun r => { r with passDone := l.pass + 1 })
  rw [begun] at run
  refine does_of run (Keeps.andThen (onRun_keeps _ _ _) (by decide) (onRun_keeps _ _ _)) ?_
  rw [onRun_models (models_set_same taken) rfl, taken, Vector.set_set]
  rfl

/-- A layer under way, or a run that has not gathered, has finished or is late, starts no layer. -/
theorem layerStart_nothing (hm : s.dev.models[h] = some m) (hr : m.run = some r) (hl : m.image.layers[r.layer]? = some l)
    (hn : r.layerOn = true ∨ r.gathered = false ∨ r.finished = true ∨ r.deadline ≤ instant s t) :
    Does (.layerStart t h) s t [] (fun _ => True) := by
  have stays : (r.layerOn || !r.gathered || r.finished || decide (r.deadline ≤ (here s t).now)) = true := by
    have hn : r.layerOn = true ∨ r.gathered = false ∨ r.finished = true ∨ r.deadline ≤ (here s t).now := hn
    simpa [or_assoc] using hn
  refine does_nothing ((layerStart_exec hm hr).trans ?_)
  unfold Dev.layerStart
  simp only [hl, stays, if_true]

end
end Sys2Proof.Proofs

namespace Sys2Proof.Proofs
open Machine Laws

/-! ## TAG_DISPATCH to a press engine (R345, R354, R359, R362, R395) -/

/-- The tag that has just been allocated is issued; those before it have other numbers and stay. -/
theorem onTag_last {p : Spool} {old : List Tag} {n : Fin 4096} {u : Tag} (f : Tag → Tag) (hp : p.tags = old ++ [u]) (hu : u.id = n)
    (hn : ∀ v ∈ old, v.id ≠ n) : (p.onTag n f).tags = old ++ [f u] := by
  have stay : old.map (fun v => if v.id == n then f v else v) = old := by
    rw [List.map_congr_left (g := id) (fun v hv => by simp [hn v hv]), List.map_id]
  rw [Spool.onTag]
  simp only [hp, List.map_append, stay, List.map_cons, List.map_nil, hu, BEq.rfl, if_true]

section
variable {d : Dev} {s : State} {t : Time} {i : Fin 48} {g : Fin 8} {op : PressOp} {row : Nat} {rest : List Nat}

/-- What a row costs: nothing where its first verify read finds every cell in tolerance (R354). -/
def rowCharge (d : Dev) (x : Tile) (op : PressOp) (row : Nat) : Nat := if x.outCells op row = [] then 0 else d.w16

/-- A tile whose next row is in flight. -/
def pressedTile (d : Dev) (x : Tile) (op : PressOp) (row : Nat) (tag : Fin 4096) : Tile :=
  { x with counter := x.counter + rowCharge d x op row,
           op := some { op with inFlight := some { row := row, tag := tag, start := d.now, outs := x.outCells op row },
                                units := op.units + rowCharge d x op row } }

/-- A press engine may take a row of this tile. -/
structure PressReady (d : Dev) (g : Fin 8) (i : Fin 48) (op : PressOp) : Prop where
  runs : d.pressing = true
  supplied : d.pwr.vddpOk = true
  waiting : d.rowWaiting g.val = some i
  free : d.spool.unitFree (.press g) = true
  operation : (d.tiles[i]).op = some op

/-- The run of a RELOAD notes how many of its tags are in flight. -/
def reloadNoted (d : Dev) (op : PressOp) : Dev :=
  match op.kind, op.handle with
  | .reload, some h => d.notePeak h
  | _, _ => d

theorem reloadNoted_keeps (d : Dev) (op : PressOp) : Keeps [.models] d (reloadNoted d op) := by
  unfold reloadNoted
  split
  · exact notePeak_keeps _ _
  · exact Keeps.refl _ _

theorem reloadNoted_other {k : Handle} (d : Dev) (hk : op.kind ≠ .reload ∨ op.handle ≠ some k) : (reloadNoted d op).models[k] = d.models[k] := by
  unfold reloadNoted
  split
  next h hkind hhandle =>
    refine onRun_model_other d (fun heq => ?_) _
    obtain hk | hk := hk
    · exact hk hkind
    · exact hk (hhandle.trans (congrArg some heq.symm))
  · rfl

/-- The Spool with the tag of a row issued. -/
def rowIssued (d : Dev) (i : Fin 48) (op : PressOp) (n : Fin 4096) : Spool :=
  (d.spool.alloc d.now (op.tagFor i)).1.onTag n (fun u => { u with status := .issued })

theorem dispatchPress_row {n : Fin 4096} (hr : PressReady d g i op) (hrows : op.rows = row :: rest) (hb : (d.tiles[i]).counter < 1638400000)
    (hrec : d.recorded i d.tiles[i] = true ∧ d.tagAvailable op = true) (hn : (d.spool.alloc d.now (op.tagFor i)).2 = some n) :
    d.dispatchPress g.val =
      reloadNoted ((d.onSpool (fun _ => rowIssued d i op n)).onTiles (fun v => v.set i.val (pressedTile d d.tiles[i] op row n))) op := by
  have budget : ¬ enduranceBudget ≤ (d.tiles[i]).counter := Nat.not_le.mpr hb
  have group : Fin.ofNat 8 g.val = g := Fin.ext (Nat.mod_eq_of_lt g.isLt)
  obtain ⟨p, hp⟩ : ∃ p, d.spool.alloc d.now (op.tagFor i) = (p, some n) := by
    generalize d.spool.alloc d.now (op.tagFor i) = a at hn
    exact ⟨a.1, Prod.ext rfl hn⟩
  have issued : p.onTag n (fun u => { u with status := .issued }) = rowIssued d i op n := by rw [rowIssued, hp]
  have weight : ∀ f : Spool → Spool, (d.onSpool f).w16 = d.w16 := fun _ => rfl
  have now : ∀ f : Spool → Spool, (d.onSpool f).now = d.now := fun _ => rfl
  have charge : (if (d.tiles[i].outCells op row).isEmpty = true then 0 else d.w16) = rowCharge d d.tiles[i] op row := by
    simp only [rowCharge, List.isEmpty_iff]
  have pressed : ∀ p : Spool, (d.onSpool (fun _ => p)).onTile i (fun x => { x with
      counter := x.counter + rowCharge d d.tiles[i] op row,
      op := x.op.map (fun o => { o with
        inFlight := some { row := row, tag := n, start := d.now, outs := d.tiles[i].outCells op row },
        units := o.units + rowCharge d d.tiles[i] op row }) }) =
      (d.onSpool (fun _ => p)).onTiles (fun v => v.set i.val (pressedTile d d.tiles[i] op row n)) := fun p => by
    have tiles : upd d.tiles i (fun x => { x with
        counter := x.counter + rowCharge d d.tiles[i] op row,
        op := x.op.map (fun o => { o with
          inFlight := some { row := row, tag := n, start := d.now, outs := d.tiles[i].outCells op row },
          units := o.units + rowCharge d d.tiles[i] op row }) }) = d.tiles.set i.val (pressedTile d d.tiles[i] op row n) := by
      rw [upd_eq_set, hr.operation]
      rfl
    exact congrArg (fun v => (d.onSpool (fun _ => p)).onTiles (fun _ => v)) tiles
  unfold Dev.dispatchPress
  simp only [hr.waiting, hr.operation, hr.runs, hr.supplied, group, hr.free, budget, hrec.1, hrec.2, hrows, hp, issued, weight, now, charge, pressed,
    Bool.not_true, Bool.or_self, Bool.false_eq_true, if_false]
  rfl

theorem tagDispatch_press_exec (hh : s.dev.pwr.halted = false) :
    exec (.tagDispatch t (.press g)) s = .next { s with dev := (here s t).dispatchPress g.val } := by
  have hh : (s.dev.tick t).pwr.halted = false := hh
  show execTagDispatch t (.press g) s = _
  unfold execTagDispatch onDev
  simp only [hh, Bool.false_eq_true, if_false, here]

theorem pressing_of (hp : s.dev.pwr.state = .active ∨ s.dev.pwr.state = .boot) : (here s t).pressing = true := by
  unfold Dev.pressing
  have state : (here s t).pwr.state = s.dev.pwr.state := rfl
  obtain hp | hp := hp
  · rw [state, hp]
    rfl
  · rw [state, hp]
    rfl

/-- A press engine takes the next row of its group. -/
theorem tagDispatch_row (hpow : s.dev.pwr.halted = false ∧ s.dev.pwr.vddpOk = true) (hp : s.dev.pwr.state = .active ∨ s.dev.pwr.state = .boot)
    (hw : (here s t).rowWaiting g.val = some i) (hfree : s.dev.spool.unitFree (.press g) = true)
    (hop : (s.dev.tiles[i]).op = some op ∧ op.rows = row :: rest)
    (hb : (s.dev.tiles[i]).counter < 1638400000 ∧ (here s t).recorded i s.dev.tiles[i] = true ∧ (here s t).tagAvailable op = true)
    (hroom : s.dev.spool.tags.length < 4096) :
    Does (.tagDispatch t (.press g)) s t [.tiles, .models, .spool] (fun d => ∃ u : Tag,
      d.spool.tags = s.dev.spool.tags ++ [u] ∧ u.kind = .press ∧ u.tile = some i ∧ u.status = .issued ∧
      d.tiles = s.dev.tiles.set i.val (pressedTile (here s t) s.dev.tiles[i] op row u.id) ∧
      ∀ k : Handle, op.kind ≠ .reload ∨ op.handle ≠ some k → d.models[k] = s.dev.models[k]) := by
  obtain ⟨n, fresh, hn, tags⟩ := alloc_takes (p := (here s t).spool) (here s t).now (op.tagFor i) hroom
  have run := tagDispatch_press_exec (t := t) (g := g) hpow.1
  have ready : PressReady (here s t) g i op := ⟨pressing_of hp, hpow.2, hw, hfree, hop.1⟩
  rw [dispatchPress_row ready hop.2 hb.1 hb.2 hn] at run
  have frame : Keeps [.tiles, .spool] (here s t) (((here s t).onSpool (fun _ => rowIssued (here s t) i op n)).onTiles
      (fun v => v.set i.val (pressedTile (here s t) (here s t).tiles[i] op row n))) :=
    Keeps.andThen (onTiles_keeps _ _) (by decide) (Keeps.mono (onSpool_keeps _ _) (by decide))
  have noted := reloadNoted_keeps (((here s t).onSpool (fun _ => rowIssued (here s t) i op n)).onTiles
    (fun v => v.set i.val (pressedTile (here s t) (here s t).tiles[i] op row n))) op
  have issued := onTag_last (fun u => { u with status := .issued }) tags rfl fresh
  refine does_of run (Keeps.andThen noted (by decide) (Keeps.mono frame (by decide)))
    ⟨{ (op.tagFor i).created n (here s t).now with status := .issued }, ?_, rfl, rfl, rfl, ?_, fun k hk => ?_⟩
  · rw [noted .spool (by decide)]
    exact issued
  · rw [noted .tiles (by decide)]
    rfl
  · rw [reloadNoted_other _ hk]
    rfl

/-- At the endurance budget the operation presses no more rows and closes (R358, R359). -/
theorem tagDispatch_worn (hpow : s.dev.pwr.halted = false ∧ s.dev.pwr.vddpOk = true) (hp : s.dev.pwr.state = .active ∨ s.dev.pwr.state = .boot)
    (hw : (here s t).rowWaiting g.val = some i) (hfree : s.dev.spool.unitFree (.press g) = true)
    (hop : (s.dev.tiles[i]).op = some op ∧ op.inspects = false) (hb : 1638400000 ≤ (s.dev.tiles[i]).counter) :
    Does (.tagDispatch t (.press g)) s t [.tiles] (fun d =>
      d.tiles = s.dev.tiles.set i.val { s.dev.tiles[i] with op := some { op with
        rows := [], darned := op.darned.filter (fun e => !op.darnQueue.contains e.1), darnQueue := [], step := .closing, stopped := true } }) := by
  have ready : PressReady (here s t) g i op := ⟨pressing_of hp, hpow.2, hw, hfree, hop.1⟩
  have budget : enduranceBudget ≤ ((here s t).tiles[i]).counter := hb
  have group : Fin.ofNat 8 g.val = g := Fin.ext (Nat.mod_eq_of_lt g.isLt)
  have stopped : (here s t).dispatchPress g.val = (here s t).onOp i PressOp.stop := by
    unfold Dev.dispatchPress
    simp only [ready.waiting, ready.operation, ready.runs, ready.supplied, group, ready.free, budget, hop.2, Bool.not_true, Bool.or_self,
      Bool.false_eq_true, if_false, if_true]
  refine does_of (tagDispatch_press_exec hpow.1) ?_ ?_
  · rw [stopped]
    exact onOp_keeps _ _ _
  · rw [stopped, Dev.onOp, onTile_tiles, ready.operation]
    rfl

end
end Sys2Proof.Proofs

namespace Sys2Proof.Proofs
open Machine Laws

/-! ## The end of a layer (R480) -/

section
variable {d : Dev} {h : Handle} {m : Model} {r : Run}

/-- A run whose layer has ended. -/
def nextLayer (last : Bool) (r : Run) : Run :=
  { r with layer := r.layer + 1, layerOn := false, usable := [], planned := [], accums := [], finished := last }

/-- Is the layer in progress the last of the model? -/
def lastLayer (m : Model) (r : Run) : Bool := decide (m.image.layers.length ≤ r.layer + 1)

/-- Does the tag belong to a layer's work? -/
def layerTag (x : Tag) : Bool := x.kind == .phases || x.kind == .move || x.kind == .vector

/-- The device once the layer in progress has ended. -/
def layerEnded (d : Dev) (h : Handle) (m : Model) (r : Run) : Dev := d.onRun h (nextLayer (lastLayer m r))

/-- The same with the LEARN tag allocated. -/
def learnTagged (d : Dev) (h : Handle) (m : Model) (r : Run) : Dev := (((layerEnded d h m r).runTag (m.tag h r .learn)).1).notePeak h

theorem layerEnds_eq (hm : d.models[h] = some m) (hr : m.run = some r) : d.layerEnds h =
    if (!r.layerOn || (d.spool.ofRun h).any layerTag) = true then d
    else if (lastLayer m r && m.learn.isSome) = true then learnTagged d h m r else layerEnded d h m r := by
  have hm : d.model h = some m := hm
  unfold Dev.layerEnds
  simp only [hm, hr]
  rfl

theorem layerEnds_idle (hm : (d.models[h]).bind (·.run) = none) : d.layerEnds h = d := by
  have hm : (d.model h).bind (·.run) = none := hm
  unfold Dev.layerEnds
  cases h1 : d.model h with
  | none => rfl
  | some m =>
    have h2 : m.run = none := by simpa [h1] using hm
    simp only [h2]

theorem layerEnded_models (hm : d.models[h] = some m) (hr : m.run = some r) :
    (layerEnded d h m r).models = d.models.set h.val (some { m with run := some (nextLayer (lastLayer m r) r) }) := onRun_models hm hr _

theorem runTag_models (t : Tag) : (d.runTag t).1.models = d.models := (runTag_keeps d t) .models (by decide)

theorem learnTagged_spool : (learnTagged d h m r).spool = ((layerEnded d h m r).runTag (m.tag h r .learn)).1.spool :=
  (notePeak_keeps _ _) .spool (by decide)

theorem learnTagged_models (hm : d.models[h] = some m) (hr : m.run = some r) : ∃ peak, (learnTagged d h m r).models =
    d.models.set h.val (some { m with run := some { nextLayer (lastLayer m r) r with tagsPeak := peak } }) := by
  have ended := layerEnded_models hm hr
  rw [learnTagged, Dev.notePeak, onRun_models (models_set_same ((runTag_models _).trans ended)) rfl, runTag_models, ended, Vector.set_set]
  exact ⟨_, rfl⟩

/-- What a descriptor leaves in its run. -/
def sameResults (x y : Run) : Prop :=
  y.verdict = x.verdict ∧ y.novelty = x.novelty ∧ y.baseShadow = x.baseShadow ∧ y.headShadow = x.headShadow

/-- The end of a layer keeps what the descriptors have left in the run. -/
theorem layerEnds_results (hm : d.models[h] = some m) : ∃ m', (d.layerEnds h).models[h] = some m' ∧ m'.run.isSome = m.run.isSome ∧
    ∀ r, m.run = some r → ∀ r', m'.run = some r' → sameResults r r' := by
  cases hr : m.run with
  | none =>
    rw [layerEnds_idle (by rw [hm]; exact hr)]
    exact ⟨m, hm, by rw [hr], fun r h0 => nomatch h0⟩
  | some r =>
    rw [layerEnds_eq hm hr]
    split
    · refine ⟨m, hm, by rw [hr], fun x hx y hy => ?_⟩
      obtain rfl := Option.some.inj hx
      obtain rfl := Option.some.inj (hr.symm.trans hy)
      exact ⟨rfl, rfl, rfl, rfl⟩
    · split
      · obtain ⟨peak, models⟩ := learnTagged_models hm hr
        refine ⟨_, models_set_same models, rfl, fun x hx y hy => ?_⟩
        obtain rfl := Option.some.inj hx
        obtain rfl := Option.some.inj hy
        exact ⟨rfl, rfl, rfl, rfl⟩
      · refine ⟨_, models_set_same (layerEnded_models hm hr), rfl, fun x hx y hy => ?_⟩
        obtain rfl := Option.some.inj hx
        obtain rfl := Option.some.inj hy
        exact ⟨rfl, rfl, rfl, rfl⟩

theorem runTag_engines (t : Tag) : (d.runTag t).1.spool.engines = d.spool.engines := by
  rw [Dev.runTag, onSpool_spool]
  unfold Spool.alloc
  split <;> rfl

theorem runTag_tags (t : Tag) : ∀ u ∈ (d.runTag t).1.spool.tags, u ∈ d.spool.tags ∨ u.kind = t.kind := by
  rw [Dev.runTag, onSpool_spool]
  unfold Spool.alloc
  split
  · exact fun u hu => Or.inl hu
  · intro u hu
    obtain hu | hu := List.mem_append.mp hu
    · exact Or.inl hu
    · exact Or.inr (by rw [List.mem_singleton.mp hu]; rfl)

/-- The end of a layer touches no engine and adds no tag but that of the learning. -/
theorem layerEnds_spool (d : Dev) (h : Handle) : (d.layerEnds h).spool.engines = d.spool.engines ∧
    ∀ u ∈ (d.layerEnds h).spool.tags, u ∈ d.spool.tags ∨ u.kind = .learn := by
  cases hr : (d.models[h]).bind (·.run) with
  | none =>
    rw [layerEnds_idle hr]
    exact ⟨rfl, fun u hu => Or.inl hu⟩
  | some r =>
    obtain ⟨m, hm, hr⟩ := Option.bind_eq_some_iff.mp hr
    rw [layerEnds_eq hm hr]
    split
    · exact ⟨rfl, fun u hu => Or.inl hu⟩
    · split
      · rw [learnTagged_spool]
        exact ⟨runTag_engines (d := layerEnded d h m r) _, runTag_tags (d := layerEnded d h m r) _⟩
      · exact ⟨rfl, fun u hu => Or.inl hu⟩

end

/-! ## LAYER_OUTPUT_READY (R316, R325) -/

section
variable {d : Dev} {s : State} {t : Time} {h : Handle} {m : Model} {r : Run} {l : Layer}

/-- The MOVE tags of a run. -/
def movesOf (p : Spool) (h : Handle) : List Tag := (p.ofRun h).filter (fun u => u.kind == .move)

/-- A run whose layer has its outputs. -/
def outputRun (m : Model) (r : Run) (l : Layer) : Run :=
  { r with saturations := r.saturations + ((m.layerSums r l).filter saturates16).length,
           replicas := (r.replicas ++ List.replicate (r.layer - r.replicas.length) 0).take r.layer ++ [(m.contributing r).length],
           verdictTop := if l.softHead = true then some (topOne (intsOf (int16Bytes (m.layerSums r l)) l.outCount)) else r.verdictTop }

/-- The outputs of a layer are written: to the tile result buffer, and to the output buffer where no descriptor follows. -/
def outputWritten (d : Dev) (m : Model) (r : Run) (l : Layer) : Dev :=
  let e := d.memWrite (m.addrOf 0x202) (int16Bytes (m.layerSums r l))
  if l.descCount = 0 then e.memWrite (m.bufferAddr r.layer) (int16Bytes (m.layerSums r l)) else e

/-- The MOVE tags of the layer have completed. -/
def outputMoved (d : Dev) (h : Handle) (m : Model) (r : Run) (l : Layer) : Dev :=
  ((outputWritten d m r l).onRun h (fun r' => { r' with
    saturations := r'.saturations + ((m.layerSums r l).filter saturates16).length,
    replicas := (r'.replicas ++ List.replicate (r'.layer - r'.replicas.length) 0).take r'.layer ++ [(m.contributing r').length],
    verdictTop := if l.softHead then some (topOne (intsOf (int16Bytes (m.layerSums r l)) l.outCount)) else r'.verdictTop })).retireTags true
      ((movesOf d.spool h).map (·.id))

theorem retire_length_le (p : Spool) (now : Time) (id : Fin 4096) (done : Bool) : (p.retire now id done).tags.length ≤ p.tags.length := by
  unfold Spool.retire
  split
  · exact le_refl _
  · cases done
    · exact List.length_filter_le _ _
    · exact (List.length_map _).trans_le (List.length_filter_le _ _)

/-- A tag in flight that retires makes room. -/
theorem retire_length_lt {p : Spool} {u : Tag} (now : Time) (done : Bool) (hu : u ∈ p.tags) :
    (p.retire now u.id done).tags.length < p.tags.length := by
  have fewer : (p.tags.filter (fun v => v.id != u.id)).length < p.tags.length :=
    List.length_filter_lt_length_iff_exists.mpr ⟨u, hu, by simp⟩
  unfold Spool.retire
  split
  next hnone =>
    have := List.find?_eq_none.mp hnone u hu
    simp at this
  next =>
    cases done
    · exact fewer
    · exact (List.length_map _).trans_lt fewer

theorem retireTags_length_le (done : Bool) (ids : List (Fin 4096)) (d : Dev) :
    (d.retireTags done ids).spool.tags.length ≤ d.spool.tags.length := by
  induction ids generalizing d with
  | nil => exact le_refl _
  | cons i ids ih => exact (ih _).trans (retire_length_le _ _ _ _)

theorem retireTags_length_lt {u : Tag} (done : Bool) (ids : List (Fin 4096)) (hu : u ∈ d.spool.tags) :
    (d.retireTags done (u.id :: ids)).spool.tags.length < d.spool.tags.length :=
  (retireTags_length_le done ids _).trans_lt (retire_length_lt d.now done hu)

/-- Every MOVE of the layer has been issued, and no phase is left. -/
structure AllMoved (p : Spool) (h : Handle) : Prop where
  some_move : movesOf p h ≠ []
  no_phases : (p.ofRun h).all (fun u => u.kind != .phases) = true
  issued : (movesOf p h).all (fun u => u.status == .issued) = true

theorem layerOutput_moves (hv : l.vector = false) (hmoved : AllMoved d.spool h) :
    d.layerOutput h m r l = (outputMoved d h m r l).layerEnds h := by
  have phases : (d.spool.ofRun h).any (fun u => u.kind == .phases) = false := by
    rw [List.any_eq_false]
    intro u hu
    simpa using List.all_eq_true.mp hmoved.no_phases u hu
  have some_move : ((d.spool.ofRun h).filter (fun u => u.kind == .move)).isEmpty = false := by
    rw [List.isEmpty_eq_false_iff]
    exact hmoved.some_move
  have issued : ((d.spool.ofRun h).filter (fun u => u.kind == .move)).any (fun u => u.status != .issued) = false := by
    rw [List.any_eq_false]
    intro u hu
    simpa using List.all_eq_true.mp hmoved.issued u hu
  unfold Dev.layerOutput
  simp only [hv, phases, some_move, issued, Bool.or_self, Bool.false_eq_true, if_false]
  rfl

theorem layerOutputReady_exec (hm : s.dev.models[h] = some m) (hr : m.run = some r) (hl : m.image.layers[r.layer]? = some l) :
    exec (.layerOutputReady t h) s = .next { s with dev := (if r.layerOn then (here s t).layerOutput h m r l else here s t) } := by
  have hm : (s.dev.tick t).model h = some m := hm
  show execLayerOutputReady t h s = _
  unfold execLayerOutputReady onDev
  simp only [hm, hr, hl]
  rfl

theorem int16Bytes_length (vs : List Int) : (int16Bytes vs).length = 2 * vs.length := by
  simp only [int16Bytes, List.length_flatMap, leInt, leBytes_length, List.map_const', List.sum_replicate, smul_eq_mul, Nat.mul_comm]

theorem layerSums_length (m : Model) (r : Run) (l : Layer) : (m.layerSums r l).length = l.outCount := by
  rw [Model.layerSums, List.length_map, List.length_range]

/-- The saturated results lie in the tile result buffer, and in the output buffer where the layer has no descriptor (R316). -/
theorem outputWritten_sram {sram : Sram} (hd : d.sram = sram)
    (ha : m.addrOf 0x202 + 2 * l.outCount ≤ 0x1800000 ∧ m.bufferAddr r.layer + 2 * l.outCount ≤ 0x1800000)
    (hab : m.addrOf 0x202 + 2 * l.outCount ≤ m.bufferAddr r.layer ∨ m.bufferAddr r.layer + 2 * l.outCount ≤ m.addrOf 0x202) :
    let e := (outputWritten d m r l).sram
    let bs := int16Bytes (m.layerSums r l)
    e.bytes (m.addrOf 0x202) (2 * l.outCount) = bs ∧
      (l.descCount = 0 → e.bytes (m.bufferAddr r.layer) (2 * l.outCount) = bs ∧
        UnchangedOutsideBoth sram e (m.addrOf 0x202) (2 * l.outCount) (m.bufferAddr r.layer) (2 * l.outCount)) ∧
      (l.descCount ≠ 0 → UnchangedOutside sram e (m.addrOf 0x202) (2 * l.outCount)) := by
  intro e bs
  have len : bs.length = 2 * l.outCount := by rw [int16Bytes_length, layerSums_length]
  have he : e = if l.descCount = 0 then (sram.setBytes (m.addrOf 0x202) bs).setBytes (m.bufferAddr r.layer) bs
      else sram.setBytes (m.addrOf 0x202) bs := by
    show (outputWritten d m r l).sram = _
    unfold outputWritten
    rw [← hd]
    split <;> rfl
  generalize e = e at he ⊢
  generalize bs = bs at he len ⊢
  generalize m.addrOf 0x202 = a at *
  generalize m.bufferAddr r.layer = b at *
  have own := Sram.bytes_setBytes_same sram a bs (by rw [len]; exact ha.1)
  have out := Sram.unchangedOutside_setBytes sram a bs
  have own' := Sram.bytes_setBytes_same (sram.setBytes a bs) b bs (by rw [len]; exact ha.2)
  have out' := Sram.unchangedOutside_setBytes (sram.setBytes a bs) b bs
  rw [len] at own out own' out'
  by_cases hc : l.descCount = 0
  · rw [if_pos hc] at he
    subst he
    refine ⟨?_, fun _ => ⟨own', fun y hy hy' => ?_⟩, fun h => absurd hc h⟩
    · exact (Sram.bytes_congr (fun y hy hy' => out' y (by omega))).trans own
    · exact (out' y hy').trans (out y hy)
  · rw [if_neg hc] at he
    subst he
    exact ⟨own, fun h => absurd h hc, fun _ => out⟩

theorem outputMoved_models (hm : d.models[h] = some m) (hr : m.run = some r) :
    (outputMoved d h m r l).models = d.models.set h.val (some { m with run := some (outputRun m r l) }) := by
  have written : (outputWritten d m r l).models = d.models := by
    unfold outputWritten
    split <;> rfl
  refine ((retireTags_keeps _ _ _) .models (by decide)).trans ((onRun_models (by rw [written, hm]) hr _).trans ?_)
  rw [written]
  rfl

/-- Once the MOVE tags have completed, the run's tags are of those before and are neither MOVE nor PHASES. -/
theorem outputMoved_tags (hp : (d.spool.ofRun h).all (fun u => u.kind != .phases) = true) :
    ∀ u ∈ (outputMoved d h m r l).spool.ofRun h, u.kind ≠ .move ∧ u.kind ≠ .phases ∧ ∃ v ∈ d.spool.ofRun h, u.kind = v.kind := by
  have written : (outputWritten d m r l).spool.tags = d.spool.tags := by
    unfold outputWritten
    split <;> rfl
  intro u hu
  obtain ⟨hu, hh, ha⟩ := mem_ofRun.mp hu
  obtain ⟨hids, v, hv, hw⟩ := retireTags_from _ hu
  obtain ⟨hid, hk, hh', ha'⟩ : _ ∧ _ ∧ _ ∧ _ := by simpa [Tag.work] using hw
  have mine : v ∈ d.spool.ofRun h := mem_ofRun.mpr ⟨written ▸ hv, hh' ▸ hh, ha' ▸ ha⟩
  refine ⟨fun hmove => hids ?_, fun hphase => ?_, v, mine, hk⟩
  · exact List.mem_map.mpr ⟨v, List.mem_filter.mpr ⟨mine, by simp [← hk, hmove]⟩, hid.symm⟩
  · have := List.all_eq_true.mp hp v mine
    simp [← hk, hphase] at this

theorem outputMoved_room (hmoves : movesOf d.spool h ≠ []) : (outputMoved d h m r l).spool.tags.length < d.spool.tags.length := by
  have written : (outputWritten d m r l).spool.tags = d.spool.tags := by
    unfold outputWritten
    split <;> rfl
  obtain ⟨u, us, hu⟩ := List.exists_cons_of_ne_nil hmoves
  have mem : u ∈ d.spool.tags := by
    have : u ∈ movesOf d.spool h := by rw [hu]; exact List.mem_cons_self
    exact (mem_ofRun.mp (List.mem_filter.mp this).1).1
  unfold outputMoved
  rw [hu, List.map_cons, ← written]
  exact retireTags_length_lt (d := (outputWritten d m r l).onRun h _) true _ (written ▸ mem)

theorem layerOutputReady_writes (hm : s.dev.models[h] = some m) (hr : m.run = some r) (hl : m.image.layers[r.layer]? = some l)
    (hon : r.layerOn = true ∧ l.vector = false ∧ m.learn = none) (hmoved : AllMoved s.dev.spool h)
    (ha : m.addrOf 0x202 + 2 * l.outCount ≤ 0x1800000 ∧ m.bufferAddr r.layer + 2 * l.outCount ≤ 0x1800000)
    (hab : m.addrOf 0x202 + 2 * l.outCount ≤ m.bufferAddr r.layer ∨ m.bufferAddr r.layer + 2 * l.outCount ≤ m.addrOf 0x202) :
    let a := m.addrOf 0x202
    let b := m.bufferAddr r.layer
    let n := 2 * l.outCount
    let bs := int16Bytes (m.layerSums r l)
    Does (.layerOutputReady t h) s t [.models, .spool, .sram] (fun d =>
      d.sram.bytes a n = bs ∧ (l.descCount = 0 → d.sram.bytes b n = bs ∧ UnchangedOutsideBoth s.dev.sram d.sram a n b n) ∧
      (l.descCount ≠ 0 → UnchangedOutside s.dev.sram d.sram a n) ∧ (d.spool.ofRun h).all (fun u => u.kind != .move) = true ∧
      d.models = s.dev.models.set h.val (some { m with
        run := some (if (d.spool.ofRun h).any (fun u => u.kind == .vector) = true then outputRun m r l
          else nextLayer (lastLayer m r) (outputRun m r l)) })) := by
  intro a b n bs
  have run := layerOutputReady_exec (t := t) hm hr hl
  rw [hon.1, if_pos rfl, layerOutput_moves (d := here s t) hon.2.1 hmoved] at run
  have written := outputWritten_sram (d := here s t) (m := m) (r := r) (l := l) rfl ha hab
  have models := outputMoved_models (d := here s t) (l := l) hm hr
  have tags := outputMoved_tags (d := here s t) (m := m) (r := r) (l := l) hmoved.no_phases
  have sram : (outputMoved (here s t) h m r l).sram = (outputWritten (here s t) m r l).sram :=
    ((retireTags_keeps _ _ _) .sram (by decide)).trans ((onRun_keeps _ _ _) .sram (by decide))
  have frame : Keeps [.models, .spool, .sram] (here s t) ((outputMoved (here s t) h m r l).layerEnds h) := by
    rw [← layerOutput_moves (d := here s t) hon.2.1 hmoved]
    exact layerOutput_keeps _ _ _ _ _
  rw [← sram] at written
  generalize outputMoved (here s t) h m r l = e at run models tags frame written
  have layer : (e.spool.ofRun h).any layerTag = (e.spool.ofRun h).any (fun u => u.kind == .vector) := by
    rw [Bool.eq_iff_iff, List.any_eq_true, List.any_eq_true]
    refine exists_congr (fun u => and_congr_right (fun hu => ?_))
    obtain ⟨hmove, hphase, -⟩ := tags u hu
    simp [layerTag, hmove, hphase]
  have moved : (e.spool.ofRun h).all (fun u => u.kind != .move) = true :=
    List.all_eq_true.mpr (fun u hu => by simpa using (tags u hu).1)
  have hm' : e.models[h] = some { m with run := some (outputRun m r l) } := models_set_same models
  have ends := layerEnds_eq hm' rfl
  have on : (outputRun m r l).layerOn = true := hon.1
  have unlearned : ({ m with run := some (outputRun m r l) } : Model).learn.isSome = false := by
    show m.learn.isSome = false
    rw [hon.2.2]
    rfl
  rw [on, layer, unlearned, Bool.and_false, if_neg Bool.false_ne_true, Bool.not_true, Bool.false_or] at ends
  obtain ⟨w1, w2, w3⟩ := written
  cases hvec : (e.spool.ofRun h).any (fun u => u.kind == .vector) with
  | true =>
    rw [hvec, if_pos rfl] at ends
    rw [ends] at run frame
    refine does_of run frame ⟨w1, w2, w3, moved, ?_⟩
    rw [hvec, if_pos rfl]
    exact models
  | false =>
    rw [hvec, if_neg Bool.false_ne_true] at ends
    rw [ends] at run frame
    refine does_of run frame ⟨w1, w2, w3, moved, ?_⟩
    rw [layerEnded_models hm' rfl, models, Vector.set_set]
    show _ = s.dev.models.set h.val (some { m with run := some (if (e.spool.ofRun h).any (fun u => u.kind == .vector) = true then _ else _) })
    rw [hvec, if_neg Bool.false_ne_true]
    rfl

theorem layerOutputReady_nothing (hm : s.dev.models[h] = some m) (hr : m.run = some r) (hl : m.image.layers[r.layer]? = some l)
    (hn : r.layerOn = false ∨ l.vector = true) : Does (.layerOutputReady t h) s t [] (fun _ => True) := by
  refine does_nothing ((layerOutputReady_exec hm hr hl).trans ?_)
  obtain hon | hv := hn
  · rw [hon, if_neg Bool.false_ne_true]
  · have idle : (here s t).layerOutput h m r l = here s t := by
      unfold Dev.layerOutput
      simp only [hv, Bool.true_or, if_true]
    rw [idle, ite_self]

/-- The last layer of a model that learns gives way to the LEARN tag (R480). -/
theorem layerOutputReady_learns (hm : s.dev.models[h] = some m) (hr : m.run = some r) (hl : m.image.layers[r.layer]? = some l)
    (hon : r.layerOn = true ∧ l.vector = false ∧ m.learn ≠ none) (hlast : m.image.layers.length = r.layer + 1)
    (hmoves : movesOf s.dev.spool h ≠ [] ∧ s.dev.spool.ofRun h = movesOf s.dev.spool h ∧
      (movesOf s.dev.spool h).all (fun u => u.status == .issued) = true) (hroom : s.dev.spool.tags.length ≤ 4096) :
    Does (.layerOutputReady t h) s t [.models, .spool, .sram] (fun d => (d.spool.ofRun h).map (·.kind) = [.learn] ∧
      d.models[h].any (fun m' => m'.run.any (fun r' => r'.finished)) = true) := by
  obtain ⟨hsome, hmine, hissued⟩ := hmoves
  have moves : ∀ u ∈ s.dev.spool.ofRun h, u.kind = .move := fun u hu => by
    rw [hmine] at hu
    simpa using (List.mem_filter.mp hu).2
  have hmoved : AllMoved s.dev.spool h := ⟨hsome, List.all_eq_true.mpr (fun u hu => by simp [moves u hu]), hissued⟩
  have run := layerOutputReady_exec (t := t) hm hr hl
  rw [hon.1, if_pos rfl, layerOutput_moves (d := here s t) hon.2.1 hmoved] at run
  have models := outputMoved_models (d := here s t) (l := l) hm hr
  have tags := outputMoved_tags (d := here s t) (m := m) (r := r) (l := l) hmoved.no_phases
  have room := (outputMoved_room (d := here s t) (m := m) (r := r) (l := l) hsome).trans_le hroom
  have frame : Keeps [.models, .spool, .sram] (here s t) ((outputMoved (here s t) h m r l).layerEnds h) := by
    rw [← layerOutput_moves (d := here s t) hon.2.1 hmoved]
    exact layerOutput_keeps _ _ _ _ _
  generalize outputMoved (here s t) h m r l = e at run models tags frame room
  have none_left : e.spool.ofRun h = [] := List.eq_nil_iff_forall_not_mem.mpr (fun u hu => by
    obtain ⟨hmove, -, v, hv, hk⟩ := tags u hu
    exact hmove (hk.trans (moves v hv)))
  have hm' : e.models[h] = some { m with run := some (outputRun m r l) } := models_set_same models
  have ends := layerEnds_eq hm' rfl
  have on : (outputRun m r l).layerOn = true := hon.1
  have last : lastLayer { m with run := some (outputRun m r l) } (outputRun m r l) = true :=
    decide_eq_true (show m.image.layers.length ≤ r.layer + 1 from hlast.le)
  have learns : ({ m with run := some (outputRun m r l) } : Model).learn.isSome = true := Option.isSome_iff_ne_none.mpr hon.2.2
  rw [on, none_left, last, learns, if_neg (by decide), if_pos (by decide)] at ends
  obtain ⟨peak, learned⟩ := learnTagged_models hm' rfl
  obtain ⟨n, allocated, -⟩ := runTag_takes (d := layerEnded e h { m with run := some (outputRun m r l) } (outputRun m r l))
    (Model.tag { m with run := some (outputRun m r l) } h (outputRun m r l) .learn) room
  rw [last] at learned
  rw [ends] at run frame
  refine does_of run frame ⟨?_, ?_⟩
  · rw [Spool.ofRun, learnTagged_spool, allocated, List.filter_append]
    rw [show (layerEnded e h { m with run := some (outputRun m r l) } (outputRun m r l)).spool.tags.filter _ = [] from none_left]
    simp [Tag.created, Model.tag, Tag.of]
  · rw [models_set_same learned]
    rfl

end
end Sys2Proof.Proofs

namespace Sys2Proof.Proofs
open Machine Laws

/-! ## What a descriptor reads (Table 09-10, R458) -/

section
variable {d e : Dev}

theorem operand_congr (hs : d.sram = e.sram) : d.operand = e.operand := by
  funext m r l id n
  simp only [Dev.operand, hs]

/-- A descriptor depends on the device through its memory alone. -/
theorem descriptor_congr (hs : d.sram = e.sram) : d.descriptor = e.descriptor := by
  funext m r l x draw
  have scatter : d.scatter = e.scatter := by
    funext m r l x
    simp only [Dev.scatter, operand_congr hs]
  have stats : d.statsOf = e.statsOf := by
    funext m r l x free
    simp only [Dev.statsOf, operand_congr hs, hs]
  have bytes : d.descBytes = e.descBytes := by
    funext m r l x free
    simp only [Dev.descBytes, operand_congr hs]
  simp only [Dev.descriptor, scatter, stats, bytes, operand_congr hs, hs]

theorem readRanges_congr (hs : d.sram = e.sram) : d.readRanges = e.readRanges := by
  funext m r l x
  simp only [Dev.readRanges, Dev.statsReads, operand_congr hs]

theorem uninit_congr (hs : d.sram = e.sram) : d.uninit = e.uninit := by
  funext a
  simp only [Dev.uninit, hs]

theorem memEngines_sram (d : Dev) (ws : List (Nat × List Byte)) :
    (d.memEngines ws).sram = ws.foldl (fun y w => y.setBytes w.1 w.2) d.sram := by
  induction ws generalizing d with
  | nil => rfl
  | cons w ws ih => exact ih (d.memEngine w.1 w.2)

end

/-! ## What the operand caches leave alone (R498) -/

section
variable {p : Spool}

/-- Two spools with the same tags and the same engines. -/
def SameWork (p q : Spool) : Prop := q.tags = p.tags ∧ q.engines = p.engines

theorem SameWork.trans {p q w : Spool} (h : SameWork p q) (h' : SameWork q w) : SameWork p w := ⟨h'.1.trans h.1, h'.2.trans h.2⟩

theorem makeRoom_sameWork (draw : Nat) (now : Time) (e : Fin 4) (n : Nat) : SameWork p (p.makeRoom draw now e n) := by
  unfold Spool.makeRoom
  dsimp only
  split
  · exact ⟨rfl, rfl⟩
  · split <;> exact ⟨rfl, rfl⟩

theorem request_sameWork (draw : Nat) (now : Time) (e : Fin 4) (n : Nat) (own : Bool) : SameWork p (p.request draw now e n own) := by
  unfold Spool.request
  dsimp only
  split
  · exact ⟨rfl, rfl⟩
  · split <;> exact makeRoom_sameWork draw now e n

theorem requests_sameWork (draw : Nat) (now : Time) (e : Fin 4) (own : Bool) (ns : List Nat) : SameWork p (p.requests draw now e own ns) := by
  induction ns generalizing p draw with
  | nil => exact ⟨rfl, rfl⟩
  | cons n ns ih => exact (request_sameWork draw now e n own).trans (ih (draw + 1))

theorem engineLines_sameWork (d : Dev) (e : Fin 4) (reads writes : List Nat) : SameWork d.spool (d.engineLines e reads writes).spool :=
  (requests_sameWork d.free d.now e false reads).trans (requests_sameWork (d.free + reads.length) d.now e true writes)

theorem retire_engines (now : Time) (id : Fin 4096) (done : Bool) : (p.retire now id done).engines = p.engines := by
  unfold Spool.retire
  split <;> rfl

end

/-! ## DESCRIPTOR_COMPLETE (R422) -/

section
variable {d : Dev} {s : State} {t : Time} {e : Fin 4} {h : Handle} {m : Model} {i k : Nat} {x : Desc} {l : Layer}

/-- A descriptor of a run carried out on the device. -/
def descOut (d : Dev) (m : Model) (l : Layer) (x : Desc) : DescOut := d.descriptor m m.runOr l x d.free

/-- The operand lines of a descriptor are requested and its reads counted. -/
def operandsTaken (d : Dev) (e : Fin 4) (m : Model) (l : Layer) (x : Desc) : Dev :=
  ((d.onFree (· + 1)).engineLines e (linesOf (d.readRanges m m.runOr l x))
    (linesOf ((descOut d m l x).writes.map (fun w => (w.1, w.2.length))))).countReads m m.runOr l x

/-- The device once a descriptor of a run has been carried out. -/
def described (d : Dev) (e : Fin 4) (h : Handle) (m : Model) (l : Layer) (x : Desc) : Dev :=
  ((operandsTaken d e m l x).memEngines (descOut d m l x).writes).onRun h (fun _ => (descOut d m l x).run)

theorem descriptorDone_described (hm : d.models[h] = some m) (hx : m.image.descs[i]? = some x ∧ m.image.descLayer i = some (l, k)) :
    d.descriptorDone e h i false = described d e h m l x := by
  have hm : d.model h = some m := hm
  have drawn : (d.onFree (· + 1)).sram = d.sram := rfl
  unfold Dev.descriptorDone Dev.draw
  simp only [hm, hx.1, hx.2, descriptor_congr drawn, readRanges_congr drawn, Bool.false_eq_true, if_false]
  rfl

theorem engineLines_sram (d : Dev) (e : Fin 4) (reads writes : List Nat) : (d.engineLines e reads writes).sram = d.sram :=
  (engineLines_keeps d e reads writes) .sram (by decide)

theorem operandsTaken_host : (operandsTaken d e m l x).host = withPage d.host m.basket { d.host.pages[m.basket] with
    uninitRead := d.host.pages[m.basket].uninitRead +
      BitVec.ofNat 32 ((linesOf (d.readRanges m m.runOr l x)).filter (fun k => d.uninit (64 * k))).length } := by
  unfold operandsTaken Dev.countReads
  have same := engineLines_sram (d.onFree (· + 1)) e (linesOf (d.readRanges m m.runOr l x))
    (linesOf ((descOut d m l x).writes.map (fun w => (w.1, w.2.length))))
  have host := (engineLines_keeps (d.onFree (· + 1)) e (linesOf (d.readRanges m m.runOr l x))
    (linesOf ((descOut d m l x).writes.map (fun w => (w.1, w.2.length))))) .host (by decide)
  generalize (d.onFree (· + 1)).engineLines e _ _ = f at same host ⊢
  have same : f.sram = d.sram := same
  have host : f.host = d.host := host
  rw [readRanges_congr same, uninit_congr same]
  show ({ f.host with pages := upd f.host.pages m.basket _ } : HostSide) = _
  rw [host, upd_eq_set]
  rfl

theorem operandsTaken_spool : SameWork d.spool (operandsTaken d e m l x).spool :=
  engineLines_sameWork (d.onFree (· + 1)) e _ _

theorem operandsTaken_keeps : Keeps [.host, .spool, .free] d (operandsTaken d e m l x) := by
  unfold operandsTaken
  apply Keeps.andThen (countReads_keeps _ _ _ _ _) (by decide)
  apply Keeps.andThen (engineLines_keeps _ _ _ _) (by decide)
  exact Keeps.mono (onFree_keeps _ _) (by decide)

theorem described_models (hm : d.models[h] = some m) :
    (described d e h m l x).models = d.models.set h.val (some { m with run := m.run.map (fun _ => (descOut d m l x).run) }) := by
  have models : ((operandsTaken d e m l x).memEngines (descOut d m l x).writes).models = d.models :=
    ((memEngines_keeps _ _) .models (by decide)).trans (operandsTaken_keeps .models (by decide))
  rw [described, Dev.onRun, onModel_models (models ▸ hm), models]

theorem described_sram : (described d e h m l x).sram = (descOut d m l x).writes.foldl (fun y w => y.setBytes w.1 w.2) d.sram := by
  have sram : (operandsTaken d e m l x).sram = d.sram := operandsTaken_keeps .sram (by decide)
  refine (memEngines_sram _ _).trans ?_
  rw [sram]

theorem described_host : (described d e h m l x).host = (operandsTaken d e m l x).host :=
  (memEngines_keeps _ _) .host (by decide)

theorem described_spool : SameWork d.spool (described d e h m l x).spool := by
  have spool : (described d e h m l x).spool = (operandsTaken d e m l x).spool := (memEngines_keeps _ _) .spool (by decide)
  rw [spool]
  exact operandsTaken_spool

theorem descriptorComplete_exec {id : Fin 4096} {g : Tag} {start : Time} (hb : s.dev.spool.engines[e].busy = some (h, i, id, start))
    (hh : s.dev.pwr.halted = false) (ht : start < instant s t ∧ instant s t ≤ start + 960 * x.cycles)
    (hg : s.dev.spool.tag id = some g ∧ g.aborting = false) (hm : s.dev.models[h] = some m)
    (hx : m.image.descs[i]? = some x ∧ m.image.descLayer i = some (l, k)) :
    exec (.descriptorComplete t e) s =
      .next { s with dev := (((described (here s t) e h m l x).engineDone e start).retireTags true [id]).layerEnds h } := by
  have hb : (s.dev.tick t).spool.engines[e].busy = some (h, i, id, start) := hb
  have model : (s.dev.tick t).model h = some m := hm
  have hg1 : (s.dev.tick t).spool.tag id = some g := hg.1
  have guard : ¬ ((s.dev.tick t).pwr.halted = true ∨ (s.dev.tick t).now ≤ start ∨
      (start + coreCycles x.cycles < (s.dev.tick t).now ∧ x.cycles ≠ 0)) := by
    have now : (s.dev.tick t).now = instant s t := rfl
    have halted : (s.dev.tick t).pwr.halted = false := hh
    have cycles : coreCycles x.cycles = 960 * x.cycles := rfl
    rw [now, halted, cycles]
    rintro (hf | hle | hlt)
    · cases hf
    · exact absurd hle (Nat.not_le.mpr ht.1)
    · exact absurd hlt.1 (Nat.not_lt.mpr ht.2)
  show execDescriptorComplete t e s = _
  unfold execDescriptorComplete onDev
  simp only [hb, model, Option.bind_some, hx.1, if_neg guard, hg1, hg.2, Bool.not_false, Bool.false_eq_true, if_false,
    descriptorDone_described (d := s.dev.tick t) hm hx]
  rfl

/-- A completed descriptor leaves its results, its counts and a free engine (R422, R497). -/
theorem descriptorComplete_does {id : Fin 4096} {g : Tag} {start : Time} (hb : s.dev.spool.engines[e].busy = some (h, i, id, start))
    (hh : s.dev.pwr.halted = false) (ht : start < instant s t ∧ instant s t ≤ start + 960 * x.cycles)
    (hg : s.dev.spool.tag id = some g ∧ g.aborting = false) (hm : s.dev.models[h] = some m)
    (hx : m.image.descs[i]? = some x ∧ m.image.descLayer i = some (l, k)) :
    let v := s.dev.spool.engines[e]
    let out := (here s t).descriptor m m.runOr l x s.dev.free
    let worked := BitVec.ofNat 64 ((instant s t - start + 959) / 960)
    let reads := ((linesOf ((here s t).readRanges m m.runOr l x)).filter (fun k => (here s t).uninit (64 * k))).length
    let p := s.dev.host.pages[m.basket]
    Does (.descriptorComplete t e) s t [.host, .models, .spool, .sram, .free] (fun d =>
      d.sram = out.writes.foldl (fun y w => y.setBytes w.1 w.2) s.dev.sram ∧
      d.host = withPage s.dev.host m.basket { p with uninitRead := p.uninitRead + BitVec.ofNat 32 reads } ∧
      d.spool.engines = s.dev.spool.engines.set e.val { busy := none, descriptors := v.descriptors + 1, cycles := v.cycles + worked } ∧
      (∀ u ∈ d.spool.tags, u.id = id → u.kind = .learn) ∧
      ∃ m', d.models[h] = some m' ∧ m'.run.isSome = m.run.isSome ∧ ∀ r', m'.run = some r' → sameResults out.run r') := by
  intro v out worked reads p
  have run := descriptorComplete_exec hb hh ht hg hm hx
  have sram := described_sram (d := here s t) (e := e) (h := h) (m := m) (l := l) (x := x)
  have host := (described_host (d := here s t) (e := e) (h := h) (m := m) (l := l) (x := x)).trans operandsTaken_host
  have models := described_models (d := here s t) (e := e) (l := l) (x := x) hm
  have engines := (described_spool (d := here s t) (e := e) (h := h) (m := m) (l := l) (x := x)).2
  have frame : Keeps [.host, .models, .spool, .sram, .free] (here s t) (described (here s t) e h m l x) := by
    rw [← descriptorDone_described (d := here s t) hm hx]
    exact descriptorDone_keeps _ _ _ _ _
  generalize described (here s t) e h m l x = f at run sram host models engines frame
  have now : f.now = instant s t := congrArg (·.now) (frame .clk (by decide))
  have done : Keeps [.spool] f ((f.engineDone e start).retireTags true [id]) :=
    Keeps.andThen (retireTags_keeps _ _ _) (by decide) (engineDone_keeps f e start)
  have freed : ((f.engineDone e start).retireTags true [id]).spool.engines =
      s.dev.spool.engines.set e.val { busy := none, descriptors := v.descriptors + 1, cycles := v.cycles + worked } := by
    refine (retire_engines _ _ _).trans ?_
    rw [Dev.engineDone, onSpool_spool]
    dsimp only
    rw [engines, upd_eq_set, now]
    rfl
  have gone : ∀ u ∈ ((f.engineDone e start).retireTags true [id]).spool.tags, u.id ≠ id := fun u hu heq =>
    (retireTags_from [id] hu).1 (heq ▸ List.mem_singleton_self _)
  generalize (f.engineDone e start).retireTags true [id] = f' at run done freed gone
  have ends := layerEnds_keeps f' h
  obtain ⟨engines', tags'⟩ := layerEnds_spool f' h
  have models' : f'.models[h] = some { m with run := m.run.map (fun _ => out.run) } :=
    models_set_same ((done .models (by decide)).trans models)
  obtain ⟨m', hm', some', results⟩ := layerEnds_results models'
  refine does_of run (Keeps.andThen ends (by decide) (Keeps.andThen done (by decide) frame)) ⟨?_, ?_, ?_, ?_, m', hm', ?_, ?_⟩
  · exact (ends .sram (by decide)).trans ((done .sram (by decide)).trans sram)
  · exact (ends .host (by decide)).trans ((done .host (by decide)).trans host)
  · exact engines'.trans freed
  · exact fun u hu heq => (tags' u hu).resolve_left (fun hold => gone u hold heq)
  · exact some'.trans (by simp)
  · intro r' hr'
    obtain ⟨r, hr⟩ := Option.isSome_iff_exists.mp (some'.symm.trans (by rw [hr']; rfl))
    obtain rfl : out.run = r := by
      have hr : m.run.map (fun _ => out.run) = some r := hr
      obtain ⟨_, -, rfl⟩ := Option.map_eq_some_iff.mp hr
      rfl
    exact results _ hr r' hr'

theorem descriptorComplete_nothing (hb : s.dev.spool.engines[e].busy = none) : Does (.descriptorComplete t e) s t [] (fun _ => True) := by
  have hb : (s.dev.tick t).spool.engines[e].busy = none := hb
  refine does_nothing ?_
  show execDescriptorComplete t e s = _
  unfold execDescriptorComplete onDev
  simp only [hb]
  rfl

end
end Sys2Proof.Proofs

namespace Sys2Proof.Proofs
open Machine Laws

/-! ## ADD over INT16 (Table 09-10, R325) -/

section

/-- Signed word i of a buffer in memory. -/
def bufferWord (d : Dev) (m : Model) (id i : Nat) : Int := signed 16 (d.sram.value (m.addrOf id + 2 * i) 2)

theorem byteAt_bytes (s : Sram) {a n i : Nat} (hi : i < n) : byteAt (s.bytes a n) i = (s.get (a + i)).toNat := by
  induction n generalizing a i with
  | zero => exact absurd hi (Nat.not_lt_zero i)
  | succ n ih =>
    cases i with
    | zero => rfl
    | succ i =>
      refine (ih (a := a + 1) (Nat.lt_of_succ_lt_succ hi)).trans ?_
      rw [Nat.add_right_comm, Nat.add_assoc]

theorem wordsOf_bytes (s : Sram) (a n : Nat) : wordsOf (s.bytes a (2 * n)) n = (List.range n).map (fun i => s.value (a + 2 * i) 2) := by
  refine List.map_congr_left (fun i hi => ?_)
  have hi := List.mem_range.mp hi
  rw [byteAt_bytes s (by omega), byteAt_bytes s (by omega)]
  rfl

/-- An operand in a buffer, read as INT16. -/
theorem intsOf_operand (d : Dev) (m : Model) (r : Run) (l : Layer) {id : Nat} (n : Nat) (hid : id ≠ 0x203) :
    intsOf (d.operand m r l id (2 * n)) n = (List.range n).map (bufferWord d m id) := by
  rw [Dev.operand, if_neg hid, intsOf, wordsOf_bytes, List.map_map]
  rfl

theorem descriptor_add (d : Dev) (m : Model) (r : Run) (l : Layer) {x : Desc} (draw : Nat) (hop : x.op = 3 ∧ x.inFormat = 3)
    (hsrc : x.src ≠ 0x203 ∧ x.src2 ≠ 0x203) : (d.descriptor m r l x draw).writes = [(m.addrOf x.dst,
      (List.range x.count).flatMap (fun i => leInt 2 (clampInt (-32768) 32767 (bufferWord d m x.src i + bufferWord d m x.src2 i))))] := by
  have added : ∀ free, d.descBytes m r l x free =
      int16Bytes (List.zipWith (· + ·) (intsOf (d.operand m r l x.src (2 * x.count)) x.count)
        (intsOf (d.operand m r l x.src2 (2 * x.count)) x.count)) := fun free => by
    simp only [Dev.descBytes, hop.1, hop.2, if_true]
  simp only [Dev.descriptor, hop.1, added, intsOf_operand d m r l x.count hsrc.1, intsOf_operand d m r l x.count hsrc.2,
    List.zipWith_map_left, List.zipWith_map_right, List.zipWith_self, int16Bytes, List.flatMap_map]

end
end Sys2Proof.Proofs

namespace Sys2Proof.Proofs
open Machine Laws

/-! ## The tags of a layer as tests on lists -/

/-- The tests that a layer's tags pass. -/
theorem layerWork_all {h : Handle} {jobs : List (TagKind × Nat × Nat)} {ts : List Tag} (hw : LayerWork h jobs ts) :
    ts.map (fun x => (x.kind, x.index, x.replica)) = jobs ∧
      ts.all (fun x => x.handle == some h && x.status == (if x.deps.isEmpty then .ready else .allocated)) = true ∧
      ts.all (fun x => ts.all (fun y => !(x.kind == .phases && y.kind == .move && x.index == y.index && x.replica == y.replica) ||
        y.deps == [x.id])) = true ∧
      ts.all (fun x => ts.all (fun y => !(x.kind == .move && y.kind == .vector) || y.deps.contains x.id)) = true ∧
      ts.all (fun x => x.kind != .phases || x.deps.isEmpty) = true := by
  refine ⟨hw.jobs_eq, ?_, ?_, ?_, ?_⟩
  · refine List.all_eq_true.mpr (fun x hx => ?_)
    obtain ⟨hh, hs⟩ := hw.own x hx
    simp [hh, hs]
  · refine List.all_eq_true.mpr (fun x hx => List.all_eq_true.mpr (fun y hy => ?_))
    have moved := hw.moved x hx y hy
    rw [Bool.or_eq_true, Bool.not_eq_true', ← Bool.not_eq_true, ← imp_iff_not_or]
    simpa [and_imp] using moved
  · refine List.all_eq_true.mpr (fun x hx => List.all_eq_true.mpr (fun y hy => ?_))
    have vectors := hw.vectors x hx y hy
    rw [Bool.or_eq_true, Bool.not_eq_true', ← Bool.not_eq_true, ← imp_iff_not_or]
    simpa [and_imp] using vectors
  · refine List.all_eq_true.mpr (fun x hx => ?_)
    have phases := hw.phases x hx
    rw [Bool.or_eq_true, bne_iff_ne, ← imp_iff_not_or, List.isEmpty_iff]
    exact phases

/-- Settles O52: a layer's tags by the order in which they are allocated, dispatch by the tag that comes first, a phase by what it adds to its
replica, outputs and descriptors by what they write, and the end of a layer by the tags left in flight. -/
theorem layers : Obligations.Layers := by
  unfold Obligations.Layers
  refine ⟨?_, ?_, ?_, ?_, ?_, ?_, ?_, ?_, ?_, ?_, ?_, ?_, ?_, ?_, ?_, ?_, ?_, ?_, ?_, ?_, ?_, ?_, ?_, ?_, ?_⟩
  · intro s t h m r l us st pol seen able tiled slices work hm hr hl hon hd hn hv hp hroom old next
    refine does_imp (layerStart_opens hm hr hl hon hd hn hv hp hroom) (fun d ⟨models, ts, tags, done⟩ => ?_)
    rw [show d.spool.tags.take old = s.dev.spool.tags by rw [tags, List.take_left]]
    refine ⟨models, rfl, ?_⟩
    rw [show d.spool.tags.drop old = ts by rw [tags, List.drop_left]]
    exact layerWork_all done
  · intro s t h m r l st pol hm hr hl hon hd hn hp
    exact layerStart_waits hm hr hl hon hd hn hp.1 (by simpa [pol, hp.1] using hp.2)
  · intro s t h m r l st pol hm hr hl hon hd hn hp hu e
    exact layerStart_stops hm hr hl hon hd hn hp.1 (by simpa [pol, hp.1] using hp.2) hu
  · intro s t h m r l p hm hr hl hon hd hn hp hq
    exact layerStart_passes hm hr hl hon hd hn hp hq
  · intro s t h m r l hm hr hl hn
    exact layerStart_nothing hm hr hl hn
  · intro a b x y
    exact ⟨before_of_level, before_of_deadline_none, before_of_deadline, before_of_allocAt⟩
  · intro s t u x hh hfree hx hf hu tags
    exact tagDispatch_plain hh hfree hx hf hu
  · intro s t e x h hh hfree hx hf tags v
    exact tagDispatch_engine hh hfree hx hf
  · intro s t i x h m r sl l hh hfree hx hf hm hr hs taken phases tags accum plan issued spool
    exact tagDispatch_tile hh hfree hx hf hm hr hs
  · intro s t u hn
    exact tagDispatch_nothing hn
  · intro s t i g op row rest x hpow hp hw hfree hop hb hroom outs w flight
    refine does_imp (tagDispatch_row hpow hp hw hfree hop hb hroom) (fun d ⟨u, tags, hkind, htile, hstatus, tiles, models⟩ => ?_)
    have new : d.spool.tags.drop s.dev.spool.tags.length = [u] := by rw [tags, List.drop_left]
    rw [new]
    refine ⟨by rw [tags, List.take_left], List.cons_ne_nil _ _, ?_, models⟩
    rw [List.all_cons, List.all_nil, hkind, htile, hstatus, Bool.and_true, BEq.rfl, BEq.rfl, BEq.rfl, Bool.true_and, Bool.true_and]
    exact beq_iff_eq.mpr tiles
  · intro s t i g op x hpow hp hw hfree hop hb kept
    exact tagDispatch_worn hpow hp hw hfree hop hb
  · intro s t x n hx hn hs ht tags
    exact tagAgeing_rises hx hn hs ht
  · intro s t x hn
    exact tagAgeing_nothing hn
  · intro s t i x h m r p ph rest sl l y int8 out begins due driven z hh hf hx hm hr hp hi hs hd next spool
    exact tilePhase_runs hh hf hx hm hr hp hi hs hd
  · intro s t i x h m r p ph rest sl l y int8 out begins due driven z hf hx hm hr hp hi hs hd
    exact tilePhase_waits hf hx hm hr hp hi hs hd
  · intro s t i x h m p ph rest sl l y int8 out begins due driven z hh hf hx hm hp hi hs hd left
    exact tilePhase_last hh hf hx hm hp hi hs hd
  · intro s t i x hh hf ha hn
    exact tilePhase_aborted hh hf ha hn
  · intro s t i hn
    exact tilePhase_nothing hn
  · intro s t h m r l mine moves a b hm hr hl hon hmoves ha hab sums n last beyond count top r' next
    exact layerOutputReady_writes hm hr hl hon ⟨hmoves.1, hmoves.2.1, hmoves.2.2⟩ ha hab
  · intro s t h m r l hm hr hl hn
    exact layerOutputReady_nothing hm hr hl hn
  · intro s t e h m i x l k g start hb hh ht hg hm hx v out worked reads p
    refine does_imp (descriptorComplete_does hb hh ht hg hm hx) (fun d ⟨sram, host, engines, tags, m', hm', some', results⟩ => ?_)
    refine ⟨sram, host, engines, List.all_eq_true.mpr (fun u hu => ?_), ?_⟩
    · have learns := tags u hu
      rw [Bool.or_eq_true, bne_iff_ne, ← imp_iff_not_or, beq_iff_eq]
      exact learns
    · rw [hm', Option.any_some, some', BEq.rfl, Bool.true_and, Option.all_eq_true]
      intro r' hr'
      obtain ⟨hv, hn, hb, hd⟩ := results r' hr'
      simp only [hv, hn, hb, hd, BEq.rfl, Bool.and_true, out]
  · intro s t m r l x n hop hsrc word sum
    exact descriptor_add (here s t) m r l n hop hsrc
  · intro s t e hb
    exact descriptorComplete_nothing hb
  · intro s t h m r l mine moves hm hr hl hon hlast hmoves hroom
    exact layerOutputReady_learns hm hr hl hon hlast hmoves hroom

end Sys2Proof.Proofs

namespace Sys2Proof.Proofs
open Machine Laws

/-! ## A record due before the next row press (R361 to R363) -/

/-- The store once a tile's next row press has been looked at: a record is due unless the tile is armed, stays so and has the press within its
step. -/
def storeNeeding (d : Dev) (i : Fin 48) (x : Tile) : Store :=
  if x.armed = true ∧ x.counter + d.w16 ≤ x.saved + d.store.stepInForce ∧ d.disarming i = false then d.store
  else { d.store with trigger := true }

theorem recorded_iff {d : Dev} {i : Fin 48} {x : Tile} : d.recorded i x = true ↔
    x.armed = true ∧ x.counter + d.w16 ≤ x.saved + d.store.stepInForce ∧ d.disarming i = false := by
  simp [Dev.recorded, and_assoc]

theorem pressNeeds_store (d : Dev) (i : Fin 48) : (d.pressNeeds i).store = storeNeeding d i d.tiles[i] := by
  unfold Dev.pressNeeds storeNeeding
  by_cases h : d.recorded i d.tiles[i] = true
  · rw [if_pos h, if_pos (recorded_iff.mp h)]
  · rw [if_neg h, if_neg (fun g => h (recorded_iff.mpr g))]
    rfl

/-- It depends on the power side, the store and what the records say of the tile. -/
theorem storeNeeding_congr {d e : Dev} {i : Fin 48} {x y : Tile} (hs : e.store = d.store) (hp : e.pwr = d.pwr)
    (hx : y.armed = x.armed ∧ y.counter = x.counter ∧ y.saved = x.saved) : storeNeeding e i y = storeNeeding d i x := by
  obtain ⟨armed, counter, saved⟩ := hx
  have disarming : e.disarming i = d.disarming i := by unfold Dev.disarming; rw [hs]
  unfold storeNeeding
  rw [armed, counter, saved, disarming, w16_congr hp, hs]

@[simp] theorem pressNeeds_tiles (d : Dev) (i : Fin 48) : (d.pressNeeds i).tiles = d.tiles := (pressNeeds_keeps d i) .tiles (by decide)

@[simp] theorem onTile_same (d : Dev) (i : Fin 48) (f : Tile → Tile) : (d.onTile i f).tiles[i] = f d.tiles[i] := upd_same _ _ _

theorem onTile_other (d : Dev) {i j : Fin 48} (f : Tile → Tile) (h : j ≠ i) : (d.onTile i f).tiles[j] = d.tiles[j] := upd_other _ _ _ _ h

/-! ## PR_FORM, PR_PRESS, PR_INSPECT, PR_CALIBRATE, PR_SET_UPKEEP (R358, R363, R373, R384, R396 to R399, R479) -/

theorem alive_iff {x : Tile} : x.alive = true ↔ x.state ≠ .blank ∧ x.state ≠ .retired := by simp [Tile.alive]

theorem not_alive_iff {x : Tile} : x.alive = false ↔ x.state = .blank ∨ x.state = .retired := by
  rw [← Bool.not_eq_true, alive_iff]
  tauto

theorem worn_iff {d : Dev} {x : Tile} {n : Nat} : d.worn x n = true ↔ 1622016000 - x.counter < n * d.w16 := by
  rw [Dev.worn, decide_eq_true_iff]
  rfl

section
variable {i : Fin 48} {s : State} {t : Time} {b : Basket}

@[simp] theorem judged_tiles {c : Command} : (judged c s t b).tiles = s.dev.tiles := rfl

/-- A command about one tile that changes the tile, and makes a record due where its next row press needs one. -/
theorem completes_onTile {x : Instr} {c : Command} {f : Tile → Tile} {y : Tile} (hx : exec x s = hostCommand c t b s) (hs : StartsAwake s b)
    (h0 : c.sup = true → b = 0) (h1 : c.names (operands s t b) (judged c s t b) = true)
    (h2 : c.zero (operands s t b) (judged c s t b) = false) (h3 : c.range (operands s t b) (judged c s t b) = none)
    (h4 : c.state (operands s t b) (judged c s t b) = none)
    (ha : c.act (operands s t b) (judged c s t b) = (((judged c s t b).onTile i f).pressNeeds i, .ok []))
    (hf : f s.dev.tiles[i] = y) (hy : y.armed = s.dev.tiles[i].armed ∧ y.counter = s.dev.tiles[i].counter ∧ y.saved = s.dev.tiles[i].saved) :
    Completes x s t b 0 0 0 0 [.tiles, .store] (fun d =>
      d.tiles = s.dev.tiles.set i.val y ∧ d.store = storeNeeding (here s t) i s.dev.tiles[i]) := by
  refine completes_awake hx hs h0 h1 h2 h3 h4 ha ?_ (by decide) ⟨?_, ?_⟩
  · exact Keeps.andThen (pressNeeds_keeps _ _) (by decide) (Keeps.mono (onTile_keeps _ _ _) (by decide))
  · show (((judged c s t b).onTile i f).pressNeeds i).tiles = _
    rw [pressNeeds_tiles, onTile_tiles, judged_tiles, hf]
  · show (((judged c s t b).onTile i f).pressNeeds i).store = _
    rw [pressNeeds_store, onTile_same, judged_tiles, hf]
    exact storeNeeding_congr rfl rfl hy

/-- The tile that ARG0 names. -/
theorem tiles_tileArg (d : Dev) (h0 : arg s b 0 = i.val) : d.tiles[(operands s t b).tileArg] = d.tiles[i] :=
  congrArg (fun j : Fin 48 => d.tiles[j]) (operands_tileArg i h0)

theorem operands_tile_held {c : Command} (h0 : arg s b 0 = i.val) (hh : Held s b .tiles i.val) :
    (operands s t b).tile (judged c s t b) (arg s b 0) = true := by
  rw [h0]
  exact hh

/-- A command that queues an operation on a tile. -/
theorem completes_queueOp {x : Instr} {c : Command} {op : PressOp} (hx : exec x s = hostCommand c t b s) (hs : StartsAwake s b)
    (h0 : c.sup = true → b = 0) (h1 : c.names (operands s t b) (judged c s t b) = true)
    (h2 : c.zero (operands s t b) (judged c s t b) = false) (h3 : c.range (operands s t b) (judged c s t b) = none)
    (h4 : c.state (operands s t b) (judged c s t b) = none)
    (ha : c.act (operands s t b) (judged c s t b) = ((judged c s t b).queueOp i op, .ok [])) :
    Completes x s t b 0 0 0 0 [.tiles, .store] (fun d =>
      d.tiles = s.dev.tiles.set i.val { s.dev.tiles[i] with queue := s.dev.tiles[i].queue ++ [op] } ∧
      d.store = storeNeeding (here s t) i s.dev.tiles[i]) :=
  completes_onTile (f := fun x => { x with queue := x.queue ++ [op] }) hx hs h0 h1 h2 h3 h4 ha rfl ⟨rfl, rfl, rfl⟩

theorem prForm_queues (hs : StartsAwake s 0) (h0 : arg s 0 0 = i.val) (hh : Held s 0 .tiles i.val) (hb : s.dev.tiles[i].state = .blank)
    (hf : 0 < (here s t).freeTags 0) (hw : s.dev.tiles[i].counter + 528 * (here s t).w16 ≤ 1622016000) :
    let op := PressOp.of .form 0 s.dev.host.pages[(0 : Basket)].cmdTag none .zero [] (instant s t)
    Completes (.prForm t 0) s t 0 0 0 0 0 [.tiles, .store] (fun d =>
      d.tiles = s.dev.tiles.set i.val { s.dev.tiles[i] with queue := s.dev.tiles[i].queue ++ [op] } ∧
      d.store = storeNeeding (here s t) i s.dev.tiles[i]) := by
  intro op
  have unworn : (judged cmdPrForm s t 0).worn s.dev.tiles[i] 528 = false := not_worn hw
  have tags : 0 < (judged cmdPrForm s t 0).freeTags (operands s t 0).b := hf
  refine completes_queueOp (c := cmdPrForm) (op := op) rfl hs (fun _ => rfl) (operands_tile_held h0 hh) rfl rfl ?_ ?_
  · show firstErr [need ((judged cmdPrForm s t 0).tiles[(operands s t 0).tileArg].state == .blank) .state, need (decide (_ < _)) .quota,
      need (!(judged cmdPrForm s t 0).worn (judged cmdPrForm s t 0).tiles[(operands s t 0).tileArg] 528) .tileWorn] = none
    rw [decide_eq_true tags, tiles_tileArg _ h0, judged_tiles, hb, unworn]
    rfl
  · simp only [cmdPrForm, operands_tileArg i h0]
    rfl

/-- The state check of PR_PRESS. -/
theorem cmdPrPress_state (h0 : arg s b 0 = i.val) : cmdPrPress.state (operands s t b) (judged cmdPrPress s t b) =
    firstErr [need s.dev.tiles[i].alive .state, need (decide (0 < (here s t).freeTags b)) .quota,
      need (!(here s t).worn s.dev.tiles[i] (arg s b 2)) .tileWorn] := by
  show firstErr [need (judged cmdPrPress s t b).tiles[(operands s t b).tileArg].alive .state, _,
    need (!(judged cmdPrPress s t b).worn (judged cmdPrPress s t b).tiles[(operands s t b).tileArg] (arg s b 2)) .tileWorn] = _
  rw [tiles_tileArg _ h0]
  rfl


section
variable (hs : StartsAwake s b) (h0 : arg s b 0 = i.val) (hh : Held s b .tiles i.val)
include h0 hh

theorem prPress_names (hm : HeldRange s b (arg32 s b 3) (256 * arg s b 2)) :
    cmdPrPress.names (operands s t b) (judged cmdPrPress s t b) = true := by
  have held : (operands s t b).memory (judged cmdPrPress s t b) ((operands s t b).arg32 3) (256 * arg s b 2) = true := by
    rw [show (operands s t b).arg32 3 = arg32 s b 3 from operands_arg32 3]
    exact hm
  show ((operands s t b).tile _ (arg s b 0) && (_ || (operands s t b).memory _ _ _)) = true
  rw [operands_tile_held h0 hh]
  simp only [operands_arg, held, Bool.or_true, Bool.and_self]

omit h0 hh in
theorem prPress_range (hn : 1 ≤ arg s b 2 ∧ arg s b 1 + arg s b 2 ≤ 512) :
    cmdPrPress.zero (operands s t b) (judged cmdPrPress s t b) = false ∧ cmdPrPress.range (operands s t b) (judged cmdPrPress s t b) = none := by
  obtain ⟨least, most⟩ := hn
  have : arg s b 2 ≠ 0 := by omega
  simp [cmdPrPress, argRange, this, most]

include hs

theorem prPress_queues (hn : 1 ≤ arg s b 2 ∧ arg s b 1 + arg s b 2 ≤ 512) (hm : HeldRange s b (arg32 s b 3) (256 * arg s b 2))
    (ha : s.dev.tiles[i].state ≠ .blank ∧ s.dev.tiles[i].state ≠ .retired) (hf : 0 < (here s t).freeTags b)
    (hw : s.dev.tiles[i].counter + arg s b 2 * (here s t).w16 ≤ 1622016000) :
    let op := PressOp.of .press b s.dev.host.pages[b].cmdTag none (.records (arg32 s b 3) (arg s b 1))
      ((List.range (arg s b 2)).map (arg s b 1 + ·)) (instant s t)
    Completes (.prPress t b) s t b 0 0 0 0 [.tiles, .store] (fun d =>
      d.tiles = s.dev.tiles.set i.val { s.dev.tiles[i] with queue := s.dev.tiles[i].queue ++ [op] } ∧
      d.store = storeNeeding (here s t) i s.dev.tiles[i]) := by
  intro op
  obtain ⟨zero, range⟩ := prPress_range (t := t) hn
  refine completes_queueOp (c := cmdPrPress) (op := op) rfl hs (fun h => by cases h) (prPress_names h0 hh hm) zero range ?_ ?_
  · rw [cmdPrPress_state h0, alive_iff.mpr ha, decide_eq_true hf, not_worn hw]
    rfl
  · have a3 : (operands s t b).arg32 3 = arg32 s b 3 := operands_arg32 3
    simp only [cmdPrPress, operands_tileArg i h0, a3]
    rfl

theorem prPress_worn (hn : 1 ≤ arg s b 2 ∧ arg s b 1 + arg s b 2 ≤ 512) (hm : HeldRange s b (arg32 s b 3) (256 * arg s b 2))
    (ha : s.dev.tiles[i].state ≠ .blank ∧ s.dev.tiles[i].state ≠ .retired) (hf : 0 < (here s t).freeTags b)
    (hw : 1622016000 < s.dev.tiles[i].counter + arg s b 2 * (here s t).w16 ∧ s.dev.tiles[i].counter ≤ 1622016000) :
    Refuses (.prPress t b) s t b .tileWorn := by
  have worn : (here s t).worn s.dev.tiles[i] (arg s b 2) = true := worn_iff.mpr (by
    generalize s.dev.tiles[i].counter = spent at *
    omega)
  obtain ⟨zero, range⟩ := prPress_range (t := t) hn
  refine refuses_awake (c := cmdPrPress) rfl hs (fun h => by cases h) (prPress_names h0 hh hm) zero range ?_ (by decide)
  rw [cmdPrPress_state h0, alive_iff.mpr ha, decide_eq_true hf, worn]
  rfl

theorem prInspect_asks (ha : s.dev.tiles[i].state ≠ .blank ∧ s.dev.tiles[i].state ≠ .retired) :
    let due := if s.dev.tiles[i].due = true then s.dev.tiles[i] else { s.dev.tiles[i] with due := true, dueSince := instant s t }
    Completes (.prInspect t b) s t b 0 0 0 0 [.tiles, .store] (fun d =>
      d.tiles = s.dev.tiles.set i.val { due with dueTag := s.dev.host.pages[b].cmdTag } ∧
      d.store = storeNeeding (here s t) i s.dev.tiles[i]) := by
  intro due
  have alive := alive_iff.mpr ha
  have made : s.dev.tiles[i].makeDue (instant s t) = due := by
    unfold Tile.makeDue due
    rw [alive, Bool.true_and]
    cases s.dev.tiles[i].due <;> rfl
  have kept : due.armed = s.dev.tiles[i].armed ∧ due.counter = s.dev.tiles[i].counter ∧ due.saved = s.dev.tiles[i].saved := by
    unfold due
    split <;> exact ⟨rfl, rfl, rfl⟩
  refine completes_onTile (c := cmdPrInspect) (f := fun y => { y.makeDue (instant s t) with dueTag := s.dev.host.pages[b].cmdTag })
    rfl hs (fun h => by cases h) (operands_tile_held h0 hh) rfl rfl ?_ ?_ (by rw [made]) kept
  · show need (judged cmdPrInspect s t b).tiles[(operands s t b).tileArg].alive _ = none
    rw [tiles_tileArg _ h0, judged_tiles, alive]
    rfl
  · simp only [cmdPrInspect, operands_tileArg i h0]
    rfl

theorem prCalibrate_queues (ha : s.dev.tiles[i].state ≠ .blank ∧ s.dev.tiles[i].state ≠ .retired) :
    let op := PressOp.of .calibrate b s.dev.host.pages[b].cmdTag none .nearest [] (instant s t)
    Completes (.prCalibrate t b) s t b 0 0 0 0 [.tiles, .store] (fun d =>
      d.tiles = s.dev.tiles.set i.val { s.dev.tiles[i] with queue := s.dev.tiles[i].queue ++ [op] } ∧
      d.store = storeNeeding (here s t) i s.dev.tiles[i]) := by
  intro op
  refine completes_queueOp (c := cmdPrCalibrate) (op := op) rfl hs (fun h => by cases h) (operands_tile_held h0 hh) rfl rfl ?_ ?_
  · show need (judged cmdPrCalibrate s t b).tiles[(operands s t b).tileArg].alive _ = none
    rw [tiles_tileArg _ h0, judged_tiles, alive_iff.mpr ha]
    rfl
  · simp only [cmdPrCalibrate, operands_tileArg i h0]
    rfl

theorem prInspect_refused (ha : s.dev.tiles[i].state = .blank ∨ s.dev.tiles[i].state = .retired) : Refuses (.prInspect t b) s t b .state := by
  refine refuses_awake (c := cmdPrInspect) rfl hs (fun h => by cases h) (operands_tile_held h0 hh) rfl rfl ?_ (by decide)
  show need (judged cmdPrInspect s t b).tiles[(operands s t b).tileArg].alive _ = _
  rw [tiles_tileArg _ h0, judged_tiles, not_alive_iff.mpr ha]
  rfl

theorem prCalibrate_refused (ha : s.dev.tiles[i].state = .blank ∨ s.dev.tiles[i].state = .retired) : Refuses (.prCalibrate t b) s t b .state := by
  refine refuses_awake (c := cmdPrCalibrate) rfl hs (fun h => by cases h) (operands_tile_held h0 hh) rfl rfl ?_ (by decide)
  show need (judged cmdPrCalibrate s t b).tiles[(operands s t b).tileArg].alive _ = _
  rw [tiles_tileArg _ h0, judged_tiles, not_alive_iff.mpr ha]
  rfl

end

theorem prSetUpkeep_sets (hs : StartsAwake s 0) (h0 : 1 ≤ arg s 0 0 ∧ arg s 0 0 ≤ 168) (h1 : 1 ≤ arg s 0 1 ∧ arg s 0 1 ≤ 100) :
    let u : Upkeep := { baseHours := arg s 0 0, commitFte := arg s 0 1, auto := argBit s 0 2 0 }
    Completes (.prSetUpkeep t 0) s t 0 0 0 0 0 [.upkeep] (fun d => d.upkeep = u) := by
  intro u
  have some0 : arg s 0 0 ≠ 0 := by omega
  have some1 : arg s 0 1 ≠ 0 := by omega
  refine completes_awake (c := cmdPrSetUpkeep) (d := (judged cmdPrSetUpkeep s t 0).onUpkeep (fun _ => u)) rfl hs (fun _ => rfl) rfl ?_ ?_ rfl rfl
    (onUpkeep_keeps _ _) (by decide) rfl
  · simp [cmdPrSetUpkeep, some0, some1]
  · simp [cmdPrSetUpkeep, argRange, h0.2, h1.2]

end

/-- Settles O47: each command queues its operation or makes the inspection due on the tile it names, and a record falls due where the next row
press needs one; a check that fails refuses it. -/
theorem pressCommands : Obligations.PressCommands := by
  unfold Obligations.PressCommands
  exact ⟨fun s t i hs h0 hh hb hf hw => prForm_queues hs h0 hh hb hf hw,
    fun s t b i hs h0 hh hn hm ha hf hw => prPress_queues hs h0 hh hn hm ha hf hw,
    fun s t b i hs h0 hh ha => prInspect_asks hs h0 hh ha, fun s t b i hs h0 hh ha => prCalibrate_queues hs h0 hh ha,
    fun s t b i hs h0 hh hn hm ha hf hw => prPress_worn hs h0 hh hn hm ha hf hw,
    fun s t b i hs h0 hh ha => ⟨prInspect_refused hs h0 hh ha, prCalibrate_refused hs h0 hh ha⟩,
    fun s t hs h0 h1 => prSetUpkeep_sets hs h0 h1⟩

end Sys2Proof.Proofs

namespace Sys2Proof.Proofs
open Machine Laws

/-! ## PS_SET, PS_PUT, PS_GET, PS_CHECKPOINT (R553, R555, R559, R563, R567) -/

section
variable {s : State} {t : Time} {b : Basket}

theorem psSet_sets (hs : StartsAwake s 0) (h0 : 1 ≤ arg s 0 0 ∧ arg s 0 0 ≤ 168) (h1 : 20 ≤ arg s 0 1 ∧ arg s 0 1 ≤ 1000) :
    Completes (.psSet t 0) s t 0 0 0 0 0 [.store] (fun d => d.store = { s.dev.store with checkpointHours := arg s 0 0, holdUp := arg s 0 1 }) := by
  have some0 : arg s 0 0 ≠ 0 := by omega
  have some1 : arg s 0 1 ≠ 0 := by omega
  refine completes_awake (c := cmdPsSet)
    (d := (judged cmdPsSet s t 0).onStore (fun x => { x with checkpointHours := arg s 0 0, holdUp := arg s 0 1 }))
    rfl hs (fun _ => rfl) rfl ?_ ?_ rfl rfl (onStore_keeps _ _) (by decide) rfl
  · simp [cmdPsSet, some0, some1]
  · simp [cmdPsSet, argRange, h0.2, h1.1, h1.2]

/-- An area with a blob is present. -/
theorem onArea_blob (x : Store) (b : Basket) {blob : List Byte} (h : blob ≠ []) :
    x.onArea b (fun a => (a.1, blob)) = { x with areas := x.areas.set b.val (some ((x.area b).1, blob)) } := by
  have present : blob.isEmpty = false := by simpa using h
  simp only [Store.onArea, present, Bool.and_false, Bool.false_eq_true, if_false]

theorem psPut_checks (h : 0 < arg32 s b 2 ∧ HeldRange s b (arg32 s b 0) (arg32 s b 2)) :
    cmdPsPut.names (operands s t b) (judged cmdPsPut s t b) = true ∧ cmdPsPut.zero (operands s t b) (judged cmdPsPut s t b) = false := by
  obtain ⟨some_, held⟩ := h
  have a0 : (operands s t b).arg32 0 = arg32 s b 0 := operands_arg32 0
  have a2 : (operands s t b).arg32 2 = arg32 s b 2 := operands_arg32 2
  constructor
  · show (operands s t b).memory _ ((operands s t b).arg32 0) ((operands s t b).arg32 2) = true
    rw [a0, a2]
    exact held
  · show ((operands s t b).arg32 2 == 0) = false
    rw [a2, beq_eq_false_iff_ne]
    omega

/-- The state check of PS_PUT (R553). -/
theorem cmdPsPut_state : cmdPsPut.state (operands s t b) (judged cmdPsPut s t b) =
    need (decide (arg32 s b 2 ≤ (here s t).freePatchQuota b + (s.dev.store.area b).2.length)) .quota := by
  rw [← show (operands s t b).arg32 2 = arg32 s b 2 from operands_arg32 2]
  rfl

theorem psPut_takes (hs : StartsAwake s b) (h : 0 < arg32 s b 2 ∧ HeldRange s b (arg32 s b 0) (arg32 s b 2))
    (hq : arg32 s b 2 ≤ (here s t).freePatchQuota b + (s.dev.store.area b).2.length) :
    let area := some ((s.dev.store.area b).1, s.dev.sram.bytes (arg32 s b 0) (arg32 s b 2))
    Completes (.psPut t b) s t b 0 0 0 0 [.store] (fun d =>
      d.store = { s.dev.store with areas := s.dev.store.areas.set b.val area, trigger := true }) := by
  intro area
  have a0 : (operands s t b).arg32 0 = arg32 s b 0 := operands_arg32 0
  have a2 : (operands s t b).arg32 2 = arg32 s b 2 := operands_arg32 2
  have blob : s.dev.sram.bytes (arg32 s b 0) (arg32 s b 2) ≠ [] := by
    rw [← List.length_pos_iff, Sram.bytes_length]
    exact h.1
  obtain ⟨names, zero⟩ := psPut_checks (t := t) h
  refine completes_awake (c := cmdPsPut)
    (d := (judged cmdPsPut s t b).onStore (fun x => { x with areas := x.areas.set b.val area, trigger := true }))
    rfl hs (fun h => by cases h) names zero rfl ?_ ?_ (onStore_keeps _ _) (by decide) rfl
  · rw [cmdPsPut_state, decide_eq_true hq]
    rfl
  · have put : (judged cmdPsPut s t b).store.onArea b (fun a => (a.1, s.dev.sram.bytes (arg32 s b 0) (arg32 s b 2))) =
        { s.dev.store with areas := s.dev.store.areas.set b.val area } := onArea_blob _ _ blob
    show (((judged cmdPsPut s t b).onStore (fun x => x.onArea b (fun a =>
      (a.1, s.dev.sram.bytes ((operands s t b).arg32 0) ((operands s t b).arg32 2))))).trigger, _) = _
    rw [a0, a2, Dev.onStore, put]
    rfl

theorem psPut_refused (hs : StartsAwake s b) (h : 0 < arg32 s b 2 ∧ HeldRange s b (arg32 s b 0) (arg32 s b 2))
    (hq : (here s t).freePatchQuota b + (s.dev.store.area b).2.length < arg32 s b 2) : Refuses (.psPut t b) s t b .quota := by
  obtain ⟨names, zero⟩ := psPut_checks (t := t) h
  refine refuses_awake (c := cmdPsPut) rfl hs (fun h => by cases h) names zero rfl ?_ (by decide)
  rw [cmdPsPut_state, decide_eq_false (Nat.not_le.mpr hq)]
  rfl

theorem psGet_answers (hs : StartsAwake s b) (hh : HeldRange s b (arg32 s b 0) (s.dev.store.area b).2.length) :
    let blob := (s.dev.store.area b).2
    Completes (.psGet t b) s t b (BitVec.ofNat 16 blob.length) (BitVec.ofNat 16 (blob.length / 65536)) 0 0 [.spool, .sram] (fun d =>
      d.sram.bytes (arg32 s b 0) blob.length = blob ∧ UnchangedOutside s.dev.sram d.sram (arg32 s b 0) blob.length) := by
  intro blob
  have a0 : (operands s t b).arg32 0 = arg32 s b 0 := operands_arg32 0
  have names : cmdPsGet.names (operands s t b) (judged cmdPsGet s t b) = true := by
    show (operands s t b).memory _ ((operands s t b).arg32 0) _ = true
    rw [a0]
    exact hh
  refine completes_results (c := cmdPsGet) (d := (judged cmdPsGet s t b).memWrite (arg32 s b 0) blob) (rs := leWords 2 blob.length) rfl hs.1
    ((judge_awake hs (fun h => by cases h) names rfl rfl).trans rfl) ?_ rfl (memWrite_keeps _ _ _) (by decide) ⟨?_, ?_⟩
  · rw [← a0]
    rfl
  · exact Sram.bytes_setBytes_same _ _ _ (range_inside hh)
  · exact Sram.unchangedOutside_setBytes _ _ _

theorem psCheckpoint_begins (hs : StartsAwake s b) : Begins (.psCheckpoint t b) s t b 0x0715 [.store]
    (fun d => d.store = { s.dev.store with waiting := s.dev.store.waiting.set b.val true, trigger := true }) :=
  begins_awake (c := cmdPsCheckpoint) rfl hs (fun h => by cases h) rfl rfl rfl rfl rfl (cmdPsCheckpoint_keeps _ _) (by decide) rfl

end
end Sys2Proof.Proofs

namespace Sys2Proof.Proofs
open Machine Laws

/-! ## A record write begins (R561, R563, Table 11-1) -/

/-- Bringing the entries of loaded models up to date changes the areas alone. -/
theorem snapshot_store (d : Dev) (ms : List (Handle × Model)) (x : Store) : d.snapshot ms x = { x with areas := (d.snapshot ms x).areas } := by
  induction ms generalizing x with
  | nil => rfl
  | cons m ms ih =>
    obtain ⟨h, m⟩ := m
    unfold Dev.snapshot
    split
    · rw [ih]
      rfl
    · exact ih x

theorem clearMagic_take (bs : List Byte) : (clearMagic bs).take 4 = [0, 0, 0, 0] := rfl

theorem clearMagic_drop (bs : List Byte) : (clearMagic bs).drop 4 = bs.drop 4 := rfl

theorem record_magic (r : RecordParts) : r.bytes.take 4 = [0x50, 0x54, 0x43, 0x48] := rfl

section
variable (d : Dev) (clean again : Bool)

/-- The write counts once the next write has begun. -/
def countedWrites : Vector Nat 2 := d.store.writes.set d.store.nextBank.val (d.store.writes[d.store.nextBank] + 1)

/-- The record that a write holds. -/
def writtenRecord : List Byte := (d.recordParts d.store.nextSeq clean ((countedWrites d)[0], (countedWrites d)[1])).bytes

/-- The write that begins. -/
def begunWrite : StoreWrite :=
  { bank := d.store.nextBank, seq := d.store.nextSeq, bytes := writtenRecord d clean, clean := clean, started := d.now,
    ends := d.now + writeTime (writtenRecord d clean).length, again := again, step := d.upkeep.commitFte * 8192, atPfail := false,
    arms := d.tiles.toList.map (fun x => (!clean && d.arms x, x.counter)),
    patches := (d.loaded.filter (fun m => match m.2.learn with
      | some l => l.patchStep == some .record2 || l.patchStep == some .record4
      | none => false)).map (·.1) }

/-- The store as the write begins. -/
def begunStore : Store :=
  { d.snapshot d.loaded d.store with
    writes := countedWrites d, banks := d.store.banks.set d.store.nextBank.val (clearMagic (writtenRecord d clean)),
    writing := some (begunWrite d clean again) }

theorem beginWrite_eq : d.beginWrite clean again =
    if (countedWrites d)[d.store.nextBank] = 100000 then
      (d.onStore (fun _ => begunStore d clean again)).postAll { event := .storeWorn, subject := d.store.nextBank.val }
    else d.onStore (fun _ => begunStore d clean again) := rfl

theorem begunStore_eq : begunStore d clean again =
    { d.store with
      areas := (begunStore d clean again).areas, writes := countedWrites d,
      banks := d.store.banks.set d.store.nextBank.val (clearMagic (writtenRecord d clean)), writing := some (begunWrite d clean again) } := by
  unfold begunStore
  rw [snapshot_store]

theorem countedWrites_next : (countedWrites d)[d.store.nextBank] = d.store.writes[d.store.nextBank] + 1 := by simp [countedWrites]

theorem beginWrite_store : (d.beginWrite clean again).store = begunStore d clean again := by
  rw [beginWrite_eq]
  split
  · exact (postAll_keeps _ _) .store (by decide)
  · rfl

theorem begunStore_kept : (begunStore d clean again).trigger = d.store.trigger ∧ (begunStore d clean again).serving = d.store.serving ∧
    (begunStore d clean again).waiting = d.store.waiting ∧ (begunStore d clean again).newest = d.store.newest ∧
    (begunStore d clean again).nextSeq = d.store.nextSeq := by
  rw [begunStore_eq]
  exact ⟨rfl, rfl, rfl, rfl, rfl⟩

/-- Only the bank that is written changes: its MAGIC clears. -/
theorem begunStore_banks (k : Fin 2) : (begunStore d clean again).banks[k] =
    if k = d.store.nextBank then clearMagic (writtenRecord d clean) else d.store.banks[k] := by
  show (d.store.banks.set d.store.nextBank.val (clearMagic (writtenRecord d clean)))[k.val] = _
  rw [Vector.getElem_set]
  simp only [Fin.ext_iff, eq_comm (a := k.val), Fin.getElem_fin]

theorem begunStore_bank : (begunStore d clean again).banks[d.store.nextBank] = clearMagic (writtenRecord d clean) := by
  rw [begunStore_banks, if_pos rfl]

theorem begunStore_otherBank : (begunStore d clean again).banks[1 - d.store.nextBank] = d.store.banks[1 - d.store.nextBank] := by
  have other : ∀ k : Fin 2, 1 - k ≠ k := by decide
  rw [begunStore_banks, if_neg (other _)]

theorem begunWrite_ends : (begunWrite d clean again).ends = d.now + us 40 + ns (10 * (begunWrite d clean again).bytes.length) :=
  (Nat.add_assoc _ _ _).symm

end

/-! ## STORE_WRITE_START (R560, R561) -/

section
variable {s : State} {t : Time}

theorem storeWriteStart_starts {clean : Bool} (h : (here s t).writeStarts = some clean) :
    exec (.storeWriteStart t) s = .next { s with dev := (here s t).startWrite clean } := by
  have h : (s.dev.tick t).writeStarts = some clean := h
  show execStoreWriteStart t s = _
  simp only [execStoreWriteStart, onDev, h, here]

theorem storeWriteStart_idle (h : (here s t).writeStarts = none) : Does (.storeWriteStart t) s t [] (fun _ => True) := by
  refine does_nothing ?_
  have h : (s.dev.tick t).writeStarts = none := h
  show execStoreWriteStart t s = _
  simp only [execStoreWriteStart, onDev, h, here]

/-- A record that is due begins in BOOT and ACTIVE. -/
theorem writeStarts_due (hp : s.dev.pwr.state = .active ∨ s.dev.pwr.state = .boot)
    (h : s.dev.pwr.selected = true ∧ s.dev.store.writing = none ∧ s.dev.store.trigger = true ∧ s.dev.store.pfailAt = none) :
    (here s t).writeStarts = some false := by
  obtain ⟨selected, idle, due, powered⟩ := h
  show Dev.writeStarts _ = _
  unfold Dev.writeStarts
  obtain hp | hp := hp <;>
    simp [here, Dev.tick, hp, selected, idle, due, powered]

theorem writeStarts_none (h : s.dev.store.writing ≠ none ∨ (s.dev.pwr.state = .active ∧ s.dev.store.trigger = false) ∨
    s.dev.pwr.state = .watch ∨ s.dev.pwr.selected = false) : (here s t).writeStarts = none := by
  unfold Dev.writeStarts
  obtain h | ⟨h, due⟩ | h | h := h
  · simp [here, Dev.tick, Option.isSome_iff_ne_none.mpr h]
  · simp [here, Dev.tick, h, due]
  · simp [here, Dev.tick, h]
  · simp [here, Dev.tick, h]

/-- The triggers that a write takes as it starts (R560). -/
def takenTriggers (d : Dev) : Dev :=
  d.onStore (fun x => { x with trigger := false, serving := x.waiting, waiting := Vector.replicate 4 false })

theorem startWrite_eq (d : Dev) (clean : Bool) : d.startWrite clean = (takenTriggers d).beginWrite clean false := rfl

theorem storeWriteStart_writes (hp : s.dev.pwr.state = .active ∨ s.dev.pwr.state = .boot)
    (h : s.dev.pwr.selected = true ∧ s.dev.store.writing = none ∧ s.dev.store.trigger = true ∧ s.dev.store.pfailAt = none)
    (hw : s.dev.store.writes[s.dev.store.nextBank] ≠ 99999) :
    let old := s.dev.store
    let bank := old.nextBank
    Does (.storeWriteStart t) s t [.store] (fun d => d.store.writes = old.writes.set bank.val (old.writes[bank] + 1) ∧ d.store.trigger = false ∧
      d.store.serving = old.waiting ∧ d.store.waiting = Vector.replicate 4 false ∧ d.store.newest = old.newest ∧
      d.store.banks[1 - bank] = old.banks[1 - bank] ∧ (d.store.banks[bank]).take 4 = [0, 0, 0, 0] ∧
      d.store.writing.any (fun w => w.bank == bank && w.seq == old.nextSeq && !w.clean && !w.again && w.started == instant s t &&
        w.ends == instant s t + us 40 + ns (10 * w.bytes.length) && w.bytes.drop 4 == (d.store.banks[bank]).drop 4 &&
        w.bytes.take 4 == [0x50, 0x54, 0x43, 0x48]) = true) := by
  intro old bank
  let d := takenTriggers (here s t)
  have count : (countedWrites d)[d.store.nextBank] ≠ 100000 := by
    rw [countedWrites_next]
    show s.dev.store.writes[s.dev.store.nextBank] + 1 ≠ 100000
    omega
  have run := storeWriteStart_starts (writeStarts_due (t := t) hp h)
  rw [startWrite_eq, beginWrite_eq, if_neg count] at run
  obtain ⟨trigger, serving, waiting, newest, _⟩ := begunStore_kept d false false
  refine does_of run (Keeps.andThen (onStore_keeps _ _) (fun _ hp => hp) (onStore_keeps _ _))
    ⟨rfl, trigger, serving, waiting, newest, begunStore_otherBank d false false, ?_, ?_⟩
  · exact (congrArg (List.take 4) (begunStore_bank d false false)).trans (clearMagic_take _)
  · show (some (begunWrite d false false)).any (fun w =>
      _ && w.bytes.drop 4 == ((begunStore d false false).banks[d.store.nextBank]).drop 4 && _) = true
    rw [begunStore_bank, clearMagic_drop, Option.any_some, begunWrite_ends]
    have next : d.store.nextBank = bank ∧ d.store.nextSeq = old.nextSeq ∧ d.now = instant s t := ⟨rfl, rfl, rfl⟩
    have magic : (writtenRecord d false).take 4 = [0x50, 0x54, 0x43, 0x48] := record_magic _
    simp [begunWrite, next, magic]

theorem storeWriteStart_wears (hp : s.dev.pwr.state = .active)
    (h : s.dev.pwr.selected = true ∧ s.dev.store.writing = none ∧ s.dev.store.trigger = true ∧ s.dev.store.pfailAt = none)
    (hw : s.dev.store.writes[s.dev.store.nextBank] = 99999) :
    let e : Ev := { event := .storeWorn, subject := s.dev.store.nextBank.val }
    Does (.storeWriteStart t) s t [.host, .store] (fun d => d.store.writes = s.dev.store.writes.set s.dev.store.nextBank.val 100000 ∧
      d.store.writing.isSome = true ∧ d.host = ((here s t).postAll e).host) := by
  intro e
  let d := takenTriggers (here s t)
  have count : (countedWrites d)[d.store.nextBank] = 100000 := by
    rw [countedWrites_next]
    show s.dev.store.writes[s.dev.store.nextBank] + 1 = 100000
    rw [hw]
  have run := storeWriteStart_starts (writeStarts_due (t := t) (.inl hp) h)
  have stored := beginWrite_store d false false
  have posted : ((here s t).startWrite false).host = ((here s t).postAll e).host := by
    rw [startWrite_eq, beginWrite_eq, if_pos count]
    exact postAll_host_congr (d := here s t) rfl rfl e
  refine does_of run (startWrite_keeps _ _) ⟨?_, ?_, posted⟩
  · rw [startWrite_eq, stored]
    show s.dev.store.writes.set _ (s.dev.store.writes[s.dev.store.nextBank] + 1) = _
    rw [hw]
    rfl
  · rw [startWrite_eq, stored]
    rfl

end
end Sys2Proof.Proofs

namespace Sys2Proof.Proofs
open Machine Laws

/-! ## PS_CHECKPOINT commands that a write serves (R560, R563) -/

/-- Baskets that a write does not serve are left alone. -/
theorem checkpointsEnd_none (o : CmdOutcome) (l : List Basket) {d : Dev} (h : ∀ c ∈ l, d.store.serving[c] = false) :
    d.checkpointsEnd o l = d := by
  induction l with
  | nil => rfl
  | cons c cs ih =>
    unfold Dev.checkpointsEnd
    rw [h c List.mem_cons_self]
    exact ih (fun k hk => h k (List.mem_cons_of_mem _ hk))

theorem checkpointsDone_none (o : CmdOutcome) {d : Dev} (h : d.store.serving = Vector.replicate 4 false) : d.checkpointsDone o = d := by
  have none_ : ∀ c : Basket, d.store.serving[c] = false := fun c => by
    rw [h]
    exact Vector.getElem_replicate _
  rw [Dev.checkpointsDone, checkpointsEnd_none o _ (fun c _ => none_ c), Dev.onStore, ← h]

/-- A write that serves one basket ends its command. -/
theorem checkpointsEnd_one (o : CmdOutcome) {b : Basket} (l : List Basket) (hl : l.Nodup) {d : Dev}
    (h : ∀ c : Basket, d.store.serving[c] = decide (c = b)) : d.checkpointsEnd o l = if b ∈ l then d.finish b 0x0715 o else d := by
  induction l with
  | nil => rfl
  | cons c cs ih =>
    obtain ⟨hc, hcs⟩ := List.nodup_cons.mp hl
    have ih := ih hcs
    unfold Dev.checkpointsEnd
    by_cases hb : c = b
    · subst hb
      rw [h c, decide_eq_true rfl, if_pos List.mem_cons_self]
      refine checkpointsEnd_none o cs (fun k hk => (h k).trans (decide_eq_false ?_))
      rintro rfl
      exact hc hk
    · rw [h c, decide_eq_false hb]
      simp only [Bool.false_eq_true, if_false, ih, List.mem_cons, Ne.symm hb, false_or]

theorem checkpointsDone_one (o : CmdOutcome) {d : Dev} {b : Basket} (h : ∀ c : Basket, d.store.serving[c] = decide (c = b)) :
    d.checkpointsDone o = (d.finish b 0x0715 o).onStore (fun x => { x with serving := Vector.replicate 4 false }) := by
  rw [Dev.checkpointsDone, checkpointsEnd_one o _ (List.nodup_finRange 4) h, if_pos (List.mem_finRange b)]

/-! ## STORE_WRITE_DONE (R361 to R364, R558, R562, R563, R566) -/

/-- What the record says of one tile: armed or not, with its counter. -/
def recordedTile (w : StoreWrite) (i : Fin 48) (x : Tile) : Tile :=
  ((w.arms[i.val]?).map (fun a => { x with armed := a.1, saved := a.2 })).getD x

/-- The store once the record of a write is the newest. -/
def validStore (x : Store) (w : StoreWrite) (now : Time) : Store :=
  { x with banks := x.banks.set w.bank.val w.bytes, newest := some (w.bank, w.seq, w.bytes.length), newestClean := w.clean, writing := none,
           nextBank := 1 - w.bank, nextSeq := nextSeqOf w.seq, empty := false, stepInForce := w.step, lastAt := now,
           actionDone := x.actionDone || w.clean }

/-- What KEEP says of PFAIL once the write has verified. -/
def validKeep (k : Keep) (w : StoreWrite) : Keep :=
  { k with pfailWrite := if w.atPfail = true then 1 else k.pfailWrite, pfailClean := k.pfailClean || w.clean }

/-- The device once the record is valid, before the commands and patches that waited for it. -/
def recordTaken (d : Dev) (w : StoreWrite) : Dev :=
  { d with store := validStore d.store w d.now, keep := validKeep d.keep w, tiles := vmap d.tiles (fun i x =>
      match w.arms[i]? with
      | some (a, c) => { x with armed := a, saved := c }
      | none => x) }

theorem recordValid_eq (d : Dev) (w : StoreWrite) :
    d.recordValid w = ((recordTaken d w).checkpointsDone (success [])).patchRecorded w.patches := rfl

theorem recordTaken_keeps (d : Dev) (w : StoreWrite) : Keeps [.keep, .tiles, .store] d (recordTaken d w) := by
  show Keeps _ d (((d.onStore (fun p => validStore p w d.now)).onKeep (fun k => validKeep k w)).onTiles (fun v => vmap v (fun i x =>
    match w.arms[i]? with
    | some (a, c) => { x with armed := a, saved := c }
    | none => x)))
  exact Keeps.andThen (onTiles_keeps _ _) (by decide)
    (Keeps.andThen (onKeep_keeps _ _) (by decide) (Keeps.mono (onStore_keeps _ _) (by decide)))

theorem recordTaken_tile (d : Dev) (w : StoreWrite) (i : Fin 48) : (recordTaken d w).tiles[i] = recordedTile w i d.tiles[i] := by
  refine (vmap_getElem _ _ _ _).trans ?_
  unfold recordedTile
  cases w.arms[i.val]? <;> rfl

section
variable {s : State} {t : Time} {w : StoreWrite}

theorem storeWriteDone_exec (hw : s.dev.store.writing = some w) (ht : w.started < instant s t ∧ instant s t ≤ w.ends) (verified : Bool) :
    exec (.storeWriteDone t verified) s =
      .next { s with dev := if verified = true then (here s t).recordValid w else (here s t).recordFails w } := by
  have hw : (s.dev.tick t).store.writing = some w := hw
  have ht : ¬ ((s.dev.tick t).now ≤ w.started ∨ w.ends < (s.dev.tick t).now) := by
    rintro (h | h)
    · exact absurd ht.1 (Nat.not_lt.mpr h)
    · exact absurd ht.2 (Nat.not_le.mpr h)
  show execStoreWriteDone t verified s = _
  simp only [execStoreWriteDone, onDev, hw, ht, if_false, here]

theorem storeWriteDone_idle (verified : Bool) (hw : s.dev.store.writing = none) : Does (.storeWriteDone t verified) s t [] (fun _ => True) := by
  refine does_nothing ?_
  have hw : (s.dev.tick t).store.writing = none := hw
  show execStoreWriteDone t verified s = _
  simp only [execStoreWriteDone, onDev, hw, here]

theorem storeWriteDone_verifies (hw : s.dev.store.writing = some w) (ht : w.started < instant s t ∧ instant s t ≤ w.ends)
    (hp : w.patches = []) (hs : s.dev.store.serving = Vector.replicate 4 false) :
    Does (.storeWriteDone t true) s t [.keep, .tiles, .store] (fun d => d.keep = validKeep s.dev.keep w ∧
      d.store = validStore s.dev.store w (instant s t) ∧ ∀ i : Fin 48, d.tiles[i] = recordedTile w i s.dev.tiles[i]) := by
  have taken : (here s t).recordValid w = recordTaken (here s t) w := by
    rw [recordValid_eq, hp]
    exact checkpointsDone_none _ hs
  refine does_of (d := recordTaken (here s t) w) ((storeWriteDone_exec hw ht true).trans ?_) (recordTaken_keeps _ _)
    ⟨rfl, rfl, fun i => recordTaken_tile _ _ i⟩
  rw [if_pos rfl, taken]

theorem storeWriteDone_serves {b : Basket} {run : Running} (hw : s.dev.store.writing = some w)
    (ht : w.started < instant s t ∧ instant s t ≤ w.ends) (hp : w.patches = [])
    (hs : ∀ c : Basket, s.dev.store.serving[c] = decide (c = b))
    (hr : s.dev.host.pages[b].running = some run ∧ run.code = 0x0715 ∧ run.outcome = none) :
    Does (.storeWriteDone t true) s t [.keep, .host, .tiles, .store] (fun d => d.keep = validKeep s.dev.keep w ∧
      d.store.newest = some (w.bank, w.seq, w.bytes.length) ∧ d.store.serving = Vector.replicate 4 false ∧
      d.host = withPage s.dev.host b { s.dev.host.pages[b] with running := some { run with outcome := some (success []) } }) := by
  have taken : (here s t).recordValid w = ((recordTaken (here s t) w).finish b 0x0715 (success [])).onStore
      (fun x => { x with serving := Vector.replicate 4 false }) := by
    rw [recordValid_eq, hp]
    exact checkpointsDone_one _ hs
  have ran := storeWriteDone_exec hw ht true
  rw [if_pos rfl, taken] at ran
  refine does_of ran ?_ ⟨rfl, rfl, rfl, finish_host (d := recordTaken (here s t) w) hr.1 hr.2.1 hr.2.2⟩
  exact Keeps.andThen (onStore_keeps _ _) (by decide)
    (Keeps.andThen (finish_keeps _ _ _ _) (by decide) (Keeps.mono (recordTaken_keeps _ _) (by decide)))

theorem recordFails_repeats {d : Dev} (ha : w.again = false) (hp : d.store.pfailAt = none) (hf : d.pwr.state ≠ .fault) :
    d.recordFails w = d.beginWrite w.clean true := by
  have running : (d.pwr.state != .fault) = true := bne_iff_ne.mpr hf
  simp only [Dev.recordFails, ha, hp, running, Option.isNone_none, Bool.not_false, Bool.and_self, if_true]

/-- A write that fails again, or under PFAIL, or in FAULT: its record is lost. -/
def recordLost (d : Dev) (w : StoreWrite) : Dev :=
  { d with
    store := { d.store with writing := none, actionDone := d.store.actionDone || w.clean },
    keep := { d.keep with pfailWrite := if w.atPfail = true then 2 else d.keep.pfailWrite } }

theorem recordLost_keeps (d : Dev) (w : StoreWrite) : Keeps [.keep, .store] d (recordLost d w) := by
  show Keeps _ d ((d.onStore (fun p => { p with writing := none, actionDone := p.actionDone || w.clean })).onKeep
    (fun k => { k with pfailWrite := if w.atPfail = true then 2 else k.pfailWrite }))
  exact Keeps.andThen (onKeep_keeps _ _) (by decide) (Keeps.mono (onStore_keeps _ _) (by decide))

theorem recordFails_loses {d : Dev} (h : w.again = true ∨ d.store.pfailAt ≠ none ∨ d.pwr.state = .fault) : d.recordFails w =
    ((recordLost d w).postAll { event := .patchWrite, subject := w.bank.val, data0 := Err.patchWrite.code.toNat }).checkpointsDone
      (refusal .patchWrite) := by
  have notAgain : (!w.again && d.store.pfailAt.isNone && d.pwr.state != .fault) = false := by
    obtain h | h | h := h
    · rw [h]; rfl
    · rw [Option.isNone_eq_false_iff.mpr (Option.isSome_iff_ne_none.mpr h), Bool.and_false, Bool.false_and]
    · rw [h, bne_self_eq_false, Bool.and_false]
  simp only [Dev.recordFails, notAgain, Bool.false_eq_true, if_false]
  cases hpf : w.atPfail
  · simp only [recordLost, hpf, Bool.false_eq_true, if_false]
    rfl
  · simp only [recordLost, hpf, if_true]
    rfl

theorem storeWriteDone_repeats (hw : s.dev.store.writing = some w) (ht : w.started < instant s t ∧ instant s t ≤ w.ends)
    (hf : w.again = false ∧ s.dev.store.pfailAt = none ∧ s.dev.pwr.state ≠ .fault)
    (hc : s.dev.store.writes[s.dev.store.nextBank] ≠ 99999) :
    let old := s.dev.store
    let bank := old.nextBank
    Does (.storeWriteDone t false) s t [.store] (fun d => d.store.writes = old.writes.set bank.val (old.writes[bank] + 1) ∧
      d.store.newest = old.newest ∧
      d.store.trigger = old.trigger ∧ d.store.serving = old.serving ∧ d.store.waiting = old.waiting ∧ d.store.nextSeq = old.nextSeq ∧
      d.store.banks[1 - bank] = old.banks[1 - bank] ∧ (d.store.banks[bank]).take 4 = [0, 0, 0, 0] ∧
      d.store.writing.any (fun x => x.bank == bank && x.seq == old.nextSeq && x.clean == w.clean && x.again && x.started == instant s t &&
        x.ends == instant s t + us 40 + ns (10 * x.bytes.length) && x.bytes.drop 4 == (d.store.banks[bank]).drop 4) = true) := by
  intro old bank
  let d := here s t
  have count : (countedWrites d)[d.store.nextBank] ≠ 100000 := by
    rw [countedWrites_next]
    show s.dev.store.writes[s.dev.store.nextBank] + 1 ≠ 100000
    omega
  have ran := storeWriteDone_exec hw ht false
  rw [if_neg (by decide), recordFails_repeats (d := here s t) hf.1 hf.2.1 hf.2.2, beginWrite_eq, if_neg count] at ran
  obtain ⟨trigger, serving, waiting, newest, seq⟩ := begunStore_kept d w.clean true
  refine does_of ran (onStore_keeps _ _)
    ⟨rfl, newest, trigger, serving, waiting, seq, begunStore_otherBank d w.clean true, ?_, ?_⟩
  · exact (congrArg (List.take 4) (begunStore_bank d w.clean true)).trans (clearMagic_take _)
  · show (some (begunWrite d w.clean true)).any (fun x => _ && x.bytes.drop 4 == ((begunStore d w.clean true).banks[d.store.nextBank]).drop 4) = true
    rw [begunStore_bank, clearMagic_drop, Option.any_some, begunWrite_ends]
    have next : d.store.nextBank = bank ∧ d.store.nextSeq = old.nextSeq ∧ d.now = instant s t := ⟨rfl, rfl, rfl⟩
    simp [begunWrite, next]

theorem storeWriteDone_loses (hw : s.dev.store.writing = some w) (ht : w.started < instant s t ∧ instant s t ≤ w.ends)
    (hf : w.again = true ∨ s.dev.store.pfailAt ≠ none ∨ s.dev.pwr.state = .fault) (hs : s.dev.store.serving = Vector.replicate 4 false) :
    let e : Ev := { event := .patchWrite, subject := w.bank.val, data0 := Err.patchWrite.code.toNat }
    Does (.storeWriteDone t false) s t [.keep, .host, .store] (fun d =>
      d.store = { s.dev.store with writing := none, actionDone := s.dev.store.actionDone || w.clean } ∧
      d.keep = { s.dev.keep with pfailWrite := if w.atPfail = true then 2 else s.dev.keep.pfailWrite } ∧
      d.host = ((here s t).postAll e).host) := by
  intro e
  have lost : (here s t).recordFails w = (recordLost (here s t) w).postAll e := by
    rw [recordFails_loses (d := here s t) hf]
    exact checkpointsDone_none _ hs
  have ran := storeWriteDone_exec hw ht false
  rw [if_neg (by decide), lost] at ran
  exact does_of ran (Keeps.andThen (postAll_keeps _ _) (by decide) (Keeps.mono (recordLost_keeps _ _) (by decide)))
    ⟨rfl, rfl, postAll_host_congr rfl rfl e⟩

/-! ## CHECKPOINT_DUE (R559) -/

/-- Has the checkpoint interval passed since the last record? -/
def intervalPassed (s : State) (t : Time) : Bool :=
  decide (s.dev.store.lastAt + sec (3600 * s.dev.store.checkpointHours) ≤ instant s t)

theorem checkpointDue_exec : exec (.checkpointDue t) s = .next { s with dev :=
    if (s.dev.pwr.selected && intervalPassed s t) = true then (here s t).trigger else here s t } := rfl

theorem checkpointDue_unselected (hs : s.dev.pwr.selected = false) : Does (.checkpointDue t) s t [] (fun _ => True) :=
  does_ifNot checkpointDue_exec (by rw [hs]; exact Bool.false_ne_true)

theorem checkpointDue_selected (hs : s.dev.pwr.selected = true) : Does (.checkpointDue t) s t [.store]
    (fun d => d.store = { s.dev.store with trigger := intervalPassed s t || s.dev.store.trigger }) := by
  have run := checkpointDue_exec (s := s) (t := t)
  rw [hs, Bool.true_and] at run
  cases h : intervalPassed s t
  · rw [h, if_neg Bool.false_ne_true] at run
    exact does_of run (Keeps.refl _ _) rfl
  · rw [h, if_pos rfl] at run
    exact does_of run (trigger_keeps _) rfl

end

/-- Settles O55: the four commands by their checks and effects; a write that starts, verifies or fails by what it makes of the store. -/
theorem patchStore : Obligations.PatchStore := by
  unfold Obligations.PatchStore
  exact ⟨fun s t hs h0 h1 => psSet_sets hs h0 h1, fun s t b hs h hq => psPut_takes hs h hq, fun s t b hs h hq => psPut_refused hs h hq,
    fun s t b hs hh => psGet_answers hs hh, fun s t b hs => psCheckpoint_begins hs,
    fun s t hp h hw => storeWriteStart_writes hp h hw, fun s t hp h hw => storeWriteStart_wears hp h hw,
    fun s t h => storeWriteStart_idle (writeStarts_none (h.imp_right (Or.imp_right .inl))),
    fun s t w hw ht h => storeWriteDone_verifies hw ht h.2.1 h.2.2,
    fun s t w b run hw ht h hs hr => storeWriteDone_serves hw ht h.2 hs hr,
    fun s t w hw ht hf hc => storeWriteDone_repeats hw ht hf hc, fun s t w hw ht hf hs => storeWriteDone_loses hw ht hf hs,
    fun s t v hw => storeWriteDone_idle v hw, fun s t hs => checkpointDue_selected hs,
    fun s t hs => ⟨checkpointDue_unselected hs, storeWriteStart_idle (writeStarts_none (.inr (.inr (.inr hs))))⟩⟩

end Sys2Proof.Proofs

namespace Sys2Proof.Proofs
open Machine Laws

/-! ## The operation that a tile would begin (Table 08-8) -/

section
variable {d : Dev} {i : Fin 48} {op : PressOp}

theorem nextOp_queued (hu : (d.tiles[i]).urgent = false) (hq : (d.tiles[i]).queue.head? = some op) : d.nextOp i = some op := by
  simp only [Dev.nextOp, hu, hq, Bool.false_and, Bool.false_eq_true, if_false, Option.some_or]

/-- The inspection that is due on a tile. -/
def dueInspection (x : Tile) : PressOp := { inspectOp x.dueSince with tag := x.dueTag }

theorem nextOp_inspection (hq : (d.tiles[i]).queue = []) (ha : (d.tiles[i]).alive = true) (hd : (d.tiles[i]).due = true) :
    d.nextOp i = some (dueInspection d.tiles[i]) := by
  simp only [dueInspection, Dev.nextOp, Dev.inspectionDue, hq, ha, hd, Bool.and_self, if_true, List.head?_nil, Option.none_or, ite_self]

theorem nextOp_none (hq : (d.tiles[i]).queue = []) (hd : (d.tiles[i]).due = false) : d.nextOp i = none := by
  simp only [Dev.nextOp, Dev.inspectionDue, hq, hd, Bool.and_false, Bool.false_eq_true, if_false, List.head?_nil, Option.none_or,
    Option.isSome_none]

theorem not_urgent {x : Tile} (h : x.state ≠ .suspect) : x.urgent = false := by
  rw [Tile.urgent, beq_eq_false_iff_ne.mpr h, Bool.false_and]

end

/-! ## PRESS_OP_START (R358, R387, Table 08-6) -/

section
variable {s : State} {t : Time} {i : Fin 48} {op : PressOp}

/-- Nothing keeps the tile from an operation that is not a PATCH. -/
structure MayBegin (s : State) (t : Time) (i : Fin 48) (op : PressOp) : Prop where
  runs : s.dev.pwr.state = .active ∨ s.dev.pwr.state = .boot
  restored : s.dev.pwr.restored = true
  idle : s.dev.tiles[i].op = none
  serving : s.dev.tiles[i].state ≠ .retired
  free : (here s t).freeFor i op = true
  first : (here s t).groupBusy i op = false
  notPatch : op.kind ≠ .patch

theorem pressOpStart_begins (hn : (here s t).nextOp i = some op) (h : MayBegin s t i op) :
    exec (.pressOpStart t i) s = .next { s with dev := (here s t).opBegins i op } := by
  have hn : (s.dev.tick t).nextOp i = some op := hn
  have pressing : (s.dev.tick t).pressing = true := pressing_of h.runs
  have restored : (s.dev.tick t).pwr.restored = true := h.restored
  have idle : ((s.dev.tick t).tiles[i]).op.isSome = false := Option.isSome_eq_false_iff.mpr (Option.isNone_iff_eq_none.mpr h.idle)
  have serving : (((s.dev.tick t).tiles[i]).state == .retired) = false := beq_eq_false_iff_ne.mpr h.serving
  have free : (s.dev.tick t).freeFor i op = true := h.free
  have first : (s.dev.tick t).groupBusy i op = false := h.first
  have patch : (s.dev.tick t).patchHeld op = false := by
    rw [Dev.patchHeld, beq_eq_false_iff_ne.mpr h.notPatch, Bool.false_and]
  show execPressOpStart t i s = _
  simp only [execPressOpStart, onDev, hn, pressing, restored, idle, serving, free, first, patch, Bool.not_true, Bool.or_self,
    Bool.false_eq_true, if_false, here]

theorem pressOpStart_idle (hn : (here s t).nextOp i = none) : Does (.pressOpStart t i) s t [] (fun _ => True) := by
  refine does_nothing ?_
  have hn : (s.dev.tick t).nextOp i = none := hn
  show execPressOpStart t i s = _
  simp only [execPressOpStart, onDev, hn, here]

/-- A PR_PRESS begins: it takes its targets, and its rows come next. -/
theorem opBegins_press {d : Dev} {a first : Nat} (hk : op.kind = .press ∧ op.source = .records a first ∧ op.rows ≠ [])
    (hw : d.tiles[i].counter + op.rows.length * d.w16 ≤ 1622016000) :
    d.opBegins i op = ((d.onTile i (fun x => x.dequeue op)).onTile i (fun x => x.goesOn { op with
      targets := rowRecords (d.sram.bytes a (256 * op.rows.length)) first op.rows.length, step := .rows })).pressNeeds i := by
  obtain ⟨kind, source, rows⟩ := hk
  have served : d.servedBy i op = false := by simp [Dev.servedBy, kind]
  have dequeued : (d.onTile i (fun x => x.dequeue op)).tiles[i] = { d.tiles[i] with precedence := false, queue := d.tiles[i].queue.drop 1 } := by
    rw [onTile_same, Tile.dequeue, kind]
    rfl
  have worn : (d.onTile i (fun x => x.dequeue op)).worn ((d.onTile i (fun x => x.dequeue op)).tiles[i]) (op.judgedRows false) = false := by
    rw [dequeued, PressOp.judgedRows, kind]
    exact not_worn hw
  have targets : (d.onTile i (fun x => x.dequeue op)).opTargets i op =
      some (rowRecords (d.sram.bytes a (256 * op.rows.length)) first op.rows.length) := by
    rw [Dev.opTargets, source]
    rfl
  have notForm : (PressKind.press == PressKind.form) = false := rfl
  have notInspect : (PressKind.press == PressKind.inspect) = false := rfl
  have waits : (!op.rows.isEmpty) = true := by simpa using rows
  simp only [Dev.opBegins, served, worn, targets, kind, notForm, notInspect, waits, PressOp.advance, Bool.false_and, Bool.false_eq_true, if_false,
    if_true]

theorem onTile_twice (d : Dev) (i : Fin 48) (f g : Tile → Tile) : (d.onTile i f).onTile i g = d.onTile i (fun x => g (f x)) := by
  have same : (upd d.tiles i f)[i] = f d.tiles[i] := upd_same _ _ _
  show { d with tiles := (upd d.tiles i f).set i.val (g (upd d.tiles i f)[i]) } = { d with tiles := d.tiles.set i.val (g (f d.tiles[i])) }
  rw [same, upd_eq_set, Vector.set_set]

/-- The store after a tile has changed and its next row press has been looked at. -/
theorem onTile_needs_store {d : Dev} {x : Tile} {f : Tile → Tile} (hx : f d.tiles[i] = x)
    (hy : x.armed = d.tiles[i].armed ∧ x.counter = d.tiles[i].counter ∧ x.saved = d.tiles[i].saved) :
    ((d.onTile i f).pressNeeds i).store = storeNeeding d i d.tiles[i] := by
  rw [pressNeeds_store, onTile_same, hx]
  exact storeNeeding_congr rfl rfl hy

theorem onTile_needs_tiles {d : Dev} {x : Tile} {f : Tile → Tile} (hx : f d.tiles[i] = x) :
    ((d.onTile i f).pressNeeds i).tiles = d.tiles.set i.val x := by
  rw [pressNeeds_tiles, onTile_tiles, hx]

theorem onTile_needs_keeps (d : Dev) (i : Fin 48) (f : Tile → Tile) : Keeps [.tiles, .store] d ((d.onTile i f).pressNeeds i) :=
  Keeps.andThen (pressNeeds_keeps _ _) (by decide) (Keeps.mono (onTile_keeps _ _ _) (by decide))

/-- A row that changes one tile and looks at its next row press. -/
theorem does_onTile_needs {r : Instr} {x : Tile} {f : Tile → Tile}
    (hr : exec r s = .next { s with dev := ((here s t).onTile i f).pressNeeds i }) (hx : f s.dev.tiles[i] = x)
    (hy : x.armed = s.dev.tiles[i].armed ∧ x.counter = s.dev.tiles[i].counter ∧ x.saved = s.dev.tiles[i].saved) :
    Does r s t [.tiles, .store] (fun d => d.store = storeNeeding (here s t) i s.dev.tiles[i] ∧ d.tiles = s.dev.tiles.set i.val x) :=
  does_of hr (onTile_needs_keeps _ _ _) ⟨onTile_needs_store (d := here s t) hx hy, onTile_needs_tiles (d := here s t) hx⟩

theorem pressOpStart_press {r : List PressOp} {a first : Nat} (h : MayBegin s t i op) (hq : s.dev.tiles[i].queue = op :: r)
    (hx : s.dev.tiles[i].state ≠ .suspect) (hk : op.kind = .press ∧ op.source = .records a first ∧ op.rows ≠ [] ∧ op.selfFails = 0)
    (hw : s.dev.tiles[i].counter + op.rows.length * (here s t).w16 ≤ 1622016000) :
    let begun := { op with
      targets := rowRecords (s.dev.sram.bytes a (256 * op.rows.length)) first op.rows.length, step := .rows }
    Does (.pressOpStart t i) s t [.tiles, .store] (fun d => d.store = storeNeeding (here s t) i s.dev.tiles[i] ∧
      d.tiles = s.dev.tiles.set i.val { s.dev.tiles[i] with
        queue := r, precedence := false, state := .pressing, recorded := some .press, op := some begun }) := by
  intro begun
  obtain ⟨kind, source, rows, fails⟩ := hk
  have next : (here s t).nextOp i = some op := nextOp_queued (not_urgent hx) (congrArg List.head? hq)
  have run := pressOpStart_begins next h
  rw [opBegins_press (d := here s t) ⟨kind, source, rows⟩ hw, onTile_twice] at run
  have inspects : begun.inspects = false := by
    show (op.kind == .inspect || op.kind == .calibrate || decide (0 < op.selfFails)) = false
    rw [kind, fails]
    rfl
  have dequeued : s.dev.tiles[i].dequeue op = { s.dev.tiles[i] with precedence := false, queue := r } := by
    rw [Tile.dequeue, kind, hq]
    rfl
  refine does_onTile_needs run ?_ ⟨rfl, rfl, rfl⟩
  show (s.dev.tiles[i].dequeue op).goesOn begun = _
  rw [dequeued, Tile.goesOn, PressOp.recordKind, PressOp.tileState, inspects, show begun.kind = .press from kind]
  rfl

/-! ## An inspection begins (R373, R374, R387, Table 08-4) -/

/-- The next step of an operation changes its step, its rows and its darning alone. -/
theorem advance_kept (op : PressOp) : ∃ step rows queue, op.advance = { op with step := step, rows := rows, darnQueue := queue } := by
  unfold PressOp.advance
  split
  · exact ⟨op.step, op.rows, op.darnQueue, rfl⟩
  · split <;> exact ⟨_, _, _, rfl⟩

/-- Without darning to do, an operation that is not darning presses its rows or closes. -/
theorem advance_notDarn {op : PressOp} (hs : op.step ≠ .darn) (hq : op.darnQueue = []) : op.advance.step ≠ .darn := by
  unfold PressOp.advance
  split
  · exact hs
  · rw [hq]
    split
    · contradiction
    · simp
    · simp
    · contradiction

/-- The read of an inspection finds the rows to press again; what the operation is and has counted stays. -/
theorem inspectRead_kept (x : Tile) (op : PressOp) : ∃ step rows queue, x.inspectRead op =
    { op with targets := [], inconsistent := x.inconsistentRows, step := step, rows := rows, darnQueue := queue } := advance_kept _

theorem inspectRead_notDarn (x : Tile) {op : PressOp} (hq : op.darnQueue = []) : (x.inspectRead op).step ≠ .darn :=
  advance_notDarn (by simp) hq

/-- A tile with an inspection on it is INSPECTING. -/
theorem goesOn_inspecting (x : Tile) {op : PressOp} (hi : op.inspects = true) (hs : op.step ≠ .darn) :
    x.goesOn op = { x with op := some op, state := .inspecting, recorded := some .inspect } := by
  have running : op.tileState = .inspecting := by
    rw [PressOp.tileState, hi, bne_iff_ne.mpr hs]
    rfl
  rw [Tile.goesOn, PressOp.recordKind, running]
  rfl

/-- The tile without the inspection that was due. -/
def undueTile (x : Tile) : Tile := { x with precedence := false, due := false, dueTag := 0 }

/-- The inspection of a tile once it has read the tile. -/
def begunInspection (x : Tile) : PressOp := (undueTile x).inspectRead { dueInspection x with step := .rows }

theorem begunInspection_kept (x : Tile) : (begunInspection x).kind = .inspect ∧ (begunInspection x).since = x.dueSince ∧
    (begunInspection x).tag = x.dueTag := by
  obtain ⟨step, rows, queue, h⟩ := inspectRead_kept (undueTile x) { dueInspection x with step := .rows }
  rw [begunInspection, h]
  exact ⟨rfl, rfl, rfl⟩

/-- The tile as its inspection begins. -/
def inspectedTile (x : Tile) : Tile := { undueTile x with op := some (begunInspection x), state := .inspecting, recorded := some .inspect }

theorem opBegins_inspect {d : Dev} (hb : d.tiles[i].counter < enduranceBudget) :
    d.opBegins i (dueInspection d.tiles[i]) = (d.onTile i (fun _ => inspectedTile d.tiles[i])).pressNeeds i := by
  let x := d.tiles[i]
  let op := dueInspection x
  have dequeued : (d.onTile i (fun x => x.dequeue op)).tiles[i] = undueTile x := onTile_same _ _ _
  have worn : (d.onTile i (fun x => x.dequeue op)).worn (undueTile x) (op.judgedRows false) = false := by
    show (d.onTile i (fun x => x.dequeue op)).worn (undueTile x) 0 = false
    rw [Dev.worn, Nat.zero_mul]
    rfl
  have targets : (d.onTile i (fun x => x.dequeue op)).opTargets i op = some [] := rfl
  have served : d.servedBy i op = false := rfl
  have notForm : (PressKind.inspect == PressKind.form) = false := rfl
  have inspect : op.kind = .inspect := rfl
  have budget : decide (enduranceBudget ≤ (undueTile x).counter) = false := decide_eq_false (Nat.not_le.mpr hb)
  have running : (undueTile x).goesOn (begunInspection x) = inspectedTile x := by
    refine goesOn_inspecting _ ?_ (inspectRead_notDarn _ rfl)
    rw [PressOp.inspects, (begunInspection_kept x).1]
    rfl
  show Dev.opBegins d i op = _
  simp only [Dev.opBegins, served, dequeued, worn, targets, notForm, inspect, budget, Bool.false_and, Bool.and_false, Bool.false_eq_true,
    if_false, onTile_twice]
  exact congrArg (fun y => Dev.pressNeeds { d with tiles := d.tiles.set i.val y } i) running

theorem loaded_nil {d : Dev} (h : ∀ k : Handle, d.models[k] = none) : d.loaded = [] := by
  simp [Dev.loaded, h]

/-- With no run in flight and no other tile of the group at work, the inspection of a SUSPECT tile may begin. -/
theorem mayBegin_suspect (hp : s.dev.pwr.state = .active ∨ s.dev.pwr.state = .boot) (hr : s.dev.pwr.restored = true)
    (ho : s.dev.tiles[i].op = none) (hx : s.dev.tiles[i].state = .suspect) (hm : ∀ h : Fin 16, s.dev.models[h] = none)
    (hothers : ∀ j : Fin 48, j ≠ i → (s.dev.tiles[j]).op = none ∧ (s.dev.tiles[j]).state ≠ .suspect) :
    MayBegin s t i (dueInspection s.dev.tiles[i]) where
  runs := hp
  restored := hr
  idle := ho
  serving := by rw [hx]; decide
  free := by rw [Dev.freeFor, loaded_nil (d := here s t) hm]; rfl
  first := by
    refine List.any_eq_false.mpr fun j _ => ?_
    by_cases hj : j = i
    · simp [hj]
    · have idle : ((here s t).tiles[j]).op.isSome = false :=
        Option.isSome_eq_false_iff.mpr (Option.isNone_iff_eq_none.mpr (hothers j hj).1)
      have calm : ((here s t).tiles[j]).urgent = false := not_urgent (hothers j hj).2
      rw [idle, calm]
      simp
  notPatch := show PressKind.inspect ≠ .patch by decide

theorem pressOpStart_inspects (hp : s.dev.pwr.state = .active ∨ s.dev.pwr.state = .boot) (hr : s.dev.pwr.restored = true)
    (hq : s.dev.tiles[i].queue = []) (ho : s.dev.tiles[i].op = none) (hx : s.dev.tiles[i].state = .suspect) (hd : s.dev.tiles[i].due = true)
    (hm : ∀ h : Fin 16, s.dev.models[h] = none)
    (hothers : ∀ j : Fin 48, j ≠ i → (s.dev.tiles[j]).op = none ∧ (s.dev.tiles[j]).state ≠ .suspect)
    (hb : s.dev.tiles[i].counter < enduranceBudget) :
    Does (.pressOpStart t i) s t [.tiles, .store] (fun d => d.tiles = s.dev.tiles.set i.val (inspectedTile s.dev.tiles[i])) := by
  have alive : s.dev.tiles[i].alive = true := by rw [Tile.alive, hx]; rfl
  have run := pressOpStart_begins (nextOp_inspection (d := here s t) hq alive hd) (mayBegin_suspect (t := t) hp hr ho hx hm hothers)
  rw [opBegins_inspect (d := here s t) hb] at run
  exact does_imp (does_onTile_needs run rfl ⟨rfl, rfl, rfl⟩) (fun d hd => hd.2)

/-! ## UPKEEP_PRECEDENCE (R388) -/

theorem upkeepPrecedence_idle (hn : (here s t).nextOp i = none) : Does (.upkeepPrecedence t i) s t [] (fun _ => True) := by
  refine does_nothing ?_
  have hn : (s.dev.tick t).nextOp i = none := hn
  show execUpkeepPrecedence t i s = _
  simp only [execUpkeepPrecedence, onDev, hn, here]

theorem upkeepPrecedence_takes (hx : s.dev.tiles[i].state ≠ .suspect) (ho : s.dev.tiles[i].op = none)
    (hq : s.dev.tiles[i].queue.head? = some op) (hf : (here s t).freeFor i op = false) (hw : op.since + sec 1 ≤ instant s t) :
    Does (.upkeepPrecedence t i) s t [.tiles] (fun d => d.tiles = s.dev.tiles.set i.val { s.dev.tiles[i] with precedence := true }) := by
  refine does_of (d := (here s t).onTile i (fun x => { x with precedence := true })) ?_ (onTile_keeps _ _ _) rfl
  have next : (s.dev.tick t).nextOp i = some op := nextOp_queued (not_urgent hx) hq
  have idle : ((s.dev.tick t).tiles[i]).op.isNone = true := Option.isNone_iff_eq_none.mpr ho
  have held : (s.dev.tick t).freeFor i op = false := hf
  have waited : decide (op.since + sec 1 ≤ (s.dev.tick t).now) = true := decide_eq_true hw
  show execUpkeepPrecedence t i s = _
  simp only [execUpkeepPrecedence, onDev, next, idle, held, waited, Bool.not_false, Bool.and_self, if_true, here]

end
end Sys2Proof.Proofs

namespace Sys2Proof.Proofs
open Machine Laws

/-! ## A row press completes (R348, R349, R393) -/

/-- Cells that get their levels change nothing else of a tile. -/
theorem setLevels_cells (x : Tile) (row : Nat) (cs : List CellRead) : ∃ cells, x.setLevels row cs = { x with cells := cells } := by
  induction cs generalizing x with
  | nil => exact ⟨x.cells, rfl⟩
  | cons c cs ih =>
    obtain ⟨cells, h⟩ := ih (x.setLevel row c.column c.level)
    exact ⟨cells, h⟩

section
variable {s : State} {t : Time} {i : Fin 48} {op : PressOp} {f : RowFlight} {iters : Nat} {after : List CellRead}

/-- A tag that no run has left. -/
theorem not_aborts {p : Spool} {id : Fin 4096} (h : ∀ u ∈ p.tags, u.id = id → u.aborting = false) : p.aborts id = false := by
  unfold Spool.aborts Spool.tag
  split
  next u hu => exact h u (List.mem_of_find?_eq_some hu) (by simpa using List.find?_some hu)
  · rfl

/-- An operation with its row in flight pressed. A row of a darning pair counts as no row of the operation's own. -/
def rowStep (f : RowFlight) (cells : Nat) (op : PressOp) : PressOp :=
  { op with
    inFlight := none, rows := op.rows.drop 1, pressed := op.pressed + 1,
    repressed := if op.step == .rows then op.repressed + cells else op.repressed,
    written := if op.step == .rows then op.written ++ [f.row] else op.written }

theorem rowStep_rows {op : PressOp} (h : op.step = .rows) (f : RowFlight) (cells : Nat) : rowStep f cells op =
    { op with
      inFlight := none, rows := op.rows.drop 1, pressed := op.pressed + 1, repressed := op.repressed + cells,
      written := op.written ++ [f.row] } := by
  rw [rowStep, h]
  rfl

theorem advance_rows {op : PressOp} (h : op.rows ≠ []) : op.advance = op := by
  have waits : (!op.rows.isEmpty) = true := by simpa using h
  simp only [PressOp.advance, waits, if_true]

theorem goesOn_rows (x : Tile) {op : PressOp} (hs : op.step = .rows) : x.goesOn op =
    if op.inspects = true then { x with op := some op, state := .inspecting, recorded := some .inspect }
    else { x with op := some op, state := .pressing, recorded := some op.kind } := by
  split
  next h => exact goesOn_inspecting x h (by simp [hs])
  next h =>
    have quiet : op.inspects = false := by simpa using h
    rw [Tile.goesOn, PressOp.recordKind, PressOp.tileState, quiet]
    rfl

theorem onTile_congr {d : Dev} {g k : Tile → Tile} (h : g d.tiles[i] = k d.tiles[i]) : d.onTile i g = d.onTile i k := by
  exact congrArg (fun y => ({ d with tiles := d.tiles.set i.val y } : Dev)) h

/-- The operation on a tile takes its next step. -/
theorem advanceOp_eq {d : Dev} (h : d.tiles[i].op = some op) : d.advanceOp i = d.onTile i (fun x => x.goesOn op.advance) := by
  refine onTile_congr ?_
  simp only [h]

theorem onSpool_onTile (d : Dev) (p : Spool → Spool) (i : Fin 48) (g : Tile → Tile) : (d.onSpool p).onTile i g = (d.onTile i g).onSpool p := rfl

theorem rowPress_cases : exec (.rowPress t i iters after) s = .next { s with
    dev := if ((here s t).pressing || (here s t).pwr.state == .hold || (here s t).pwr.state == .fault) = true then (here s t).rowPress i iters after
      else here s t } := rfl

theorem rowPress_exec (hp : s.dev.pwr.state = .active ∨ s.dev.pwr.state = .boot ∨ s.dev.pwr.state = .hold ∨ s.dev.pwr.state = .fault) :
    exec (.rowPress t i iters after) s = .next { s with dev := (here s t).rowPress i iters after } := by
  have goes : ((here s t).pressing || (here s t).pwr.state == .hold || (here s t).pwr.state == .fault) = true := by
    have state : (here s t).pwr.state = s.dev.pwr.state := rfl
    obtain hp | hp | hp | hp := hp <;> simp [Dev.pressing, state, hp]
  rw [rowPress_cases, if_pos goes]

/-- A row press that cannot complete now leaves the device as it is, whatever the power state. -/
theorem rowPress_stays (h : (here s t).rowPress i iters after = here s t) : Does (.rowPress t i iters after) s t [] (fun _ => True) :=
  does_nothing (by rw [rowPress_cases, h, ite_self])

theorem rowPress_idle (h : ∀ o ∈ s.dev.tiles[i].op, o.inFlight = none) : Does (.rowPress t i iters after) s t [] (fun _ => True) := by
  refine rowPress_stays ?_
  unfold Dev.rowPress
  dsimp only
  split
  next o ho => rw [h o ho]
  · rfl

theorem rowPress_early (ho : s.dev.tiles[i].op = some op) (hf : op.inFlight = some f) (ht : instant s t ≠ f.start + rowTime iters) :
    Does (.rowPress t i iters after) s t [] (fun _ => True) := by
  refine rowPress_stays ?_
  have ho : (here s t).tiles[i].op = some op := ho
  have early : ((here s t).now != f.start + rowTime iters) = true := bne_iff_ne.mpr ht
  simp only [Dev.rowPress, ho, hf, early, if_true]

/-- A row after which no pair fails, and not the last: the operation goes on with the next one. -/
theorem rowPress_goesOn {y : Tile} {cells : Nat}
    (hp : s.dev.pwr.state = .active ∨ s.dev.pwr.state = .boot ∨ s.dev.pwr.state = .hold ∨ s.dev.pwr.state = .fault)
    (ho : s.dev.tiles[i].op = some op) (hf : op.inFlight = some f) (hs : op.step = .rows ∧ 1 < op.rows.length)
    (ht : instant s t = f.start + rowTime iters) (hr : s.dev.tiles[i].pressRow op f.row iters f.outs after = some (y, [], cells))
    (hy : ∃ c, y = { s.dev.tiles[i] with cells := c }) :
    Does (.rowPress t i iters after) s t [.tiles, .spool, .store] (fun d =>
      d.tiles = s.dev.tiles.set i.val (y.goesOn (rowStep f cells op)) ∧
      d.spool = s.dev.spool.retire (instant s t) f.tag (!s.dev.spool.aborts f.tag) ∧
      d.store = storeNeeding (here s t) i s.dev.tiles[i]) := by
  obtain ⟨c, hc⟩ := hy
  let d := here s t
  let p := d.spool.retire d.now f.tag (!d.spool.aborts f.tag)
  have more : (rowStep f cells op).rows ≠ [] := by
    rw [← List.length_pos_iff]
    show 0 < (op.rows.drop 1).length
    rw [List.length_drop]
    omega
  have done : d.rowPress i iters after = ((d.onTile i (fun _ => y.goesOn (rowStep f cells op))).onSpool (fun _ => p)).pressNeeds i := by
    have ho : d.tiles[i].op = some op := ho
    have hr : d.tiles[i].pressRow op f.row iters f.outs after = some (y, [], cells) := hr
    have now : (d.now != f.start + rowTime iters) = false := bne_eq_false_iff_eq.mpr ht
    simp only [Dev.rowPress, ho, hf, hr, now, Bool.false_eq_true, if_false]
    have stepped : y.op.map (rowStep f cells) = some (rowStep f cells op) := by
      rw [hc]
      exact congrArg (Option.map _) ho
    let z : Tile := { y with op := some (rowStep f cells op) }
    have pressed : (d.onTile i (fun _ => y)).onTile i (fun x => { x with op := x.op.map (rowStep f cells) }) = d.onTile i (fun _ => z) := by
      rw [onTile_twice, stepped]
    show ((Dev.onSpool ((d.onTile i (fun _ => y)).onTile i (fun x => { x with op := x.op.map (rowStep f cells) })) (fun _ => p)).advanceOp
      i).pressNeeds i = _
    have stepping : ((d.onTile i (fun _ => z)).onSpool (fun _ => p)).tiles[i].op = some (rowStep f cells op) := by
      rw [onSpool_tiles, onTile_same]
    rw [pressed, advanceOp_eq stepping, advance_rows more, onSpool_onTile, onTile_twice]
    rfl
  have run := rowPress_exec (t := t) (i := i) (iters := iters) (after := after) hp
  rw [done] at run
  have same : (y.goesOn (rowStep f cells op)).armed = s.dev.tiles[i].armed ∧ (y.goesOn (rowStep f cells op)).counter = s.dev.tiles[i].counter ∧
      (y.goesOn (rowStep f cells op)).saved = s.dev.tiles[i].saved := by
    rw [hc]
    exact ⟨rfl, rfl, rfl⟩
  refine does_of run ?_ ⟨?_, (pressNeeds_keeps _ _) .spool (by decide), ?_⟩
  · exact Keeps.andThen (pressNeeds_keeps _ _) (by decide)
      (Keeps.andThen (onSpool_keeps _ _) (by decide) (Keeps.mono (onTile_keeps _ _ _) (by decide)))
  · rw [pressNeeds_tiles]
    rfl
  · rw [pressNeeds_store]
    refine storeNeeding_congr rfl rfl ?_
    rw [onSpool_tiles, onTile_same]
    exact same

theorem pressRow_good (hf : f.outs ≠ [] ∧ 2 ≤ iters ∧ iters ≤ 12)
    (hleft : (s.dev.tiles[i].setLevels f.row (pulsed f.outs after)).outCells op f.row = []) :
    s.dev.tiles[i].pressRow op f.row iters f.outs after =
      some (s.dev.tiles[i].setLevels f.row (pulsed f.outs after), [], f.outs.length) := by
  obtain ⟨outs, least, most⟩ := hf
  have range : ¬ (iters = 0 ∨ 12 < iters) := by omega
  have one : iters ≠ 1 := by omega
  have some_ : f.outs.isEmpty = false := by simpa using outs
  simp only [Tile.pressRow, hleft, range, one, some_, List.isEmpty_nil, Bool.not_true, Bool.false_eq_true, and_false, if_false]
  rfl

/-- Its first verify read found no cell out of tolerance. -/
theorem pressRow_still (hf : f.outs = []) : s.dev.tiles[i].pressRow op f.row 1 f.outs [] = some (s.dev.tiles[i], [], 0) := by
  rw [hf]
  rfl

theorem rowPress_pulsed (hp : s.dev.pwr.state = .active ∨ s.dev.pwr.state = .boot ∨ s.dev.pwr.state = .hold ∨ s.dev.pwr.state = .fault)
    (ho : s.dev.tiles[i].op = some op) (hf : op.inFlight = some f) (hs : op.step = .rows ∧ 1 < op.rows.length)
    (ht : instant s t = f.start + rowTime iters) (hi : f.outs ≠ [] ∧ 2 ≤ iters ∧ iters ≤ 12)
    (hleft : (s.dev.tiles[i].setLevels f.row (pulsed f.outs after)).outCells op f.row = [])
    (hu : ∀ u ∈ s.dev.spool.tags, u.id = f.tag → u.aborting = false) :
    let y := s.dev.tiles[i].setLevels f.row (pulsed f.outs after)
    let next := { op with inFlight := none, rows := op.rows.drop 1, pressed := op.pressed + 1, repressed := op.repressed + f.outs.length,
                          written := op.written ++ [f.row] }
    let z : Tile := if op.inspects = true then { y with op := some next, state := .inspecting, recorded := some .inspect }
      else { y with op := some next, state := .pressing, recorded := some op.kind }
    Does (.rowPress t i iters after) s t [.tiles, .spool, .store] (fun d => d.tiles = s.dev.tiles.set i.val z ∧
      d.spool = s.dev.spool.retire (instant s t) f.tag true ∧ d.store = storeNeeding (here s t) i s.dev.tiles[i]) := by
  intro y next z
  have stepped : y.goesOn (rowStep f f.outs.length op) = z := by
    rw [rowStep_rows hs.1]
    exact goesOn_rows y (op := next) hs.1
  have goes := rowPress_goesOn hp ho hf hs ht (pressRow_good hi hleft) (setLevels_cells _ _ _)
  rw [stepped, not_aborts hu] at goes
  exact goes

theorem rowPress_unpulsed (hp : s.dev.pwr.state = .active ∨ s.dev.pwr.state = .boot) (ho : s.dev.tiles[i].op = some op)
    (hf : op.inFlight = some f) (hs : op.step = .rows ∧ 1 < op.rows.length) (ht : instant s t = f.start + rowTime 1) (houts : f.outs = [])
    (hn : op.inspects = false) :
    let next := { op with inFlight := none, rows := op.rows.drop 1, pressed := op.pressed + 1, written := op.written ++ [f.row] }
    Does (.rowPress t i 1 []) s t [.tiles, .spool, .store] (fun d =>
      d.tiles = s.dev.tiles.set i.val { s.dev.tiles[i] with op := some next, state := .pressing, recorded := some op.kind } ∧
      d.store = storeNeeding (here s t) i s.dev.tiles[i]) := by
  intro next
  have stepped : s.dev.tiles[i].goesOn (rowStep f 0 op) =
      { s.dev.tiles[i] with op := some next, state := .pressing, recorded := some op.kind } := by
    rw [rowStep_rows hs.1]
    have quiet : ¬ (next.inspects = true) := Bool.eq_false_iff.mp hn
    exact (goesOn_rows _ (op := next) hs.1).trans (if_neg quiet)
  have hp : s.dev.pwr.state = .active ∨ s.dev.pwr.state = .boot ∨ s.dev.pwr.state = .hold ∨ s.dev.pwr.state = .fault := by
    obtain hp | hp := hp <;> simp [hp]
  have goes := rowPress_goesOn hp ho hf hs ht (pressRow_still houts) ⟨_, rfl⟩
  rw [stepped] at goes
  exact does_imp goes (fun d hd => ⟨hd.1, hd.2.2⟩)

end
end Sys2Proof.Proofs

namespace Sys2Proof.Proofs
open Machine Laws

/-! ## The configuration that an operation leaves (R389) -/

theorem applyDarned_kept (x : Tile) (es : List (Nat × Nat)) : ∃ remap, x.applyDarned es = { x with remap := remap } := by
  induction es generalizing x with
  | nil => exact ⟨x.remap, rfl⟩
  | cons e es ih => exact ih _

/-- Row remainders change nothing else of a tile, and depend on nothing else of it. -/
theorem applyRemainders_kept (written : List Nat) (ts : List RowTarget) (rems : List (Nat × Int)) : ∃ rems', ∀ x : Tile, x.remainders = rems →
    x.applyRemainders written ts = { x with remainders := rems' } := by
  induction ts generalizing rems with
  | nil => exact ⟨rems, fun x hx => by subst hx; rfl⟩
  | cons t ts ih =>
    by_cases h : written.contains t.row = true
    · obtain ⟨rems', h'⟩ := ih ((List.range 8).foldl (fun l s =>
        if (t.rems[s]?).getD 0 = 0 then assocErase (8 * t.row + s) l else assocSet (8 * t.row + s) ((t.rems[s]?).getD 0) l) rems)
      refine ⟨rems', fun x hx => ?_⟩
      simp only [Tile.applyRemainders, h, if_true]
      exact h' _ (by rw [← hx])
    · obtain ⟨rems', h'⟩ := ih rems
      refine ⟨rems', fun x hx => ?_⟩
      simp only [Tile.applyRemainders, h]
      exact h' x hx

/-- An operation leaves a tile with other remap entries, trims and remainders alone; the remainders depend on the old ones alone. -/
theorem effective_kept (op : PressOp) (rems : List (Nat × Int)) : ∃ rems', ∀ x : Tile, x.remainders = rems →
    ∃ remap bad trims, x.effective op = { x with remap := remap, darnBad := bad, trims := trims, remainders := rems' } := by
  obtain ⟨rems', h⟩ := applyRemainders_kept op.written op.targets (op.newRems.getD rems)
  refine ⟨rems', fun x hx => ?_⟩
  obtain ⟨remap, h'⟩ := applyDarned_kept { x with
    remap := vmap x.remap (fun j e => if op.freed.contains j then none else e), darnBad := vmap x.darnBad (fun j b => b || op.freed.contains j),
    trims := op.newTrims.getD x.trims, remainders := op.newRems.getD x.remainders } op.darned
  refine ⟨_, _, _, Eq.trans (congrArg (fun y : Tile => y.applyRemainders op.written op.targets) h') (h _ ?_)⟩
  rw [hx]

/-! ## PRESS_OP_CLOSE (R351, R376, R385, R386, R389) -/

section
variable {s : State} {t : Time} {i : Fin 48} {op : PressOp}

/-- A tile whose seams have been compared. -/
def checkedTile (x : Tile) (now : Time) (c : SeamCount) : Tile :=
  { x.drove false now with compared := x.compared + BitVec.ofNat 32 c.made, seamFailures := x.seamFailures + BitVec.ofNat 32 c.failed }

/-- The device after the seam self-check of a tile, which draws 8 conversions. -/
def seamChecked (d : Dev) (i : Fin 48) (c : SeamCount) : Dev := (d.onFree (· + 8)).onTile i (fun x => checkedTile x d.now c)

/-- A tile as a PR_PRESS that has pressed its rows leaves it. -/
def endedTile (used : Bool) (op : PressOp) (x : Tile) : Tile :=
  { x.effective op with
    state := if used = true then .ready else .spare, op := none, recorded := none, bootChecked := false, content := x.content,
    needsPress := x.needsPress && !op.cures x.badRows, badRows := if op.cures x.badRows = true then [] else x.badRows, age := x.age,
    lastResult := x.lastResult }

/-- A PR_PRESS that has come to its end as it should. -/
structure Pressed (op : PressOp) : Prop where
  kind : op.kind = .press
  fails : op.selfFails = 0
  consistent : op.inconsistent = []
  notStopped : op.stopped = false

theorem Pressed.result {op : PressOp} (h : Pressed op) : op.result = 0 := by
  rw [PressOp.result, h.notStopped, h.kind]
  rfl

theorem opEnds_pressed {d : Dev} (h : Pressed op) :
    d.opEnds i op false = (d.onTile i (endedTile (d.inService i op) op)).postPressDone i op 0 := by
  have content : d.contentAfter i op = d.tiles[i].content := by
    simp only [Dev.contentAfter, h.notStopped, h.kind, Bool.false_eq_true, if_false]
  have notForm : (PressKind.press == .form) = false := rfl
  have notLoad : (PressKind.press == .load) = false := rfl
  have notInspect : (PressKind.press == .inspect) = false := rfl
  simp only [Dev.opEnds, content, h.result, h.consistent, h.fails, h.kind, notForm, notLoad, notInspect, List.isEmpty_nil, Bool.not_true,
    Bool.or_self, Bool.false_or, Nat.lt_irrefl, decide_false, Bool.false_eq_true, if_false]
  exact congrArg (fun e : Dev => e.postPressDone i op 0) (onTile_congr rfl)

/-- EV_PRESS_DONE of an operation with no inspection that follows it. -/
def pressDoneEv (i : Fin 48) (op : PressOp) : Ev :=
  { event := .pressDone, subject := i.val, data0 := op.units, tag := op.tag, data1 := min 1023 op.pressed + 1024 * min 15 op.pairsFailed }

theorem postPressDone_eq (d : Dev) (i : Fin 48) {op : PressOp} (h : op.report = none) :
    d.postPressDone i op 0 = d.postHeld (fun g => g.tiles[i]) (pressDoneEv i op) := by
  rw [Dev.postPressDone, h]
  rfl

theorem selfCheck_cases (d : Dev) (i : Fin 48) (op : PressOp) : d.selfCheck i op =
    let y := d.tiles[i].effective op
    let c := y.selfCheck d.free
    let e := seamChecked d i c
    if c.passes = true then e.opEnds i op false
    else if op.serving = true then e.onOp i (fun o => { o with serving := false, step := .rows, rows := List.range 512 })
    else if op.selfFails = 0 then
      (if (op.kind == .inspect) = true then e.postInspectDone i op else e).onTile i (fun x => x.goesOn (y.inspectRead (op.followOn y.remainders)))
    else (e.postTile i { event := .seamFail, subject := i.val, data0 := 0xFFFF, data1 := c.failed + c.unmade }).opEnds i op true := rfl

theorem selfCheck_passes {d : Dev} (h : ((d.tiles[i].effective op).selfCheck d.free).passes = true) :
    d.selfCheck i op = (seamChecked d i ((d.tiles[i].effective op).selfCheck d.free)).opEnds i op false := by
  rw [selfCheck_cases]
  simp only [h, if_true]

/-- A first failed self-check: the tile is read as an inspection reads it. -/
theorem selfCheck_fails {d : Dev} (h : ((d.tiles[i].effective op).selfCheck d.free).passes = false) (hs : op.serving = false)
    (hk : op.kind = .press) (hf : op.selfFails = 0) :
    d.selfCheck i op = (seamChecked d i ((d.tiles[i].effective op).selfCheck d.free)).onTile i (fun x =>
      x.goesOn ((d.tiles[i].effective op).inspectRead (op.followOn (d.tiles[i].effective op).remainders))) := by
  have notInspect : (op.kind == .inspect) = false := by rw [hk]; rfl
  rw [selfCheck_cases]
  simp only [h, hs, hf, notInspect, Bool.false_eq_true, if_false, if_true]

theorem pressClose_checks {d : Dev} (ho : d.tiles[i].op = some op) (hs : op.step = .closing ∧ op.kind = .press)
    (hq : op.darnQueue = [] ∧ op.selfFails = 0) : d.pressClose i = d.selfCheck i op := by
  obtain ⟨step, kind⟩ := hs
  obtain ⟨queue, fails⟩ := hq
  have inspects : op.inspects = false := by
    rw [PressOp.inspects, kind, fails]
    rfl
  have closing : (op.step != .closing) = false := by rw [step]; rfl
  simp only [Dev.pressClose, ho, closing, inspects, queue, List.isEmpty_nil, Bool.not_true, Bool.false_and, Bool.false_eq_true, if_false]

theorem pressOpClose_exec (hp : s.dev.pwr.state = .active ∨ s.dev.pwr.state = .boot) :
    exec (.pressOpClose t i) s = .next { s with dev := (here s t).pressClose i } := by
  have pressing : (s.dev.tick t).pressing = true := pressing_of hp
  show execPressOpClose t i s = _
  simp only [execPressOpClose, onDev, pressing, if_true, here]

theorem pressOpClose_idle (h : ∀ o ∈ s.dev.tiles[i].op, o.step ≠ .closing) : Does (.pressOpClose t i) s t [] (fun _ => True) := by
  refine does_nothing ?_
  have stays : (s.dev.tick t).pressClose i = s.dev.tick t := by
    unfold Dev.pressClose
    split
    · rfl
    next o ho => exact if_pos (bne_iff_ne.mpr (h o ho))
  show execPressOpClose t i s = _
  simp only [execPressOpClose, onDev, stays, ite_self, here]

theorem passes_made {c : SeamCount} (h : c.passes = true) : c.made = 64 := by
  rw [SeamCount.passes, Bool.and_eq_true] at h
  exact eq_of_beq h.1

theorem seamChecked_keeps (d : Dev) (i : Fin 48) (c : SeamCount) : Keeps [.tiles, .free] d (seamChecked d i c) :=
  Keeps.andThen (onTile_keeps _ _ _) (by decide) (Keeps.mono (onFree_keeps _ _) (by decide))

theorem seamChecked_onTile (d : Dev) (i : Fin 48) (c : SeamCount) (f : Tile → Tile) :
    (seamChecked d i c).onTile i f = (d.onFree (· + 8)).onTile i (fun x => f (checkedTile x d.now c)) := onTile_twice _ _ _ _

theorem seamChecked_tiles (d : Dev) (i : Fin 48) (c : SeamCount) (f : Tile → Tile) :
    ((seamChecked d i c).onTile i f).tiles = d.tiles.set i.val (f (checkedTile d.tiles[i] d.now c)) := by
  rw [seamChecked_onTile, onTile_tiles]
  rfl

/-- One tile is another one, and the others stay. -/
theorem set_tile {v w : Vector Tile 48} {x : Tile} (h : w = v.set i.val x) : w[i] = x ∧ ∀ j : Fin 48, j ≠ i → w[j] = v[j] := by
  subst h
  exact ⟨Vector.getElem_set_self _, fun j hj => Vector.getElem_set_ne i.isLt j.isLt (fun e => hj (Fin.ext e.symm))⟩

/-- The tile of a PR_PRESS whose self-check passes. -/
theorem pressOpClose_ends (hp : s.dev.pwr.state = .active ∨ s.dev.pwr.state = .boot) (ho : s.dev.tiles[i].op = some op)
    (hs : op.step = .closing) (hq : op.darnQueue = []) (h : Pressed op) (hr : op.report = none)
    (hc : ((s.dev.tiles[i].effective op).selfCheck s.dev.free).passes = true) :
    Does (.pressOpClose t i) s t [.host, .tiles, .free] (fun d =>
      d.tiles = s.dev.tiles.set i.val (endedTile ((here s t).inService i op) op
        (checkedTile s.dev.tiles[i] (instant s t) ((s.dev.tiles[i].effective op).selfCheck s.dev.free))) ∧
      d.host = ((here s t).postHeld (fun g => g.tiles[i]) (pressDoneEv i op)).host) := by
  have run := pressOpClose_exec (t := t) (i := i) hp
  rw [pressClose_checks (d := here s t) ho ⟨hs, h.kind⟩ ⟨hq, h.fails⟩, selfCheck_passes (d := here s t) hc, opEnds_pressed h,
    postPressDone_eq _ _ hr] at run
  refine does_of run ?_ ⟨?_, postHeld_host_congr rfl rfl rfl _ _⟩
  · exact Keeps.andThen (postHeld_keeps _ _ _) (by decide)
      (Keeps.andThen (onTile_keeps _ _ _) (by decide) (Keeps.mono (seamChecked_keeps _ _ _) (by decide)))
  · exact ((postHeld_keeps _ _ _) .tiles (by decide)).trans (seamChecked_tiles _ _ _ _)

theorem endedTile_checked (x : Tile) (now : Time) (used : Bool) (op : PressOp) {c : SeamCount} (hc : c.passes = true) :
    let z := endedTile used op (checkedTile x now c)
    z.remainders = (x.effective op).remainders ∧ z.compared = x.compared + 64 ∧ z.cells = x.cells ∧ z.age = x.age ∧ z.counter = x.counter := by
  obtain ⟨rems, kept⟩ := effective_kept op x.remainders
  obtain ⟨remap, bad, trims, before⟩ := kept x rfl
  obtain ⟨remap', bad', trims', after⟩ := kept (checkedTile x now c) rfl
  intro z
  simp only [z, endedTile, before, after]
  refine ⟨trivial, ?_, rfl, rfl, rfl⟩
  exact congrArg (fun n => x.compared + BitVec.ofNat 32 n) (passes_made hc)

theorem pressOpClose_passes (hp : s.dev.pwr.state = .active ∨ s.dev.pwr.state = .boot) (ho : s.dev.tiles[i].op = some op)
    (hs : op.step = .closing ∧ op.kind = .press)
    (hq : op.darnQueue = [] ∧ op.selfFails = 0 ∧ op.inconsistent = [] ∧ op.stopped = false ∧ op.report = none)
    (hc : ((s.dev.tiles[i].effective op).selfCheck s.dev.free).passes = true) :
    let x := s.dev.tiles[i]
    let state := if (here s t).inService i op = true then TileState.ready else .spare
    Does (.pressOpClose t i) s t [.host, .tiles, .free] (fun d => (∀ j : Fin 48, j ≠ i → d.tiles[j] = s.dev.tiles[j]) ∧
      d.tiles[i].state = state ∧ d.tiles[i].op = none ∧ d.tiles[i].content = x.content ∧ d.tiles[i].recorded = none ∧
      d.tiles[i].remainders = (x.effective op).remainders ∧ d.tiles[i].compared = x.compared + 64 ∧ d.tiles[i].cells = x.cells ∧
      d.tiles[i].age = x.age ∧ d.tiles[i].counter = x.counter ∧
      d.host = ((here s t).postHeld (fun g => g.tiles[i]) (pressDoneEv i op)).host) := by
  intro x state
  obtain ⟨queue, fails, consistent, notStopped, report⟩ := hq
  refine does_imp (pressOpClose_ends hp ho hs.1 queue ⟨hs.2, fails, consistent, notStopped⟩ report hc) fun d hd => ?_
  obtain ⟨remainders, compared, cells, age, counter⟩ := endedTile_checked x (instant s t) ((here s t).inService i op) op hc
  obtain ⟨tile, others⟩ := set_tile hd.1
  rw [tile]
  exact ⟨others, rfl, rfl, rfl, rfl, remainders, compared, cells, age, counter, hd.2⟩

/-- The inspection that follows a failed self-check. -/
theorem followOn_read (y : Tile) {op : PressOp} (hk : op.kind = .press) (hq : op.darnQueue = []) :
    let next := y.inspectRead (op.followOn y.remainders)
    next.inspects = true ∧ next.step ≠ .darn ∧ next.selfFails = 1 ∧ next.repressed = 0 ∧ next.pairsFailed = 0 ∧
      next.report = some (op.pressed, op.units, op.pairsFailed) := by
  intro next
  obtain ⟨step, rows, queue, h⟩ := inspectRead_kept y (op.followOn y.remainders)
  have report : (op.followOn y.remainders).report = some (op.pressed, op.units, op.pairsFailed) := by
    rw [PressOp.followOn, hk]
    rfl
  refine ⟨?_, inspectRead_notDarn y hq, ?_⟩
  · simp [next, h, PressOp.inspects, PressOp.followOn]
  · simp only [next, h]
    exact ⟨rfl, rfl, rfl, report⟩

/-- The tile of a PR_PRESS whose self-check fails for the first time. -/
theorem pressOpClose_inspects (hp : s.dev.pwr.state = .active ∨ s.dev.pwr.state = .boot) (ho : s.dev.tiles[i].op = some op)
    (hs : op.step = .closing ∧ op.kind = .press) (hq : op.darnQueue = [] ∧ op.selfFails = 0 ∧ op.serving = false)
    (hc : ((s.dev.tiles[i].effective op).selfCheck s.dev.free).passes = false) :
    let y := s.dev.tiles[i].effective op
    Does (.pressOpClose t i) s t [.tiles, .free] (fun d => d.tiles = s.dev.tiles.set i.val
      { checkedTile s.dev.tiles[i] (instant s t) (y.selfCheck s.dev.free) with
        op := some (y.inspectRead (op.followOn y.remainders)), state := .inspecting, recorded := some .inspect }) := by
  intro y
  obtain ⟨queue, fails, notServing⟩ := hq
  have run := pressOpClose_exec (t := t) (i := i) hp
  rw [pressClose_checks (d := here s t) ho hs ⟨queue, fails⟩, selfCheck_fails (d := here s t) hc notServing hs.2 fails] at run
  obtain ⟨inspects, notDarn, -⟩ := followOn_read y hs.2 queue
  refine does_of run ?_ ((seamChecked_tiles _ _ _ _).trans ?_)
  · exact Keeps.andThen (onTile_keeps _ _ _) (by decide) (Keeps.mono (seamChecked_keeps _ _ _) (by decide))
  · exact congrArg (s.dev.tiles.set i.val) (goesOn_inspecting _ inspects notDarn)

theorem pressOpClose_fails (hp : s.dev.pwr.state = .active ∨ s.dev.pwr.state = .boot) (ho : s.dev.tiles[i].op = some op)
    (hs : op.step = .closing ∧ op.kind = .press) (hq : op.darnQueue = [] ∧ op.selfFails = 0 ∧ op.serving = false)
    (hc : ((s.dev.tiles[i].effective op).selfCheck s.dev.free).passes = false) :
    let x := s.dev.tiles[i]
    Does (.pressOpClose t i) s t [.tiles, .free] (fun d => (∀ j : Fin 48, j ≠ i → d.tiles[j] = s.dev.tiles[j]) ∧
      d.tiles[i].state = .inspecting ∧ d.tiles[i].recorded = some .inspect ∧ d.tiles[i].cells = x.cells ∧ d.tiles[i].trims = x.trims ∧
      d.tiles[i].remap = x.remap ∧ d.tiles[i].remainders = x.remainders ∧
      d.tiles[i].op.any (fun o => o.selfFails == 1 && o.repressed == 0 && o.pairsFailed == 0 &&
        o.report == some (op.pressed, op.units, op.pairsFailed)) = true) := by
  intro x
  refine does_imp (pressOpClose_inspects hp ho hs hq hc) fun d hd => ?_
  obtain ⟨-, -, selfFails, repressed, pairsFailed, report⟩ := followOn_read (s.dev.tiles[i].effective op) hs.2 hq.1
  obtain ⟨tile, others⟩ := set_tile hd
  rw [tile]
  refine ⟨others, rfl, rfl, rfl, rfl, rfl, rfl, ?_⟩
  simpa [and_assoc] using And.intro selfFails ⟨repressed, pairsFailed, report⟩

end
end Sys2Proof.Proofs

namespace Sys2Proof.Proofs
open Machine Laws

/-! ## INSPECTION_DUE (R369) -/

section
variable {s : State} {t : Time} {i : Fin 48}

/-- Does an inspection of the tile fall due by its age? -/
def fallsDue (d : Dev) (i : Fin 48) : Bool :=
  d.upkeep.auto && d.tiles[i].alive && !d.tiles[i].needsPress && d.tiles[i].op.isNone && decide (d.upkeep.interval ≤ d.tiles[i].age)

theorem inspectionDue_cases : exec (.inspectionDue t i) s = .next { s with
    dev := if fallsDue (here s t) i = true then ((here s t).onTile i (fun x => x.makeDue (here s t).now)).pressNeeds i else here s t } := rfl

theorem inspectionDue_makes (hx : s.dev.tiles[i].state ≠ .blank ∧ s.dev.tiles[i].state ≠ .retired)
    (hu : s.dev.upkeep.auto = true ∧ s.dev.tiles[i].needsPress = false ∧ s.dev.tiles[i].op = none)
    (ha : s.dev.upkeep.baseHours * 7200 ≤ s.dev.tiles[i].age) (hd : s.dev.tiles[i].due = false) :
    Does (.inspectionDue t i) s t [.tiles, .store] (fun d => d.store = storeNeeding (here s t) i s.dev.tiles[i] ∧
      d.tiles = s.dev.tiles.set i.val { s.dev.tiles[i] with due := true, dueSince := instant s t }) := by
  obtain ⟨auto, press, idle⟩ := hu
  have alive : s.dev.tiles[i].alive = true := alive_iff.mpr hx
  have old : decide (s.dev.upkeep.interval ≤ s.dev.tiles[i].age) = true := decide_eq_true ha
  have falls : fallsDue (here s t) i = true := by
    show (s.dev.upkeep.auto && s.dev.tiles[i].alive && !s.dev.tiles[i].needsPress && s.dev.tiles[i].op.isNone &&
      decide (s.dev.upkeep.interval ≤ s.dev.tiles[i].age)) = true
    rw [auto, alive, press, idle, old]
    rfl
  have made : s.dev.tiles[i].makeDue (instant s t) = { s.dev.tiles[i] with due := true, dueSince := instant s t } := by
    rw [Tile.makeDue, alive, hd]
    rfl
  refine does_onTile_needs ?_ made ⟨rfl, rfl, rfl⟩
  rw [inspectionDue_cases, if_pos falls]
  rfl

theorem inspectionDue_idle (h : s.dev.upkeep.auto = false ∨ s.dev.tiles[i].age < s.dev.upkeep.baseHours * 7200) :
    Does (.inspectionDue t i) s t [] (fun _ => True) := by
  refine does_ifNot inspectionDue_cases fun falls => ?_
  simp only [fallsDue, Bool.and_eq_true, decide_eq_true_iff] at falls
  obtain ⟨⟨⟨⟨auto, -⟩, -⟩, -⟩, old⟩ := falls
  obtain manual | young := h
  · exact absurd (auto.symm.trans manual) (by decide)
  · exact absurd old (Nat.not_le.mpr young)

end

/-! ## Cells that get other levels (R345, R368, R395) -/

theorem cells_own {x y : Tile} (h : ∃ cells, y = { x with cells := cells }) : y = { x with cells := y.cells } := by
  obtain ⟨cells, rfl⟩ := h
  rfl

/-- The level of one cell changes the cells of its tile alone. -/
theorem onTile_setLevel (d : Dev) (c : CellDrift) (j : Fin 48) :
    ∃ cells, (d.onTile c.tile (fun x => x.setLevel c.row c.column c.level)).tiles[j] = { d.tiles[j] with cells := cells } := by
  by_cases hj : j = c.tile
  · subst hj
    exact ⟨_, onTile_same _ _ _⟩
  · exact ⟨d.tiles[j].cells, onTile_other _ _ hj⟩

/-- Cells change one step after the other. -/
theorem cells_trans {x y z : Tile} (h : ∃ cells, y = { x with cells := cells }) (h' : ∃ cells, z = { y with cells := cells }) :
    ∃ cells, z = { x with cells := cells } := by
  obtain ⟨_, rfl⟩ := h
  obtain ⟨cells, rfl⟩ := h'
  exact ⟨cells, rfl⟩

theorem driftCells_cells (d : Dev) (moved : List CellDrift) (j : Fin 48) :
    ∃ cells, (d.driftCells moved).tiles[j] = { d.tiles[j] with cells := cells } := by
  induction moved generalizing d with
  | nil => exact ⟨d.tiles[j].cells, rfl⟩
  | cons c cs ih =>
    refine cells_trans ?_ (ih _)
    split
    · exact onTile_setLevel d c j
    · exact ⟨d.tiles[j].cells, rfl⟩

theorem driftCells_other {d : Dev} {moved : List CellDrift} {j : Fin 48} (h : ∀ c ∈ moved, c.tile ≠ j) :
    (d.driftCells moved).tiles[j] = d.tiles[j] := by
  induction moved generalizing d with
  | nil => rfl
  | cons c cs ih =>
    obtain ⟨first, rest⟩ := List.forall_mem_cons.mp h
    refine (ih rest).trans ?_
    split
    · exact onTile_other _ _ first.symm
    · rfl

/-! ## DRIFT_AGE_ADVANCE (R368) -/

section
variable {s : State} {t : Time} {moved : List CellDrift}

/-- A tile one second older. -/
def agedTile (rate : Nat) (x : Tile) : Tile := if x.alive then { x with age := x.age + rate } else x

theorem agedTile_eq (rate : Nat) (x : Tile) : agedTile rate x =
    { x with age := if x.state = .blank ∨ x.state = .retired then x.age else x.age + rate } := by
  unfold agedTile
  by_cases h : x.alive = true
  · obtain ⟨blank, retired⟩ := alive_iff.mp h
    simp only [h, blank, retired, or_self, if_true, if_false]
  · have out : x.state = .blank ∨ x.state = .retired := not_alive_iff.mp (Bool.eq_false_iff.mpr h)
    rw [if_neg h, if_pos out]

/-- The device a second of drift later, its cells where they were. -/
def agedDev (d : Dev) : Dev := (d.onPwr (fun p => { p with driftAt := p.driftAt + sec 1 })).onTiles (fun v => v.map (agedTile d.driftRate))

theorem driftAgeAdvance_exec (hp : s.dev.pwr.state ≠ .off ∧ s.dev.pwr.state ≠ .reset) (ht : s.dev.pwr.driftAt + sec 1 ≤ instant s t) :
    exec (.driftAgeAdvance t moved) s = .next { s with dev := (agedDev (here s t)).driftCells moved } := by
  have answers : (s.dev.tick t).pwr.state.answers = true := answers_of _ hp.1 hp.2
  have fallen : ¬ ((s.dev.tick t).now < (s.dev.tick t).pwr.driftAt + sec 1) := Nat.not_lt.mpr ht
  show execDriftAgeAdvance t moved s = _
  simp only [execDriftAgeAdvance, onDev, answers, fallen, Bool.not_true, decide_false, Bool.or_self, Bool.false_eq_true, if_false]
  rfl

theorem agedDev_tile (d : Dev) (i : Fin 48) : (agedDev d).tiles[i] = agedTile d.driftRate d.tiles[i] := Vector.getElem_map _ _

theorem driftAgeAdvance_ages (hp : s.dev.pwr.state ≠ .off ∧ s.dev.pwr.state ≠ .reset) (ht : s.dev.pwr.driftAt + sec 1 ≤ instant s t) :
    Does (.driftAgeAdvance t moved) s t [.pwr, .tiles] (fun d => d.pwr = { s.dev.pwr with driftAt := s.dev.pwr.driftAt + sec 1 } ∧ ∀ i : Fin 48,
      let x := s.dev.tiles[i]
      let age := if x.state = .blank ∨ x.state = .retired then x.age else x.age + (here s t).driftRate
      (moved.all (fun m => m.tile != i) = true → d.tiles[i] = { x with age := age }) ∧
          d.tiles[i] = { x with age := age, cells := d.tiles[i].cells }) := by
  have aged : ∀ i : Fin 48, (agedDev (here s t)).tiles[i] = { s.dev.tiles[i] with
      age := if s.dev.tiles[i].state = .blank ∨ s.dev.tiles[i].state = .retired then s.dev.tiles[i].age
        else s.dev.tiles[i].age + (here s t).driftRate } := fun i => (agedDev_tile _ _).trans (agedTile_eq _ _)
  refine does_of (driftAgeAdvance_exec hp ht) ?_ ⟨?_, fun i => ⟨fun others => ?_, ?_⟩⟩
  · exact Keeps.andThen (driftCells_keeps _ _) (by decide)
      (Keeps.andThen (onTiles_keeps _ _) (by decide) (Keeps.mono (onPwr_keeps _ _) (by decide)))
  · exact (driftCells_keeps _ _) .pwr (by decide)
  · have elsewhere : ∀ c ∈ moved, c.tile ≠ i := fun c hc => bne_iff_ne.mp (List.all_eq_true.mp others c hc)
    exact (driftCells_other elsewhere).trans (aged i)
  · have drifted := driftCells_cells (agedDev (here s t)) moved i
    rw [aged i] at drifted
    exact cells_own drifted

theorem driftAgeAdvance_early (h : instant s t < s.dev.pwr.driftAt + sec 1) : Does (.driftAgeAdvance t moved) s t [] (fun _ => True) := by
  refine does_nothing ?_
  have early : (s.dev.tick t).now < (s.dev.tick t).pwr.driftAt + sec 1 := h
  show execDriftAgeAdvance t moved s = _
  simp only [execDriftAgeAdvance, onDev, early, decide_true, Bool.or_true, if_true, here]

end
end Sys2Proof.Proofs

namespace Sys2Proof.Proofs
open Machine Laws

/-! ## Rows in flight go back (R395) -/

/-- The cell is one that the row in flight of its tile pulses. -/
def Pulses (x : Tile) (c : CellDrift) : Prop := ∃ f, x.op.bind (·.inFlight) = some f ∧ f.row = c.row ∧ f.outs.contains c.column = true

/-- The iterations of one cell. -/
def pulseCell (d : Dev) (c : CellDrift) : Dev :=
  match (d.tiles[c.tile]).op.bind (·.inFlight) with
  | some f => if f.row = c.row ∧ f.outs.contains c.column then d.onTile c.tile (fun x => x.setLevel c.row c.column c.level) else d
  | none => d

theorem pulseCells_cons (d : Dev) (c : CellDrift) (cs : List CellDrift) : d.pulseCells (c :: cs) = (pulseCell d c).pulseCells cs := rfl

theorem pulseCell_sets {d : Dev} {c : CellDrift} (h : Pulses d.tiles[c.tile] c) :
    pulseCell d c = d.onTile c.tile (fun x => x.setLevel c.row c.column c.level) := by
  obtain ⟨f, hf, hc⟩ := h
  rw [pulseCell, hf]
  exact if_pos hc

theorem pulseCell_stays {d : Dev} {c : CellDrift} (h : ¬ Pulses d.tiles[c.tile] c) : pulseCell d c = d := by
  unfold pulseCell
  split
  next f hf => exact if_neg (fun hc => h ⟨f, hf, hc⟩)
  · rfl

theorem pulseCells_cells (d : Dev) (cs : List CellDrift) (j : Fin 48) :
    ∃ cells, (d.pulseCells cs).tiles[j] = { d.tiles[j] with cells := cells } := by
  induction cs generalizing d with
  | nil => exact ⟨d.tiles[j].cells, rfl⟩
  | cons c cs ih =>
    rw [pulseCells_cons]
    refine cells_trans ?_ (ih _)
    by_cases h : Pulses d.tiles[c.tile] c
    · rw [pulseCell_sets h]
      exact onTile_setLevel d c j
    · rw [pulseCell_stays h]
      exact ⟨d.tiles[j].cells, rfl⟩

theorem pulseCells_other {d : Dev} {cs : List CellDrift} {j : Fin 48} (h : ∀ c ∈ cs, c.tile ≠ j ∨ ¬ Pulses d.tiles[j] c) :
    (d.pulseCells cs).tiles[j] = d.tiles[j] := by
  induction cs generalizing d with
  | nil => rfl
  | cons c cs ih =>
    obtain ⟨first, rest⟩ := List.forall_mem_cons.mp h
    have stays : (pulseCell d c).tiles[j] = d.tiles[j] := by
      by_cases hp : Pulses d.tiles[c.tile] c
      · rw [pulseCell_sets hp]
        refine onTile_other _ _ fun hj => ?_
        subst hj
        exact first.elim (absurd rfl) (absurd hp)
      · rw [pulseCell_stays hp]
    rw [pulseCells_cons]
    rw [← stays] at rest
    exact (ih rest).trans stays

theorem level_setLevel (x : Tile) (row column : Nat) (level : Int) : (x.setLevel row column level).level row column = level := by
  have gone : (x.cells.filter (fun c => !(c.row == row && c.column == column))).find? (fun c => c.row == row && c.column == column) = none := by
    rw [List.find?_eq_none]
    intro c hc
    exact Bool.eq_false_iff.mp ((Bool.not_eq_true' _).mp (List.mem_filter.mp hc).2)
  unfold Tile.setLevel Tile.level
  by_cases h : level = 0
  · simp only [h, if_true, gone]
  · simp [h]

/-- A tile without its row in flight. -/
def unpressedTile (x : Tile) : Tile := { x with op := x.op.map (fun o => { o with inFlight := none }) }

theorem unpressedTile_idem (x : Tile) : unpressedTile (unpressedTile x) = unpressedTile x := by
  simp [unpressedTile, Function.comp_def]

theorem unpressedTile_idle {x : Tile} (h : x.op.bind (·.inFlight) = none) : unpressedTile x = x := by
  unfold unpressedTile
  match ho : x.op with
  | none => rw [Option.map_none, ← ho]
  | some o =>
    have idle : o.inFlight = none := by simpa [ho] using h
    rw [Option.map_some, ← idle, ← ho]

/-- The row in flight of one tile is put back. -/
def restartRow (d : Dev) (i : Fin 48) : Dev :=
  match (d.tiles[i]).op.bind (·.inFlight) with
  | some f => (d.onOp i (fun o => { o with inFlight := none })).retireTags (!d.spool.aborts f.tag) [f.tag]
  | none => d

theorem restartRows_cons (d : Dev) (i : Fin 48) (is : List (Fin 48)) : d.restartRows (i :: is) = (restartRow d i).restartRows is := rfl

theorem restartRow_same (d : Dev) (i : Fin 48) : (restartRow d i).tiles[i] = unpressedTile d.tiles[i] := by
  unfold restartRow
  split
  next f hf =>
    have kept := (retireTags_keeps (d.onOp i (fun o => { o with inFlight := none })) (!d.spool.aborts f.tag) [f.tag]) .tiles (by decide)
    exact (congrArg (fun v : Vector Tile 48 => v[i]) kept).trans (onTile_same _ _ _)
  next h => exact (unpressedTile_idle h).symm

theorem restartRow_other (d : Dev) {i j : Fin 48} (h : j ≠ i) : (restartRow d i).tiles[j] = d.tiles[j] := by
  unfold restartRow
  split
  next f hf =>
    have kept := (retireTags_keeps (d.onOp i (fun o => { o with inFlight := none })) (!d.spool.aborts f.tag) [f.tag]) .tiles (by decide)
    exact (congrArg (fun v : Vector Tile 48 => v[j]) kept).trans (onTile_other _ _ h)
  · rfl

theorem restartRows_tile (d : Dev) (is : List (Fin 48)) (j : Fin 48) :
    (d.restartRows is).tiles[j] = if j ∈ is then unpressedTile d.tiles[j] else d.tiles[j] := by
  induction is generalizing d with
  | nil => rfl
  | cons i is ih =>
    rw [restartRows_cons, ih]
    by_cases h : j = i
    · subst h
      rw [restartRow_same, unpressedTile_idem, ite_self, if_pos List.mem_cons_self]
    · simp [restartRow_other d h, h]

theorem restartRows_all (d : Dev) (j : Fin 48) : (d.restartRows (List.finRange 48)).tiles[j] = unpressedTile d.tiles[j] := by
  rw [restartRows_tile, if_pos (List.mem_finRange j)]

/-! ## VDDP_OUT_OF_RANGE, VDDP_IN_RANGE (R395) -/

section
variable {s : State} {t : Time} {cs : List CellDrift}

/-- The device with its rows in flight back where they were, VDDP out of range. -/
def vddpLost (d : Dev) (cs : List CellDrift) : Dev :=
  ((d.onPwr (fun p => { p with vddpOk := false })).pulseCells cs).restartRows (List.finRange 48)

theorem vddpLost_keeps (d : Dev) (cs : List CellDrift) : Keeps [.pwr, .tiles, .spool] d (vddpLost d cs) :=
  Keeps.andThen (restartRows_keeps _ _) (by decide)
    (Keeps.andThen (pulseCells_keeps _ _) (by decide) (Keeps.mono (onPwr_keeps _ _) (by decide)))

theorem vddpLost_pwr (d : Dev) (cs : List CellDrift) : (vddpLost d cs).pwr = { d.pwr with vddpOk := false } :=
  ((restartRows_keeps _ _) .pwr (by decide)).trans ((pulseCells_keeps _ _) .pwr (by decide))

theorem vddpLost_tile (d : Dev) (cs : List CellDrift) (j : Fin 48) : (vddpLost d cs).tiles[j] =
    unpressedTile ((d.onPwr (fun p => { p with vddpOk := false })).pulseCells cs).tiles[j] := restartRows_all _ _

theorem vddpOutOfRange_exec (hv : s.dev.pwr.vddpOk = true) (hp : s.dev.pwr.state ≠ .off ∧ s.dev.pwr.state ≠ .reset) :
    exec (.vddpOutOfRange { t := t, pulsed := cs }) s =
      .next { s with dev := (vddpLost (here s t) cs).postAll { event := .vddp, data0 := 1 } } := by
  have ok : (s.dev.tick t).pwr.vddpOk = true := hv
  have answers : ((s.dev.tick t).onPwr (fun p => { p with vddpOk := false })).pwr.state.answers = true := answers_of _ hp.1 hp.2
  show execVddpOutOfRange { t := t, pulsed := cs } s = _
  simp only [execVddpOutOfRange, onDev, ok, answers, Bool.not_true, Bool.false_eq_true, if_false, if_true]
  rfl

theorem vddpOutOfRange_loses (hv : s.dev.pwr.vddpOk = true) (hp : s.dev.pwr.state ≠ .off ∧ s.dev.pwr.state ≠ .reset) :
    Does (.vddpOutOfRange { t := t, pulsed := cs }) s t [.pwr, .host, .tiles, .spool] (fun d => d.pwr = { s.dev.pwr with vddpOk := false } ∧
      d.host = ((here s t).postAll { event := .vddp, data0 := 1 }).host ∧ d.tiles = (vddpLost (here s t) cs).tiles) := by
  have kept := vddpLost_keeps (here s t) cs
  refine does_of (vddpOutOfRange_exec hv hp) ?_ ⟨?_, ?_, (postAll_keeps _ _) .tiles (by decide)⟩
  · exact Keeps.andThen (postAll_keeps _ _) (by decide) (Keeps.mono kept (by decide))
  · exact ((postAll_keeps _ _) .pwr (by decide)).trans (vddpLost_pwr _ _)
  · exact postAll_host_congr (kept .host (by decide)) (kept .clk (by decide)) _

/-- Cells that no row in flight pulses stay. -/
theorem vddpLost_other {d : Dev} {i : Fin 48} (h : ∀ c ∈ cs, c.tile ≠ i ∨ ¬ Pulses d.tiles[i] c) :
    (vddpLost d cs).tiles[i] = unpressedTile d.tiles[i] :=
  (vddpLost_tile d cs i).trans (congrArg unpressedTile (pulseCells_other h))

theorem vddpLost_cells (d : Dev) (i : Fin 48) : ∃ cells, (vddpLost d cs).tiles[i] = { unpressedTile d.tiles[i] with cells := cells } := by
  obtain ⟨cells, h⟩ := pulseCells_cells (d.onPwr (fun p => { p with vddpOk := false })) cs i
  exact ⟨cells, (vddpLost_tile d cs i).trans (congrArg unpressedTile h)⟩

theorem vddpLost_level {d : Dev} {c : CellDrift} (h : Pulses d.tiles[c.tile] c) :
    ((vddpLost d [c]).tiles[c.tile]).level c.row c.column = c.level := by
  let e := d.onPwr (fun p => { p with vddpOk := false })
  have pulsed : (e.pulseCells [c]).tiles[c.tile] = e.tiles[c.tile].setLevel c.row c.column c.level := by
    have h : Pulses e.tiles[c.tile] c := h
    rw [pulseCells_cons, pulseCell_sets h]
    exact onTile_same _ _ _
  rw [vddpLost_tile, pulsed]
  exact level_setLevel _ _ _ _

theorem vddpInRange_returns (hv : s.dev.pwr.vddpOk = false) (hp : s.dev.pwr.state ≠ .off ∧ s.dev.pwr.state ≠ .reset) :
    Does (.vddpInRange t) s t [.pwr, .host] (fun d => d.pwr = { s.dev.pwr with vddpOk := true } ∧
      d.host = ((here s t).postAll { event := .vddp, data0 := 0 }).host) := by
  have lost : (s.dev.tick t).pwr.vddpOk = false := hv
  have answers : s.dev.pwr.state.answers = true := answers_of _ hp.1 hp.2
  have run : exec (.vddpInRange t) s = .next { s with
      dev := ((here s t).onPwr (fun p => { p with vddpOk := true })).postAll { event := .vddp, data0 := 0 } } := by
    show execVddpInRange t s = _
    simp only [execVddpInRange, onDev, lost, Bool.false_eq_true, if_false]
    exact congrArg (fun d => Host.Outcome.next { s with dev := d }) (if_pos answers)
  refine does_of run ?_ ⟨rfl, postAll_host_congr rfl rfl _⟩
  exact Keeps.andThen (postAll_keeps _ _) (by decide) (Keeps.mono (onPwr_keeps _ _) (by decide))

end

/-- A row is not pulsed in a cell of another row or in a column within its tolerance. -/
theorem not_pulses {x : Tile} {c : CellDrift} (h : ∀ f ∈ x.op.bind (·.inFlight), c.row ≠ f.row ∨ f.outs.contains c.column = false) :
    ¬ Pulses x c := by
  rintro ⟨f, hf, row, column⟩
  obtain other | within := h f hf
  · exact other row.symm
  · exact absurd (column.symm.trans within) (by decide)

/-- Settles O48: the operation starts, its rows complete and the tile leaves as the closing step finds it; drift, due inspections and VDDP. -/
theorem pressEvents : Obligations.PressEvents := by
  unfold Obligations.PressEvents
  refine ⟨?_, ?_, ?_, ?_, ?_, ?_, ?_, ?_, ?_, ?_, ?_, ?_, ?_, ?_, ?_, ?_, ?_, ?_⟩
  · intro s t i op r a first x w hp hr hq ho hx hk hf hw
    have serving : x.state ≠ .suspect ∧ x.state ≠ .retired := by obtain hx | hx := hx <;> simp [hx]
    have notPatch : op.kind ≠ .patch := by rw [hk.1]; decide
    exact pressOpStart_press ⟨hp, hr, ho, serving.2, hf.1, hf.2, notPatch⟩ hq serving.1 hk hw
  · intro s t i x hp hr hq ho hx hd hm hothers hb
    refine does_imp (pressOpStart_inspects hp hr hq ho hx hd hm hothers hb) fun d hd => ?_
    obtain ⟨kind, since, tag⟩ := begunInspection_kept s.dev.tiles[i]
    obtain ⟨tile, others⟩ := set_tile hd
    rw [tile]
    refine ⟨others, rfl, rfl, rfl, rfl, ?_⟩
    simpa [inspectedTile, x, and_assoc] using And.intro kind ⟨since, tag⟩
  · intro s t i x hx
    have none_ : (here s t).nextOp i = none := nextOp_none (d := here s t) hx.1 hx.2
    exact ⟨pressOpStart_idle none_, upkeepPrecedence_idle none_⟩
  · intro s t i op x hx ho hq hf hw
    exact upkeepPrecedence_takes hx ho hq hf hw
  · intro s t i iters after op f x w y hp ho hf hs ht hi hleft hu
    exact rowPress_pulsed hp ho hf ⟨hs.1, hs.2.2⟩ ht hi hleft hu
  · intro s t i op f x w hp ho hf hs ht houts hn
    exact rowPress_unpulsed hp ho hf ⟨hs.1, hs.2.2⟩ ht houts hn
  · intro s t i iters after op f x ho hf ht
    exact rowPress_early ho hf ht
  · intro s t i x hx iters
    exact rowPress_idle hx
  · intro s t i op x y hp ho hs hq hc
    exact pressOpClose_passes hp ho hs hq hc
  · intro s t i op x hp ho hs hq hc
    exact pressOpClose_fails hp ho hs hq hc
  · intro s t i x hx
    exact pressOpClose_idle hx
  · intro s t i x w hx hu ha hd
    exact does_imp (inspectionDue_makes hx hu ha hd) (fun d h => ⟨h.2, h.1⟩)
  · intro s t i x h
    exact inspectionDue_idle h
  · intro s t moved hp ht
    exact driftAgeAdvance_ages hp ht
  · intro s t moved h
    exact driftAgeAdvance_early h
  · intro s t cs hv hp e
    refine does_imp (vddpOutOfRange_loses hv hp) fun d hd => ?_
    obtain ⟨pwr, host, tiles⟩ := hd
    refine ⟨pwr, host, fun i => ⟨fun others => ?_, ?_⟩⟩
    · have kept : ∀ c ∈ cs, c.tile ≠ i ∨ ¬ Pulses s.dev.tiles[i] c := fun c hc => (others c hc).imp_right not_pulses
      rw [tiles]
      exact vddpLost_other (d := here s t) kept
    · exact cells_own (x := unpressedTile s.dev.tiles[i]) (by rw [tiles]; exact vddpLost_cells (here s t) i)
  · intro s t c f hv hp hf hc
    refine does_imp (vddpOutOfRange_loses hv hp) fun d hd => ?_
    have pulses : Pulses s.dev.tiles[c.tile] c := ⟨f, hf, hc.1.symm, List.contains_iff_mem.mpr hc.2⟩
    rw [hd.2.2]
    exact vddpLost_level (d := here s t) pulses
  · intro s t hv hp e
    exact vddpInRange_returns hv hp

end Sys2Proof.Proofs
